-- ==== Sys2Proof/Word.lean ====
section
/-! DEFINITION. The words the model is written in: bytes, 32-bit registers, sparse maps, and device time. -/
namespace Sys2Proof

/-- One byte. -/
abbrev Byte := BitVec 8

/-- One 32-bit register word. -/
abbrev Word := BitVec 32

end Sys2Proof

namespace Sys2Proof.Machine

/-- A sparse map from a number (a lane, a queue, a function) to its piece of state; an absent key stands for the piece's
value after reset. -/
abbrev SMap (α : Type) := List (Nat × α)

/-- Device time (R78): seconds, nanoseconds below 1,000,000,000, and the fraction of a nanosecond in units of 2^-32. -/
structure DevTime where
  sec  : Nat := 0
  ns   : Nat := 0
  frac : Nat := 0
  deriving DecidableEq, Repr, Inhabited

end Sys2Proof.Machine
end

