-- ==== Sys2Proof/Syntax.lean ====
section
/-! DEFINITION. The commands of the block: one constructor per row of spec/opcode_table.json, with what each carries. -/
namespace Sys2Proof.Machine

/-- A command packet (R113) as the adapter reads it from its slot: the issuing function's IID, whether it came on the secure
channel, the 16-byte header, the 48 PARAM bytes, and, for INDIRECT (R114), the buffer bytes it read (`none`: the read is still
to be made, and READ_COMPLETION or COMPLETION_TIMEOUT will end it; a buffer that is only written brings none, log 87). -/
structure CmdPkt where
  fn    : Nat
  sec   : Bool
  hdr   : BitVec 128
  param : BitVec 384
  ind   : Option (List Byte)
  deriving DecidableEq, Repr, Inhabited

/-- A Rhoady image (R129): the header's fields and the payload. -/
structure FwImage where
  magic : Nat
  format : Nat
  hdrLen : Nat
  version : Nat
  svn : Nat
  imageLen : Nat
  entryMgmt : Nat
  entryCtrl : Nat
  payloadHash : BitVec 256
  pubkey : List Byte
  signature : List Byte
  payload : List Byte
  deriving DecidableEq, Repr, Inhabited

/-- What an AVSBus transaction ends in (R636). -/
inductive AvsResult where
  | noResponse
  | statusFault
  | readback (mv16 : Nat)
  deriving DecidableEq, Repr

/-- A configuration-space request (R132, R459, R460): a read, or a write of a dword. -/
inductive CfgReq where
  | read (offset : Nat)
  | write (offset : Nat) (value : Word)
  deriving DecidableEq, Repr

/-- A BAR2 request (R492): a read of a length, or a write of bytes. -/
inductive Bar2Req where
  | read (length : Nat)
  | write (data : List Byte)
  deriving DecidableEq, Repr

/-- How a non-posted request ended (R480): with data, or with an error. -/
inductive CplEnd where
  | ok (data : List Byte)
  | error
  deriving DecidableEq, Repr

/-- Where a register access is made: through a function's BAR0 (R463), or at an internal address (R667). -/
inductive RegPlace where
  | bar0 (fn offset : Nat)
  | internal (addr : Nat)
  deriving DecidableEq, Repr

/-- The three queue rings (R466). -/
inductive QRing where
  | tx | rx | cq
  deriving DecidableEq, Repr

/-- Why a lane leaves LINKED or ACTIVE (R176). -/
inductive DownCause where
  | lockLost | hiBer | localFault | remoteFault | fecLockLost
  deriving DecidableEq, Repr

/-- A table entry that a set's TABLE_INIT section holds (log 14): instance, table, key, prefix length, action, data. -/
structure InitEntry where
  inst : Nat
  table : Nat
  key : List Byte
  plen : Nat
  action : Nat
  data : List Byte
  deriving DecidableEq, Repr, Inhabited

/-- What a set image holds in the sections whose layout no chapter gives (log 14): table entries and counter values, metadata
layouts by pipeline, and the event codes whose punts its handlers forward. -/
structure SetInit where
  entries : List InitEntry := []
  counters : List (Nat × Nat × Nat × Nat × Nat) := []
  metas : List (Nat × List Nat) := []
  handlers : Option (List Nat) := none
  deriving DecidableEq, Repr, Inhabited

end Sys2Proof.Machine

namespace Sys2Proof
open Sys2Proof.Machine

/-- The commands, in the order of spec/opcode_table.json. -/
inductive Instr where
  /-- R344, R637. VDD_AO rises through its threshold. -/
  | powerOnAo
  /-- R638, R648. ADP_PWROK rises; `cool`: every region's diode reads below 100 °C. -/
  | adpPwrokRise (cool : Bool)
  /-- R641. The step in progress misses its bound. -/
  | pwrSeqFail
  /-- R44. The root PLL locks on a valid reference. -/
  | rootPllLock
  /-- R130. The boot images the flash slots hold are read and checked. -/
  | fwBootCheck (img0 img1 : Option FwImage)
  /-- R132. One second after lock without an accepted image. -/
  | fwRecoveryTimeout
  /-- R587. The start-up test; `failed`: the slices that fail, with the address and pass of the first failure. -/
  | startUpTest (failed : List (Nat × Nat × Nat))
  /-- R131, R136. -/
  | fwReady
  /-- R135. A control core misses its heartbeat. -/
  | heartbeatTimeout (core : Fin 64)
  /-- R45, R47. -/
  | pllLockLost
  /-- R46. -/
  | pllRelock
  /-- R640. PWR_PG_(n+1) stays low for 10 µs. -/
  | pwrPgLost (n : Fin 3)
  /-- R642. -/
  | adpPwrokFall
  /-- R647. The hardware comparator of a region trips at `tj` °C. -/
  | thermComparatorTrip (k : Fin 24) (tj : Int)
  /-- R54. A region's monitor samples its supply (mV) and its temperature (°C). -/
  | regionMonitorSample (k : Fin 24) (vdd : Nat) (tj : Int)
  /-- R58. -/
  | stretchStepRise (k : Fin 24)
  /-- R59. -/
  | stretchStepFall (k : Fin 24)
  /-- R60. -/
  | regionLimitRepeat (k : Fin 24)
  /-- R62. -/
  | avsLimitRaise (k : Fin 24)
  /-- R645. The total formed from readbacks, U12.4 W. -/
  | powerTotalSample (total : Nat)
  /-- R646. -/
  | capStepRise
  /-- R646. -/
  | capStepFall
  /-- R646. -/
  | thermalStepRise (k : Fin 24)
  /-- R646. -/
  | thermalStepFall (k : Fin 24)
  /-- R636. A transaction of a rail ends; a readback is U12.4 mV. -/
  | avsResponse (bus : Bool) (rail : Fin 16) (r : AvsResult)
  /-- R63. A replica checks itself; `upset` is the value a disturbance has left in it, if any. -/
  | timeReplicaCheck (k : Fin 23) (upset : Option DevTime)
  /-- R108. A doorbell write to CMD_RING_PI (`sec`: SEC_CMD_RING_PI). -/
  | cmdRingPi (fn : Nat) (sec : Bool) (value : Word)
  /-- R104. A write of CMD_RING_CTL whose ENABLE is 1. -/
  | cmdRingEnable (fn : Nat) (sec : Bool) (value : Word)
  /-- R105. A write of CMD_RING_CTL whose ENABLE is 0. -/
  | cmdRingDisable (fn : Nat) (sec : Bool) (value : Word)
  /-- R109. A command read ends in an error completion or a timeout. -/
  | commandFetchError (fn : Nat) (sec : Bool)
  /-- R120. -/
  | adapterInfo (c : CmdPkt)
  /-- R120. -/
  | fwStatus (c : CmdPkt)
  /-- R133. `img`: the image the INDIRECT buffer holds. -/
  | fwUpdate (c : CmdPkt) (img : FwImage)
  /-- R134. -/
  | fwActivate (c : CmdPkt)
  /-- R124. -/
  | evtRingSet (c : CmdPkt)
  /-- R120. -/
  | evtSubscribe (c : CmdPkt)
  /-- R124. -/
  | puntRingSet (c : CmdPkt)
  /-- R555. -/
  | nodeIdSet (c : CmdPkt)
  /-- R293. -/
  | counterRead (c : CmdPkt)
  /-- R510. -/
  | instConfig (c : CmdPkt)
  /-- R523. -/
  | instQuiesce (c : CmdPkt)
  /-- R527. -/
  | instReset (c : CmdPkt)
  /-- R530. -/
  | instRemove (c : CmdPkt)
  /-- R475. -/
  | queueRestart (c : CmdPkt)
  /-- R531. -/
  | dirtyLogStart (c : CmdPkt)
  /-- R535. -/
  | dirtyLogHarvest (c : CmdPkt)
  /-- R536. -/
  | dirtyLogStop (c : CmdPkt)
  /-- R522. -/
  | mboxStatus (c : CmdPkt)
  /-- R302, R303. -/
  | tblInsert (c : CmdPkt)
  /-- R303. -/
  | tblDelete (c : CmdPkt)
  /-- R303. -/
  | tblModify (c : CmdPkt)
  /-- R303. -/
  | tblLookup (c : CmdPkt)
  /-- R304. -/
  | tblDump (c : CmdPkt)
  /-- R302. -/
  | tblAgeCfg (c : CmdPkt)
  /-- R302. -/
  | learnCfg (c : CmdPkt)
  /-- R146. The image is the INDIRECT buffer's; `init`: the three sections whose layout no chapter gives (log 14). -/
  | setLoad (c : CmdPkt) (init : SetInit)
  /-- R159, R165. -/
  | setFire (c : CmdPkt)
  /-- R163. -/
  | setCancel (c : CmdPkt)
  /-- R172. -/
  | setStatus (c : CmdPkt)
  /-- R152. -/
  | featureEnable (c : CmdPkt)
  /-- R345. -/
  | timeGet (c : CmdPkt)
  /-- R346. -/
  | timeIncSet (c : CmdPkt)
  /-- R349. -/
  | timeAdjust (c : CmdPkt)
  /-- R350. -/
  | timeSet (c : CmdPkt)
  /-- R351. -/
  | timeJumpThr (c : CmdPkt)
  /-- R379. -/
  | gateLoad (c : CmdPkt)
  /-- R360. -/
  | tsCalSet (c : CmdPkt)
  /-- R370. -/
  | ppsCfg (c : CmdPkt)
  /-- R402. -/
  | keyDerive (c : CmdPkt)
  /-- R409. -/
  | keyDestroy (c : CmdPkt)
  /-- R410. -/
  | keyQuery (c : CmdPkt)
  /-- R399. -/
  | ciphDummyRate (c : CmdPkt)
  /-- R228. -/
  | laneStatus (c : CmdPkt)
  /-- R224. -/
  | lanePark (c : CmdPkt)
  /-- R225. -/
  | laneWake (c : CmdPkt)
  /-- R205. -/
  | substStatus (c : CmdPkt)
  /-- R214. -/
  | reorderStats (c : CmdPkt)
  /-- R430. -/
  | qpCreate (c : CmdPkt)
  /-- R430. -/
  | qpModify (c : CmdPkt)
  /-- R431. -/
  | qpDestroy (c : CmdPkt)
  /-- R446. -/
  | nsCreate (c : CmdPkt)
  /-- R446. -/
  | nsDelete (c : CmdPkt)
  /-- R498. -/
  | slotCtl (c : CmdPkt)
  /-- R432. -/
  | connQuery (c : CmdPkt)
  /-- R590. -/
  | kilnStatus (c : CmdPkt)
  /-- R573. -/
  | kilnSchedule (c : CmdPkt)
  /-- R591. -/
  | kilnRun (c : CmdPkt)
  /-- R588. -/
  | failPolicy (c : CmdPkt)
  /-- R600. -/
  | marginRead (c : CmdPkt)
  /-- R602. -/
  | fiSet (c : CmdPkt)
  /-- R604. -/
  | fiClear (c : CmdPkt)
  /-- R661. -/
  | pwrStatus (c : CmdPkt)
  /-- R662. -/
  | pwrCap (c : CmdPkt)
  /-- R663. -/
  | telemCfg (c : CmdPkt)
  /-- R556. -/
  | pealJoin (c : CmdPkt)
  /-- R556. -/
  | pealLeave (c : CmdPkt)
  /-- R557. -/
  | pealStatus (c : CmdPkt)
  /-- R558. -/
  | pealSend (c : CmdPkt)
  /-- R493. -/
  | windowWrite (c : CmdPkt)
  /-- R494. -/
  | windowCommit (c : CmdPkt)
  /-- R488. -/
  | msixMap (c : CmdPkt)
  /-- R476. -/
  | queueRoCfg (c : CmdPkt)
  /-- R17, R667. A 32-bit register write that has no row of its own. -/
  | registerWrite (r : RegPlace) (v : Word)
  /-- R76. A read of the lower word of a wide counter. -/
  | counterLowRead (r : RegPlace)
  /-- R340. A write of TM_BUF_PEAK[u]. -/
  | tmBufPeakReset (u : Fin 4) (v : Word)
  /-- R564. -/
  | pealCfgWrite (v : Word)
  /-- R123, R464. -/
  | hostEvtAck (fn : Nat) (v : Word)
  /-- R124, R464. -/
  | hostPuntAck (fn : Nat) (v : Word)
  /-- R467. -/
  | hostDbTx (fn slot : Nat) (v : Word)
  /-- R467. -/
  | hostDbRx (fn slot : Nat) (v : Word)
  /-- R467, R487. -/
  | hostDbCq (fn slot : Nat) (v : Word)
  /-- R468. A write of HOST_Q_CTL that enables rings. -/
  | hostQRingEnable (fn slot : Nat) (v : Word)
  /-- R468. A write of HOST_Q_CTL that clears ring enables. -/
  | hostQRingDisable (fn slot : Nat) (v : Word)
  /-- R489, R490. -/
  | hostIntxStsClear (fn : Nat) (v : Word)
  /-- R515. A write of INST_MBOX_TX_CTL (`sec`: SEC_MBOX_TX_CTL) with GO = 1. -/
  | messagePost (fn : Nat) (sec : Bool) (v : Word)
  /-- R515. A write of ACK = 1. -/
  | mboxAck (fn : Nat) (sec : Bool)
  /-- R515. The timer of sender `fn`'s message expires. -/
  | mailboxTimeout (fn : Nat) (sec : Bool)
  /-- R516. A read, or a write, of a mailbox register of a function whose domain is down. -/
  | mboxDomainDownAccess (fn : Nat) (write : Bool)
  /-- R521. Rhoady posts the oldest held notice of an instance. -/
  | mboxNoticePost (fn : Nat)
  /-- R463. -/
  | bar0BadAccess (fn : Nat) (write : Bool)
  /-- R492. -/
  | bar2Request (port : Fin 8) (offset : Nat) (r : Bar2Req)
  /-- R132, R459, R460. -/
  | configRequest (fn : Nat) (r : CfgReq)
  /-- R482. -/
  | busMasterDisable (fn : Nat)
  /-- R483. -/
  | busMasterEnable (fn : Nat)
  /-- R484. -/
  | functionLevelReset (fn : Nat)
  /-- R461, R529. VF Enable and NumVFs of a port's physical function are written. -/
  | vfEnableChange (port : Fin 8) (enable : Bool) (numVfs : Nat)
  /-- R507. -/
  | devicePowerStateChange (fn : Nat) (d3hot : Bool)
  /-- R483, R486. A write of a vector's mask bit that clears it. -/
  | msixUnmask (fn vector : Nat)
  /-- R495. -/
  | hostLinkLoss (port : Fin 8) (perst : Bool)
  /-- R458. -/
  | hostLinkUp (port : Fin 8)
  /-- R481. A completion for tag `tag` of a host port (`sp = false`) or storage port arrives. -/
  | readCompletion (sp : Bool) (port : Fin 16) (tag : Nat) (e : CplEnd)
  /-- R480. -/
  | completionTimeout (sp : Bool) (port : Fin 16) (tag : Nat)
  /-- R481. -/
  | tagQuarantineEnd (sp : Bool) (port : Fin 16) (tag : Nat)
  /-- R618. The trust region takes the NONCE_REQ that a port's physical function posted. -/
  | nonceReq (port : Fin 8)
  /-- R618. The trust region takes an AUTH; `buf` is what it read from the buffer. -/
  | auth (port : Fin 8) (buf : Option (List Byte))
  /-- R618. The verification of an AUTH completes. -/
  | authVerified (port : Fin 8)
  /-- R621. -/
  | close (port : Fin 8)
  /-- R614. -/
  | lcAdvance (port : Fin 8)
  /-- R624. -/
  | rootImport (port : Fin 8) (buf : Option (List Byte))
  /-- R623. `ok` selects nothing: the key is written by posted writes, which have no completion (R492). -/
  | kemKeyGet (port : Fin 8) (ok : Bool)
  /-- R611. -/
  | fuseProgram (port : Fin 8)
  /-- R617. -/
  | scrapZeroise
  /-- R627. -/
  | entropyHealthFail
  /-- R626. -/
  | entropyReseed
  /-- R629. -/
  | getVersion (port : Fin 8)
  /-- R629. `minor`: the minor version of the request's SPDM version. -/
  | getCapabilities (port : Fin 8) (minor : Nat)
  /-- R629. Whether the requester selects SHA3-256 and the ML-DSA-65 extended algorithm. -/
  | negotiateAlgorithms (port : Fin 8) (sha3 mlDsa : Bool)
  /-- R629. -/
  | getDigests (port : Fin 8)
  /-- R629. -/
  | getCertificate (port : Fin 8) (slot offset length : Nat)
  /-- R629. -/
  | challenge (port : Fin 8) (slot : Nat) (nonce : List Byte)
  /-- R628. `index`: a measurement index, 0 for the count, 0xFF for all. -/
  | getMeasurements (port : Fin 8) (index : Nat) (signed : Bool) (nonce : List Byte)
  /-- R160. Device time reaches the instant of the armed firing. -/
  | firingEffective
  /-- R154. -/
  | straddleWindowClose
  /-- R170. -/
  | setDrainEnd
  /-- R171. -/
  | drainLimitExpiry
  /-- R378. The pending list of a logical port starts. -/
  | gateListStart (port : Fin 1024)
  /-- R376. -/
  | gateStateChange (port : Fin 1024)
  /-- R367. The head frame of a class queue of a lane reaches its launch time. -/
  | launchTimeReached (lane : Fin 1024) (cls : Fin 8)
  /-- R371. -/
  | ppsRise
  /-- R371. -/
  | ppsFall
  /-- R88. -/
  | bucketRefill
  /-- R174. A frame, or part of one, arrives on a lane that delivers frames. `more`: it goes on; `bad`: its FCS is bad or a block
  of it is error-marked; `ui`: the unit intervals of its stamp (R93); `corr`, `uncorr`: codewords that RS-FEC corrected, or could
  not, since the last row. -/
  | laneFrameReceived (lane : Fin 1024) (bytes : List Byte) (more bad : Bool) (ui : Fin 33) (corr uncorr : Nat)
  /-- R217. -/
  | cutThroughThreshold (p : Nat)
  /-- R219. The class-enable vector and the eight quanta of the frame. -/
  | pfcFrameReceived (lane : Fin 1024) (vector : BitVec 8) (times : List Nat)
  /-- R220. -/
  | pfcPauseExpiry (lane : Fin 1024) (cls : Fin 8)
  /-- R174. -/
  | pauseFrameReceived (lane : Fin 1024)
  /-- R221. -/
  | pfcXoffRepeat (port : Fin 1024) (cls : Fin 8)
  /-- R26. A packet that waits takes its slot. `upset`: what of its pipeline's tables a disturbance has struck since: table, row and
  32-bit word. -/
  | passStart (p : Nat) (upset : List (Nat × Nat × Nat))
  /-- R239. -/
  | parseNodeVisit (p : Nat)
  /-- R248. -/
  | frameEndClaimTest (p : Nat)
  /-- R279. -/
  | hbmLookupResult (p : Nat) (bad : List (Nat × Nat × Nat))
  /-- R286. -/
  | nop (p : Nat)
  /-- R286. -/
  | set (p : Nat)
  /-- R286. -/
  | copy (p : Nat)
  /-- R286. -/
  | data (p : Nat)
  /-- R286. -/
  | add (p : Nat)
  /-- R286. -/
  | and (p : Nat)
  /-- R286. -/
  | or (p : Nat)
  /-- R286. -/
  | xor (p : Nat)
  /-- R286. -/
  | setif (p : Nat)
  /-- R286. -/
  | count (p : Nat)
  /-- R286. -/
  | meter (p : Nat)
  /-- R287. -/
  | inval (p : Nat)
  /-- R287. -/
  | encap (p : Nat)
  /-- R287. -/
  | decap (p : Nat)
  /-- R286. -/
  | write (p : Nat)
  /-- R287. -/
  | mplsPush (p : Nat)
  /-- R286. -/
  | l4adj (p : Nat)
  /-- R286. -/
  | learn (p : Nat)
  /-- R286. -/
  | fragrec (p : Nat)
  /-- R286. -/
  | recirc (p : Nat)
  /-- R286. -/
  | punt (p : Nat)
  /-- R286. -/
  | drop (p : Nat)
  /-- R257. -/
  | fragmentDecided (e : Nat)
  /-- R256. -/
  | fragmentHoldExpiry (p : Nat)
  /-- R259. -/
  | fragmentLifetimeExpiry (e : Nat)
  /-- R196. -/
  | spray (p : Nat)
  /-- R185. `ui`: the unit intervals of its stamp. -/
  | laneFrameBegin (lane : Fin 1024) (ui : Fin 33)
  /-- R185. -/
  | laneFrameEnd (lane : Fin 1024)
  /-- R176. -/
  | laneGoesDown (lane : Fin 1024) (cause : DownCause)
  /-- R177. -/
  | laneLockHeld (lane : Fin 1024)
  /-- R222. -/
  | chimeHeard (lane : Fin 1024)
  /-- R225. -/
  | laneWakeTimeout (lane : Fin 1024)
  /-- R650. -/
  | laneRefLost (k : Fin 16)
  /-- R207. -/
  | reorderArrival (p : Nat)
  /-- R208. -/
  | reorderTimeout (key : Nat)
  /-- R210. -/
  | reorderIdleExpiry (key : Nat)
  /-- R298. -/
  | learnReport (k : Fin 16)
  /-- R300. `touched`: a hit or a command's write falls between the scanner's read and its conditional delete. -/
  | ageScanVisit (inst table handle : Nat) (touched : Bool)
  /-- R333, R469. A transmit descriptor and its payload have arrived. -/
  | descriptorFetchComplete (fn slot : Nat) (desc : BitVec 512) (payload : List Byte)
  /-- R317. -/
  | hostSchedulerSelect (k : Fin 16)
  /-- R471. `buf`: the receive buffer descriptor that was fetched. -/
  | rxPacketWrite (fn slot : Nat) (buf : BitVec 128)
  /-- R473. -/
  | completionEntryIssue (fn slot : Nat)
  /-- R389. The oldest operation that can be dispatched. -/
  | cipherDispatch
  /-- R407. `bad`: the record of the key reads with an uncorrectable error. -/
  | keyReload (idx : Nat) (bad : Bool)
  /-- R417. -/
  | tagResult (id : Nat)
  /-- R391. -/
  | cipherResultRelease (id : Nat)
  /-- R426. -/
  | transportContextFetch (onum : Nat)
  /-- R434. Its transport header begins at byte `off`. `icrcOk` and `ce` select nothing: the engine computes the ICRC over the packet's
  bytes and reads the congestion mark in them. -/
  | rocePacketReceived (p off : Nat) (icrcOk ce : Bool)
  /-- R435. -/
  | cnpReceived (p off : Nat)
  /-- R434. -/
  | ackTimeout (onum : Nat)
  /-- R437. Its TCP header begins at byte `off`. `csumOk` and `ce` select nothing: the engine computes the checksum over the segment's
  bytes and reads the congestion mark in them. -/
  | tcpSegmentReceived (p off : Nat) (csumOk ce : Bool)
  /-- R437. -/
  | tcpRetransmitTimeout (onum : Nat)
  /-- R431. -/
  | objectNumberRelease (onum : Nat)
  /-- R447. The oldest command of a target connection. -/
  | nvmeCommand (onum : Nat)
  /-- R450, R502. The status and data of a command that a drive completes. -/
  | driveCompletion (sp : Fin 16) (id status : Nat) (data : List Byte)
  /-- R502. -/
  | driveCommandTimeout (id : Nat)
  /-- R449. -/
  | storageCacheFill (line : Nat) (data : List Byte)
  /-- R500. -/
  | drivePresenceChange (sp : Fin 16) (present : Bool)
  /-- R500. -/
  | attentionButton (sp : Fin 16)
  /-- R501. -/
  | slotPowerFault (sp : Fin 16)
  /-- R450. -/
  | driveLinkDown (sp : Fin 16)
  /-- R499. -/
  | slotPerstRelease (sp : Fin 16)
  /-- R499. -/
  | slotLinkDeadline (sp : Fin 16)
  /-- R499. The drive's namespaces: NSID, blocks, and LBA format. -/
  | driveControllerReady (sp : Fin 16) (nss : List (Nat × Nat × Nat))
  /-- R655. -/
  | laserMatedChange (k : Fin 16) (mated : Bool)
  /-- R653. -/
  | laserSourceFault (k : Fin 16)
  /-- R548. The frame's bytes from SRC to the end of its CRC; `bad`: a stop bit of 0, idle between characters, or a wrong SYNC (R542). -/
  | token (bytes : List Byte) (bad : Bool)
  /-- R553. -/
  | solicit (bytes : List Byte) (bad : Bool)
  /-- R552. -/
  | joinReq (bytes : List Byte) (bad : Bool)
  /-- R553. -/
  | joinAck (bytes : List Byte) (bad : Bool)
  /-- R554. -/
  | claim (bytes : List Byte) (bad : Bool)
  /-- R547. -/
  | leave (bytes : List Byte) (bad : Bool)
  /-- R166. -/
  | fireAnnounce (bytes : List Byte) (bad : Bool)
  /-- R168. -/
  | fireCancel (bytes : List Byte) (bad : Bool)
  /-- R562. -/
  | fireArmed (bytes : List Byte) (bad : Bool)
  /-- R383. -/
  | time (bytes : List Byte) (bad : Bool)
  /-- R558, R569. `bytes` begins with TYPE: 0x21, or an operator type. -/
  | alert (bytes : List Byte) (bad : Bool)
  /-- R558. -/
  | telemetry (bytes : List Byte) (bad : Bool)
  /-- R546. -/
  | pealContendSend (clash : Bool)
  /-- R549. -/
  | pealSuccessorWatch
  /-- R551. -/
  | pealTokenTimeout
  /-- R552. -/
  | pealJoinWindowEnd
  /-- R554. -/
  | pealSilence
  /-- R663. -/
  | telemetryPeriod
  /-- R575. -/
  | kilnBankStep (k : Fin 16)
  /-- R578. -/
  | kilnBufferStep
  /-- R578. -/
  | kilnBufferCopy
  /-- R580. -/
  | kilnCipherStep
  /-- R580. -/
  | kilnCoreDrained
  /-- R580. -/
  | kilnCipherDrainTimeout
  /-- R581. -/
  | kilnFragWayStep (k : Fin 16)
  /-- R581. -/
  | kilnWayDrainTimeout (k : Fin 16)
  /-- R582. -/
  | targetedTestStart (slice : Nat)
  /-- R583. `fail`: the address and pass of the first failure. -/
  | kilnTestDone (slice : Nat) (fail : Option (Nat × Nat))
  /-- R571. HBM words that the scrub corrects, and finds beyond correction. -/
  | patrolScrub (corrected uncorrectable : Nat)
  /-- R597. The counts of the region's ring oscillators, taps of its replicas, steps of its SRAM sensors. -/
  | crazingSample (k : Fin 24) (rings taps steps : List Nat)
  /-- R599. -/
  | guardbandReplan (k : Fin 24)
  /-- R603. -/
  | fiWindowOpen (lane : Fin 1024)
  /-- R604. -/
  | fiWindowEnd (lane : Fin 1024)
  /-- R603. -/
  | fiHoldRelease (lane : Fin 1024)
  /-- R524. -/
  | quiesceDrained (iid : Nat)
  /-- R525. -/
  | quiesceTimeout (iid : Nat)
  /-- R533. -/
  | dirtyLogEntryWrite (iid : Nat)
  /-- R534. What the read of CONSUMER returned. -/
  | dirtyLogConsumerRead (iid : Nat) (value : Option Word)
  /-- R81. -/
  | ckTTick
  /-- R638. PWR_PG_(n+1) goes high. -/
  | pwrPgRise (n : Fin 3)
  /-- R653. -/
  | laserFaultClear (k : Fin 16)
  /-- R650. -/
  | laneRefRestored (k : Fin 16)
  /-- R499. -/
  | driveLinkUp (sp : Fin 16)
  /-- R560. -/
  | fireAnnounceLate
  /-- R430. -/
  | rnrTimerExpiry (onum : Nat)
  /-- R127. -/
  | puntHandler (k : Fin 16)
  /-- R583. -/
  | cipherCoreCheckError (core : Fin 80)
  /-- R627. -/
  | entropyHealthRecover
  /-- R484. -/
  | functionLevelResetDone (fn : Nat)
  /-- R575. -/
  | kilnCopyDone (slice : Nat)
  deriving DecidableEq, Repr

end Sys2Proof
end

