-- ==== Sys2Proof/Machine/Aes.lean ====
section
/-! DEFINITION. AES (FIPS 197), AES-GCM (SP 800-38D) with the options of R393, and XTS-AES (IEEE 1619) with those of R394. -/
namespace Sys2Proof.Machine

/-! ## The field of 2^8 and the S-box -/

/-- A byte times x. -/
def xtime (a : Byte) : Byte := (a <<< 1) ^^^ (if a.msb then 0x1B else 0)

/-- A product in the field. -/
def gfMul (a b : Byte) : Byte :=
  ((List.range 8).foldl (fun (p : Byte × Byte) i => (if b.getLsbD i then p.1 ^^^ p.2 else p.1, xtime p.2)) (0, a)).1

/-- The inverse, as the 254th power; 0 for 0. -/
def gfInv (a : Byte) : Byte :=
  ((List.range 7).foldl (fun (p : Byte × Byte) _ => let q := gfMul p.2 p.2; (gfMul p.1 q, q)) (1, a)).1

/-- SubBytes of one byte, and its inverse. -/
def sbox (a : Byte) : Byte :=
  let b := gfInv a
  b ^^^ b.rotateLeft 1 ^^^ b.rotateLeft 2 ^^^ b.rotateLeft 3 ^^^ b.rotateLeft 4 ^^^ 0x63
def invSbox (a : Byte) : Byte := gfInv (a.rotateLeft 1 ^^^ a.rotateLeft 3 ^^^ a.rotateLeft 6 ^^^ 0x05)

/-! ## The cipher -/

/-- The byte in row r of column c stands at 4c + r. ShiftRows, and its inverse. -/
def shiftRows (st : List Byte) : List Byte := (List.range 16).map fun i => st.getD ((i + 4 * (i % 4)) % 16) 0
def invShiftRows (st : List Byte) : List Byte := (List.range 16).map fun i => st.getD ((i + 12 * (i % 4)) % 16) 0

/-- MixColumns under the coefficients of one column: 2, 3, 1, 1, or 14, 11, 13, 9 for its inverse. -/
def mixColumns (m : List Byte) (st : List Byte) : List Byte :=
  (List.range 16).map fun i =>
    (List.range 4).foldl (fun v j => v ^^^ gfMul (m.getD ((j + 4 - i % 4) % 4) 0) (st.getD (4 * (i / 4) + j) 0)) 0

/-- The key schedule: word `i` of a key of `nk` words, from the words before it. -/
def nextWord (nk i : Nat) (w : List (List Byte)) : List Byte :=
  let t := w.getD (i - 1) []
  let t := if i % nk == 0 then
      xorBytes ((t.drop 1 ++ t.take 1).map sbox) [(List.range (i / nk - 1)).foldl (fun a _ => xtime a) 1, 0, 0, 0]
    else if nk > 6 && i % nk == 4 then t.map sbox else t
  xorBytes (w.getD (i - nk) []) t

/-- The round keys, 16 bytes each. -/
def roundKeys (key : List Byte) : List (List Byte) :=
  let nk := key.length / 4
  let ws := (List.range (4 * (nk + 7) - nk)).foldl (fun w j => w ++ [nextWord nk (nk + j) w]) (chunks 4 key)
  chunks 16 ws.flatten

/-- One block encrypted under round keys. -/
def aesRounds (ks : List (List Byte)) (b : List Byte) : List Byte :=
  let mid := ((ks.drop 1).dropLast).foldl (fun st k => xorBytes (mixColumns [2, 3, 1, 1] (shiftRows (st.map sbox))) k)
    (xorBytes b (ks.headD []))
  xorBytes (shiftRows (mid.map sbox)) (ks.getLastD [])

/-- One block decrypted under round keys. -/
def aesUnrounds (ks : List (List Byte)) (b : List Byte) : List Byte :=
  let mid := ((ks.drop 1).dropLast).reverse.foldl
    (fun st k => mixColumns [14, 11, 13, 9] (xorBytes ((invShiftRows st).map invSbox) k)) (xorBytes b (ks.getLastD []))
  xorBytes ((invShiftRows mid).map invSbox) (ks.headD [])

/-- AES of one block under a key of 16 or 32 bytes, and its inverse. -/
@[irreducible] def aes (key b : List Byte) : List Byte := aesRounds (roundKeys key) b
@[irreducible] def aesInv (key b : List Byte) : List Byte := aesUnrounds (roundKeys key) b

/-! ## GCM (R393, R395) -/

/-- A product in the field of 2^128 of SP 800-38D: numbers whose most significant bit is the first bit of a block. -/
def ghashMul (x y : Nat) : Nat :=
  ((List.range 128).foldl (fun (p : Nat × Nat) i =>
    (if x.testBit (127 - i) then p.1 ^^^ p.2 else p.1,
      if p.2 % 2 == 1 then (p.2 / 2) ^^^ (0xE1 * 2 ^ 120) else p.2 / 2)) (0, y)).1

/-- Bytes padded with zeros to whole blocks. -/
def padBlock (b : List Byte) : List Byte := b ++ List.replicate ((16 - b.length % 16) % 16) 0

/-- GHASH under the hash key, of whole blocks. -/
def ghash (h : Nat) (b : List Byte) : Nat := (chunks 16 b).foldl (fun y x => ghashMul (y ^^^ ofBytesBE x) h) 0

/-- The key stream of `n` blocks from counter `c` on, under an IV of 96 bits (the counter is the low 32 bits). -/
def ctrStream (key iv : List Byte) (c n : Nat) : List Byte :=
  (List.range n).flatMap fun i => aes key (iv ++ bytesBE 4 (c + i))

/-- The payload sealed or opened: the counter begins at J0 + 1, with J0 the IV and counter 1. -/
def gcmCrypt (key iv b : List Byte) : List Byte := xorBytes b (ctrStream key iv 2 ((b.length + 15) / 16))

/-- The tag of 128 bits over additional data and ciphertext, both padded with zeros, and the length block. -/
def gcmTag (key iv aad ct : List Byte) : List Byte :=
  let h := ofBytesBE (aes key (List.replicate 16 0))
  let y := ghash h (padBlock aad ++ padBlock ct ++ bytesBE 8 (8 * aad.length) ++ bytesBE 8 (8 * ct.length))
  xorBytes (bytesBE 16 y) (ctrStream key iv 1 1)

/-! ## XTS (R394) -/

/-- The tweak times x: a little-endian number in the field of 2^128. -/
def xtsDouble (t : Nat) : Nat := if t * 2 < 2 ^ 128 then t * 2 else (t * 2 - 2 ^ 128) ^^^ 0x87

/-- The tweak of block `j` of a data unit. -/
def xtsTweak (k2 : List Byte) (unit j : Nat) : List Byte :=
  bytesOf 16 ((List.range j).foldl (fun t _ => xtsDouble t) (ofBytes (aes k2 (bytesOf 16 unit))))

/-- One block under its tweak. -/
def xtsBlock (enc : Bool) (k1 t b : List Byte) : List Byte :=
  xorBytes (if enc then aes k1 (xorBytes b t) else aesInv k1 (xorBytes b t)) t

/-- A data unit under the key K1 || K2; a final partial block steals from the ciphertext of the block before it. -/
def xts (enc : Bool) (key : List Byte) (unit : Nat) (b : List Byte) : List Byte :=
  let k1 := key.take (key.length / 2)
  let k2 := key.drop (key.length / 2)
  let m := b.length / 16
  let r := b.length % 16
  let blk := fun j => (b.drop (16 * j)).take 16
  let one := fun j x => xtsBlock enc k1 (xtsTweak k2 unit j) x
  if r == 0 then (List.range m).flatMap fun j => one j (blk j)
  else
    -- the last whole block goes under tweak m - 1 on encryption and under tweak m on decryption
    let c := one (if enc then m - 1 else m) (blk (m - 1))
    let last := one (if enc then m else m - 1) (b.drop (16 * m) ++ c.drop r)
    ((List.range (m - 1)).flatMap fun j => one j (blk j)) ++ last ++ c.take r

end Sys2Proof.Machine
end

