-- ==== Sys2Proof/Machine/Keccak.lean ====
section
/-! DEFINITION. The Keccak functions of FIPS 202 and SP 800-185 that the spec names: SHA3-256 (R130, R148, R610, R628),
KMAC256 (R403, R404, R623, R624, R630), and the SHAKE functions that ML-KEM and ML-DSA use. -/
namespace Sys2Proof.Machine

/-- A lane of the 1,600-bit state. -/
abbrev KLane := BitVec 64

/-- Lane (x, y) stands at 5y + x. -/
def kLane (a : List KLane) (x y : Nat) : KLane := a.getD (x % 5 + 5 * (y % 5)) 0

/-- Builds a state from its lanes. -/
def kBuild (f : Nat → Nat → KLane) : List KLane := (List.range 25).map fun i => f (i % 5) (i / 5)

/-- Theta. -/
def kTheta (a : List KLane) : List KLane :=
  let c := (List.range 5).map fun x => (List.range 5).foldl (fun v y => v ^^^ kLane a x y) 0
  let d := (List.range 5).map fun x => c.getD ((x + 4) % 5) 0 ^^^ (c.getD ((x + 1) % 5) 0).rotateLeft 1
  kBuild fun x y => kLane a x y ^^^ d.getD x 0

/-- The rotation of lane (x, y) in rho (FIPS 202, table 2). -/
def kOffset (x y : Nat) : Nat :=
  ([[0, 36, 3, 41, 18], [1, 44, 10, 45, 2], [62, 6, 43, 15, 61], [28, 55, 25, 21, 56], [27, 20, 39, 8, 14]].getD x []).getD y 0

/-- Rho and pi: lane (x, y) comes from (x + 3y, x). -/
def kRhoPi (a : List KLane) : List KLane :=
  kBuild fun x y => let u := (x + 3 * y) % 5; (kLane a u x).rotateLeft (kOffset u x)

/-- Chi. -/
def kChi (a : List KLane) : List KLane :=
  kBuild fun x y => kLane a x y ^^^ (~~~ kLane a (x + 1) y &&& kLane a (x + 2) y)

/-- The next state of the bit register behind the round constants (FIPS 202, algorithm 5). -/
def kLfsr (r : Nat) : Nat := if r * 2 < 256 then r * 2 else (r * 2 - 256) ^^^ 0x71

/-- The round constants from a register state on, `n` of them: bit 2^j - 1 of each comes from the j-th of 7 outputs. -/
def kConstants : Nat → Nat → List KLane
  | 0, _ => []
  | n + 1, r =>
    let st := (List.range 7).foldl (fun (st : Nat × KLane) j =>
      (kLfsr st.1, if st.1 % 2 == 1 then st.2 ||| (1#64 <<< (2 ^ j - 1)) else st.2)) (r, 0)
    st.2 :: kConstants n st.1

/-- One round. -/
def kRound (a : List KLane) (rc : KLane) : List KLane :=
  match kChi (kRhoPi (kTheta a)) with
  | l :: ls => (l ^^^ rc) :: ls
  | [] => []

/-- Keccak-f[1600]. -/
def keccakF (a : List KLane) : List KLane := (kConstants 24 1).foldl kRound a

/-- A block is XORed into the state. -/
def kXorIn (a : List KLane) (block : List Byte) : List KLane :=
  (List.range 25).map fun i => kLane a i (i / 5) ^^^ BitVec.ofNat 64 (ofBytes ((block.drop (8 * i)).take 8))

/-- `n` blocks of output of rate `r` bytes. -/
def kSqueeze (r : Nat) : Nat → List KLane → List Byte
  | 0, _ => []
  | n + 1, a => (a.flatMap fun l => bytesOf 8 l.toNat).take r ++ kSqueeze r n (keccakF a)

/-- The message padded to whole blocks of `r` bytes: the suffix byte, zeros, and 0x80 in the last byte. -/
def kPad (r suffix : Nat) (m : List Byte) : List Byte :=
  let z := r - 1 - m.length % r
  if z == 0 then m ++ [BitVec.ofNat 8 (suffix + 128)]
  else m ++ BitVec.ofNat 8 suffix :: List.replicate (z - 1) 0 ++ [0x80]

/-- The sponge: rate `r` bytes, suffix byte, message, output bytes. -/
@[irreducible] def keccak (r suffix : Nat) (m : List Byte) (out : Nat) : List Byte :=
  let a := (chunks r (kPad r suffix m)).foldl (fun a b => keccakF (kXorIn a b)) (List.replicate 25 0)
  (kSqueeze r ((out + r - 1) / r) a).take out

/-- SHA3-256, as the number whose byte 0 is the digest's first byte. -/
def sha3 (m : List Byte) : BitVec 256 := BitVec.ofNat 256 (ofBytes (keccak 136 0x06 m 32))

/-- SHA3-512, SHAKE128 and SHAKE256. -/
def sha3x512 (m : List Byte) : List Byte := keccak 72 0x06 m 64
def shake128 (m : List Byte) (out : Nat) : List Byte := keccak 168 0x1F m out
def shake256 (m : List Byte) (out : Nat) : List Byte := keccak 136 0x1F m out

/-- The bytes of a number, most significant first, at least one (SP 800-185). -/
def beBytes (x : Nat) : List Byte := bytesBE (max 1 ((x.log2 + 8) / 8)) x

/-- left_encode and right_encode. -/
def leftEncode (x : Nat) : List Byte := BitVec.ofNat 8 (beBytes x).length :: beBytes x
def rightEncode (x : Nat) : List Byte := beBytes x ++ [BitVec.ofNat 8 (beBytes x).length]

/-- encode_string and bytepad. -/
def encodeString (b : List Byte) : List Byte := leftEncode (8 * b.length) ++ b
def bytepad (b : List Byte) (w : Nat) : List Byte :=
  let z := leftEncode w ++ b
  z ++ List.replicate ((w - z.length % w) % w) 0

/-- KMAC256 of SP 800-185: key, message, output bits (whole bytes), customisation string. -/
def kmac (k x : List Byte) (l : Nat) (t : String) : List Byte :=
  keccak 136 0x04 (bytepad (encodeString (ascii "KMAC") ++ encodeString (ascii t)) 136
    ++ bytepad (encodeString k) 136 ++ x ++ rightEncode l) (l / 8)

end Sys2Proof.Machine
end

