-- ==== Sys2Proof/Machine/MlKem.lean ====
section
/-! DEFINITION. ML-KEM-768 of FIPS 203 (R623, R624): the encapsulation key of a seed, and decapsulation under it. -/
namespace Sys2Proof.Machine

/-- A polynomial of 256 coefficients below 3,329, or its transform. -/
abbrev KPoly := List Nat

/-- The modulus. -/
def kemQ : Nat := 3329

/-- A number's low `n` bits in reverse order. -/
def bitRev (n x : Nat) : Nat := (List.range n).foldl (fun a i => 2 * a + (x >>> i) % 2) 0

/-- `x` to the `n` modulo `q`, for exponents below 2^16. -/
def powMod (q x n : Nat) : Nat :=
  ((List.range 16).foldl (fun (p : Nat × Nat) i => (if n.testBit i then p.1 * p.2 % q else p.1, p.2 * p.2 % q)) (1, x % q)).1

/-- The powers 0 to n - 1 of a root, modulo `q`. -/
def powers (q root : Nat) : Nat → Nat → List Nat
  | 0, _ => []
  | n + 1, p => p :: powers q root n (p * root % q)

/-- Coefficient by coefficient. -/
def kAdd (a b : KPoly) : KPoly := List.zipWith (fun x y => (x + y) % kemQ) a b
def kSub (a b : KPoly) : KPoly := List.zipWith (fun x y => (x + kemQ - y) % kemQ) a b

/-- The value of a polynomial at `x` modulo `q`. -/
def evalPoly (q x : Nat) (f : List Nat) : Nat := f.foldr (fun c v => (c + x * v) % q) 0

/-- The exponent of 17 that belongs to pair `i` of a transform: 2 BitRev7(i) + 1. -/
def kemExp (i : Nat) : Nat := 2 * bitRev 7 i + 1

/-- Every second member of a list, from the first. -/
def evens : List Nat → List Nat
  | a :: _ :: l => a :: evens l
  | l => l

/-- The transform: pair i is the polynomial modulo X^2 - 17^(2 BitRev7(i) + 1). -/
def kNtt (f : KPoly) : KPoly :=
  (List.range 128).flatMap fun i =>
    let z := powMod kemQ 17 (kemExp i)
    [evalPoly kemQ z (evens f), evalPoly kemQ z (evens (f.drop 1))]

/-- The inverse transform. -/
def kNttInv (f : KPoly) : KPoly :=
  -- coefficient 2j + b is 1/128 of the sum over i of pair i's part b times 17^(-(2 BitRev7(i) + 1) j)
  let part := fun (g : List Nat) j =>
    let z := powMod kemQ 17 (256 - j)
    3303 * ((List.range 128).zip g).foldl (fun v p => (v + p.2 * powMod kemQ z (kemExp p.1)) % kemQ) 0 % kemQ
  (List.range 128).flatMap fun j => [part (evens f) j, part (evens (f.drop 1)) j]

/-- The product of two transforms, pair by pair. -/
def kMul (f g : KPoly) : KPoly :=
  (List.range 128).flatMap fun i =>
    let a0 := f.getD (2 * i) 0; let a1 := f.getD (2 * i + 1) 0
    let b0 := g.getD (2 * i) 0; let b1 := g.getD (2 * i + 1) 0
    [(a0 * b0 + a1 * b1 % kemQ * powMod kemQ 17 (kemExp i)) % kemQ, (a0 * b1 + a1 * b0) % kemQ]

/-- The sum of products of two vectors of transforms. -/
def kDot (u v : List KPoly) : KPoly := (List.zipWith kMul u v).foldl kAdd (List.replicate 256 0)

/-- Compress and Decompress to `d` bits. -/
def compress (d x : Nat) : Nat := (2 ^ d * x * 2 + kemQ) / (2 * kemQ) % 2 ^ d
def decompress (d y : Nat) : Nat := (2 * kemQ * y + 2 ^ d) / 2 ^ (d + 1)

/-- ByteEncode and ByteDecode of `d` bits to a coefficient, the first at the least significant bits. -/
def packBits (d : Nat) (f : List Nat) : List Byte :=
  bytesOf (f.length * d / 8) (f.foldr (fun c v => c % 2 ^ d + 2 ^ d * v) 0)
def unpackBits (d n : Nat) (b : List Byte) : List Nat :=
  let x := ofBytes b
  (List.range n).map fun i => (x >>> (d * i)) % 2 ^ d

/-- SampleNTT: coefficients below the modulus from the stream's 12-bit values, in order. -/
def sampleKem (seed : List Byte) : KPoly :=
  ((unpackBits 12 672 (shake128 seed 1008)).filter fun c => c < kemQ).take 256

/-- SamplePolyCBD with eta 2. -/
def sampleCbd (b : List Byte) : KPoly :=
  (unpackBits 4 256 b).map fun x => (x % 2 + x / 2 % 2 + kemQ - (x / 4 % 2 + x / 8)) % kemQ

/-- The matrix: entry (i, j) is sampled from rho, j and i. -/
def kemMatrix (rho : List Byte) : List (List KPoly) :=
  (List.range 3).map fun i => (List.range 3).map fun j => sampleKem (rho ++ bytesOf 1 j ++ bytesOf 1 i)

/-- Column `j` of a matrix. -/
def column {α : Type} [Inhabited α] (m : List (List α)) (j : Nat) : List α := m.map fun r => r.getD j default

/-- Small vectors: three polynomials from a seed and a first counter. -/
def kemNoise (seed : List Byte) (n : Nat) : List KPoly :=
  (List.range 3).map fun i => sampleCbd (shake256 (seed ++ bytesOf 1 (n + i)) 128)

/-- The secret vector's transform and the encapsulation key, from d. -/
def kemKey (d : List Byte) : List KPoly × List Byte :=
  let g := sha3x512 (d ++ [3])
  let s := (kemNoise (g.drop 32) 0).map kNtt
  let e := (kemNoise (g.drop 32) 3).map kNtt
  let t := List.zipWith (fun row e => kAdd (kDot row s) e) (kemMatrix (g.take 32)) e
  (s, t.flatMap (packBits 12) ++ g.take 32)

/-- K-PKE encryption of a message of 32 bytes under an encapsulation key, with the coins r. -/
def kemEncrypt (ek m r : List Byte) : List Byte :=
  let t := (chunks 384 (ek.take 1152)).map fun b => (unpackBits 12 256 b).map (· % kemQ)
  let a := kemMatrix (ek.drop 1152)
  let y := (kemNoise r 0).map kNtt
  let e1 := kemNoise r 3
  let e2 := sampleCbd (shake256 (r ++ [6]) 128)
  let u := (List.range 3).map fun j => kAdd (kNttInv (kDot (column a j) y)) (e1.getD j [])
  let mu := (unpackBits 1 256 m).map (decompress 1)
  let v := kAdd (kAdd (kNttInv (kDot t y)) e2) mu
  (u.flatMap fun p => packBits 10 (p.map (compress 10))) ++ packBits 4 (v.map (compress 4))

/-- K-PKE decryption under the secret vector. -/
def kemDecrypt (s : List KPoly) (c : List Byte) : List Byte :=
  let u := (chunks 320 (c.take 960)).map fun b => (unpackBits 10 256 b).map (decompress 10)
  let v := (unpackBits 4 256 (c.drop 960)).map (decompress 4)
  packBits 1 ((kSub v (kNttInv (kDot s (u.map kNtt)))).map (compress 1))

/-- The encapsulation key of the seed d || z. -/
@[irreducible] def mlKemPublic (seed : List Byte) : List Byte := (kemKey (seed.take 32)).2

/-- The shared secret of a ciphertext under the seed d || z; a ciphertext that does not re-encrypt gives the secret of z. -/
@[irreducible] def mlKemDecaps (seed c : List Byte) : List Byte :=
  let (s, ek) := kemKey (seed.take 32)
  let m := kemDecrypt s c
  let g := sha3x512 (m ++ keccak 136 0x06 ek 32)
  if kemEncrypt ek m (g.drop 32) == c then g.take 32 else shake256 (seed.drop 32 ++ c) 32

end Sys2Proof.Machine
end

