-- ==== Sys2Proof/Machine/MlDsa.lean ====
section
/-! DEFINITION. ML-DSA-65 of FIPS 204 (R130, R146, R618, R630): verification, keys from a seed, and signatures, each over the
message with an empty context. -/
namespace Sys2Proof.Machine

/-! ## The ring -/

/-- The modulus; gamma1, gamma2, beta, and the dropped bits d. -/
def dsaQ : Nat := 8380417
def dsaG1 : Nat := 2 ^ 19
def dsaG2 : Nat := 261888
def dsaBeta : Nat := 196
def dsaD : Nat := 13

/-- A polynomial of 256 coefficients, modulo the modulus. -/
abbrev DPoly := List Nat

/-- An integer modulo the modulus, and the representative between -q/2 and q/2. -/
def dsaMod (x : Int) : Nat := (x % (dsaQ : Int)).toNat
def dsaCen (x : Nat) : Int := if x > dsaQ / 2 then (x : Int) - dsaQ else x

def dAdd (a b : DPoly) : DPoly := List.zipWith (fun x y => (x + y) % dsaQ) a b
def dSub (a b : DPoly) : DPoly := List.zipWith (fun x y => (x + dsaQ - y) % dsaQ) a b
def dMul (a b : DPoly) : DPoly := List.zipWith (fun x y => x * y % dsaQ) a b

/-- The transform: the values at 1753^(2 BitRev8(i) + 1). -/
def dNtt (f : DPoly) : DPoly := (List.range 256).map fun i => evalPoly dsaQ (powMod dsaQ 1753 (2 * bitRev 8 i + 1)) f

/-- The inverse transform: coefficient j is 1/256 of the sum of the values times 1753^(-(2 BitRev8(i) + 1) j). -/
def dNttInv (f : DPoly) : DPoly :=
  (List.range 256).map fun j =>
    let z := powMod dsaQ 1753 (512 - j)
    let p := powers dsaQ (z * z % dsaQ) 256 z
    8347681 * ((List.range 256).zip f).foldl (fun v q => (v + q.2 * p.getD (bitRev 8 q.1) 0) % dsaQ) 0 % dsaQ

/-- The sum of products of two vectors of transforms. -/
def dDot (u v : List DPoly) : DPoly := (List.zipWith dMul u v).foldl dAdd (List.replicate 256 0)

/-- Every coefficient is below a bound in magnitude. -/
def dBelow (b : Nat) (f : DPoly) : Bool := f.all fun c => (dsaCen c).natAbs < b

/-! ## Sampling -/

/-- The matrix: entry (r, s) from rho, s and r, by the stream's 23-bit values below the modulus. -/
def dsaMatrix (rho : List Byte) : List (List DPoly) :=
  (List.range 6).map fun r => (List.range 5).map fun c =>
    (((chunks 3 (shake128 (rho ++ bytesOf 1 c ++ bytesOf 1 r) 1008)).map fun b => ofBytes b % 2 ^ 23).filter
      fun x => x < dsaQ).take 256

/-- A secret polynomial with coefficients from -4 to 4, from a seed of 64 bytes and a counter. -/
def dsaSecret (seed : List Byte) (n : Nat) : DPoly :=
  (((unpackBits 4 544 (shake256 (seed ++ bytesOf 2 n) 272)).filter fun x => x < 9).map fun x => (4 + dsaQ - x) % dsaQ).take 256

/-- SampleInBall: from position 207 on, a coefficient is swapped in with its sign; `j` is drawn from the stream. -/
def ballFrom : Nat → Nat → Nat → List Byte → DPoly → DPoly
  | 0, _, _, _, c => c
  | _, _, _, [], c => c
  | n + 1, i, signs, j :: rest, c =>
    if i > 255 then c
    else if j.toNat > i then ballFrom n i signs rest c
    else ballFrom n (i + 1) (signs / 2) rest
      ((c.set i (c.getD j.toNat 0)).set j.toNat (if signs % 2 == 1 then dsaQ - 1 else 1))

/-- The challenge polynomial with 49 coefficients of 1 or -1. -/
def sampleInBall (seed : List Byte) : DPoly :=
  let b := shake256 seed 272
  ballFrom 264 207 (ofBytes (b.take 8)) (b.drop 8) (List.replicate 256 0)

/-! ## Rounding and hints -/

/-- Decompose: the high part from 0 to 15, and the low part. -/
def decomposeD (r : Nat) : Nat × Int :=
  let m := r % (2 * dsaG2)
  let r0 : Int := if m > dsaG2 then (m : Int) - (2 * dsaG2 : Nat) else m
  if (r : Int) - r0 == (dsaQ : Int) - 1 then (0, r0 - 1) else ((((r : Int) - r0) / (2 * dsaG2 : Nat)).toNat, r0)
def highBits (r : Nat) : Nat := (decomposeD r).1

/-- UseHint. -/
def useHint (h : Bool) (r : Nat) : Nat :=
  let (r1, r0) := decomposeD r
  if h then (if r0 > 0 then (r1 + 1) % 16 else (r1 + 15) % 16) else r1

/-- A hint: the positions set in each of 6 polynomials, rising. -/
abbrev Hint := List (List Nat)

/-- HintBitPack: 55 bytes of positions and 6 bytes of running counts. -/
def packHint (h : Hint) : List Byte :=
  let ps := h.flatten
  ps.map (BitVec.ofNat 8) ++ List.replicate (55 - ps.length) 0
    ++ (List.range 6).map fun i => BitVec.ofNat 8 ((h.take (i + 1)).flatten).length

/-- A list of numbers rises strictly. -/
def rising : List Nat → Bool
  | a :: b :: l => a < b && rising (b :: l)
  | _ => true

/-- HintBitUnpack: none where the counts do not rise to at most 55, positions do not rise, or unused bytes are not zero. -/
def unpackHint (b : List Byte) : Option Hint :=
  let ends := 0 :: (b.drop 55).map BitVec.toNat
  let hs := (List.range 6).map fun i => ((b.take (ends.getD (i + 1) 0)).drop (ends.getD i 0)).map BitVec.toNat
  let last := ends.getLastD 0
  if ((List.range 6).all fun i => ends.getD i 0 ≤ ends.getD (i + 1) 0) && last ≤ 55 && hs.all rising
      && ((b.take 55).drop last).all (· == 0) then some hs else none

/-! ## Keys, signatures -/

/-- The message representative mu, from the public key and the message with an empty context. -/
def dsaMu (pk m : List Byte) : List Byte := shake256 (shake256 pk 64 ++ [0, 0] ++ m) 64

/-- w1 as 4 bits to a coefficient. -/
def packW1 (w : List (List Nat)) : List Byte := w.flatMap (packBits 4)

/-- Verification (FIPS 204, algorithms 3 and 8): public key, message, signature. -/
@[irreducible] def mlDsaVerify (pk m sig : List Byte) : Bool :=
  match unpackHint (sig.drop 3248) with
  | none => false
  | some h =>
    let a := dsaMatrix (pk.take 32)
    let t1 := (chunks 320 (pk.drop 32)).map (unpackBits 10 256)
    let ct := sig.take 48
    let z := (chunks 640 ((sig.drop 48).take 3200)).map fun b => (unpackBits 20 256 b).map fun x => dsaMod ((dsaG1 : Int) - x)
    let c := dNtt (sampleInBall ct)
    let zh := z.map dNtt
    let w := (List.range 6).map fun i =>
      dNttInv (dSub (dDot (a.getD i []) zh) (dMul c (dNtt ((t1.getD i []).map fun x => x * 2 ^ dsaD))))
    let w1 := (List.range 6).map fun i =>
      (List.range 256).map fun j => useHint ((h.getD i []).contains j) ((w.getD i []).getD j 0)
    pk.length == 1952 && sig.length == 3309 && z.all (dBelow (dsaG1 - dsaBeta)) && shake256 (dsaMu pk m ++ packW1 w1) 48 == ct

/-- What a seed gives (FIPS 204, algorithm 6). -/
structure DsaKey where
  rho : List Byte
  k   : List Byte
  s1  : List DPoly
  s2  : List DPoly
  t0  : List DPoly
  pk  : List Byte

/-- ML-DSA.KeyGen of a seed. -/
def dsaKey (seed : List Byte) : DsaKey :=
  let g := shake256 (seed ++ [6, 5]) 128
  let rho := g.take 32
  let mid := (g.drop 32).take 64
  let s1 := (List.range 5).map (dsaSecret mid)
  let s2 := (List.range 6).map fun i => dsaSecret mid (5 + i)
  let s1h := s1.map dNtt
  let t := List.zipWith (fun row e => dAdd (dNttInv (dDot row s1h)) e) (dsaMatrix rho) s2
  let low : Nat → Int := fun x => let m := x % 8192; if m > 4096 then (m : Int) - 8192 else (m : Int)
  let t0 := t.map fun p => p.map fun x => dsaMod (low x)
  let t1 := t.map fun p => p.map fun (x : Nat) => (((x : Int) - low x) / 8192).toNat
  { rho, k := g.drop 96, s1, s2, t0, pk := rho ++ t1.flatMap (packBits 10) }

/-- The device's public key of a seed (R630). -/
@[irreducible] def mlDsaPublic (seed : List Byte) : List Byte := (dsaKey seed).pk

/-- One attempt at a signature under the counter kappa; none where it is rejected. -/
def dsaAttempt (key : DsaKey) (a : List (List DPoly)) (mu rr : List Byte) (kappa : Nat) : Option (List Byte) :=
  let y := (List.range 5).map fun i =>
    (unpackBits 20 256 (shake256 (rr ++ bytesOf 2 (kappa + i)) 640)).map fun x => dsaMod ((dsaG1 : Int) - x)
  let yh := y.map dNtt
  let w := a.map fun row => dNttInv (dDot row yh)
  let ct := shake256 (mu ++ packW1 (w.map fun p => p.map highBits)) 48
  let c := dNtt (sampleInBall ct)
  let times := fun p => dNttInv (dMul c (dNtt p))
  let z := List.zipWith dAdd y (key.s1.map times)
  let r := List.zipWith dSub w (key.s2.map times)
  let ct0 := key.t0.map times
  let h : Hint := List.zipWith (fun r t =>
    (List.range 256).filter fun j => highBits (r.getD j 0) != highBits ((r.getD j 0 + t.getD j 0) % dsaQ)) r ct0
  if z.all (dBelow (dsaG1 - dsaBeta)) && (r.all fun p => p.all fun x => (decomposeD x).2.natAbs < dsaG2 - dsaBeta)
      && ct0.all (dBelow dsaG2) && h.flatten.length ≤ 55 then
    some (ct ++ (z.flatMap fun p => packBits 20 (p.map fun x => ((dsaG1 : Int) - dsaCen x).toNat)) ++ packHint h)
  else none

/-- The first attempt that is not rejected, of `n` (FIPS 204 lets an implementation bound them at 814). -/
def dsaAttempts (key : DsaKey) (a : List (List DPoly)) (mu rr : List Byte) : Nat → Nat → List Byte
  | 0, _ => []
  | n + 1, kappa =>
    match dsaAttempt key a mu rr kappa with
    | some sig => sig
    | none => dsaAttempts key a mu rr n (kappa + 5)

/-- A signature under the key of a seed (FIPS 204, algorithms 2 and 7), with 32 random bytes. -/
@[irreducible] def mlDsaSign (seed m rnd : List Byte) : List Byte :=
  let key := dsaKey seed
  let mu := dsaMu key.pk m
  dsaAttempts key (dsaMatrix key.rho) mu (shake256 (key.k ++ rnd ++ mu) 64) 814 0

end Sys2Proof.Machine
end

