-- ==== Sys2Proof/Config.lean ====
section
/-! DEFINITION. What the spec leaves to the part or leaves open: free values and fused values.
Each is opaque, so a statement holds whatever it is. -/
namespace Sys2Proof.Config

/-- Free values (log 5): the n-th value the adapter draws or the spec leaves open. -/
opaque draw : Nat → Nat

/-- The 16-bit value drawn for a cipher core in a CK_P clock (R397; log 5). -/
opaque cipherDraw : Nat → Nat → Nat

/-- SEVERITY of an event (R122): no chapter gives it per code (log 11). -/
opaque severity : Nat → Nat

/-- Values fused at PROVISION (R610) (log 10). -/
opaque deviceId : List Byte
opaque subsystemId : Nat
opaque laneAddress : Nat → Nat
opaque calTx : Nat → Int
opaque calRx : Nat → Int
opaque baseVoltage : Nat → Nat
opaque monitorFuse : Nat → Nat → Int
opaque devSec : List Byte
opaque root0 : List Byte
opaque romHash : BitVec 256

/-- Bytes of receive window that a TCP connection may hold (R437 gives no size), and the header and data digests that host
software negotiated for a connection (R438 names no attribute for them): bit 0 header, bit 1 data. -/
opaque rcvWindow : Nat
opaque digests : Nat → Nat

/-- What a start-up test leaves at an HBM address that it writes, by the count of the stack's tests (R46, R587; no rule says). -/
opaque hbmTested : Nat → Nat → BitVec 8

/-- The device certificate chain stored in the boot flash (R629). -/
opaque certChain : List Byte

end Sys2Proof.Config
end

