-- ==== Sys2Proof/Machine/State.lean ====
section
/-! DEFINITION. The state of the adapter as plain data, the reasons a step can stop, and the state after reset. -/
namespace Sys2Proof.Machine

/-- What leaves the block, oldest first in `State.out` (log 2). Data is little-endian: byte i is bits [8i+7:8i]. -/
inductive Output where
  /-- A posted write into host memory through a function's DMA path (R68, R477); `ro`: the relaxed-ordering attribute. -/
  | dma (fn addr len data : Nat) (ro : Bool)
  /-- A non-posted read request toward host memory, under a tag (R457). -/
  | read (fn tag addr len : Nat)
  /-- An MSI-X message (R478, R486). -/
  | msix (fn vector : Nat)
  /-- Assert_INTA or Deassert_INTA of a physical function (R489). -/
  | intx (fn : Nat) (assert : Bool)
  /-- A completion of a host read with data (R492, R459), Completer Abort, all ones, or Configuration Request Retry Status. -/
  | cpl (fn len data : Nat)
  | cplAbort (fn : Nat)
  | cplOnes (fn : Nat)
  | cplRetry (fn : Nat)
  /-- A frame sent on a lane: its bytes without preamble, with FCS (R185). -/
  | laneFrame (lane : Nat) (bytes : List Byte)
  /-- A frame on a lane cut short and ended with an error-marked block (R36, R176). -/
  | laneCut (lane : Nat)
  /-- A priority-flow-control frame: its bytes without preamble, with FCS (R219, R221). -/
  | pfc (lane : Nat) (bytes : List Byte)
  /-- Remote fault, or the wake pattern, sent on a lane (R176, R223, R225). -/
  | laneSignal (lane : Nat) (wake : Bool)
  /-- A peal bus frame that this node sends, SYNC first and CRC last (R540). -/
  | peal (frame : List Byte)
  /-- A write of boot flash: a slot's image, or a record (R133, R598). -/
  | flash (addr : Nat) (data : List Byte)
  /-- A voltage written to a rail over AVSBus (R634), in mV. -/
  | avs (bus : Bool) (rail mv : Nat)
  /-- A command and its data sent to a drive (R447), and an Abort of one (R502). -/
  | drive (port cmd op lba blocks : Nat) (data : List Byte)
  | driveAbort (port cmd : Nat)
  /-- SP_PWREN_s and SP_PERST_N_s of a storage port are driven (R497, R499). -/
  | slotPower (port : Nat) (on perstN : Bool)
  /-- A DOE response of a port (R629). -/
  | doe (port : Nat) (bytes : List Byte)
  deriving DecidableEq, Repr

/-- A counter pair of a COUNTER_READ record (R292): packets and bytes. -/
structure Ctr where
  pk : Nat := 0
  by_ : Nat := 0
  deriving DecidableEq, Repr, Inhabited

/-! ## Clocks, power and regions (chapters 02 and 18) -/

/-- A region's monitor and power state (R54 to R62, R646). Ticks are CK_T ticks (log 7). -/
structure Region where
  /-- A sample has been taken since the region's reset was released (R55). -/
  sampled : Bool := false
  vdd : Nat := 0
  tj : Int := 0
  limitV : Bool := false
  limitT : Bool := false
  /-- The neighbour that was last found beyond a limit (R61, log 86). -/
  nb : Nat := 0
  monStep : Nat := 0
  monAt : Nat := 0
  /-- The tick since which every pair of the region is below the release limits (R59). -/
  calm : Option Nat := none
  repeatAt : Nat := 0
  /-- The tick since which a voltage limit persists at step 3/4 (R62). -/
  lowSince : Option Nat := none
  thermStep : Nat := 0
  thermAt : Nat := 0
  warnAt : Nat := 0
  /-- Consecutive samples of 128 °C or more (R647). -/
  hot : Nat := 0
  /-- Set point of the region's rail in mV (R634) and its guardband (R598). -/
  setMv : Nat := 0
  deriving DecidableEq, Repr, Inhabited

/-- An optical engine's laser source and lane reference (R653, R655). -/
structure Laser where
  en : Bool := false
  fault : Bool := false
  mated : Bool := false
  matedAt : Nat := 0
  lref : Bool := false
  faultSeen : Bool := false
  deriving DecidableEq, Repr, Inhabited

/-- The sequencer, the clocks and the power limits. -/
structure Pwr where
  /-- PWR_CLK_STATUS (R47). -/
  ckLocked : Bool := false
  lossOfLock : Bool := false
  refValid : Bool := false
  /-- PWR_SEQ_STS (R644). -/
  stage : Nat := 0
  failCause : Nat := 0
  hxReady : Bool := false
  /-- PWR_THERM_STS (R649). -/
  tripped : Bool := false
  tripHw : Bool := false
  tripRegion : Nat := 0
  tripTj : Int := 0
  /-- THERM_TRIP_N is asserted (R647). -/
  tripOut : Bool := false
  /-- Levels of ADP_PWROK, PWR_EN_1 to 3 and PWR_PG_1 to 3 (R638). -/
  pwrok : Bool := false
  fellAt : Nat := 0
  en : BitVec 3 := 0
  pg : BitVec 3 := 0
  /-- The safe state (R45); region resets and host ports released. -/
  safe : Bool := true
  hxReleased : Bool := false
  released : Bool := false
  /-- A loss of lock happened since FW_READY was last posted (R45, R352). -/
  lockTick : Nat := 0
  relock : Bool := false
  /-- Lock has been lost and not been regained (R47, R352). -/
  unlocked : Bool := false
  limitSts : BitVec 24 := 0
  regions : SMap Region := []
  /-- The cap (W), the cap step and the last ten 1 ms totals, U12.4 W, newest first (R645, R646). -/
  cap : Nat := 720
  capStep : Nat := 0
  capAt : Nat := 0
  capWarnAt : Nat := 0
  totals : List Nat := []
  /-- The mean of ten totals exceeded the cap at the latest of them, or was at most 95% of it (R646, R662). -/
  overCap : Bool := false
  underCap : Bool := false
  /-- Rails written no more (R636), as bus * 16 + rail; failed tries in a row; raised before FW_READY. -/
  avsFaulted : List Nat := []
  avsTries : SMap Nat := []
  avsRead : SMap Nat := []
  lasers : SMap Laser := []
  /-- TELEM_CFG (R663). -/
  telemPeriod : Nat := 0
  telemPeal : Bool := false
  telemNext : Nat := 0
  deriving DecidableEq, Repr, Inhabited

/-! ## Commands and firmware (chapter 04) -/

/-- A command in execution on a ring (R112, R136): the packet, its index, the tick of its start (R115), the bytes of its INDIRECT
buffer once a read of its own has brought them (R114), and what the journal shows. -/
structure Exec where
  pkt : CmdPkt := default
  opcode : Nat := 0
  idx : BitVec 16 := 0
  start : Nat := 0
  buf : Option (List Byte) := none
  committed : Bool := false
  rdata : BitVec 128 := 0
  deriving DecidableEq, Repr, Inhabited

/-- A command ring and its registers (R103 to R109). -/
structure Ring where
  base : BitVec 64 := 0
  replyBase : BitVec 64 := 0
  enable : Bool := false
  vector : BitVec 11 := 0
  log2 : BitVec 4 := 0
  pi : BitVec 16 := 0
  ci : BitVec 16 := 0
  lastSeq : BitVec 16 := 0
  errCode : BitVec 4 := 0
  seqValid : Bool := false
  err : Bool := false
  /-- The ring executes nothing more until ENABLE is cleared and set (R108, R138). -/
  stopped : Bool := false
  exec : Option Exec := none
  deriving DecidableEq, Repr, Inhabited

/-- An event ring of a physical function (R122 to R124) or the punt ring (R128), with its held records. A record is a number,
its bytes little-endian. -/
structure RecRing where
  set : Bool := false
  base : BitVec 64 := 0
  log2 : BitVec 4 := 0
  vector : BitVec 16 := 0
  pi : BitVec 16 := 0
  ack : BitVec 16 := 0
  held : List Nat := []
  /-- Event records raised since the firmware halted: they follow FW_READY's (R124, R135). -/
  early : List Nat := []
  dropped : Nat := 0
  /-- Of those, the records dropped while no ring was set up (R126). -/
  heldDrop : Nat := 0
  /-- EVT_SUBSCRIBE (R120): group mask and severity floor. -/
  mask : BitVec 16 := 0
  floor : Nat := 0
  deriving DecidableEq, Repr, Inhabited

/-- Rhoady (R129 to R136). -/
structure Fw where
  slot0 : Option FwImage := none
  slot1 : Option FwImage := none
  /-- The boot result of each slot: 0 not checked, 1 accepted, 1 + n failed check n of R130. -/
  boot0 : Nat := 0
  boot1 : Nat := 0
  slot : Nat := 0
  version : Nat := 0
  svn : Nat := 0
  /-- An image was accepted; FW_READY has been posted; the control cores are halted. -/
  accepted : Bool := false
  ready : Bool := false
  /-- CAUSE of the next FW_READY (R126). -/
  cause : Nat := 0
  faults : Nat := 0
  /-- A commit-SVN that waits for FW_READY (R133). -/
  commit : Bool := false
  recovery : Bool := false
  deriving DecidableEq, Repr, Inhabited

/-! ## Device time and gates (chapters 03 and 10) -/

/-- What a command asks of the next CK_T tick (R346, R349, R350), with the ring its reply goes to. -/
inductive TimeChange where
  | inc (v : Nat) (fn : Nat) (sec : Bool)
  | step (d : Int) (fn : Nat) (sec : Bool)
  | set (t : DevTime) (fn : Nat) (sec : Bool)
  deriving DecidableEq, Repr

/-- Device time and the time registers. Intervals are in units of 2^-32 ns. -/
structure Time where
  now : DevTime := {}
  inc : Nat := 0x0140000000
  thr : Nat := 1000000 * 2 ^ 32
  untrusted : Bool := false
  steps : BitVec 16 := 0
  replicas : List DevTime := List.replicate 23 {}
  queue : List TimeChange := []
  /-- The last tick added a step or a set (R371), and the time before that tick. -/
  prev : DevTime := {}
  ppsOn : Bool := false
  ppsWidth : Nat := 0
  ppsHigh : Bool := false
  ppsFallAt : Nat := 0
  /-- TIME_CAL_TX[n] at 2n and TIME_CAL_RX[n] at 2n + 1, where TS_CAL_SET has written them (R359), and what the next tick brings into
  force (R360). -/
  cal : SMap Int := []
  calNext : SMap Int := []
  pealDelay : BitVec 24 := 0
  pealOfs : BitVec 64 := 0
  pealValid : Bool := false
  pealSrc : BitVec 9 := 0
  pealAt : Nat := 0
  deriving DecidableEq, Repr, Inhabited

/-- A gate list (R374, R378): start, cycle, STROBE and the entries (interval in ns, gates). -/
structure GateList where
  start : DevTime := {}
  cycle : Nat := 0
  strobe : Bool := false
  entries : List (Nat × BitVec 8) := []
  deriving DecidableEq, Repr, Inhabited

/-- The gates of a logical port (R376, R378). -/
structure Gate where
  run : Option GateList := none
  pend : Option GateList := none
  gates : BitVec 8 := 0xFF
  deriving DecidableEq, Repr, Inhabited

/-! ## Host ports, queues, instances and mailboxes (chapters 13 and 14) -/

/-- What a non-posted request is for (R480). -/
inductive ReqKind where
  | txFetch (slot : Nat)
  | rxFetch (slot : Nat)
  | xport (onum : Nat)
  | dirtyLog
  | drive (cmd : Nat)
  /-- The INDIRECT buffer of the command that the function's ordinary or secure ring executes (R114). -/
  | command (sec : Bool)
  /-- The buffer that a secure mailbox request of the function names (R618, R624). -/
  | secure
  deriving DecidableEq, Repr

/-- An outstanding non-posted request; `drop`: its completion is to be discarded (R482). -/
structure Req where
  tag : Nat := 0
  fn : Nat := 0
  kind : ReqKind := .dirtyLog
  deadline : Nat := 0
  drop : Bool := false
  deriving DecidableEq, Repr, Inhabited

/-- A non-posted request that waits for a free tag (R481). -/
structure ReqWait where
  fn : Nat := 0
  kind : ReqKind := .dirtyLog
  addr : Nat := 0
  len : Nat := 0
  deriving DecidableEq, Repr, Inhabited

/-- A PCI Express port's requests and counters: a host port, or a storage port's DMA side (R457, R479, R481, R503). -/
structure PcPort where
  linkUp : Bool := false
  perst : Bool := true
  reqs : List Req := []
  /-- Quarantined tags and the tick at which each becomes usable (R481). -/
  quar : List (Nat × Nat) := []
  /-- Requests that wait for a tag, oldest first (R481). -/
  waits : List ReqWait := []
  lateCount : Nat := 0
  lateNext : Nat := 0
  cplTimeout : Ctr := {}
  lateCpl : Ctr := {}
  bmeDrop : Ctr := {}
  winDrop : Ctr := {}
  txLen : Ctr := {}
  deriving DecidableEq, Repr, Inhabited

/-- A completion entry waiting for ring room (R473): its fields as R453 lays them out, and whether it is transmit work. -/
structure CplEntry where
  bits : Nat := 0
  tx : Bool := false
  /-- The receive queue slot of which it reports one buffer (R471). -/
  rx : Option Nat := none
  /-- The lane whose stamp entry it holds (R363). -/
  lane : Option Nat := none
  /-- The packet whose cells it holds (R473). -/
  held : Option Nat := none
  deriving DecidableEq, Repr, Inhabited

/-- A host queue slot of a function (R466 to R475, R487). -/
structure QSlot where
  txBase : BitVec 64 := 0
  rxBase : BitVec 64 := 0
  cqBase : BitVec 64 := 0
  txEn : Bool := false
  rxEn : Bool := false
  cqEn : Bool := false
  roData : Bool := false
  vector : BitVec 10 := 0
  log2Tx : BitVec 4 := 0
  log2Rx : BitVec 4 := 0
  log2Cq : BitVec 4 := 0
  stopped : Bool := false
  cause : BitVec 4 := 0
  txPi : BitVec 16 := 0
  txCi : BitVec 16 := 0
  /-- Descriptors fetched so far; they run ahead of TX_CI by the prefetch (R475). -/
  txFetched : BitVec 16 := 0
  rxPi : BitVec 16 := 0
  /-- Receive buffers taken; RX_CI counts those whose entry has been issued. -/
  rxTaken : BitVec 16 := 0
  rxCi : BitVec 16 := 0
  cqPi : BitVec 16 := 0
  cqCi : BitVec 16 := 0
  arm : Bool := false
  /-- ARM was written while the queue was STOPPED: it is acted on when the queue leaves STOPPED (R475). -/
  armHeld : Bool := false
  /-- Descriptors consumed whose entries have not joined the waiting ones, in order (R473). -/
  txOrder : List (BitVec 16 × Option CplEntry) := []
  waiting : List CplEntry := []
  /-- The descriptor read under way has completed (R481). -/
  txReady : Bool := false
  rxReady : Bool := false
  deriving DecidableEq, Repr, Inhabited

/-- A transmit side of a mailbox (R513). -/
structure MboxTx where
  data : List Word := List.replicate 16 0
  go : Bool := false
  dest : BitVec 10 := 0
  len : BitVec 5 := 0
  timeout : BitVec 8 := 0
  done : Bool := false
  result : BitVec 4 := 0
  expire : Option Nat := none
  /-- The receiver of the message that is outstanding: DEST may be written meanwhile (R17). -/
  to_ : Option Nat := none
  deriving DecidableEq, Repr, Inhabited

/-- A receive channel of a mailbox (R512, R513). -/
structure MboxChan where
  full : Bool := false
  valid : Bool := false
  len : Nat := 0
  src : Nat := 0
  words : List Word := []
  deriving DecidableEq, Repr, Inhabited

/-- Dirty-page logging of an instance (R531 to R536). -/
structure DirtyLog where
  ring : Nat := 0
  log2 : Nat := 10
  producer : Nat := 0
  consumer : Nat := 0
  staged : List Nat := []
  round : List Nat := []
  roundWritten : Nat := 0
  overflow : Bool := false
  readError : Bool := false
  fullPosted : List Nat := []
  readNext : Nat := 0
  deriving DecidableEq, Repr, Inhabited

/-- An instance (R508, R509). -/
structure Inst where
  state : Nat := 0
  qbase : Nat := 0
  qcount : Nat := 0
  cls : Nat := 0
  /-- The quiesce timer (R523) and FORCE; the rings whose INST_QUIESCE waits for it. -/
  quiesceAt : Option Nat := none
  force : Bool := false
  quiesceRings : List (Nat × Bool) := []
  log : Option DirtyLog := none
  deriving DecidableEq, Repr, Inhabited

/-- A BAR2 window entry (R491). -/
structure WinEntry where
  base : BitVec 48 := 0
  log2 : Nat := 0
  rd : Bool := false
  wr : Bool := false
  deriving DecidableEq, Repr, Inhabited

/-- What AER logs (R460, R463, R480, R481, R516). -/
inductive AerError where
  | completionTimeout
  | unexpectedCompletion
  | unsupportedRequest
  | completerAbort
  deriving DecidableEq, Repr

/-- A function of a host port: its configuration space, its BAR0 registers and its instance. -/
structure Fn where
  bme : Bool := false
  memEn : Bool := false
  intxDisable : Bool := false
  roEn : Bool := true
  noSnoop : Bool := true
  mps : BitVec 3 := 0
  mrrs : BitVec 3 := 2
  cplTo : BitVec 4 := 0
  msixEn : Bool := false
  msixMaskAll : Bool := false
  d3hot : Bool := false
  aer : List AerError := []
  bars : SMap Word := []
  intLine : BitVec 8 := 0
  /-- A function-level reset in progress ends by this tick (R484). -/
  flr : Option Nat := none
  /-- SR-IOV of a physical function (R460, R461). -/
  vfEnable : Bool := false
  numVfs : Nat := 0
  /-- MSI-X vectors: the table's words, masked vectors cleared by software, pending bits (R486). -/
  msixTable : SMap Word := []
  unmasked : List Nat := []
  msixPending : List Nat := []
  badVector : Bool := false
  masterLost : Bool := false
  intx : BitVec 32 := 0
  cmd : Ring := {}
  sec : Ring := {}
  evt : RecRing := {}
  punt : RecRing := {}
  slots : SMap QSlot := []
  tx : MboxTx := {}
  secTx : MboxTx := {}
  chans : SMap MboxChan := []
  secChan : MboxChan := {}
  rxSel : BitVec 10 := 0
  rxIe : Bool := false
  txIe : Bool := false
  mboxVec : BitVec 10 := 0
  notices : List (List Word) := []
  winActive : SMap WinEntry := []
  winPending : SMap WinEntry := []
  inst : Inst := {}
  deriving DecidableEq, Repr, Inhabited

/-! ## Trust region (chapter 17) -/

/-- A key-hash fuse slot (R610). -/
structure HashSlot where
  hash : BitVec 256 := 0
  written : Bool := false
  revoked : Bool := false
  deriving DecidableEq, Repr, Inhabited

/-- A secure mailbox request whose buffer is being read (R618, R624): the message, the nonce that it spends, and the bytes once they
are in. -/
structure SecRead where
  msg : List Word := []
  nonce : List Byte := []
  buf : Option (List Byte) := none
  deriving DecidableEq, Repr, Inhabited

/-- An operator session, its nonce and the request in progress of a physical function's secure mailbox (R618 to R622), and its
SPDM exchange (R629, R631). -/
structure SecPort where
  /-- 0 no session, 1 OPERATE, 2 MAINTAIN (R619). -/
  session : Nat := 0
  nonce : Option (List Byte × Nat) := none
  /-- An AUTH under verification: PURPOSE, TAG, and the key and signature bytes read. -/
  verifying : Option (Nat × Nat × List Byte) := none
  /-- The nonce the AUTH under verification spends. -/
  spent : Option (List Byte) := none
  /-- A request taken whose buffer is being read. -/
  reading : Option SecRead := none
  /-- The oldest message posted to the trust region and not yet taken. -/
  request : Option (List Word) := none
  /-- Answers that wait until the message before them has been read, oldest first (R512, R622). -/
  answers : List (List Word) := []
  /-- SPDM: 0 nothing, 1 version, 2 capabilities, 3 algorithms negotiated. -/
  spdm : Nat := 0
  spdmVersion : Nat := 0
  deriving DecidableEq, Repr, Inhabited

/-- The trust region. -/
structure Sec where
  /-- LC (R612): the number of bits blown. -/
  lc : Nat := 1
  fiField : Bool := false
  lowrate : Bool := false
  /-- FW_KEY at 0 to 3, SET_KEY at 16 to 19, OP_KEY at 32 to 35 (R610, R622). -/
  hashes : SMap HashSlot := []
  devsec : List Byte := Config.devSec
  /-- ROOT i, absent when it holds no key, and how often its slot has been written (R610, R625). -/
  roots : SMap (List Byte) := [(0, Config.root0)]
  rootWrites : SMap Nat := []
  minSvn : Nat := 0
  entropyFail : Bool := false
  zeroising : Bool := false
  zeroised : Bool := false
  reseedAt : Nat := 0
  drbg : Nat := 0
  /-- The tick at which a life-cycle transition or a loss of lock last ended every session (R621). -/
  endedAt : Option Nat := none
  ports : SMap SecPort := []
  /-- Measurements 1 to 5 (R628). -/
  meas : SMap (BitVec 256) := []
  deriving DecidableEq, Repr, Inhabited

/-! ## Lanes (chapter 06) -/

/-- A lane (R179, R181). Pauses are ticks by priority (R220); queues hold packets by class, head first (R184). -/
structure Lane where
  state : Nat := 0
  reason : Nat := 0
  chime : Bool := false
  blockLock : Bool := false
  hiBer : Bool := false
  /-- Lock has been held for 100 µs without a break (R177). -/
  held : Bool := false
  pause : SMap Nat := []
  queues : SMap (List Nat) := []
  cur : Option Nat := none
  /-- The priority-flow-control frame that waits: the classes it speaks of, as priority times (R221). -/
  pfc : Option (List Nat) := none
  /-- The frame being received. -/
  rx : Option Nat := none
  wakeBy : Option Nat := none
  chimeNext : Nat := 0
  /-- The last tick at which a condition of R177 failed. -/
  brokenAt : Nat := 0
  /-- It has become DOWN or PARKED since it was last ACTIVE, and SUBST_EXHAUSTED has been posted for that (R204). -/
  unusable : Bool := false
  exhausted : Bool := false
  /-- The bytes so far of a MAC control frame that is being received (R174, R219). -/
  ctl : List Byte := []
  /-- Entries in use of the transmit stamp queue (R363). -/
  stamps : Nat := 0
  deriving DecidableEq, Repr, Inhabited

/-! ## Packets (chapters 06 to 09) -/

/-- Where a packet stands. -/
inductive Place where
  /-- In the arrival store, waiting for its first slot (R307). -/
  | arrival
  /-- Waiting for a slot of its pipeline (R27). -/
  | slot
  | parser
  | stages
  /-- In the flow wait queue (R279). -/
  | flowWait
  /-- Its pass is over and its frame still arrives (R248). -/
  | frameEnd
  /-- In the fragment hold store (R255). -/
  | hold
  | spray
  /-- A transit frame whose lane has been chosen, before the threshold of R35 is judged. -/
  | threshold (lane : Nat)
  /-- Stored until its end, then queued on the lane (R217). -/
  | store (lane : Nat)
  | laneQ (lane cls : Nat)
  | onLane (lane : Nat)
  | reorder
  /-- Held in the reorder context of this key. -/
  | context (key : Nat)
  /-- Waiting for the cipher scheduler, then open on it. -/
  | cipherQ
  | cipher
  /-- In a delivery queue: a host receive queue. -/
  | delivery (queue : Nat)
  /-- Written to its host buffer: its cells are held until its completion entry is issued (R473). -/
  | written
  | engine
  /-- Prefetched, in the queue of a leaf. -/
  | leaf (q : Nat)
  deriving DecidableEq, Repr, Inhabited

/-- A pending length claim (R248): its node, its header's start, and the claimed end. -/
structure Claim where
  node : Nat := 0
  off : Nat := 0
  claimed : Nat := 0
  padOk : Bool := false
  deriving DecidableEq, Repr, Inhabited

/-- An instruction to run (R285): its word, the action data, its stage, and whether a miss or a parity miss chose it. -/
structure Work where
  word : Nat := 0
  data : List Byte := []
  stage : Nat := 0
  miss : Bool := false
  deriving DecidableEq, Repr, Inhabited

/-- An insertion before an anchor (R287): the instance, or 0xFF; the bytes; the class and length of its headers (none for a
label). -/
structure Insert where
  anchor : Nat := 0
  bytes : List Byte := []
  hdrs : List (Nat × Nat) := []
  deriving DecidableEq, Repr, Inhabited

/-- What a frame that still arrives does outside itself, once its end is good (R175). -/
inductive Effect where
  /-- A count of a COUNTER entry (R292). -/
  | count (epoch pipe table index bytes : Nat)
  /-- A HIT bit (R278). -/
  | hit (epoch inst table handle : Nat)
  | learn (key port table pipe : Nat) (time : DevTime)
  /-- A count of PIPE_ACTION_FAULT, PIPE_FLOW_BUSY or PIPE_PARITY_MISS (R305), by its place in that table. -/
  | pipeCount (which pipe : Nat)
  deriving DecidableEq, Repr

/-- A transmit descriptor's packet (R333): function, slot, index, WR_ID, launch time and stamp request. -/
structure TxInfo where
  fn : Nat := 0
  slot : Nat := 0
  idx : BitVec 16 := 0
  wrId : Nat := 0
  len : Nat := 0
  launch : Option DevTime := none
  tsReq : Bool := false
  /-- The work was discarded as at the loss of bus mastering: its entry is discarded and counted when it is formed (R482). -/
  lost : Bool := false
  deriving DecidableEq, Repr, Inhabited

/-- What a packet is charged to (R334): use, cells, account (0 to 7 host transmit, 8 storage transmit, 16 to 23 host receive,
24 storage receive), ingress and egress port-class, receive queue. -/
structure Charge where
  use : Option Nat := none
  cells : Nat := 0
  acct : Option Nat := none
  ip : Option Nat := none
  op : Option Nat := none
  rxq : Option Nat := none
  deriving DecidableEq, Repr, Inhabited

/-- What the pass of a frame that still arrives came to; it is carried out at the frame's end. -/
inductive Verdict where
  | none
  /-- No set active (R141). -/
  | noset
  /-- HOPS 0 on arrival (R30). -/
  | hopsDrop
  /-- The exit DROP (R242); an exception action DROP or PUNT (R250). -/
  | parseDrop
  | excDrop
  | excPunt
  /-- The disposition (R265). -/
  | pass
  /-- No lane of the path set (R196). -/
  | psDrop (ps : Nat)
  /-- Admission refused (R334): the block and index that count it. -/
  | refused (block index : Nat)
  deriving DecidableEq, Repr, Inhabited

/-- A packet. -/
structure Pkt where
  /-- SRC_KIND and SRC_ID of its first pass: 0 lane, 1 host queue, 2 storage port (R128). -/
  src : Nat := 0
  srcId : Nat := 0
  place : Place := .arrival
  /-- The bytes as the current pass changes them, and as they stood at its start, without FCS. -/
  bytes : List Byte := []
  raw : List Byte := []
  /-- The frame still arrives; its end has come and its claims await their test. -/
  arriving : Bool := false
  untested : Bool := false
  stamp : DevTime := {}
  pipe : Nat := 0
  pass : Nat := 0
  epoch : Nat := 0
  counted : Bool := false
  /-- Its SFH named an epoch of the wrong parity, which is counted once the parse has found no fragment entry for it (R153). -/
  skew : Bool := false
  /-- Its length as received, kept from its first pass (R128). -/
  rxLen : Nat := 0
  /-- The transport object that formed it (R428). -/
  origin : Option Nat := none
  /-- When it entered its pipeline's parser, as a number that rises (R233). -/
  entered : Nat := 0
  /-- The start of a recirculated pass; a fragment redirected home. -/
  start : Option (Nat × Nat) := none
  redirected : Bool := false
  /-- The walk of R239: next node, offset, end, visits, last, stop. -/
  node : Nat := 0
  off : Nat := 0
  fend : Nat := 0
  visits : Nat := 0
  last : Option Nat := none
  lastOff : Nat := 0
  lastInst : Option Nat := none
  stop : Nat := 0
  exc : Nat := 0
  claims : List Claim := []
  insts : SMap (Nat × Nat) := []
  conts : SMap Nat := []
  fragState : Nat := 0
  fragRec : List Nat := List.replicate 8 0
  /-- The entry whose first fragment this packet is, and, for a held fragment, its key, node, header end and clock. -/
  fragOwn : Option Nat := none
  fragKey : List Byte := []
  fragNode : Nat := 0
  fragEnd : Nat := 0
  holdAt : Nat := 0
  /-- Header length and next node of a fragment's node, whose fragment step waits for the frame's end (R175, R254). -/
  fragWait : Option (Nat × Nat) := none
  /-- The fate, and the reason of a PUNT, that it takes up in the pass after its release (R257). -/
  release : Option (Nat × Nat) := none
  /-- Its fragment data, and, for a fragment with MF or M 0, the datagram's length. -/
  fragData : Nat := 0
  fragTotal : Option Nat := none
  /-- The stage to look up next; the instructions left of the stage before it. -/
  stage : Nat := 0
  work : List Work := []
  lastTable : Nat := 0
  lastHash : Nat := 0
  popped : List Nat := []
  cut : Nat := 0
  inserts : List Insert := []
  dirty : List Nat := []
  effects : List Effect := []
  /-- Policer charges of a frame that still arrives: index, committed and peak units. -/
  refunds : List (Nat × Nat × Nat) := []
  charge : Charge := {}
  /-- Begun or queued by cut-through (R217). -/
  cutThrough : Bool := false
  /-- The length that its lane's shaper and counters have been charged since it began (R324, R343). -/
  billed : Nat := 0
  /-- It has passed reorder, and the cipher complex. -/
  ordered : Bool := false
  ciphered : Bool := false
  late : Bool := false
  tx : Option TxInfo := none
  /-- The stamp its completion carries, a lost stamp, and the lane of the stamp entry. -/
  txStamp : Option DevTime := none
  tsLost : Bool := false
  /-- Its launch time has been judged at the head of its class queue (R368). -/
  judged : Bool := false
  txLane : Option Nat := none
  /-- A transit frame (R189), and the SFH its frame arrived with. -/
  transit : Bool := false
  sfh0 : Option Nat := none
  /-- A lane was chosen for it by spraying. -/
  sprayed : Bool := false
  /-- The port-class whose queue depth marked it (R336). -/
  ecn : Option Nat := none
  /-- What its pass came to, while its frame still arrives. -/
  verdict : Verdict := .none
  /-- What wrote the PUNT in force (R269): an action, a miss action, or a parity miss. -/
  why : Nat := 0
  /-- For an ESP operation (R442): bytes from the ESP header to the frame end, from the header after it, that header's class, and
  the bytes past the frame end. -/
  esp : Option (Nat × Nat × Nat × Nat) := none
  /-- An engine's acknowledgement, NAK, CNP or response (R428). -/
  reply : Bool := false
  /-- HBM reads issued (R279): stage, unit, key, and whether the queue was full; when the packet entered the wait queue. -/
  hbm : List (Nat × Nat × List Byte × Bool) := []
  waitAt : Nat := 0
  deriving DecidableEq, Repr, Inhabited

/-- A fragment-table entry (R254 to R259); fate 0 FORWARD, 1 DROP, 2 PUNT. -/
structure FragEntry where
  key : List Byte := []
  epoch : Nat := 0
  decided : Bool := false
  /-- Its first fragment's packet has ended its last pass. -/
  ready : Bool := false
  fate : Nat := 0
  reason : Nat := 0
  frec : List Nat := []
  seen : Nat := 0
  total : Option Nat := none
  made : Nat := 0
  life : Nat := 0
  /-- Read with a parity error (R260). -/
  corrupt : Bool := false
  deriving DecidableEq, Repr, Inhabited

/-- A punt record awaiting the control cores (R127): header and captured bytes, little-endian. -/
structure Punt where
  hdr : Nat := 0
  cap : List Byte := []
  deriving DecidableEq, Repr, Inhabited

/-! ## Sets and tables (chapters 05 and 08) -/

/-- A table entry (R280). -/
structure TEntry where
  hit : Bool := true
  action : Nat := 0
  key : List Byte := []
  data : List Byte := []
  /-- The scanner's last visit (R300). -/
  visited : Nat := 0
  deriving DecidableEq, Repr, Inhabited

/-- A section of a set (R144): its type, instance and bytes. -/
structure Section where
  type : Nat := 0
  inst : Nat := 0
  data : List Byte := []
  deriving DecidableEq, Repr, Inhabited

/-- Set A or Set B (R139, R142). Tables are keyed by instance * 2^40 + table * 2^32 + handle. -/
structure SetSlot where
  valid : Bool := false
  loading : Bool := false
  secs : List Section := []
  setId : Nat := 0
  podGen : Nat := 0
  drainLimit : Nat := 0
  measure : BitVec 256 := 0
  entries : SMap TEntry := []
  counters : SMap Ctr := []
  /-- The 32-bit words of a table's row that fail their parity, as the WORDS of R296, keyed as an entry with the row for the handle
  (R276, R295). -/
  bad : SMap Nat := []
  /-- Cursors of its path sets (R198). -/
  cursors : SMap Nat := []
  /-- META_LAYOUT by pipeline, and the event codes whose punts its handlers forward (log 14). -/
  metas : SMap (List Nat) := []
  handlers : Option (List Nat) := none
  deriving DecidableEq, Repr, Inhabited

/-- An armed firing (R159, R165, R166). -/
structure Arm where
  instant : DevTime := {}
  target : Nat := 0
  pod : Bool := false
  /-- This adapter announces it (R165), and has announced it. -/
  initiator : Bool := false
  announced : Bool := false
  deriving DecidableEq, Repr, Inhabited

/-- Sets and the epoch. -/
structure Sets where
  a : SetSlot := {}
  b : SetSlot := {}
  epoch : Nat := 0
  on : Bool := false
  arm : Option Arm := none
  /-- The epoch that drains, its deadline, and packets dropped from it. -/
  drain : Option Nat := none
  drainBy : Nat := 0
  straddle : Option Nat := none
  straddleBy : Nat := 0
  /-- Enabled features: kind, index, feature (R152). -/
  feats : List (Nat × Nat × Nat) := []
  deriving DecidableEq, Repr, Inhabited

/-- A reorder context (R207, R214). -/
structure Ctx where
  expected : Nat := 0
  started : Bool := false
  /-- Held frames: sequence number and packet, in the order of arrival. -/
  held : List (Nat × Nat) := []
  deadline : Option Nat := none
  lastAt : Nat := 0
  gaps : Nat := 0
  late : Nat := 0
  timeouts : Nat := 0
  dups : Nat := 0
  flushes : Nat := 0
  jumps : Nat := 0
  gapNew : Nat := 0
  gapNext : Nat := 0
  deriving DecidableEq, Repr, Inhabited

/-- An entry of a learn filter (R298). -/
structure LEntry where
  key : Nat := 0
  port : Nat := 0
  first : DevTime := {}
  corrupt : Bool := false
  deriving DecidableEq, Repr, Inhabited

/-- A learn report on its way to its filter (R297). -/
structure Report where
  home : Nat := 0
  key : Nat := 0
  port : Nat := 0
  table : Nat := 0
  pipe : Nat := 0
  time : DevTime := {}
  hash : Nat := 0
  deriving DecidableEq, Repr, Inhabited

/-- A pipeline's learn filter: window in µs and enable (R298, R299). -/
structure Learn where
  window : Nat := 64
  enable : Bool := true
  entries : SMap LEntry := []
  deriving DecidableEq, Repr, Inhabited

/-! ## Traffic manager (chapter 09) -/

/-- A node or leaf of a host scheduler tree (R317): its deficit and FRESH, and its children in the active list, head first. -/
structure Node where
  deficit : Int := 0
  fresh : Bool := true
  active : List Nat := []
  deriving DecidableEq, Repr, Inhabited

/-- A buffer segment whose use has changed (R164): its number, its old use, and the packets that held cells of that use. -/
structure SegTurn where
  seg : Nat := 0
  use : Nat := 0
  held : List Nat := []
  deriving DecidableEq, Repr, Inhabited

/-- The traffic manager. Nodes are keyed: class n, 0x1000 + port node, 0x10000 + instance node, 0x20000 + leaf,
0x30000 + storage leaf, 0x40000 + root of pipeline k. A shaper or policer not listed has its bucket at its depth. -/
structure Tm where
  /-- Buffer segments whose use a firing changed, and that still wait for packets of their old use (R164). -/
  turns : List SegTurn := []
  leafQ : SMap (List Nat) := []
  nodes : SMap Node := []
  shapers : SMap Int := []
  policers : SMap (Nat × Nat) := []
  /-- Counter pairs of R343, keyed by block * 2^20 + index. -/
  blocks : SMap Ctr := []
  peaks : SMap Nat := []
  peakValid : List Nat := []
  /-- Port-classes in XOFF (R338), and when each is repeated (R221). -/
  xoff : SMap Nat := []
  refillAt : Nat := 64
  deriving DecidableEq, Repr, Inhabited

/-- The saturating and wrapping counters of the lanes and pipelines, by register (R227, R262, R305, R664). -/
inductive Cnt where
  | laneRxFrames | laneTxFrames | laneRxBad | laneRxSize | laneFecCorr | laneFecUncorr | laneTxTrunc | laneTxFlush
  | laneTxStomp | lanePfcRx | lanePfcTx | lanePauseDrop | lanePauseSubst | laneTsLost | laneLaunchLate | laneLaunchBad
  | lanePsDrop | laneRoNoctx
  | puntDrop | nosetDrop | epochSkew | hopsDrop | recircLimit
  | parseDepth | malformed | parseDrop | fragRedirect | fragFull | fragHoldFull | fragOrphan | fragDrop
  | nodispDrop | actionDrop | actionFault | mtuDrop | flowBusy | parityMiss | learnSuppress | learnEvict
  deriving DecidableEq, Repr

/-! ## Cipher complex and keys (chapter 11) -/

/-- A live key (R98, R402, R406, R444). -/
structure Key where
  root : Nat := 0
  domain : Nat := 0
  xts : Bool := false
  aes256 : Bool := false
  rxStore : Bool := false
  label : List Byte := []
  limitI : Nat := 0
  limitB : Nat := 0
  icnt : Nat := 0
  bcnt : Nat := 0
  near : Bool := false
  fault : Bool := false
  exhausted : Bool := false
  /-- ESP: the highest ESN authenticated, and the ESNs marked (R444). -/
  top : Nat := 0
  marks : List Nat := []
  deriving DecidableEq, Repr, Inhabited

/-- A key index (R405, R409): its GEN, its key, and whether it is held out of reuse and for how many firings' drains: the count
of the firings that had taken effect at the destruction. -/
structure KeySlot where
  gen : Nat := 0
  key : Option Key := none
  held : Option Nat := none
  /-- Refusals since the last KEY_EXHAUSTED, and when the next may be posted (R413). -/
  refused : Nat := 0
  nextPost : Nat := 0
  deriving DecidableEq, Repr, Inhabited

/-- The key store and the key cache (R406, R407): the indices whose keys the cache holds. -/
structure Keys where
  slots : SMap KeySlot := []
  cache : List Nat := []
  /-- Firings that have taken effect since reset, and that of the last SET_DRAINED (R409). -/
  firings : Nat := 0
  deriving DecidableEq, Repr, Inhabited

/-- Who asked for a cipher operation (R388): a pipeline packet, a TLS record of an object, a data unit of a drive command. -/
inductive CipherReq where
  | packet (p : Nat)
  | record (onum rec : Nat)
  | unit (cmd block : Nat)
  deriving DecidableEq, Repr

/-- A TLS record being opened or sealed (R416 to R418, R439). -/
structure TlsRec where
  /-- Its cipher operation, and the work item that a sealed record ends. -/
  id : Nat := 0
  work : Option Nat := none
  /-- Header bytes; the ciphertext with its tag as far as it has arrived, or the plaintext to seal; the bytes of the whole. -/
  hdr : List Byte := []
  body : List Byte := []
  need : Nat := 0
  /-- Plaintext bytes of the segments that carry nothing of the tag (R416), and the host bytes written of them: address and
  length. -/
  early : Nat := 0
  spans : List (Nat × Nat) := []
  deriving DecidableEq, Repr, Inhabited

/-- A cipher operation (R388 to R391). -/
structure CipherOp where
  id : Nat := 0
  req : CipherReq := .packet 0
  key : Nat := 0
  xts : Bool := false
  /-- 0 seal or encrypt, 1 open or decrypt. -/
  open_ : Bool := false
  /-- Payload and additional bytes (R395). -/
  len : Nat := 0
  aad : Nat := 0
  /-- Admitted: the key material in use (R403), the ICNT after admission, and the core it is bound to. -/
  mat : List Byte := []
  icnt : Nat := 0
  core : Option Nat := none
  /-- Its blocks that wait to enter the core (R389). -/
  left : Nat := 0
  /-- Its tag result is known, and good (R396). -/
  known : Bool := false
  good : Bool := false
  /-- A record whose connection has ended before its tag result: the function, whether its writes are discarded with the
  function's others (R420), and the record. -/
  orphan : Option (Nat × Bool × TlsRec) := none
  deriving DecidableEq, Repr, Inhabited

/-- The cipher complex. -/
structure Ciph where
  rate : Nat := 0x0800
  /-- The dummy slots of each core, from core 0 on, that CIPH_DUMMY counts (R397, R423). -/
  dummies : List Nat := []
  nextId : Nat := 0
  /-- Operations waiting for dispatch, oldest first; operations dispatched and not released, in dispatch order. -/
  queue : List CipherOp := []
  bound : List CipherOp := []
  /-- Pipelines held back (R323). -/
  heldBack : List Nat := []
  deriving DecidableEq, Repr, Inhabited

/-! ## Transport and storage (chapter 12) -/

/-- The attributes of an object (R430). -/
structure Attrs where
  destQpn : Nat := 0
  pmtu : Nat := 0
  sqPsn : Nat := 0
  rqPsn : Nat := 0
  timers : Nat := 0
  rnr : Nat := 0
  rate : Nat := 0
  txKey : Nat := 0xFFFFFFFF
  rxKey : Nat := 0xFFFFFFFF
  sndNxt : Nat := 0
  rcvNxt : Nat := 0
  tcpOpt : Nat := 0
  mrBase : Nat := 0
  mrLen : Nat := 0
  mrAccess : Nat := 0
  mrTag : Nat := 0
  deriving DecidableEq, Repr, Inhabited

/-- A work item of an object's SQ (R469), or one that the storage-target service makes for itself (`svc`: its drive command). -/
structure Work2 where
  op : Nat := 0
  wrId : Nat := 0
  addr : Nat := 0
  len : Nat := 0
  lkey : Nat := 0
  raddr : Nat := 0
  rkey : Nat := 0
  imm : Nat := 0
  opA : Nat := 0
  opB : Nat := 0
  solicited : Bool := false
  ctype : Nat := 0
  data : List Byte := []
  /-- First PSN and number of PSNs; packets formed so far. -/
  psn : Nat := 0
  npsn : Nat := 0
  formed : Nat := 0
  /-- READ and atomic response bytes received. -/
  got : List Byte := []
  svc : Option Nat := none
  /-- NVMe command identifier, for OP NVME. -/
  cid : Nat := 0
  /-- Its completion entry, once formed, until the work before it has completed. -/
  fin : Option Nat := none
  deriving DecidableEq, Repr, Inhabited

/-- An RDMA READ or atomic request whose host memory is being read, or has been answered (R433, R434). -/
structure RespRead where
  psn : Nat := 0
  npsn : Nat := 1
  addr : Nat := 0
  len : Nat := 0
  /-- 0 READ, 1 Compare-and-Swap, 2 Fetch-and-Add; swap or add, and compare. -/
  atomic : Nat := 0
  opA : Nat := 0
  opB : Nat := 0
  /-- The stored result; none while the host memory is being read. -/
  result : Option (List Byte) := none
  deriving DecidableEq, Repr, Inhabited

/-- Inbound data for a buffer of the RQ (R429, R471): opcode, immediate and flags of its completion entry, and its bytes. -/
structure Inbound where
  opcode : Nat := 4
  imm : Nat := 0
  immValid : Bool := false
  solicited : Bool := false
  bytes : List Byte := []
  /-- The bytes were written already, or none are written: the buffer is only consumed (RDMA WRITE with immediate). -/
  noData : Bool := false
  count : Nat := 0
  deriving DecidableEq, Repr, Inhabited

/-- TCP variables of a connection (R437). Times are CK_T ticks. -/
structure Tcp where
  sndUna : Nat := 0
  sndNxt : Nat := 0
  sndWnd : Nat := 65535
  /-- Bytes from SND_UNA on, and stream bytes not yet sealed. -/
  out : List Byte := []
  cwnd : Nat := 0
  ssthresh : Nat := 0x7FFFFFFF
  dupAcks : Nat := 0
  recover : Option Nat := none
  srtt : Nat := 0
  rttvar : Nat := 0
  rto : Nat := 800000000
  rtxAt : Option Nat := none
  /-- The segment being timed: sequence number after it, and when it was sent. -/
  timed : Option (Nat × Nat) := none
  rcvNxt : Nat := 0
  /-- Segments received out of order: sequence number and bytes. -/
  ooo : List (Nat × List Byte) := []
  /-- Ranges that the peer has acknowledged selectively (RFC 2018). -/
  sacked : List (Nat × Nat) := []
  /-- In-order stream bytes not yet taken by records or PDUs. -/
  rx : List Byte := []
  /-- TLS: where received segments end in them (R416). -/
  cuts : List Nat := []
  /-- ECN: ECE is echoed until CWR; the window was reduced up to this sequence number. -/
  ece : Bool := false
  cwrAt : Option Nat := none
  tsRecent : Nat := 0
  /-- A TermReq is still to be sent from ERR (R438). -/
  closing : Bool := false
  /-- The highest sequence number sent; bytes to be sent again from SND_UNA; CWR is owed. -/
  sndMax : Nat := 0
  again : Bool := false
  cwr : Bool := false
  /-- TLS: the record being opened and the one being sealed, the next record's number, and the pause of R440. -/
  opening : Option TlsRec := none
  sealing : Option TlsRec := none
  nextRec : Nat := 0
  held : Bool := false
  /-- Records to seal: content type, plaintext, and the mark of the work item they end, if any. -/
  toSeal : List (Nat × List Byte × Option Nat) := []
  /-- NVMe/TCP: plaintext stream not yet taken by PDUs, and how many bytes of it have reached the host (R416). -/
  pdu : List Byte := []
  wrote : Nat := 0
  deriving DecidableEq, Repr, Inhabited

/-- A transport object (R424 to R432). -/
structure Obj where
  type : Nat := 0
  iid : Nat := 0
  sq : Nat := 0
  rq : Nat := 0
  cq : Nat := 0
  subsys : Nat := 0
  state : Nat := 0
  a : Attrs := {}
  cnpRx : Nat := 0
  oos : Nat := 0
  /-- Requester: work not yet complete, oldest first; retries left; the timers; RNR tries left. -/
  work : List Work2 := []
  retries : Nat := 0
  rnrLeft : Nat := 0
  ackAt : Option Nat := none
  rnrAt : Option Nat := none
  /-- The oldest PSN not acknowledged, and the PSN from which packets are formed next. -/
  una : Nat := 0
  formPsn : Nat := 0
  /-- Host reads owed for data toward a target (R438): command identifier, transfer tag, offset, length. -/
  h2c : List (Nat × Nat × Nat × Nat) := []
  /-- Rate limit tokens, 2^-16 byte (log 24). -/
  tokens : Int := 0
  tokAt : Nat := 0
  /-- Responder: MSN, the NAK of R434 sent, bytes of the message in progress, the RDMA WRITE in progress, stored reads. -/
  msn : Nat := 0
  nakSent : Bool := false
  part : List Byte := []
  wrAddr : Nat := 0
  wrLeft : Nat := 0
  reads : List RespRead := []
  cnpNext : Nat := 0
  /-- Inbound data waiting for buffers of the RQ. -/
  inbound : List Inbound := []
  tcp : Tcp := {}
  /-- Target: Connect has named the admin queue (QID 0); the queue identifier. -/
  qid : Option Nat := none
  /-- NVMe commands received and not yet taken by the service: command bytes and in-capsule data. -/
  capsules : List (List Byte × List Byte) := []
  /-- Responses formed and waiting (acknowledgements, NAKs, CNPs, READ responses): packet bytes. -/
  replies : List (List Byte) := []
  deriving DecidableEq, Repr, Inhabited

/-- The transport engines. -/
structure Xport where
  objs : SMap Obj := []
  /-- Numbers held after QP_DESTROY, with the tick at which they may be allocated (R431). -/
  heldNums : List (Nat × Nat) := []
  /-- Objects whose contexts the engines' caches hold, oldest first, and those being fetched (R426). -/
  cached : List Nat := []
  /-- Packets handed to the engines, oldest first. -/
  inq : List Nat := []
  deriving DecidableEq, Repr, Inhabited

/-- A namespace (R446), keyed by SUBSYS * 2^16 + NSID. -/
structure Ns where
  sp : Nat := 0
  lbaf : Nat := 0
  driveNsid : Nat := 0
  start : Nat := 0
  count : Nat := 0
  key : Nat := 0xFFFFFFFF
  /-- The drive it was created on has been removed (R451). -/
  gone : Bool := false
  deriving DecidableEq, Repr, Inhabited

/-- An NVMe command in the storage-target service (R447, R448, R502). -/
structure DriveCmd where
  id : Nat := 0
  onum : Nat := 0
  cid : Nat := 0
  sp : Nat := 0
  ns : Nat := 0
  op : Nat := 0
  lba : Nat := 0
  blocks : Nat := 0
  /-- 0 waits for write data, 1 at the cipher complex before the drive, 2 at the drive, 3 at the cipher complex after it,
  4 moving data to the initiator. -/
  phase : Nat := 0
  data : List Byte := []
  /-- The lines that the cache served at dispatch; cipher operations still to be released. -/
  hits : List Nat := []
  unitsLeft : Nat := 0
  /-- Bytes awaited from the initiator, and received. -/
  need : Nat := 0
  got : Nat := 0
  wrId : Nat := 0
  host : Nat := 0
  rkey : Nat := 0
  deadline : Nat := 0
  deriving DecidableEq, Repr, Inhabited

/-- A storage port (R496 to R502). -/
structure Sport where
  present : Bool := false
  powerOn : Bool := false
  attn : Nat := 0
  pwrInd : Nat := 0
  changed : Bool := false
  button : Bool := false
  fault : Bool := false
  perst : Bool := true
  linkUp : Bool := false
  ready : Bool := false
  onAt : Nat := 0
  /-- The drive's namespaces: NSID, blocks, and format (R446). -/
  drives : List (Nat × Nat × Nat) := []
  deriving DecidableEq, Repr, Inhabited

/-- The storage-target service and the storage cache (R449): lines of 4 KiB keyed by port * 2^56 + drive NSID * 2^40 ... as
`lineKey` gives, and fills under way with whether they are still valid. -/
structure Store where
  nss : SMap Ns := []
  cmds : SMap DriveCmd := []
  nextCmd : Nat := 0
  ports : SMap Sport := []
  lines : SMap (List Byte) := []
  fills : List (Nat × Bool) := []
  deriving DecidableEq, Repr, Inhabited

/-! ## Peal bus (chapter 15) -/

/-- A contending frame (R546): JOIN_REQ (3) or CLAIM (5), its destination, the attempt, when it may be sent, and the end of the
join window. -/
structure Contend where
  type : Nat := 3
  dst : Nat := 0
  attempt : Nat := 1
  from_ : Nat := 0
  until_ : Option Nat := none
  deriving DecidableEq, Repr, Inhabited

/-- The peal bus controller. -/
structure Peal where
  node : Nat := 0
  nodeValid : Bool := false
  tokenTo : Nat := 100
  timeSrc : Nat := 0
  timeSrcEn : Bool := false
  enabled : Bool := false
  member : Bool := false
  joining : Bool := false
  recovering : Bool := false
  dupId : Bool := false
  map : List Nat := []
  seq : Nat := 0
  /-- The tick of the last bit seen or sent, and of the last valid frame. -/
  busy : Nat := 0
  lastRx : Nat := 0
  lastHolder : Nat := 0
  tokenBy : Option Nat := none
  tokenAt : Option Nat := none
  rotation : Nat := 0
  /-- The token was sent: to whom, how often, and until when a start bit is awaited (R549). -/
  watch : Option (Nat × Nat × Nat) := none
  selfToken : Bool := false
  /-- The join window that this node opened (R552), and its last SOLICIT. -/
  window : Option Nat := none
  solicited : Option Nat := none
  contend : Option Contend := none
  /-- Frames queued for a visit: LEAVE; FIRE_ANNOUNCE or FIRE_CANCEL; FIRE_ARMED; TELEMETRY of R663; PEAL_SEND. -/
  leave : Bool := false
  announce : Option (List Byte) := none
  cancel : Option (List Byte) := none
  armed : Option (Nat × DevTime × List Byte) := none
  telem : Option (List Byte) := none
  sends : List (Nat × Nat × List Byte) := []
  /-- PEAL_FIRE_MAP entries that are not 0; PEAL_RX_LOG and its next index. -/
  fireMap : SMap Nat := []
  log : SMap (List Byte) := []
  logNext : Nat := 0
  deriving DecidableEq, Repr, Inhabited

/-! ## Kiln, ageing and fault injection (chapter 16) -/

/-- A move or test of a bank or buffer slice (R575, R578, R583). -/
structure Move where
  /-- The logical unit that moves, and the physical unit that serves it, which is tested afterwards if `targeted`. -/
  logical : Nat := 0
  phys : Nat := 0
  /-- The unit is tested once its contents have moved (R583, R592). -/
  targeted : Bool := false
  /-- When the remaining cells of a buffer slice are copied (R578). -/
  copyAt : Option Nat := none
  deriving DecidableEq, Repr, Inhabited

/-- The rotation of a pipeline's banks or of the buffer slices: physical units of the logical units that are not served by their
own number, the spare, physical units retired, logical units lost (R577, R579, R585). -/
structure Rot where
  map : SMap Nat := []
  spare : Option Nat := some 16
  retired : List Nat := []
  lost : List Nat := []
  stage : Nat := 0
  move : Option Move := none
  next : Nat := 0
  /-- The instants of the step period that have passed (R575). -/
  last : Nat := 0
  /-- The last error of a row while there was no spare (R585): row and tick. -/
  errors : List (Nat × Nat) := []
  deriving DecidableEq, Repr, Inhabited

/-- Kiln (R570 to R595). -/
structure Kiln where
  banks : SMap Rot := []
  buf : Rot := { spare := some 8 }
  /-- The core that a step or test has taken out of service: its number, whether its test has begun, whether it is targeted, and
  when the step began. -/
  core : Option (Nat × Bool × Bool × Nat) := none
  /-- The fragment way of a pipeline that a step or test has stopped: its number, whether it is targeted, and when. -/
  ways : SMap (Nat × Bool × Nat) := []
  coreNext : Nat := 0
  coreLast : Nat := 0
  wayNext : SMap Nat := []
  wayLast : SMap Nat := []
  /-- Step periods in ms by class 0 to 3; absent: the default (R573). -/
  periods : SMap Nat := []
  /-- Targeted tests queued, in the order of their errors (R582). -/
  queue : List Nat := []
  /-- Tests that KILN_RUN asked for, with the ring that waits for each start (R592), and those of classes 4 to 10 under way. -/
  asked : List (Nat × Nat × Bool) := []
  runs : List Nat := []
  /-- Blocks retired, and physical banks and buffer slices retired, since power-on of AO (R587); policies changed, true for
  RETIRE; blocks that hold the adapter, and whether the hold began in service (R588, R590). -/
  blocks : List Nat := []
  gone : List Nat := []
  policy : SMap Bool := []
  holds : List Nat := []
  holdService : Bool := false
  passes : Nat := 0
  fails : Nat := 0
  lastSlice : Nat := 0
  lastResult : Nat := 0
  /-- KILN_ERR (R606), by index. -/
  err : SMap Nat := []
  deriving DecidableEq, Repr, Inhabited

/-- A region's ageing record (R597 to R601). Margins are in units of 1/16 mV, as GUARD is. -/
structure Age where
  margin : Int := 0
  least : Option Int := none
  kind : Nat := 0
  index : Nat := 0
  guard : Nat := 0
  /-- GUARD at the end of each interval, newest first. -/
  history : List Nat := []
  forecast : Nat := 0xFFFF
  lowNext : Nat := 0
  eolNext : Nat := 0
  /-- When the interval ends: 86,400 s after it began (R599). -/
  planAt : Nat := 69120000000000
  /-- When the monitors may be sampled next (R597). -/
  sampleAt : Nat := 0
  deriving DecidableEq, Repr, Inhabited

/-- What injection makes of a frame (R603). -/
inductive FiFate where
  | none | drop | corrupt (bit : Nat) | hold (bit : Option Nat)
  deriving DecidableEq, Repr, Inhabited

/-- Fault injection on a lane (R602 to R605). -/
structure Fi where
  armed : Bool := false
  open_ : Bool := false
  rx : Bool := false
  drop : Nat := 0
  corrupt : Nat := 0
  reorder : Nat := 0
  delay : Nat := 0
  start : DevTime := {}
  duration : Nat := 0
  /-- What the frame being received and the frame being sent come to; the received frame's bytes so far where it is to be held,
  and its stamp. -/
  fate : FiFate := .none
  txFate : FiFate := .none
  acc : List Byte := []
  accStamp : DevTime := {}
  /-- The frame in the hold slot, whether it is bad, its receive stamp, and when it is released. -/
  held : Option (List Byte × Bool × DevTime × Nat) := none
  /-- LANE_FI_CNT (R606). -/
  dropped : Nat := 0
  corrupted : Nat := 0
  reordered : Nat := 0
  busy : Nat := 0
  deriving DecidableEq, Repr, Inhabited

/-! ## HBM (R665, log 8) -/

/-- HBM: the bytes that differ from what an unlisted address reads as, in canonical form, and how many start-up tests have
overwritten the first GiB of each stack (R46, R587). -/
structure Hbm where
  cells : List Host.Cell := []
  tests : SMap Nat := []
  deriving DecidableEq, Repr, Inhabited

/-! ## The whole -/

/-- The state of the adapter. Timers are deadlines in CK_T ticks (`tick`, log 7). -/
structure State where
  /-- CK_T ticks since power-on of AO (log 7). -/
  tick : Nat := 0
  /-- The model's own: how many free values have been used (log 5), and what has left the block (log 2). -/
  draws : Nat := 0
  out : List Output := []
  /-- The commands that wait, first in, first out. -/
  pending : List Instr := []
  hbm : Hbm := {}
  pwr : Pwr := {}
  fw : Fw := {}
  time : Time := {}
  gates : SMap Gate := []
  /-- Shared balls that the gate strobe drives: the tick at which each falls (R372). -/
  strobe : SMap Nat := []
  fns : SMap Fn := []
  ports : SMap PcPort := []
  sec : Sec := {}
  lanes : SMap Lane := []
  pkts : SMap Pkt := []
  nextPkt : Nat := 0
  /-- A number that rises: it orders what leaves as it entered, a parser or a flow wait queue (R233, R279). -/
  turns : Nat := 0
  sets : Sets := {}
  /-- Fragment entries, keyed by pipeline * 4096 + set * 4 + way, and the hold queues by pipeline (R254, R255). -/
  frags : SMap FragEntry := []
  holdQ : SMap (List Nat) := []
  punts : SMap (List Punt) := []
  /-- Reorder contexts, keyed by source node * 4096 + path set (R207), and the next SEQ of each path set (R215). -/
  ctxs : SMap Ctx := []
  seqs : SMap Nat := []
  learns : SMap Learn := []
  reports : List Report := []
  /-- Ageing periods in ms, keyed by instance * 256 + table (R300). -/
  ages : SMap Nat := []
  tm : Tm := {}
  cnts : List (Cnt × Nat × Nat) := []
  /-- Upper words that reads of lower words have latched (R76), by the address of the lower word. -/
  latches : SMap Nat := []
  /-- TABLE_PARITY: when a bank's next event may be posted, and its errors since (R294). -/
  parity : SMap (Nat × Nat) := []
  /-- Packets waiting for a host receive queue (R471), and those held for their launch time (R367). -/
  deliveries : SMap (List Nat) := []
  launchHeld : List Nat := []
  ciph : Ciph := {}
  keys : Keys := {}
  xport : Xport := {}
  store : Store := {}
  kiln : Kiln := {}
  /-- Ageing, by region (R597 to R601). -/
  age : SMap Age := []
  fi : SMap Fi := []
  peal : Peal := {}
  deriving DecidableEq, Repr, Inhabited

/-- Why a command stops the machine with a fault. No meaning raises one: every row has an effect, or none on a state in which
its occasion is absent (log 3). -/
inductive Fault where
  /-- Raised by no meaning. Safe. -/
  | unreached
  deriving DecidableEq, Repr

/-- Why a command is refused. -/
inductive Refusal where
  /-- The command has no meaning in this model; raised by the dispatch alone. Safe. -/
  | notModelled (mnemonic : String)
  deriving DecidableEq, Repr

/-- The adapter right after power-on of AO (R637, R638, log 17): every field at the value the spec gives it, else at the value
of log 9. -/
def State.reset : State := {}

end Sys2Proof.Machine
end

