-- ==== Sys2Proof/Machine/Ops.lean ====
section
/-! DEFINITION. The named operations over State: maps, bits, time, host writes, events, interrupts and command rings. -/
namespace Sys2Proof.Machine

/-! ## Sparse maps -/

/-- The piece of state at key `k`, its reset value where the map does not list it. -/
def SMap.get {α : Type} [Inhabited α] : SMap α → Nat → α
  | [], _ => default
  | (j, a) :: m, k => if j = k then a else SMap.get m k

/-- Whether the map lists key `k`. -/
def SMap.has {α : Type} : SMap α → Nat → Bool
  | [], _ => false
  | (j, _) :: m, k => j == k || SMap.has m k

/-- The map with `a` at key `k`; keys stay in rising order. -/
def SMap.put {α : Type} : SMap α → Nat → α → SMap α
  | [], k, a => [(k, a)]
  | (j, b) :: m, k, a =>
    if k < j then (k, a) :: (j, b) :: m
    else if k = j then (k, a) :: m
    else (j, b) :: SMap.put m k a

/-- The map without key `k`. -/
def SMap.del {α : Type} : SMap α → Nat → SMap α
  | [], _ => []
  | (j, b) :: m, k => if j = k then m else (j, b) :: SMap.del m k

/-- The map with `f` applied at key `k`. -/
def SMap.upd {α : Type} [Inhabited α] (m : SMap α) (k : Nat) (f : α → α) : SMap α := m.put k (f (m.get k))

/-- The map with `f` applied to every listed piece. -/
def SMap.mapAll {α : Type} (m : SMap α) (f : Nat → α → α) : SMap α := m.map fun p => (p.1, f p.1 p.2)

/-! ## Bits, bytes and numbers -/

/-- Bits [hi:lo] of a number (R102). -/
def bits (hi lo x : Nat) : Nat := (x >>> lo) % 2 ^ (hi + 1 - lo)

/-- A number placed at bits [hi:lo], cut to that width. -/
def fld (hi lo v : Nat) : Nat := (v % 2 ^ (hi + 1 - lo)) <<< lo

/-- A flag as a number. -/
def bit (b : Bool) : Nat := if b then 1 else 0

/-- Two's complement: the integer that `w` bits stand for (R71). -/
def toSigned (w x : Nat) : Int := if x % 2 ^ w < 2 ^ (w - 1) then (x % 2 ^ w : Nat) else (x % 2 ^ w : Nat) - (2 ^ w : Nat)

/-- The `w` bits of an integer in two's complement (R71). -/
def ofSigned (w : Nat) (i : Int) : Nat := (i % (2 ^ w : Nat)).toNat

/-- Saturation of an integer to `w` bits, signed (R73). -/
def satSigned (w : Nat) (i : Int) : Int := max (-(2 ^ (w - 1) : Nat)) (min ((2 ^ (w - 1) : Nat) - 1) i)

/-- A saturating counter of `w` bits after `k` more counts (R74). -/
def satAdd (w n k : Nat) : Nat := min (2 ^ w - 1) (n + k)

/-- A wrapping counter of `w` bits after `k` more counts (R74). -/
def wrapAdd (w n k : Nat) : Nat := (n + k) % 2 ^ w

/-- `a` is after `b` as `n`-bit wrap numbers (R84). -/
def after (n a b : Nat) : Bool :=
  let d := (a + 2 ^ n - b % 2 ^ n) % 2 ^ n
  0 < d && d < 2 ^ (n - 1)

/-- Division rounded to nearest, ties to even, for non-negative numbers (R72). -/
def rneDiv (a b : Nat) : Nat :=
  let q := a / b
  let r := a % b
  if 2 * r > b || (2 * r == b && q % 2 == 1) then q + 1 else q

/-- RNE of an integer over a natural, by magnitude (R72). -/
def rneDivInt (a : Int) (b : Nat) : Int := if a < 0 then -(rneDiv a.natAbs b : Nat) else (rneDiv a.natAbs b : Nat)

/-! ## Device time (R78 to R83) -/

/-- Units of 2^-32 ns since 0 s. -/
def DevTime.units (t : DevTime) : Nat := (t.sec * 1000000000 + t.ns) * 2 ^ 32 + t.frac

/-- The device time of a number of units, SEC wrapping (R78). -/
def DevTime.ofUnits (u : Nat) : DevTime :=
  { sec := u / 2 ^ 32 / 1000000000 % 2 ^ 48, ns := u / 2 ^ 32 % 1000000000, frac := u % 2 ^ 32 }

/-- Units in the whole range of device time. -/
def timeSpan : Nat := 2 ^ 48 * 1000000000 * 2 ^ 32

/-- Device time is in its range (R78). -/
def DevTime.valid (t : DevTime) : Bool := t.sec < 2 ^ 48 && t.ns < 1000000000 && t.frac < 2 ^ 32

/-- One tick's addition of INC (R81), step for step. -/
def DevTime.tick (t : DevTime) (inc : Nat) : DevTime :=
  let fracSum := t.frac + inc % 2 ^ 32
  let ns := t.ns + inc / 2 ^ 32 + fracSum / 2 ^ 32
  if ns ≥ 1000000000 then { sec := (t.sec + 1) % 2 ^ 48, ns := ns - 1000000000, frac := fracSum % 2 ^ 32 }
  else { sec := t.sec, ns := ns, frac := fracSum % 2 ^ 32 }

/-- An interval in units added with carry and borrow (R82). -/
def DevTime.add (t : DevTime) (d : Int) : DevTime := DevTime.ofUnits (((t.units : Int) + d) % (timeSpan : Int)).toNat

/-- The difference b − a in units, S48.32, saturating (R83). -/
def DevTime.diff (b a : DevTime) : Int :=
  satSigned 80 (toSigned 48 ((b.sec + 2 ^ 48 - a.sec % 2 ^ 48) % 2 ^ 48) * 1000000000 * 2 ^ 32
    + ((b.ns : Int) - a.ns) * 2 ^ 32 + ((b.frac : Int) - a.frac))

/-- Device time `b` equals or passes `a`. -/
def DevTime.reached (b a : DevTime) : Bool := decide (0 ≤ DevTime.diff b a)

/-- The 16-byte layout (R79). -/
def DevTime.full (t : DevTime) : Nat := fld 127 80 t.sec + fld 61 32 t.ns + fld 31 0 t.frac

/-- A 16-byte value read as R79 lays it out, reserved bits aside. -/
def DevTime.ofFull (x : Nat) : DevTime := { sec := bits 127 80 x, ns := bits 61 32 x, frac := bits 31 0 x }

/-- The 8-byte stamp (R80). -/
def DevTime.stamp (t : DevTime) : Nat := fld 63 48 t.sec + fld 47 18 t.ns + bits 31 14 t.frac

/-- CK_T ticks in a number of nanoseconds (the first tick at or after it), microseconds, milliseconds and seconds at nominal rate
(log 7). -/
def nsT (n : Nat) : Nat := (n * 4 + 4) / 5
def usT (n : Nat) : Nat := n * 800
def msT (n : Nat) : Nat := n * 800000
def secT (n : Nat) : Nat := n * 800000000

/-- Units of 2^-32 ns in nanoseconds. -/
def nsU (n : Nat) : Nat := n * 2 ^ 32

/-! ## State accessors -/

/-- An item leaves the block (log 2). -/
def emit (o : Output) (s : State) : State := { s with out := s.out ++ [o] }

/-- The function of an IID. -/
def fnOf (s : State) (iid : Nat) : Fn := s.fns.get iid

/-- The function of an IID changes. -/
def setFn (iid : Nat) (f : Fn → Fn) (s : State) : State := { s with fns := s.fns.upd iid f }

/-- A queue slot of a function changes. -/
def setSlot (iid slot : Nat) (f : QSlot → QSlot) (s : State) : State :=
  setFn iid (fun g => { g with slots := g.slots.upd slot f }) s

/-- The host port of an IID, its function number, and its physical function (R505). -/
def portOf (iid : Nat) : Nat := iid / 4096 % 8
def fnNum (iid : Nat) : Nat := iid % 4096
def pfOf (iid : Nat) : Nat := portOf iid * 4096
def isPf (iid : Nat) : Bool := fnNum iid == 0

/-- An IID is well formed (R505). -/
def iidOk (iid : Nat) : Bool := iid < 32768 && fnNum iid ≤ 512

/-- The instance index (R505). -/
def instIndex (iid : Nat) : Nat := portOf iid * 513 + fnNum iid

/-- A function exists (R461). -/
def fnExists (s : State) (iid : Nat) : Bool :=
  iidOk iid && (isPf iid || ((fnOf s (pfOf iid)).vfEnable && fnNum iid ≤ (fnOf s (pfOf iid)).numVfs))

/-- The domain of an instance is down (R507). -/
def domainDown (s : State) (iid : Nat) : Bool :=
  (fnOf s iid).d3hot || (fnOf s iid).flr.isSome || !(s.ports.get (portOf iid)).linkUp || (s.ports.get (portOf iid)).perst

/-- MSI-X vectors of a function (R460). -/
def vectorCount (iid : Nat) : Nat := if isPf iid then 1024 else 64

/-- The next free value of `w` bits (log 5). -/
def drawn (w : Nat) (s : State) : Nat := Config.draw s.draws % 2 ^ w

/-- A free value has been used. -/
def useDraw (s : State) : State := { s with draws := s.draws + 1 }

/-- The functions that have state. -/
def fnList (s : State) : List Nat := s.fns.map (·.1)

/-! ## Writes toward a host (R68, R533) -/

/-- A 4 KiB page is marked for dirty-page logging (R533, R534). -/
def DirtyLog.mark (d : DirtyLog) (page : Nat) : DirtyLog :=
  if d.overflow || d.round.contains page then d
  else if d.round.length ≥ 4194304 then { d with overflow := true }
  else { d with round := page :: d.round, staged := d.staged ++ [page] }

/-- The pages of a write are marked. -/
def markDirty (iid addr len : Nat) (s : State) : State :=
  match (fnOf s iid).inst.log with
  | none => s
  | some d =>
    let d' := if (addr % 4096) + len > 4096 then (d.mark (addr / 4096)).mark (addr / 4096 + 1) else d.mark (addr / 4096)
    setFn iid (fun f => { f with inst := { f.inst with log := some d' } }) s

/-- A counter of a host port or a storage port changes; storage port n has key 8 + n. -/
def setPort (p : Nat) (f : PcPort → PcPort) (s : State) : State := { s with ports := s.ports.upd p f }

/-- A count of packets and bytes, both wrapping (R503). -/
def Ctr.count (c : Ctr) (bytes : Nat) : Ctr := { pk := wrapAdd 64 c.pk 1, by_ := wrapAdd 64 c.by_ bytes }

/-- A posted write of a function (R68): issued, or discarded and counted while its Bus Master Enable is 0 (R482). -/
def hostWrite (iid addr len data : Nat) (ro : Bool) (s : State) : State :=
  if (fnOf s iid).bme then markDirty iid addr len (emit (.dma iid addr len data ro) s)
  else setPort (portOf iid) (fun p => { p with bmeDrop := p.bmeDrop.count len }) s

/-! ## Interrupts (R486, R489) -/

/-- Assert_INTA or Deassert_INTA as HOST_INTX_STS, MSI-X Enable and Interrupt Disable change (R489). -/
def intxLevel (f : Fn) : Bool := f.intx != 0 && !f.intxDisable && !f.msixEn

/-- A function changes, and INTx messages follow its level (R489). -/
def setFnIntx (iid : Nat) (g : Fn → Fn) (s : State) : State :=
  let a := intxLevel (fnOf s iid)
  let t := setFn iid g s
  let b := intxLevel (fnOf t iid)
  if a == b then t else emit (.intx iid b) t

/-- A vector of a function is raised (R486, R489). -/
def raiseVector (iid v : Nat) (s : State) : State :=
  let f := fnOf s iid
  if v ≥ vectorCount iid then setFn iid (fun f => { f with badVector := true }) s
  else if !f.msixEn then
    if isPf iid then setFnIntx iid (fun f => { f with intx := f.intx ||| (1#32 <<< (v % 32)) }) s else s
  else if f.bme && f.unmasked.contains v && !f.msixMaskAll then emit (.msix iid v) s
  else if f.msixPending.contains v then s
  else setFn iid (fun f => { f with msixPending := f.msixPending ++ [v] }) s

/-! ## Events (R122 to R126) -/

/-- Room in a record ring that has been set up (R123). -/
def RecRing.room (r : RecRing) : Bool := r.set && (r.pi - r.ack).toNat < 2 ^ r.log2.toNat

/-- The lap parity of the next entry (R107). -/
def RecRing.phase (r : RecRing) : Nat := 1 - (r.pi.toNat / 2 ^ r.log2.toNat) % 2

/-- Records can be written: the firmware runs and the function masters its bus (R124, R485). -/
def recordsFlow (s : State) (pf : Nat) : Bool := s.fw.ready && (fnOf s pf).bme && (s.ports.get (portOf pf)).linkUp

/-- One event record is written, data first and header second (R122), and its vector raised. -/
def writeEvent (pf rec : Nat) (s : State) : State :=
  let r := (fnOf s pf).evt
  let addr := r.base.toNat + 32 * (r.pi.toNat % 2 ^ r.log2.toNat)
  let rec' := rec + fld 31 31 r.phase
  let s := hostWrite pf (addr + 16) 16 (rec' / 2 ^ 128) false s
  let s := hostWrite pf addr 16 (rec' % 2 ^ 128) false s
  let s := setFn pf (fun f => { f with evt := { f.evt with pi := f.evt.pi + 1 } }) s
  raiseVector pf r.vector.toNat s

/-- An event record without its PHASE (R122). -/
def eventRecord (s : State) (code : Nat) (iid : Option Nat) (region data : Nat) : Nat :=
  data / 2 ^ 128 * 2 ^ 128 + s.time.now.stamp * 2 ^ 64 + fld 48 48 (bit iid.isSome) + fld 47 32 (iid.getD 0)
    + fld 27 24 (Config.severity code % 4) + fld 23 16 region + fld 15 0 code

/-- Event records held for a physical function: at most 256 (R123, R124). -/
def RecRing.waiting (r : RecRing) : Nat := r.held.length + r.early.length

/-- A record is written, or held, or dropped and counted (R123, R124); one raised while the firmware is halted is held apart, to
follow FW_READY (R124, R135). -/
def deliverEvent (pf rec : Nat) (s : State) : State :=
  let r := (fnOf s pf).evt
  if r.waiting == 0 && r.dropped == 0 && r.room && recordsFlow s pf then writeEvent pf rec s
  else if r.waiting ≥ 256 then setFn pf (fun f => { f with evt := { f.evt with dropped := satAdd 32 f.evt.dropped 1 } }) s
  else if s.fw.ready then setFn pf (fun f => { f with evt := { f.evt with held := f.evt.held ++ [rec] } }) s
  else setFn pf (fun f => { f with evt := { f.evt with early := f.evt.early ++ [rec] } }) s

/-- Held records are written while there is room, at most `n` of them. -/
def flushHeld (pf : Nat) : Nat → State → State
  | 0, s => s
  | n + 1, s =>
    match (fnOf s pf).evt.held with
    | [] => s
    | rec :: rest =>
      if (fnOf s pf).evt.room && recordsFlow s pf then
        flushHeld pf n (writeEvent pf rec (setFn pf (fun f => { f with evt := { f.evt with held := rest } }) s))
      else s

/-- The held records of a physical function follow its freed room, then EVT_OVERFLOW where any were dropped (R123, R124). -/
def flushEvents (pf : Nat) (s : State) : State :=
  let s := flushHeld pf 256 s
  let r := (fnOf s pf).evt
  if r.held.isEmpty && r.dropped > 0 && r.room && recordsFlow s pf then
    let ev := eventRecord s 0x0104 none 0xFF (fld 255 224 r.dropped)
    writeEvent pf ev (setFn pf (fun f => { f with evt := { f.evt with dropped := 0 } }) s)
  else s

/-- Records go to a list of physical functions. -/
def deliverTo (rec : Nat) : List Nat → State → State
  | [], s => s
  | pf :: pfs, s => deliverTo rec pfs (deliverEvent pf rec s)

/-- An event that concerns an instance goes to the physical function of its port. -/
def postInst (code iid region data : Nat) (s : State) : State :=
  deliverEvent (pfOf iid) (eventRecord s code (some iid) region data) s

/-- The physical functions an adapter-wide event reaches: the adapter manager, and those subscribed to its group (R120). -/
def subscribers (s : State) (code : Nat) : List Nat :=
  0 :: ([1, 2, 3, 4, 5, 6, 7].map (· * 4096)).filter fun pf =>
    (fnOf s pf).evt.mask.getLsbD (code / 256) && decide ((fnOf s pf).evt.floor ≤ Config.severity code % 4)

/-- An adapter-wide event. -/
def postAll (code region data : Nat) (s : State) : State :=
  deliverTo (eventRecord s code none region data) (subscribers s code) s

/-- An event posted to given physical functions, about an instance. -/
def postTo (code iid data : Nat) (pfs : List Nat) (s : State) : State :=
  deliverTo (eventRecord s code (some iid) 20 data) pfs s

/-! ## Command rings (R103 to R117) -/

/-- The ring of a function: its ordinary ring, or that of its secure channel. -/
def ringOf (s : State) (iid : Nat) (sec : Bool) : Ring := if sec then (fnOf s iid).sec else (fnOf s iid).cmd

/-- A ring of a function changes. -/
def setRing (iid : Nat) (sec : Bool) (g : Ring → Ring) (s : State) : State :=
  setFn iid (fun f => if sec then { f with sec := g f.sec } else { f with cmd := g f.cmd }) s

/-- A ring stops (R108): ERR, its code, and CMD_RING_ERROR. -/
def stopRing (iid : Nat) (sec : Bool) (code : Nat) (s : State) : State :=
  let s := setRing iid sec (fun r => { r with err := true, errCode := BitVec.ofNat 4 code, stopped := true }) s
  let r := ringOf s iid sec
  postInst 0x0103 iid 20 (fld 255 240 iid + fld 239 239 (bit sec) + fld 238 235 code + fld 234 219 r.pi.toNat
    + fld 218 203 r.ci.toNat) s

/-- Header fields of a command packet (R113). -/
def CmdPkt.h (c : CmdPkt) (hi lo : Nat) : Nat := bits hi lo c.hdr.toNat
def CmdPkt.opcode (c : CmdPkt) : Nat := c.h 15 0
def CmdPkt.seq (c : CmdPkt) : Nat := c.h 47 32
def CmdPkt.iid (c : CmdPkt) : Nat := c.h 63 48
def CmdPkt.plen (c : CmdPkt) : Nat := c.h 69 64
def CmdPkt.cookie (c : CmdPkt) : Nat := c.h 127 96
def CmdPkt.isCheck (c : CmdPkt) : Bool := c.h 18 18 == 1
def CmdPkt.indirect (c : CmdPkt) : Bool := c.h 17 17 == 1
def CmdPkt.intr (c : CmdPkt) : Bool := c.h 16 16 == 1

/-- PARAM bytes `lo` to `lo + n - 1` as a number (R102, R113). -/
def CmdPkt.p (c : CmdPkt) (lo n : Nat) : Nat := c.param.toNat / 256 ^ lo % 256 ^ n

/-- Status codes (R121). -/
def stOk : Nat := 0
def stBusy : Nat := 1
def stConflict : Nat := 2
def stTableFull : Nat := 3
def stDenied : Nat := 4
def stBadParam : Nat := 5
def stTimeout : Nat := 6
def stDomainDown : Nat := 7
def stBadOpcode : Nat := 8
def stNotFound : Nat := 9
def stBadState : Nat := 10
def stSigFail : Nat := 11
def stNoResource : Nat := 12
def stAborted : Nat := 13
def stHwFault : Nat := 14

/-- How a check refuses: status, and RDATA with DETAIL in bits [15:0] (R116). -/
abbrev Refuse := Option (Nat × Nat)

/-- The first refusal of a list of conditions, in order (R117). -/
def firstOf : List (Bool × Nat) → Refuse
  | [] => none
  | (b, st) :: rest => if b then some (st, 0) else firstOf rest

/-- The opcodes of R120, by group: how many each lists. -/
def opcodeListed (op : Nat) : Bool :=
  let n := match op / 256 with
    | 1 => 9 | 2 => 9 | 3 => 7 | 4 => 5 | 5 => 8 | 6 => 4 | 7 => 5 | 8 => 7 | 9 => 5 | 10 => 2 | 11 => 3 | 12 => 4 | 13 => 4
    | _ => 0
  1 ≤ op % 256 && op % 256 ≤ n

/-- ELAPSED (R115): microseconds from the start of execution to now, rounded to nearest even (R72), U16.0 saturating. -/
def Exec.elapsed (e : Exec) (s : State) : Nat := min 65535 (rneDiv (s.tick - e.start) 800)

/-- A reply is written as two posted writes (R110, R115), CI counts it (R106), and the vector follows (R113). While the
function does not master its bus the reply is discarded and REPLY_ERROR set (R138). -/
def writeReply (e : Exec) (status rdata : Nat) (s : State) : State :=
  let iid := e.pkt.fn
  let r := ringOf s iid e.pkt.sec
  let size := 2 ^ r.log2.toNat
  let addr := r.replyBase.toNat + 32 * (e.idx.toNat % size)
  let hdr := fld 127 127 (1 - (e.idx.toNat / size) % 2) + fld 111 96 (e.elapsed s) + fld 95 64 e.pkt.cookie
    + fld 63 48 e.pkt.iid + fld 47 32 e.pkt.seq + fld 31 16 e.opcode + fld 15 0 status
  let gone := r.exec.isNone
  let s := setRing iid e.pkt.sec (fun r => { r with exec := none }) s
  if gone then s else
  if (fnOf s iid).bme then
    let s := hostWrite iid (addr + 16) 16 (rdata % 2 ^ 128) false s
    let s := hostWrite iid addr 16 hdr false s
    let s := setRing iid e.pkt.sec (fun r => { r with ci := r.ci + 1 }) s
    if e.pkt.intr then raiseVector iid r.vector.toNat s else s
  else setRing iid e.pkt.sec (fun r => { r with err := true, errCode := 4, stopped := true }) s

/-- Firmware serves rings: it runs, or it serves the few opcodes of recovery, of a hold or of SCRAP (R132, R135, R587, R617). -/
def ringsServed (s : State) : Bool := s.fw.ready || s.fw.recovery || !s.kiln.holds.isEmpty || s.sec.lc == 4

/-- The command a ring executes ends (R112): its reply is written; while the firmware is halted the journal keeps the effect, and
the reply follows the restart (R136). -/
def finishExec (iid : Nat) (sec : Bool) (status rdata : Nat) (s : State) : State :=
  match (ringOf s iid sec).exec with
  | none => s
  | some e =>
    if ringsServed s then writeReply e status rdata s
    else setRing iid sec (fun r => { r with
      exec := some { e with committed := status == stOk, rdata := BitVec.ofNat 128 rdata } }) s

/-- A block under policy HOLD failed its start-up test: the adapter is held (R587). -/
def Kiln.holding (k : Kiln) : Bool := !k.holds.isEmpty

/-- A ring has a command to execute and may execute it (R108, R112, R132, R135, R138, R523). -/
def ringLive (s : State) (iid : Nat) (sec : Bool) : Bool :=
  let r := ringOf s iid sec
  fnExists s iid && r.enable && !r.stopped && r.pi != r.ci && r.exec.isNone && (fnOf s iid).bme && !domainDown s iid
    && ringsServed s
    && (sec || ((fnOf s iid).inst.state != 2 && (fnOf s iid).inst.state != 3)) && (!sec || isPf iid)

/-- Issuers (R118): A, P, V. -/
inductive Who where
  | A | P | V
  deriving DecidableEq, Repr

/-- The issuer is one the opcode accepts (R118). -/
def issuerOk (w : Who) (fn iid : Nat) : Bool :=
  match w with
  | .A => fn == 0
  | .P => fn == 0 || fn == pfOf iid
  | .V => fn == 0 || fn == pfOf iid || fn == iid

/-- Issuer, channel, session, and the states that serve few opcodes (R118, R132, R530, R587, R612, R613, R617, R620). -/
def channelOk (s : State) (w : Who) (secOnly : Bool) (op : Nat) (c : CmdPkt) : Bool :=
  let info := op == 0x0101
  if s.sec.lc == 4 then info && !c.sec && issuerOk w c.fn c.iid
  else if s.fw.recovery then
    issuerOk w c.fn c.iid && c.sec && (op == 0x0101 || op == 0x0102 || op == 0x0103 || op == 0x0104)
      && ((s.sec.ports.get (portOf c.fn)).session != 0 || op == 0x0101 || op == 0x0102)
  else if s.kiln.holding then
    c.fn == 0 && issuerOk w c.fn c.iid && c.sec && (op == 0x0101 || op == 0x0102 || op == 0x0901 || op == 0x0904)
      && ((s.sec.ports.get (portOf c.fn)).session != 0 || op == 0x0101 || op == 0x0102)
  else if isPf c.fn && (fnOf s c.fn).inst.state == 0 then (info || op == 0x0209) && issuerOk w c.fn c.iid
  else issuerOk w c.fn c.iid && (!secOnly || c.sec)
    && (!c.sec || (s.sec.ports.get (portOf c.fn)).session != 0 || op == 0x0101 || op == 0x0102)

/-- The steps of R117 up to the parameter check; `permit` is the life-cycle rule of the opcode (R613). -/
def acceptHead (w : Who) (secOnly : Bool) (op : Nat) (permit : CmdPkt → State → Bool) (c : CmdPkt) (s : State) : Refuse :=
  if !opcodeListed c.opcode then some (stBadOpcode, 0)
  else if !channelOk s w secOnly op c || !permit c s then some (stDenied, 0)
  else if iidOk c.iid && domainDown s c.iid then some (stDomainDown, 0)
  else if !iidOk c.iid then some (stBadParam, 0)
  else none

/-- The opcodes that read their INDIRECT buffer (R120): FW_UPDATE, TBL_INSERT, TBL_MODIFY, TBL_LOOKUP, SET_LOAD, GATE_LOAD,
QP_MODIFY. The other opcodes with a buffer only write it. -/
def readsBuffer (op : Nat) : Bool := [0x0103, 0x0301, 0x0303, 0x0304, 0x0401, 0x0506, 0x0802].contains op

/-- The command's buffer is still to be read (R114): its row brings no bytes of it. -/
def needsBuffer (c : CmdPkt) : Bool := c.indirect && readsBuffer c.opcode && c.ind.isNone

/-! ## Tags and requests (R457, R479 to R481) -/

/-- The completion timeout of a function in CK_T ticks (R479). -/
def cplTicks (enc : BitVec 4) : Nat :=
  match enc.toNat with
  | 1 => usT 100
  | 2 => msT 10
  | 5 => msT 50
  | 6 => msT 200
  | 9 => msT 900
  | 10 => msT 3500
  | _ => msT 10

/-- A tag of 14 bits that is neither outstanding nor quarantined, the lowest (R481); at most 4,096 requests are outstanding
(R457). -/
def freeTag (p : PcPort) : Option Nat :=
  if p.reqs.length ≥ 4096 then none
  else (List.range (min 16384 (p.reqs.length + p.quar.length + 1))).find? fun t =>
    !(p.reqs.any fun r => r.tag == t) && !(p.quar.any fun q => q.1 == t)

/-- A non-posted request of a function takes a tag and is issued at a port. -/
def sendRead (k t : Nat) (w : ReqWait) (s : State) : State :=
  emit (.read w.fn t w.addr w.len) (setPort k (fun p => { p with
    reqs := p.reqs ++ [{ tag := t, fn := w.fn, kind := w.kind, deadline := s.tick + cplTicks (fnOf s w.fn).cplTo }] }) s)

/-- A non-posted request of a function is issued, or waits while no tag is free (R481). -/
def issueRead (iid : Nat) (kind : ReqKind) (addr len : Nat) (s : State) : State :=
  let w : ReqWait := { fn := iid, kind := kind, addr := addr, len := len }
  match freeTag (s.ports.get (portOf iid)) with
  | none => setPort (portOf iid) (fun p => { p with waits := p.waits ++ [w] }) s
  | some t => sendRead (portOf iid) t w s

/-- A tag of a port has become free: the oldest request that waits for one is issued (R481). -/
def issueWaiting (k : Nat) (s : State) : State :=
  let p := s.ports.get k
  match p.waits, freeTag p with
  | w :: rest, some t => sendRead k t w (setPort k (fun p => { p with waits := rest }) s)
  | _, _ => s

/-- A function has a request of a kind outstanding, or waiting, that it still awaits. -/
def awaiting (s : State) (iid : Nat) (kind : ReqKind) : Bool :=
  let p := s.ports.get (portOf iid)
  (p.reqs.any fun r => r.fn == iid && r.kind == kind && !r.drop) || p.waits.any fun w => w.fn == iid && w.kind == kind

/-- Requests of a slot are no longer awaited: those outstanding have their completions discarded, those waiting are forgotten. -/
def dropReqs (iid : Nat) (sel : ReqKind → Bool) (s : State) : State :=
  setPort (portOf iid) (fun p => { p with
    reqs := p.reqs.map fun r => if r.fn == iid && sel r.kind then { r with drop := true } else r
    waits := p.waits.filter fun w => !(w.fn == iid && sel w.kind) }) s

/-! ## Carrying a command through (R112 to R117) -/

/-- What executing a command leaves: the state, and its reply's status and RDATA, or no reply yet. -/
abbrev CmdEnd := State × Option (Nat × Nat)

/-- The command that a ring executes is this packet, and a read of its own has brought its buffer (R114): the packet with the
buffer's bytes. -/
def resumed (r : Ring) (c : CmdPkt) : Option (Exec × CmdPkt) :=
  match r.exec with
  | some e => if e.buf.isSome && e.pkt == { c with ind := none } then some (e, { c with ind := e.buf }) else none
  | none => none

/-- The parameter checks of a command and what follows from them (R117). -/
def runBody (e : Exec) (check : CmdPkt → State → Refuse) (onRefuse : CmdPkt → State → State)
    (effect : CmdPkt → State → CmdEnd) (c : CmdPkt) (s : State) : State :=
  match check c s with
  | some (st, d) => writeReply e st d (if c.isCheck then s else onRefuse c s)
  | none =>
    if c.isCheck then writeReply e stOk 0 s
    else
      match effect c s with
      | (t, some (st, d)) => writeReply e st d t
      | (t, none) => t

/-- A command packet of opcode `op` is taken from its ring and carried through R117. A packet whose OPCODE is another listed
one is not this row's (log 3). A packet whose buffer is still to be read has its read issued through its function's own path (R114),
and its row comes again when the read has ended (log 87). -/
def runCmd (op : Nat) (w : Who) (secOnly : Bool) (permit : CmdPkt → State → Bool) (check : CmdPkt → State → Refuse)
    (onRefuse : CmdPkt → State → State) (effect : CmdPkt → State → CmdEnd) (c : CmdPkt) (s : State) : State :=
  let r := ringOf s c.fn c.sec
  if opcodeListed c.opcode && c.opcode != op then s
  else
  match resumed r c with
  | some (e, c) => if ringsServed s then runBody e check onRefuse effect c s else s
  | none =>
  if !ringLive s c.fn c.sec then s
  else
    let e : Exec := { pkt := c, opcode := c.opcode, idx := r.ci, start := s.tick }
    let s := setRing c.fn c.sec (fun r => { r with exec := some e }) s
    if c.h 95 70 != 0 || c.h 31 19 != 0 || c.plen > 48 then writeReply e stBadParam 0 s
    else if r.seqValid && !after 16 c.seq r.lastSeq.toNat then writeReply e stBadParam 0 s
    else
      let s := setRing c.fn c.sec (fun r => { r with lastSeq := BitVec.ofNat 16 c.seq, seqValid := true }) s
      match acceptHead w secOnly op permit c s with
      | some (st, d) => writeReply e st d s
      | none =>
        if needsBuffer c then issueRead c.fn (.command c.sec) (c.p 0 8) (c.p 8 4) s
        else runBody e check onRefuse effect c s

/-- Every life-cycle state permits the opcode, as far as R613 goes. -/
def always (_ : CmdPkt) (_ : State) : Bool := true

/-- No event accompanies a refusal. -/
def quiet (_ : CmdPkt) (s : State) : State := s

/-- A command ends at once. -/
def done (s : State) (rdata : Nat) : CmdEnd := (s, some (stOk, rdata))

/-! ## Memory (R665, log 8) -/

/-- Whether an HBM address lies in what a start-up test of stack n overwrites: the first GiB of its 48 (R46). -/
def inTest (n a : Nat) : Bool := a / (48 * 2 ^ 30) == n && decide (a % (48 * 2 ^ 30) < 2 ^ 30)

/-- What an unlisted address reads as: 0, and a free value where a start-up test has overwritten it. -/
def Hbm.rest (m : Hbm) (a : Nat) : Byte :=
  if inTest (a / (48 * 2 ^ 30)) a && m.tests.get (a / (48 * 2 ^ 30)) != 0 then
    Config.hbmTested (m.tests.get (a / (48 * 2 ^ 30))) a
  else 0

/-- The byte at an address, among cells whose unlisted addresses read as `d`. -/
def cellRead (d : Nat → Byte) : List Host.Cell → Nat → Byte
  | [], k => d k
  | (a, b) :: m, k => if a = k then b else cellRead d m k

/-- The cells with `b` at `k`, in canonical form. -/
def cellWrite (d : Nat → Byte) : List Host.Cell → Nat → Byte → List Host.Cell
  | [], k, b => if b = d k then [] else [(k, b)]
  | (a, c) :: m, k, b =>
    if k < a then (if b = d k then (a, c) :: m else (k, b) :: (a, c) :: m)
    else if k = a then (if b = d k then m else (k, b) :: m)
    else (a, c) :: cellWrite d m k b

/-- Keys strictly rising from `lo` on, and no listed byte that its address would read as unlisted. -/
def cellsWf (d : Nat → Byte) : Nat → List Host.Cell → Bool
  | _, [] => true
  | lo, (a, b) :: m => decide (lo ≤ a) && b != d a && cellsWf d (a + 1) m

/-- The byte at an HBM address. -/
def Memory.read (m : Hbm) (k : Nat) : Byte := cellRead m.rest m.cells k

/-- The memory with `b` at `k`. -/
def Memory.write (m : Hbm) (k : Nat) (b : Byte) : Hbm := { m with cells := cellWrite m.rest m.cells k b }

/-- Bytes written from an address on. -/
def Memory.writeAll : Hbm → Nat → List Byte → Hbm
  | m, _, [] => m
  | m, k, b :: bs => Memory.writeAll (Memory.write m k b) (k + 1) bs

/-- The `n` bytes from an address on. -/
def Memory.readAll (m : Hbm) (k n : Nat) : List Byte := (List.range n).map fun i => Memory.read m (k + i)

/-- The canonical form of memory. -/
def Memory.wf (m : Hbm) : Bool := cellsWf m.rest 0 m.cells

/-- A start-up test of stack n overwrites its first GiB (R46, R587). -/
def Memory.overwrite (n : Nat) (m : Hbm) : Hbm :=
  { cells := m.cells.filter fun c => !inTest n c.1, tests := m.tests.upd n (· + 1) }

/-! ## Host queues (R465) -/

/-- A queue slot exists for a function's instance (R465). -/
def slotExists (s : State) (iid slot : Nat) : Bool := slot < (fnOf s iid).inst.qcount && slot < 256

/-- The relaxed-ordering attribute of the data writes that concern a queue (R477). -/
def relaxed (s : State) (fn slot : Nat) : Bool := (fnOf s fn).roEn && ((fnOf s fn).slots.get slot).roData

/-- The adapter queue of a slot. -/
def queueOf (s : State) (iid slot : Nat) : Nat := (fnOf s iid).inst.qbase + slot

/-- The function and slot that an adapter queue belongs to. -/
def ownerOf (s : State) (q : Nat) : Option (Nat × Nat) :=
  (s.fns.find? fun p => p.2.inst.state != 0 && p.2.inst.qbase ≤ q && q < p.2.inst.qbase + p.2.inst.qcount).map
    fun p => (p.1, q - p.2.inst.qbase)

end Sys2Proof.Machine
end

