-- ==== Sys2Proof/Machine/Gates.lean ====
section
/-! DEFINITION. Gate lists (R373 to R382). -/
namespace Sys2Proof.Machine

/-- The gates that a list's entries give at an offset from the cycle start, in units (R376). -/
def gateScan (off : Nat) : Nat → List (Nat × BitVec 8) → BitVec 8 → BitVec 8
  | _, [], last => last
  | acc, (iv, g) :: rest, _ => if off < acc + nsU iv then g else gateScan off (acc + nsU iv) rest g

/-- The offset of a time within the cycle of a list: the floor modulus of R376. -/
def GateList.offset (l : GateList) (t : DevTime) : Nat := ((DevTime.diff t l.start) % (l.cycle : Int)).toNat

/-- gate_state(t) of R376. -/
def gateState (run : Option GateList) (t : DevTime) : BitVec 8 :=
  match run with
  | none => 0xFF
  | some l => if l.entries.isEmpty || l.cycle == 0 then 0xFF else gateScan (l.offset t) 0 l.entries 0xFF

/-- N of R378, exactly (R382): the smallest whole number of cycles that brings the start to at least 2 µs after now. -/
def startCycles (base now : DevTime) (cycle : Nat) : Nat :=
  let need : Int := (now.units : Int) - base.units + (nsU 2000 : Int)
  if need ≤ 0 || cycle == 0 then 0 else (need.toNat + cycle - 1) / cycle

/-- A list made pending at `now`: its start and N (R378). -/
def startGate (base : DevTime) (l : GateList) (now : DevTime) : GateList × Nat :=
  let n := startCycles base now l.cycle
  ({ l with start := DevTime.ofUnits ((base.units + n * l.cycle) % timeSpan) }, n)

/-- The gates of a port change. -/
def setGate (p : Nat) (f : Gate → Gate) (s : State) : State := { s with gates := s.gates.upd p f }

/-- START_ADVANCED (R382, R386). -/
def postStartAdvanced (p n : Nat) (start : DevTime) (byFiring : Bool) (s : State) : State :=
  if n == 0 then s
  else postAll 0x0502 (p / 64) (fld 255 192 start.stamp + fld 191 160 (min n (2 ^ 32 - 1)) + fld 159 144 p + fld 143 143 (bit byFiring)) s

/-- The pending list of a port whose start device time has reached becomes the running one (R378). -/
def startPending (g : Gate) (now : DevTime) : Gate :=
  match g.pend with
  | some l => if now.reached l.start then { run := some l, pend := none, gates := gateState (some l) now } else g
  | none => g

/-- Entries in the layout of R374. -/
def gateEntries : List Byte → List (Nat × BitVec 8)
  | b0 :: _ :: _ :: _ :: b4 :: b5 :: b6 :: b7 :: rest => (ofBytes [b4, b5, b6, b7], b0) :: gateEntries rest
  | _ => []

/-- Reserved bits of the entries are 0 and intervals in range (R373, R374). -/
def gateEntriesOk : List Byte → Bool
  | _ :: b1 :: b2 :: b3 :: b4 :: b5 :: b6 :: b7 :: rest =>
    b1 == 0 && b2 == 0 && b3 == 0 && 1 ≤ ofBytes [b4, b5, b6, b7] && ofBytes [b4, b5, b6, b7] ≤ 1000000000 && gateEntriesOk rest
  | [] => true
  | _ => false

/-- Another port's running or pending list carries STROBE (R379). -/
def strobeTaken (s : State) (p : Nat) : Bool :=
  s.gates.any fun g => g.1 != p && (((g.2.run.map GateList.strobe).getD false) || ((g.2.pend.map GateList.strobe).getD false))

/-- A cycle time is in range: above 0 and at most 1 s (R373). -/
def cycleOk (c : Nat) : Bool := 0 < c && c ≤ nsU 1000000000

/-- The gate of a class is open at every instant of a span that begins at `t` (R377): it is open at
the start and at every edge, of the running list or of a pending one that starts meanwhile, before the end. -/
def gateOpenFor (run pend : Option GateList) (cls : Nat) (t : DevTime) (span : Nat) : Bool :=
  let listAt (x : DevTime) : Option GateList :=
    match pend with
    | some l => if x.reached l.start then some l else run
    | none => run
  let edges (l : Option GateList) : List Nat :=
    match l with
    | none => []
    | some l =>
      let off := l.offset t
      let cum := l.entries.foldl (fun (a : List Nat × Nat) e => (a.1 ++ [a.2 + nsU e.1], a.2 + nsU e.1)) ([], 0)
      ((List.range (span / l.cycle + 2)).flatMap fun m => (cum.1 ++ [l.cycle]).map fun e => e + m * l.cycle - off).filter
        fun d => 0 < d && d < span
  let starts := match pend with
    | some l => if DevTime.diff l.start t < span then (DevTime.diff l.start t).toNat :: edges pend else []
    | none => []
  ((0 :: edges run) ++ starts).all fun d =>
    let x := t.add d
    (gateState (listAt x) x).getLsbD cls

end Sys2Proof.Machine
end

