-- ==== Sys2Proof/Machine/Operands.lean ====
section
/-! DEFINITION. The fields of a set's sections (chapters 05 to 10) and of action words. -/
namespace Sys2Proof.Machine

/-! ## Sections of a set (R144, R145) -/

/-- `n` bytes of a section from an offset, little-endian (R102); bytes past its end read 0. -/
def rd (d : List Byte) (off n : Nat) : Nat := ofBytes ((d.drop off).take n)

/-- The next multiple of `a`. -/
def align (a n : Nat) : Nat := (n + a - 1) / a * a

/-- The bytes of a section of a set, empty where the set has none. -/
def secData (x : SetSlot) (type inst : Nat) : List Byte :=
  match x.secs.find? fun c => c.type == type && c.inst == inst with
  | some c => c.data
  | none => []

/-- A set has a section. -/
def hasSec (x : SetSlot) (type inst : Nat) : Bool := x.secs.any fun c => c.type == type && c.inst == inst

/-- The set that serves an epoch (R139). -/
def setFor (s : State) (epoch : Nat) : SetSlot := if epoch % 2 == 1 then s.sets.a else s.sets.b

/-- The active set, whose parity is that of EPOCH, and the shadow (R139). -/
def activeSet (s : State) : SetSlot := setFor s s.sets.epoch
def shadowSet (s : State) : SetSlot := setFor s (s.sets.epoch + 1)

/-- The set of an epoch's parity changes. -/
def updSet (epoch : Nat) (f : SetSlot → SetSlot) (s : State) : State :=
  if epoch % 2 == 1 then { s with sets := { s.sets with a := f s.sets.a } }
  else { s with sets := { s.sets with b := f s.sets.b } }

/-- A set is active (R141). -/
def setActive (s : State) : Bool := s.sets.on

/-- SHADOW_STATE (R142). -/
def shadowState (s : State) : Nat :=
  let x := shadowSet s
  if x.loading then 1
  else if s.sets.drain.isSome then 4
  else if s.sets.arm.isSome then 3
  else if x.valid then 2
  else 0

/-! ### PORT_MAP (R182) -/

def portEntry (x : SetSlot) (n : Nat) : Nat := rd (secData x 7 0xFF) (8 * n) 8
def laneGroup (x : SetSlot) (n : Nat) : Nat := bits 63 61 (portEntry x n)
def laneFec (x : SetSlot) (n : Nat) : Bool := bits 60 60 (portEntry x n) == 1
def laneCt (x : SetSlot) (n : Nat) : Bool := bits 59 59 (portEntry x n) == 1
def pfcEn (x : SetSlot) (n p : Nat) : Bool := bits (51 + p) (51 + p) (portEntry x n) == 1
def pcpMap (x : SetSlot) (n p : Nat) : Nat := bits (29 + 3 * p) (27 + 3 * p) (portEntry x n)

/-- A lane is in a logical port. -/
def laneListed (x : SetSlot) (n : Nat) : Bool := n < 1024 && 1 ≤ laneGroup x n && laneGroup x n ≤ 6

/-- The first lane of a lane's logical port (R183). -/
def portOfLane (x : SetSlot) (n : Nat) : Nat :=
  if laneGroup x n == 6 then
    match [1, 2, 3, 4].find? fun j => laneGroup x (n / 2 ^ j * 2 ^ j) == j + 1 with
    | some j => n / 2 ^ j * 2 ^ j
    | none => n
  else n

/-- A lane number is that of a logical port's first lane. -/
def firstLane (x : SetSlot) (p : Nat) : Bool := p < 1024 && 1 ≤ laneGroup x p && laneGroup x p ≤ 5

/-- The lanes of a logical port. -/
def portLanes (x : SetSlot) (p : Nat) : List Nat :=
  if firstLane x p then (List.range (2 ^ (laneGroup x p - 1))).map (p + ·) else []

/-- A logical port of the active set. -/
def isLogicalPort (s : State) (p : Nat) : Bool := setActive s && firstLane (activeSet s) p

/-- Priority flow control is enabled for a class of a port: an enabled priority maps to it. -/
def pfcClass (x : SetSlot) (port c : Nat) : Bool := (List.range 8).any fun p => pfcEn x port p && pcpMap x port p == c

/-! ### SUBST_LIST (R199) and RUDIMENT (R192, R193) -/

/-- The valid substitutes of a lane with their positions, 1 to 4. -/
def substs (x : SetSlot) (n : Nat) : List (Nat × Nat) :=
  let e := rd (secData x 6 0xFF) (8 * n) 8
  ([1, 2, 3, 4].filter fun i => bits (16 * i - 1) (16 * i - 1) e == 1).map fun i => (i, bits (16 * i - 7) (16 * i - 16) e)

def rud (x : SetSlot) : List Byte := secData x 5 0xFF
def pathCount (x : SetSlot) : Nat := rd (rud x) 0 4
def rudCount (x : SetSlot) : Nat := rd (rud x) 4 4
def slotTotal (x : SetSlot) : Nat := rd (rud x) 8 4
def ctxCount (x : SetSlot) : Nat := rd (rud x) 12 4
def rudDirAt (x : SetSlot) : Nat := align 16 (16 + 8 * pathCount x)
def rudSlotAt (x : SetSlot) : Nat := align 16 (rudDirAt x + 8 * rudCount x)
def rudCtxAt (x : SetSlot) : Nat := align 16 (rudSlotAt x + 2 * slotTotal x)
def pathEntry (x : SetSlot) (ps : Nat) : Nat := if ps < pathCount x then rd (rud x) (16 + 8 * ps) 8 else 0
def pathValid (x : SetSlot) (ps : Nat) : Bool := bits 41 41 (pathEntry x ps) == 1
def pathStart (x : SetSlot) (ps : Nat) : Nat := bits 53 42 (pathEntry x ps)
def pathReord (x : SetSlot) (ps : Nat) : Nat := bits 40 40 (pathEntry x ps)
def pathHops (x : SetSlot) (ps : Nat) : Nat := bits 39 36 (pathEntry x ps)
def rudEntry (x : SetSlot) (r : Nat) : Nat := rd (rud x) (rudDirAt x + 8 * r) 8
def pathLen (x : SetSlot) (ps : Nat) : Nat := bits 45 33 (rudEntry x (bits 63 54 (pathEntry x ps)))
def rudSlot (x : SetSlot) (i : Nat) : Nat := bits 9 0 (rd (rud x) (rudSlotAt x + 2 * i) 2)
/-- The lane of a path set's slot at a cursor (R196). -/
def pathSlot (x : SetSlot) (ps cursor : Nat) : Nat := rudSlot x (bits 63 46 (rudEntry x (bits 63 54 (pathEntry x ps))) + cursor)
def ctxEntry (x : SetSlot) (i : Nat) : Nat := rd (rud x) (rudCtxAt x + 16 * i) 16
/-- Context entries by key, SRC_NODE * 4096 + PATH_SET (R206). -/
def ctxKey (e : Nat) : Nat := bits 127 119 e * 4096 + bits 118 107 e
def ctxEntries (x : SetSlot) : List Nat := (List.range (ctxCount x)).map (ctxEntry x)
def ctxFind (x : SetSlot) (key : Nat) : Option Nat := (ctxEntries x).find? fun e => ctxKey e == key

/-! ### TM_TREE (R309 to R311) -/

def tm (x : SetSlot) : List Byte := secData x 9 0xFF
def tmInst (x : SetSlot) : Nat := rd (tm x) 0 4
def tmLeaves (x : SetSlot) : Nat := rd (tm x) 4 4
def tmPolicers (x : SetSlot) : Nat := rd (tm x) 8 4
def tmLenAdj (x : SetSlot) : Int := toSigned 8 (rd (tm x) 12 1)
def tmLeafAt (x : SetSlot) : Nat := align 64 (10304 + 8 * tmInst x)
def tmStoreAt (x : SetSlot) : Nat := align 64 (tmLeafAt x + 16 * tmLeaves x)
def tmShaperAt (x : SetSlot) : Nat := tmStoreAt x + 128
def tmPolicerAt (x : SetSlot) : Nat := tmShaperAt x + 262144
def classNode (x : SetSlot) (n : Nat) : Nat := if n < 128 then rd (tm x) (64 + 8 * n) 8 else 0
def portNode (x : SetSlot) (n : Nat) : Nat := if n < 1152 then rd (tm x) (1088 + 8 * n) 8 else 0
def instNode (x : SetSlot) (n : Nat) : Nat := if n < tmInst x then rd (tm x) (10304 + 8 * n) 8 else 0
def leafEntry (x : SetSlot) (q : Nat) : Nat := if q < tmLeaves x then rd (tm x) (tmLeafAt x + 16 * q) 16 else 0
def storeLeaf (x : SetSlot) (n : Nat) : Nat := if n < 16 then rd (tm x) (tmStoreAt x + 8 * n) 8 else 0
def shaperEntry (x : SetSlot) (n : Nat) : Nat := if n < 16384 then rd (tm x) (tmShaperAt x + 16 * n) 16 else 0
def policerEntry (x : SetSlot) (n : Nat) : Nat := if n < tmPolicers x then rd (tm x) (tmPolicerAt x + 32 * n) 32 else 0
def leafOk (x : SetSlot) (q : Nat) : Bool := bits 54 54 (leafEntry x q) == 1

/-- Node keys (State). -/
def kPort (n : Nat) : Nat := 0x1000 + n
def kInst (n : Nat) : Nat := 0x10000 + n
def kLeaf (n : Nat) : Nat := 0x20000 + n
def kStore (n : Nat) : Nat := 0x30000 + n
def kRoot (k : Nat) : Nat := 0x40000 + k

/-- The parent of a node; a root has none (R313). -/
def nodeParent (x : SetSlot) (n : Nat) : Nat :=
  if n < 0x1000 then kRoot (n / 8)
  else if n < 0x10000 then (n - 0x1000) / 9
  else if n < 0x20000 then kPort (bits 43 29 (instNode x (n - 0x10000)))
  else if n < 0x30000 then kInst (bits 107 93 (leafEntry x (n - 0x20000)))
  else kPort ((8 * bits 43 40 (storeLeaf x (n - 0x30000)) + bits 39 37 (storeLeaf x (n - 0x30000))) * 9 + 8)

/-- A node or leaf is VALID. -/
def nodeValid (x : SetSlot) (n : Nat) : Bool :=
  if n < 0x1000 then bits 13 13 (classNode x n) == 1
  else if n < 0x10000 then bits 13 13 (portNode x (n - 0x1000)) == 1
  else if n < 0x20000 then bits 13 13 (instNode x (n - 0x10000)) == 1
  else if n < 0x30000 then leafOk x (n - 0x20000)
  else if n < 0x40000 then bits 21 21 (storeLeaf x (n - 0x30000)) == 1
  else true

/-- QUANTUM of a node or leaf (R310). -/
def nodeQuantum (x : SetSlot) (n : Nat) : Nat :=
  if n < 0x1000 then bits 63 44 (classNode x n)
  else if n < 0x10000 then bits 63 44 (portNode x (n - 0x1000))
  else if n < 0x20000 then bits 63 44 (instNode x (n - 0x10000))
  else if n < 0x30000 then bits 127 108 (leafEntry x (n - 0x20000))
  else bits 63 44 (storeLeaf x (n - 0x30000))

/-- The shaper of a node or leaf, where SHAPER_EN is 1 (R310). -/
def nodeShaper (x : SetSlot) (n : Nat) : Option Nat :=
  let pick (en sh : Nat) : Option Nat := if en == 1 then some sh else none
  if n < 0x1000 then pick (bits 14 14 (classNode x n)) (bits 28 15 (classNode x n))
  else if n < 0x10000 then pick (bits 14 14 (portNode x (n - 0x1000))) (bits 28 15 (portNode x (n - 0x1000)))
  else if n < 0x20000 then pick (bits 14 14 (instNode x (n - 0x10000))) (bits 28 15 (instNode x (n - 0x10000)))
  else if n < 0x30000 then pick (bits 78 78 (leafEntry x (n - 0x20000))) (bits 92 79 (leafEntry x (n - 0x20000)))
  else if n < 0x40000 then pick (bits 22 22 (storeLeaf x (n - 0x30000))) (bits 36 23 (storeLeaf x (n - 0x30000)))
  else none

/-- The path of a leaf up to its class node, leaf first. -/
def nodePath (x : SetSlot) (n : Nat) : List Nat :=
  let a := nodeParent x n
  let b := nodeParent x a
  if n < 0x30000 then [n, a, b, nodeParent x b] else [n, a, b]

/-- The pipeline that serves a leaf (R310). -/
def leafPipe (x : SetSlot) (n : Nat) : Nat :=
  if n < 0x30000 then bits 43 29 (instNode x (bits 107 93 (leafEntry x (n - 0x20000)))) / 72
  else bits 43 40 (storeLeaf x (n - 0x30000))

/-- The class node index, 0 to 7, that a queue's leaf lies under. -/
def leafClass (x : SetSlot) (q : Nat) : Nat := bits 43 29 (instNode x (bits 107 93 (leafEntry x q))) / 9 % 8

/-- A queue's leaf is VALID in the active set (R310). -/
def leafValid (s : State) (q : Nat) : Bool := setActive s && leafOk (activeSet s) q

/-- A queue has a VALID leaf of the active set under another class than `cls` (R510). -/
def leafClassOther (s : State) (q cls : Nat) : Bool := leafValid s q && leafClass (activeSet s) q != cls

/-- The credit of a rate per refill tick, in units of 2^-16 byte (R87). -/
def credit (rate : Nat) : Nat := rneDiv (rate * 65536) 100000000

/-! ### CARVE_OUT (R330) and OWNERSHIP (R149) -/

def carve (x : SetSlot) : List Byte := secData x 0xA 0xFF
def storeTxLimit (x : SetSlot) : Nat := bits 19 0 (rd (carve x) 0 4)
def storeRxLimit (x : SetSlot) : Nat := bits 19 0 (rd (carve x) 4 4)
def hostCarve (x : SetSlot) (h : Nat) : Nat := rd (carve x) (64 + 16 * h) 16
def classCarve (x : SetSlot) (pc : Nat) : Nat := rd (carve x) (192 + 16 * pc) 16
def egrMin (x : SetSlot) (pc : Nat) : Nat := bits 127 108 (classCarve x pc)
def egrAlpha (x : SetSlot) (pc : Nat) : Nat := bits 107 105 (classCarve x pc)
def ecnCells (x : SetSlot) (pc : Nat) : Nat := bits 104 85 (classCarve x pc)
def xoffCells (x : SetSlot) (pc : Nat) : Nat := bits 84 65 (classCarve x pc)
def xonCells (x : SetSlot) (pc : Nat) : Nat := bits 64 45 (classCarve x pc)
def hdrmCells (x : SetSlot) (pc : Nat) : Nat := bits 44 25 (classCarve x pc)

/-- alpha × n, rounded down (R332). -/
def alphaOf (a n : Nat) : Nat := n * 2 ^ a / 16

def ownEntries (x : SetSlot) : List Nat :=
  let d := secData x 0xB 0xFF
  (List.range (d.length / 8)).map fun i => rd d (8 * i) 8

/-- The feature that owns a resource (R149, R150); NONE where it is not listed. -/
def ownerFeature (x : SetSlot) (kind idx : Nat) : Nat :=
  match (ownEntries x).find? fun e => bits 63 56 e == kind && bits 55 40 e == idx with
  | some e => bits 31 16 e
  | none => 0

/-- The active set gives a shared ball to a feature (R152). -/
def ownsBall (s : State) (ball feature : Nat) : Bool := setActive s && ownerFeature (activeSet s) 1 ball == feature

/-- A feature is enabled on a resource (R152). -/
def featOn (s : State) (kind idx feature : Nat) : Bool := s.sets.feats.contains (kind, idx, feature)
def ballEnabled (s : State) (ball feature : Nat) : Bool := featOn s 1 ball feature

/-- The space of a use in cells (R306), but for the segments of lost slices (R585): 0 BUF_TRANSIT, 1 BUF_HOST, 2 BUF_REORDER,
3 BUF_HEADROOM. -/
def useSpace (x : SetSlot) (lost : List Nat) (u : Nat) : Nat :=
  1024 * ((ownEntries x).filter fun e =>
    bits 63 56 e == 3 && bits 31 16 e == 5 + u && !lost.contains (bits 55 40 e / 64)).length

/-- The use of a buffer segment in a set, where it has one (R149). -/
def segUse (x : SetSlot) (n : Nat) : Option Nat :=
  match (ownEntries x).find? fun e => bits 63 56 e == 3 && bits 55 40 e == n && 5 ≤ bits 31 16 e && bits 31 16 e ≤ 8 with
  | some e => some (bits 31 16 e - 5)
  | none => none

/-! ### PARSE_GRAPH (R235 to R237) -/

def pg (x : SetSlot) (k : Nat) : List Byte := secData x 1 k
def pgNodes (d : List Byte) : Nat := rd d 0 2
def pgTrans (d : List Byte) : Nat := rd d 2 2
/-- Node i as a 512-bit number, byte 0 lowest. -/
def pgNode (d : List Byte) (i : Nat) : Nat := if i < pgNodes d then rd d (64 + 64 * i) 64 else 0
/-- A field of `n` bytes of a node at byte `lo`. -/
def nb (g lo n : Nat) : Nat := bits (8 * (lo + n) - 1) (8 * lo) g
/-- Transition t: VALUE, MASK, NEXT. -/
def pgTran (d : List Byte) (t : Nat) : Nat := rd d (64 + 64 * pgNodes d + 16 * t) 16

/-! ### TABLE_LAYOUT (R274) -/

def tl (x : SetSlot) (k : Nat) : List Byte := secData x 2 k
/-- The descriptors of an instance, as 512-bit numbers. -/
def tlDescs (x : SetSlot) (k : Nat) : List Nat := (List.range (rd (tl x k) 0 2)).map fun i => rd (tl x k) (64 + 64 * i) 64
def tId (d : Nat) : Nat := nb d 0 1
def tKind (d : Nat) : Nat := nb d 1 1
def tStage (d : Nat) : Nat := nb d 2 1
def tUnit (d : Nat) : Nat := nb d 3 1
def tKeyWidth (d : Nat) : Nat := nb d 4 1
def tEntryBytes (d : Nat) : Nat := 16 * 2 ^ nb d 5 1
def tProbe (d : Nat) : Nat := nb d 6 1
def tAge (d : Nat) : Bool := bits 56 56 d == 1
def tCount (d : Nat) : Bool := bits 57 57 d == 1
def tParityPunt (d : Nat) : Bool := bits 58 58 d == 1
def tBanks (d : Nat) : Nat := nb d 8 2
def tMiss (d : Nat) : Nat := nb d 10 1
def tCounter (d : Nat) : Nat := nb d 11 1
def tEntries (d : Nat) : Nat := nb d 12 4
def tSeedLo (d : Nat) : Nat := nb d 16 4
def tSeedHi (d : Nat) : Nat := nb d 20 4
def tKeySel (d : Nat) : List Nat := (List.range 16).map fun i => nb d (24 + i) 1
/-- The used prefix lengths, longest first. -/
def tLpm (d : Nat) : List Nat := ((List.range 4).map fun i => nb d (40 + i) 1).filter (· != 0)
def tMissData (d : Nat) : List Byte := bytesOf 4 (nb d 44 4)
def tHbmBase (d : Nat) : Nat := nb d 48 6
def tIssue (d : Nat) : Nat := nb d 54 1
def tHbmTable (d : Nat) : Nat := nb d 55 1

/-- The number of set bits among the low 16. -/
def popcount16 (m : Nat) : Nat := ((List.range 16).filter fun b => m.testBit b).length

/-- Entries per row, and rows (R272, R273). -/
def tPerRow (d : Nat) : Nat := if tKind d == 6 then 4 else 64 / tEntryBytes d
def tRows (d : Nat) : Nat := tEntries d / tPerRow d

/-- The sub-tables of a lookup: (prefix length or none, first handle, rows) in LPM_LEN order; one of all rows where not LPM. -/
def tSubs (d : Nat) : List (Option Nat × Nat × Nat) :=
  if tKind d == 3 then
    let n := (tLpm d).length
    let rows := tRows d / n
    (List.range n).map fun j => ((tLpm d)[j]?, j * rows * tPerRow d, rows)
  else [(none, 0, tRows d)]

/-- The bank and row of a table's row (R272): the (r mod nb)-th bank in ascending order, row r div nb. -/
def bankRow (d r : Nat) : Nat × Nat :=
  let banks := (List.range 16).filter fun b => (tBanks d).testBit b
  let n := banks.length
  if n == 0 then (0, 0) else (banks.getD (r % n) 0, r / n)

/-- The 32-bit words that an entry takes of its row, and which of them a row's failing words are (R296). -/
def entryWords (d h mask : Nat) : Nat :=
  let w := if tKind d == 6 then 16 else tEntryBytes d / 4
  bits (w * (h % tPerRow d) + w - 1) (w * (h % tPerRow d)) mask

/-- The descriptor of a table in an instance. -/
def tableOf (x : SetSlot) (inst table : Nat) : Option Nat := (tlDescs x inst).find? fun d => tId d == table

/-- The descriptor that a stage and unit look up (R267). -/
def tableAt (x : SetSlot) (k stage unit : Nat) : Option Nat :=
  (tlDescs x k).find? fun d => tStage d == stage && tUnit d == unit && (tKind d == 1 || tKind d == 2 || tKind d == 3 || tKind d == 5)

/-- The key under which State keeps an entry. -/
def tKey (inst table handle : Nat) : Nat := inst * 2 ^ 40 + table * 2 ^ 32 + handle

/-- The failing words of a table's row, and whether a handle's entry, VALID or not, has a parity error. -/
def rowBad (x : SetSlot) (inst d r : Nat) : Nat := x.bad.get (tKey inst (tId d) r)
def entryBad (x : SetSlot) (inst d h : Nat) : Bool := entryWords d h (rowBad x inst d (h / tPerRow d)) != 0

/-- A handle's entry has been written: its words are whole again. -/
def clearBad (inst d h : Nat) (x : SetSlot) : SetSlot :=
  let r := h / tPerRow d
  let w := if tKind d == 6 then 16 else tEntryBytes d / 4
  let left := rowBad x inst d r - entryWords d h (rowBad x inst d r) * 2 ^ (w * (h % tPerRow d))
  { x with bad := if left == 0 then x.bad.del (tKey inst (tId d) r) else x.bad.put (tKey inst (tId d) r) left }

/-! ### ACTION_PROG (R284, R285, R289) -/

def ap (x : SetSlot) (k : Nat) : List Byte := secData x 4 k
def apCount (d : List Byte) : Nat := rd d 0 2
def apInstrs (d : List Byte) : Nat := rd d 2 2
def apTemplates (d : List Byte) : Nat := rd d 4 2
/-- Class of a header instance. -/
def hdrClass (d : List Byte) (i : Nat) : Nat := rd d (64 + i) 1
def apInstrAt (d : List Byte) : Nat := align 8 (128 + 4 * apCount d)
def apTemplAt (d : List Byte) : Nat := align 32 (apInstrAt d + 8 * apInstrs d)
/-- The instruction words of an action. -/
def actionWords (d : List Byte) (a : Nat) : List Nat :=
  let e := rd d (128 + 4 * a) 4
  (List.range (bits 23 16 e)).map fun i => rd d (apInstrAt d + 8 * (bits 15 0 e + i)) 8
/-- Template t as bytes. -/
def template (d : List Byte) (t : Nat) : List Byte := (d.drop (apTemplAt d + 160 * t)).take 160

/-! ### GATE_LIST (R374) -/

def gl (x : SetSlot) (k : Nat) : List Byte := secData x 8 k
def glDescs (x : SetSlot) (k : Nat) : List Nat := (List.range (rd (gl x k) 0 2)).map fun i => rd (gl x k) (64 + 32 * i) 32
def glEntryAt (d : List Byte) : Nat := align 64 (64 + 32 * rd d 0 2)
/-- The list of a descriptor, with its base. -/
def glList (x : SetSlot) (k d : Nat) : DevTime × GateList :=
  let bs := gl x k
  (DevTime.ofFull (bits 255 128 d),
    { cycle := bits 127 64 d, strobe := bits 16 16 d == 1,
      entries := gateEntries ((bs.drop (glEntryAt bs + 8 * bits 47 32 d)).take (8 * bits 63 48 d)) })
/-- The list that a set gives a logical port, if any. -/
def glOf (x : SetSlot) (p : Nat) : Option (DevTime × GateList) :=
  ((glDescs x (p / 64)).find? fun d => bits 15 0 d == p).map (glList x (p / 64))
/-- A lane is a time path lane of a set (R369). -/
def ptpLane (x : SetSlot) (n : Nat) : Bool := bits (n % 64) (n % 64) (rd (gl x (n / 64)) 8 8) == 1

end Sys2Proof.Machine
end

