-- ==== Sys2Proof/Machine/Flags.lean ====
section
/-! DEFINITION. Counters, buffer accounting, policers, lane status and the packets and queues they follow. -/
namespace Sys2Proof.Machine

/-! ## Counters (R74, R227, R262, R305, R343) -/

/-- Width and kind (saturating or wrapping) of a counter. -/
def Cnt.shape : Cnt → Nat × Bool
  | .laneRxFrames | .laneTxFrames => (48, false)
  | .lanePfcRx | .lanePfcTx | .lanePauseSubst | .fragRedirect | .learnSuppress => (32, false)
  | _ => (32, true)

/-- A counter's value. -/
def cntGet (s : State) (c : Cnt) (i : Nat) : Nat :=
  match s.cnts.find? fun e => e.1 == c && e.2.1 == i with
  | some e => e.2.2
  | none => 0

/-- A counter after `n` more counts. -/
def countN (c : Cnt) (i n : Nat) (s : State) : State :=
  let v := if c.shape.2 then satAdd c.shape.1 (cntGet s c i) n else wrapAdd c.shape.1 (cntGet s c i) n
  { s with cnts := (c, i, v) :: s.cnts.filter fun e => !(e.1 == c && e.2.1 == i) }

/-- A counter counts once. -/
def count (c : Cnt) (i : Nat) (s : State) : State := countN c i 1 s

/-- A record of a counter block counts a packet of `bytes` bytes (R343). -/
def countBlock (block i bytes : Nat) (s : State) : State :=
  { s with tm := { s.tm with blocks := s.tm.blocks.upd (block * 2 ^ 20 + i) fun c => c.count bytes } }

/-! ## Packets -/

def pkt (s : State) (p : Nat) : Pkt := s.pkts.get p
def hasPkt (s : State) (p : Nat) : Bool := s.pkts.has p

/-- A packet that is still in the adapter changes. -/
def setPkt (p : Nat) (f : Pkt → Pkt) (s : State) : State := if s.pkts.has p then { s with pkts := s.pkts.upd p f } else s

/-- A new packet; its number is the next one. -/
def newPkt (x : Pkt) (s : State) : State := { s with pkts := s.pkts.put s.nextPkt x, nextPkt := s.nextPkt + 1 }

def lane (s : State) (n : Nat) : Lane := s.lanes.get n
def setLane (n : Nat) (f : Lane → Lane) (s : State) : State := { s with lanes := s.lanes.upd n f }

/-- A packet is a frame with a lane's FCS: it came from a lane, or it has left its pass for one. -/
def pktLen (x : Pkt) : Nat := if x.src == 0 then x.bytes.length + 4 else x.bytes.length

/-- Cells of a length (R306). -/
def cellsOf (n : Nat) : Nat := (n + 255) / 256

/-- Two bytes of a frame in network order. -/
def be16 (bs : List Byte) (off : Nat) : Nat := ofBytesBE ((bs.drop off).take 2)

/-- A frame carries an SFH: EtherType 0x88B5 follows the source address (R186). -/
def hasSfh (bs : List Byte) : Bool := be16 bs 12 == 0x88B5 && bs.length ≥ 30

/-- The SFH of a frame as a 128-bit number (R187). -/
def sfh (bs : List Byte) : Nat := ofBytesBE ((bs.drop 14).take 16)

/-- A frame with its SFH replaced. -/
def withSfh (bs : List Byte) (h : Nat) : List Byte := bs.take 14 ++ bytesBE 16 h ++ bs.drop 30

/-- A number with bits [hi:lo] replaced. -/
def setFld (hi lo v x : Nat) : Nat := x - (bits hi lo x) * 2 ^ lo + fld hi lo v

/-- The frame's destination is this adapter (R189). -/
def ownSfh (s : State) (bs : List Byte) : Bool := hasSfh bs && bits 125 117 (sfh bs) == s.peal.node

/-! ## Epoch counts (R169) -/

/-- Packets of an epoch, with its fragment-table entries (R155). -/
def epochCount (s : State) (e : Nat) : Nat :=
  (s.pkts.filter fun q => q.2.counted && q.2.epoch == e).length + (s.frags.filter fun f => f.2.epoch == e).length

/-! ## Buffer accounting (R306, R330 to R338) -/

/-- Cells held under a condition on the packet. -/
def cellsWhere (s : State) (f : Pkt → Bool) : Nat := ((s.pkts.filter fun q => f q.2).map fun q => q.2.charge.cells).sum

/-- A receive key opens records by store-and-forward (R402). -/
def storesRecords (s : State) (handle : Nat) : Bool :=
  let e := s.keys.slots.get (handle % 2 ^ 20)
  match e.key with
  | some k => handle < 2 ^ 32 && e.gen == handle / 2 ^ 20 && k.rxStore
  | none => false

/-- Cells of the TLS records that a connection holds: all of them while it waits for a key (R440), or under a key with RX_STORE
(R418). -/
def recordCells (s : State) (o : Obj) : Nat :=
  if o.a.rxKey != 0xFFFFFFFF && (o.tcp.held || storesRecords s o.a.rxKey) then
    cellsOf (o.tcp.rx.length + (match o.tcp.opening with | some r => r.body.length | none => 0))
  else 0

/-- The account that an object's inbound packets are charged to (R330, log 26). -/
def Obj.rxAccount (o : Obj) : Nat := if o.type == 3 || o.type == 5 || o.type == 6 then 24 else 16 + portOf o.iid

/-- Cells of the records that connections hold in an account. -/
def recordsHeld (s : State) (a : Nat) : Nat := ((s.xport.objs.filter fun o => o.2.rxAccount == a).map fun o => recordCells s o.2).sum

/-- Cells a use holds; records are held in BUF_HOST. -/
def useHeld (s : State) (u : Nat) : Nat :=
  (cellsWhere s fun x => x.charge.use == some u) + if u == 1 then (s.xport.objs.map fun o => recordCells s o.2).sum else 0

/-- A segment whose use has changed still holds packets of its old use (R164, log 98). -/
def turnWaits (s : State) (t : SegTurn) : Bool := t.held.any fun p => s.pkts.has p && (pkt s p).charge.use == some t.use

/-- Segments of a use that admit nothing yet (R164). -/
def turning (s : State) (u : Nat) : Nat :=
  (s.tm.turns.filter fun t =>
    segUse (activeSet s) t.seg == some u && t.use != u && !s.kiln.buf.lost.contains (t.seg / 64) && turnWaits s t).length

/-- free(u) of R334. -/
def useFree (s : State) (u : Nat) : Nat := useSpace (activeSet s) s.kiln.buf.lost u - 1024 * turning s u - useHeld s u

/-- Cells an account holds. -/
def acctHeld (s : State) (a : Nat) : Nat := (cellsWhere s fun x => x.charge.acct == some a) + recordsHeld s a

/-- Ingress occupancy of a port-class (R337). -/
def ingressOf (s : State) (ip : Nat) : Nat :=
  cellsWhere s fun x => x.charge.ip == some ip && (x.charge.use == some 0 || x.charge.use == some 1 || x.charge.use == some 3)

/-- Headroom cells of a port-class. -/
def hdrmHeld (s : State) (ip : Nat) : Nat := cellsWhere s fun x => x.charge.ip == some ip && x.charge.use == some 3

/-- held[op] of R334: BUF_TRANSIT cells of transit frames of an egress port-class. -/
def egrHeld (s : State) (op : Nat) : Nat := cellsWhere s fun x => x.charge.op == some op && x.charge.use == some 0 && x.src == 0

/-- Cells waiting for a host receive queue. -/
def rxqHeld (s : State) (q : Nat) : Nat := cellsWhere s fun x => x.charge.rxq == some q

/-- free_shared of R334. -/
def freeShared (s : State) : Nat :=
  let x := activeSet s
  useFree s 0 - ((List.range 8192).map fun pc => egrMin x pc - egrHeld s pc).sum

/-- PEAK follows HELD (R340, R341). -/
def notePeak (u : Nat) (s : State) : State :=
  let h := useHeld s u
  if h > s.tm.peaks.get u then
    { s with tm := { s.tm with peaks := s.tm.peaks.put u h,
                               peakValid := if s.tm.peakValid.contains u then s.tm.peakValid else u :: s.tm.peakValid } }
  else s

/-- The time of a priority in a frame of a port (R221): 0x10000 where the frame does not name it. -/
def pfcTimes (s : State) (port : Nat) (old : List Nat) : List Nat :=
  let x := activeSet s
  (List.range 8).map fun p =>
    if pfcEn x port p then (if s.tm.xoff.has (8 * port + pcpMap x port p) then 0xFFFF else 0) else old.getD p 0x10000

/-- A priority-flow-control frame waits on every ACTIVE or LINKED lane of a port, with the latest state; one that waits on another
lane of the port is brought up to date (R221). -/
def pfcNotify (port : Nat) (s : State) : State :=
  (portLanes (activeSet s) port).foldl (fun s n =>
    if (lane s n).state == 2 || (lane s n).state == 3 || (lane s n).pfc.isSome then
      setLane n (fun l => { l with pfc := some (pfcTimes s port (l.pfc.getD [])) }) s
    else s) s

/-- The destination of MAC control frames, their EtherType and the opcode of priority flow control (R219). -/
def pfcDest : List Byte := [0x01#8, 0x80#8, 0xC2#8, 0x00#8, 0x00#8, 0x01#8]
def pfcType : List Byte := [0x88#8, 0x08#8]
def pfcOpcode : List Byte := [0x01#8, 0x01#8]

/-- XOFF or XON of a port-class, after the frees and admissions of the clock (R338). -/
def evalXoff (pc : Nat) (s : State) : State :=
  let x := activeSet s
  let on := s.tm.xoff.has pc
  if !setActive s || xoffCells x pc == 0 then s
  else if !on && ingressOf s pc ≥ xoffCells x pc then
    pfcNotify (pc / 8) { s with tm := { s.tm with xoff := s.tm.xoff.put pc (s.tick + 536871) } }
  else if on && ingressOf s pc ≤ xonCells x pc then
    pfcNotify (pc / 8) { s with tm := { s.tm with xoff := s.tm.xoff.del pc } }
  else s

/-- A packet's port-class is judged. -/
def evalOf (x : Pkt) (s : State) : State :=
  match x.charge.ip with
  | some ip => evalXoff ip s
  | none => s

/-- A packet is charged. -/
def chargePkt (p : Nat) (c : Charge) (s : State) : State :=
  let s := setPkt p (fun x => { x with charge := c }) s
  let s := match c.use with | some u => notePeak u s | none => s
  evalOf (pkt s p) s

/-- The fate a first fragment's packet leaves its entry (R257): it is settled by FRAGMENT_DECIDED. -/
def fragFate (x : Pkt) (fate reason : Nat) (s : State) : State :=
  match x.fragOwn with
  | none => s
  | some e =>
    if s.frags.has e && !(s.frags.get e).ready then
      { s with frags := s.frags.upd e fun f => { f with ready := true, fate := fate, reason := reason, frec := x.fragRec } }
    else s

/-- A completion entry of a packet queue without its PHASE (R453, R472). -/
def sendEntry (s : State) (x : Pkt) (t : TxInfo) : Nat :=
  let time := match x.txStamp with | some d => d.stamp | none => s.time.now.stamp
  let imm := match x.txStamp, x.txLane with | some _, some n => n % 1024 + 1024 | _, _ => 0
  fld 255 192 t.wrId + fld 191 128 time + fld 127 96 t.len + fld 95 64 imm + fld 15 0 (if x.tsLost then 0x0503 else 0)

/-- Transmit entries whose descriptors come first join the entries waiting for ring room (R473). -/
def orderTx : List (BitVec 16 × Option CplEntry) → List CplEntry × List (BitVec 16 × Option CplEntry)
  | (_, some e) :: rest => let r := orderTx rest; (e :: r.1, r.2)
  | rest => ([], rest)

/-- The work of a transmit descriptor has ended with an entry. -/
def endTx (fn slot : Nat) (idx : BitVec 16) (e : CplEntry) (s : State) : State :=
  setSlot fn slot (fun q =>
    let o := q.txOrder.map fun d => if d.1 == idx then (d.1, some e) else d
    let r := orderTx o
    { q with txOrder := r.2, waiting := q.waiting ++ r.1 }) s

/-- A packet of a transmit descriptor that was consumed ends: its entry is formed (R472, log 22), or discarded and counted after the loss
of bus mastering (R482). -/
def txDone (x : Pkt) (s : State) : State :=
  match x.tx with
  | none => s
  | some t =>
    if ((fnOf s t.fn).slots.get t.slot).txOrder.any fun d => d.1 == t.idx then
      endTx t.fn t.slot t.idx { bits := sendEntry s x t, tx := true, lane := if x.txStamp.isSome then x.txLane else none } s
    else
      let s := if t.lost then setPort (portOf t.fn) (fun p => { p with bmeDrop := p.bmeDrop.count 32 }) s else s
      match x.txStamp, x.txLane with
      | some _, some n => setLane n (fun l => { l with stamps := l.stamps - 1 }) s
      | _, _ => s

/-- A packet leaves the adapter: its cells are freed and its epoch count lowered (R169). -/
def removePkt (p : Nat) (s : State) : State :=
  let x := pkt s p
  evalOf x (txDone x { s with pkts := s.pkts.del p })

/-- A packet has been written to its host buffer: it has left the adapter, and its cells are held for its entry (R473). -/
def holdCells (p : Nat) (s : State) : State :=
  txDone (pkt s p) (setPkt p (fun x => { x with place := .written, counted := false, tx := none }) s)

/-- The cells that a completion entry holds are freed (R473). -/
def freeHeld (e : CplEntry) (s : State) : State :=
  match e.held with
  | some p => evalOf (pkt s p) { s with pkts := s.pkts.del p }
  | none => s

/-- A packet is dropped: its entry's fate is DROP. -/
def dropPkt (p : Nat) (s : State) : State := removePkt p (fragFate (pkt s p) 1 0 s)

/-- A packet is lost on its way out (R36, R200). Of one that still arrives the cells are freed, and what follows of it is
received and goes nowhere (log 45). -/
def losePkt (p : Nat) (s : State) : State :=
  let x := pkt s p
  if x.arriving then evalOf x (setPkt p (fun x => { x with place := .frameEnd, verdict := .excDrop, charge := {}, counted := false }) s)
  else removePkt p s

/-! ## Lanes (R179 to R205) -/

/-- A class is paused on a lane (R220). -/
def paused (s : State) (n c : Nat) : Bool :=
  (lane s n).pause.any fun e => pcpMap (activeSet s) n e.1 == c && pfcEn (activeSet s) n e.1

def laneActive (s : State) (n : Nat) : Bool := (lane s n).state == 3

/-- The lane in force for a nominal lane and class (R197). -/
def resolve (s : State) (x : SetSlot) (n c : Nat) : Option Nat :=
  if laneActive s n && !paused s n c then some n
  else
    let up := (substs x n).filter fun e => laneActive s e.2
    match up.find? fun e => !paused s e.2 c with
    | some e => some e.2
    | none => if laneActive s n then some n else (up.head?).map (·.2)

/-- SUBST_IDX and SUBST_LANE (R181): the first ACTIVE substitute of a lane that is not ACTIVE. -/
def substNow (s : State) (n : Nat) : Option (Nat × Nat) :=
  if laneActive s n || !setActive s then none else (substs (activeSet s) n).find? fun e => laneActive s e.2

/-- LANE_STS (R181). -/
def laneSts (s : State) (n : Nat) : Nat :=
  let l := lane s n
  let sub := (substNow s n).getD (0, 0)
  let q := ((List.range 8).map fun c => if paused s n c then 2 ^ c else 0).sum
  fld 31 29 l.state + fld 28 25 l.reason + fld 24 24 (bit (setActive s && laneFec (activeSet s) n)) + fld 23 23 (bit l.chime)
    + fld 22 22 (bit l.blockLock) + fld 21 21 (bit l.hiBer) + fld 20 13 q + fld 12 10 sub.1 + fld 9 0 sub.2

/-- LANE_DOWN (R229). -/
def postLaneDown (n : Nat) (s : State) : State :=
  let sub := substNow s n
  postAll 0x0701 (n / 64) (fld 255 246 n + fld 245 242 (lane s n).reason + fld 241 241 (bit sub.isSome)
    + fld 240 231 ((sub.getD (0, 0)).2)) s

/-- LANE_UP, LANE_CHIME and SUBST_EXHAUSTED (R229). -/
def postLane (code n : Nat) (s : State) : State := postAll code (n / 64) (fld 255 246 n) s

/-- A resolution of a nominal lane has yielded NONE (R204): SUBST_EXHAUSTED, once until the lane is ACTIVE again, where the lane
has become unusable. -/
def noteExhausted (n : Nat) (s : State) : State :=
  if (lane s n).exhausted || !(lane s n).unusable then s
  else postLane 0x0705 n (setLane n (fun l => { l with exhausted := true }) s)

/-- Launch times hold on a lane: its timer is owned by TS_COMPARE and enabled (R367). -/
def launchOn (s : State) (n : Nat) : Bool := featOn s 2 n 3

/-- The head frame of a class queue is judged as it reaches the head (R367, R368): its launch time is ignored, and late where it has
been reached; or the frame is held; or, more than 1 s ahead, dropped, and the next one judged. -/
def judgeHead (n c : Nat) : Nat → State → State
  | 0, s => s
  | k + 1, s =>
    match ((lane s n).queues.get c).head? with
    | none => s
    | some p =>
      match (pkt s p).tx.bind (·.launch) with
      | none => s
      | some t =>
        if (pkt s p).judged then s
        else if !launchOn s n then setPkt p (fun x => { x with judged := true }) s
        else if decide ((nsU 1000000000 : Int) < DevTime.diff t s.time.now) then
          judgeHead n c k (dropPkt p (count .laneLaunchBad n (setLane n (fun l => { l with queues := l.queues.upd c (·.drop 1) }) s)))
        else if s.time.now.reached t then count .laneLaunchLate n (setPkt p (fun x => { x with judged := true }) s)
        else { setPkt p (fun x => { x with judged := true }) s with launchHeld := p :: s.launchHeld.filter (· != p) }

/-- The head frames of every class queue of a lane that have not been judged are. -/
def judgeHeads (n : Nat) (s : State) : State :=
  (List.range 8).foldl (fun s c => judgeHead n c ((lane s n).queues.get c).length s) s

/-- A packet joins a class queue of a lane. -/
def joinQueue (p n c : Nat) (s : State) : State :=
  let s := setLane n (fun l => { l with queues := l.queues.upd c (· ++ [p]) }) s
  let s := setPkt p (fun x => { x with
    place := .laneQ n c, judged := false, charge := { x.charge with op := some (8 * portOfLane (activeSet s) n + c) } }) s
  judgeHead n c 1 s

/-- Queue depth of a port-class (R336). -/
def queueDepth (s : State) (pc : Nat) : Nat :=
  cellsWhere s fun x => match x.place with
    | .laneQ n c => 8 * portOfLane (activeSet s) n + c == pc
    | _ => false

/-- A frame with an SFH that joins a queue whose depth has reached ECN_CELLS is to be marked (R336). -/
def ecnMark (p n c : Nat) (s : State) : State :=
  let pc := 8 * portOfLane (activeSet s) n + c
  let e := ecnCells (activeSet s) pc
  if e != 0 && hasSfh (pkt s p).bytes && queueDepth s pc ≥ e then setPkt p (fun x => { x with ecn := some pc }) s else s

/-- A frame is queued on a lane. -/
def enqueue (p n c : Nat) (s : State) : State := joinQueue p n c (ecnMark p n c s)

/-- A flushed frame (R200). -/
def flushFrame (n p : Nat) (s : State) : State :=
  let s := count .laneTxFlush n s
  losePkt p (fragFate (pkt s p) 1 0 s)

/-- Frames addressed to the lane itself: no lane was sprayed for them (DISP LANE, R265). -/
def laneAddressed (x : Pkt) : Bool := !x.sprayed

/-- Frames of one class queue move to a substitute's tail, those addressed to the lane itself among them, or are flushed where the
lane has no ACTIVE substitute (R36, R200). -/
def moveQueue (n : Nat) (sub : Option Nat) (c : Nat) : List Nat → State → State
  | [], s => s
  | p :: ps, s =>
    match sub with
    | some m => moveQueue n sub c ps (enqueue p m c s)
    | none => moveQueue n sub c ps (flushFrame n p s)

/-- The frames committed to a lane that have not joined a class queue of it: stored, or about to be judged for cut-through. -/
def committedTo (s : State) (n : Nat) : List Nat :=
  (s.pkts.filter fun q => q.2.place == .store n || q.2.place == .threshold n).map (·.1)

/-- Such frames follow the queued ones to the substitute, or are flushed (R200). -/
def moveCommitted (n : Nat) (sub : Option Nat) : List Nat → State → State
  | [], s => s
  | p :: ps, s =>
    match sub with
    | some m => moveCommitted n sub ps (setPkt p (fun x => { x with place := if x.place == .store n then .store m else .threshold m }) s)
    | none => moveCommitted n sub ps (flushFrame n p s)

/-- Substitution (R200): the frames committed to an unusable lane that have not begun move, class by class, or are flushed. -/
def substitute (n : Nat) (s : State) : State :=
  let qs := (lane s n).queues
  let s := setLane n (fun l => { l with queues := [] }) s
  let sub := ((substs (activeSet s) n).find? fun e => laneActive s e.2).map (·.2)
  moveCommitted n sub (committedTo s n) (qs.foldl (fun s q => moveQueue n sub q.1 q.2 s) s)

/-- The frame that a lane sends is cut short (R36): an error-marked block, LANE_TX_TRUNC, and the frame is lost. -/
def truncate (n : Nat) (s : State) : State :=
  match (lane s n).cur with
  | none => s
  | some p => losePkt p (count .laneTxTrunc n (emit (.laneCut n) (setLane n (fun l => { l with cur := none }) s)))

/-- A stamp entry of a lane is freed (R363). -/
def freeStampEntry (n : Nat) (s : State) : State := setLane n (fun l => { l with stamps := l.stamps - 1 }) s

/-- The adapter's lanes are squelched (R45): nothing is sent, and every lane is dark. -/
def lanesSquelch (s : State) : State :=
  { s with lanes := s.lanes.mapAll fun _ l => { l with blockLock := false, held := false, cur := none, rx := none } }

/-! ## Policers and shapers (R86 to R90, R324, R326) -/

/-- A policer's tokens, committed and peak, in units of 2^-16 byte; full where not listed. -/
def policerTokens (s : State) (i : Nat) : Nat × Nat :=
  if s.tm.policers.has i then s.tm.policers.get i
  else (bits 159 128 (policerEntry (activeSet s) i) * 65536, bits 127 96 (policerEntry (activeSet s) i) * 65536)

/-- The colour that a charge of `b` units earns, and the tokens it leaves (R326). -/
def colourCharge (aware : Bool) (pre tc tp b : Nat) : Nat × Nat × Nat :=
  if aware && pre == 2 then (2, tc, tp)
  else if tp < b then (2, tc, tp)
  else if (aware && pre == 1) || tc < b then (1, tc, tp - b)
  else (0, tc - b, tp - b)

/-- Bytes charged: a length with an S8.0 adjustment, clamped to at least 1. -/
def adjusted (n : Nat) (adj : Int) : Nat := max 1 ((n : Int) + adj).toNat

/-- A policer is charged (R326, R328): the colour. -/
def chargePolicer (i n pre : Nat) (s : State) : Nat × State :=
  let e := policerEntry (activeSet s) i
  let t := policerTokens s i
  let r := colourCharge (bits 86 86 e == 1) pre t.1 t.2 (adjusted n (toSigned 8 (bits 95 88 e)) * 65536)
  (r.1, { s with tm := { s.tm with policers := s.tm.policers.put i (r.2.1, r.2.2) } })

/-- A policer index of the active set is VALID. -/
def policerOk (s : State) (i : Nat) : Bool := bits 87 87 (policerEntry (activeSet s) i) == 1

def shaperValid (x : SetSlot) (i : Nat) : Bool := bits 39 39 (shaperEntry x i) == 1
def shaperDepth (x : SetSlot) (i : Nat) : Int := (bits 79 48 (shaperEntry x i) * 65536 : Nat)

/-- A shaper's tokens in units of 2^-16 byte; its depth where not listed. -/
def shaperTokens (s : State) (i : Nat) : Int :=
  if s.tm.shapers.has i then s.tm.shapers.get i else shaperDepth (activeSet s) i

/-- A shaper permits: it is not VALID, or its tokens are 0 or more (R324). -/
def shaperOk (s : State) (i : Nat) : Bool := !shaperValid (activeSet s) i || decide (0 ≤ shaperTokens s i)

/-- A shaper is charged a length with its LEN_ADJ, clamped to at least 1 byte (R318, R324). -/
def chargeShaper (i n : Nat) (s : State) : State :=
  if shaperValid (activeSet s) i then
    let b := adjusted n (toSigned 8 (bits 47 40 (shaperEntry (activeSet s) i)))
    { s with tm := { s.tm with shapers := s.tm.shapers.put i (shaperTokens s i - (b * 65536 : Nat)) } }
  else s

end Sys2Proof.Machine
end

