-- ==== Sys2Proof/Machine/KilnOps.lean ====
section
/-! DEFINITION. Kiln: which physical unit serves a logical one, what is out of service, and the tests an error asks for. -/
namespace Sys2Proof.Machine

/-- A slice identifier (R572). -/
def sliceId (cls idx : Nat) : Nat := cls * 4096 + idx

/-- The rotation that a slice of class 0 or 1 belongs to: that of its pipeline's banks, or of the buffer. -/
def rotOf (s : State) (slice : Nat) : Rot := if slice / 4096 == 0 then s.kiln.banks.get (slice / 17) else s.kiln.buf

/-- A rotation changes. -/
def setRot (slice : Nat) (f : Rot → Rot) (s : State) : State :=
  if slice / 4096 == 0 then { s with kiln := { s.kiln with banks := s.kiln.banks.upd (slice / 17) f } }
  else { s with kiln := { s.kiln with buf := f s.kiln.buf } }

/-- The unit number of a slice within its rotation, and the slice of a unit of the same rotation. -/
def unitOf (slice : Nat) : Nat := if slice / 4096 == 0 then slice % 17 else slice % 4096
def siblingOf (slice unit : Nat) : Nat := if slice / 4096 == 0 then slice / 17 * 17 + unit else sliceId 1 unit

/-- Logical units of a rotation. -/
def logicalCount (slice : Nat) : Nat := if slice / 4096 == 0 then 16 else 8

/-- The physical unit that serves a logical one (R574). -/
def Rot.physOf (r : Rot) (b : Nat) : Nat := if r.map.has b then r.map.get b else b

/-- The logical unit that a physical one serves. -/
def Rot.logicalOf (r : Rot) (n p : Nat) : Option Nat := (List.range n).find? fun b => r.physOf b == p

/-- The physical bank that serves a logical bank of a pipeline. -/
def physBank (s : State) (k b : Nat) : Nat := (s.kiln.banks.get k).physOf b

/-- The logical banks of a pipeline that are lost (R585); HBM has none. -/
def lostBanks (s : State) (k : Nat) : List Nat := (s.kiln.banks.get k).lost

/-- A logical bank of a pipeline is lost. -/
def bankLost (s : State) (k b : Nat) : Bool := (s.kiln.banks.get k).lost.contains b

/-- A core binds operations (R580, R583, R588). -/
def coreUsable (s : State) (c : Nat) : Bool :=
  !s.kiln.blocks.contains (sliceId 2 c) && !s.kiln.queue.contains (sliceId 2 c)
    && (match s.kiln.core with | some (d, _) => d != c | none => true)

/-- A fragment way, as an entry of it, allocates (R581, R583, R588). -/
def wayUsable (s : State) (e : Nat) : Bool :=
  let k := e / 4096
  !s.kiln.blocks.contains (sliceId 3 (4 * k + e % 4)) && !(s.kiln.ways.has k && (s.kiln.ways.get k).1 == e % 4)

/-- A pipeline is retired (R588). -/
def pipeLost (s : State) (k : Nat) : Bool := s.kiln.blocks.contains (sliceId 4 k)

/-- A lane of a retired pipeline or optical engine is UNUSED (R588). -/
def laneLost (s : State) (n : Nat) : Bool :=
  s.kiln.blocks.contains (sliceId 4 (n / 64)) || s.kiln.blocks.contains (sliceId 8 (n / 64))

/-- A detection or skip counts in KILN_ERR (R570, R606); both fields of a record wrap. -/
def kilnErr (i n : Nat) (s : State) : State :=
  { s with kiln := { s.kiln with err := s.kiln.err.put i (wrapAdd 64 (s.kiln.err.get i) n) } }

/-- A slice is under targeted test (R582). -/
def underTargeted (s : State) (slice : Nat) : Bool :=
  match slice / 4096 with
  | 2 => (match s.kiln.core with | some (c, _, t, _) => t && c == slice % 4096 | none => false)
  | 3 => s.kiln.ways.has (slice % 4096 / 4) && (s.kiln.ways.get (slice % 4096 / 4)).1 == slice % 4
      && (s.kiln.ways.get (slice % 4096 / 4)).2.1
  | _ => (match (rotOf s slice).move with | some m => m.targeted && m.phys == unitOf slice | none => false)

/-- A detected error queues one targeted test of its slice (R582). -/
def queueTest (slice : Nat) (s : State) : State :=
  if s.kiln.queue.contains slice || underTargeted s slice || s.kiln.blocks.contains slice then s
  else { s with kiln := { s.kiln with queue := s.kiln.queue ++ [slice] } }

/-- A copy or drain in progress is abandoned at a firmware halt (R595); a unit moved out and not yet tested waits for its test. -/
def haltRot (slice : Nat) (s : State) : State :=
  match (rotOf s slice).move with
  | none => setRot slice (fun r => { r with stage := 0 }) s
  | some m =>
    let again := m.targeted || (rotOf s slice).stage == 3
    let s := setRot slice (fun r => { r with stage := 0, move := none, spare := if r.stage == 3 then some m.phys else r.spare }) s
    if again then { s with kiln := { s.kiln with queue := siblingOf slice m.phys :: s.kiln.queue } } else s

/-- Kiln at a firmware halt (R595). -/
def kilnHalt (s : State) : State :=
  let s := (s.kiln.banks.map (·.1)).foldl (fun s k => haltRot (17 * k) s) s
  let s := haltRot (sliceId 1 0) s
  let core := match s.kiln.core with | some (c, _, true, _) => [sliceId 2 c] | _ => []
  let ways := (s.kiln.ways.filter fun e => e.2.2.1).map fun e => sliceId 3 (4 * e.1 + e.2.1)
  { s with kiln := { s.kiln with core := none, ways := [], asked := [], runs := [], queue := core ++ ways ++ s.kiln.queue } }

/-- The entries of a fragment way that are live (R581). -/
def wayLive (s : State) (k w : Nat) : List Nat := (s.frags.map (·.1)).filter fun e => e / 4096 == k && e % 4 == w

/-- The test of a slice starts: the KILN_RUN that asked for it is answered, and its result will be posted (R592). -/
def testStarts (slice : Nat) (s : State) : State :=
  match s.kiln.asked.find? fun a => a.1 == slice with
  | none => s
  | some (_, f, c) =>
    let left := s.kiln.asked.filter fun a => a.1 != slice
    finishExec f c stOk 0 { s with kiln := { s.kiln with asked := left, runs := slice :: s.kiln.runs } }

/-- A stopped way that holds no live entry any more comes under test (R581). -/
def wayEmptied (k : Nat) (s : State) : State :=
  let w := (s.kiln.ways.get k).1
  if s.kiln.ways.has k && (wayLive s k w).isEmpty then testStarts (sliceId 3 (4 * k + w)) s else s

/-- The step period of a class in ms, its default where none has been set (R573). -/
def kilnPeriod (s : State) (c : Nat) : Nat :=
  if s.kiln.periods.has c then s.kiln.periods.get c else [10000, 60000, 1000, 10000].getD c 0

/-- How many instants of a class's step period device time has passed, for pipeline k or the whole adapter (R575, R580). -/
def kilnInstants (s : State) (c k : Nat) : Nat :=
  let p := kilnPeriod s c * 1000000
  let now := s.time.now.units / 2 ^ 32
  let off := if c == 0 || c == 3 then k * p / 16 else 0
  if p == 0 || now < off then 0 else (now - off) / p + 1

/-- An instant of a class's step period has passed since `last` of them had (R575, R591, R595). -/
def kilnDue (s : State) (c k last : Nat) : Bool := s.fw.ready && kilnPeriod s c != 0 && decide (last < kilnInstants s c k)

/-- Steps count from the start of the firmware: instants before it are missed. -/
def kilnStart (s : State) : State :=
  let ks := List.range 16
  { s with kiln := { s.kiln with
    banks := ks.foldl (fun m k => m.upd k fun r => { r with last := kilnInstants s 0 k }) s.kiln.banks
    buf := { s.kiln.buf with last := kilnInstants s 1 0 }
    coreLast := kilnInstants s 2 0
    wayLast := ks.foldl (fun m k => m.put k (kilnInstants s 3 k)) s.kiln.wayLast } }

/-- Kiln over a fundamental reset: policies, periods and what has been retired last until the next power-on of AO (R587, R588,
R573). -/
def kilnKept (s : State) : Kiln :=
  { blocks := s.kiln.blocks, gone := s.kiln.gone, policy := s.kiln.policy, periods := s.kiln.periods }

/-- GUARD and its history are kept in the boot flash (R598). -/
def ageKept (s : State) : SMap Age := s.age.mapAll fun _ a =>
  { guard := a.guard, history := a.history, planAt := s.tick + secT 86400 }

end Sys2Proof.Machine
end

