-- ==== Sys2Proof/Machine/Pipe1.lean ====
section
/-! DEFINITION. The parser's operations, punts and fragments (chapter 07). -/
namespace Sys2Proof.Machine

/-! ## CRC-32C (R254) and the frame check sequence -/

/-- One bit of the reflected polynomial 0x82F63B78. -/
def crcBit (c : Nat) : Nat := if c % 2 == 1 then (c / 2) ^^^ 0x82F63B78 else c / 2

/-- The frame check sequence of IEEE 802.3 over a frame's bytes. -/
def fcs32 (bs : List Byte) : Nat :=
  let step (c : Nat) : Nat := if c % 2 == 1 then (c / 2) ^^^ 0xEDB88320 else c / 2
  (bs.foldl (fun c b => step (step (step (step (step (step (step (step (c ^^^ b.toNat))))))))) 0xFFFFFFFF) ^^^ 0xFFFFFFFF

/-- CRC-32C of bytes from an initial value, with final XOR 0xFFFFFFFF. -/
def crc32c (init : Nat) (bs : List Byte) : Nat :=
  (bs.foldl (fun c b => crcBit (crcBit (crcBit (crcBit (crcBit (crcBit (crcBit (crcBit (c ^^^ b.toNat))))))))) init) ^^^ 0xFFFFFFFF

/-! ## Fields of a header in network order (R232) -/

/-- The `w` bits at bit offset `b` of the header that starts at byte `off`. -/
def hdrField (bs : List Byte) (off b w : Nat) : Nat :=
  let n := (b % 8 + w + 7) / 8
  ofBytesBE ((bs.drop (off + b / 8)).take n) / 2 ^ (8 * n - b % 8 - w) % 2 ^ w

/-- The frame's bytes with `w` bits written at a bit offset of a header (R286 WRITE). -/
def writeField (bs : List Byte) (off b w v : Nat) : List Byte :=
  let n := (b % 8 + w + 7) / 8
  let at_ := off + b / 8
  let sh := 8 * n - b % 8 - w
  let old := ofBytesBE ((bs.drop at_).take n)
  let new := old - (old / 2 ^ sh % 2 ^ w) * 2 ^ sh + (v % 2 ^ w) * 2 ^ sh
  bs.take at_ ++ bytesBE n new ++ bs.drop (at_ + n)

/-! ## What a frame that still arrives does outside itself (R175) -/

/-- The counter of a packet by its number: those of R305 by their place in that table, then PIPE_EPOCH_SKEW (R154). -/
def pipeCnt : Nat → Cnt
  | 0 => .actionFault
  | 1 => .flowBusy
  | 2 => .parityMiss
  | 3 => .parseDepth
  | 4 => .malformed
  | _ => .epochSkew

/-- The learn report of a sighting joins the reports under way (R297). -/
def sendReport (key port table pipe : Nat) (time : DevTime) (s : State) : State :=
  let h := crc32c 0xFFFFFFFF (bytesBE 8 key)
  { s with reports := s.reports ++ [{ home := h % 16, key := key, port := port, table := table, pipe := pipe, time := time, hash := h }] }

/-- An effect takes place. -/
def applyEffect (e : Effect) (s : State) : State :=
  match e with
  | .count ep k t i n => updSet ep (fun x => { x with counters := x.counters.upd (tKey k t i) fun c => c.count n }) s
  | .hit ep inst t h => updSet ep (fun x =>
      if x.entries.has (tKey inst t h) then { x with entries := x.entries.upd (tKey inst t h) fun e => { e with hit := true } } else x) s
  | .learn key port t k time => sendReport key port t k time s
  | .pipeCount w k => count (pipeCnt w) k s

/-- An effect takes place now, or at the end of a frame that still arrives. -/
def doEffect (p : Nat) (e : Effect) (s : State) : State :=
  if (pkt s p).arriving then setPkt p (fun x => { x with effects := x.effects ++ [e] }) s else applyEffect e s

/-- An effect with the length of the frame as it was received (R231, R292). -/
def atLength (n : Nat) : Effect → Effect
  | .count ep k t i _ => .count ep k t i n
  | e => e

/-- What a frame did takes place at its end. -/
def commitEffects (p : Nat) (s : State) : State :=
  let x := pkt s p
  x.effects.foldl (fun s e => applyEffect (atLength x.raw.length e) s) (setPkt p (fun x => { x with effects := [], refunds := [] }) s)

/-- A discarded frame takes no effect (R175): its effects are forgotten and its policer charges returned. -/
def undoFrame (p : Nat) (s : State) : State :=
  let x := pkt s p
  let s := x.refunds.foldl (fun s r =>
    let t := policerTokens s r.1
    { s with tm := { s.tm with policers := s.tm.policers.put r.1 (t.1 + r.2.1, t.2 + r.2.2) } }) s
  setPkt p (fun x => { x with effects := [], refunds := [] }) s

/-! ## Punts (R127, R128) -/

/-- The META field: six metadata containers, the first most significant (R264). -/
def metaField (s : State) (x : Pkt) : Nat :=
  let set := setFor s x.epoch
  let cs := if set.metas.has x.pipe then set.metas.get x.pipe else [24, 25, 26, 27, 28, 29]
  cs.foldl (fun a c => a * 2 ^ 32 + x.conts.get (0x80 + c)) 0

/-- A packet is punted: its record joins its pipeline's queue, or is dropped and counted where the queue is full (R127) or the
firmware is halted (R135), and the packet ends. -/
def puntPkt (p reason stage node off : Nat) (s : State) : State :=
  let x := pkt s p
  let k := x.pipe
  let cap := x.raw.take 448
  let hdr := fld 511 320 (metaField s x) + fld 319 256 x.lastHash + fld 231 224 x.lastTable + fld 223 208 cap.length
    + fld 207 192 (if x.pass == 0 then pktLen { x with bytes := x.raw } else x.rxLen) + fld 191 128 x.stamp.stamp + fld 113 104 off
    + fld 97 96 (if x.pass == 0 then x.src else 3) + fld 95 64 x.srcId + fld 63 56 node + fld 52 48 stage
    + fld 47 32 x.epoch + fld 30 28 x.pass + fld 27 24 k + fld 23 16 k + fld 15 0 reason
  let s := if s.fw.ready && (s.punts.get k).length < 1024 then { s with punts := s.punts.upd k (· ++ [{ hdr := hdr, cap := cap }]) }
    else count .puntDrop k s
  removePkt p (fragFate x 2 reason s)

/-! ## Parser (R230 to R260) -/

/-- The parse graph that serves a packet. -/
def graphOf (s : State) (x : Pkt) : List Byte := pg (setFor s x.epoch) x.pipe

/-- A value names a node of the graph that is VALID. -/
def nodeOk (d : List Byte) (n : Nat) : Bool := n < 0xF0 && n < pgNodes d && (nb (pgNode d n) 0 1) % 2 == 1

/-- IPv4 header checksum of header bytes: the ones' complement sum of its 16-bit words. -/
def onesSum (bs : List Byte) : Nat :=
  let t := ((List.range ((bs.length + 1) / 2)).map fun i =>
    ofBytesBE ((bs.drop (2 * i)).take 2) * (if bs.length < 2 * i + 2 then 256 else 1)).sum
  let f := t % 65536 + t / 65536
  f % 65536 + f / 65536

/-! ## The checks of transport packets (R433, R437) -/

/-- An IP header that ends where its transport header begins (R433, R437: IPv4 without options, IPv6 without extensions). -/
structure IpHdr where
  at_ : Nat
  v6 : Bool
  /-- Bytes from the transport header to the end of the IP packet. -/
  len : Nat

/-- The IP header before a transport header of a protocol at `off`. -/
def ipBefore (bs : List Byte) (off proto : Nat) : Option IpHdr :=
  if 20 ≤ off && rd bs (off - 20) 1 == 0x45 && rd bs (off - 11) 1 == proto then
    some { at_ := off - 20, v6 := false, len := be16 bs (off - 18) - 20 }
  else if 40 ≤ off && rd bs (off - 40) 1 / 16 == 6 && rd bs (off - 34) 1 == proto then
    some { at_ := off - 40, v6 := true, len := be16 bs (off - 36) }
  else none

/-- The ECN field of an IP header is CE. -/
def ipCe (bs : List Byte) (h : IpHdr) : Bool :=
  if h.v6 then bits 5 4 (rd bs (h.at_ + 1) 1) == 3 else bits 1 0 (rd bs (h.at_ + 1) 1) == 3

/-- Bytes with those at some places replaced by ones, as the ICRC takes what a router may change. -/
def onesAt (places : List Nat) (bs : List Byte) : List Byte := places.foldl (fun b i => b.set i 0xFF) bs

/-- The ICRC of a RoCE v2 packet (Annex A17): over 8 bytes of ones, the IP header, the UDP header and the packet from its base
transport header at `off` on, `n` bytes to the ICRC, with the fields that may change taken as ones. -/
def icrcOf (bs : List Byte) (h : IpHdr) (off n : Nat) : List Byte :=
  let ip := (bs.drop h.at_).take (off - 8 - h.at_)
  let ip := if h.v6 then (onesAt [1, 2, 3, 7] ip).set 0 0x6F else onesAt [1, 8, 10, 11] ip
  bytesOf 4 (fcs32 (List.replicate 8 0xFF ++ ip ++ onesAt [6, 7] ((bs.drop (off - 8)).take 8) ++ onesAt [4] ((bs.drop off).take n)))

/-- A received RoCE v2 packet: its bytes from the base transport header to the ICRC where the ICRC is right, and its IP header. -/
def roceIn (bs : List Byte) (off : Nat) : Option (List Byte × IpHdr) :=
  match ipBefore bs (off - 8) 17 with
  | none => none
  | some h =>
    let n := h.len - 12
    if 8 ≤ off && h.len ≥ 12 && off + n + 4 ≤ bs.length && be16 bs (off - 6) == 4791 && icrcOf bs h off n == (bs.drop (off + n)).take 4 then
      some ((bs.drop off).take n, h)
    else none

/-- The checksum of a TCP segment of `n` bytes at `off`: over its IP pseudo-header and itself (RFC 9293). -/
def tcpSum (bs : List Byte) (h : IpHdr) (off n : Nat) : Nat :=
  let addrs := (bs.drop (h.at_ + if h.v6 then 8 else 12)).take (if h.v6 then 32 else 8)
  onesSum (addrs ++ bytesBE 4 n ++ bytesBE 4 6 ++ (bs.drop off).take n)

/-- A received TCP segment: its bytes where the checksum is right, and its IP header. -/
def tcpIn (bs : List Byte) (off : Nat) : Option (List Byte × IpHdr) :=
  match ipBefore bs off 6 with
  | none => none
  | some h =>
    if h.len ≥ 20 && off + h.len ≤ bs.length && tcpSum bs h off h.len == 0xFFFF then some ((bs.drop off).take h.len, h) else none

/-- Header instances whose IPv4 checksum fails (R266), as the 64-bit value of MD22 and MD23. -/
def badChecksums (s : State) (x : Pkt) : Nat :=
  let d := ap (setFor s x.epoch) x.pipe
  (x.insts.map fun i => if hdrClass d i.1 == 3 && onesSum ((x.bytes.drop i.2.1).take i.2.2) != 0xFFFF then 2 ^ i.1 else 0).sum

/-- The fixed metadata of a pass (R264). A frame that still arrives is parsed as if its claims were equal to its end, and has no
padding (R248). -/
def fixedMeta (s : State) (x : Pkt) : SMap Nat :=
  let m := x.conts
  let m := m.put 0x80 (fld 27 18 x.stop + fld 17 10 (x.last.getD 0) + fld 9 8 x.fragState + fld 7 2 x.visits + fld 1 0 x.exc)
  let m := m.put 0x81 (fld 31 16 x.srcId + fld 15 14 x.src + fld 13 0 (if x.arriving then 0 else x.raw.length - x.fend))
  let m := m.put 0x82 (fld 18 16 x.pass + fld 15 0 x.epoch)
  let m := m.put 0x83 (x.stamp.stamp / 2 ^ 32)
  let m := m.put 0x84 (x.stamp.stamp % 2 ^ 32)
  let m := m.put 0x85 (if x.src == 0 then x.srcId % 1024 else 0)
  let m := if x.fragState == 2 then (List.range 8).foldl (fun m i => m.put (0x86 + i) (x.fragRec.getD i 0)) m else m
  let c := badChecksums s x
  (m.put 0x96 (c / 2 ^ 32)).put 0x97 (c % 2 ^ 32)

/-- The header length at a node (R240). -/
def headerLen (g : Nat) (bs : List Byte) (off : Nat) : Nat :=
  if nb g 14 1 == 0 then nb g 8 2 else hdrField bs off (nb g 12 2) (nb g 14 1) * 2 ^ nb g 15 1 + nb g 16 2

/-- Any masked header bit is 1 (ZERO_MASK, R236). -/
def zeroMaskHit (g : Nat) (bs : List Byte) (off : Nat) : Bool :=
  (List.range 16).any fun i => (nb g (48 + i) 1) &&& ((bs.drop (off + i)).headD 0).toNat != 0

/-- NEXT of the first matching transition, else DEFAULT (R241). -/
def nextNode (d : List Byte) (g : Nat) (bs : List Byte) (off : Nat) : Nat :=
  let wb := nb g 27 1
  let key := hdrField bs off (nb g 24 2) (nb g 26 1) * 2 ^ wb + hdrField bs off (nb g 28 2) wb
  match ((List.range (nb g 5 1)).map fun i => pgTran d (nb g 6 2 + i)).find? fun t => key &&& nb t 4 4 == nb t 0 4 with
  | some t => nb t 8 1
  | none => nb g 30 1

/-- The bytes an extraction SIZE stands for (R236). -/
def exSize (z : Nat) : Nat := match z with | 1 => 1 | 2 => 2 | 3 => 4 | 4 => 8 | 5 => 16 | _ => 0

/-- One extraction entry fills its containers, for the stack position whose container step is `step` (R236, R243). -/
def extract (e step : Nat) (bs : List Byte) (off : Nat) (m : SMap Nat) : SMap Nat :=
  let n := exSize (bits 9 7 e)
  if n == 0 then m
  else
    let v := hdrField bs off (8 * bits 15 10 e) (8 * n)
    let k := (n + 3) / 4
    (List.range k).foldl (fun m i => m.put ((bits 6 0 e + step + i) % 128) (v / 2 ^ (32 * (k - 1 - i)) % 2 ^ 32)) m

/-- The stack position a node's header takes: the first invalid instance of its stack (R243). -/
def stackPos (g : Nat) (x : Pkt) : Option Nat := (List.range (nb g 2 1)).find? fun p => !x.insts.has (nb g 1 1 + p)

/-- The header of a node is recorded and its fields extracted (R243). -/
def record (g len : Nat) (x : Pkt) : Pkt :=
  let ex := (List.range 8).map fun i => nb g (32 + 2 * i) 2
  if nb g 1 1 == 0xFF then
    { x with lastInst := none, conts := ex.foldl (fun m e => extract e 0 x.bytes x.off m) x.conts }
  else
    match stackPos g x with
    | none => x
    | some p => { x with
        insts := x.insts.put (nb g 1 1 + p) (x.off, len), lastInst := some (nb g 1 1 + p)
        conts := ex.foldl (fun m e => extract e (p * nb g 3 1) x.bytes x.off m) x.conts }

/-- How a length claim of a node stands (R247): failed, or the end it leaves. -/
def claimTest (claimed least fend : Nat) (padOk : Bool) : Option Nat :=
  if claimed > fend || claimed < least then none
  else if claimed == fend then some fend
  else if padOk then some claimed
  else none

/-! ### Fragments (R252 to R260) -/

/-- The fragment fields of a packet at a fragment node (R252): more, offset, key bytes, data; none where HDR_REF is not valid. -/
def fragFields (g len : Nat) (x : Pkt) : Option (Bool × Nat × List Byte × Nat) :=
  let bs := x.bytes
  if bits 4 3 (nb g 0 1) == 1 then
    some (hdrField bs x.off 50 1 == 1, hdrField bs x.off 51 13,
      4#8 :: ((bs.drop (x.off + 12)).take 8 ++ (bs.drop (x.off + 4)).take 2 ++ (bs.drop (x.off + 9)).take 1), x.fend - (x.off + len))
  else if x.insts.has (nb g 31 1) then
    let r := (x.insts.get (nb g 31 1)).1
    some (hdrField bs x.off 31 1 == 1, hdrField bs x.off 16 13,
      6#8 :: ((bs.drop (r + 8)).take 32 ++ (bs.drop (x.off + 4)).take 4 ++ (bs.drop x.off).take 1), x.fend - (x.off + 8))
  else none

/-- The ways of a set of a pipeline's fragment table, as entry numbers. -/
def fragWays (k h : Nat) : List Nat := (List.range 4).map fun w => k * 4096 + (h / 16 % 1024) * 4 + w

/-- TABLE_PARITY (R294, R296): counted with the errors of its bank, and posted at most once per 100 µs and bank. The fragment table
and the learn filter have one parity for an entry (R570): their WORDS are free (log 5). -/
def postParity (table inst bank row words hbm phys : Nat) (s : State) : State :=
  let key := inst * 2 ^ 16 + table / 192 * 2 ^ 8 + bank
  let e := s.parity.get key
  let n := satAdd 32 e.2 1
  if e.1 ≤ s.tick then
    let s := { s with parity := s.parity.put key (s.tick + usT 100, 0) }
    postAll 0x0303 (if inst < 16 then inst else 16 + bank % 4)
      (fld 255 248 table + fld 247 240 inst + fld 239 236 bank + fld 235 224 row + fld 223 208 words
        + fld 207 168 (hbm / 256) + fld 167 163 phys + fld 159 128 n) s
  else { s with parity := s.parity.put key (e.1, n) }

/-- A fragment entry is freed; what it held back becomes a hold whose key has no entry, from now (R255), and its first fragment's
packet settles no fate any more (R257). -/
def freeFrag (e : Nat) (s : State) : State :=
  let f := s.frags.get e
  let s := wayEmptied (e / 4096) { s with frags := s.frags.del e }
  { s with pkts := s.pkts.mapAll fun _ x =>
    let x := if x.fragOwn == some e then { x with fragOwn := none } else x
    if !f.decided && x.place == .hold && x.pipe == e / 4096 && x.fragKey == f.key then { x with holdAt := s.tick } else x }

/-- Corrupt entries of a set that a read meets are freed and reported (R260). -/
def dropCorrupt : List Nat → State → State
  | [], s => s
  | e :: es, s =>
    if (s.frags.get e).corrupt && s.frags.has e then
      dropCorrupt es (queueTest (sliceId 3 (e / 4096 * 4 + e % 4)) (kilnErr 9 1
        (postParity 0xFF (e / 4096) (e % 4) (e / 4 % 1024) (drawn 16 s) 0 0 (useDraw (freeFrag e s)))))
    else dropCorrupt es s

/-- The held fragments of a key in a pipeline, oldest first. -/
def heldOf (s : State) (k : Nat) (key : List Byte) : List Nat := (s.holdQ.get k).filter fun p => (pkt s p).fragKey == key

/-- A fragment's data counts in its entry (R259). -/
def seeFrag (e : Nat) (x : Pkt) (s : State) : State :=
  { s with frags := s.frags.upd e fun f => { f with
    seen := f.seen + x.fragData, total := match x.fragTotal with | some t => some t | none => f.total } }

/-- An entry whose datagram is complete, or whose lifetime has passed, is freed once DECIDED (R259). -/
def fragDone (e : Nat) (s : State) : State :=
  let f := s.frags.get e
  if !s.frags.has e || !f.decided then s
  else
    match f.total with
    | some t => if f.seen ≥ t then freeFrag e s else if s.tick ≥ f.made + f.life then freeFrag e s else s
    | none => if s.tick ≥ f.made + f.life then freeFrag e s else s

/-! ## Lanes that go down (R36, R175, R176) -/

/-- A frame that a lane was receiving ends with it: cut-through stomps it, and any other is discarded (R175, R218). -/
def killRx (n : Nat) (s : State) : State :=
  match (lane s n).rx with
  | none => s
  | some p =>
    let s := setLane n (fun l => { l with rx := none }) s
    if !hasPkt s p then s
    else
      match (pkt s p).place with
      | .onLane m =>
        let s := emit (.laneCut m) (count .laneTxStomp m (commitEffects p s))
        removePkt p (setLane m (fun l => { l with cur := none }) s)
      | .laneQ m c =>
        if (pkt s p).cutThrough then
          removePkt p (count .laneTxStomp m
            (setLane m (fun l => { l with queues := l.queues.upd c fun q => q.filter (· != p) }) (commitEffects p s)))
        else removePkt p (undoFrame p s)
      | _ => removePkt p (undoFrame p s)

/-- A lane goes down (R36, R176): the frame in progress is cut short, its slots are substituted, LANE_DOWN is posted. Whatever the
lane's state, the 100 µs of R177 start again, and the receiver's status is that which the cause shows: without block lock there is
no hi_ber, and a fault sequence is received under block lock (log 92). -/
def laneDown (n reason : Nat) (s : State) : State :=
  let was := (lane s n).state
  let s := setLane n (fun l => { l with
    held := false, brokenAt := s.tick, ctl := []
    blockLock := (l.blockLock || reason == 3 || reason == 4) && reason != 1, hiBer := (l.hiBer || reason == 2) && reason != 1 }) s
  let s := killRx n s
  if !(setActive s && laneListed (activeSet s) n) || was == 0 || was == 4 || was == 1 || was == 5 then s
  else
    let s := setLane n (fun l => { l with state := 1, reason := reason, pause := [], unusable := true }) s
    let s := emit (.laneSignal n false) (truncate n s)
    let s := postLaneDown n (substitute n s)
    if ptpLane (activeSet s) n then postAll 0x0504 (n / 64) (fld 255 246 n) s else s

/-- A lane whose reference is lost loses its lock (R650). -/
def laneRefFail (n : Nat) (s : State) : State := laneDown n 1 s

end Sys2Proof.Machine
end

