-- ==== Sys2Proof/Machine/Tm.lean ====
section
/-! DEFINITION. Host scheduler trees (R313 to R324). -/
namespace Sys2Proof.Machine

/-! ## Shapers and policers (R86 to R90, R321, R324) -/

/-! ## Host scheduler trees (R313 to R323) -/

def nodeOf (s : State) (n : Nat) : Node := s.tm.nodes.get n
def setNode (n : Nat) (f : Node → Node) (s : State) : State := { s with tm := { s.tm with nodes := s.tm.nodes.upd n f } }

/-- The queue of packets of a leaf. -/
def leafQueue (s : State) (n : Nat) : List Nat := s.tm.leafQ.get n

/-- The queue slot of a leaf is not STOPPED (R316). -/
def leafRuns (s : State) (n : Nat) : Bool :=
  if n ≥ 0x30000 then true
  else match ownerOf s (n - 0x20000) with
    | some (fn, slot) => !((fnOf s fn).slots.get slot).stopped
    | none => true

/-- A leaf holds a ready packet (R316). -/
def leafReady (s : State) (n : Nat) : Bool :=
  let x := activeSet s
  !(leafQueue s n).isEmpty && leafRuns s n
    && (n ≥ 0x30000 || bits 55 55 (leafEntry x (n - 0x20000)) == 0 || !s.ciph.heldBack.contains (leafPipe x n))

/-- A node's own shaper permits. -/
def nodeShaped (s : State) (n : Nat) : Bool :=
  match nodeShaper (activeSet s) n with
  | some i => decide (0 ≤ shaperTokens s i)
  | none => true

/-- A leaf or node is eligible (R316). -/
def eligible (s : State) (n : Nat) : Bool :=
  nodeValid (activeSet s) n && nodeShaped s n
    && (if 0x20000 ≤ n && n < 0x40000 then leafReady s n else !(nodeOf s n).active.isEmpty)

/-- A host queue holds descriptors that have been posted and not consumed: packets whose head may not have been fetched (R319). -/
def ringHolds (g : Fn) (slot : Nat) : Bool :=
  let q := g.slots.get slot
  q.txEn && q.txPi != q.txCi

/-- A leaf below a node, or the leaf itself, holds a packet, prefetched or still posted in its ring (R319). -/
def holdsPackets (s : State) (n : Nat) : Bool :=
  let under (q : Nat) : Bool := q == n || (nodePath (activeSet s) q).contains n
  (s.tm.leafQ.any fun q => !q.2.isEmpty && under q.1)
    || s.fns.any fun f => f.2.slots.any fun e => ringHolds f.2 e.1 && under (kLeaf (queueOf s f.1 e.1))

/-- A node's place in its parent's active list follows its eligibility (R319). -/
def placeNode (n : Nat) (s : State) : State :=
  let a := nodeParent (activeSet s) n
  let listed := (nodeOf s a).active.contains n
  if eligible s n then
    if listed then s else setNode a (fun v => { v with active := v.active ++ [n] }) s
  else if listed then
    let s := setNode a (fun v => { v with active := v.active.filter (· != n) }) s
    if holdsPackets s n then s
    else setNode n (fun v => { v with deficit := if v.deficit > 0 then 0 else v.deficit, fresh := true }) s
  else s

/-- Nodes are placed in order. -/
def placeNodes : List Nat → State → State
  | [], s => s
  | n :: ns, s => placeNodes ns (placeNode n s)

/-- A leaf's path is placed from the leaf up (R316). -/
def placePath (n : Nat) (s : State) : State :=
  if setActive s && nodeValid (activeSet s) n then placeNodes (nodePath (activeSet s) n) s else s

/-- Every leaf that holds packets, and every node that is listed, is placed, level by level in ascending order. -/
def placeAll (s : State) : State :=
  if !setActive s then s
  else
    let x := activeSet s
    let leaves := (s.tm.leafQ.map (·.1)).filter (nodeValid x)
    let level (lo hi : Nat) : List Nat :=
      ((leaves.flatMap (nodePath x)) ++ s.tm.nodes.map (·.1)).filter (fun n => lo ≤ n && n < hi) |>.mergeSort (· ≤ ·) |>.eraseDups
    placeNodes (leaves ++ level 0x10000 0x20000 ++ level 0x1000 0x10000 ++ level 0 0x1000) s

/-- A packet leaves its leaf's queue without having been selected. -/
def dropLeafIf (n : Nat) (f : Pkt → Bool) (s : State) : State :=
  let out := (leafQueue s n).filter fun p => f (pkt s p)
  let s := { s with tm := { s.tm with leafQ := s.tm.leafQ.upd n fun q => q.filter fun p => !out.contains p } }
  placePath n (out.foldl (fun s p => removePkt p s) s)

/-- The prefetched packets of a host transmit queue are discarded (R475). -/
def dropLeaf (q : Nat) (s : State) : State := dropLeafIf (kLeaf q) (fun x => x.tx.isSome) s

/-- The prefetched packets of a function's queues are discarded. -/
def dropLeaves (iid : Nat) (s : State) : State :=
  ((fnOf s iid).slots.map (·.1)).foldl (fun s k => dropLeaf (queueOf s iid k) s) s

/-- Room for `n` more cells in a host port's transmit account, or in that of the storage ports at 8 (R333). -/
def prefetchRoom (s : State) (acct n : Nat) : Bool :=
  let x := activeSet s
  setActive s && acctHeld s acct + n ≤ (if acct == 8 then storeTxLimit x else bits 127 108 (hostCarve x acct))

/-- A packet joins a leaf's queue. -/
def joinLeaf (n : Nat) (x : Pkt) (s : State) : State :=
  let p := s.nextPkt
  let s := newPkt { x with place := .leaf n, pipe := leafPipe (activeSet s) n } s
  let s := { s with tm := { s.tm with leafQ := s.tm.leafQ.upd n (· ++ [p]) } }
  placePath n (chargePkt p x.charge s)

/-- length(p) of a packet at every level (R315). -/
def schedLen (s : State) (x : Pkt) : Nat := min 65535 (max 1 ((x.bytes.length : Int) + tmLenAdj (activeSet s)).toNat)

/-- select(n) of R317 with a bound on its visits: the leaf found. -/
def selectFrom : Nat → Nat → State → Option Nat × State
  | 0, _, s => (none, s)
  | k + 1, n, s =>
    if 0x20000 ≤ n && n < 0x40000 then (some n, s)
    else
      match (nodeOf s n).active with
      | [] => (none, s)
      | c :: rest =>
        let s := if (nodeOf s c).fresh then
            setNode c (fun v => { v with deficit := v.deficit + nodeQuantum (activeSet s) c, fresh := false }) s
          else s
        if (nodeOf s c).deficit > 0 then selectFrom k c s
        else
          selectFrom k n (setNode c (fun v => { v with fresh := true }) (setNode n (fun v => { v with active := rest ++ [c] }) s))

/-- What selecting a packet of length `len` charges at one node of its path (R318). -/
def chargeNode (n len : Nat) (s : State) : State :=
  let s := setNode n (fun v => { v with deficit := v.deficit - len }) s
  let s := match nodeShaper (activeSet s) n with | some i => chargeShaper i len s | none => s
  let s := placeNode n s
  let a := nodeParent (activeSet s) n
  if (nodeOf s a).active.contains n && (nodeOf s n).deficit ≤ 0 then
    setNode n (fun v => { v with fresh := true }) (setNode a (fun v => { v with active := (v.active.filter (· != n)) ++ [n] }) s)
  else s

/-- The charges of a selection, leaf first. -/
def chargePath (len : Nat) : List Nat → State → State
  | [], s => s
  | n :: ns, s => chargePath len ns (chargeNode n len s)

/-- A descriptor is consumed in order (R475): its entry is owed. -/
def consumeTx (x : Pkt) (s : State) : State :=
  match x.tx with
  | none => s
  | some t => setSlot t.fn t.slot (fun q => { q with txCi := q.txCi + 1, txOrder := q.txOrder ++ [(t.idx, none)] }) s

/-- The packet selected from a leaf waits for its slot, or is dropped RED by the leaf's policer (R322). -/
def takeSelected (leaf p : Nat) (s : State) : State :=
  let x := pkt s p
  let len := schedLen s x
  let e := leafEntry (activeSet s) (leaf - 0x20000)
  let s := { s with tm := { s.tm with leafQ := s.tm.leafQ.upd leaf (·.drop 1) } }
  let s := chargePath len (nodePath (activeSet s) leaf) s
  let s := if leaf < 0x30000 then countBlock 0xFE06 (leaf - 0x20000) x.bytes.length s else s
  let policed := leaf < 0x30000 && bits 57 57 e == 1 && policerOk s (bits 77 58 e)
  let (c, s) := if policed then chargePolicer (bits 77 58 e) len 0 s else (0, s)
  let s := consumeTx x s
  if policed && c == 2 && bits 56 56 e == 1 then removePkt p (countBlock 0xFE05 (leaf - 0x20000) x.bytes.length s)
  else setPkt p (fun x => { x with place := .arrival, stamp := s.time.now, pipe := leafPipe (activeSet s) leaf,
                                   conts := x.conts.put 0x93 c }) s

/-- The prefetched packets of leaves that the active set does not list, of a pipeline: lowest leaf first (R339). -/
def orphanLeaf (s : State) (k : Nat) : Option (Nat × Nat) :=
  ((s.tm.leafQ.filter fun q => !nodeValid (activeSet s) q.1).filterMap fun q => q.2.head?.map fun p => (q.1, p)).find?
    fun e => (pkt s e.2).pipe == k

/-- One refill of every bucket (R88). -/
def refill (s : State) : State :=
  let x := activeSet s
  { s with tm := { s.tm with
    shapers := s.tm.shapers.mapAll fun i t => min (shaperDepth x i) (t + credit (bits 127 80 (shaperEntry x i)))
    policers := s.tm.policers.mapAll fun i t =>
      let e := policerEntry x i
      (min (bits 159 128 e * 65536) (t.1 + credit (bits 255 208 e)), min (bits 127 96 e * 65536) (t.2 + credit (bits 207 160 e))) } }

/-- BUCKET_REFILL: the refill tick, every 64 CK_T ticks (R87). -/
def execBucketRefill (s : State) : Host.Outcome State Fault Refusal :=
  if s.tick < s.tm.refillAt then .next s
  else .next (placeAll (refill { s with tm := { s.tm with refillAt := s.tm.refillAt + 64 } }))

end Sys2Proof.Machine
end

