-- ==== Sys2Proof/Machine/CipherOps.lean ====
section
/-! DEFINITION. Keys, and operations asked of the cipher complex (chapter 11). -/
namespace Sys2Proof.Machine

/-! ## Keys (R401 to R412) -/

/-- X of R403. -/
def Key.x (k : Key) : List Byte :=
  bytesOf 1 k.domain ++ bytesOf 1 (bit k.xts + 2 * bit k.aes256) ++ bytesOf 1 k.label.length ++ k.label

/-- L of R403, in bits. -/
def Key.outBits (k : Key) : Nat := if k.xts then (if k.aes256 then 512 else 256) else (if k.aes256 then 352 else 224)

/-- Bytes of an AES key. -/
def Key.size (k : Key) : Nat := if k.aes256 then 32 else 16

/-- OUT of R403. -/
def keyOut (s : State) (k : Key) : List Byte := kmac (s.sec.roots.get k.root) k.x k.outBits "SX7100-KEY"

/-- The derived key, without IV_BASE (R403). -/
def Key.keyOf (k : Key) (out : List Byte) : List Byte := if k.xts then out else out.take k.size

/-- IV_BASE (R403). -/
def Key.ivBase (k : Key) (out : List Byte) : List Byte := (out.drop k.size).take 12

/-- The two IV forms (R395). -/
def ivXor (base : List Byte) (q : Nat) : List Byte := List.zipWith (· ^^^ ·) base (bytesBE 12 q)
def ivConcat (base : List Byte) (q : Nat) : List Byte := base.take 4 ++ bytesBE 8 q

/-- The slot of a key index. -/
def keySlot (s : State) (i : Nat) : KeySlot := s.keys.slots.get i
def setKeySlot (i : Nat) (f : KeySlot → KeySlot) (s : State) : State := { s with keys := { s.keys with slots := s.keys.slots.upd i f } }

/-- A live key's fields change. -/
def setKey (i : Nat) (f : Key → Key) (s : State) : State := setKeySlot i (fun k => { k with key := k.key.map f }) s

/-- The handle of an index with the GEN in force (R405). -/
def handleOf (s : State) (i : Nat) : Nat := i + (keySlot s i).gen * 2 ^ 20

/-- The index that a handle names, where its GEN is in force and a key is live. -/
def liveHandle (s : State) (h : Nat) : Option Nat :=
  let i := h % 2 ^ 20
  if (keySlot s i).gen == h / 2 ^ 20 && (keySlot s i).key.isSome && h < 2 ^ 32 then some i else none

/-- A key is destroyed (R409): the cache entry and the record go, GEN advances, the index is held. -/
def destroyKey (i : Nat) (s : State) : State :=
  let s := setKeySlot i (fun k => { gen := (k.gen + 1) % 4096, held := some s.keys.firings }) s
  { s with keys := { s.keys with cache := s.keys.cache.filter (· != i) } }

/-- The live keys' indices under a condition. -/
def keysWhere (s : State) (f : Key → Bool) : List Nat :=
  (s.keys.slots.filter fun e => (e.2.key.map f).getD false).map (·.1)

/-- The keys of a host port's domain are destroyed (R412). -/
def destroyDomainKeys (h : Nat) (s : State) : State := (keysWhere s fun k => k.domain == h).foldl (fun s i => destroyKey i s) s

/-- The key cache and every key record are zeroised (R616, R617). -/
def zeroiseKeys (s : State) : State := (keysWhere s fun _ => true).foldl (fun s i => destroyKey i s) s

/-- A live key is derived from a root (R625). -/
def liveKeyOfRoot (s : State) (root : Nat) : Bool := !(keysWhere s fun k => k.root == root).isEmpty

/-! ## Operations (R388, R323) -/

/-- Bytes of the work accepted from a pipeline and not completed (R323). -/
def pipeWork (s : State) (k : Nat) : Nat :=
  ((s.ciph.queue ++ s.ciph.bound).map fun o => match o.req with
    | .packet p => if (pkt s p).pipe == k then o.len else 0
    | _ => 0).sum

/-- A pipeline is held back above 64 KiB and released at 32 KiB or less (R323). -/
def holdBack (k : Nat) (s : State) : State :=
  let w := pipeWork s k
  if w > 65536 && !s.ciph.heldBack.contains k then placeAll { s with ciph := { s.ciph with heldBack := k :: s.ciph.heldBack } }
  else if w ≤ 32768 && s.ciph.heldBack.contains k then
    placeAll { s with ciph := { s.ciph with heldBack := s.ciph.heldBack.filter (· != k) } }
  else s

/-- The pipeline of an operation's requester is judged. -/
def holdBackOf (o : CipherOp) (s : State) : State :=
  match o.req with
  | .packet p => holdBack (pkt s p).pipe s
  | _ => s

/-- An operation is asked of the cipher complex: it waits for dispatch. -/
def cipherAsk (o : CipherOp) (s : State) : State :=
  holdBackOf o { s with ciph := { s.ciph with queue := s.ciph.queue ++ [{ o with id := s.ciph.nextId }], nextId := s.ciph.nextId + 1 } }

/-- Blocks of an operation (R99, R395). -/
def CipherOp.blocks (o : CipherOp) : Nat := (o.len + 15) / 16 + (o.aad + 15) / 16

/-- The key of a slot, as a key. -/
def slotKey (s : State) (i : Nat) : Key := (keySlot s i).key.getD {}

/-- The AES key and the IV base of an admitted operation. -/
def opKey (s : State) (o : CipherOp) : List Byte := (slotKey s o.key).keyOf o.mat
def opIv (s : State) (o : CipherOp) : List Byte := (slotKey s o.key).ivBase o.mat

/-- An admitted operation changes. -/
def setOp (id : Nat) (f : CipherOp → CipherOp) (s : State) : State :=
  { s with ciph := { s.ciph with bound := s.ciph.bound.map fun o => if o.id == id then f o else o } }

/-- Each operation of a core sends the blocks that it has left, the operations in their order, while `f` gives the core slots. -/
def drainOps : List CipherOp → (Nat → Nat) → List CipherOp
  | [], _ => []
  | o :: os, f =>
    match o.core with
    | none => o :: drainOps os f
    | some c =>
      let k := min o.left (f c)
      { o with left := o.left - k } :: drainOps os fun d => if d == c then f d - k else f d

/-- The bytes that a packet of ESP is sealed or opened from are whole; those of a record may still arrive (R389). -/
def CipherOp.whole (o : CipherOp) (r : Option TlsRec) : Bool :=
  match r with
  | some r => !o.open_ || r.body.length == r.need
  | none => true

end Sys2Proof.Machine
end

