-- ==== Sys2Proof/Machine/ObjOps.lean ====
section
/-! DEFINITION. Transport objects as the rest of the adapter sees them (chapter 12). -/
namespace Sys2Proof.Machine

/-! ## Objects (R424 to R431) -/

/-- An object. -/
def objOf (s : State) (onum : Nat) : Obj := s.xport.objs.get onum
def hasObj (s : State) (onum : Nat) : Bool := s.xport.objs.has onum

/-- An object that exists changes. -/
def setObj (onum : Nat) (f : Obj → Obj) (s : State) : State :=
  if hasObj s onum then { s with xport := { s.xport with objs := s.xport.objs.upd onum f } } else s

/-- Types that take packets, and the storage-target types (R429). -/
def isRoce (t : Nat) : Bool := t == 0 || t == 1 || t == 4 || t == 5
def isTcp (t : Nat) : Bool := t == 2 || t == 3
def isTarget (t : Nat) : Bool := t == 3 || t == 5 || t == 6

/-- A packet's object fields are right and name an object that takes packets (R427). -/
def objectTakes (s : State) (engine onum : Nat) : Bool :=
  hasObj s onum && onum / 262144 == engine && (isRoce (objOf s onum).type || isTcp (objOf s onum).type)

/-- The account that an object's inbound packets are charged to. -/
def objectAcct (s : State) (onum : Nat) : Nat := (objOf s onum).rxAccount

/-- The object whose send work a host transmit queue carries. -/
def objectOfSq (s : State) (q : Nat) : Option Nat := (s.xport.objs.find? fun o => o.2.type != 7 && o.2.sq == q).map (·.1)

/-- The objects of an instance. -/
def objectsOf (s : State) (iid : Nat) : List Nat := (s.xport.objs.filter fun o => o.2.iid == iid).map (·.1)

/-- An object's packets that wait in its leaf are discarded. -/
def dropFormed (onum : Nat) (s : State) : State := dropLeafIf (kLeaf (objOf s onum).sq) (fun x => x.origin == some onum) s

/-- The connection of a record that is being opened ends. A record that is whole waits for its tag result without it (R417, R420;
`silent`: its writes are discarded with those of the function); the operation of any other ends without a result (log 96). -/
def abandonRecord (silent : Bool) (onum : Nat) (s : State) : State :=
  match (objOf s onum).tcp.opening with
  | none => s
  | some r =>
    let waits := s.ciph.queue.filter fun o => o.id != r.id
    if r.body.length < r.need then
      { s with ciph := { s.ciph with queue := waits, bound := s.ciph.bound.filter fun o => o.id != r.id } }
    else
      { s with ciph := { s.ciph with queue := waits, bound := s.ciph.bound.map fun o =>
        if o.id == r.id then { o with orphan := some ((objOf s onum).iid, silent, r) } else o } }

/-- An object in ERR, with nothing left to do or to report (R455). -/
def Obj.dead (o : Obj) : Obj :=
  { o with state := 5, work := [], ackAt := none, rnrAt := none, part := [], wrLeft := 0, reads := [], inbound := [], capsules := [],
           replies := [], tcp := {} }

/-- The objects of an instance enter ERR, their completions discarded (R455, R482). -/
def errObjectsOf (iid : Nat) (s : State) : State :=
  (objectsOf s iid).foldl (fun s n => setObj n Obj.dead (abandonRecord true n (dropFormed n s))) s

/-- An object is destroyed: its number is held for 2 s (R431). -/
def destroyObject (onum : Nat) (s : State) : State :=
  let s := abandonRecord false onum (dropFormed onum s)
  { s with xport := { s.xport with
    objs := s.xport.objs.del onum, cached := s.xport.cached.filter (· != onum)
    heldNums := s.xport.heldNums ++ [(onum, s.tick + secT 2)] } }

/-- The objects of an instance are destroyed (R528). -/
def destroyObjectsOf (iid : Nat) (s : State) : State := (objectsOf s iid).foldl (fun s n => destroyObject n s) s

/-! ## Work of an instance (R524) -/

/-- A queue belongs to an instance. -/
def queueIn (s : State) (iid q : Nat) : Bool :=
  let i := (fnOf s iid).inst
  i.state != 0 && i.qbase ≤ q && q < i.qbase + i.qcount

/-- TX_PKTS: packets of its transmit queues that have left their leaves. -/
def txPktCount (s : State) (iid : Nat) : Nat :=
  (s.pkts.filter fun q => q.2.src == 1 && queueIn s iid q.2.srcId && (match q.2.place with | .leaf _ => false | _ => true)).length

/-- RX_PKTS: packets that wait for its receive queues. -/
def rxPktCount (s : State) (iid : Nat) : Nat := ((s.deliveries.filter fun d => queueIn s iid d.1).map fun d => d.2.length).sum

/-- XPORT: work that awaits a response, an acknowledgement or a retransmission. -/
def xportCount (s : State) (iid : Nat) : Nat :=
  ((objectsOf s iid).map fun n =>
    ((objOf s n).work.filter fun w => w.formed > 0 && w.fin.isNone).length + (objOf s n).reads.length + bit (!(objOf s n).tcp.out.isEmpty)).sum

/-- The instance that an operation serves. -/
def opIid (s : State) (o : CipherOp) : Option Nat :=
  match o.req with
  | .packet p =>
    match (pkt s p).tx, (pkt s p).charge.rxq with
    | some t, _ => some t.fn
    | none, some q => (ownerOf s q).map (·.1)
    | none, none => none
  | .record n _ => some (objOf s n).iid
  | .unit c _ => some (objOf s (s.store.cmds.get c).onum).iid

/-- CIPH: operations admitted and not released. -/
def ciphCount (s : State) (iid : Nat) : Nat := (s.ciph.bound.filter fun o => opIid s o == some iid).length

/-- The packets that wait for an instance's receive queues are discarded. -/
def discardDelivery (iid : Nat) (s : State) : State :=
  let ps := ((s.deliveries.filter fun d => queueIn s iid d.1).map (·.2)).flatten
  ps.foldl (fun s p => removePkt p s) { s with deliveries := s.deliveries.filter fun d => !queueIn s iid d.1 }

end Sys2Proof.Machine
end

