-- ==== Sys2Proof/Machine/HostOps.lean ====
section
/-! DEFINITION. Host queues, mailboxes and instance resets. -/
namespace Sys2Proof.Machine

/-! ## Host queues (R465 to R475) -/

/-- STATE of HOST_Q_STS (R466, R468). -/
def QSlot.state (q : QSlot) : Nat := if q.stopped then 2 else if q.txEn || q.rxEn || q.cqEn then 1 else 0

/-- A queue of the function may fetch (R475, R482, R523). -/
def mayFetch (s : State) (iid slot : Nat) : Bool :=
  let f := fnOf s iid
  f.bme && f.inst.state == 1 && !domainDown s iid && !(f.slots.get slot).stopped

/-- The next transmit descriptor is fetched, where one is posted, no fetch is under way and the queue's leaf is VALID (R467, R333,
R511). -/
def kickTx (iid slot : Nat) (s : State) : State :=
  let q := (fnOf s iid).slots.get slot
  if q.txEn && mayFetch s iid slot && leafValid s (queueOf s iid slot) && q.txFetched != q.txPi && !awaiting s iid (.txFetch slot) && !q.txReady then
    issueRead iid (.txFetch slot) (q.txBase.toNat + 64 * (q.txFetched.toNat % 2 ^ q.log2Tx.toNat)) 64 s
  else s

/-- The next receive buffer descriptor is fetched. -/
def kickRx (iid slot : Nat) (s : State) : State :=
  let q := (fnOf s iid).slots.get slot
  if q.rxEn && mayFetch s iid slot && q.rxTaken != q.rxPi && !awaiting s iid (.rxFetch slot) && !q.rxReady then
    issueRead iid (.rxFetch slot) (q.rxBase.toNat + 16 * (q.rxTaken.toNat % 2 ^ q.log2Rx.toNat)) 16 s
  else s

/-- The queues of a function fetch what waits for them (R475, R511). -/
def kickFn (iid : Nat) (s : State) : State :=
  ((fnOf s iid).slots.map (·.1)).foldl (fun s k => kickRx iid k (kickTx iid k s)) s

/-- Every queue fetches what waits for it. -/
def kickAll (s : State) : State := (s.fns.map (·.1)).foldl (fun s iid => kickFn iid s) s

/-- A queue enters STOPPED (R475): prefetched packets are discarded and their descriptors not consumed. A receive buffer that was
consumed stays consumed while its entry waits (log 99). -/
def stopQueue (iid slot cause : Nat) (s : State) : State :=
  let s := dropLeaf (queueOf s iid slot) (dropReqs iid (fun k => k == .txFetch slot || k == .rxFetch slot) s)
  setSlot iid slot (fun q => { q with
    stopped := true, cause := BitVec.ofNat 4 cause, txFetched := q.txCi, txReady := false, rxReady := false }) s

/-- More posted than a ring holds (R474). -/
def overrun (pi ci : BitVec 16) (log2 : BitVec 4) : Bool := (pi - ci).toNat > 2 ^ log2.toNat

/-- What a queue's counts ask for is acted on (R474, R475). -/
def actQueue (iid slot : Nat) (s : State) : State :=
  let q := (fnOf s iid).slots.get slot
  if (q.txEn && overrun q.txPi q.txCi q.log2Tx) || (q.rxEn && overrun q.rxPi q.rxCi q.log2Rx)
      || (q.cqEn && overrun q.cqPi q.cqCi q.log2Cq) then stopQueue iid slot 4 s
  else kickRx iid slot (kickTx iid slot s)

/-- ARM is set, and where entries wait to be consumed the vector is raised at once and ARM cleared (R487). -/
def armQueue (iid slot : Nat) (s : State) : State :=
  let q := (fnOf s iid).slots.get slot
  if q.cqPi != q.cqCi then raiseVector iid q.vector.toNat (setSlot iid slot (fun q => { q with arm := false }) s)
  else setSlot iid slot (fun q => { q with arm := true }) s

/-- Doorbells act now: the instance is ACTIVE, its domain up and the queue not STOPPED (R475, R511). -/
def doorbellActs (s : State) (iid slot : Nat) : Bool :=
  (fnOf s iid).inst.state == 1 && !domainDown s iid && !((fnOf s iid).slots.get slot).stopped

/-- A doorbell or register write reaches a queue slot (R465, R507). -/
def slotWritable (s : State) (iid slot : Nat) : Bool := fnExists s iid && slotExists s iid slot

/-- A ring is enabled with a LOG2 size outside 4 to 12 (R466, R474). -/
def badLog2 (n : BitVec 4) : Bool := n.toNat < 4 || n.toNat > 12

/-- A write of HOST_Q_CTL (R466, R468): LOG2 fields of rings that are not enabled, then enables. What was fetched of a ring before it is
enabled anew is discarded (log 99). -/
def writeQCtl (iid slot : Nat) (v : Word) (s : State) : State :=
  if !slotWritable s iid slot then s
  else
    let q := (fnOf s iid).slots.get slot
    let tx := v.getLsbD 31
    let rx := v.getLsbD 30
    let cq := v.getLsbD 29
    let q := if q.txEn then q else { q with log2Tx := v.extractLsb' 12 4 }
    let q := if q.rxEn then q else { q with log2Rx := v.extractLsb' 8 4 }
    let q := if q.cqEn then q else { q with log2Cq := v.extractLsb' 4 4 }
    let riseTx := tx && !q.txEn
    let riseRx := rx && !q.rxEn
    let riseCq := cq && !q.cqEn
    let q := if riseTx then { q with txPi := 0, txCi := 0, txFetched := 0, txReady := false, txOrder := [] } else q
    let q := if riseRx then { q with rxPi := 0, rxCi := 0, rxTaken := 0, rxReady := false } else q
    let q := if riseCq then { q with cqPi := 0, cqCi := 0, arm := false, armHeld := false } else q
    let q := { q with txEn := tx, rxEn := rx, cqEn := cq }
    let s := setSlot iid slot (fun _ => q) s
    let s := if riseTx then dropLeaf (queueOf s iid slot) (dropReqs iid (fun k => k == .txFetch slot) s) else s
    let s := if riseRx then dropReqs iid (fun k => k == .rxFetch slot) s else s
    if (riseTx && badLog2 q.log2Tx) || (riseRx && badLog2 q.log2Rx) || (riseCq && badLog2 q.log2Cq) then
      stopQueue iid slot 4 s
    else s

/-! ## Mailboxes (R512 to R521) -/

/-- The receiver that DEST names (R513). -/
def mboxReceiver (iid dest : Nat) : Option Nat :=
  if isPf iid then (if 1 ≤ dest && dest ≤ 512 then some (iid + dest) else none)
  else if dest == 1 then some (pfOf iid) else none

/-- The receiver's channel for a sender (R512). -/
def mboxChannel (sender : Nat) : Nat := if isPf sender then 1 else fnNum sender

/-- A transmit side of a function changes. -/
def setTx (iid : Nat) (sec : Bool) (g : MboxTx → MboxTx) (s : State) : State :=
  setFn iid (fun f => if sec then { f with secTx := g f.secTx } else { f with tx := g f.tx }) s

/-- A message of a sender ends with a result (R513): GO clears, DONE is set, and TX_IE raises the vector. -/
def endMessage (iid : Nat) (sec : Bool) (result : Nat) (s : State) : State :=
  let s := setTx iid sec (fun t => { t with go := false, result := BitVec.ofNat 4 result, done := true, expire := none, to_ := none }) s
  if (fnOf s iid).txIe then raiseVector iid (fnOf s iid).mboxVec.toNat s else s

/-- A receive channel becomes FULL, and RX_IE raises the vector (R513). -/
def fillChannel (iid chan : Nat) (c : MboxChan) (s : State) : State :=
  let s := setFn iid (fun f => { f with chans := f.chans.put chan c }) s
  if (fnOf s iid).rxIe then raiseVector iid (fnOf s iid).mboxVec.toNat s else s

/-- A message of the trust region is in the secure receive channel, which becomes FULL. -/
def postSecure (iid : Nat) (words : List Word) (s : State) : State :=
  let c : MboxChan := { full := true, valid := true, len := words.length, src := 0xFFFF, words := words }
  let s := setFn iid (fun f => { f with secChan := c }) s
  if (fnOf s iid).rxIe then raiseVector iid (fnOf s iid).mboxVec.toNat s else s

/-- The answers of a port's trust region that still wait change. -/
def setAnswers (iid : Nat) (g : List (List Word) → List (List Word)) (s : State) : State :=
  { s with sec := { s.sec with ports := s.sec.ports.upd (portOf iid) fun p => { p with answers := g p.answers } } }

/-- The trust region answers: at once, or, while an answer before it is unread, after that (R512, R622, log 99). -/
def fillSecure (iid : Nat) (words : List Word) (s : State) : State :=
  if (fnOf s iid).secChan.full then setAnswers iid (· ++ [words]) s else postSecure iid words s

/-- An answer has been read: the next one is posted. -/
def nextAnswer (iid : Nat) (s : State) : State :=
  let s := setFn iid (fun f => { f with secChan := { f.secChan with full := false } }) s
  match (s.sec.ports.get (portOf iid)).answers with
  | [] => s
  | ws :: rest => postSecure iid ws (setAnswers iid (fun _ => rest) s)

/-- A notice of Rhoady (R521). -/
def noticeWords (s : State) (type w5 : Nat) : List Word :=
  let t := s.time.now.full
  [BitVec.ofNat 32 (type * 2 ^ 24 + 0xFFFF), BitVec.ofNat 32 t, BitVec.ofNat 32 (t / 2 ^ 32), BitVec.ofNat 32 (t / 2 ^ 64),
   BitVec.ofNat 32 (t / 2 ^ 96), BitVec.ofNat 32 w5, 0, 0]

/-- Rhoady posts a notice on channel 0, or holds it, up to 8, or drops it (R521). While the firmware is halted it is held. -/
def sendNotice (iid type w5 : Nat) (s : State) : State :=
  let f := fnOf s iid
  let ws := noticeWords s type w5
  if !(f.chans.get 0).full && f.notices.isEmpty && s.fw.ready then
    fillChannel iid 0 { full := true, valid := true, len := 8, src := 0xFFFF, words := ws } s
  else if f.notices.length < 8 then setFn iid (fun f => { f with notices := f.notices ++ [ws] }) s
  else s

/-- Unread messages of a receiver that is reset are discarded (R517); `cause` as R518 codes it. -/
def discardUnread (iid cause : Nat) : List (Nat × MboxChan) → State → State
  | [], s => s
  | (_, c) :: rest, s =>
    if c.full then
      let s := if c.src == 0xFFFF then s else endMessage c.src false 2 s
      discardUnread iid cause rest
        (deliverEvent (pfOf iid) (eventRecord s 0x0202 (some iid) 20
          (fld 255 240 c.src + fld 239 224 iid + fld 223 220 cause)) s)
    else discardUnread iid cause rest s

/-- The mailbox of an instance that is reset (R517). An unread message of the trust region is discarded too, and its SRC_IID named as
SENDER (log 99). -/
def resetMailbox (iid cause : Nat) (s : State) : State :=
  let f := fnOf s iid
  let s := discardUnread iid cause (f.chans ++ [(0x4000, f.secChan)]) s
  let s := if f.tx.go then
      match f.tx.to_ with
      | some r => setFn r (fun g => { g with chans := g.chans.upd (mboxChannel iid) fun c =>
          if c.full then { c with full := false, valid := false } else c }) s
      | none => s
    else s
  let s := if isPf iid then
      { s with sec := { s.sec with ports := s.sec.ports.upd (portOf iid) fun p => { p with request := none, answers := [] } } }
    else s
  setFn iid (fun f => { f with tx := {}, secTx := {}, chans := [], secChan := {}, rxSel := 0, rxIe := false, txIe := false,
                               mboxVec := 0, notices := [] }) s

/-! ## Instances: work, resets (R524, R528, R529) -/

/-- Commands of a function in execution. -/
def cmdCount (s : State) (iid : Nat) : Nat :=
  bit (fnOf s iid).cmd.exec.isSome + bit (fnOf s iid).sec.exec.isSome

/-- The log's ring has room (R534). -/
def DirtyLog.room (d : DirtyLog) : Bool := (d.producer + 2 ^ 32 - d.consumer % 2 ^ 32) % 2 ^ 32 < 2 ^ d.log2

/-- Dirty-page log writes due and not yet issued: the staged pages that the ring has room for (R524, R533). -/
def logDue (f : Fn) : Nat :=
  match f.inst.log with
  | some d => if d.readError then 0 else min d.staged.length (2 ^ d.log2 - (d.producer + 2 ^ 32 - d.consumer % 2 ^ 32) % 2 ^ 32)
  | none => 0

/-- The counts of work in flight (R524): TX_PKTS, RX_PKTS, DMA, CPL, XPORT, CIPH, CMD. -/
def workCounts (s : State) (iid : Nat) : List Nat :=
  let f := fnOf s iid
  let p := s.ports.get (portOf iid)
  [txPktCount s iid, rxPktCount s iid,
   (p.reqs.filter fun r => r.fn == iid).length + (p.waits.filter fun w => w.fn == iid).length + logDue f,
   (f.slots.map fun p => p.2.waiting.length).sum, xportCount s iid, ciphCount s iid, cmdCount s iid]

/-- The counts in RDATA (R525). -/
def packCounts (cs : List Nat) : Nat :=
  match cs with
  | [a, b, c, d, e, f, g] => fld 127 112 (min a 65535) + fld 111 96 (min b 65535) + fld 95 80 (min c 65535)
      + fld 79 64 (min d 65535) + fld 63 48 (min e 65535) + fld 47 32 (min f 65535) + fld 31 16 (min g 65535)
  | _ => 0

/-- No work of an instance remains, its own executing command `own` aside. -/
def noWork (s : State) (iid own : Nat) : Bool := (workCounts s iid).sum ≤ own

/-- Completion entries waiting in a function's queues. -/
def waitingOf (s : State) (iid : Nat) : List CplEntry := ((fnOf s iid).slots.map fun p => p.2.waiting).flatten

/-- The stamp entries and cells that discarded completion entries held are freed (R363, R473). -/
def freeStamps (es : List CplEntry) (s : State) : State :=
  es.foldl (fun s e => freeHeld e (match e.lane with | some n => freeStampEntry n s | none => s)) s

/-- The function's work is discarded as at the loss of bus mastering (R482 steps 1 to 4 and 6). -/
def discardWork (iid : Nat) (s : State) : State :=
  let es := waitingOf s iid
  let s := freeStamps es s
  let s := setPort (portOf iid) (fun p => { p with
    bmeDrop := { pk := wrapAdd 64 p.bmeDrop.pk es.length, by_ := wrapAdd 64 p.bmeDrop.by_ (32 * es.length) } }) s
  let s := dropReqs iid (fun _ => true) s
  let s := dropLeaves iid s
  let s := { s with pkts := s.pkts.mapAll fun _ x =>
    { x with tx := x.tx.map fun t => if t.fn == iid then { t with lost := true } else t } }
  let s := setFn iid (fun f => { f with slots := f.slots.mapAll fun _ q =>
    { q with waiting := [], txOrder := [], txFetched := q.txCi, rxTaken := q.rxCi, txReady := false, rxReady := false } }) s
  errObjectsOf iid s

/-- Every queue of a function enters STOPPED (R482 step 4). -/
def stopAllQueues (iid cause : Nat) (s : State) : State :=
  setFn iid (fun f => { f with slots := f.slots.mapAll fun _ q =>
    if q.state == 0 then q else { q with stopped := true, cause := BitVec.ofNat 4 cause } }) s

/-- A command ring after a function-level reset (R104 to R109, R137). -/
def ringReset : Ring := {}

/-- The BAR0 registers an instance reset returns to reset (R528 step 2). -/
def resetBar0 (f : Fn) : Fn :=
  { f with slots := [], cmd := ringReset, sec := ringReset, msixTable := [], unmasked := [], msixPending := [] }

/-- What is still to be answered on a function's rings is answered nowhere (R137): the command runs to its end and keeps its effect.
IID 0xFFFF names no function (R505). -/
def forgetRings (iid : Nat) (s : State) : State :=
  { s with
    fns := s.fns.mapAll fun _ f =>
      { f with inst := { f.inst with quiesceRings := f.inst.quiesceRings.filter fun r => r.1 != iid } }
    kiln := { s.kiln with asked := s.kiln.asked.map fun a => if a.2.1 == iid then (a.1, 0xFFFF, a.2.2) else a }
    time := { s.time with queue := s.time.queue.map fun q => match q with
      | .inc v f c => .inc v (if f == iid then 0xFFFF else f) c
      | .step v f c => .step v (if f == iid then 0xFFFF else f) c
      | .set v f c => .set v (if f == iid then 0xFFFF else f) c } }

/-- Dirty-page logging stops (R536). -/
def stopLogging (iid : Nat) (s : State) : State :=
  if (fnOf s iid).inst.log.isSome then
    sendNotice iid 0xF3 0 (setFn iid (fun f => { f with inst := { f.inst with log := none } }) s)
  else s

/-- The commands of several rings end with one reply each. -/
def finishRings (rings : List (Nat × Bool)) (status rdata : Nat) (s : State) : State :=
  rings.foldl (fun s r => finishExec r.1 r.2 status rdata s) s

/-- An instance reset (R528) up to its end; `mcause` is the mailbox cause of R518. The instance is left RESETTING. An INST_QUIESCE of
another function's ring that waits for the instance is answered ST_BAD_STATE (log 31). -/
def resetInstance (iid mcause : Nat) (s : State) : State :=
  let s := forgetRings iid s
  let s := finishRings (fnOf s iid).inst.quiesceRings stBadState 0 s
  let s := setFn iid (fun f => { f with inst := { f.inst with state := 4, quiesceAt := none, quiesceRings := [] } }) s
  let s := dropLeaves iid (freeStamps (waitingOf s iid) s)
  let s := discardDelivery iid (dropReqs iid (fun _ => true) s)
  let s := destroyObjectsOf iid (setFn iid resetBar0 s)
  resetMailbox iid mcause (stopLogging iid s)

/-- The end of an instance reset: ACTIVE with its range kept, and the RESET notice (R528, R521). -/
def endReset (iid ncause : Nat) (s : State) : State :=
  sendNotice iid 0xF2 ncause (setFn iid (fun f => { f with inst := { f.inst with state := 1 } }) s)

/-- What a function-level reset returns to reset: BAR0, the MSI-X table and configuration space, the sticky AER status
excepted (R484). The event records it holds are dropped and counted (R124). -/
def resetFunction (f : Fn) : Fn :=
  { (default : Fn) with
    bars := [], flr := f.flr, aer := f.aer, inst := { f.inst with quiesceAt := none, quiesceRings := [] }
    chans := f.chans, tx := f.tx, secTx := f.secTx
    evt := { (default : RecRing) with dropped := satAdd 32 f.evt.dropped f.evt.waiting }
    punt := { (default : RecRing) with dropped := satAdd 32 f.punt.dropped f.punt.held.length,
                                       heldDrop := satAdd 32 f.punt.heldDrop f.punt.held.length } }

/-- The operator session and the SPDM exchange of a port end (R621, R631). -/
def endPortSecurity (h : Nat) (s : State) : State :=
  { s with sec := { s.sec with ports := s.sec.ports.upd h fun p =>
    { p with session := 0, verifying := none, reading := none, spdm := 0, nonce := none } } }

/-- A function is reset with its work discarded first (R484, R529), without ending the instance reset. -/
def resetWhole (iid mcause : Nat) (s : State) : State :=
  let s := discardWork iid s
  let s := resetInstance iid mcause s
  let s := setFn iid resetFunction s
  if isPf iid then endPortSecurity (portOf iid) s else s

/-- The virtual functions of a port that have state. -/
def vfsOf (s : State) (h : Nat) : List Nat := (fnList s).filter fun f => portOf f == h && !isPf f

/-- A virtual function ceases to exist (R529): reset, then ABSENT. The causes of R521 are those of R518 from 3 on, less 1. -/
def endVf (iid mcause : Nat) (s : State) : State :=
  let s := endReset iid (mcause - 1) (resetWhole iid mcause s)
  setFn iid (fun f => { f with aer := [], inst := { f.inst with state := 0, qcount := 0 } }) s

/-- Several virtual functions cease to exist. -/
def endVfs (mcause : Nat) : List Nat → State → State
  | [], s => s
  | v :: vs, s => endVfs mcause vs (endVf v mcause s)

/-- Host link loss (R495). -/
def linkLoss (h : Nat) (perst : Bool) (s : State) : State :=
  let pf := h * 4096
  let present := (fnOf s pf).inst.state != 0
  let count := ((fnList s).filter fun f => portOf f == h && (fnOf s f).inst.state != 0).length
  let s := endVfs 4 (vfsOf s h) (forgetRings pf s)
  let s := resetWhole pf 4 s
  let s := setFn pf (fun f => { f with flr := none, aer := if perst then [] else f.aer }) s
  let s := setPort h (fun p => { p with linkUp := false, perst := perst || p.perst, reqs := [], quar := [], waits := [] }) s
  let s := if present then endReset pf 3 s else setFn pf (fun f => { f with inst := { f.inst with state := 0 } }) s
  deliverEvent 0 (eventRecord s 0x0D01 none 20 (fld 255 253 h + fld 252 252 (bit perst) + fld 251 236 count)) s

/-! ## The safe state (R45) -/

/-- Host ports go into reset: each link that is up is lost (R45, R46, R495). -/
def hostPortsReset (s : State) : State :=
  [0, 1, 2, 3, 4, 5, 6, 7].foldl (fun s h => if (s.ports.get h).linkUp then linkLoss h false s else s) s

/-- Every packet in the adapter is lost; the epoch counts are cleared. -/
def packetsLost (s : State) : State :=
  { s with
    pkts := [], frags := [], holdQ := [], punts := [], deliveries := [], launchHeld := [], reports := []
    ctxs := s.ctxs.mapAll fun _ c => { c with held := [], deadline := none }
    tm := { s.tm with leafQ := [], nodes := s.tm.nodes.mapAll fun _ v => { v with active := [] } }
    ciph := { s.ciph with queue := [], bound := [], heldBack := [] }
    xport := { s.xport with inq := [] }
    fi := s.fi.mapAll fun _ f => { f with held := none, acc := [], fate := .none, txFate := .none }
    lanes := s.lanes.mapAll fun _ l => { l with queues := [], cur := none, rx := none } }

/-- What an uncommitted command had begun is undone (R136). -/
def undoExec (e : Exec) (s : State) : State :=
  let s := { s with time := { s.time with queue := s.time.queue.filter fun q =>
    match q with
    | .inc _ f c => !(f == e.pkt.fn && c == e.pkt.sec)
    | .step _ f c => !(f == e.pkt.fn && c == e.pkt.sec)
    | .set _ f c => !(f == e.pkt.fn && c == e.pkt.sec) } }
  if e.opcode == 0x0202 then
    setFn e.pkt.iid (fun f => { f with inst := { f.inst with
      state := if f.inst.state == 2 then 1 else f.inst.state, quiesceAt := none, quiesceRings := [] } }) s
  else s

/-- The commands in execution whose effects the journal does not hold take none (R46, R136). -/
def undoAll (s : State) : State :=
  (fnList s).foldl (fun s f => [false, true].foldl (fun s c =>
    match (ringOf s f c).exec with
    | some e => if e.committed then s else undoExec e s
    | none => s) s) s

/-- The safe state (R45): lanes squelched, pipelines closed, host ports in reset; slot power unchanged. The regions hold no packet any
more (R44, R46, log 38), and no laser source is enabled while they are in reset (R653). -/
def enterSafe (s : State) : State :=
  let s := kilnHalt (undoAll { s with fw := { s.fw with ready := false } })
  let s := packetsLost (hostPortsReset (lanesSquelch s))
  { s with pwr := { s.pwr with
    safe := true, hxReleased := false, hxReady := false, released := false
    lasers := s.pwr.lasers.mapAll fun _ l => { l with en := false } } }

end Sys2Proof.Machine
end

