-- ==== Sys2Proof/Machine/KilnPolicy.lean ====
section
/-! DEFINITION. What a lasting fault of a table bank, a buffer slice or another block does (R585 to R588). -/
namespace Sys2Proof.Machine

/-! ## Events (R607) -/

/-- KILN_PASS and KILN_FAIL; `fail`: the address and pass of the first failure. -/
def postKiln (slice : Nat) (targeted startup hold : Bool) (fail : Option (Nat × Nat)) (s : State) : State :=
  let base := fld 255 240 slice + fld 239 239 (bit targeted) + fld 238 238 (bit startup)
  match fail with
  | none => postAll 0x0901 23 base s
  | some (a, p) => postAll 0x0902 23 (base + fld 237 237 (bit hold) + fld 231 200 a + fld 199 196 p) s

/-- BANK_RETIRED. -/
def postBankRetired (slice logical : Nat) (s : State) : State := postAll 0x0903 23 (fld 255 240 slice + fld 239 236 logical) s

/-- BLOCK_RETIRED. -/
def postBlockRetired (slice : Nat) (s : State) : State := postAll 0x0904 23 (fld 255 240 slice) s

/-! ## The policy (R587, R588) -/

/-- The policy of a block's class is RETIRE; HBM[0] and HP[0] are always held (R588, R593). -/
def retires (s : State) (slice : Nat) : Bool :=
  let c := slice / 4096
  !(slice == sliceId 7 0) && !(slice == sliceId 9 0) && (if s.kiln.policy.has c then s.kiln.policy.get c else c != 7)

/-- A logical bank or buffer slice is retired (R585). -/
def retireLogical (slice b : Nat) (s : State) : State :=
  let s := setRot slice (fun r => { r with lost := if r.lost.contains b then r.lost else b :: r.lost }) s
  postBlockRetired (siblingOf slice b) { s with kiln := { s.kiln with blocks := siblingOf slice b :: s.kiln.blocks } }

/-- The adapter is held by a block (R587): the safe state, with HX released. -/
def holdBy (slice : Nat) (service : Bool) (s : State) : State :=
  let s := enterSafe s
  { s with kiln := { s.kiln with holds := s.kiln.holds ++ [slice], holdService := service }
           pwr := { s.pwr with hxReleased := true, hxReady := true } }

/-- A lasting fault of a logical bank or buffer slice. -/
def lastingLogical (slice b : Nat) (service : Bool) (s : State) : State :=
  if retires s slice then retireLogical slice b s else holdBy (siblingOf slice b) service s

/-- The objects of a retired transport engine, or of a retired stack's, are lost (R588). -/
def loseEngine (e : Nat) (s : State) : State :=
  ((s.xport.objs.map (·.1)).filter fun n => n / 262144 == e).foldl (fun s n => destroyObject n s) s

/-- What RETIRE of a block does beyond making it unusable (R588). -/
def retireEffect (slice : Nat) (s : State) : State :=
  let i := slice % 4096
  match slice / 4096 with
  | 4 => (List.range 64).foldl (fun s j => setLane (64 * i + j) (fun l => { l with state := 0 }) (laneDown (64 * i + j) 1 s)) s
  | 8 => (List.range 64).foldl (fun s j => setLane (64 * i + j) (fun l => { l with state := 0 }) (laneDown (64 * i + j) 1 s)) s
  | 6 => loseEngine i s
  | 7 => loseEngine i s
  | 9 => if (s.ports.get i).linkUp then linkLoss i false s else s
  | 10 => { s with store := { s.store with ports := s.store.ports.upd i fun p => { p with powerOn := false, linkUp := false, ready := false } } }
  | _ => s

/-- A block is retired (R588). -/
def retireBlock (slice : Nat) (s : State) : State :=
  postBlockRetired slice (retireEffect slice { s with kiln := { s.kiln with blocks := slice :: s.kiln.blocks } })

/-- A lasting fault of a block of classes 2 to 10. -/
def lastingBlock (slice : Nat) (service : Bool) (s : State) : State :=
  if retires s slice then retireBlock slice s else holdBy slice service s

/-! ## Rows (R583, R585) -/

/-- The rows of a logical bank of a pipeline, or one of them, that hold a failing word are rewritten: their entries from the firmware
copy with HIT 1, and counter entries that fail with 0 (R583, R585). -/
def mendIn (k b : Nat) (row : Option Nat) (x : SetSlot) : SetSlot :=
  (x.bad.filter fun e => e.1 / 2 ^ 40 == k).foldl (fun x e =>
    match tableOf x k (e.1 / 2 ^ 32 % 256) with
    | some d =>
      let r := e.1 % 2 ^ 32
      let br := bankRow d r
      if tKind d == 6 || br.1 != b || !(row.map (· == br.2)).getD true then x
      else { x with
        bad := x.bad.del e.1
        entries := x.entries.mapAll fun key t =>
          if key / 2 ^ 32 == e.1 / 2 ^ 32 && key % 2 ^ 32 / tPerRow d == r then { t with hit := true } else t
        counters := (List.range (tPerRow d)).foldl (fun m j =>
          let h := r * tPerRow d + j
          if tKind d == 4 && entryWords d h e.2 != 0 then m.put (tKey k (tId d) h) {} else m) x.counters }
    | none => x) x

/-- The same in both sets. -/
def mendBank (k b : Nat) (row : Option Nat) (s : State) : State :=
  { s with sets := { s.sets with a := mendIn k b row s.sets.a, b := mendIn k b row s.sets.b } }

/-- An uncorrectable error in a row of a logical bank of PIPE[k] (R570, R582, R585, R586). -/
def bankError (k b row : Nat) (s : State) : State :=
  let s := kilnErr 0 1 s
  let rep := 17 * k
  let r := rotOf s rep
  let p := r.physOf b
  if r.lost.contains b then s
  else if r.spare.isNone && r.stage != 3 then
    let again := r.errors.any fun e => e.1 == b * 4096 + row && decide (s.tick < e.2)
    if again then lastingLogical rep b true s
    else mendBank k b (some row) (setRot rep (fun r => { r with
      errors := (b * 4096 + row, s.tick + secT 1) :: r.errors.filter fun e => decide (s.tick < e.2) }) s)
  else
    match r.move with
    | some m =>
      if m.phys == p && r.stage == 2 then setRot rep (fun r => { r with move := some { m with targeted := true } }) s
      else queueTest (rep + p) s
    | none => queueTest (rep + p) s

end Sys2Proof.Machine
end

