-- ==== Sys2Proof/Machine/Pipe2.lean ====
section
/-! DEFINITION. Admission, deparser, dispositions, lookups and the walk of a pass. -/
namespace Sys2Proof.Machine

/-! ## Admission (R334) -/

/-- Where a packet is bound: a lane's port-class, a host receive queue with its account, or an account alone. -/
inductive Bound where
  | egress (op : Nat)
  | rxq (q acct : Nat)
  | account (acct : Nat)
  deriving DecidableEq, Repr

/-- The limit of a receive account (R330). -/
def rxLimit (x : SetSlot) (acct : Nat) : Nat :=
  if acct == 24 then storeRxLimit x else bits 107 88 (hostCarve x (acct - 16))

/-- Ingress class of a frame (R334): its SFH CLASS, the class of its VLAN priority, or 0. -/
def ingressClass (s : State) (x : Pkt) : Nat :=
  match x.sfh0 with
  | some h => bits 66 64 h
  | none =>
    let t := be16 x.raw 12
    if t == 0x8100 || t == 0x88A8 || t == 0x9100 then pcpMap (activeSet s) x.srcId (be16 x.raw 14 / 8192) else 0

/-- Ingress port-class of a lane frame. -/
def ingressPc (s : State) (x : Pkt) : Nat := 8 * portOfLane (activeSet s) x.srcId + ingressClass s x

/-- R334 for a packet of `n` cells: its charge, or the block and index that count its drop. -/
def admission (s : State) (x : Pkt) (b : Bound) (n : Nat) : Except (Nat × Nat) Charge :=
  let set := activeSet s
  let ip := ingressPc s x
  let base : Charge := match b with
    | .egress op => { x.charge with use := some 0, cells := n, acct := none, ip := some ip, op := some op, rxq := none }
    | .rxq q a => { x.charge with use := some 1, cells := n, acct := some a, ip := some ip, op := none, rxq := some q }
    | .account a => { x.charge with use := some 1, cells := n, acct := some a, ip := some ip, op := none, rxq := none }
  if x.src != 0 then .ok (match b with
    | .egress op => { x.charge with op := some op }
    | .rxq q _ => { x.charge with rxq := some q }
    | .account _ => x.charge)
  else if pfcClass set x.srcId (ip % 8) then
    if ingressOf s ip < xoffCells set ip && useFree s (base.use.getD 0) ≥ n then .ok base
    else if hdrmHeld s ip + n ≤ hdrmCells set ip && useFree s 3 ≥ n then .ok { base with use := some 3 }
    else .error (0xFE01, ip)
  else
    match b with
    | .egress op =>
      if egrHeld s op + n ≤ egrMin set op then .ok base
      else if freeShared s ≥ n && egrHeld s op + n ≤ egrMin set op + alphaOf (egrAlpha set op) (freeShared s) then .ok base
      else .error (0xFE00, op)
    | .rxq q a =>
      let lq := alphaOf (bits 87 85 (hostCarve set (a - 16))) (rxLimit set a - acctHeld s a)
      if acctHeld s a + n ≤ rxLimit set a && rxqHeld s q + n ≤ lq then .ok base else .error (0xFE03, q)
    | .account a => if acctHeld s a + n ≤ rxLimit set a then .ok base else .error (0xFE04, a - 16)

/-- A packet is admitted and goes on, or is dropped and counted: a frame that still arrives at its end (R175). -/
def admitThen (p : Nat) (b : Bound) (n : Nat) (go : State → State) (s : State) : State :=
  match admission s (pkt s p) b n with
  | .ok c => go (chargePkt p c s)
  | .error (block, i) =>
    if (pkt s p).arriving then setPkt p (fun x => { x with place := .frameEnd, verdict := .refused block i }) s
    else dropPkt p (countBlock block i (pktLen (pkt s p)) s)

/-! ## Deparser (R287, R290, R291) -/

/-- A header instance is valid: recorded in this pass and not made invalid. -/
def instValid (x : Pkt) (i : Nat) : Bool := x.insts.has i && !x.popped.contains i

/-- Bytes with two of them replaced. -/
def put16 (bs : List Byte) (off v : Nat) : List Byte := bs.take off ++ bytesBE 2 v ++ bs.drop (off + 2)

/-- An IPv4 header with its checksum computed. -/
def ipv4Sum (bs : List Byte) (off len : Nat) : List Byte :=
  let z := put16 bs (off + 10) 0
  put16 z (off + 10) (0xFFFF - onesSum ((z.drop off).take len))

/-- Checksums of the parsed IPv4 instances that were changed (R290). -/
def fixParsed (d : List Byte) (x : Pkt) : List Byte :=
  x.insts.foldl (fun bs i => if x.dirty.contains i.1 && hdrClass d i.1 == 3 && instValid x i.1 then ipv4Sum bs i.2.1 i.2.2 else bs) x.bytes

/-- Insertions at a place, the last executed first. -/
def insertsAt (x : Pkt) (anchor : Nat) : List Insert := (x.inserts.filter fun i => i.anchor == anchor).reverse

/-- The bytes of the packet from offset `i` on, with insertions before the instances that start there; `n` bytes are left. -/
def emitFrom (x : Pkt) (i : Nat) : List Byte → List Insert
  | [] => (x.insts.filter fun e => e.2.1 == i).flatMap fun e => insertsAt x e.1
  | b :: bs =>
    let here := (x.insts.filter fun e => e.2.1 == i).flatMap fun e => insertsAt x e.1
    let out := i < x.cut || x.insts.any fun e => x.popped.contains e.1 && e.2.1 ≤ i && i < e.2.1 + e.2.2
    here ++ (if out then [] else [{ anchor := 0xFE, bytes := [b] }]) ++ emitFrom x (i + 1) bs

/-- Fix-ups of a templated header at `off` of the emitted bytes, whose final end is `total` (R290). -/
def fixHeader (bs : List Byte) (cls len off total : Nat) : List Byte :=
  if cls == 3 then ipv4Sum (put16 bs (off + 2) (total - off)) off len
  else if cls == 4 then put16 bs (off + 4) (total - off - 40)
  else if cls == 5 then put16 (put16 bs (off + 4) (total - off)) (off + 6) 0
  else bs

/-- The fix-ups of the headers of one insertion. -/
def fixHeaders (total : Nat) : List (Nat × Nat) → Nat → List Byte → List Byte
  | [], _, bs => bs
  | (c, n) :: hs, off, bs => fixHeaders total hs (off + n) (fixHeader bs c n off total)

/-- The fix-ups of every insertion among the pieces. -/
def fixPieces (total : Nat) : List Insert → Nat → List Byte → List Byte
  | [], _, bs => bs
  | i :: is, off, bs => fixPieces total is (off + i.bytes.length) (fixHeaders total i.hdrs off bs)

/-- Tags after the source address, up to `n` of them, are removed with the EtherType that follows (R290). -/
def stripTags : Nat → List Byte → List Byte
  | 0, bs => bs.drop 2
  | n + 1, bs => if be16 bs 0 == 0x8100 || be16 bs 0 == 0x88A8 || be16 bs 0 == 0x9100 then stripTags n (bs.drop 4) else bs.drop 2

/-- DISP and the metadata of a packet. -/
def md (x : Pkt) (i : Nat) : Nat := x.conts.get (0x80 + i)
def disp (x : Pkt) : Nat := bits 3 0 (md x 14)

/-- The SFH that origination writes (R188), before SEQ. -/
def originSfh (s : State) (x : Pkt) (plen : Nat) : Nat :=
  let set := setFor s x.epoch
  let ps := bits 11 0 (md x 15)
  fld 125 117 (bits 31 23 (md x 16)) + fld 116 108 s.peal.node + fld 107 96 ps + fld 71 71 x.epoch + fld 70 67 (pathHops set ps)
    + fld 66 64 (bits 22 20 (md x 16)) + fld 63 63 (pathReord set ps) + fld 62 62 (bits 1 1 (md x 21)) + fld 59 46 plen
    + fld 31 16 (bits 15 0 (md x 16)) + fld 15 0 (bits 31 16 (md x 17))

/-- The emitted bytes of a packet (R290), or none where origination lacks its Ethernet header. A transit frame's HOPS are lowered
once, by the pass that ends its way through the pipelines (R216). -/
def deparse (s : State) (x : Pkt) : Option (List Byte) :=
  let d := ap (setFor s x.epoch) x.pipe
  let core := (fixParsed d x).take x.fend
  let pieces := insertsAt x 0xFF ++ emitFrom x 0 core
  let body := (pieces.map fun i => i.bytes).flatten
  let body := fixPieces body.length pieces 0 body
  let pad := if bits 0 0 (md x 21) == 1 then x.bytes.drop x.fend else []
  if x.transit then
    if hasSfh body then
      let h := sfh body
      let h := setFld 71 71 x.epoch (if disp x == 7 then h else setFld 70 67 (bits 70 67 h - 1) h)
      some (withSfh body (if bits 1 1 (md x 21) == 1 then setFld 62 62 1 h else h) ++ pad)
    else some (body ++ pad)
  else if disp x == 2 then
    if body.length < 14 then none
    else
      let rest := stripTags body.length (body.drop 12)
      some (body.take 12 ++ [0x88#8, 0xB5#8] ++ bytesBE 16 (originSfh s x rest.length) ++ rest ++ pad)
  else if hasSfh body && bits 1 1 (md x 21) == 1 then some (withSfh body (setFld 62 62 1 (sfh body)) ++ pad)
  else some (body ++ pad)

/-! ## Dispositions (R265) -/

/-- The transmit class of a frame (R184): its SFH CLASS, or the class its action names. -/
def txClass (x : Pkt) : Nat := if hasSfh x.bytes then bits 66 64 (sfh x.bytes) else bits 22 20 (md x 16)

/-- A packet is dropped with an action fault (R194, R230, R415). -/
def faultDrop (p : Nat) (s : State) : State := dropPkt p (count .actionFault (pkt s p).pipe s)

/-- Next Header of a header class (R443). -/
def espNext (c : Nat) : Option Nat :=
  if c == 3 then some 4 else if c == 4 then some 41 else if c == 1 then some 143 else if c == 6 then some 6
  else if c == 5 then some 17 else if c == 7 then some 47 else if c == 8 then some 137 else none

/-- Padding bytes of a sealed ESP payload (R443). -/
def espPad (n : Nat) : Nat := (4 - (n + 2) % 4) % 4

/-- The packet would need one more pass (R26, R29): it waits for a slot, or is dropped, counted and punted. -/
def anotherPass (p stage : Nat) (s : State) : State :=
  let x := pkt s p
  if x.pass ≥ 4 then puntPkt p 0x0313 stage (x.last.getD 0) x.stop (count .recircLimit x.pipe s)
  else setPkt p (fun x => { x with place := .slot }) s

/-- Where a host-bound packet is bound: DISP HOST or TRANSPORT. -/
def boundOf (s : State) (x : Pkt) : Bound :=
  if disp x == 3 then
    let q := bits 15 0 (md x 15)
    match ownerOf s q with
    | some (fn, _) => .rxq q (16 + portOf fn)
    | none => .rxq q 16
  else .account (objectAcct s (bits 29 0 (md x 15)))

/-- Why a host-bound packet cannot be taken: its instance admits nothing (R523), or its object fields are wrong (R427); the
counter block and index that count it. -/
def notTaken (s : State) (x : Pkt) : Option (Nat × Nat) :=
  if disp x == 3 then
    let q := bits 15 0 (md x 15)
    match ownerOf s q with
    | some (fn, _) => if (fnOf s fn).inst.state == 1 then none else some (0xFE03, q)
    | none => some (0xFE03, q)
  else if disp x == 4 then
    let n := bits 29 0 (md x 15)
    if !objectTakes s (bits 31 30 (md x 15)) n then some (0xFC00, bits 31 30 (md x 15))
    else if (fnOf s (objOf s n).iid).inst.state == 1 then none
    else some (0xFE04, objectAcct s n - 16)
  else none

/-- Where an ESP header lies in the bytes that a pass emits (R442): from it to the frame end, from the header after it, that
header's class, and the bytes past the frame end. -/
def espPlace (s : State) (x : Pkt) : Option (Nat × Nat × Nat × Nat) :=
  let i := bits 25 20 (md x 18)
  let d := ap (setFor s x.epoch) x.pipe
  let core := (fixParsed d x).take x.fend
  let pad := if bits 0 0 (md x 21) == 1 then x.bytes.length - x.fend else 0
  let tail (o : Nat) : Nat :=
    ((emitFrom x o (core.drop o)).map fun j => j.bytes.length).sum
      - (((x.insts.filter fun e => e.2.1 == o).flatMap fun e => insertsAt x e.1).map fun j => j.bytes.length).sum
  if !instValid x i then none
  else
    let o := (x.insts.get i).1 + (x.insts.get i).2
    let rest := x.insts.filter fun e => instValid x e.1 && e.2.1 ≥ o
    match rest.find? fun e => rest.all fun f => e.2.1 ≤ f.2.1 with
    | some e => some (tail (x.insts.get i).1, tail e.2.1, hdrClass d e.1, pad)
    | none => some (tail (x.insts.get i).1, 0, 0, pad)

/-- A packet that has passed the cipher complex, or does not use it, reaches its place. -/
def settle (p : Nat) (s : State) : State :=
  let x := pkt s p
  let d := disp x
  if d == 1 then
    let n := bits 9 0 (md x 15)
    let op := 8 * portOfLane (activeSet s) n + txClass x
    if (lane s n).state != 2 && (lane s n).state != 3 then flushFrame n p s
    else admitThen p (.egress op) (cellsOf (x.bytes.length + 4)) (fun s => enqueue p n (txClass x) (fragFate x 0 0 s)) s
  else if d == 2 then setPkt p (fun x => { x with place := .spray }) s
  else if d == 3 then
    let q := bits 15 0 (md x 15)
    { setPkt p (fun x => { x with place := .delivery q }) (fragFate x 0 0 s) with
      deliveries := s.deliveries.upd q (· ++ [p]) }
  else
    let s := setPkt p (fun x => { x with place := .engine }) (fragFate x 0 0 s)
    { s with xport := { s.xport with inq := s.xport.inq ++ [p] } }

/-- The ESP operation of a packet (R442 to R444): the sealed payload with its trailer, or the ciphertext of an opened one. A packet
that is no ESP packet it can be is dropped with an action fault. -/
def askEsp (p : Nat) (s : State) : State :=
  let x := pkt s p
  let open_ := bits 30 30 (md x 18) == 1
  let op : CipherOp := { req := .packet p, key := bits 19 0 (md x 18), open_ := open_, aad := 12 }
  match x.esp with
  | none => faultDrop p s
  | some (e, n, c, _) =>
    if open_ then
      if e < 34 then faultDrop p s
      else cipherAsk { op with len := e - 32 } (setPkt p (fun x => { x with place := .cipherQ }) s)
    else if e != n + 16 || (espNext c).isNone then faultDrop p s
    else cipherAsk { op with len := n + espPad n + 2 } (setPkt p (fun x => { x with place := .cipherQ }) s)

/-- The last pass is over and order restored: admission (R334), the cipher complex (R415), then its place. -/
def onward (p : Nat) (s : State) : State :=
  let x := pkt s p
  let d := disp x
  let ciph := bits 31 31 (md x 18) == 1
  if ciph && (x.transit || bits 29 28 (md x 18) != 0) then faultDrop p s
  else
    let go (s : State) : State :=
      if ciph && !x.ciphered then askEsp p s else settle p s
    match notTaken s x with
    | some (block, i) => dropPkt p (countBlock block i (pktLen x) s)
    | none => if d == 3 || d == 4 then admitThen p (boundOf s x) (cellsOf (pktLen x)) go s else go s

/-- The frame is one that its destination reorders (R187, R206). -/
def needsOrder (s : State) (x : Pkt) : Bool :=
  !x.ordered && match x.sfh0 with
    | some h => !x.transit && bits 125 117 h == s.peal.node && bits 63 63 h == 1
    | none => false

/-- Recirculation (R26, R29, R230). -/
def recirculate (p : Nat) (s : State) : State :=
  anotherPass p 25 (setPkt p (fun x => { x with start := some (bits 7 0 (md x 20), bits 17 8 (md x 20)) }) s)

/-- What the deparser drops with an action fault: a frame for a path set that is not VALID (R194), a recirculation to what is no
node (R230), and a transit frame for a host or a transport engine, which it never passes through (R30, log 91). -/
def deparseFault (s : State) (x : Pkt) : Bool :=
  let d := disp x
  (d == 2 && !pathValid (setFor s x.epoch) (bits 11 0 (md x 15))) || (d == 7 && !nodeOk (graphOf s x) (bits 7 0 (md x 20)))
    || (x.transit && (d == 3 || d == 4))

/-- The ICRC or checksum of a packet that a transport engine formed, whose last `n` bytes are the engine's: generated over the IP
header that the set has put before it (R433, R437, log 97). -/
def sealTransport (roce : Bool) (n : Nat) (bs : List Byte) : List Byte :=
  let off := bs.length - n
  match ipBefore bs (if roce then off - 8 else off) (if roce then 17 else 6) with
  | none => bs
  | some h =>
    if roce then bs.take (bs.length - 4) ++ icrcOf bs h off (n - 4)
    else
      let z := put16 bs (off + 16) 0
      put16 z (off + 16) (0xFFFF - tcpSum z h off n)

/-- A packet of a transport engine leaves its last pass with its ICRC or checksum. -/
def generateCheck (s : State) (x : Pkt) (bs : List Byte) : List Byte :=
  match x.origin with
  | none => bs
  | some n =>
    if disp x == 7 then bs else sealTransport (isRoce (objOf s n).type) (if x.pass == 0 then x.raw.length else x.rxLen) bs

/-- A packet's bytes as it leaves the deparser are longer or shorter than R291 allows. -/
def badLength (bs : List Byte) : Bool := bs.length + 4 > 9216 || bs.length < 14

/-- A packet whose pass is over and whose order is restored carries out its disposition. -/
def carryOut (p : Nat) (s : State) : State := if disp (pkt s p) == 7 then recirculate p s else onward p s

/-- The disposition in force when the packet leaves the deparser (R265, R266, R291). -/
def endPass (p : Nat) (s : State) : State :=
  let x := pkt s p
  let d := disp x
  if d == 0 || d ≥ 8 then dropPkt p (count .nodispDrop x.pipe s)
  else if d == 5 then dropPkt p (count .actionDrop x.pipe s)
  else if d == 6 then
    puntPkt p (if x.why == 1 then 0x0314 else if x.why == 2 then 0x0303 else 0x0315) (bits 15 8 (md x 14)) (x.last.getD 0) x.stop s
  else if deparseFault s x then faultDrop p s
  else
    match deparse s x with
    | none => dropPkt p (count .mtuDrop x.pipe s)
    | some bs =>
      if badLength bs then dropPkt p (count .mtuDrop x.pipe s)
      else
        let e := if bits 31 31 (md x 18) == 1 then espPlace s x else none
        let s := setPkt p (fun x => { x with bytes := generateCheck s x bs, esp := e }) s
        let s := if x.src == 0 then s else chargePkt p { x.charge with cells := cellsOf (bs.length + 4) } s
        if needsOrder s (pkt s p) then setPkt p (fun x => { x with place := .reorder }) s else carryOut p s

/-- A pass is over: at once, or, for a frame that still arrives, at its end; a transit frame of SPRAY goes to its lane (R217). -/
def passOver (p : Nat) (s : State) : State :=
  let x := pkt s p
  if !x.arriving then endPass p s
  else if x.transit && disp x == 2 && !deparseFault s x && bits 31 31 (md x 18) == 0 then
    setPkt p (fun x => { x with place := .spray, verdict := .pass }) s
  else setPkt p (fun x => { x with place := .frameEnd, verdict := .pass }) s

/-! ## Lookups (R272 to R279) -/

/-- The key of a descriptor, from the containers as they stand (R275). -/
def buildKey (d : Nat) (m : SMap Nat) : List Byte :=
  (((tKeySel d).takeWhile (· != 0xFF)).flatMap fun c => bytesBE 4 (m.get c)).take (tKeyWidth d)

/-- How a lookup ends. -/
inductive Found where
  | hit (handle : Nat)
  | miss
  | parity
  deriving DecidableEq, Repr

/-- The rows that a probe of `n` rows reads from `home`, in order (R276). -/
def probeRows (base home rows n : Nat) : List Nat :=
  if rows == 0 then [] else (List.range n).map fun i => base + (home + i) % rows

/-- The handles of a table's row, in slot order. -/
def rowHandles (d r : Nat) : List Nat := (List.range (tPerRow d)).map fun j => r * tPerRow d + j

/-- A handle lies in a lost logical bank of its pipeline (R585). -/
def handleLost (lost : List Nat) (d h : Nat) : Bool := tKind d != 6 && lost.contains (bankRow d (h / tPerRow d)).1

/-- KEY_HASH of R276. -/
def keyHash (d : Nat) (key : List Byte) : Nat := crc32c (tSeedHi d) key * 2 ^ 32 + crc32c (tSeedLo d) key

/-- A key masked to its first `n` bits. -/
def maskKey (key : List Byte) (n : Nat) : List Byte :=
  bytesBE key.length (ofBytesBE key / 2 ^ (8 * key.length - n) * 2 ^ (8 * key.length - n))

/-- The key that a (sub-)table is probed for (R277). -/
def subKey (sub : Option Nat × Nat × Nat) (key : List Byte) : List Byte := match sub.1 with | some n => maskKey key n | none => key

/-- The rows that a (sub-)table's probe reads for a key (R276). -/
def subRows (d : Nat) (sub : Option Nat × Nat × Nat) (key : List Byte) : List Nat :=
  probeRows (sub.2.1 / tPerRow d) (if sub.2.2 == 0 then 0 else crc32c (tSeedLo d) (subKey sub key) % sub.2.2) sub.2.2 (tProbe d)

/-- A hash lookup in one (sub-)table (R276): every row of the probe is read, and an entry with a parity error, VALID or not, or in a
lost bank, is seen as one. -/
def hashLookup (x : SetSlot) (lost : List Nat) (inst d : Nat) (sub : Option Nat × Nat × Nat) (key : List Byte) : Found :=
  let hs := (subRows d sub key).flatMap (rowHandles d)
  let err (h : Nat) : Bool := handleLost lost d h || entryBad x inst d h
  match hs.find? fun h => !err h && x.entries.has (tKey inst (tId d) h) && (x.entries.get (tKey inst (tId d) h)).key == subKey sub key with
  | some h => .hit h
  | none => if hs.any err then .parity else .miss

/-- An LPM lookup over the sub-tables, longest first (R277): the result, and the length that gave it: that of the hit, that of the
longest parity miss, or the shortest. `seen`: the length of a parity miss so far. -/
def lpmLookup (x : SetSlot) (lost : List Nat) (inst d : Nat) (key : List Byte) : List (Option Nat × Nat × Nat) → Option Nat → Found × Nat
  | [], some n => (.parity, n)
  | [], none => (.miss, ((tLpm d).getLast?).getD 0)
  | sub :: subs, seen =>
    match hashLookup x lost inst d sub key, seen with
    | .hit h, none => (.hit h, sub.1.getD 0)
    | .hit _, some n => (.parity, n)
    | .parity, none => lpmLookup x lost inst d key subs sub.1
    | _, seen => lpmLookup x lost inst d key subs seen

/-- A lookup of any kind: its end, and the KEY_HASH it leaves (R277). -/
def lookup (x : SetSlot) (lost : List Nat) (inst d : Nat) (key : List Byte) : Found × Nat :=
  if tKind d == 1 then
    let h := ofBytesBE key
    (if h ≥ tEntries d then .miss
     else if handleLost lost d h || entryBad x inst d h then .parity
     else if x.entries.has (tKey inst (tId d) h) then .hit h else .miss, h)
  else if tKind d == 3 then
    let r := lpmLookup x lost inst d key (tSubs d) none
    (r.1, keyHash d (maskKey key r.2))
  else (hashLookup x lost inst d (none, 0, tRows d) key, keyHash d key)

/-! ## Parity errors (R294, R295) -/

/-- The rows that a lookup reads with a parity error, each once, with their failing words. -/
def badRows (x : SetSlot) (inst d : Nat) (key : List Byte) : List (Nat × Nat) :=
  let rows :=
    if tKind d == 1 then (if ofBytesBE key < tEntries d && entryBad x inst d (ofBytesBE key) then [ofBytesBE key / tPerRow d] else [])
    else ((tSubs d).flatMap fun sub => subRows d sub key).eraseDups
  (rows.map fun r => (r, rowBad x inst d r)).filter fun e => e.2 != 0

/-- A row read with a parity error is counted and reported, and its bank put up for test (R294, R570). -/
def rowError (inst d r words : Nat) (s : State) : State :=
  if tKind d == 6 then
    let a := tHbmBase d + 256 * r
    kilnErr 4 1 (postParity (tId d) 0xFF (a / 0xC00000000) 0 words a 31 s)
  else
    let br := bankRow d r
    if bankLost s inst br.1 then s else bankError inst br.1 br.2 (postParity (tId d) inst br.1 br.2 words 0 (physBank s inst br.1) s)

/-- Several rows. -/
def rowErrors (inst d : Nat) : List (Nat × Nat) → State → State
  | [], s => s
  | e :: es, s => rowErrors inst d es (rowError inst d e.1 e.2 s)

/-- A packet counts in a counter entry; one that is read with a parity error is rewritten as 0 first, and reported (R295). -/
def countIn (p table d i : Nat) (s : State) : State :=
  let x := pkt s p
  let w := rowBad (setFor s x.epoch) x.pipe d (i / tPerRow d)
  let s := if entryWords d i w == 0 then s
    else rowError x.pipe d (i / tPerRow d) w
      (updSet x.epoch (fun y => clearBad x.pipe d i { y with counters := y.counters.put (tKey x.pipe table i) {} }) s)
  doEffect p (.count x.epoch x.pipe table i x.raw.length) s

/-- The instructions of an action with its data (R268). -/
def actionWork (x : SetSlot) (k a stage : Nat) (data : List Byte) (miss : Bool) : List Work :=
  (actionWords (ap x k) a).map fun w => { word := w, data := data, stage := stage, miss := miss }

/-- What a lookup that has ended gives its unit to run, and its side effects (R278). `d` is the unit's descriptor, `t` that of
the table read (another for HBM_REF). -/
def useResult (p d t inst stage : Nat) (f : Found) (hash : Nat) (s : State) : State :=
  let x := pkt s p
  let set := setFor s x.epoch
  let s := setPkt p (fun x => { x with lastTable := tId d, lastHash := hash }) s
  match f with
  | .hit h =>
    let e := set.entries.get (tKey inst (tId t) h)
    let s := doEffect p (.hit x.epoch inst (tId t) h) s
    let s := if tCount d then
        (match tableOf set x.pipe (tCounter d) with
         | some c => if h < tEntries c then countIn p (tCounter d) c h s
                     else doEffect p (.pipeCount 0 x.pipe) s
         | none => doEffect p (.pipeCount 0 x.pipe) s)
      else s
    setPkt p (fun x => { x with work := x.work ++ actionWork set x.pipe e.action stage e.data false }) s
  | .miss => setPkt p (fun x => { x with work := x.work ++ actionWork set x.pipe (tMiss d) stage (tMissData d) true }) s
  | .parity =>
    let s := doEffect p (.pipeCount 2 x.pipe) s
    if tParityPunt d then setPkt p (fun x => { x with work := x.work ++ [{ word := 0x3F * 2 ^ 58, stage := stage }] }) s
    else setPkt p (fun x => { x with work := x.work ++ actionWork set x.pipe (tMiss d) stage (tMissData d) true }) s

/-- A unit of a stage looks its table up (R267), with the containers `m` as the stage began, and every row read with a parity error is
reported; an HBM_REF takes its read's result. `bad`: rows of HBM reads that ended in an uncorrectable error: the unit, the row's place in
the probe, and its failing words (R279). -/
def lookUnit (p stage unit : Nat) (m : SMap Nat) (bad : List (Nat × Nat × Nat)) (s : State) : State :=
  let x := pkt s p
  let set := setFor s x.epoch
  match tableAt set x.pipe stage unit with
  | none => s
  | some d =>
    if tKind d == 5 then
      match tableOf set 0xFF (tHbmTable d), x.hbm.find? fun e => e.1 == stage && e.2.1 == unit with
      | some t, some (_, _, key, full) =>
        let s := setPkt p (fun x => { x with hbm := x.hbm.filter fun e => !(e.1 == stage && e.2.1 == unit) }) s
        let r := lookup set [] 0xFF t key
        let rows := subRows t (none, 0, tRows t) key
        let es := (bad.filter fun e => e.1 == unit).map fun e => (rows.getD e.2.1 (rows.headD 0), e.2.2)
        if full then useResult p d t 0xFF stage .miss r.2 s
        else useResult p d t 0xFF stage (if es.isEmpty then r.1 else .parity) r.2 (rowErrors 0xFF t (badRows set 0xFF t key ++ es) s)
      | _, _ => useResult p d d x.pipe stage .miss 0 s
    else
      let key := buildKey d m
      let r := lookup set (lostBanks s x.pipe) x.pipe d key
      useResult p d d x.pipe stage r.1 r.2 (rowErrors x.pipe d (badRows set x.pipe d key) s)

/-- Packets of a pipeline in its flow wait queue (R279). -/
def flowWaiting (s : State) (k : Nat) : Nat := (s.pkts.filter fun q => q.2.pipe == k && q.2.hbm.any fun e => !e.2.2.2).length

/-- A packet enters its pipeline's flow wait queue, where it does not wait in it already. -/
def waitTurn (p : Nat) (s : State) : State :=
  if (pkt s p).hbm.any fun e => !e.2.2.2 then s
  else setPkt p (fun x => { x with waitAt := s.turns }) { s with turns := s.turns + 1 }

/-- A packet is the first of its pipeline's flow wait queue: packets leave it in the order of their entry (R279). -/
def firstWaiting (s : State) (p : Nat) : Bool :=
  let x := pkt s p
  !s.pkts.any fun q => q.2.pipe == x.pipe && (q.2.hbm.any fun e => !e.2.2.2) && q.2.waitAt < x.waitAt

/-- HBM reads that a stage issues (R279). -/
def issueHbm (p stage : Nat) (s : State) : State :=
  let x := pkt s p
  let ds := (tlDescs (setFor s x.epoch) x.pipe).filter fun d => tKind d == 5 && tIssue d == stage
  ds.foldl (fun s d =>
    let full := decide (flowWaiting s x.pipe ≥ 2048)
    let s := if full then doEffect p (.pipeCount 1 x.pipe) s else waitTurn p s
    setPkt p (fun y => { y with hbm := y.hbm ++ [(tStage d, tUnit d, buildKey d x.conts, full)] }) s) s

/-- Work whose head is a parity miss under PARITY_PUNT writes PUNT itself (R278). -/
def parityPunt (p : Nat) (w : Work) (s : State) : State :=
  setPkt p (fun x => { x with
    work := x.work.drop 1, why := 2
    conts := x.conts.put 0x8E (setFld 15 8 w.stage (setFld 3 0 6 (x.conts.get 0x8E))) }) s

/-- A packet runs its stages until an instruction is to be run, an HBM read is awaited, or stage 23 is past (R267). -/
def runStages (p : Nat) : Nat → State → State
  | 0, s => s
  | n + 1, s =>
    let x := pkt s p
    match x.work with
    | w :: _ => if w.word / 2 ^ 58 == 0x3F then runStages p n (parityPunt p w s) else s
    | [] =>
      if x.stage ≥ 24 then passOver p s
      else if x.hbm.any fun e => e.1 == x.stage && !e.2.2.2 then setPkt p (fun x => { x with place := .flowWait }) s
      else
        let m := x.conts
        let s := issueHbm p x.stage s
        let s := lookUnit p x.stage 1 m [] (lookUnit p x.stage 0 m [] s)
        runStages p n (setPkt p (fun x => { x with stage := x.stage + 1 }) s)

/-- A packet goes on through its stages. -/
def goOn (p : Nat) (s : State) : State := runStages p 80 s

/-- An epoch of the wrong parity counts (R153): the parse has ended, or has found no entry of the packet's datagram. -/
def countSkew (p : Nat) (s : State) : State :=
  if (pkt s p).skew then doEffect p (.pipeCount 5 (pkt s p).pipe) (setPkt p (fun x => { x with skew := false }) s) else s

/-- A packet enters stage 0 (R251, R263, R266). -/
def enterStages (p : Nat) (s : State) : State :=
  let s := countSkew p s
  let s := setPkt p (fun x => { x with place := .stages, stage := 0, work := [], conts := fixedMeta s x }) s
  goOn p s

/-! ## The end of a parse (R242, R250) -/

/-- An exception ends the walk (R250): 1 PARSE_DEPTH, 2 MALFORMED. -/
def parseException (p exc stop : Nat) (s : State) : State :=
  let s := setPkt p (fun x => { x with exc := exc, stop := stop }) (countSkew p s)
  let x := pkt s p
  let act := rd (graphOf s x) (if exc == 1 then 7 else 8) 1
  let s := doEffect p (.pipeCount (2 + exc) x.pipe) s
  if act == 2 then enterStages p s
  else if x.arriving then setPkt p (fun x => { x with place := .frameEnd, verdict := if act == 1 then .excPunt else .excDrop }) s
  else if act == 1 then puntPkt p (0x030F + exc) 24 (x.last.getD 0) stop s
  else dropPkt p s

/-- The exit DROP. -/
def parseDropExit (p stop : Nat) (s : State) : State :=
  let s := setPkt p (fun x => { x with stop := stop }) (countSkew p s)
  let x := pkt s p
  if x.arriving then setPkt p (fun x => { x with place := .frameEnd, verdict := .parseDrop }) s
  else dropPkt p (count .parseDrop x.pipe s)

/-- The header of the node last visited is made invalid (R239). -/
def forgetLast (p : Nat) (s : State) : State :=
  match (pkt s p).lastInst with
  | some i => setPkt p (fun x => { x with insts := x.insts.del i, lastInst := none }) s
  | none => s

/-- The top of R239's loop: exits and the visit limit are taken as soon as they are reached. -/
def parseTop (p : Nat) (s : State) : State :=
  let x := pkt s p
  if x.node == 0xF0 then enterStages p (setPkt p (fun x => { x with stop := x.off }) s)
  else if x.node == 0xF2 then parseDropExit p x.off s
  else if x.node == 0xF1 then
    parseException p 2 x.lastOff (forgetLast p s)
  else if x.visits == 32 then parseException p 1 x.off s
  else s

/-! ## The fragment step (R254 to R260) -/

/-- A packet is held behind its fragment key, or punted as an orphan where it cannot be (R255). Its bytes are charged to HOLD_USE,
those of a lane frame in its ingress class too (R337). -/
def holdFrag (p : Nat) (s : State) : State :=
  let x := pkt s p
  let use := if rd (graphOf s x) 9 1 == 5 then 0 else 1
  let n := cellsOf (pktLen x)
  if (s.holdQ.get x.pipe).length ≥ 64 || useFree s use < n then
    puntPkt p 0x0312 26 x.fragNode x.fragEnd (count .fragHoldFull x.pipe s)
  else
    let s := { s with holdQ := s.holdQ.upd x.pipe (· ++ [p]) }
    chargePkt p { x.charge with use := some use, cells := if x.src == 0 then n else x.charge.cells
                                ip := if x.src == 0 then some (ingressPc s x) else none }
      (setPkt p (fun x => { x with place := .hold, holdAt := s.tick }) s)

/-- A fragment has the epoch of its datagram's entry (R153, R155): no epoch of the wrong parity counts for it. -/
def joinEpoch (p epoch : Nat) (s : State) : State := setPkt p (fun x => { x with epoch := epoch, skew := false }) s

/-- A later fragment's fate is carried out (R257). -/
def meetFate (p fate reason : Nat) (s : State) : State :=
  let x := pkt s p
  if fate == 0 then enterStages p (setPkt p (fun x => { x with fragState := 2, stop := x.fragEnd }) s)
  else if fate == 1 then dropPkt p (count .fragDrop x.pipe s)
  else puntPkt p reason 26 x.fragNode x.fragEnd (setPkt p (fun x => { x with lastTable := 0, lastHash := 0 }) s)

/-- A later fragment takes its entry's fate, decision and epoch (R257, R258): its data counts as seen (R259). -/
def joinEntry (p e : Nat) (s : State) : State :=
  let f := s.frags.get e
  setPkt p (fun x => { x with fragRec := f.frec }) (joinEpoch p f.epoch (seeFrag e (pkt s p) s))

/-- A later fragment meets its decided entry. -/
def takeFate (p e : Nat) (s : State) : State :=
  let f := s.frags.get e
  meetFate p f.fate f.reason (joinEntry p e s)

/-- The fragment step of a fragment whose fields are known. True: the walk goes on with the first fragment. -/
def fragStep (p : Nat) (first : Bool) (s : State) : Bool × State :=
  let x := pkt s p
  let k := x.pipe
  let h := crc32c (rd (graphOf s x) 12 4) x.fragKey
  if h % 16 != k && !x.redirected then
    let s := count .fragRedirect k s
    let s := setPkt p (fun x => { x with redirected := true, start := none }) s
    (false, setPkt p (fun y => { y with pipe := if x.pass ≥ 4 then y.pipe else h % 16 }) (anotherPass p 26 s))
  else
    let s := dropCorrupt (fragWays k h) s
    match (fragWays k h).find? fun e => s.frags.has e && (s.frags.get e).key == x.fragKey with
    | some e =>
      if (s.frags.get e).decided then
        let s := takeFate p e s
        (false, fragDone e s)
      else (false, holdFrag p (joinEpoch p (s.frags.get e).epoch s))
    | none =>
      if !first then (false, holdFrag p (countSkew p s))
      else
        match (fragWays k h).find? fun e => !s.frags.has e && wayUsable s e with
        | none => (true, setPkt p (fun x => { x with fragState := 1 }) (count .fragFull k s))
        | some e =>
          let f : FragEntry := { key := x.fragKey, epoch := x.epoch, made := s.tick, life := usT (rd (graphOf s x) 10 2),
                                 frec := List.replicate 8 0, seen := x.fragData }
          (true, setPkt p (fun x => { x with fragState := 1, fragOwn := some e }) { s with frags := s.frags.put e f })

/-! ## One visit (R239) -/

/-- The bytes a node waits for have arrived (R234); a frame that has ended waits for nothing. -/
def nodeReady (x : Pkt) (n : Nat) : Bool := !x.arriving || x.bytes.length ≥ n

/-- The frame end as the walk sees it (R248): while the frame arrives, the end that its last claim names, as if it were equal to the
frame's; before any claim it is beyond every header. -/
def walkEnd (x : Pkt) : Nat := if x.arriving then (x.claims.getLast?.map (·.claimed)).getD 16384 else x.fend

/-- The walk goes on behind the header at the current place. -/
def goNext (p next len : Nat) (s : State) : State :=
  parseTop p (setPkt p (fun x => { x with node := next, lastOff := x.off, off := x.off + len }) s)

/-- A node that may find a fragment: a whole datagram goes on, a fragment is taken for reassembly, at its frame's end where it still
arrives: a frame that is discarded takes no effect in the fragment table, and its data runs to the frame's end (R175, R252). -/
def visitFragment (p g len next : Nat) (x : Pkt) (s : State) : State :=
  match fragFields g len x with
  | none => parseException p 2 x.off (forgetLast p s)
  | some (more, off, key, data) =>
    if !more && off == 0 then goNext p next len s
    else if x.arriving then setPkt p (fun x => { x with fragWait := some (len, next) }) s
    else
      let s := setPkt p (fun x => { x with
        fragKey := key, fragNode := x.node, fragEnd := x.off + len, fragData := data
        fragTotal := if more then none else some (off * 8 + data) }) s
      let r := fragStep p (off == 0) s
      if r.1 then goNext p next len r.2 else r.2

/-- Where the length claim of a header puts its end. -/
def claimedEnd (g : Nat) (x : Pkt) : Nat :=
  x.off + nb g 22 2 + hdrField x.bytes x.off (nb g 18 2) (nb g 20 1) * 2 ^ nb g 21 1

/-- The end of the walk after the header's length claim; none where the claim fails its test. -/
def endAfter (g len : Nat) (x : Pkt) : Option Nat :=
  let least := x.off + len
  if !(bits 2 2 (nb g 0 1) == 1) then some x.fend
  else if x.arriving then (if claimedEnd g x < least then none else some x.fend)
  else claimTest (claimedEnd g x) least x.fend (bits 1 1 (nb g 0 1) == 1)

/-- A header that passes every test is recorded, and the walk goes on from it. -/
def headerTaken (p : Nat) (d : List Byte) (g len e : Nat) (x : Pkt) (s : State) : State :=
  let x := { x with fend := e, claims := if bits 2 2 (nb g 0 1) == 1 && x.arriving then
    x.claims ++ [{ node := x.node, off := x.off, claimed := claimedEnd g x, padOk := bits 1 1 (nb g 0 1) == 1 }] else x.claims }
  let s := setPkt p (fun _ => x) s
  if nb g 1 1 != 0xFF && (stackPos g x).isNone then parseException p 1 x.off s
  else
    let x := record g len x
    let next := nextNode d g x.bytes x.off
    let s := setPkt p (fun _ => x) s
    if bits 4 3 (nb g 0 1) == 0 then goNext p next len s else visitFragment p g len next x s

/-- The next thing that the parser does for a packet: a node's visit (R239), or the fragment step that waited for the frame's end. -/
def parseVisit (p : Nat) (s : State) : State :=
  let x := pkt s p
  let d := graphOf s x
  let g := pgNode d x.node
  match x.fragWait with
  | some (len, next) =>
    if x.arriving then s else visitFragment p g len next { x with fragWait := none } (setPkt p (fun x => { x with fragWait := none }) s)
  | none =>
  let fix := nb g 4 1
  if !nodeReady x (x.off + fix) then s
  else
    let len := headerLen g x.bytes x.off
    if x.off + fix ≤ 512 && x.off + fix ≤ walkEnd x && !nodeReady x (x.off + max fix len) then s
    else
      let x := { x with visits := x.visits + 1, last := some x.node }
      let s := setPkt p (fun _ => x) s
      let fend := walkEnd x
      if x.off + fix > fend then parseException p 2 x.off s
      else if x.off + fix > 512 then parseException p 1 x.off s
      else if zeroMaskHit g x.bytes x.off then parseException p 2 x.off s
      else if len < nb g 8 2 || len > nb g 10 2 then parseException p 2 x.off s
      else if x.off + len > fend then parseException p 2 x.off s
      else if x.off + len > 512 then parseException p 1 x.off s
      else match endAfter g len x with
        | none => parseException p 2 x.off s
        | some e => headerTaken p d g len e x s

/-! ## Starting a pass (R153, R230, R263) -/

/-- A packet enters its pipeline's parser (R233). -/
def enterParser (p : Nat) (s : State) : State :=
  setPkt p (fun x => { x with entered := s.turns }) { s with turns := s.turns + 1 }

/-- A packet is the one that entered its pipeline's parser first of those still there: packets leave it in the order of their
entry (R233). -/
def firstInParser (s : State) (p : Nat) : Bool :=
  let x := pkt s p
  !s.pkts.any fun q => q.2.place == .parser && q.2.pipe == x.pipe && q.2.entered < x.entered

/-- A pass's context is cleared but for what recirculation carries (R264). -/
def freshPass (s : State) (x : Pkt) (first : Bool) : Pkt :=
  let carry : SMap Nat := if first then (if x.origin.isSome then [(0x8F, x.conts.get 0x8F)] else []) else
    [0x8E, 0x8F, 0x90, 0x91, 0x92].map fun i => (i, x.conts.get i)
  let g := pg (setFor s x.epoch) x.pipe
  let start := match x.start with
    | some st => st
    | none => (rd g (if x.src == 0 then 4 else if x.src == 1 then 5 else 6) 1, 0)
  { x with
    place := .parser, raw := x.bytes, fend := x.bytes.length, node := start.1, off := start.2, visits := 0, last := none,
    stop := 0, exc := 0, claims := [], fragWait := none, billed := 0, insts := [], fragState := 0, fragRec := List.replicate 8 0, stage := 0, work := [],
    lastTable := 0, lastHash := 0, popped := [], cut := 0, inserts := [], dirty := [], why := 0, hbm := [], waitAt := 0, lastInst := none, lastOff := 0,
    conts := if first && x.src == 1 then carry.put 0x93 (x.conts.get 0x93) else carry }

/-- Epoch of a packet at its first pass (R153, R154), and whether skew is counted. -/
def epochAt (s : State) (x : Pkt) : Nat × Bool :=
  let e := s.sets.epoch
  match x.sfh0 with
  | some h =>
    if x.src == 0 then
      if bits 71 71 h == e % 2 then (e, false)
      else if s.sets.straddle.isSome then (s.sets.straddle.getD e, false)
      else (e, true)
    else (e, false)
  | none => (e, false)

end Sys2Proof.Machine
end

