-- ==== Sys2Proof/Machine/PipeRows.lean ====
section
/-! DEFINITION. Passes, action instructions, fragments, learning and ageing. -/
namespace Sys2Proof.Machine

/-! ## A packet's slot (R26 to R30, R153) -/

/-- What disturbances have struck before a pass: a table of the pipeline, or one of HBM from 0xC0 on, a row of it and a 32-bit word of
the row; 0xFF and 0xFD: an entry of the fragment table or of the learn filter. -/
def strike (k : Nat) (u : Nat × Nat × Nat) (s : State) : State :=
  if u.1 == 0xFF then
    let e := k * 4096 + u.2.1 % 4096
    if s.frags.has e then { s with frags := s.frags.upd e fun f => { f with corrupt := true } } else s
  else if u.1 == 0xFD then
    { s with learns := s.learns.upd k fun l =>
        if l.entries.has u.2.1 then { l with entries := l.entries.upd u.2.1 fun e => { e with corrupt := true } } else l }
  else
    updSet s.sets.epoch (fun x => { x with
      bad := x.bad.upd (tKey (if u.1 ≥ 0xC0 then 0xFF else k) u.1 u.2.1) fun w => w ||| 2 ^ (u.2.2 % 64) }) s

/-- Several disturbances. -/
def strikes (k : Nat) : List (Nat × Nat × Nat) → State → State
  | [], s => s
  | u :: us, s => strikes k us (strike k u s)

/-- A first pass begins under a set (R153): the epoch is taken, and an epoch of the wrong parity noted. A frame of the old epoch is
dropped where no set was in force before the firing (R141, log 94). -/
def firstPass (p : Nat) (s : State) : State :=
  let x := pkt s p
  let (e, skew) := if x.counted then (x.epoch, false) else epochAt s x
  let tr := match x.sfh0 with | some h => x.src == 0 && bits 125 117 h != s.peal.node | none => false
  let s := setPkt p (fun x => { x with epoch := e, counted := true, skew := skew, transit := tr }) s
  if e != s.sets.epoch && !(setFor s e).valid then
    if x.arriving then setPkt p (fun x => { x with place := .frameEnd, verdict := .noset }) s
    else dropPkt p (count .nosetDrop x.pipe s)
  else if tr && bits 70 67 (x.sfh0.getD 0) == 0 then
    let s := countSkew p s
    if x.arriving then setPkt p (fun x => { x with place := .frameEnd, verdict := .hopsDrop }) s
    else dropPkt p (count .hopsDrop x.pipe s)
  else parseTop p (enterParser p (setPkt p (fun x => freshPass s x true) s))

/-- A released fragment's extra pass (R257) goes straight to its fate; another pass is parsed afresh (R246). The first pass leaves
the length as received (R128). -/
def laterPass (p : Nat) (s : State) : State :=
  let s := setPkt p (fun x => { x with
    pass := x.pass + 1, rxLen := if x.pass == 0 then pktLen { x with bytes := x.raw } else x.rxLen }) s
  match (pkt s p).release with
  | some (fate, reason) => meetFate p fate reason (setPkt p (fun x => { x with release := none }) s)
  | none => parseTop p (enterParser p (setPkt p (fun x => freshPass s x false) s))

/-- The priority of a packet that waits for a slot (R27), the first source 0; none where it waits for none. -/
def slotRank (x : Pkt) : Option Nat :=
  match x.place with
  | .arrival => some (if x.src == 0 then 0 else 2)
  | .slot => some 1
  | _ => none

/-- A packet of a pipeline waits for a slot with priority over rank `r` (R27). -/
def slotTaken (s : State) (k r : Nat) : Bool :=
  s.pkts.any fun q => q.2.pipe == k && (match slotRank q.2 with | some t => decide (t < r) | none => false)

/-- PASS_START: a packet that waits for a slot takes it, where none of a source before its own waits for one in its pipeline (R27).
`upset`: what of its pipeline's tables has been struck since (log 21). -/
def execPassStart (p : Nat) (upset : List (Nat × Nat × Nat)) (s : State) : Host.Outcome State Fault Refusal :=
  let x := pkt s p
  if !hasPkt s p || pipeLost s x.pipe || !s.pwr.released || slotTaken s x.pipe ((slotRank x).getD 0) then .next s
  else
    let s' := strikes x.pipe upset s
    match x.place with
    | .arrival =>
      if !setActive s then
        if x.arriving then .next (setPkt p (fun x => { x with place := .frameEnd, verdict := .noset }) s')
        else .next (dropPkt p (count .nosetDrop x.pipe s'))
      else .next (firstPass p (setPkt p (fun x => { x with
        sfh0 := if x.src == 0 && hasSfh x.bytes then some (sfh x.bytes) else none }) s'))
    | .slot => .next (laterPass p s')
    | _ => .next s

/-- PARSE_NODE_VISIT: the parser takes up the packet that entered it first (R233, R239). -/
def execParseNodeVisit (p : Nat) (s : State) : Host.Outcome State Fault Refusal :=
  let x := pkt s p
  if hasPkt s p && x.place == .parser && !x.untested && firstInParser s p then .next (parseVisit p s) else .next s

/-! ## The end of a frame (R248, R249) -/

/-- The pending claims in order of visit: the first that fails, or the end they leave. -/
def testClaims (raw : List Byte) : List Claim → Nat → Except Claim Nat
  | [], e => .ok e
  | c :: cs, e =>
    match claimTest c.claimed 0 e c.padOk with
    | some e => testClaims raw cs e
    | none => .error c

/-- A frame that a lane has begun by cut-through is charged up to a length of `n` bytes: its class's shaper, TM_CLASS_TX, and
TM_ECN_MARK where it is marked (R324, R343, log 93). -/
def billTo (p n : Nat) (s : State) : State :=
  let x := pkt s p
  match x.place with
  | .onLane m =>
    let d : Int := (n : Int) - x.billed
    let pc := 8 * portOfLane (activeSet s) m + txClass x
    let add (block i : Nat) (s : State) : State := { s with tm := { s.tm with
      blocks := s.tm.blocks.upd (block * 2 ^ 20 + i) fun c => { c with by_ := ofSigned 64 (c.by_ + d) } } }
    let s := match x.ecn with | some e => add 0xFE02 e s | none => s
    let s := if shaperValid (activeSet s) pc then
        { s with tm := { s.tm with shapers := s.tm.shapers.put pc (shaperTokens s pc - d * 65536) } } else s
    setPkt p (fun x => { x with billed := n }) (add 0xFE07 pc s)
  | _ => s

/-- The bytes that a frame forwarded by cut-through ends with, as the deparser emits them. -/
def completeCut (p : Nat) (s : State) : State :=
  match deparse s (pkt s p) with
  | some bs => billTo p (max 60 bs.length + 4) (setPkt p (fun x => { x with bytes := bs }) s)
  | none => s

/-- A packet is dropped from wherever it waits: out of its class queue where it has joined one. -/
def expel (p : Nat) (s : State) : State :=
  match (pkt s p).place with
  | .laneQ m c => dropPkt p (setLane m (fun l => { l with queues := l.queues.upd c fun q => q.filter (· != p) }) s)
  | _ => dropPkt p s

/-- A frame forwarded by cut-through is stomped (R218): an error-marked block, or removal from its queue. -/
def stomp (p : Nat) (s : State) : State :=
  match (pkt s p).place with
  | .onLane m => removePkt p (emit (.laneCut m) (count .laneTxStomp m (setLane m (fun l => { l with cur := none }) s)))
  | .laneQ m c => removePkt p (count .laneTxStomp m
      (setLane m (fun l => { l with queues := l.queues.upd c fun q => q.filter (· != p) }) s))
  | _ => dropPkt p s

/-- A pending claim has failed (R249): what its stages did is undone; an epoch of the wrong parity stays counted (R154). -/
def claimFails (p : Nat) (c : Claim) (s : State) : State :=
  let s := setPkt p (fun x => { x with arriving := false, untested := false, lastTable := 0, lastHash := 0 }) s
  let s := if (pkt s p).effects.contains (.pipeCount 5 (pkt s p).pipe) then count .epochSkew (pkt s p).pipe s else s
  let s := undoFrame p s
  let x := pkt s p
  let s := count .malformed x.pipe s
  if x.cutThrough then stomp p s
  else if rd (graphOf s x) 8 1 == 1 then puntPkt p 0x0311 24 c.node c.off s
  else dropPkt p s

/-- A frame joins the queue of the lane that was chosen for it (R217, R334): it is queued, and a fragment's fate is FORWARD
(R257). -/
def storeToLane (p n : Nat) (s : State) : State :=
  let x := pkt s p
  let op := 8 * portOfLane (activeSet s) n + txClass x
  admitThen p (.egress op) (cellsOf (x.bytes.length + 4)) (fun s => enqueue p n (txClass x) (fragFate x 0 0 s)) s

/-- A stored or queued frame whose end has come leaves the deparser (R290); one of a length that R291 refuses is dropped. -/
def completeStored (p : Nat) (go : State → State) (s : State) : State :=
  match deparse s (pkt s p) with
  | some bs =>
    if badLength bs then expel p (count .mtuDrop (pkt s p).pipe s) else go (setPkt p (fun x => { x with bytes := bs }) s)
  | none => expel p (count .mtuDrop (pkt s p).pipe s)

/-- The verdict of a pass is carried out at the frame's end. -/
def carryVerdict (p : Nat) (s : State) : State :=
  let x := pkt s p
  match x.verdict with
  | .none => s
  | .noset => dropPkt p (count .nosetDrop x.pipe s)
  | .hopsDrop => dropPkt p (count .hopsDrop x.pipe s)
  | .parseDrop => dropPkt p (count .parseDrop x.pipe s)
  | .excDrop => dropPkt p s
  | .excPunt => puntPkt p (0x030F + x.exc) 24 (x.last.getD 0) x.stop s
  | .psDrop ps => dropPkt p (count .lanePsDrop ps s)
  | .refused block i => dropPkt p (countBlock block i (pktLen x) s)
  | .pass =>
    let s := setPkt p (fun x => { x with verdict := .none }) s
    match x.place with
    | .frameEnd | .spray => endPass p s
    | .store n => completeStored p (storeToLane p n) s
    | .onLane _ => completeCut p s
    | _ => completeStored p (fun s => s) s

def execFrameEndClaimTest (p : Nat) (s : State) : Host.Outcome State Fault Refusal :=
  let x := pkt s p
  if !hasPkt s p || !x.untested then .next s
  else
    match testClaims x.bytes x.claims x.bytes.length with
    | .error c => .next (claimFails p c s)
    | .ok e =>
      let s := commitEffects p (setPkt p (fun x => { x with arriving := false, untested := false, fend := e, claims := [] }) s)
      .next (carryVerdict p s)

/-- HBM_LOOKUP_RESULT: the HBM reads of the packet at the head of its wait queue return; `bad`: what ended in an uncorrectable error:
the unit, the row's place in its probe, and the failing words (R279). -/
def execHbmLookupResult (p : Nat) (bad : List (Nat × Nat × Nat)) (s : State) : Host.Outcome State Fault Refusal :=
  let x := pkt s p
  if !hasPkt s p || x.place != .flowWait || !firstWaiting s p then .next s
  else
    let st := x.stage
    let m := x.conts
    let s := setPkt p (fun x => { x with place := .stages }) s
    let s := issueHbm p st s
    let s := lookUnit p st 1 m bad (lookUnit p st 0 m bad s)
    .next (goOn p (setPkt p (fun x => { x with stage := x.stage + 1 }) s))

/-! ## Action instructions (R285 to R287) -/

/-- Fields of an instruction word (R285). -/
def wOp (w : Nat) : Nat := bits 63 58 w
def wDst (w : Nat) : Nat := bits 57 50 w
def wSrc (w : Nat) : Nat := bits 49 42 w
def wLsb (w : Nat) : Nat := bits 41 37 w
def wWidth (w : Nat) : Nat := bits 36 32 w + 1
def wImm (w : Nat) : Nat := bits 31 0 w

/-- field(c) of an operand. -/
def fieldOf (w c : Nat) (x : Pkt) : Nat := bits (wLsb w + wWidth w - 1) (wLsb w) (x.conts.get c)

/-- field(DST) = v mod 2^w. A write of MD14.DISP other than by PUNT makes a later PUNT value an action's own (R269). -/
def setDst (w v : Nat) (x : Pkt) : Pkt :=
  let c := wDst w
  { x with conts := x.conts.put c (setFld (wLsb w + wWidth w - 1) (wLsb w) v (x.conts.get c)),
           why := if c == 0x8E && wLsb w < 4 then 0 else x.why }

/-- The head instruction of a packet, where its operation is `op`. -/
def headWork (s : State) (p op : Nat) : Option Work :=
  match (pkt s p).work with
  | w :: _ => if hasPkt s p && (pkt s p).place == .stages && wOp w.word == op then some w else none
  | [] => none

/-- The head instruction of operation `op` runs: its effect on the packet and the adapter, then what follows it. -/
def runInstr (op p : Nat) (eff : Work → State → State) (s : State) : Host.Outcome State Fault Refusal :=
  match headWork s p op with
  | none => .next s
  | some w => .next (goOn p (eff w (setPkt p (fun x => { x with work := x.work.drop 1 }) s)))

/-- An instruction's effect on the packet alone. -/
def onPkt (p : Nat) (f : Work → Pkt → Pkt) (w : Work) (s : State) : State := setPkt p (f w) s

/-- An instruction without effect is counted (R286). -/
def actFault (p : Nat) (s : State) : State := doEffect p (.pipeCount 0 (pkt s p).pipe) s

def execNop (p : Nat) (s : State) : Host.Outcome State Fault Refusal := runInstr 0x00 p (fun _ s => s) s

def execSet (p : Nat) (s : State) : Host.Outcome State Fault Refusal :=
  runInstr 0x01 p (onPkt p fun w x => setDst w.word (wImm w.word) x) s

def execCopy (p : Nat) (s : State) : Host.Outcome State Fault Refusal :=
  runInstr 0x02 p (onPkt p fun w x => setDst w.word (x.conts.get (wSrc w.word) / 2 ^ (wImm w.word % 32)) x) s

/-- The `w` bits of action data from a bit on; data past its end reads 0. -/
def dataBits (data : List Byte) (at_ w : Nat) : Nat :=
  hdrField (data ++ List.replicate (at_ / 8 + 8) 0) 0 at_ w

def execData (p : Nat) (s : State) : Host.Outcome State Fault Refusal :=
  runInstr 0x03 p (onPkt p fun w x => setDst w.word (dataBits w.data (wImm w.word % 1024) (wWidth w.word)) x) s

def execAdd (p : Nat) (s : State) : Host.Outcome State Fault Refusal :=
  runInstr 0x04 p (onPkt p fun w x => setDst w.word (fieldOf w.word (wDst w.word) x + wImm w.word) x) s

def execAnd (p : Nat) (s : State) : Host.Outcome State Fault Refusal :=
  runInstr 0x05 p (onPkt p fun w x => setDst w.word (fieldOf w.word (wDst w.word) x &&& wImm w.word) x) s

def execOr (p : Nat) (s : State) : Host.Outcome State Fault Refusal :=
  runInstr 0x06 p (onPkt p fun w x => setDst w.word (fieldOf w.word (wDst w.word) x ||| wImm w.word) x) s

def execXor (p : Nat) (s : State) : Host.Outcome State Fault Refusal :=
  runInstr 0x07 p (onPkt p fun w x => setDst w.word (fieldOf w.word (wDst w.word) x ^^^ wImm w.word) x) s

def execSetif (p : Nat) (s : State) : Host.Outcome State Fault Refusal :=
  runInstr 0x08 p (onPkt p fun w x =>
    if (x.conts.get (wSrc w.word)).testBit (wImm w.word / 2 ^ 27) then setDst w.word (wImm w.word % 2 ^ 27) x else x) s

def execCount (p : Nat) (s : State) : Host.Outcome State Fault Refusal :=
  runInstr 0x09 p (fun w s =>
    let x := pkt s p
    let i := wImm w.word / 256 + fieldOf w.word (wSrc w.word) x
    match tableOf (setFor s x.epoch) x.pipe (wImm w.word % 256) with
    | some d => if i < tEntries d then countIn p (wImm w.word % 256) d i s else actFault p s
    | none => actFault p s) s

/-- METER (R328): it waits for the length of a frame that still arrives. -/
def execMeter (p : Nat) (s : State) : Host.Outcome State Fault Refusal :=
  if (pkt s p).arriving && !(pkt s p).untested then .next s
  else runInstr 0x0A p (fun w s =>
    let x := pkt s p
    let i := wImm w.word + fieldOf w.word (wSrc w.word) x
    if i ≥ 262144 || !policerOk s i then actFault p s
    else
      let t := policerTokens s i
      let (c, s) := chargePolicer i x.raw.length (bits 1 0 (md x 19)) s
      let t' := policerTokens s i
      setPkt p (fun x => { x with
        conts := x.conts.put 0x93 (setFld 1 0 c (md x 19))
        refunds := if x.arriving then x.refunds ++ [(i, t.1 - t'.1, t.2 - t'.2)] else x.refunds }) s) s

def execInval (p : Nat) (s : State) : Host.Outcome State Fault Refusal :=
  runInstr 0x10 p (onPkt p fun w x =>
    if instValid x (wImm w.word % 64) then { x with popped := x.popped ++ [wImm w.word % 64] } else x) s

/-- A template's bytes with its patches applied (R289), and its headers. -/
def templateInsert (d : List Byte) (t anchor : Nat) (x : Pkt) : Insert :=
  let e := template d t
  let len := rd e 0 1
  let body := (e.drop 32).take len
  let body := (List.range 4).foldl (fun bs i =>
    let w := rd e (16 + 4 * i + 2) 1
    let o := rd e (16 + 4 * i + 1) 1
    if 1 ≤ w && w ≤ 4 then bs.take o ++ (bytesBE w (x.conts.get (rd e (16 + 4 * i) 1))).take (len - o) ++ bs.drop (o + w) else bs) body
  let hs := ((List.range 4).map fun i => (rd e (1 + 2 * i) 1, rd e (2 + 2 * i) 1)).filter fun h => h.2 != 0
  { anchor := anchor, bytes := body, hdrs := hs }

def execEncap (p : Nat) (s : State) : Host.Outcome State Fault Refusal :=
  runInstr 0x11 p (fun w s =>
    let x := pkt s p
    let a := wImm w.word / 256 % 256
    if a != 0xFF && !instValid x a then actFault p s
    else
      let i := templateInsert (ap (setFor s x.epoch) x.pipe) (wImm w.word % 256) a x
      setPkt p (fun x => { x with inserts := x.inserts ++ [i] }) s) s

/-- DECAP before a valid instance (R287). -/
def decapAt (a : Nat) (x : Pkt) : Pkt :=
  let o := (x.insts.get a).1
  { x with
    cut := max x.cut o
    inserts := x.inserts.filter fun i => i.anchor != 0xFF && (x.insts.get i.anchor).1 > o
    popped := x.popped ++ ((x.insts.filter fun e => e.1 != a && e.2.1 + e.2.2 ≤ o).map (·.1)) }

def execDecap (p : Nat) (s : State) : Host.Outcome State Fault Refusal :=
  runInstr 0x12 p (fun w s =>
    let a := wImm w.word % 64
    if instValid (pkt s p) a then setPkt p (decapAt a) s else actFault p s) s

def execWrite (p : Nat) (s : State) : Host.Outcome State Fault Refusal :=
  runInstr 0x13 p (fun w s =>
    let x := pkt s p
    let a := wImm w.word % 64
    let b := bits 17 6 (wImm w.word)
    let i := x.insts.get a
    if !instValid x a || b + wWidth w.word > 8 * i.2 then actFault p s
    else setPkt p (fun x => { x with
      bytes := writeField x.bytes i.1 b (wWidth w.word) (fieldOf w.word (wSrc w.word) x)
      dirty := if x.dirty.contains a then x.dirty else a :: x.dirty }) s) s

def execMplsPush (p : Nat) (s : State) : Host.Outcome State Fault Refusal :=
  runInstr 0x14 p (fun w s =>
    let x := pkt s p
    let a := wImm w.word % 64
    if !instValid x a then actFault p s
    else setPkt p (fun x => { x with
      inserts := x.inserts ++ [{ anchor := a, bytes := bytesBE 4 (x.conts.get (wSrc w.word)) }] }) s) s

/-- The checksum of RFC 1624 after a 32-bit value changes: ~(~HC + ~m + m'), word by word. -/
def rfc1624 (hc old new : Nat) : Nat :=
  let t := (65535 - hc) + (65535 - old / 65536 % 65536) + (65535 - old % 65536) + new / 65536 % 65536 + new % 65536
  let f := t % 65536 + t / 65536
  65535 - (f % 65536 + f / 65536)

def execL4adj (p : Nat) (s : State) : Host.Outcome State Fault Refusal :=
  runInstr 0x15 p (fun w s =>
    let x := pkt s p
    let a := wImm w.word % 64
    let b := bits 17 6 (wImm w.word)
    let i := x.insts.get a
    if !instValid x a || b + 16 > 8 * i.2 then actFault p s
    else setPkt p (fun x => { x with
      bytes := writeField x.bytes i.1 b 16
        (rfc1624 (hdrField x.bytes i.1 b 16) (x.conts.get (wSrc w.word)) (x.conts.get (wDst w.word))) }) s) s

def execLearn (p : Nat) (s : State) : Host.Outcome State Fault Refusal :=
  runInstr 0x18 p (fun w s =>
    let x := pkt s p
    let key := x.conts.get (wSrc w.word) * 2 ^ 32 + x.conts.get (wSrc w.word + 1)
    doEffect p (.learn key (bits 15 0 (md x 17)) (wImm w.word % 256) x.pipe s.time.now) s) s

def execFragrec (p : Nat) (s : State) : Host.Outcome State Fault Refusal :=
  runInstr 0x19 p (onPkt p fun w x => { x with fragRec := (List.range 8).map fun i => x.conts.get (wSrc w.word + i) }) s

/-- DISP takes a value. -/
def setDisp (d : Nat) (x : Pkt) : Pkt := { x with conts := x.conts.put 0x8E (setFld 3 0 d (md x 14)), why := 0 }

def execRecirc (p : Nat) (s : State) : Host.Outcome State Fault Refusal :=
  runInstr 0x1A p (onPkt p fun w x =>
    let x := setDisp 7 x
    { x with conts := x.conts.put 0x94 (wImm w.word % 2 ^ 18) }) s

def execPunt (p : Nat) (s : State) : Host.Outcome State Fault Refusal :=
  runInstr 0x1B p (onPkt p fun w x =>
    let x := setDisp 6 x
    { x with why := if w.miss then 1 else 0, conts := x.conts.put 0x8E (setFld 15 8 w.stage (md x 14)) }) s

def execDrop (p : Nat) (s : State) : Host.Outcome State Fault Refusal := runInstr 0x1C p (onPkt p fun _ x => setDisp 5 x) s

/-! ## Fragments (R256 to R259) -/

/-- A held fragment leaves the hold store: a lane frame's cells are freed, and a host packet's are its port's again. -/
def unhold (p : Nat) (s : State) : State :=
  let x := pkt s p
  let s := { s with holdQ := s.holdQ.upd x.pipe fun q => q.filter (· != p) }
  evalOf x (setPkt p (fun x => { x with charge := if x.src == 0 then {} else { x.charge with use := some 1 } }) s)

/-- Held fragments of a decided entry are released in order: each takes a slot for one more pass, in which it meets its fate
(R257). -/
def releaseHeld (e : Nat) : List Nat → State → State
  | [], s => s
  | p :: ps, s =>
    let f := s.frags.get e
    let s := joinEntry p e (unhold p s)
    releaseHeld e ps (anotherPass p 26 (setPkt p (fun x => { x with release := some (f.fate, f.reason) }) s))

def execFragmentDecided (e : Nat) (s : State) : Host.Outcome State Fault Refusal :=
  let f := s.frags.get e
  if !s.frags.has e || f.decided || !f.ready then .next s
  else
    let s := { s with frags := s.frags.upd e fun f => { f with decided := true } }
    .next (fragDone e (releaseHeld e (heldOf s (e / 4096) f.key) s))

/-- R256: 12,800 CK_P clocks are 6,400 CK_T ticks; a hold whose key has an entry does not expire. -/
def execFragmentHoldExpiry (p : Nat) (s : State) : Host.Outcome State Fault Refusal :=
  let x := pkt s p
  let has := s.frags.any fun f => f.1 / 4096 == x.pipe && f.2.key == x.fragKey
  if !hasPkt s p || x.place != .hold || has || s.tick < x.holdAt + 6400 then .next s
  else
    let s := unhold p (count .fragOrphan x.pipe s)
    .next (puntPkt p 0x0312 26 x.fragNode x.fragEnd s)

def execFragmentLifetimeExpiry (e : Nat) (s : State) : Host.Outcome State Fault Refusal :=
  let f := s.frags.get e
  if s.frags.has e && f.decided && decide (s.tick ≥ f.made + f.life) then .next (freeFrag e s) else .next s

/-! ## Learning and ageing (R297 to R302) -/

/-- LEARN_NEW or LEARN_MOVE (R296); its TIME is that of the sighting. -/
def postLearn (code : Nat) (r : Report) (old : Nat) (s : State) : State :=
  let data := fld 255 192 r.key + fld 191 176 r.port + (if code == 0x0302 then fld 175 160 old else 0) + fld 159 152 r.table
    + fld 151 148 r.pipe
  let ev := eventRecord { s with time := { s.time with now := r.time } } code none r.home data
  deliverTo ev (subscribers s code) s

/-- The way of a learn set that a new key takes: an empty one, else that of the oldest FIRST. -/
def learnWay (es : SMap LEntry) (set : Nat) : Nat :=
  let ws := [4 * set, 4 * set + 1, 4 * set + 2, 4 * set + 3]
  match ws.find? fun w => !es.has w with
  | some w => w
  | none => ws.foldl (fun b w => if (es.get w).first.units < (es.get b).first.units then w else b) (4 * set)

/-- Whether less than the window has passed since an entry's FIRST. -/
def inWindow (l : Learn) (e : LEntry) (now : DevTime) : Bool := decide (DevTime.diff now e.first < (nsU (1000 * l.window) : Int))

/-- A report is handled by its filter (R298); the time that it compares and keeps is that of the sighting. -/
def learnStep (k : Nat) (r : Report) (s : State) : State :=
  let l := s.learns.get k
  let set := r.hash / 16 % 1024
  let ws := [4 * set, 4 * set + 1, 4 * set + 2, 4 * set + 3]
  let bad := ws.filter fun w => l.entries.has w && (l.entries.get w).corrupt
  let s := bad.foldl (fun s _ => kilnErr 8 1 (postParity 0xFD k 0 set (drawn 16 s) 0 0 (useDraw s))) s
  let es := bad.foldl (fun m w => m.del w) l.entries
  let put (es : SMap LEntry) (s : State) : State := { s with learns := s.learns.put k { l with entries := es } }
  let now := r.time
  match ws.find? fun w => es.has w && (es.get w).key == r.key with
  | some w =>
    let f := es.get w
    if inWindow l f now then
      if f.port == r.port then count .learnSuppress k (put es s)
      else postLearn 0x0302 r f.port (put (es.put w { f with port := r.port }) s)
    else postLearn 0x0301 r 0 (put (es.put w { key := r.key, port := r.port, first := now }) s)
  | none =>
    let w := learnWay es set
    let s := if es.has w && inWindow l (es.get w) now then count .learnEvict k s else s
    postLearn 0x0301 r 0 (put (es.put w { key := r.key, port := r.port, first := now }) s)

def execLearnReport (k : Fin 16) (s : State) : Host.Outcome State Fault Refusal :=
  match s.reports.find? fun r => r.home == k.val with
  | none => .next s
  | some r =>
    let s := { s with reports := s.reports.erase r }
    .next (if (s.learns.get k.val).enable then learnStep k.val r s else s)

/-- AGE_SCAN_VISIT: the scanner of the active set reaches an entry; `touched`: a hit or a command's write falls between its read
and its conditional delete (R300, R301). -/
def execAgeScanVisit (inst table handle : Nat) (touched : Bool) (s : State) : Host.Outcome State Fault Refusal :=
  let x := activeSet s
  let key := tKey inst table handle
  let period := s.ages.get (inst * 256 + table)
  match tableOf x inst table with
  | none => .next s
  | some d =>
    let e := x.entries.get key
    if !setActive s || !s.pwr.released || !tAge d || period == 0 || !x.entries.has key || (e.visited != 0 && s.tick < e.visited + msT period) then .next s
    else if e.hit || touched then
      .next (updSet s.sets.epoch (fun x => { x with entries := x.entries.put key { e with hit := touched, visited := s.tick } }) s)
    else
      .next (postAll 0x0304 (if inst < 16 then inst else 16)
        (fld 255 224 handle + fld 223 216 table + fld 215 208 inst)
        (updSet s.sets.epoch (fun x => clearBad inst d handle { x with entries := x.entries.del key }) s))

end Sys2Proof.Machine
end

