-- ==== Sys2Proof/Machine/LaneRows.lean ====
section
/-! DEFINITION. Lanes, spraying, fault injection and reorder. -/
namespace Sys2Proof.Machine

/-! ## Receiving (R174, R175, R218, R234) -/

/-- A calibration constant in device-time units (R94). -/
def calUnits (raw : Int) : Int := rneDivInt (raw * 4194304) 1000

/-- TIME_CAL_TX (`rx` false) or TIME_CAL_RX of a lane: as TS_CAL_SET has written it, else as fused (R359). -/
def calOf (s : State) (n : Nat) (rx : Bool) : Int :=
  let k := 2 * n + bit rx
  if s.time.cal.has k then s.time.cal.get k else if rx then Config.calRx n else Config.calTx n

/-- A lane time stamp (R93): the tick, `ui` unit intervals, and the lane's constant. -/
def laneStamp (s : State) (n ui : Nat) (rx : Bool) : DevTime :=
  s.time.now.add ((ui * 0x09EE009F : Nat) + calUnits (calOf s n rx))

/-- A frame begins to arrive: it waits in the arrival store for its slot (R307). -/
def openFrame (n : Nat) (stamp : DevTime) (bytes : List Byte) (more : Bool) (s : State) : State :=
  let x : Pkt := { srcId := n, bytes := bytes, raw := bytes, arriving := more, stamp := stamp, pipe := n / 64 }
  let s := if more then setLane n (fun l => { l with rx := some s.nextPkt }) s else s
  newPkt x s

/-- The cells of `n` bytes of a frame that cut-through carries are charged as they arrive, without a check (R335). -/
def chargeCut (p n : Nat) (s : State) : State :=
  let x := pkt s p
  if x.cutThrough then chargePkt p { x.charge with cells := cellsOf n } s else s

/-- More bytes of a frame arrive. -/
def growFrame (p : Nat) (bytes : List Byte) (s : State) : State :=
  let s := setPkt p (fun x => { x with bytes := x.bytes ++ bytes, raw := x.raw ++ bytes }) s
  let n := (pkt s p).raw.length
  if (pkt s p).cutThrough then billTo p n (chargeCut p n s) else s

/-- A frame that a fault ends while it arrives: stomped where cut-through carries it, else discarded without effect (R175). -/
def faultFrame (p : Nat) (s : State) : State :=
  if !hasPkt s p then s
  else if (pkt s p).cutThrough then stomp p (commitEffects p s) else removePkt p (undoFrame p s)

/-! ### MAC control frames (R174, R219, R220) -/

/-- The tick at which a pause of `quanta` quanta of 512 bit times ends. -/
def pauseEnd (s : State) (quanta : Nat) : Nat := s.tick + (quanta * 16384 + 999) / 1000

/-- A lane's receiver delivers what arrives: the lane is not DOWN, PARKED or WAKING, and its clock and pipeline run (R45, R179). -/
def laneHears (s : State) (n : Nat) : Bool :=
  let l := lane s n
  !(l.state == 4 || l.state == 1 || l.state == 5 || !s.pwr.ckLocked || !s.pwr.released || laneLost s n)

/-- A PAUSE frame is discarded and counted (R174). -/
def takePause (n : Nat) (s : State) : State := count .lanePauseDrop n (count .laneRxFrames n s)

/-- A priority-flow-control frame is consumed by a lane in ACTIVE or LINKED state (R219, R220). -/
def takePfc (n : Nat) (named : Nat → Bool) (times : List Nat) (s : State) : State :=
  let ps := (List.range 8).filter fun p => named p && pfcEn (activeSet s) n p
  let s' := count .lanePfcRx n (count .laneRxFrames n s)
  if ps.isEmpty then count .lanePauseDrop n s'
  else setLane n (fun l => { l with pause := ps.foldl (fun m p =>
    if times.getD p 0 == 0 then m.del p else m.put p (pauseEnd s (times.getD p 0 % 65536))) l.pause }) s'

/-- A lane takes part in priority flow control (R219). -/
def pfcLane (s : State) (n : Nat) : Bool := setActive s && ((lane s n).state == 2 || (lane s n).state == 3)

/-- Bytes begin a PAUSE frame, or a priority-flow-control frame: their EtherType and opcode (R174, R219). -/
def isPause (bs : List Byte) : Bool := be16 bs 12 == 0x8808 && be16 bs 14 == 1
def isPfc (bs : List Byte) : Bool := bs.take 6 == pfcDest && be16 bs 12 == 0x8808 && be16 bs 14 == 0x0101

/-- A whole MAC control frame has been received: it is consumed by the MAC and enters no pipeline. -/
def takeControl (n : Nat) (bs : List Byte) (bad : Bool) (s : State) : State :=
  if bs.length + 4 < 64 || bs.length + 4 > 9216 then count .laneRxSize n s
  else if bad then count .laneRxBad n s
  else if isPause bs then takePause n s
  else takePfc n (fun p => (be16 bs 16).testBit p) ((List.range 8).map fun p => be16 bs (18 + 2 * p)) s

/-- The bytes of the priority-flow-control frame that carries given priority times (R219, R221): a time past 16 bits names no
priority. The source address is the lane's own, which the spec does not give (log 91). -/
def pfcFrame (n : Nat) (times : List Nat) : List Byte :=
  let vec := ((List.range 8).map fun p => if times.getD p 0x10000 < 65536 then 2 ^ p else 0).sum
  let bs := pfcDest ++ bytesBE 6 (Config.laneAddress n) ++ pfcType ++ pfcOpcode ++ bytesBE 2 vec
    ++ ((List.range 8).flatMap fun p => bytesBE 2 (if times.getD p 0x10000 < 65536 then times.getD p 0 else 0)) ++ List.replicate 26 0
  bs ++ bytesOf 4 (fcs32 bs)

/-- A whole frame is delivered by its lane (R174, R175). -/
def takeWhole (n : Nat) (stamp : DevTime) (bytes : List Byte) (bad : Bool) (s : State) : State :=
  if bytes.length + 4 < 64 || bytes.length + 4 > 9216 then count .laneRxSize n s
  else if bad then count .laneRxBad n s
  else if !setActive s then count .nosetDrop (n / 64) (count .laneRxFrames n s)
  else openFrame n stamp bytes false (count .laneRxFrames n s)

/-! ## Fault injection (R602 to R605) -/

def fiOf (s : State) (n : Nat) : Fi := s.fi.get n
def setFi (n : Nat) (f : Fi → Fi) (s : State) : State := { s with fi := s.fi.upd n f }

/-- A frame that begins now on a direction of a lane is subject to injection (R603). -/
def fiSubject (s : State) (n : Nat) (rx : Bool) : Bool :=
  let f := fiOf s n
  f.armed && f.open_ && f.rx == rx && decide (DevTime.diff s.time.now f.start < (nsU (1000 * f.duration) : Int))

/-- The draws for a frame (R603): drop, corrupt with its bit, reorder. -/
def fiDraw (n : Nat) (s : State) : FiFate × State :=
  let f := fiOf s n
  let dropped := decide (drawn 16 s < f.drop)
  let s := useDraw s
  if dropped then (.drop, setFi n (fun f => { f with dropped := wrapAdd 64 f.dropped 1 }) s)
  else
    let corrupt := decide (drawn 16 s < f.corrupt)
    let s := useDraw s
    let (b, s) := if corrupt then
        (some (drawn 17 s), useDraw (setFi n (fun f => { f with corrupted := wrapAdd 64 f.corrupted 1 }) s))
      else (none, s)
    let hold := decide (drawn 16 s < f.reorder)
    let s := useDraw s
    let plain : FiFate := match b with | some b => .corrupt b | none => .none
    if !hold then (plain, s)
    else if f.held.isSome then (plain, setFi n (fun f => { f with busy := wrapAdd 64 f.busy 1 }) s)
    else (.hold b, setFi n (fun f => { f with reordered := wrapAdd 64 f.reordered 1 }) s)

/-- Bit `b`, counted from the SFD on, is inverted where it lies in bytes that begin at byte `off` of the frame. -/
def fiFlip (b off : Nat) (bytes : List Byte) : List Byte :=
  if 8 * (off + 1) ≤ b && b < 8 * (off + 1) + 8 * bytes.length then
    let i := (b - 8 * (off + 1)) / 8
    bytes.set i ((bytes.getD i 0) ^^^ (1#8 <<< (b % 8)))
  else bytes

/-- The frame in a lane's hold slot is sent, or delivered to its pipeline (R603, R604). -/
def fiRelease (n : Nat) (s : State) : State :=
  match (fiOf s n).held with
  | none => s
  | some (bytes, bad, stamp, _) =>
    let rx := (fiOf s n).rx
    let s := setFi n (fun f => { f with held := none }) s
    if rx then takeWhole n stamp bytes bad s else emit (.laneFrame n bytes) s

/-- Injection on a lane ends, and any held frame is released (R604). -/
def fiEnd (n : Nat) (s : State) : State := setFi n (fun f => { f with armed := false, open_ := false }) (fiRelease n s)

/-- Injection ends on every lane (R615). -/
def endAllInjection (s : State) : State := (s.fi.map (·.1)).foldl (fun s n => fiEnd n s) s

/-- A frame is held: it waits in the lane's slot, or goes at once where injection has ended meanwhile. -/
def fiHold (n : Nat) (bytes : List Byte) (bad : Bool) (stamp : DevTime) (s : State) : State :=
  let s := setFi n (fun f => { f with held := some (bytes, bad, stamp, s.tick + nsT f.delay) }) s
  if (fiOf s n).armed then s else fiRelease n s

/-- Bytes of a frame arrive at a pipeline's MAC: more of the frame under way, its end, or a whole frame. -/
def macReceive (n : Nat) (stamp : DevTime) (bytes : List Byte) (more bad : Bool) (s : State) : State :=
  match (lane s n).rx with
  | some p =>
    let s := growFrame p bytes s
    let big := hasPkt s p && decide ((pkt s p).raw.length + 4 > 9216)
    if more then (if big then count .laneRxSize n (faultFrame p s) else s)
    else
      let s := chargeCut p ((pkt s p).raw.length + 4) s
      let s := setLane n (fun l => { l with rx := none }) s
      if !hasPkt s p then s
      else if big || (pkt s p).raw.length + 4 < 64 then count .laneRxSize n (faultFrame p s)
      else if bad then count .laneRxBad n (faultFrame p s)
      else setPkt p (fun x => { x with untested := true }) (count .laneRxFrames n s)
  | none =>
    let all := (lane s n).ctl ++ bytes
    if !(lane s n).ctl.isEmpty || isPause bytes || (isPfc bytes && pfcLane s n) then
      if more then setLane n (fun l => { l with ctl := all }) s else takeControl n all bad (setLane n (fun l => { l with ctl := [] }) s)
    else if more then openFrame n stamp bytes true s
    else takeWhole n stamp bytes bad s

/-- Bytes already received of the frame under way. -/
def rxSoFar (s : State) (n : Nat) : Nat := match (lane s n).rx with | some p => (pkt s p).raw.length | none => 0

/-- A frame arrives on a lane that delivers frames: `more`: it goes on; `bad`: its FCS is bad or a block is marked;
`ui`: the unit intervals of its stamp; `corr`, `uncorr`: codewords that RS-FEC corrected or could not, since the last row. A frame
whose first piece is shorter than 128 bytes has not begun to be delivered (R234). -/
def execLaneFrameReceived (lane : Fin 1024) (bytes : List Byte) (more bad : Bool) (ui : Fin 33) (corr uncorr : Nat) (s : State) :
    Host.Outcome State Fault Refusal :=
  let n := lane.val
  let l := Sys2Proof.Machine.lane s n
  let first := l.rx.isNone && l.ctl.isEmpty && (fiOf s n).fate == .none
  if !laneHears s n then .next s
  else if first && ((more && bytes.length < 128) || (l.state == 0 && setActive s)) then .next s
  else
    let s := countN .laneFecUncorr n uncorr (countN .laneFecCorr n corr s)
    let stamp := laneStamp s n ui.val true
    let (fate, s) := if !first then ((fiOf s n).fate, s) else if fiSubject s n true then fiDraw n s else (.none, s)
    let s := if fate == .none then s else setFi n (fun f => { f with fate := if more then fate else .none }) s
    match fate with
    | .none => .next (macReceive n stamp bytes more bad s)
    | .drop => .next s
    | .corrupt b => .next (macReceive n stamp (fiFlip b (rxSoFar s n) bytes) more true s)
    | .hold b =>
      let s := if first then setFi n (fun f => { f with acc := [], accStamp := stamp }) s else s
      let old := (fiOf s n).acc
      let piece := match b with | some b => fiFlip b old.length bytes | none => bytes
      if more then .next (setFi n (fun f => { f with acc := old ++ piece }) s)
      else .next (fiHold n (old ++ piece) (bad || b.isSome) (fiOf s n).accStamp (setFi n (fun f => { f with acc := [] }) s))

/-- R174: an IEEE 802.3 PAUSE frame, on a lane that delivers frames. -/
def execPauseFrameReceived (lane : Fin 1024) (s : State) : Host.Outcome State Fault Refusal :=
  .next (if laneHears s lane.val && !((Sys2Proof.Machine.lane s lane.val).state == 0 && setActive s) then takePause lane.val s else s)

/-! ## Priority flow control (R219 to R221) -/

def execPfcFrameReceived (lane : Fin 1024) (vector : BitVec 8) (times : List Nat) (s : State) : Host.Outcome State Fault Refusal :=
  .next (if laneHears s lane.val && pfcLane s lane.val then takePfc lane.val (fun p => vector.getLsbD p) times s else s)

/-- The pauses of a class that have run out end (R220). -/
def execPfcPauseExpiry (lane : Fin 1024) (cls : Fin 8) (s : State) : Host.Outcome State Fault Refusal :=
  .next (setLane lane.val (fun l => { l with pause := l.pause.filter fun e =>
    !(pcpMap (activeSet s) lane.val e.1 == cls.val && decide (e.2 ≤ s.tick)) }) s)

/-- R221: XOFF is repeated. -/
def execPfcXoffRepeat (port : Fin 1024) (cls : Fin 8) (s : State) : Host.Outcome State Fault Refusal :=
  let pc := 8 * port.val + cls.val
  if s.tm.xoff.has pc && decide (s.tm.xoff.get pc ≤ s.tick) then
    .next (pfcNotify port.val { s with tm := { s.tm with xoff := s.tm.xoff.put pc (s.tick + 536871) } })
  else .next s

/-! ## Spraying (R196 to R204, R215) -/

/-- Whether the lane in force differs from an ACTIVE nominal lane because its class is paused (R203). -/
def pauseSubst (s : State) (nominal c m : Nat) : Bool := laneActive s nominal && paused s nominal c && m != nominal

/-- The tries of R196: the lane found, and the state with the cursor moved on. -/
def sprayTries (ps c epoch : Nat) : Nat → State → Option Nat × State
  | 0, s => (none, s)
  | k + 1, s =>
    let x := setFor s epoch
    let cur := x.cursors.get ps
    let nominal := pathSlot x ps cur
    let s := updSet epoch (fun x => { x with cursors := x.cursors.put ps ((cur + 1) % pathLen x ps) }) s
    match resolve s (activeSet s) nominal c with
    | some m => (some m, if pauseSubst s nominal c m then count .lanePauseSubst nominal s else s)
    | none => sprayTries ps c epoch k (noteExhausted nominal s)

/-- SPRAY. -/
def execSpray (p : Nat) (s : State) : Host.Outcome State Fault Refusal :=
  let x := pkt s p
  if !hasPkt s p || x.place != .spray then .next s
  else
    let ps := bits 11 0 (md x 15)
    let c := if x.arriving then (match x.sfh0 with | some h => bits 66 64 h | none => 0) else txClass x
    match sprayTries ps c x.epoch (pathLen (setFor s x.epoch) ps) s with
    | (none, s) =>
      if x.arriving then .next (setPkt p (fun x => { x with place := .frameEnd, verdict := .psDrop ps }) s)
      else .next (dropPkt p (count .lanePsDrop ps s))
    | (some m, s) =>
      let s := setPkt p (fun x => { x with sprayed := true }) s
      if x.arriving then .next (setPkt p (fun x => { x with place := .threshold m }) s)
      else if x.transit then .next (storeToLane p m s)
      else
        let seq := s.seqs.get ps
        let s := setPkt p (fun x => { x with bytes := withSfh x.bytes (setFld 95 72 seq (sfh x.bytes)) }) s
        let s := { s with seqs := s.seqs.put ps ((seq + 1) % 2 ^ 24) }
        .next (storeToLane p m s)

/-- A class's gate is open on a lane for `span` units from now (R377). -/
def gateFor (s : State) (n c span : Nat) : Bool :=
  let g := s.gates.get (portOfLane (activeSet s) n)
  gateOpenFor g.run g.pend c s.time.now span

/-- A class is neither paused nor held by its shaper on a lane (R220, R324). -/
def classFree (s : State) (n c : Nat) : Bool := !paused s n c && shaperOk s (8 * portOfLane (activeSet s) n + c)

/-- Units of 2^-32 ns that a frame of a length takes on a lane, with preamble and gap (R377). -/
def frameSpan (len : Nat) : Nat := (len + 20) * 32 * 2 ^ 32 / 100

/-- CUT_THROUGH_THRESHOLD: the frame leaves by cut-through, or is stored (R217). It is admitted with the cells received by then, its
FCS among them once it has ended (R335). -/
def execCutThroughThreshold (p : Nat) (s : State) : Host.Outcome State Fault Refusal :=
  let x := pkt s p
  match x.place with
  | .threshold n =>
    let c := match x.sfh0 with | some h => bits 66 64 h | none => 0
    let port := portOfLane (activeSet s) n
    if !hasPkt s p then .next s
    else if laneActive s n && laneCt (activeSet s) n && ((lane s n).queues.get c).isEmpty && classFree s n c && gateFor s n c 1 then
      .next (admitThen p (.egress (8 * port + c)) (cellsOf (x.raw.length + if x.arriving && !x.untested then 0 else 4))
        (fun s => enqueue p n c (fragFate x 0 0 (setPkt p (fun x => { x with cutThrough := true }) s))) s)
    else if x.arriving then .next (setPkt p (fun x => { x with place := .store n }) s)
    else .next (storeToLane p n s)
  | _ => .next s

/-! ## Sending (R185, R324, R362 to R368, R377) -/

/-- The length of a frame with its FCS, as far as it is known: of one that still arrives, the greatest it can have, so that it never
overruns its gate (R377, log 93). -/
def lengthBound (x : Pkt) : Nat := if x.arriving then 9216 else max 60 x.bytes.length + 4

/-- The head frame of a class may begin on a lane (R185, R367, R377). -/
def mayBegin (s : State) (n c p : Nat) : Bool :=
  let x := pkt s p
  ((lane s n).state == 3 || ((lane s n).state == 2 && laneAddressed x)) && classFree s n c
    && gateFor s n c (frameSpan (lengthBound x))
    && (match x.tx.bind (·.launch) with
        | some t => !launchOn s n || !s.launchHeld.contains p || s.time.now.reached t
        | none => true)

/-- The class and head frame that a lane begins next (R185). -/
def nextFrame (s : State) (n : Nat) : Option (Nat × Nat) :=
  ([7, 6, 5, 4, 3, 2, 1, 0].filterMap fun c => ((lane s n).queues.get c).head?.map fun p => (c, p)).find? fun e => mayBegin s n e.1 e.2

/-- A transmit stamp entry is taken for a requesting frame, or its stamp is lost (R363, R364). -/
def takeStamp (n ui p : Nat) (s : State) : State :=
  match (pkt s p).tx with
  | some t =>
    if !t.tsReq then s
    else if (lane s n).stamps ≥ 16 then count .laneTsLost n (setPkt p (fun x => { x with tsLost := true, txLane := some n }) s)
    else setPkt p (fun x => { x with txStamp := some (laneStamp s n ui false), txLane := some n })
      (setLane n (fun l => { l with stamps := l.stamps + 1 }) s)
  | none => s

/-- CE of a frame that its queue marked is set as it is sent (R336). -/
def sendMark (p len : Nat) (s : State) : State :=
  match (pkt s p).ecn with
  | some pc => countBlock 0xFE02 pc len
      (setPkt p (fun x => { x with bytes := if hasSfh x.bytes then withSfh x.bytes (setFld 62 62 1 (sfh x.bytes)) else x.bytes }) s)
  | none => s

/-- The bytes of a frame that are charged as it begins: of one that still arrives, those received (log 93). -/
def begunLength (x : Pkt) : Nat := if x.arriving && !x.untested then x.raw.length else max 60 x.bytes.length + 4

/-- LANE_FRAME_BEGIN. -/
def execLaneFrameBegin (lane : Fin 1024) (ui : Fin 33) (s : State) : Host.Outcome State Fault Refusal :=
  let n := lane.val
  let l := Sys2Proof.Machine.lane s n
  if !setActive s || l.cur.isSome || (l.state != 2 && l.state != 3) || !s.pwr.ckLocked || !s.pwr.released then .next s
  else
    match l.pfc with
    | some ts => .next (count .lanePfcTx n (emit (.pfc n (pfcFrame n ts)) (setLane n (fun l => { l with pfc := none }) s)))
    | none =>
      let s := judgeHeads n s
      match nextFrame s n with
      | none => .next s
      | some (c, p) =>
        let pc := 8 * portOfLane (activeSet s) n + c
        let len := begunLength (pkt s p)
        let s := setLane n (fun l => { l with queues := l.queues.upd c (·.drop 1), cur := some p }) s
        let s := setPkt p (fun x => { x with place := .onLane n, billed := len }) s
        let s := judgeHeads n { s with launchHeld := s.launchHeld.filter (· != p) }
        let s := takeStamp n ui.val p (sendMark p len s)
        let (fate, s) := if fiSubject s n false then fiDraw n s else (.none, s)
        let s := if fate == .none then s else setFi n (fun f => { f with txFate := fate }) s
        .next (chargeShaper pc (len + 20) (countBlock 0xFE07 pc len s))

/-- LANE_FRAME_END: the frame is sent, frees its cells and leaves its epoch count. -/
def execLaneFrameEnd (lane : Fin 1024) (s : State) : Host.Outcome State Fault Refusal :=
  let n := lane.val
  match (Sys2Proof.Machine.lane s n).cur with
  | none => .next s
  | some p =>
    let x := pkt s p
    if x.arriving then .next s
    else
      let bs := x.bytes ++ List.replicate (60 - x.bytes.length) 0
      let s := setLane n (fun l => { l with cur := none }) s
      let bs := bs ++ bytesOf 4 (fcs32 bs)
      let fate := (fiOf s n).txFate
      let s := if fate == .none then s else setFi n (fun f => { f with txFate := .none }) s
      let s := match fate with
        | .none => emit (.laneFrame n bs) s
        | .drop => s
        | .corrupt b => emit (.laneFrame n (fiFlip (b % (8 * bs.length + 8)) 0 bs)) s
        | .hold b => fiHold n (match b with | some b => fiFlip (b % (8 * bs.length + 8)) 0 bs | none => bs) false s.time.now s
      .next (removePkt p (count .laneTxFrames n s))

/-- LAUNCH_TIME_REACHED: device time has reached the launch time of the head frame of a class queue, which is held no more (R367). A
head that has not been judged yet is (R368). -/
def execLaunchTimeReached (lane : Fin 1024) (cls : Fin 8) (s : State) : Host.Outcome State Fault Refusal :=
  let n := lane.val
  let s := judgeHeads n s
  match ((Sys2Proof.Machine.lane s n).queues.get cls.val).head? with
  | none => .next s
  | some p =>
    match (pkt s p).tx.bind (·.launch) with
    | none => .next s
    | some t => .next (if s.time.now.reached t then { s with launchHeld := s.launchHeld.filter (· != p) } else s)

/-! ## Lane states (R176 to R180, R222 to R226, R650) -/

/-- The REASON that a cause leaves (R176, R181). -/
def downCode : DownCause → Nat
  | .lockLost => 1
  | .hiBer => 2
  | .localFault => 3
  | .remoteFault => 4
  | .fecLockLost => 5

/-- LANE_GOES_DOWN. -/
def execLaneGoesDown (lane : Fin 1024) (cause : DownCause) (s : State) : Host.Outcome State Fault Refusal :=
  if cause == .fecLockLost && !laneFec (activeSet s) lane.val then .next s
  else .next (laneDown lane.val (downCode cause) s)

/-- LANE_LOCK_HELD: the conditions of R177 hold, so that the receiver has block lock and no hi_ber (R181, log 92); the lane returns
where 100 µs have passed since the last break. -/
def execLaneLockHeld (lane : Fin 1024) (s : State) : Host.Outcome State Fault Refusal :=
  let n := lane.val
  let l := Sys2Proof.Machine.lane s n
  if l.state == 4 || !s.pwr.ckLocked || !s.pwr.released || laneLost s n then .next s
  else if s.tick < l.brokenAt + usT 100 then .next (setLane n (fun l => { l with blockLock := true, hiBer := false }) s)
  else
    let s := setLane n (fun l => { l with blockLock := true, hiBer := false, held := true }) s
    if l.state == 1 || l.state == 5 then
      let st := if setActive s && laneListed (activeSet s) n then 2 else 0
      .next (postLane 0x0702 n (setLane n (fun l => { l with state := st, wakeBy := none }) s))
    else .next s

/-- CHIME_HEARD: the wake pattern on a parked lane (R222, R223). -/
def execChimeHeard (lane : Fin 1024) (s : State) : Host.Outcome State Fault Refusal :=
  let n := lane.val
  let l := Sys2Proof.Machine.lane s n
  if l.state != 4 then .next s
  else
    let s := setLane n (fun l => { l with chime := true }) s
    if l.chimeNext ≤ s.tick then .next (postLane 0x0703 n (setLane n (fun l => { l with chimeNext := s.tick + msT 100 }) s))
    else .next s

/-- R225: the lane is DOWN, and sends remote fault while its receiver is (R176). -/
def execLaneWakeTimeout (lane : Fin 1024) (s : State) : Host.Outcome State Fault Refusal :=
  let n := lane.val
  match (Sys2Proof.Machine.lane s n).wakeBy with
  | none => .next s
  | some t =>
    if s.tick < t then .next s
    else .next (postLaneDown n (emit (.laneSignal n false)
      (setLane n (fun l => { l with state := 1, reason := 7, wakeBy := none, unusable := true }) s)))

/-! ## Lane commands (R205, R224, R225, R228) -/

/-- The lane in PARAM bytes 0 to 1 (R205, R224). -/
def laneParam (c : CmdPkt) : Refuse := firstOf [(c.p 0 2 ≥ 1024, stBadParam)]

/-- R224. -/
def execLanePark (c : CmdPkt) (s : State) : Host.Outcome State Fault Refusal :=
  .next (runCmd 0x0702 .A false always
    (fun c s =>
      let n := c.p 0 2
      let l := lane s n
      if n ≥ 1024 then some (stBadParam, 0)
      else if l.state == 4 || l.state == 5 then some (stBadState, 0)
      else if l.state == 3 && (substNow s n).isNone && ((substs (activeSet s) n).all fun e => !laneActive s e.2) then
        some (stBadState, 0x0705)
      else none) quiet
    (fun c s =>
      let n := c.p 0 2
      let s := killRx n (setLane n (fun l => { l with
        state := 4, reason := 6, held := false, blockLock := false, hiBer := false, pause := [], pfc := none, unusable := true, ctl := [] }) s)
      let s := substitute n (emit (.laneSignal n false) s)
      done (postLaneDown n s) 0) c s)

/-- R225. -/
def execLaneWake (c : CmdPkt) (s : State) : Host.Outcome State Fault Refusal :=
  .next (runCmd 0x0703 .A false always
    (fun c s => firstOf [(c.p 0 2 ≥ 1024, stBadParam), ((lane s (c.p 0 2)).state != 4, stBadState)]) quiet
    (fun c s =>
      let n := c.p 0 2
      done (emit (.laneSignal n true) (setLane n (fun l => { l with state := 5, wakeBy := some (s.tick + msT 10), brokenAt := s.tick }) s)) 0) c s)

/-- R205. -/
def execSubstStatus (c : CmdPkt) (s : State) : Host.Outcome State Fault Refusal :=
  .next (runCmd 0x0704 .A false always (fun c _ => laneParam c) quiet
    (fun c s =>
      let n := c.p 0 2
      let sub := (substNow s n).getD (0, 0)
      let up := if setActive s then ((substs (activeSet s) n).filter fun e => laneActive s e.2).length else 0
      done s (fld 31 29 (lane s n).state + fld 28 26 sub.1 + fld 25 16 sub.2 + fld 15 13 up)) c s)

/-- Status records of `k` lanes from `n` on, written from `addr` on (R228). -/
def laneRecords (fn addr n : Nat) : Nat → State → State
  | 0, s => s
  | k + 1, s =>
    let s := hostWrite fn addr 16 (fld 127 96 (laneSts s n) + fld 95 64 (cntGet s .laneFecCorr n) + fld 63 32 (cntGet s .laneFecUncorr n)
      + fld 31 0 (cntGet s .laneRxBad n)) false s
    laneRecords fn (addr + 16) (n + 1) k s

/-- R228: the first lane in bytes 12 to 13 and the count in bytes 14 to 15 (log 13). -/
def execLaneStatus (c : CmdPkt) (s : State) : Host.Outcome State Fault Refusal :=
  .next (runCmd 0x0701 .A false always
    (fun c _ => firstOf [(!c.indirect || c.p 14 2 == 0 || c.p 14 2 > 64 || c.p 12 2 + c.p 14 2 > 1024 || c.p 8 4 < 16 * c.p 14 2, stBadParam)]) quiet
    (fun c s => done (laneRecords c.fn (c.p 0 8) (c.p 12 2) (c.p 14 2) s) (fld 63 32 (c.p 14 2))) c s)

/-! ## Reorder (R206 to R214) -/

/-- A context of the active set, or one still held. -/
def ctxOf (s : State) (key : Nat) : Ctx := s.ctxs.get key
def setCtx (key : Nat) (f : Ctx → Ctx) (s : State) : State := { s with ctxs := s.ctxs.upd key f }

/-- Held frames in SEQ order from EXPECTED (R207). -/
def heldSorted (c : Ctx) : List (Nat × Nat) :=
  let d (e : Nat × Nat) : Nat := (e.1 + 2 ^ 24 - c.expected) % 2 ^ 24
  c.held.mergeSort fun a b => d a ≤ d b

/-- The highest held number. -/
def highestHeld (c : Ctx) : Nat := ((heldSorted c).getLast?.map (·.1)).getD c.expected

/-- A frame leaves reorder: its BUF_REORDER cells are freed and it goes on (R334). -/
def releaseFrame (p : Nat) (s : State) : State :=
  carryOut p (setPkt p (fun x => { x with ordered := true, charge := {} }) s)

/-- Frames leave reorder in order. -/
def releaseAll : List (Nat × Nat) → State → State
  | [], s => s
  | e :: es, s => releaseAll es (releaseFrame e.2 s)

/-- REORDER_GAP, at most once per 1 ms and context (R213, R229). -/
def postGap (key : Nat) (s : State) : State :=
  let c := ctxOf s key
  if c.gapNew > 0 && c.gapNext ≤ s.tick then
    postAll 0x0704 16 (fld 255 247 (key / 4096) + fld 246 235 (key % 4096) + fld 234 211 c.expected + fld 210 179 (min c.gapNew (2 ^ 32 - 1)))
      (setCtx key (fun c => { c with gapNew := 0, gapNext := s.tick + msT 1 }) s)
  else s

/-- Gaps are counted. -/
def addGaps (key n : Nat) (s : State) : State :=
  if n == 0 then s else setCtx key (fun c => { c with gaps := satAdd 32 c.gaps n, gapNew := c.gapNew + n }) s

/-- Numbers from EXPECTED to the highest held that are not held. -/
def missing (c : Ctx) : Nat := (highestHeld c + 2 ^ 24 - c.expected) % 2 ^ 24 + 1 - c.held.length

/-- flush() (R208). -/
def flushCtx (key : Nat) (s : State) : State :=
  let c := ctxOf s key
  if c.held.isEmpty then setCtx key (fun c => { c with deadline := none }) s
  else
    let s := setCtx key (fun d => { d with expected := (highestHeld c + 1) % 2 ^ 24, held := [], deadline := none }) s
    releaseAll (heldSorted c) (addGaps key (missing c) s)

/-- Bytes held by a context. -/
def heldBytes (s : State) (c : Ctx) : Nat := (c.held.map fun e => (pkt s e.2).bytes.length + 4).sum

/-- The run from EXPECTED has no missing number. -/
def runWhole (c : Ctx) : Bool := !c.held.isEmpty && missing c == 0

/-- The frame is held, and the run released or the timer started (R207). -/
def holdIn (key p q : Nat) (e : Nat) (s : State) : State :=
  let s := setCtx key (fun c => { c with held := c.held ++ [(q, p)] }) s
  let s := chargePkt p { (pkt s p).charge with use := some 2, cells := cellsOf ((pkt s p).bytes.length + 4), acct := none, rxq := none } s
  let s := setPkt p (fun x => { x with place := .context key }) s
  let c := ctxOf s key
  if runWhole c then
    let s := setCtx key (fun d => { d with expected := (highestHeld c + 1) % 2 ^ 24, held := [], deadline := none }) s
    releaseAll (heldSorted c) s
  else if c.deadline.isNone then setCtx key (fun c => { c with deadline := some (s.tick + 32 * bits 101 86 e) }) s
  else s

/-- The steps of R207 once the frame is neither held already nor late. `again`: they have been restarted (R208). -/
def placeFrame (key p q e : Nat) : Nat → State → State
  | 0, s => s
  | again + 1, s =>
    let c := ctxOf s key
    let dist := (q + 2 ^ 24 - c.expected) % 2 ^ 24
    let len := (pkt s p).bytes.length + 4
    if c.held.any fun h => h.1 == q then
      removePkt p (setCtx key (fun c => { c with dups := satAdd 16 c.dups 1 }) s)
    else if after 24 c.expected q || dist == 2 ^ 23 then
      let s := setCtx key (fun c => { c with late := satAdd 32 c.late 1 }) s
      if bits 85 85 e == 1 then carryOut p (setPkt p (fun x => { x with ordered := true, late := true }) s) else dropPkt p s
    else if dist ≥ 2 ^ bits 106 102 e then
      let s := flushCtx key s
      let c := ctxOf s key
      let s := addGaps key ((q + 2 ^ 24 - c.expected) % 2 ^ 24) s
      let s := setCtx key (fun c => { c with expected := q, jumps := satAdd 8 c.jumps 1 }) s
      postGap key (holdIn key p q e s)
    else if heldBytes s c + len > bits 84 69 e * 1024 then
      let s := setCtx key (fun c => { c with flushes := satAdd 8 c.flushes 1 }) (flushCtx key s)
      if len > bits 84 69 e * 1024 then
        let c := ctxOf s key
        let s := addGaps key ((q + 2 ^ 24 - c.expected) % 2 ^ 24) s
        let s := releaseFrame p s
        postGap key (setCtx key (fun c => { c with expected := (q + 1) % 2 ^ 24, deadline := none }) s)
      else placeFrame key p q e again (postGap key s)
    else holdIn key p q e s

/-- REORDER_ARRIVAL: a frame reaches its context (R207, R211). -/
def execReorderArrival (p : Nat) (s : State) : Host.Outcome State Fault Refusal :=
  let x := pkt s p
  if !hasPkt s p || x.place != .reorder then .next s
  else
    let h := x.sfh0.getD 0
    let key := bits 116 108 h * 4096 + bits 107 96 h
    let q := bits 95 72 h
    match ctxFind (activeSet s) key with
    | none => .next (carryOut p (count .laneRoNoctx 0 (setPkt p (fun x => { x with ordered := true }) s)))
    | some e =>
      let c := ctxOf s key
      let s := setCtx key (fun d => { d with started := true, expected := if c.started then d.expected else q, lastAt := s.tick }) s
      .next (placeFrame key p q e 3 s)

/-- REORDER_TIMEOUT (R208). A row before the deadline posts the gaps that waited for the context's millisecond (R213). -/
def execReorderTimeout (key : Nat) (s : State) : Host.Outcome State Fault Refusal :=
  match (ctxOf s key).deadline with
  | none => .next (postGap key s)
  | some t =>
    if s.tick < t then .next (postGap key s)
    else .next (postGap key (setCtx key (fun c => { c with timeouts := satAdd 32 c.timeouts 1 }) (flushCtx key s)))

/-- REORDER_IDLE_EXPIRY (R210). -/
def execReorderIdleExpiry (key : Nat) (s : State) : Host.Outcome State Fault Refusal :=
  let c := ctxOf s key
  if c.started && c.held.isEmpty && decide (c.lastAt + secT 1 ≤ s.tick) then .next (setCtx key (fun c => { c with started := false }) s)
  else .next s

/-- R214. -/
def execReorderStats (c : CmdPkt) (s : State) : Host.Outcome State Fault Refusal :=
  .next (runCmd 0x0705 .A false always
    (fun c s => firstOf [(c.p 0 2 ≥ 512 || c.p 2 2 ≥ 4096, stBadParam),
      (!setActive s || (ctxFind (activeSet s) (c.p 0 2 * 4096 + c.p 2 2)).isNone, stNotFound)]) quiet
    (fun c s =>
      let key := c.p 0 2 * 4096 + c.p 2 2
      let x := ctxOf s key
      done (setCtx key (fun c => { c with gaps := 0, late := 0, timeouts := 0, dups := 0, flushes := 0, jumps := 0 }) s)
        (fld 127 96 x.gaps + fld 95 64 x.late + fld 63 32 x.timeouts + fld 31 16 x.dups + fld 15 8 x.flushes + fld 7 0 x.jumps)) c s)

end Sys2Proof.Machine
end

