-- ==== Sys2Proof/Machine/SetChecks.lean ====
section
/-! DEFINITION. What SET_LOAD checks in a set image (R143 to R151 and the rules of each section). -/
namespace Sys2Proof.Machine

/-! ## The header (R143) -/

/-- Header fields, zero fields and lengths are as R143 gives them. -/
def headerOk (b : List Byte) : Bool :=
  rd b 0 4 == 0x54534554 && rd b 4 2 == 1 && rd b 6 2 == 5376 && rd b 20 2 == 0x00B0 && 1 ≤ rd b 16 4 && rd b 16 4 ≤ 100657920
    && b.length == 5376 + rd b 16 4 && rd b 36 28 == 0 && rd b 5357 19 == 0

/-- Directory entry i of a payload. -/
def dirEntry (p : List Byte) (i : Nat) : Nat := rd p (16 * i) 16
def dType (e : Nat) : Nat := bits 15 0 e
def dInst (e : Nat) : Nat := bits 23 16 e
def dOff (e : Nat) : Nat := bits 95 64 e
def dLen (e : Nat) : Nat := bits 127 96 e

/-- The instances a section type takes: per pipeline, adapter-wide, or both (R145). -/
def instOk (t i : Nat) : Bool :=
  if t == 1 || t == 4 || t == 8 || t == 0xD then i < 16
  else if t == 2 || t == 3 then i < 16 || i == 0xFF
  else 5 ≤ t && t ≤ 0xC && i == 0xFF

/-- The sections every set holds (R145). -/
def requiredSecs : List (Nat × Nat) :=
  ((List.range 16).flatMap fun k => [(1, k), (2, k), (4, k)]) ++ [(5, 0xFF), (6, 0xFF), (7, 0xFF), (9, 0xFF), (0xA, 0xFF), (0xB, 0xFF)]

/-- No two of the intervals (start, length) of a list overlap. -/
def disjointSpans : List (Nat × Nat) → Bool
  | [] => true
  | a :: rest => (rest.all fun b => a.1 + a.2 ≤ b.1 || b.1 + b.2 ≤ a.1) && disjointSpans rest

/-- The directory meets R144 and R145, and DRAIN_LIMIT its range. -/
def directoryOk (b : List Byte) : Bool :=
  let p := b.drop 5376
  let n := rd b 22 2
  let es := (List.range n).map (dirEntry p)
  54 ≤ n && n ≤ 1024 && 100 ≤ rd b 28 4 && rd b 28 4 ≤ 1000000
    && es.all (fun e => 1 ≤ dLen e && dOff e % 64 == 0 && 16 * n ≤ dOff e && dOff e + dLen e ≤ p.length && bits 63 24 e == 0
      && instOk (dType e) (dInst e))
    && disjointSpans (es.map fun e => (dOff e, dLen e))
    && (es.map fun e => (dType e, dInst e)).Nodup
    && requiredSecs.all fun r => es.any fun e => (dType e, dInst e) == r

/-- The sections of an image. -/
def sectionsOf (b : List Byte) : List Section :=
  let p := b.drop 5376
  (List.range (rd b 22 2)).map fun i =>
    let e := dirEntry p i
    { type := dType e, inst := dInst e, data := (p.drop (dOff e)).take (dLen e) }

/-! ## PORT_MAP, SUBST_LIST, RUDIMENT (R183, R199, R194, R206) -/

/-- Every lane's entry is one of its port's. -/
def portMapOk (x : SetSlot) : Bool :=
  (secData x 7 0xFF).length == 8192 && (List.range 1024).all fun n =>
    let g := laneGroup x n
    let w := 2 ^ (g - 1)
    g ≤ 6 && bits 26 0 (portEntry x n) == 0
      && (if 1 ≤ g && g ≤ 5 then n % w == 0 && (List.range (w - 1)).all fun i =>
            laneGroup x (n + 1 + i) == 6 && bits 60 27 (portEntry x (n + 1 + i)) == bits 60 27 (portEntry x n)
          else true)
      && (g != 6 || portOfLane x n != n)

def substListOk (x : SetSlot) : Bool :=
  (secData x 6 0xFF).length == 8192 && (List.range 1024).all fun n =>
    let e := rd (secData x 6 0xFF) (8 * n) 8
    let ls := (substs x n).map (·.2)
    ([1, 2, 3, 4].all fun i => bits (16 * i - 2) (16 * i - 6) e == 0) && !ls.contains n && decide ls.Nodup

/-- The path sets that an action names: bits [11:0] of MD15, where SETs give all of them, ahead of a SET of DISP SPRAY (R194, log 95).
`v` and `m`: the value of MD15 and which of its bits SETs have given. -/
def namedPaths : List Nat → Nat → Nat → List Nat
  | [], _, _ => []
  | w :: ws, v, m =>
    let lsb := bits 41 37 w
    let mask := (2 ^ (bits 36 32 w + 1) - 1) * 2 ^ lsb
    let writes := (bits 63 58 w ≤ 8 && 1 ≤ bits 63 58 w) && bits 57 50 w == 0x8F
    let spray := bits 63 58 w == 1 && bits 57 50 w == 0x8E && lsb == 0 && bits 36 32 w ≥ 3 && bits 3 0 w == 2
    if writes && bits 63 58 w == 1 then
      namedPaths ws ((v &&& (0xFFFFFFFF - mask)) ||| ((bits 31 0 w * 2 ^ lsb) &&& mask)) (m ||| mask)
    else if writes then namedPaths ws v (m &&& (0xFFFFFFFF - mask))
    else if spray then (if m % 4096 == 4095 then [v % 4096] else []) ++ namedPaths ws v m
    else namedPaths ws v m

def rudimentOk (x : SetSlot) : Bool :=
  let d := rud x
  let np := pathCount x
  let nr := rudCount x
  1 ≤ np && np ≤ 4096 && 1 ≤ nr && nr ≤ 1024 && 1 ≤ slotTotal x && slotTotal x ≤ 262144 && ctxCount x ≤ 16384
    && d.length == rudCtxAt x + 16 * ctxCount x
    && rd d (16 + 8 * np) (rudDirAt x - (16 + 8 * np)) == 0
    && rd d (rudDirAt x + 8 * nr) (rudSlotAt x - (rudDirAt x + 8 * nr)) == 0
    && rd d (rudSlotAt x + 2 * slotTotal x) (rudCtxAt x - (rudSlotAt x + 2 * slotTotal x)) == 0
    && ((List.range np).all fun p => bits 35 0 (pathEntry x p) == 0
      && bits 63 54 (pathEntry x p) < nr && pathStart x p < pathLen x p && 1 ≤ pathHops x p)
    && ((List.range nr).all fun r =>
      let e := rudEntry x r
      bits 32 0 e == 0 && 1 ≤ bits 45 33 e && bits 45 33 e ≤ 4096 && bits 63 46 e + bits 45 33 e ≤ slotTotal x)
    && ((List.range (slotTotal x)).all fun i => rd d (rudSlotAt x + 2 * i) 2 < 1024 && laneGroup x (rudSlot x i) != 0)
    && ((ctxEntries x).all fun e => bits 68 0 e == 0 && 4 ≤ bits 106 102 e && bits 106 102 e ≤ 16 && 1 ≤ bits 101 86 e
      && 1 ≤ bits 84 69 e)
    && decide ((ctxEntries x).map ctxKey).Nodup
    && decide (((ctxEntries x).map fun e => 4 * bits 84 69 e).sum ≤ useSpace x [] 2)
    && (List.range 16).all fun k => (List.range (apCount (ap x k))).all fun a =>
      (namedPaths (actionWords (ap x k) a) 0 0).all (pathValid x)

/-! ## PARSE_GRAPH (R238) -/

/-- A next-node value names a VALID node or an exit (R237). -/
def nextOk (d : List Byte) (n : Nat) : Bool := nodeOk d n || (0xF0 ≤ n && n ≤ 0xF2)

/-- One node (R236, R238). -/
def nodeChecks (d : List Byte) (i : Nat) : Bool :=
  let g := pgNode d i
  let fix := 8 * nb g 4 1
  let kind := bits 4 3 (nb g 0 1)
  let claim := bits 2 2 (nb g 0 1) == 1
  let stack := nb g 2 1
  nb g 0 1 < 32 && kind != 3 && (nb g 1 1 < 64 || nb g 1 1 == 0xFF) && 1 ≤ stack && stack ≤ 8 && nb g 3 1 < 128 && nb g 4 1 ≤ 64
    && nb g 5 1 ≤ 8 && nb g 8 2 ≤ nb g 10 2 && nb g 10 2 ≤ 512 && nb g 14 1 ≤ 16 && nb g 15 1 ≤ 7 && nb g 16 2 ≤ 512
    && (!claim || (1 ≤ nb g 20 1 && nb g 20 1 ≤ 16)) && nb g 21 1 ≤ 7 && nb g 22 2 ≤ 512 && nb g 26 1 ≤ 16 && nb g 27 1 ≤ 16
    && (kind == 2 || nb g 31 1 == 0xFF) && nextOk d (nb g 30 1)
    && nb g 12 2 + nb g 14 1 ≤ fix && nb g 24 2 + nb g 26 1 ≤ fix && nb g 28 2 + nb g 27 1 ≤ fix
    && (!claim || nb g 18 2 + nb g 20 1 ≤ fix)
    && ((List.range 16).all fun j => j < nb g 4 1 || nb g (48 + j) 1 == 0)
    && (nb g 14 1 != 0 || nb g 10 2 == nb g 8 2)
    && nb g 6 2 + nb g 5 1 ≤ pgTrans d
    && ((List.range (nb g 5 1)).all fun t =>
      let e := pgTran d (nb g 6 2 + t)
      nb e 0 4 &&& nb e 4 4 == nb e 0 4 && nb e 4 4 < 2 ^ (nb g 26 1 + nb g 27 1))
    && ((List.range 8).all fun j =>
      let e := nb g (32 + 2 * j) 2
      bits 9 7 e ≤ 5 && (bits 9 7 e == 0 || (bits 15 10 e + exSize (bits 9 7 e) ≤ nb g 8 2
        && bits 6 0 e + (if nb g 1 1 == 0xFF then 0 else (stack - 1) * nb g 3 1) + (exSize (bits 9 7 e) + 3) / 4 ≤ 128)))
    && (nb g 1 1 == 0xFF || nb g 1 1 + stack ≤ 64)
    && (kind != 1 || 20 ≤ nb g 8 2)
    && (kind != 2 || (nb g 8 2 == 8 && nb g 10 2 == 8 && nb g 31 1 < 64))

def parseGraphOk (d : List Byte) : Bool :=
  let n := pgNodes d
  1 ≤ n && n ≤ 240 && pgTrans d ≤ 2048 && d.length == 64 + 64 * n + 16 * pgTrans d && rd d 16 48 == 0
    && nextOk d (rd d 4 1) && nextOk d (rd d 5 1) && nextOk d (rd d 6 1) && rd d 7 1 ≤ 2 && rd d 8 1 ≤ 2
    && (rd d 9 1 == 5 || rd d 9 1 == 6) && 10 ≤ rd d 10 2
    && ((List.range n).all (nodeChecks d))
    && (List.range (pgTrans d)).all fun t =>
      let e := pgTran d t
      nextOk d (nb e 8 1) && nb e 9 7 == 0 && nb e 0 4 &&& nb e 4 4 == nb e 0 4

/-! ## TABLE_LAYOUT and ACTION_PROG (R275, R284, R286, R289) -/

/-- The banks of a table. -/
def bankCount (d : Nat) : Nat := popcount16 (tBanks d)

/-- KEY_SEL names enough containers, and none after the first 0xFF (R275). -/
def keySelOk (d : Nat) : Bool :=
  let used := (tKeySel d).takeWhile (· != 0xFF)
  used.all (· < 0xC0) && ((tKeySel d).drop used.length).all (· == 0xFF) && decide ((tKeyWidth d + 3) / 4 ≤ used.length)

/-- The prefix lengths descend within the key, and unused ones come last. -/
def lpmShape (d : Nat) : Bool :=
  let l := (List.range 4).map fun i => nb d (40 + i) 1
  l == tLpm d ++ List.replicate (4 - (tLpm d).length) 0 && (tLpm d).all (· ≤ 8 * tKeyWidth d) && decide ((tLpm d).Pairwise (· > ·))

/-- An LPM table uses a length, and its banks divide equally among those it uses. -/
def lpmOk (d : Nat) : Bool := !(tLpm d).isEmpty && bankCount d % (tLpm d).length == 0

/-- One descriptor of a pipeline's section. -/
def descOk (x : SetSlot) (k d : Nat) : Bool :=
  let kind := tKind d
  let sram := kind ≤ 4
  let looked := kind != 4
  tId d < 0x40 && 1 ≤ kind && kind ≤ 5 && nb d 56 8 == 0 && nb d 7 1 < 8 && tUnit d ≤ 1 && nb d 5 1 ≤ 2
    && (!looked || tStage d < 24)
    && (if kind == 4 then tKeyWidth d == 0 else 1 ≤ tKeyWidth d && tKeyWidth d ≤ (if kind == 1 then 4 else 40))
    && (if kind == 1 then tProbe d == 1
        else 1 ≤ tProbe d && tProbe d ≤ 8
          && (kind == 5 || tProbe d ≤ (if kind == 3 then bankCount d / (tLpm d).length else bankCount d)))
    && (if sram then tBanks d != 0 else tBanks d == 0)
    && (!sram || tEntries d == bankCount d * 4096 * (64 / tEntryBytes d))
    && (kind != 4 || nb d 5 1 == 0)
    && (if looked then keySelOk d else (tKeySel d).all fun c => c < 0xC0 || c == 0xFF) && lpmShape d && (kind != 3 || lpmOk d)
    && tMiss d < apCount (ap x k)
    && (tCounter d == 0xFF || (match tableOf x k (tCounter d) with | some c => tKind c == 4 | none => false))
    && (kind != 5 || (tIssue d < tStage d && (match tableOf x 0xFF (tHbmTable d) with | some t => tKind t == 6 | none => false)))

/-- The HBM range of an HBM_HASH table: start and length. -/
def hbmSpan (d : Nat) : Nat × Nat := (tHbmBase d, 64 * tEntries d)

/-- One descriptor of the adapter-wide section (R273, R274, R666). -/
def hbmDescOk (d : Nat) : Bool :=
  0xC0 ≤ tId d && tId d ≤ 0xC7 && tKind d == 6 && nb d 56 8 == 0 && nb d 7 1 < 8 && tUnit d ≤ 1 && nb d 5 1 ≤ 2
    && 1 ≤ tKeyWidth d && tKeyWidth d ≤ 40 && lpmShape d && 1 ≤ tProbe d && tProbe d ≤ 8 && tBanks d == 0 && tEntries d % 4 == 0
    && 1 ≤ tEntries d / 4 && tEntries d / 4 ≤ 2 ^ 27
    && tHbmBase d % 256 == 0 && tHbmBase d + 64 * tEntries d ≤ 0x003000000000 && keySelOk d
    && disjointSpans [hbmSpan d, (0x000BF0000000, 0x10000000)]

/-- No bank belongs to two tables. -/
def banksApart : List Nat → Bool
  | [] => true
  | d :: ds => (ds.all fun e => tBanks d &&& tBanks e == 0) && banksApart ds

def layoutOk (x : SetSlot) (k : Nat) : Bool :=
  let ds := tlDescs x k
  let looked := ds.filter fun d => tKind d != 4
  let n := rd (tl x k) 0 2
  1 ≤ n && n ≤ 64 && (tl x k).length == 64 + 64 * n && rd (tl x k) 2 62 == 0 && ds.all (descOk x k)
    && decide ((ds.map tId).Nodup && (looked.map fun d => (tStage d, tUnit d)).Nodup) && banksApart ds

def hbmLayoutOk (x : SetSlot) : Bool :=
  !hasSec x 2 0xFF ||
    (let ds := tlDescs x 0xFF
     let n := rd (tl x 0xFF) 0 2
     1 ≤ n && n ≤ 8 && (tl x 0xFF).length == 64 + 64 * n && rd (tl x 0xFF) 2 62 == 0 && ds.all hbmDescOk
       && decide (ds.map tId).Nodup && disjointSpans (ds.map hbmSpan))

/-- The operations of R286. -/
def opOk (o : Nat) : Bool := o ≤ 0x0A || (0x10 ≤ o && o ≤ 0x15) || (0x18 ≤ o && o ≤ 0x1C)

/-- One instruction word (R285, R286). -/
def wordOk (x : SetSlot) (k w : Nat) : Bool :=
  opOk (bits 63 58 w) && bits 57 50 w < 0xC0 && bits 49 42 w < 0xC0 && bits 41 37 w + bits 36 32 w ≤ 31
    && (bits 63 58 w != 0x09 || (match tableOf x k (bits 7 0 w) with | some d => tKind d == 4 | none => false))
    && (bits 63 58 w != 0x11 || bits 7 0 w < apTemplates (ap x k))

/-- One template (R289). -/
def templateOk (d : List Byte) (t : Nat) : Bool :=
  let e := template d t
  1 ≤ rd e 0 1 && rd e 0 1 ≤ 128 && ((List.range 4).map fun i => rd e (2 + 2 * i) 1).sum == rd e 0 1
    && ((List.range 4).all fun i => rd e (1 + 2 * i) 1 ≤ 10) && rd e 9 7 == 0
    && (List.range 4).all fun i => rd e (16 + 4 * i) 1 < 0xC0 && rd e (18 + 4 * i) 1 ≤ 4 && rd e (19 + 4 * i) 1 == 0
      && (rd e (18 + 4 * i) 1 == 0 || rd e (17 + 4 * i) 1 + rd e (18 + 4 * i) 1 ≤ rd e 0 1)

def actionProgOk (x : SetSlot) (k : Nat) : Bool :=
  let d := ap x k
  1 ≤ apCount d && apCount d ≤ 256 && 1 ≤ apInstrs d && apInstrs d ≤ 8192 && apTemplates d ≤ 256 && rd d 6 58 == 0
    && ((List.range 64).all fun i => hdrClass d i ≤ 10)
    && ((List.range (apCount d)).all fun a =>
      let e := rd d (128 + 4 * a) 4
      bits 31 24 e == 0 && 1 ≤ bits 23 16 e && bits 23 16 e ≤ 32 && bits 15 0 e + bits 23 16 e ≤ apInstrs d)
    && ((List.range (apInstrs d)).all fun i => wordOk x k (rd d (apInstrAt d + 8 * i) 8))
    && ((List.range (apTemplates d)).all (templateOk d))
    && d.length == (if apTemplates d == 0 then apInstrAt d + 8 * apInstrs d else apTemplAt d + 160 * apTemplates d)

/-! ## GATE_LIST (R375) -/

def gateListOk (x : SetSlot) (k : Nat) : Bool :=
  let d := gl x k
  !hasSec x 8 k ||
    (rd d 0 2 ≤ 64 && rd d 2 6 == 0 && rd d 16 48 == 0 && gateEntriesOk (d.drop (glEntryAt d))
      && ((glDescs x k).all fun e =>
        bits 31 17 e == 0 && bits 207 190 e == 0 && bits 189 160 e < 1000000000 && cycleOk (bits 127 64 e) && bits 63 48 e ≤ 256
          && 8 * (bits 47 32 e + bits 63 48 e) ≤ (d.drop (glEntryAt d)).length && firstLane x (bits 15 0 e) && bits 15 0 e / 64 == k)
      && decide ((glDescs x k).map fun e => bits 15 0 e).Nodup
      && (List.range 64).all fun i => bits i i (rd d 8 8) == 0 || laneGroup x (64 * k + i) != 0)

/-- At most one list of a set carries STROBE. -/
def strobesOk (x : SetSlot) : Bool := (((List.range 16).flatMap (glDescs x)).filter fun e => bits 16 16 e == 1).length ≤ 1

/-! ## TM_TREE (R312) and CARVE_OUT (R331) -/

/-- R87 accepts a rate. -/
def rateOk (r : Nat) : Bool := r == 0 || (1 ≤ credit r && credit r ≤ 0xFFFFFFFF)

/-- Every node of the tree, with its QUANTUM and the reserved bits of its entry. -/
def treeNodes (x : SetSlot) : List Nat :=
  List.range 128 ++ (List.range 1152).map kPort ++ (List.range (tmInst x)).map kInst ++ (List.range (tmLeaves x)).map kLeaf
    ++ (List.range 16).map kStore

/-- Reserved bits of a node's entry are 0. -/
def nodeReserved (x : SetSlot) (n : Nat) : Bool :=
  if n < 0x1000 then bits 12 0 (classNode x n) == 0 && bits 43 29 (classNode x n) == 0
  else if n < 0x10000 then bits 12 0 (portNode x (n - 0x1000)) == 0 && bits 43 29 (portNode x (n - 0x1000)) == 0
  else if n < 0x20000 then bits 12 0 (instNode x (n - 0x10000)) == 0
  else if n < 0x30000 then bits 53 0 (leafEntry x (n - 0x20000)) == 0
  else bits 20 0 (storeLeaf x (n - 0x30000)) == 0

/-- A VALID node stands in the tree. -/
def nodePlaced (x : SetSlot) (n : Nat) : Bool :=
  let a := nodeParent x n
  1 ≤ nodeQuantum x n && (a ≥ kRoot 0 || nodeValid x a)
    && (if 0x10000 ≤ n && n < 0x20000 then a < kPort 1152 && (a - kPort 0) % 9 != 8 else true)
    && (if 0x20000 ≤ n && n < 0x30000 then
          let e := leafEntry x (n - 0x20000)
          bits 57 57 e == 0 || (bits 77 58 e < tmPolicers x && bits 87 87 (policerEntry x (bits 77 58 e)) == 1)
        else true)
    && (match nodeShaper x n with | some i => 8192 ≤ i && shaperValid x i | none => true)

def tmTreeOk (x : SetSlot) : Bool :=
  let ns := treeNodes x
  let valid := ns.filter (nodeValid x)
  tmInst x ≤ 32768 && tmLeaves x ≤ 65536 && tmPolicers x ≤ 1048576 && rd (tm x) 13 51 == 0
    && (tm x).length == tmPolicerAt x + 32 * tmPolicers x
    && rd (tm x) (10304 + 8 * tmInst x) (tmLeafAt x - (10304 + 8 * tmInst x)) == 0
    && rd (tm x) (tmLeafAt x + 16 * tmLeaves x) (tmStoreAt x - (tmLeafAt x + 16 * tmLeaves x)) == 0
    && ns.all (nodeReserved x) && valid.all (nodePlaced x) && decide (valid.filterMap (nodeShaper x)).Nodup
    && ((List.range 16384).all fun i =>
      let e := shaperEntry x i
      bits 38 0 e == 0 && (!shaperValid x i || (rateOk (bits 127 80 e) && 1 ≤ bits 79 48 e && (i ≥ 8192 || firstLane x (i / 8)))))
    && (List.range (tmPolicers x)).all fun i =>
      let e := policerEntry x i
      bits 85 0 e == 0 && (bits 87 87 e == 0 || (rateOk (bits 255 208 e) && rateOk (bits 207 160 e) && 1 ≤ bits 159 128 e
        && 1 ≤ bits 127 96 e && bits 255 208 e ≤ bits 207 160 e))

def carveOutOk (x : SetSlot) : Bool :=
  (carve x).length == 192 + 16 * 8192 && rd (carve x) 0 4 < 2 ^ 20 && rd (carve x) 4 4 < 2 ^ 20 && rd (carve x) 8 56 == 0
    && ((List.range 8).all fun h => bits 84 0 (hostCarve x h) == 0)
    && decide (((List.range 8192).map (egrMin x)).sum ≤ useSpace x [] 0)
    && decide (((List.range 8).map fun h => bits 127 108 (hostCarve x h) + bits 107 88 (hostCarve x h)).sum + storeTxLimit x
        + storeRxLimit x ≤ useSpace x [] 1)
    && (List.range 8192).all fun pc =>
      bits 24 0 (classCarve x pc) == 0
        && (if pfcClass x (pc / 8) (pc % 8) && firstLane x (pc / 8) then xonCells x pc < xoffCells x pc
            else xoffCells x pc == 0 && xonCells x pc == 0 && hdrmCells x pc == 0)
        && (firstLane x (pc / 8) || classCarve x pc == 0)

/-! ## OWNERSHIP (R149 to R151) -/

/-- A feature may own a resource (R150). -/
def featureFits (kind idx f : Nat) : Bool :=
  f == 0 || (kind == 1 && ((f == 1 && idx == 0) || f == 2)) || (kind == 2 && (f == 3 || f == 4)) || (kind == 3 && 5 ≤ f && f ≤ 8)

def ownershipOk (x : SetSlot) : Bool :=
  let es := ownEntries x
  (secData x 0xB 0xFF).length == 12352
    && (es.all fun e =>
      let k := bits 63 56 e
      let i := bits 55 40 e
      bits 39 32 e == 0 && bits 15 0 e == 0 && featureFits k i (bits 31 16 e)
        && ((k == 1 && i < 8) || (k == 2 && i < 1024) || (k == 3 && i < 512)))
    && decide (es.map fun e => (bits 63 56 e, bits 55 40 e)).Nodup

/-! ## Retired resources (R589) and placement (R147) -/

/-- A set uses a retired bank or the lanes of a retired pipeline or engine. -/
def usesRetired (s : State) (x : SetSlot) : Bool :=
  ((List.range 16).any fun k => (tlDescs x k).any fun d => (lostBanks s k).any fun b => (tBanks d).testBit b)
    || (List.range 1024).any fun n => laneGroup x n != 0 && laneLost s n

/-- A set gives a segment of a lost buffer slice to a feature. -/
def ownsRetired (s : State) (x : SetSlot) : Bool :=
  (ownEntries x).any fun e => bits 63 56 e == 3 && bits 31 16 e != 0 && s.kiln.buf.lost.contains (bits 55 40 e / 64)

/-- The banks and HBM ranges of two sets are disjoint (R147). -/
def placedApart (x y : SetSlot) : Bool :=
  ((List.range 16).all fun k => (tlDescs x k).all fun d => (tlDescs y k).all fun e => tBanks d &&& tBanks e == 0)
    && (tlDescs x 0xFF).all fun d => (tlDescs y 0xFF).all fun e => disjointSpans [hbmSpan d, hbmSpan e]

/-- A logical bank of a pipeline is placed by the active or the shadow set (R575). -/
def bankPlaced (s : State) (k b : Nat) : Bool :=
  let used (x : SetSlot) := x.valid && (tlDescs x k).any fun d => (tBanks d).testBit b
  used s.sets.a || used s.sets.b

/-! ## Initial entries (R282, R303, log 14) -/

/-- Where an entry with a key goes: the first empty slot of its probe sequence, as the free handle, and the sub-table. -/
def subOf (d plen : Nat) : Option (Option Nat × Nat × Nat) :=
  if tKind d == 3 then (tSubs d).find? fun t => t.1 == some plen else some (none, 0, tRows d)

/-- The handles of a key's probe sequence. -/
def seqOf (d : Nat) (sub : Option Nat × Nat × Nat) (key : List Byte) : List Nat :=
  if tKind d == 1 then (if ofBytesBE key < tEntries d then [ofBytesBE key] else [])
  else (subRows d sub key).flatMap (rowHandles d)

/-- The handle that holds a key. -/
def findKey (x : SetSlot) (inst d : Nat) (hs : List Nat) (key : List Byte) : Option Nat :=
  hs.find? fun h => x.entries.has (tKey inst (tId d) h) && (x.entries.get (tKey inst (tId d) h)).key == key

/-- The first empty slot. -/
def freeHandle (x : SetSlot) (inst d : Nat) (hs : List Nat) : Option Nat := hs.find? fun h => !x.entries.has (tKey inst (tId d) h)

/-- The pipelines whose actions an entry of a table may name: its own, or those whose HBM_REF names it (R275, R304). -/
def usersOf (x : SetSlot) (inst table : Nat) : List Nat :=
  if inst < 16 then [inst]
  else (List.range 16).filter fun k => (tlDescs x k).any fun d => tKind d == 5 && tHbmTable d == table

/-- An ACTION is below the ACTION_COUNT of every pipeline that uses the table. -/
def actionFits (x : SetSlot) (inst table a : Nat) : Bool := (usersOf x inst table).all fun k => a < apCount (ap x k)

/-- A key fits a table: its width, and no bit beyond its prefix length. -/
def keyFits (d : Nat) (key : List Byte) (plen : Nat) : Bool :=
  key.length == tKeyWidth d && (tKind d != 3 || ((tLpm d).contains plen && maskKey key plen == key))

/-- Action data that an entry holds (R280): the bytes after its first 4 and its key, padded to whole words. -/
def dataRoom (d : Nat) : Nat :=
  (if tKind d == 6 then 64 else tEntryBytes d) - 4 - (if tKind d == 1 then 0 else 4 * ((tKeyWidth d + 3) / 4))

/-- One initial entry is placed, or the section is refused. -/
def placeInit (x : SetSlot) (e : InitEntry) : Option SetSlot :=
  match tableOf x e.inst e.table with
  | none => none
  | some d =>
    if tKind d == 4 || tKind d == 5 || !keyFits d e.key e.plen || !actionFits x e.inst e.table e.action || dataRoom d < e.data.length then none
    else
      match subOf d e.plen with
      | none => none
      | some sub =>
        let hs := seqOf d sub e.key
        if (findKey x e.inst d hs e.key).isSome then none
        else
          match freeHandle x e.inst d hs with
          | none => none
          | some h =>
            let t : TEntry := { hit := true, action := e.action, key := e.key, data := e.data }
            some { x with entries := x.entries.put (tKey e.inst e.table h) t }

/-- The initial entries and counter values of a set are placed. -/
def placeInits (x : SetSlot) (i : SetInit) : Option SetSlot :=
  let cs : SMap Ctr := i.counters.foldl (fun m c => m.put (tKey c.1 c.2.1 c.2.2.1) { pk := c.2.2.2.1, by_ := c.2.2.2.2 }) []
  (i.entries.foldlM placeInit x).map fun y => { y with counters := cs }

/-- TABLE_INIT's counter values name COUNTER tables. -/
def countersFit (x : SetSlot) (i : SetInit) : Bool :=
  i.counters.all fun c => match tableOf x c.1 c.2.1 with | some d => tKind d == 4 && c.2.2.1 < tEntries d | none => false

/-- META_LAYOUT names six metadata containers. -/
def metasFit (x : SetSlot) (i : SetInit) : Bool :=
  i.metas.all fun m => hasSec x 0xD m.1 && m.2.length == 6 && m.2.all (· < 64)

/-- Check 9 of R146 but for TABLE_INIT. -/
def sectionsOk (x : SetSlot) : Bool :=
  portMapOk x && substListOk x && rudimentOk x && hbmLayoutOk x && tmTreeOk x && carveOutOk x && strobesOk x
    && (List.range 16).all fun k => parseGraphOk (pg x k) && layoutOk x k && actionProgOk x k && gateListOk x k

end Sys2Proof.Machine
end

