-- ==== Sys2Proof/Machine/SetOps.lean ====
section
/-! DEFINITION. What a firing, a drain and the loss of the sets do (chapter 05). -/
namespace Sys2Proof.Machine

/-! ## Trusted keys (R130, R146, R610) -/

/-- A hash slot is usable (R610). -/
def HashSlot.usable (h : HashSlot) : Bool := h.written && !h.revoked

/-- A public key's hash stands in a usable slot of a group (FW_KEY 0, SET_KEY 16, OP_KEY 32). -/
def keyTrusted (s : State) (group : Nat) (pub : List Byte) : Bool :=
  [0, 1, 2, 3].any fun i => (s.sec.hashes.get (group + i)).usable && (s.sec.hashes.get (group + i)).hash == sha3 pub

/-! ## Punt records (R124, R127, R128) -/

/-- A punt record as it lies in its slot: header, captured bytes, zeros to a multiple of 64 bytes; its length and its value. -/
def Punt.record (r : Punt) : Nat × Nat := (64 * ((64 + r.cap.length + 63) / 64), r.hdr + ofBytes r.cap * 2 ^ 512)

/-- Bytes of a record, read off its CAP_LEN. -/
def puntSize (rec_ : Nat) : Nat := 64 * ((64 + bits 223 208 rec_ + 63) / 64)

/-- A punt record is written into the adapter manager's ring, and the vector raised. -/
def writePunt (rec_ : Nat) (s : State) : State :=
  let r := (fnOf s 0).punt
  let s := hostWrite 0 (r.base.toNat + 512 * (r.pi.toNat % 2 ^ r.log2.toNat)) (puntSize rec_) rec_ false s
  raiseVector 0 r.vector.toNat (setFn 0 (fun f => { f with punt := { f.punt with pi := f.punt.pi + 1 } }) s)

/-- A forwarded record is written, or held, or dropped and counted. -/
def forwardPunt (rec_ : Nat) (s : State) : State :=
  let r := (fnOf s 0).punt
  if r.held.isEmpty && r.dropped == 0 && r.room && recordsFlow s 0 then writePunt rec_ s
  else if r.held.length < 256 then setFn 0 (fun f => { f with punt := { f.punt with held := f.punt.held ++ [rec_] } }) s
  else setFn 0 (fun f => { f with punt := { f.punt with
    dropped := satAdd 32 f.punt.dropped 1, heldDrop := satAdd 32 f.punt.heldDrop (bit !f.punt.set) } }) s

/-- Held punt records are written while there is room. -/
def flushPuntsN : Nat → State → State
  | 0, s => s
  | n + 1, s =>
    match (fnOf s 0).punt.held with
    | [] => s
    | r :: rest =>
      if (fnOf s 0).punt.room && recordsFlow s 0 then
        flushPuntsN n (writePunt r (setFn 0 (fun f => { f with punt := { f.punt with held := rest } }) s))
      else s

/-- Held punt records follow the room freed, then PUNT_OVERFLOW where any were dropped (R124, R126). -/
def flushPunts (s : State) : State :=
  let s := flushPuntsN 256 s
  let r := (fnOf s 0).punt
  if r.held.isEmpty && r.dropped > 0 && r.room && recordsFlow s 0 then
    deliverEvent 0 (eventRecord s 0x0105 none 0xFF (fld 255 224 r.dropped + fld 223 192 r.heldDrop))
      (setFn 0 (fun f => { f with punt := { f.punt with dropped := 0, heldDrop := 0 } }) s)
  else s

/-- PUNT_HANDLER: a control core runs the handler of the set that served the packet on the oldest record of a pipeline (R127); a
set without handlers forwards every record (log 14). -/
def execPuntHandler (k : Fin 16) (s : State) : Host.Outcome State Fault Refusal :=
  match s.punts.get k.val with
  | [] => .next s
  | r :: rest =>
    if !s.fw.ready then .next s
    else
      let s := { s with punts := s.punts.put k.val rest }
      match (setFor s (bits 47 32 r.hdr)).handlers with
      | some hs => .next (if hs.contains (bits 15 0 r.hdr) then forwardPunt r.record.2 s else s)
      | none => .next (forwardPunt r.record.2 s)

/-! ## Loss of the sets and of packets (R46, R352) -/

/-- The sets are EMPTY and none is active; EPOCH is kept. What follows the active set goes with it. -/
def setsCleared (s : State) : State :=
  { s with
    sets := { epoch := s.sets.epoch }
    gates := [], strobe := [], ctxs := [], seqs := [], ages := []
    time := { s.time with ppsOn := false, ppsHigh := false }
    tm := { s.tm with leafQ := [], nodes := [], shapers := [], policers := [], xoff := [] }
    lanes := s.lanes.mapAll fun _ l => { l with state := if l.state == 2 || l.state == 3 then 0 else l.state } }

/-- FIRING_CANCELLED (R173). -/
def postCancelled (instant : DevTime) (target reason : Nat) (s : State) : State :=
  postAll 0x0403 0xFF (fld 255 192 instant.stamp + fld 191 176 target + fld 135 128 reason) s

/-- The sets are lost: an armed firing is withdrawn with LOSS_OF_LOCK (R162). -/
def setsEmptied (s : State) : State :=
  let a := s.sets.arm
  let s := setsCleared s
  match a with
  | some a => postCancelled a.instant a.target 2 s
  | none => s

/-- The storage cache is invalidated. -/
def cacheInvalidate (s : State) : State := { s with store := { s.store with lines := [], fills := [] } }

/-- What the zeroisation of SCRAP leaves of the memories (R617). -/
def zeroiseMemories (s : State) : State :=
  let s := cacheInvalidate (packetsLost (setsCleared s))
  { s with hbm := {}, xport := {}, store := { s.store with nss := [], cmds := [] }, learns := [] }

/-! ## A packet leaves wherever it stands (R171) -/

/-- A packet is taken out of the queue, context or lane that holds it. -/
def unplace (p : Nat) (s : State) : State :=
  let x := pkt s p
  match x.place with
  | .laneQ n c => setLane n (fun l => { l with queues := l.queues.upd c fun q => q.filter (· != p) }) s
  | .onLane n => emit (.laneCut n) (setLane n (fun l => { l with cur := none }) s)
  | .hold => { s with holdQ := s.holdQ.upd x.pipe fun q => q.filter (· != p) }
  | .context key =>
    { s with ctxs := s.ctxs.upd key fun c =>
      let held := c.held.filter (·.2 != p)
      { c with held := held, deadline := if held.isEmpty then none else c.deadline } }
  | .delivery q => { s with deliveries := s.deliveries.upd q fun l => l.filter (· != p) }
  | .leaf n => { s with tm := { s.tm with leafQ := s.tm.leafQ.upd n fun q => q.filter (· != p) } }
  | .engine => { s with xport := { s.xport with inq := s.xport.inq.filter (· != p) } }
  | _ => s

/-- Operations of a packet that is gone are forgotten. -/
def forgetOps (p : Nat) (s : State) : State :=
  let keep (l : List CipherOp) : List CipherOp := l.filter fun o => o.req != .packet p
  { s with ciph := { s.ciph with queue := keep s.ciph.queue, bound := keep s.ciph.bound } }

/-- A packet is dropped and counted in no counter. -/
def expunge (p : Nat) (s : State) : State :=
  let k := (pkt s p).pipe
  holdBack k (removePkt p (forgetOps p (unplace p s)))

/-- The packets that an epoch's count holds. -/
def epochPkts (s : State) (e : Nat) : List Nat := (s.pkts.filter fun q => q.2.counted && q.2.epoch == e).map (·.1)

/-- Every packet of an epoch is dropped and its fragment entries freed. -/
def dropEpoch (e : Nat) (s : State) : State :=
  let s := (epochPkts s e).foldl (fun s p => if hasPkt s p then expunge p s else s) s
  (s.frags.filter fun f => f.2.epoch == e).foldl (fun s f => freeFrag f.1 s) s

/-- The drain of the old set ends (R170, R409): SET_DRAINED, and the key indices that waited for it are free. -/
def endDrain (old dropped : Nat) (limit : Bool) (s : State) : State :=
  let s := { s with
    sets := { s.sets with drain := none }
    keys := { s.keys with slots := s.keys.slots.mapAll fun _ k =>
      { k with held := match k.held with | some n => if n < s.keys.firings then none else some n | none => none } } }
  postAll 0x0402 0xFF (fld 255 192 s.time.now.stamp + fld 191 176 old + fld 175 144 (min dropped (2 ^ 32 - 1)) + fld 128 128 (bit limit)) s

/-! ## A firing (R160, R164) -/

/-- What of the buckets lasts from one set to the next (R90, R164): the tokens of an index that both list, cut to the new depth. -/
def shapersKept (s : State) (old new : SetSlot) : SMap Int :=
  (List.range 16384).filterMap fun i =>
    if shaperValid old i && shaperValid new i then
      let t := if s.tm.shapers.has i then s.tm.shapers.get i else shaperDepth old i
      if t ≥ shaperDepth new i then none else some (i, t)
    else none

def policersKept (s : State) (old new : SetSlot) : SMap (Nat × Nat) :=
  (List.range (min (tmPolicers old) (tmPolicers new))).filterMap fun i =>
    let o := policerEntry old i
    let e := policerEntry new i
    if bits 87 87 o == 1 && bits 87 87 e == 1 then
      let t := if s.tm.policers.has i then s.tm.policers.get i else (bits 159 128 o * 65536, bits 127 96 o * 65536)
      some (i, (min t.1 (bits 159 128 e * 65536), min t.2 (bits 127 96 e * 65536)))
    else none

/-- The trees over a firing (R164, R339): nodes of both sets keep their deficits, and children their places under the same parent. -/
def nodesKept (s : State) (old new : SetSlot) : SMap Node :=
  let both : SMap Node := s.tm.nodes.filter fun e => e.1 ≥ kRoot 0 || (nodeValid new e.1 && nodeValid old e.1)
  both.mapAll fun a v =>
    { v with active := v.active.filter fun c => nodeValid new c && nodeParent new c == a }

/-- Packets prefetched in leaves that the new set does not list go under the old epoch, through the pipeline that the old set gave
their leaf (R339). -/
def orphanPkts (old : Nat) (new : SetSlot) (s : State) : State :=
  { s with pkts := s.pkts.mapAll fun _ x =>
    match x.place with
    | .leaf n =>
      if nodeValid new n then x
      else { x with counted := true, epoch := if x.counted then x.epoch else old
                    pipe := if nodeValid (setFor s old) n then leafPipe (setFor s old) n else x.pipe }
    | _ => x }

/-- The features that a firing disables: those whose resource has another owner (R164). -/
def featsOff (s : State) (new : SetSlot) : List (Nat × Nat × Nat) := s.sets.feats.filter fun f => ownerFeature new f.1 f.2.1 != f.2.2

/-- Lanes on which injection that holds the lane timer loses it (R604). -/
def fiLost (s : State) (old new : SetSlot) : List Nat :=
  (s.fi.filter fun e => e.2.armed && ownerFeature old 2 e.1 != ownerFeature new 2 e.1).map (·.1)

/-- Features follow the new set's owners; the count of those disabled. -/
def fireFeatures (old new : SetSlot) (s : State) : Nat × State :=
  let off := featsOff s new
  let pps := s.time.ppsOn && ownerFeature new 1 0 != 1
  let fis := fiLost s old new
  let n := off.length + bit pps + (fis.filter fun i => (fiOf s i).reorder != 0).length
  let s := { s with sets := { s.sets with feats := s.sets.feats.filter fun f => !off.contains f } }
  let s := { s with strobe := (off.filter fun f => f.1 == 1).foldl (fun m f => m.del f.2.1) s.strobe }
  let s := if pps then { s with time := { s.time with ppsOn := false, ppsHigh := false } } else s
  (n, fis.foldl (fun s i => fiEnd i s) s)

/-- A lane's state at E (R180). -/
def fireLane (s : State) (new : SetSlot) (n : Nat) (l : Lane) : Lane :=
  let listed := laneListed new n
  if !listed then (if l.state == 2 || l.state == 3 then { l with state := 0, pfc := none } else l)
  else if laneLost s n then l
  else if l.state == 2 then { l with state := 3, exhausted := false, unusable := false }
  else if l.state == 0 then
    (if l.held then { l with state := 3, exhausted := false, unusable := false } else { l with state := 1, reason := 1, unusable := true })
  else l

/-- The lanes at E; one that enters DOWN sends remote fault while its receiver is down (R176). -/
def fireLanes (new : SetSlot) (s : State) : State :=
  (List.range 1024).foldl (fun s n =>
    if laneListed new n || s.lanes.has n then
      let s' := setLane n (fun l => fireLane s new n l) s
      if (lane s' n).state == 1 && (lane s n).state == 0 then emit (.laneSignal n false) s' else s'
    else s) s

/-- Flow control at E (R338): a port-class that loses it sends XON, and the others are judged by the new thresholds. -/
def fireXoff (old new : SetSlot) (s : State) : State :=
  let on := s.tm.xoff.map (·.1)
  let lost := on.filter fun pc => xoffCells new pc == 0 || !pfcClass new (pc / 8) (pc % 8) || !firstLane new (pc / 8)
  let s := lost.foldl (fun s pc =>
    let s := { s with tm := { s.tm with xoff := s.tm.xoff.del pc } }
    (portLanes old (pc / 8)).foldl (fun s n =>
      if (lane s n).state == 2 || (lane s n).state == 3 then
        setLane n (fun l =>
          let was := l.pfc.getD (List.replicate 8 0x10000)
          { l with pfc := some ((List.range 8).map fun p =>
            if pfcEn old (pc / 8) p && pcpMap old (pc / 8) p == pc % 8 then 0 else was.getD p 0x10000) }) s
      else s) s) s
  let pcs := (s.pkts.filterMap fun q => q.2.charge.ip) ++ s.tm.xoff.map (·.1)
  pcs.eraseDups.foldl (fun s pc => evalXoff pc s) s

/-- Reorder contexts at E (R212). -/
def fireContexts (new : SetSlot) (s : State) : State :=
  (s.ctxs.map (·.1)).foldl (fun s key =>
    let c := ctxOf s key
    match ctxFind new key with
    | none => releaseAll (heldSorted c) { s with ctxs := s.ctxs.del key }
    | some e =>
      let span := (highestHeld c + 2 ^ 24 - c.expected) % 2 ^ 24
      if !c.held.isEmpty && (span ≥ 2 ^ bits 106 102 e || heldBytes s c > bits 84 69 e * 1024) then postGap key (flushCtx key s)
      else s) s

/-- Gate lists at E (R164, R381, R382). -/
def fireGates (new : SetSlot) (s : State) : State :=
  let ports := ((List.range 1024).filter fun p => (glOf new p).isSome) ++ s.gates.map (·.1)
  ports.eraseDups.foldl (fun s p =>
    match if firstLane new p then glOf new p else none with
    | some (base, l) =>
      let r := startGate base l s.time.now
      postStartAdvanced p r.2 r.1.start true (setGate p (fun g => { g with pend := some r.1 }) s)
    | none => setGate p (fun _ => {}) s) s

/-- Path sets: SEQ counters go on where both sets have the path set (R164), and the new set's cursors stand at START (R198). -/
def fireSprays (old new : SetSlot) (s : State) : State :=
  let e := s.sets.epoch
  let s := { s with seqs := s.seqs.filter fun q => pathValid old q.1 && pathValid new q.1 }
  updSet e (fun x => { x with cursors := ((List.range (pathCount new)).filter (pathValid new)).map fun p => (p, pathStart new p) }) s

/-- Scan periods stay for tables of both sets (R302). -/
def agesKept (s : State) (old new : SetSlot) : SMap Nat :=
  s.ages.filter fun a => (tableOf old (a.1 / 256) (a.1 % 256)).isSome && (tableOf new (a.1 / 256) (a.1 % 256)).isSome

/-- The segments that wait from E on: those that waited before, and those whose use the firing changes (R164). -/
def segTurns (s : State) (old : SetSlot) : List SegTurn :=
  (s.tm.turns.filter (turnWaits s)) ++ (List.range 512).filterMap fun n =>
    match segUse old n with
    | none => none
    | some u =>
      if s.tm.turns.any fun t => t.seg == n && turnWaits s t then none
      else some { seg := n, use := u, held := (s.pkts.filter fun q => q.2.charge.use == some u).map (·.1) }

/-- The firing takes effect (R160 to R167). -/
def fire (a : Arm) (s : State) : State :=
  let on := s.sets.on
  let oldE := s.sets.epoch
  let old := if on then activeSet s else {}
  let new := setFor s a.target
  let s := { s with
    tm := { s.tm with shapers := shapersKept s old new, policers := policersKept s old new, nodes := nodesKept s old new
                      turns := (segTurns s old).filter fun t => segUse new t.seg != some t.use && (segUse new t.seg).isSome }
    ages := agesKept s old new
    keys := { s.keys with firings := s.keys.firings + 1 }
    sec := { s.sec with meas := (s.sec.meas.put 2 (s.sec.meas.get 3)).put 3 (s.sec.meas.get 2) }
    sets := { s.sets with
      epoch := a.target, on := true, arm := none
      drain := if on then some oldE else none, drainBy := s.tick + usT new.drainLimit
      straddle := if a.pod then some oldE else none, straddleBy := s.tick + usT 20 } }
  let (off, s) := fireFeatures old new s
  let s := fireGates new (fireSprays old new (orphanPkts oldE new s))
  let s := kickAll (placeAll (fireXoff old new (fireContexts new (fireLanes new s))))
  postAll 0x0401 0xFF (fld 255 192 s.time.now.stamp + fld 191 176 a.target + fld 175 160 oldE + fld 159 144 (min off 65535)
    + fld 129 129 (bit a.pod) + fld 128 128 (bit (a.target % 2 == 0))) s

/-- A scheduled firing is withdrawn (R163, R168): the shadow is READY again. -/
def withdraw (reason : Nat) (s : State) : State :=
  match s.sets.arm with
  | none => s
  | some a => postCancelled a.instant a.target reason { s with sets := { s.sets with arm := none } }

/-- Less than `us` microseconds, or exactly as many, remain before an instant. -/
def within (s : State) (t : DevTime) (us : Nat) : Bool := decide (DevTime.diff t s.time.now ≤ (nsU (1000 * us) : Int))

/-- Table writes are refused, and a firing is no longer withdrawn, from 10 µs before the instant (R158, R163). -/
def nearFiring (s : State) : Bool := match s.sets.arm with | some a => within s a.instant 10 | none => false

end Sys2Proof.Machine
end

