-- ==== Sys2Proof/Machine/Power.lean ====
section
/-! DEFINITION. Power, clocks, regions, firmware start. -/
namespace Sys2Proof.Machine

/-! ## Regions and limits (R49 to R62) -/

/-- The neighbours of a region (R50). -/
def neighbours (k : Nat) : List Nat :=
  if k < 16 then [(k + 15) % 16, (k + 1) % 16, 16 + k / 4]
  else if k < 20 then
    let c := k - 16
    [16 + (c + 3) % 4, 16 + (c + 1) % 4, 4 * c, 4 * c + 1, 4 * c + 2, 4 * c + 3, 20, 23]
      ++ (if c = 0 then [22] else []) ++ (if c = 2 ∨ c = 3 then [21] else [])
  else if k = 20 then [16, 17, 18, 19, 23]
  else if k = 21 then [18, 19, 23]
  else if k = 22 then [16, 23]
  else [16, 17, 18, 19, 20, 21, 22]

/-- A region's latest samples. -/
def regionOf (s : State) (k : Nat) : Region := s.pwr.regions.get k

/-- A region changes. -/
def setRegion (k : Nat) (f : Region → Region) (s : State) : State :=
  { s with pwr := { s.pwr with regions := s.pwr.regions.upd k f } }

/-- The pairs of a region that can be compared: both sides have been sampled since their resets (R54, R55, log 39). -/
def sampledNb (s : State) (k : Nat) : List Nat :=
  if (regionOf s k).sampled then (neighbours k).filter fun n => (regionOf s n).sampled else []

/-- Neighbours against which `k` is the lower-voltage side beyond 60 mV (R57). -/
def overV (s : State) (k : Nat) : List Nat :=
  (sampledNb s k).filter fun n => (regionOf s k).vdd + 60 < (regionOf s n).vdd

/-- Neighbours against which `k` is the hotter side beyond 30 °C (R57). -/
def overT (s : State) (k : Nat) : List Nat :=
  (sampledNb s k).filter fun n => decide ((regionOf s n).tj + 30 < (regionOf s k).tj)

/-- Every pair of `k` is below 50 mV and below 25 °C (R59). -/
def pairsCalm (s : State) (k : Nat) : Bool :=
  (sampledNb s k).all fun n =>
    let a := regionOf s k
    let b := regionOf s n
    ((a.vdd : Int) - b.vdd).natAbs < 50 && (a.tj - b.tj).natAbs < 25

/-- A supply that is being raised stays so until no neighbour is 50 mV above the region (R62). -/
def stillLow (s : State) (k : Nat) : Bool :=
  (match (regionOf s k).lowSince with | some t => decide (t + msT 1 ≤ s.tick) | none => false)
    && (sampledNb s k).any fun n => (regionOf s k).vdd + 50 ≤ (regionOf s n).vdd

/-- The limit flags of a region after a sample (R55, R59, R62). NEIGHBOUR is the voltage neighbour where there is one (R61); of
several, the first in the order in which R50 lists them, and while no pair is beyond its limit the last one found (log 86). -/
def judgeRegion (s : State) (k : Nat) : State :=
  let v := overV s k
  let t := overT s k
  let c := pairsCalm s k
  let low := stillLow s k
  setRegion k (fun r => { r with
    limitV := !v.isEmpty, limitT := !t.isEmpty, nb := v.headD (t.headD r.nb),
    calm := if c then some (r.calm.getD s.tick) else none,
    lowSince := if (!v.isEmpty || low) && r.monStep == 3 then some (r.lowSince.getD s.tick) else none }) s

/-- The hottest sampled region, the first of equals. -/
def hottest (s : State) : Nat :=
  let rs := s.pwr.regions.filter fun p => p.2.sampled
  rs.foldl (fun b p => if p.2.tj > (regionOf s b).tj then p.1 else b) ((rs.map (·.1)).headD 0)

/-- The mean of the last ten totals, U12.4 W (R646), rounded to nearest even (R16). -/
def meanTotal (s : State) : Nat := rneDiv s.pwr.totals.sum 10

/-- THERMAL_WARN (R664). -/
def postThermalWarn (region : Nat) (cap : Bool) (s : State) : State :=
  postAll 0x0B02 region (fld 255 251 region + fld 250 242 (ofSigned 9 (regionOf s region).tj) + fld 241 241 (bit cap)
    + fld 240 225 (meanTotal s)) s

/-- REGION_LIMIT (R60, R61); the differences saturate (R73). -/
def postRegionLimit (k : Nat) (rep : Bool) (s : State) : State :=
  let r := regionOf s k
  let b := regionOf s r.nb
  postAll 0x0B01 k (fld 255 251 k + fld 250 246 r.nb + fld 245 234 (ofSigned 12 (satSigned 12 ((b.vdd : Int) - r.vdd)))
    + fld 233 225 (ofSigned 9 (satSigned 9 (r.tj - b.tj))) + fld 224 223 r.monStep + fld 222 222 (bit rep)
    + fld 221 221 (bit r.limitV) + fld 220 220 (bit r.limitT)) s

/-- The stretch step in force: the largest of the three (R646). -/
def stretchStep (s : State) (k : Nat) : Nat :=
  let r := regionOf s k
  max r.monStep (if k < 20 then max s.pwr.capStep r.thermStep else 0)

/-! ## Safe state, trip and power-off (R45, R640 to R649) -/

/-- Every laser enable is withdrawn (R642, R653). -/
def lasersOff (s : State) : State :=
  { s with pwr := { s.pwr with lasers := s.pwr.lasers.mapAll fun _ l => { l with en := false } } }

/-- PWR_EN_1 to 3 are deasserted (R642). -/
def railsOff (s : State) : State := { s with pwr := { s.pwr with en := 0 } }

/-- Every operator session ends (R621). -/
def endSessions (s : State) : State :=
  { s with sec := { s.sec with endedAt := some s.tick, ports := s.sec.ports.mapAll fun _ p => { p with session := 0 } } }

/-- A thermal trip (R647). -/
def thermalTrip (hw : Bool) (k : Nat) (tj : Int) (s : State) : State :=
  let s := railsOff (lasersOff (enterSafe s))
  { s with pwr := { s.pwr with tripped := true, tripHw := hw, tripRegion := k, tripTj := tj, tripOut := true, stage := 12 } }

/-- A fundamental reset of the adapter (R637): everything returns to its reset value but what only power-on of AO resets, the
non-volatile stores, and the model's own fields. PWR_SEQ_STS.FAIL_CAUSE (R644) and PWR_CLK_STATUS (R47) keep their values,
PWR_REGION_LIMIT_STS its bits until they are written 1 (R56; log 89), and the monitor of AO, which is not reset, its readings (R55). -/
def fundamentalReset (s : State) : State :=
  { State.reset with
    tick := s.tick, draws := s.draws, out := s.out, pending := s.pending
    pwr := { State.reset.pwr with
      failCause := s.pwr.failCause, ckLocked := s.pwr.ckLocked, lossOfLock := s.pwr.lossOfLock, refValid := s.pwr.refValid, unlocked := s.pwr.unlocked,
      regions := s.pwr.regions.filter fun r => r.1 == 23, tripped := s.pwr.tripped, tripHw := s.pwr.tripHw, tripRegion := s.pwr.tripRegion,
      tripTj := s.pwr.tripTj, limitSts := s.pwr.limitSts, cap := s.pwr.cap }
    fw := { State.reset.fw with slot0 := s.fw.slot0, slot1 := s.fw.slot1, faults := s.fw.faults }
    time := { s.time with cal := [], queue := [], ppsOn := false, ppsHigh := false }
    sec := { s.sec with ports := [], zeroised := false }
    peal := s.peal, age := ageKept s, kiln := kilnKept s, keys := {} }

/-! ## Power-on order (R638) -/

def execPowerOnAo (s : State) : Host.Outcome State Fault Refusal :=
  .next { State.reset with
    tick := s.tick, draws := s.draws, out := s.out, pending := s.pending
    fw := { State.reset.fw with slot0 := s.fw.slot0, slot1 := s.fw.slot1 }
    sec := { s.sec with ports := [], entropyFail := false, zeroising := false, zeroised := false }
    age := ageKept s }

def execAdpPwrokRise (cool : Bool) (s : State) : Host.Outcome State Fault Refusal :=
  if s.pwr.pwrok || (s.pwr.tripped && s.pwr.stage == 12 && (!cool || s.tick < s.pwr.fellAt + msT 1)) then .next s
  else
    let s := fundamentalReset s
    .next { s with pwr := { s.pwr with pwrok := true, stage := 1, en := 1, tripOut := false } }

/-- A power-good of step n + 1 is reached (R638): the next group is enabled, or the root PLL started. -/
def execPwrPgRise (n : Fin 3) (s : State) : Host.Outcome State Fault Refusal :=
  let s := { s with pwr := { s.pwr with pg := s.pwr.pg ||| (1#3 <<< n.val) } }
  if s.pwr.stage == n.val + 1 && s.pwr.en.getLsbD n.val then
    .next { s with pwr := { s.pwr with
      stage := n.val + 2, en := if n.val < 2 then s.pwr.en ||| (1#3 <<< (n.val + 1)) else s.pwr.en } }
  else .next s

/-- R641, with FAIL_CAUSE of R644 for steps 1 to 3. -/
def execPwrSeqFail (s : State) : Host.Outcome State Fault Refusal :=
  if 1 ≤ s.pwr.stage && s.pwr.stage ≤ 3 then
    let s := railsOff (enterSafe s)
    .next { s with pwr := { s.pwr with failCause := s.pwr.stage, stage := 13 } }
  else .next s

/-- Lock is held (R47); where it had been lost before, device time is untrusted (R352). -/
def lockHeld (s : State) : State :=
  let lost := s.pwr.unlocked
  let s := { s with pwr := { s.pwr with ckLocked := true, refValid := true, unlocked := false, lockTick := s.tick } }
  if lost then postAll 0x0506 23 0 { s with time := { s.time with untrusted := true, ppsHigh := false } } else s

/-- R44, R638 steps 4 and 5: the trust region is released and reads its fuses. -/
def execRootPllLock (s : State) : Host.Outcome State Fault Refusal :=
  if s.pwr.stage == 4 && !s.pwr.relock then
    let s := lockHeld s
    .next { s with pwr := { s.pwr with stage := 6 } }
  else .next s

/-- The bytes of an image header that the signature covers (R129). -/
def FwImage.signed (i : FwImage) : List Byte :=
  bytesOf 4 i.magic ++ bytesOf 2 i.format ++ bytesOf 2 i.hdrLen ++ bytesOf 4 i.version ++ bytesOf 4 i.svn ++ bytesOf 4 i.imageLen
    ++ bytesOf 4 i.entryMgmt ++ bytesOf 4 i.entryCtrl ++ bytesOf 4 0 ++ bytesOf 32 i.payloadHash.toNat ++ i.pubkey

/-- A header's and payload's measurement (R131). -/
def FwImage.measure (i : FwImage) : BitVec 256 :=
  sha3 (i.signed ++ i.signature ++ List.replicate 51 0 ++ i.payload)

/-- The checks of R130 in their order: 1 accepted, 1 + n where check n fails, 2 for an empty slot. -/
def bootCheck (s : State) : Option FwImage → Nat
  | none => 2
  | some i =>
    if i.magic != 0x52484459 || i.format != 1 || i.hdrLen != 5376 || i.imageLen == 0 || i.imageLen > 16771840
        || i.payload.length != i.imageLen then 2
    else if !keyTrusted s 0 i.pubkey then 3
    else if !mlDsaVerify i.pubkey i.signed i.signature then 4
    else if i.svn < s.sec.minSvn then 5
    else if sha3 i.payload != i.payloadHash then 6
    else 1

/-- The AVSBus rail of a region (R635): bus and select. -/
def railOf (k : Nat) : Bool × Nat := if k < 16 then (false, k) else (true, k - 16)

/-- A voltage is written to a region's rail (R634), never outside 0.740 V to 0.860 V, never after AVS_FAULT (R636). -/
def writeRail (k mv : Nat) (s : State) : State :=
  let v := max 740 (min 860 mv)
  let (b, r) := railOf k
  if k ≥ 22 || s.pwr.avsFaulted.contains (16 * bit b + r) then s
  else emit (.avs b r v) (setRegion k (fun g => { g with setMv := v }) s)

/-- The fused base voltage plus GUARD, in whole steps of 5 mV (R598, R634). -/
def plannedMv (s : State) (k : Nat) : Nat := Config.baseVoltage k + (s.age.get k).guard / 16

/-- The set points of every AVS rail (R638 step 7). -/
def avsInit (s : State) : State := (List.range 22).foldl (fun s k => writeRail k (plannedMv s k) s) s

/-- An image is taken: its slot, its measurement (R131), and what FW_READY will report. -/
def takeImage (slot cause : Nat) (i : FwImage) (s : State) : State :=
  { s with
    fw := { s.fw with slot := slot, version := i.version, svn := i.svn, accepted := true, ready := false, recovery := false,
                      cause := cause }
    sec := { s.sec with meas := s.sec.meas.put 1 i.measure } }

/-- Laser enables follow their conditions (R653). -/
def laserUpdate (k : Nat) (s : State) : State :=
  let l := s.pwr.lasers.get k
  { s with pwr := { s.pwr with
    lasers := s.pwr.lasers.put k { l with en := s.pwr.released && l.mated && !l.fault && decide (l.matedAt + msT 100 ≤ s.tick) } } }

/-- The monitors of the regions that are released read 0 before their first samples, and no step is in force (R55); the rails keep
their set points. -/
def monitorsReset (s : State) : State :=
  { s with pwr := { s.pwr with
    capStep := 0
    regions := s.pwr.regions.mapAll fun k r => if k < 22 then { setMv := r.setMv } else r } }

/-- R638 step 8: release of every region, ADP_HX_READY, laser sources. A relock and the end of a hold in service start the power-on
order here (R45, R590, log 89). -/
def regionsReleased (s : State) : State :=
  let s := monitorsReset s
  let s := { s with pwr := { s.pwr with stage := 9, released := true, hxReleased := true, hxReady := true } }
  (List.range 16).foldl (fun s k => laserUpdate k s) s

/-- R638 steps 7 and 8: set points, then the release. -/
def releaseRegions (s : State) : State := regionsReleased (avsInit s)

def execFwBootCheck (img0 img1 : Option FwImage) (s : State) : Host.Outcome State Fault Refusal :=
  if s.pwr.stage != 6 || s.fw.recovery || s.sec.lc == 0 || s.sec.lc == 4 then .next s
  else
    let r0 := bootCheck s img0
    let r1 := if r0 == 1 then 0 else bootCheck s img1
    let s := { s with fw := { s.fw with slot0 := img0, slot1 := img1, boot0 := r0, boot1 := r1 } }
    match img0, img1 with
    | some i, _ =>
      if r0 == 1 then .next (releaseRegions (takeImage 0 0 i s))
      else match img1 with
        | some j => if r1 == 1 then .next (releaseRegions (takeImage 1 0 j s)) else .next s
        | none => .next s
    | none, some j => if r1 == 1 then .next (releaseRegions (takeImage 1 0 j s)) else .next s
    | none, none => .next s

/-- R132: the safe state stays, with HX released from reset. -/
def execFwRecoveryTimeout (s : State) : Host.Outcome State Fault Refusal :=
  if s.pwr.stage == 6 && !s.fw.accepted && s.sec.lc != 0 && s.sec.lc != 4 && decide (s.pwr.lockTick + secT 1 ≤ s.tick) then
    .next { s with
      fw := { s.fw with recovery := true }
      pwr := { s.pwr with hxReleased := true, hxReady := true } }
  else .next s

/-- The record that reports FW_READY (R126). -/
def fwReadyData (s : State) : Nat :=
  fld 255 224 s.fw.version + fld 223 192 s.fw.svn + fld 191 191 s.fw.slot + fld 190 189 s.fw.cause + fld 188 157 s.sec.minSvn

/-- The journal's reply for the command a ring was executing at the halt (R136). -/
def journalReply (iid : Nat) (sec : Bool) (s : State) : State :=
  match (ringOf s iid sec).exec with
  | none => s
  | some e => if e.committed then writeReply e stOk e.rdata.toNat s else writeReply e stAborted 0 (undoExec e s)

/-- The held records of every physical function are written. -/
def flushAll (s : State) : State := [0, 1, 2, 3, 4, 5, 6, 7].foldl (fun s h => flushEvents (h * 4096) s) s

/-- FW_READY's record follows the records posted before the halt, and precedes those raised since (R124, R135). Beyond 256 the newest
are dropped and counted. -/
def readyRecord (rec : Nat) (r : RecRing) : RecRing :=
  let all := r.held ++ rec :: r.early
  { r with held := all.take 256, early := [], dropped := satAdd 32 r.dropped (all.length - 256) }

/-- Without FW_READY, as for a physical function that is not subscribed, the records raised since the halt join the others. -/
def joinEarly (r : RecRing) : RecRing := { r with held := r.held ++ r.early, early := [] }

/-- A physical function's instance becomes ACTIVE at FW_READY (R508). -/
def pfActive (s : State) : State :=
  [0, 1, 2, 3, 4, 5, 6, 7].foldl (fun s h => setFn (h * 4096) (fun f =>
    if f.inst.state == 0 then { f with inst := { f.inst with state := 1, qbase := 0, qcount := 0 } } else f) s) s

/-- R133: a firmware image that runs commits its SVN, once. -/
def svnCommit (s : State) : State :=
  if s.fw.commit then { s with
    sec := { s.sec with minSvn := max s.sec.minSvn s.fw.svn }, fw := { s.fw with commit := false } } else s

/-- The firmware runs: the safe state ends, Kiln starts, the physical functions turn active at power-on, and held
replies go out. -/
def fwRuns (boot : Bool) (s : State) : State :=
  let s := kilnStart { s with
    fw := { s.fw with ready := true }
    pwr := { s.pwr with stage := 11, safe := false, relock := false } }
  let s := if boot then pfActive s else s
  (fnList s).foldl (fun s f => journalReply f true (journalReply f false s)) s

/-- FW_READY is posted (R124, R131): its record takes its place in every ring that it reaches. -/
def readyEvent (s : State) : State :=
  let ev := eventRecord s 0x0101 none 0xFF (fwReadyData s)
  let pfs := subscribers s 0x0101
  [0, 1, 2, 3, 4, 5, 6, 7].foldl (fun s h =>
    setFn (h * 4096) (fun f => { f with evt := if pfs.contains (h * 4096) then readyRecord ev f.evt else joinEarly f.evt }) s) s

/-- A trip that led to this power-on is reported. -/
def tripReport (boot : Bool) (s : State) : State :=
  if boot && s.pwr.tripped then
    postAll 0x0B03 s.pwr.tripRegion (fld 255 251 s.pwr.tripRegion + fld 250 242 (ofSigned 9 s.pwr.tripTj)
      + fld 241 241 (bit s.pwr.tripHw)) s
  else s

/-- FW_READY (R131, R132). -/
def execFwReady (s : State) : Host.Outcome State Fault Refusal :=
  if s.fw.ready || !s.fw.accepted || (s.pwr.stage != 10 && s.pwr.stage != 11) || s.kiln.holding then .next s
  else
    let boot := s.pwr.stage == 10
    .next (tripReport boot (flushPunts (flushAll (readyEvent (fwRuns boot (svnCommit s))))))

/-- R135: the firmware halts and will restart from the same slot. -/
def execHeartbeatTimeout (core : Fin 64) (s : State) : Host.Outcome State Fault Refusal :=
  if s.fw.ready then
    let s := kilnHalt { s with fw := { s.fw with ready := false, cause := 2, faults := satAdd 16 s.fw.faults 1 } }
    .next (postAll 0x0102 (16 + core.val / 16) (fld 255 250 core.val + fld 249 234 s.fw.faults) s)
  else .next s

/-- R45, R46, R47, R621: the safe state, with device time stopped. LOSS_OF_LOCK is held until FW_READY. Whether the 25 MHz detector
still sees the reference is a free value (log 89). Before the regions have been released the power-on order waits at its step 4
again (R638); after a failure, a trip or the fall of ADP_PWROK only the registers follow (log 89). -/
def execPllLockLost (s : State) : Host.Outcome State Fault Refusal :=
  if !s.pwr.ckLocked then .next s
  else
    let ref := drawn 1 s == 1
    let s := useDraw s
    let lost (s : State) : State := postAll 0x0B05 23 0 { s with
      pwr := { s.pwr with ckLocked := false, lossOfLock := true, refValid := ref, unlocked := true } }
    if 9 ≤ s.pwr.stage && s.pwr.stage ≤ 11 then
      let s := endSessions (enterSafe s)
      .next (lost { s with pwr := { s.pwr with relock := true, stage := 4 }, fw := { s.fw with cause := 0 } })
    else if s.pwr.stage == 6 then
      let s := endSessions (enterSafe s)
      .next (lost { s with pwr := { s.pwr with stage := 4 }, fw := { s.fw with recovery := false } })
    else .next (lost s)

/-- R46, R352: the power-on order repeats from region release; sets, packets and the storage cache are lost. -/
def execPllRelock (s : State) : Host.Outcome State Fault Refusal :=
  if s.pwr.stage == 4 && s.pwr.relock then
    .next (regionsReleased (cacheInvalidate (setsEmptied (lockHeld s))))
  else .next s

/-- R640, R641: a group that had been reached is lost. While the power-on order waits for the group itself, nothing is. -/
def execPwrPgLost (n : Fin 3) (s : State) : Host.Outcome State Fault Refusal :=
  let s := { s with pwr := { s.pwr with pg := s.pwr.pg &&& ~~~(1#3 <<< n.val) } }
  if s.pwr.en.getLsbD n.val && n.val + 1 < s.pwr.stage && s.pwr.stage ≤ 11 then
    let s := railsOff (lasersOff (enterSafe s))
    .next { s with pwr := { s.pwr with failCause := 4, stage := 13 } }
  else .next s

/-- R642, R643: causes already recorded stay, and the root PLL, which is in AO, runs on (R47). -/
def execAdpPwrokFall (s : State) : Host.Outcome State Fault Refusal :=
  if s.pwr.pwrok then
    let s := railsOff (lasersOff (endSessions (enterSafe s)))
    .next { s with pwr := { s.pwr with
      pwrok := false, fellAt := s.tick,
      stage := if s.pwr.stage == 12 || s.pwr.stage == 13 then s.pwr.stage else 0 } }
  else .next s

def execThermComparatorTrip (k : Fin 24) (tj : Int) (s : State) : Host.Outcome State Fault Refusal :=
  if 135 ≤ tj && s.pwr.stage != 12 then .next (thermalTrip true k.val tj s) else .next s

/-! ## Region monitors (R54 to R62) and limits (R645, R646) -/

/-- A region's monitor samples while the region is out of reset (R55, R638): AO always, TS from step 5, HX while it is released. -/
def monitorRuns (s : State) (k : Nat) : Bool :=
  if k == 23 then true else if k == 22 then s.pwr.stage ≥ 6 else if k == 20 then s.pwr.hxReleased else s.pwr.released

def execRegionMonitorSample (k : Fin 24) (vdd : Nat) (tj : Int) (s : State) : Host.Outcome State Fault Refusal :=
  if !s.pwr.ckLocked || !monitorRuns s k.val then .next s
  else
    let s := setRegion k.val (fun r => { r with
      sampled := true, vdd := vdd % 4096, tj := satSigned 9 tj, hot := if 128 ≤ tj then r.hot + 1 else 0 }) s
    let s := (k.val :: neighbours k.val).foldl judgeRegion s
    let s := if 118 ≤ tj && (regionOf s k.val).warnAt ≤ s.tick then
        postThermalWarn k.val false (setRegion k.val (fun r => { r with warnAt := s.tick + secT 1 }) s)
      else s
    if (regionOf s k.val).hot ≥ 100 && s.pwr.stage != 12 then .next (thermalTrip false k.val (satSigned 9 tj) s) else .next s

def execStretchStepRise (k : Fin 24) (s : State) : Host.Outcome State Fault Refusal :=
  let r := regionOf s k.val
  if (r.limitV || r.limitT) && r.monStep < 3 && (r.monStep == 0 || decide (r.monAt + usT 10 ≤ s.tick)) then
    let s := setRegion k.val (fun r => { r with
      monStep := r.monStep + 1, monAt := s.tick, repeatAt := s.tick + msT 1,
      lowSince := if r.limitV && r.monStep == 2 then some s.tick else r.lowSince }) s
    if r.monStep == 0 then
      .next (postRegionLimit k.val false
        { s with pwr := { s.pwr with limitSts := s.pwr.limitSts ||| (1#24 <<< k.val) } })
    else .next s
  else .next s

def execStretchStepFall (k : Fin 24) (s : State) : Host.Outcome State Fault Refusal :=
  let r := regionOf s k.val
  match r.calm with
  | some t =>
    if r.monStep > 0 && decide (t + usT 100 ≤ s.tick) && decide (r.monAt + usT 100 ≤ s.tick) then
      .next (setRegion k.val (fun r => { r with monStep := r.monStep - 1, monAt := s.tick, lowSince := none }) s)
    else .next s
  | none => .next s

def execRegionLimitRepeat (k : Fin 24) (s : State) : Host.Outcome State Fault Refusal :=
  let r := regionOf s k.val
  if r.monStep == 3 && decide (r.repeatAt ≤ s.tick) then
    .next (postRegionLimit k.val true (setRegion k.val (fun r => { r with repeatAt := s.tick + msT 1 }) s))
  else .next s

/-- One step of 5 mV toward a difference below 50 mV (R62, R634). -/
def execAvsLimitRaise (k : Fin 24) (s : State) : Host.Outcome State Fault Refusal :=
  match (regionOf s k.val).lowSince with
  | some t =>
    if decide (t + msT 1 ≤ s.tick) && (regionOf s k.val).setMv + 5 ≤ 860 then
      .next (writeRail k.val ((regionOf s k.val).setMv + 5) s)
    else .next s
  | none => .next s

/-- R645. The mean of the last ten totals is compared with the cap in force at the latest of them (R646, R662). -/
def execPowerTotalSample (total : Nat) (s : State) : Host.Outcome State Fault Refusal :=
  let ts := (total % 2 ^ 16 :: s.pwr.totals).take 10
  .next { s with pwr := { s.pwr with
    totals := ts, overCap := ts.length == 10 && decide (s.pwr.cap * 160 < ts.sum)
    underCap := ts.length == 10 && decide (ts.sum * 100 ≤ s.pwr.cap * 160 * 95) } }

def execCapStepRise (s : State) : Host.Outcome State Fault Refusal :=
  if s.pwr.overCap && decide (s.pwr.capAt + msT 10 ≤ s.tick) && s.pwr.capStep < 3 then
    let first := s.pwr.capStep == 0
    let s := { s with pwr := { s.pwr with capStep := s.pwr.capStep + 1, capAt := s.tick } }
    if first then .next (postThermalWarn (hottest s) true { s with pwr := { s.pwr with capWarnAt := s.tick + secT 1 } })
    else .next s
  else if s.pwr.overCap && s.pwr.capStep == 3 && decide (s.pwr.capWarnAt ≤ s.tick) then
    .next (postThermalWarn (hottest s) true { s with pwr := { s.pwr with capWarnAt := s.tick + secT 1 } })
  else .next s

def execCapStepFall (s : State) : Host.Outcome State Fault Refusal :=
  if s.pwr.underCap && s.pwr.capStep > 0 && decide (s.pwr.capAt + msT 100 ≤ s.tick) then
    .next { s with pwr := { s.pwr with capStep := s.pwr.capStep - 1, capAt := s.tick } }
  else .next s

def execThermalStepRise (k : Fin 24) (s : State) : Host.Outcome State Fault Refusal :=
  let r := regionOf s k.val
  if k.val < 20 && 120 ≤ r.tj && r.thermStep < 3 && decide (r.thermAt + msT 10 ≤ s.tick) then
    .next (setRegion k.val (fun r => { r with thermStep := r.thermStep + 1, thermAt := s.tick }) s)
  else .next s

def execThermalStepFall (k : Fin 24) (s : State) : Host.Outcome State Fault Refusal :=
  let r := regionOf s k.val
  if k.val < 20 && r.tj < 115 && r.thermStep > 0 && decide (r.thermAt + msT 100 ≤ s.tick) then
    .next (setRegion k.val (fun r => { r with thermStep := r.thermStep - 1, thermAt := s.tick }) s)
  else .next s

/-- AVS_FAULT (R636, R664): nothing more is written to the rail. -/
def avsFault (bus : Bool) (rail cause : Nat) (s : State) : State :=
  let key := 16 * bit bus + rail
  let s := { s with pwr := { s.pwr with avsFaulted := if s.pwr.avsFaulted.contains key then s.pwr.avsFaulted
                                                       else key :: s.pwr.avsFaulted } }
  postAll 0x0B04 (16 * bit bus + rail) (fld 255 255 (bit bus) + fld 254 251 rail + fld 250 249 cause
    + fld 248 233 (s.pwr.avsRead.get key)) s

/-- R636. AVS1 has rail selects 0 to 5 (R635). -/
def execAvsResponse (bus : Bool) (rail : Fin 16) (r : AvsResult) (s : State) : Host.Outcome State Fault Refusal :=
  let key := 16 * bit bus + rail.val
  if bus && 6 ≤ rail.val then .next s else
  match r with
  | .noResponse =>
    if s.pwr.avsTries.get key ≥ 2 then
      .next (avsFault bus rail.val 0 { s with pwr := { s.pwr with avsTries := s.pwr.avsTries.put key 0 } })
    else .next { s with pwr := { s.pwr with avsTries := s.pwr.avsTries.put key (s.pwr.avsTries.get key + 1) } }
  | .statusFault => .next (avsFault bus rail.val 1 s)
  | .readback v =>
    let s := { s with pwr := { s.pwr with avsTries := s.pwr.avsTries.put key 0, avsRead := s.pwr.avsRead.put key (v % 65536) } }
    let want := (regionOf s key).setMv * 16
    if want != 0 && (v > want + 160 || v + 160 < want) then .next (avsFault bus rail.val 2 s) else .next s

/-! ## Lasers and lane references (R650 to R655) -/

def execLaserMatedChange (k : Fin 16) (mated : Bool) (s : State) : Host.Outcome State Fault Refusal :=
  let l := s.pwr.lasers.get k.val
  if mated && l.mated then .next (laserUpdate k.val s)
  else
    let l := { l with mated := mated, matedAt := s.tick, en := if mated then l.en else false }
    .next { s with pwr := { s.pwr with lasers := s.pwr.lasers.put k.val l } }

def execLaserSourceFault (k : Fin 16) (s : State) : Host.Outcome State Fault Refusal :=
  let l := s.pwr.lasers.get k.val
  .next { s with pwr := { s.pwr with lasers := s.pwr.lasers.put k.val { l with fault := true, faultSeen := true, en := false } } }

def execLaserFaultClear (k : Fin 16) (s : State) : Host.Outcome State Fault Refusal :=
  let l := s.pwr.lasers.get k.val
  .next (laserUpdate k.val { s with pwr := { s.pwr with lasers := s.pwr.lasers.put k.val { l with fault := false } } })

def execLaneRefLost (k : Fin 16) (s : State) : Host.Outcome State Fault Refusal :=
  let l := s.pwr.lasers.get k.val
  let s := { s with pwr := { s.pwr with lasers := s.pwr.lasers.put k.val { l with lref := false } } }
  .next ((List.range 64).foldl (fun s i => laneRefFail (64 * k.val + i) s) s)

def execLaneRefRestored (k : Fin 16) (s : State) : Host.Outcome State Fault Refusal :=
  let l := s.pwr.lasers.get k.val
  .next { s with pwr := { s.pwr with lasers := s.pwr.lasers.put k.val { l with lref := true } } }

/-! ## Commands (R661 to R663) -/

def execPwrStatus (c : CmdPkt) (s : State) : Host.Outcome State Fault Refusal :=
  .next (runCmd 0x0B01 .V false always (fun _ _ => none) quiet (fun _ s =>
    let h := hottest s
    done s (fld 15 0 (s.pwr.totals.headD 0) + fld 20 16 h + fld 29 21 (ofSigned 9 (regionOf s h).tj) + fld 47 32 s.pwr.cap
      + fld 49 48 s.pwr.capStep + fld 50 50 (bit s.pwr.tripped))) c s)

def execPwrCap (c : CmdPkt) (s : State) : Host.Outcome State Fault Refusal :=
  .next (runCmd 0x0B02 .A false always (fun c _ => firstOf [(c.p 0 2 < 300 || c.p 0 2 > 720, stBadParam)]) quiet
    (fun c s => done { s with pwr := { s.pwr with cap := c.p 0 2 } } 0) c s)

def execTelemCfg (c : CmdPkt) (s : State) : Host.Outcome State Fault Refusal :=
  .next (runCmd 0x0B03 .A false always
    (fun c _ => firstOf [(c.p 0 2 != 0 && (c.p 0 2 < 100 || c.p 0 2 > 60000), stBadParam), (c.p 2 1 > 1, stBadParam)]) quiet
    (fun c s => done { s with pwr := { s.pwr with
      telemPeriod := c.p 0 2, telemPeal := c.p 2 1 == 1, telemNext := s.tick + msT (c.p 0 2) } } 0) c s)

end Sys2Proof.Machine
end

