-- ==== Sys2Proof/Machine/AdapterCmds.lean ====
section
/-! DEFINITION. Adapter commands. -/
namespace Sys2Proof.Machine

/-! The 0x01 commands (R120, R124, R133, R134). PARAM and RDATA places that no chapter gives are log 13. -/

/-- R120. RDATA (log 13): stepping in [7:0], firmware version in [63:32], SVN in [95:64], life-cycle state in [98:96], pod node in
[120:112]. -/
def execAdapterInfo (c : CmdPkt) (s : State) : Host.Outcome State Fault Refusal :=
  .next (runCmd 0x0101 .V false always (fun _ _ => none) quiet (fun _ s =>
    done s (fld 7 0 0xB0 + fld 63 32 s.fw.version + fld 95 64 s.fw.svn + fld 98 96 s.sec.lc + fld 120 112 s.peal.node)) c s)

/-- R120. RDATA (log 13): the running slot in bit 0; the boot results of slots 0 and 1 in [15:8] and [23:16], each 0 for a slot not
checked, 1 for an accepted one and 1 + n where check n of R130 failed; the measurement index of the running image, 1 (R628), in
[31:24]. -/
def execFwStatus (c : CmdPkt) (s : State) : Host.Outcome State Fault Refusal :=
  .next (runCmd 0x0102 .V false always (fun _ _ => none) quiet (fun _ s =>
    done s (fld 0 0 s.fw.slot + fld 15 8 s.fw.boot0 + fld 23 16 s.fw.boot1 + fld 31 24 1)) c s)

/-- The image a slot holds. -/
def slotImage (s : State) (n : Nat) : Option FwImage := if n == 0 then s.fw.slot0 else s.fw.slot1

/-- R133, R134: the slot in PARAM byte 12. -/
def execFwUpdate (c : CmdPkt) (img : FwImage) (s : State) : Host.Outcome State Fault Refusal :=
  .next (runCmd 0x0103 .A true always
    (fun c s => firstOf [(c.p 12 1 > 1 || !c.indirect, stBadParam), (s.fw.accepted && c.p 12 1 == s.fw.slot, stBadState),
      (bootCheck s (some img) != 1, stSigFail)]) quiet
    (fun c s =>
      let n := c.p 12 1
      let s := emit (.flash (n * 0x1000000) (img.signed ++ img.signature ++ List.replicate 51 0 ++ img.payload)) s
      let s := { s with fw := if n == 0 then { s.fw with slot0 := some img } else { s.fw with slot1 := some img } }
      done s (fld 0 0 n + fld 63 32 img.svn)) c s)

/-- R134, R595: the slot in PARAM byte 0, commit-SVN in byte 1 bit 0. The reply is the new firmware's (R136). -/
def execFwActivate (c : CmdPkt) (s : State) : Host.Outcome State Fault Refusal :=
  .next (runCmd 0x0104 .A true always
    (fun c s => firstOf [(c.p 0 1 > 1, stBadParam), (bootCheck s (slotImage s (c.p 0 1)) != 1, stSigFail)]) quiet
    (fun c s =>
      match slotImage s (c.p 0 1) with
      | none => (s, some (stSigFail, 0))
      | some i =>
        let booting := s.fw.recovery
        let s := takeImage (c.p 0 1) 1 i (kilnHalt s)
        let s := { s with fw := { s.fw with commit := c.p 1 1 % 2 == 1 } }
        let s := setRing c.fn c.sec (fun r => { r with
          exec := r.exec.map fun e => { e with committed := true, rdata := BitVec.ofNat 128 (fld 31 0 i.version) } }) s
        (if booting then releaseRegions s else s, none)) c s)

/-- R124: the ring address in PARAM bytes 0 to 7, LOG2 in byte 8, the vector in bytes 10 to 11. -/
def ringParams (c : CmdPkt) : Refuse :=
  firstOf [(c.p 8 1 < 4 || c.p 8 1 > 12, stBadParam)]

def execEvtRingSet (c : CmdPkt) (s : State) : Host.Outcome State Fault Refusal :=
  .next (runCmd 0x0105 .P false always (fun c _ => ringParams c) quiet
    (fun c s =>
      let pf := pfOf c.iid
      let s := setFn pf (fun f => { f with evt := { f.evt with
        set := true, base := BitVec.ofNat 64 (c.p 0 8), log2 := BitVec.ofNat 4 (c.p 8 1), vector := BitVec.ofNat 16 (c.p 10 2),
        pi := 0, ack := 0 } }) s
      done (flushEvents pf s) 0) c s)

/-- R120: the group mask in PARAM bytes 0 to 1, the severity floor in byte 2; the previous mask in RDATA bits [15:0]. -/
def execEvtSubscribe (c : CmdPkt) (s : State) : Host.Outcome State Fault Refusal :=
  .next (runCmd 0x0106 .P false always (fun c _ => firstOf [(c.p 2 1 > 3, stBadParam)]) quiet
    (fun c s =>
      let pf := pfOf c.iid
      let old := (fnOf s pf).evt.mask
      done (setFn pf (fun f => { f with evt := { f.evt with mask := BitVec.ofNat 16 (c.p 0 2), floor := c.p 2 1 } }) s)
        (fld 15 0 old.toNat)) c s)

def execPuntRingSet (c : CmdPkt) (s : State) : Host.Outcome State Fault Refusal :=
  .next (runCmd 0x0107 .A false always (fun c _ => ringParams c) quiet
    (fun c s =>
      let s := setFn 0 (fun f => { f with punt := { f.punt with
        set := true, base := BitVec.ofNat 64 (c.p 0 8), log2 := BitVec.ofNat 4 (c.p 8 1), vector := BitVec.ofNat 16 (c.p 10 2),
        pi := 0, ack := 0 } }) s
      done (flushPunts s) 0) c s)

end Sys2Proof.Machine
end

