-- ==== Sys2Proof/Machine/AgeRows.lean ====
section
/-! DEFINITION. Ageing: the monitors, guardbands and forecasts of the regions (R95 to R97, R596 to R601). Margins and guardbands are
in units of 1/16 mV. -/
namespace Sys2Proof.Machine

/-! ## Fused values (R95, R96, R598) -/

def fuseN0 (k i : Nat) : Int := Config.monitorFuse k (16 * i)
def fuseA (k i : Nat) : Int := Config.monitorFuse k (16 * i + 1)
def fuseG (k i : Nat) : Nat := (Config.monitorFuse k (16 * i + 2)).toNat % 65536
def fuseDesign (k i : Nat) : Nat := (Config.monitorFuse k (16 * i + 3)).toNat % 65536
def fuseH (k i : Nat) : Nat := (Config.monitorFuse k (0x1000 + i)).toNat % 65536
def fuseTarget (k : Nat) : Nat := (Config.monitorFuse k 0x2000).toNat % 65536
def fuseWarn (k : Nat) : Nat := (Config.monitorFuse k 0x2001).toNat % 65536
/-- GUARD_MAX; that of TS and AO is fused 0 (R634). -/
def fuseGuardMax (k : Nat) : Nat := if k < 22 then (Config.monitorFuse k 0x2002).toNat % 65536 else 0

/-- Monitors of a region: ring oscillators, replicas, SRAM sensors (R596). -/
def monitorCounts (k : Nat) : Nat × Nat × Nat := if k < 20 then (6, 4, 4) else if k < 22 then (4, 2, 2) else (2, 2, 1)

/-! ## Margins (R95 to R97) -/

/-- A ring oscillator's consumed margin: `nref` and the count `n`, and the sensitivity `g` (R95). -/
def consumed (nref : Int) (n g : Nat) : Nat :=
  if nref ≤ n then 0
  else
    let slow := min 65535 (rneDiv ((nref - n).toNat * 65536) nref.toNat)
    min 65535 (rneDiv (slow * g) 65536)

/-- The remaining margin of a ring oscillator: its design margin `d` less what is consumed (R95). -/
def ringMargin (n0 a : Int) (tj : Int) (n g d : Nat) : Int :=
  satSigned 16 ((d : Int) - consumed (n0 + a * (tj - 25)) (min n 1048575) g)

/-- The remaining margin of a critical-path replica, with sensitivity `h` in U4.12 mV per ps (R96). -/
def replicaMargin (taps h : Nat) : Int := satSigned 16 (rneDiv (taps % 64 * 5 * h) 256 : Nat)

/-- The remaining margin of an SRAM sensor (R96). -/
def sramMargin (steps : Nat) : Int := ((steps % 64 * 32 : Nat) : Int)

/-- Margins with their kind and index, in the order ring oscillators, replicas, SRAM sensors. -/
def margins (k : Nat) (tj : Int) (rings taps steps : List Nat) : List (Int × Nat × Nat) :=
  (rings.zipIdx.map fun p => (ringMargin (fuseN0 k p.2) (fuseA k p.2) tj p.1 (fuseG k p.2) (fuseDesign k p.2), 0, p.2))
    ++ (taps.zipIdx.map fun p => (replicaMargin p.1 (fuseH k p.2), 1, p.2))
    ++ (steps.zipIdx.map fun p => (sramMargin p.1, 2, p.2))

/-- The least margin, the first of equals (R97). -/
def lowestOf : List (Int × Nat × Nat) → Option (Int × Nat × Nat)
  | [] => none
  | m :: ms =>
    match lowestOf ms with
    | none => some m
    | some b => if b.1 < m.1 then some b else some m

def setAge (k : Nat) (f : Age → Age) (s : State) : State := { s with age := s.age.upd k f }
def ageOf (s : State) (k : Nat) : Age := s.age.get k

/-- CRAZING_SAMPLE: the monitors of a region are sampled (R597). -/
def execCrazingSample (k : Fin 24) (rings taps steps : List Nat) (s : State) : Host.Outcome State Fault Refusal :=
  if !s.fw.ready || (rings.length, taps.length, steps.length) != monitorCounts k.val || s.tick < (ageOf s k.val).sampleAt then .next s
  else
    match lowestOf (margins k.val (regionOf s k.val).tj rings taps steps) with
    | none => .next s
    | some (m, kind, i) =>
      let s := setAge k.val (fun a => { a with
        margin := m, kind := kind, index := i, sampleAt := s.tick + secT 60
        least := some (match a.least with | some l => min l m | none => m) }) s
      if m < (fuseWarn k.val : Int) && (ageOf s k.val).lowNext ≤ s.tick then
        .next (postAll 0x0905 k.val (fld 255 248 k.val + fld 247 232 (ofSigned 16 m) + fld 231 230 kind + fld 229 224 i)
          (setAge k.val (fun a => { a with lowNext := s.tick + secT 86400 }) s))
      else .next s

/-! ## Re-planning (R599) -/

/-- END_OF_LIFE (R607). -/
def postEndOfLife (k : Nat) (forecast : Bool) (s : State) : State :=
  let a := ageOf s k
  postAll 0x0906 k (fld 255 248 k + fld 247 247 (bit forecast) + fld 246 231 a.forecast + fld 230 215 a.guard) s

/-- The region's supply can be raised: it has a rail that is still written (R635, R636). -/
def raisable (s : State) (k : Nat) : Bool :=
  k < 22 && !s.pwr.avsFaulted.contains (16 * bit (railOf k).1 + (railOf k).2)

/-- The supply as it reads after the steps taken in this re-planning (`ups`, by region). -/
def supplyNow (s : State) (ups : SMap Nat) (k : Nat) : Nat := (regionOf s k).vdd + 5 * ups.get k

/-- One step of 5 mV: the region's set point and GUARD. -/
def stepUp (k : Nat) (s : State) : State :=
  setAge k (fun a => { a with guard := a.guard + 80 }) (writeRail k ((regionOf s k).setMv + 5) s)

/-- Neighbours now more than 40 mV below follow, recursively; false where one may not be raised (R599). -/
def raiseNeighbours : Nat → Nat → State × SMap Nat × Bool → State × SMap Nat × Bool
  | 0, _, x => x
  | n + 1, k, x =>
    (neighbours k).foldl (fun x b =>
      let (s, ups, ok) := x
      if supplyNow s ups b + 40 < supplyNow s ups k && (regionOf s b).vdd != 0 then
        if raisable s b && (ageOf s b).guard + 80 ≤ fuseGuardMax b then
          raiseNeighbours n b (stepUp b s, ups.put b (ups.get b + 1), ok)
        else (s, ups, false)
      else (s, ups, ok)) x

/-- The steps of a region's raise. One that a neighbour could not follow is not taken, and the raise stops (R599, R634). -/
def raiseSteps (k : Nat) : Nat → State → SMap Nat → State
  | 0, s, _ => s
  | n + 1, s, ups =>
    let (t, ups, ok) := raiseNeighbours 24 k (stepUp k s, ups.put k (ups.get k + 1), true)
    if ok then raiseSteps k n t ups else s

/-- The supply of a region is re-planned, with `m` the least margin of the interval. -/
def replan (k : Nat) (m : Int) (s : State) : State :=
  let a := ageOf s k
  let target : Int := fuseTarget k
  if m < target then
    let steps := ((target - m).toNat + 79) / 80
    let past := a.guard + 80 * steps > fuseGuardMax k
    let s := if past then postEndOfLife k false s else s
    let steps := if past then (fuseGuardMax k - a.guard) / 80 else steps
    if raisable s k then raiseSteps k steps s [] else s
  else if target + 240 ≤ m && 80 ≤ a.guard && raisable s k then
    setAge k (fun a => { a with guard := a.guard - 80 }) (writeRail k ((regionOf s k).setMv - 5) s)
  else s

/-- The forecast from GUARD and its value 90 days ago (R600). -/
def forecastOf (gmax guard : Nat) (old : Option Nat) : Nat :=
  match old with
  | some o => if guard ≤ o then 0xFFFF else min 0xFFFF ((gmax - guard) * 90 / (guard - o))
  | none => 0xFFFF

/-- GUARDBAND_REPLAN: an interval of 86,400 s ends (R599, R600). -/
def execGuardbandReplan (k : Fin 24) (s : State) : Host.Outcome State Fault Refusal :=
  let a := ageOf s k.val
  if !s.fw.ready || s.tick < a.planAt then .next s
  else
    let s := match a.least with | some m => replan k.val m s | none => s
    let g := (ageOf s k.val).guard
    let f := forecastOf (fuseGuardMax k.val) g (a.history[89]?)
    let s := setAge k.val (fun b => { b with
      forecast := f, history := (g :: b.history).take 90, least := none, planAt := b.planAt + secT 86400 }) s
    if f < 180 && a.eolNext ≤ s.tick then
      .next (postEndOfLife k.val true (setAge k.val (fun b => { b with eolNext := s.tick + secT 2592000 }) s))
    else .next s

/-- MARGIN_READ (R601). -/
def execMarginRead (c : CmdPkt) (s : State) : Host.Outcome State Fault Refusal :=
  .next (runCmd 0x0905 .A false always (fun c _ => firstOf [(c.p 0 1 > 23, stBadParam)]) quiet
    (fun c s =>
      let k := c.p 0 1
      let a := ageOf s k
      done s (fld 15 0 (ofSigned 16 a.margin) + fld 31 16 (ofSigned 16 (a.least.getD a.margin)) + fld 47 32 a.guard
        + fld 63 48 (fuseGuardMax k) + fld 79 64 a.forecast + fld 87 86 a.kind + fld 85 80 a.index)) c s)

end Sys2Proof.Machine
end

