-- ==== Sys2Proof/Machine/Xport1.lean ====
section
/-! DEFINITION. Transport objects: completion entries, failures, memory regions and the packets an engine forms. -/
namespace Sys2Proof.Machine

/-- A device time from its 8-byte stamp: SEC_LO taken nearest to now (R80). -/
def DevTime.ofStamp (now : DevTime) (x : Nat) : DevTime :=
  let d := toSigned 16 ((bits 63 48 x + 2 ^ 16 - now.sec % 2 ^ 16) % 2 ^ 16)
  { sec := ofSigned 48 ((now.sec : Int) + d), ns := bits 47 18 x, frac := bits 17 0 x * 2 ^ 14 }

/-! ## PSNs -/

/-- PSN arithmetic on 24 bits (R84, R434). -/
def psnAdd (a n : Nat) : Nat := (a + n) % 2 ^ 24
def psnSub (a b : Nat) : Nat := (a + 2 ^ 24 - b % 2 ^ 24) % 2 ^ 24

/-- Bytes of a PMTU code (R430). An object whose PMTU has not been given, and UD, which has no such attribute, use 4,096. -/
def pmtuBytes (o : Obj) : Nat :=
  match o.a.pmtu with | 1 => 256 | 2 => 512 | 3 => 1024 | 4 => 2048 | _ => 4096

/-- TIMERS and RNR (R430). -/
def Obj.retryCnt (o : Obj) : Nat := bits 7 5 o.a.timers
def Obj.ackCode (o : Obj) : Nat := bits 4 0 o.a.timers
def Obj.rnrRetry (o : Obj) : Nat := bits 2 0 o.a.rnr

/-- The acknowledgement timeout in CK_T ticks: 4.096 µs × 2^ACK_TIMEOUT, none for 0 (R434). -/
def Obj.ackTicks (o : Obj) : Option Nat := if o.ackCode == 0 then none else some ((32768 * 2 ^ o.ackCode + 9) / 10)

/-- The RNR timer codes of the InfiniBand table, in units of 10 µs (R430). -/
def rnrTable : List Nat :=
  [65536, 1, 2, 3, 4, 6, 8, 12, 16, 24, 32, 48, 64, 96, 128, 192, 256, 384, 512, 768, 1024, 1536, 2048, 3072, 4096, 6144, 8192,
   12288, 16384, 24576, 32768, 49152]
def rnrTicks (code : Nat) : Nat := usT (10 * rnrTable.getD code 65536)

/-! ## Completion entries (R453) -/

/-- An entry's fields. -/
structure EntryArgs where
  wrId : Nat := 0
  bytes : Nat := 0
  imm : Nat := 0
  opcode : Nat := 0
  nvme : Nat := 0
  err : Nat := 0
  immValid : Bool := false
  solicited : Bool := false
  status : Nat := 0

/-- An entry of an object without its PHASE (R453). -/
def entryBits (s : State) (onum : Nat) (e : EntryArgs) : Nat :=
  fld 255 192 e.wrId + fld 191 128 s.time.now.stamp + fld 127 96 e.bytes + fld 95 64 e.imm + fld 63 44 onum + fld 43 40 e.opcode
    + fld 39 25 e.nvme + fld 24 21 e.err + fld 20 20 (bit e.immValid) + fld 19 19 (bit e.solicited) + fld 15 0 e.status

/-- The slot of an adapter queue within the instance that owns it. -/
def slotIn (s : State) (iid q : Nat) : Nat := q - (fnOf s iid).inst.qbase

/-- An entry joins those that wait in the object's CQ (R453, R473). -/
def postEntry (onum : Nat) (rx : Option Nat) (bits_ : Nat) (s : State) : State :=
  let o := objOf s onum
  let e : CplEntry := { bits := bits_, rx := rx }
  setSlot o.iid (slotIn s o.iid o.cq) (fun q => { q with waiting := q.waiting ++ [e] }) s

/-- The entry OPCODE of a work item's OP (R453, R469). -/
def entryOp (op : Nat) : Nat :=
  match op with | 3 => 1 | 4 => 1 | 5 => 2 | 6 => 3 | 7 => 3 | 8 => 6 | 9 => 7 | _ => 0

/-- The entry of a work item. -/
def workEntry (s : State) (onum : Nat) (w : Work2) (err status : Nat) : Nat :=
  entryBits s onum { wrId := w.wrId, bytes := if err == 0 then w.len else 0, opcode := entryOp w.op, err := err, status := status
                     imm := if w.op == 8 then w.ctype else 0, solicited := w.solicited }

/-- Finished work at the head is reported, in order. -/
def reportWork (onum : Nat) : List Work2 → State → State
  | [], s => setObj onum (fun o => { o with work := [] }) s
  | w :: ws, s =>
    match w.fin with
    | some b => reportWork onum ws (if w.svc.isSome then s else postEntry onum none b s)
    | none => setObj onum (fun o => { o with work := w :: ws }) s

/-- Work that has finished at the head of an object's queue is reported. -/
def settleWork (onum : Nat) (s : State) : State := reportWork onum (objOf s onum).work s

/-- Work item `i` finishes with an entry. -/
def finishWork (onum i bits_ : Nat) (s : State) : State :=
  settleWork onum (setObj onum (fun o => { o with work := o.work.mapIdx fun j w => if j == i then { w with fin := some bits_ } else w }) s)

/-- What is left of a work list is flushed (R431). -/
def flushWork (s : State) (onum : Nat) (ws : List Work2) : List Work2 :=
  ws.map fun w => if w.fin.isSome then w else { w with fin := some (workEntry s onum w 7 0) }

/-- An object enters ERR: its outstanding work completes FLUSHED (R431, R454). -/
def errObject (onum : Nat) (s : State) : State :=
  if !hasObj s onum || (objOf s onum).state == 5 then s
  else
    let s := abandonRecord false onum (dropFormed onum s)
    let ws := flushWork s onum (objOf s onum).work
    let clear (t : Tcp) : Tcp := if t.closing then { t with rtxAt := none, opening := none, pdu := [], rx := [], cuts := [], ooo := [] } else { t with
      out := [], rtxAt := none, opening := none, sealing := none, toSeal := [], pdu := [], rx := [], cuts := [], ooo := [] }
    let s := setObj onum (fun o => { o with
      state := 5, work := ws, ackAt := none, rnrAt := none, part := [], wrLeft := 0, reads := [], inbound := [], h2c := []
      capsules := [], replies := if isTcp o.type then o.replies else [], tcp := clear o.tcp }) s
    let s := dropReqs (objOf s onum).iid (fun k => k == .xport onum) s
    settleWork onum s

/-- Work item `i` fails; the object enters ERR, a UD one only ends the item (R454). -/
def failWork (onum i err status : Nat) (s : State) : State :=
  let b := workEntry s onum ((objOf s onum).work.getD i {}) err status
  if (objOf s onum).type == 1 then finishWork onum i b s
  else
    errObject onum (setObj onum (fun o => { o with work := o.work.mapIdx fun j w => if j == i then { w with fin := some b } else w }) s)

/-- An object that has no work to report on enters ERR with one entry of its own (R437, R441, R454). -/
def errWith (onum err status : Nat) (s : State) : State :=
  if !hasObj s onum || (objOf s onum).state == 5 then s
  else match (objOf s onum).work.findIdx? fun w => w.fin.isNone with
    | some i => failWork onum i err status s
    | none =>
      let b := entryBits s onum { opcode := if isTcp (objOf s onum).type then 7 else 0, err := err, status := status }
      errObject onum (postEntry onum none b s)

/-! ## Memory regions (R430, R453) -/

/-- A memory region that a key names and that permits an access of an instance: `right` is a bit of MR_ACCESS. -/
def regionOk (s : State) (iid key addr len right : Nat) : Bool :=
  let n := key / 4096
  let o := objOf s n
  hasObj s n && o.type == 7 && o.state == 3 && o.iid == iid && bits 11 0 o.a.mrTag == key % 4096
    && bits right right o.a.mrAccess == 1 && o.a.mrBase ≤ addr && addr + len ≤ o.a.mrBase + o.a.mrLen

/-- The local memory region of a work item: any region for reading it, a region with local write for writing it. -/
def localOk (s : State) (iid key addr len : Nat) (write : Bool) : Bool :=
  let n := key / 4096
  let o := objOf s n
  hasObj s n && o.type == 7 && o.state == 3 && o.iid == iid && bits 11 0 o.a.mrTag == key % 4096
    && (!write || bits 0 0 o.a.mrAccess == 1) && o.a.mrBase ≤ addr && addr + len ≤ o.a.mrBase + o.a.mrLen

/-! ## Packets an engine forms (R428, R433) -/

/-- A packet of an object's SQ leaf: replies go before packets built from descriptors. -/
def formPacket (onum : Nat) (reply : Bool) (bs : List Byte) (s : State) : State :=
  let o := objOf s onum
  let leaf := kLeaf o.sq
  let m : SMap Nat := [(0x8F, (onum / 262144) * 2 ^ 30 + onum)]
  let c : Charge := { use := some 1, cells := cellsOf bs.length, acct := some (portOf o.iid) }
  let x : Pkt := { src := 1, srcId := o.sq, bytes := bs, raw := bs, conts := m, reply := reply, origin := some onum, charge := c }
  let before := leafQueue s leaf
  let p := s.nextPkt
  let s := joinLeaf leaf x s
  if reply then
    let q := (before.filter fun q => (pkt s q).reply) ++ [p] ++ (before.filter fun q => !(pkt s q).reply)
    { s with tm := { s.tm with leafQ := s.tm.leafQ.put leaf q } }
  else s

/-- A base transport header (R433). -/
def bth (opcode dest psn : Nat) (se ackReq : Bool) (pad : Nat) : List Byte :=
  bytesBE 1 opcode ++ bytesBE 1 (128 * bit se + 16 * pad) ++ [0xFF#8, 0xFF#8, 0#8] ++ bytesBE 3 dest ++ bytesBE 1 (128 * bit ackReq)
    ++ bytesBE 3 psn

/-- A RoCE v2 packet from its base transport header to its ICRC. The ICRC covers the outer headers that the set builds: it is
generated when the packet leaves its last pass (log 97), and is free until then (log 5). -/
def rocePacket (s : State) (opcode dest psn : Nat) (se ackReq : Bool) (ext payload : List Byte) : List Byte :=
  let pad := (4 - payload.length % 4) % 4
  bth opcode dest psn se ackReq pad ++ ext ++ payload ++ List.replicate pad 0 ++ bytesOf 4 (drawn 32 s)

/-- Extension headers. -/
def reth (addr key len : Nat) : List Byte := bytesBE 8 addr ++ bytesBE 4 key ++ bytesBE 4 len
def atomicEth (addr key a b : Nat) : List Byte := bytesBE 8 addr ++ bytesBE 4 key ++ bytesBE 8 a ++ bytesBE 8 b
def aeth (synd msn : Nat) : List Byte := bytesBE 1 synd ++ bytesBE 3 msn
def deth (qkey src : Nat) : List Byte := bytesBE 4 qkey ++ [0#8] ++ bytesBE 3 src

/-- A reply of a RoCE v2 object waits to be formed. -/
def replyRoce (onum opcode psn : Nat) (ext payload : List Byte) (s : State) : State :=
  let b := rocePacket s opcode (objOf s onum).a.destQpn psn false false ext payload
  useDraw (setObj onum (fun o => { o with replies := o.replies ++ [b] }) s)

/-- An acknowledgement of a PSN, or a NAK: the AETH syndrome and the message sequence number. -/
def sendAck (onum psn synd : Nat) (s : State) : State := replyRoce onum 0x11 psn (aeth synd (objOf s onum).msn) [] s

/-- Stream bytes of a connection join those to be sent: as they are, or, on a TLS connection, as a record to seal (R439). -/
def streamOut (onum : Nat) (bs : List Byte) (s : State) : State :=
  setObj onum (fun o =>
    if o.a.txKey == 0xFFFFFFFF then { o with tcp := { o.tcp with out := o.tcp.out ++ bs } }
    else { o with tcp := { o.tcp with toSeal := o.tcp.toSeal ++
      ((List.range ((bs.length + 16383) / 16384)).map fun i => (23, (bs.drop (16384 * i)).take 16384, none)) } }) s

end Sys2Proof.Machine
end

