-- ==== Sys2Proof/Machine/StoreOps.lean ====
section
/-! DEFINITION. The storage-target service, the storage cache and the storage ports (R446 to R451, R496 to R502). -/
namespace Sys2Proof.Machine

/-! ## Namespaces, ports, commands -/

/-- The key of a namespace. -/
def nsKey (subsys nsid : Nat) : Nat := subsys * 2 ^ 16 + nsid

/-- Bytes of a block (R446). -/
def lbaSize (lbaf : Nat) : Nat := if lbaf == 0 then 512 else 4096

def sport (s : State) (p : Nat) : Sport := s.store.ports.get p
def setSport (p : Nat) (f : Sport → Sport) (s : State) : State :=
  { s with store := { s.store with ports := s.store.ports.upd p f } }

/-- A drive's namespaces can be reached. -/
def sportReady (s : State) (p : Nat) : Bool :=
  (sport s p).ready && (sport s p).linkUp && (sport s p).powerOn && !s.kiln.blocks.contains (sliceId 10 p)

def driveCmd (s : State) (id : Nat) : DriveCmd := s.store.cmds.get id
def setCmd (id : Nat) (f : DriveCmd → DriveCmd) (s : State) : State :=
  if s.store.cmds.has id then { s with store := { s.store with cmds := s.store.cmds.upd id f } } else s

/-- A status field of an NVMe completion (R453). -/
def nvStatus (sct sc dnr : Nat) : Nat := sc + sct * 256 + dnr * 2 ^ 14
def nvPathError : Nat := nvStatus 3 0 0
def nvAbort : Nat := nvStatus 0 7 0
def nvDenied : Nat := nvStatus 2 0x86 1
def nvRange : Nat := nvStatus 0 0x80 1
def nvOpcode : Nat := nvStatus 0 1 1

/-- Bytes put into a list at an offset. -/
def splice (bs : List Byte) (off : Nat) (new : List Byte) : List Byte := bs.take off ++ new ++ bs.drop (off + new.length)

/-! ## NVMe/TCP PDUs (R438) -/

/-- CRC-32C of bytes as a digest. -/
def digest32 (bs : List Byte) : List Byte := bytesOf 4 (crc32c 0xFFFFFFFF bs)

/-- A PDU with its digests: type, flags beside the digest flags, the header after its common part, and its data. -/
def pduBytes (dig type flags : Nat) (psh data : List Byte) : List Byte :=
  let hd := if dig % 2 == 1 then 4 else 0
  let dd := if dig / 2 % 2 == 1 && !data.isEmpty then 4 else 0
  let hlen := 8 + psh.length
  let h := bytesOf 1 type ++ bytesOf 1 (flags + dig % 2 + (if dd == 4 then 2 else 0)) ++ bytesOf 1 hlen
    ++ bytesOf 1 (if data.isEmpty then 0 else hlen + hd) ++ bytesOf 4 (hlen + hd + data.length + dd) ++ psh
  h ++ (if hd == 4 then digest32 h else []) ++ data ++ (if dd == 4 then digest32 data else [])

/-- A PDU goes out on a connection. -/
def sendPdu (onum type flags : Nat) (psh data : List Byte) (s : State) : State :=
  streamOut onum (pduBytes (Config.digests onum % 4) type flags psh data) s

/-! ## Answers (R447) -/

/-- A completion queue entry. SQHD is free: the spec states no value for it (log 5). -/
def cqe (s : State) (onum cid dw0 st : Nat) : List Byte :=
  bytesOf 4 dw0 ++ bytesOf 4 0 ++ bytesOf 2 (drawn 16 s) ++ bytesOf 2 ((objOf s onum).qid.getD 1) ++ bytesOf 2 cid ++ bytesOf 2 (st * 2)

/-- Work that the storage-target service makes for itself on a RoCE v2 queue pair. -/
def serviceWork (onum : Nat) (w : Work2) (s : State) : State := setObj onum (fun o => { o with work := o.work ++ [w] }) s

/-- A command is answered: its response goes to the initiator, or its completion entry to a local queue. -/
def respond (onum cid dw0 st bytes : Nat) (s : State) : State :=
  let o := objOf s onum
  let c := cqe s onum cid dw0 st
  if !hasObj s onum || (o.state != 3 && o.state != 4) then s
  else if o.type == 3 then useDraw (sendPdu onum 5 0 c [] s)
  else if o.type == 5 then useDraw (serviceWork onum { op := 1, data := c, len := 16, svc := some 0 } s)
  else match o.work.findIdx? fun w => w.cid == cid && w.op == 9 && w.formed == 1 && w.fin.isNone with
    | some i => finishWork onum i (entryBits s onum { wrId := (o.work.getD i {}).wrId, bytes := bytes, imm := dw0, opcode := 7, nvme := st }) s
    | none => s

/-- A command of a drive ends (R456): counted, forgotten, answered. -/
def finishCmd (id st bytes : Nat) (s : State) : State :=
  let c := driveCmd s id
  if !s.store.cmds.has id then s
  else
    let s := if st == nvPathError then countBlock 0xFC05 c.sp 0 s else countBlock 0xFC04 c.sp (if st == 0 then bytes else 0) s
    respond c.onum c.cid 0 st (if st == 0 then bytes else 0) { s with store := { s.store with cmds := s.store.cmds.del id } }

/-- Data that a read has brought goes to the initiator, then the response. -/
def deliverData (onum cid host rkey : Nat) (data : List Byte) (s : State) : State :=
  let o := objOf s onum
  if !hasObj s onum || (o.state != 3 && o.state != 4) then s
  else if o.type == 3 then
    sendPdu onum 7 4 (bytesOf 2 cid ++ bytesOf 2 0 ++ bytesOf 4 0 ++ bytesOf 4 data.length ++ bytesOf 4 0) data s
  else if o.type == 5 then
    serviceWork onum { op := 3, data := data, len := data.length, raddr := host, rkey := rkey, svc := some 0 } s
  else hostWrite o.iid host data.length (ofBytes data) false s

/-- A read has all its data. -/
def deliverRead (id : Nat) (s : State) : State :=
  let c := driveCmd s id
  finishCmd id 0 c.data.length (deliverData c.onum c.cid c.host c.rkey c.data s)

/-! ## The storage cache (R449) -/

/-- The key of a 4 KiB line: storage port, drive namespace, line. -/
def lineKey (sp nsid line : Nat) : Nat := sp * 2 ^ 96 + nsid * 2 ^ 64 + line

/-- The lines that bytes of a drive namespace cover. -/
def linesOf (sp nsid start len : Nat) : List Nat :=
  if len == 0 then [] else (List.range ((start + len - 1) / 4096 - start / 4096 + 1)).map fun i => lineKey sp nsid (start / 4096 + i)

/-- Lines, and fills under way, are invalidated under a condition. -/
def invalidate (f : Nat → Bool) (s : State) : State :=
  { s with store := { s.store with
    lines := s.store.lines.filter fun l => !f l.1, fills := s.store.fills.map fun e => (e.1, e.2 && !f e.1) } }

/-- The byte at an address of a drive namespace in the cached lines. -/
def cachedByte (s : State) (sp nsid a : Nat) : Byte := (s.store.lines.get (lineKey sp nsid (a / 4096))).getD (a % 4096) 0

/-! ## Drive commands (R447, R448, R502) -/

/-- The key that a handle names for an operation: a stale handle is given as a number that no index has (R413). -/
def keyNumber (s : State) (h : Nat) : Nat := (liveHandle s h).getD (2 ^ 32 + h)

/-- First drive byte of a command, and its length. -/
def cmdStart (s : State) (c : DriveCmd) : Nat := ((s.store.nss.get c.ns).start + c.lba) * lbaSize (s.store.nss.get c.ns).lbaf
def cmdLen (s : State) (c : DriveCmd) : Nat := c.blocks * lbaSize (s.store.nss.get c.ns).lbaf

/-- A command is dispatched to its drive: a write invalidates the lines it covers, a read fills
those it misses and no fill is bringing already (R449). -/
def toDrive (id : Nat) (s : State) : State :=
  let c := driveCmd s id
  let n := s.store.nss.get c.ns
  let ls := linesOf c.sp n.driveNsid (cmdStart s c) (cmdLen s c)
  let s := setCmd id (fun c => { c with phase := 2, deadline := s.tick + secT 2 }) s
  let s := if c.op == 1 || c.op == 8 then invalidate (fun k => ls.contains k) s else s
  let s := if c.op == 2 then
      { s with store := { s.store with fills := s.store.fills ++ ((ls.filter fun k => !c.hits.contains k
          && !(s.store.fills.any fun f => f.1 == k && f.2)).map fun k => (k, true)) } }
    else s
  emit (.drive c.sp id c.op (n.start + c.lba) c.blocks (if c.op == 2 then [] else c.data)) s

/-- One operation a block is asked of the cipher complex (R448). -/
def askUnits (id : Nat) (decrypt : Bool) (s : State) : State :=
  let c := driveCmd s id
  let n := s.store.nss.get c.ns
  let s := setCmd id (fun c => { c with phase := if decrypt then 3 else 1, unitsLeft := c.blocks }) s
  (List.range c.blocks).foldl (fun s b =>
    cipherAsk { req := .unit id b, key := keyNumber s n.key, xts := true, open_ := decrypt, len := lbaSize n.lbaf } s) s

def encrypted (s : State) (c : DriveCmd) : Bool := (s.store.nss.get c.ns).key != 0xFFFFFFFF

/-- A read's data are in hand: decrypted where the namespace is encrypted, then delivered. -/
def readInHand (id : Nat) (s : State) : State :=
  if encrypted s (driveCmd s id) then askUnits id true s else deliverRead id s

/-- Deallocate: the ranges lie in the namespace, and their lines are invalidated (R447 to R449). -/
def deallocate (id : Nat) (s : State) : State :=
  let c := driveCmd s id
  let n := s.store.nss.get c.ns
  let rs := (List.range (c.data.length / 16)).map fun i => (rd c.data (16 * i + 8) 8, rd c.data (16 * i + 4) 4)
  if rs.any fun r => r.1 + r.2 > n.count then finishCmd id nvRange 0 s
  else
    let b := lbaSize n.lbaf
    let ls := rs.flatMap fun r => linesOf c.sp n.driveNsid ((n.start + r.1) * b) (r.2 * b)
    toDrive id (invalidate (fun k => ls.contains k) s)

/-- The data that a command needs from its initiator has arrived. -/
def dataInHand (id : Nat) (s : State) : State :=
  let c := driveCmd s id
  if c.op == 9 then deallocate id s
  else if encrypted s c then askUnits id false s
  else toDrive id s

/-- An R2T of at most 131,072 bytes for a command's next data (R438). -/
def askR2t (id : Nat) (s : State) : State :=
  let c := driveCmd s id
  sendPdu c.onum 9 0 (bytesOf 2 c.cid ++ bytesOf 2 id ++ bytesOf 4 c.got ++ bytesOf 4 (min 131072 (c.need - c.got)) ++ bytesOf 4 0) [] s

/-- Where the data end that the last R2T of a command asked for. -/
def r2tEnd (c : DriveCmd) : Nat := min c.need ((c.got / 131072 + 1) * 131072)

/-- Write data of a command arrive. -/
def writeData (id off : Nat) (bs : List Byte) (s : State) : State :=
  if !s.store.cmds.has id || (driveCmd s id).phase != 0 then s
  else
    let s := setCmd id (fun c => { c with data := splice c.data off bs, got := c.got + bs.length }) s
    let c := driveCmd s id
    if c.got ≥ c.need then dataInHand id s
    else if (objOf s c.onum).type == 3 && c.got % 131072 == 0 then askR2t id s
    else s

/-- Data are asked of the initiator: those in the capsule first, else an R2T, an RDMA READ, or a read of the host. -/
def askData (id n : Nat) (inline : List Byte) (s : State) : State :=
  let c := driveCmd s id
  let o := objOf s c.onum
  let s := setCmd id (fun c => { c with need := n, data := List.replicate n 0 }) s
  if inline.length ≥ n then writeData id 0 (inline.take n) s
  else if o.type == 3 then askR2t id s
  else if o.type == 5 then
    serviceWork c.onum { op := 5, raddr := c.host, rkey := c.rkey, len := n, svc := some (id + 1) } s
  else issueRead o.iid (.drive id) c.host n s

/-- A data unit has left the cipher complex (R448). -/
def unitDone (id block : Nat) (ok : Bool) (bs : List Byte) (s : State) : State :=
  let c := driveCmd s id
  if !s.store.cmds.has id || (c.phase != 1 && c.phase != 3) then s
  else if !ok then finishCmd id nvDenied 0 s
  else
    let s := setCmd id (fun c => { c with data := splice c.data (block * bs.length) bs, unitsLeft := c.unitsLeft - 1 }) s
    if (driveCmd s id).unitsLeft != 0 then s
    else if c.phase == 1 then toDrive id s
    else deliverRead id s

/-! ## Commands of an initiator (R447, R448) -/

/-- The data pointer of a command (log 29): address, length, key. -/
def sglAddr (c : List Byte) : Nat := rd c 24 8
def sglLen (c : List Byte) : Nat := rd c 32 (if rd c 39 1 / 16 == 4 then 3 else 4)
def sglKey (c : List Byte) : Nat := if rd c 39 1 / 16 == 4 then rd c 35 4 else 0

/-- A new drive command. -/
def newCmd (onum ns op lba blocks : Nat) (c : List Byte) (s : State) : Nat × State :=
  let id := s.store.nextCmd
  let d : DriveCmd := { id := id, onum := onum, cid := rd c 2 2, sp := (s.store.nss.get ns).sp, ns := ns, op := op, lba := lba
                        blocks := blocks, host := sglAddr c, rkey := sglKey c }
  (id, { s with store := { s.store with cmds := s.store.cmds.put id d, nextCmd := id + 1 } })

/-- A read: from the cache where every byte is there, else from the drive (R449). -/
def startRead (id : Nat) (s : State) : State :=
  let c := driveCmd s id
  let n := s.store.nss.get c.ns
  let ls := linesOf c.sp n.driveNsid (cmdStart s c) (cmdLen s c)
  let hits := ls.filter fun k => s.store.lines.has k
  let s := hits.foldl (fun s _ => countBlock 0xFC06 c.sp 4096 s) s
  let bytes := (List.range (cmdLen s c)).map fun i => cachedByte s c.sp n.driveNsid (cmdStart s c + i)
  let s := setCmd id (fun c => { c with hits := hits, data := bytes }) s
  if hits.length == ls.length then readInHand id s else toDrive id s

/-- An I/O command. -/
def ioCommand (onum : Nat) (c inline : List Byte) (s : State) : State :=
  let o := objOf s onum
  let op := rd c 0 1
  let cid := rd c 2 2
  let key := nsKey o.subsys (rd c 4 4)
  let n := s.store.nss.get key
  let lba := rd c 40 8
  let nlb := rd c 48 2 + 1
  let answer (st : Nat) (s : State) : State := respond onum cid 0 st 0 s
  if op != 0 && op != 1 && op != 2 && op != 8 && op != 9 then answer nvOpcode s
  else if rd c 4 4 == 0 || rd c 4 4 > 1024 || !s.store.nss.has key then answer (nvStatus 0 0x0B 1) s
  else if n.gone || !sportReady s n.sp then answer nvPathError (countBlock 0xFC05 n.sp 0 s)
  else if op == 0 then
    let (id, s) := newCmd onum key 0 0 0 c s
    toDrive id s
  else if op == 9 then
    if bits 2 2 (rd c 44 4) == 0 then answer 0 s
    else
      let (id, s) := newCmd onum key 9 0 0 c s
      askData id (16 * (rd c 40 1 + 1)) inline s
  else if lba + nlb > n.count then answer nvRange s
  else if nlb * lbaSize n.lbaf > 1048576 && op != 8 then answer (nvStatus 0 2 1) s
  else
    let (id, s) := newCmd onum key op lba nlb c s
    if op == 2 then startRead id s
    else if op == 1 then askData id (nlb * lbaSize n.lbaf) inline s
    else if encrypted s (driveCmd s id) then
      askUnits id false (setCmd id (fun d => { d with data := List.replicate (nlb * lbaSize n.lbaf) 0 }) s)
    else toDrive id s

/-- A command of the admin queue, a Connect, or a property command (R447). The data of Identify and Get Log Page, and the values
that Get Features and Property Get return, are stated nowhere: they are free (log 5). -/
def adminCommand (onum : Nat) (c inline : List Byte) (s : State) : State :=
  let op := rd c 0 1
  let cid := rd c 2 2
  let fid := rd c 40 1
  let ok (s : State) : State := useDraw (respond onum cid (drawn 32 s) 0 0 s)
  if op == 0x7F then
    if rd c 4 1 == 1 then
      if rd c 42 2 > 64 || rd c 44 2 > 1023 || inline.length < 1024 then respond onum cid 0 (nvStatus 1 0x82 1) 0 s
      else ok (setObj onum (fun o => { o with qid := some (rd c 42 2) }) s)
    else if rd c 4 1 == 0 || rd c 4 1 == 4 then ok s
    else respond onum cid 0 nvOpcode 0 s
  else if op == 0x06 || op == 0x02 then
    let n := if op == 0x06 then 4096 else 4 * (bits 27 16 (rd c 40 4) + 1)
    let s := useDraw (deliverData onum cid (sglAddr c) (sglKey c) (bytesOf n (drawn (8 * n) s)) s)
    respond onum cid 0 0 n s
  else if op == 0x09 || op == 0x0A then
    if fid == 0x07 || fid == 0x0F then ok s else respond onum cid 0 (nvStatus 0 2 1) 0 s
  else if op == 0x18 then respond onum cid 0 0 0 s
  else respond onum cid 0 nvOpcode 0 s

/-- The storage-target service serves a command. -/
def serveCommand (onum : Nat) (c inline : List Byte) (s : State) : State :=
  let o := objOf s onum
  if o.type == 6 then ioCommand onum c inline s
  else if rd c 0 1 == 0x7F then adminCommand onum c inline s
  else match o.qid with
    | none => respond onum (rd c 2 2) 0 (nvStatus 0 0x0C 1) 0 s
    | some 0 => adminCommand onum c inline s
    | some _ => ioCommand onum c inline s

/-! ## Removal and power (R450, R499 to R501) -/

/-- SP_PWREN_s and SP_PERST_N_s follow the port. -/
def driveSlot (p : Nat) (s : State) : State := emit (.slotPower p (sport s p).powerOn (!(sport s p).perst)) s

/-- A port's commands and namespaces fail (R450): its commands end, its lines go, its slot is off. -/
def failPort (p : Nat) (s : State) : State :=
  let ids := (s.store.cmds.filter fun c => c.2.sp == p).map (·.1)
  let s := ids.foldl (fun s i => finishCmd i nvPathError 0 s) s
  let nss := s.store.nss.mapAll fun _ n => if n.sp == p then { n with gone := true } else n
  let s := invalidate (fun k => k / 2 ^ 96 == p) { s with store := { s.store with nss := nss } }
  driveSlot p (setSport p (fun q => { q with
    powerOn := false, perst := true, linkUp := false, ready := false, drives := [] }) s)

/-- A drive is removed (R450): its port fails, and DRIVE_REMOVED is posted. -/
def removeDrive (p cause : Nat) (s : State) : State :=
  let n := (s.store.cmds.filter fun c => c.2.sp == p).length
  postAll 0x0802 21 (fld 255 252 p + fld 251 248 cause + fld 247 216 (satAdd 32 n 0)) (failPort p s)

end Sys2Proof.Machine
end

