-- ==== Sys2Proof/Machine/RoceOps.lean ====
section
/-! DEFINITION. RoCE v2: requester and responder (R430 to R436). -/
namespace Sys2Proof.Machine

/-! ## Requester: forming packets (R428, R433) -/

/-- Packets, or for a READ response packets, of a work item. -/
def workPsns (o : Obj) (w : Work2) : Nat :=
  if w.op == 6 || w.op == 7 || w.op == 9 || o.type == 1 then 1 else max 1 ((w.len + pmtuBytes o - 1) / pmtuBytes o)

/-- A work item whose response carries data. -/
def Work2.reads (w : Work2) : Bool := w.op == 5 || w.op == 6 || w.op == 7

/-- A local fault of a work item before it starts (R433, R453): its ERR. -/
def workFault (s : State) (o : Obj) (w : Work2) : Nat :=
  if w.svc.isSome || w.op == 9 then 0
  else if (w.op == 6 || w.op == 7) && w.len != 8 then 1
  else if o.type == 1 && w.len > pmtuBytes o then 1
  else if w.len > 2 ^ 31 then 1
  else if w.len != 0 && !localOk s o.iid w.lkey w.addr w.len w.reads then 2
  else 0

/-- The work item that takes the next PSN: the first not started. -/
def nextStart (o : Obj) : Option Nat := o.work.findIdx? fun w => w.npsn == 0 && w.fin.isNone

/-- READ and atomic requests outstanding (R433). -/
def readsOut (o : Obj) : Nat := (o.work.filter fun w => w.reads && w.npsn != 0 && w.fin.isNone).length

/-- The next work item starts: it takes its PSNs. -/
def startWork (onum i : Nat) (s : State) : State :=
  setObj onum (fun o =>
    let n := workPsns o (o.work.getD i {})
    { o with work := o.work.mapIdx fun j w => if j == i then { w with psn := o.a.sqPsn, npsn := n } else w
             a := { o.a with sqPsn := psnAdd o.a.sqPsn n } }) s

/-- The started work item that holds a PSN. -/
def workAt (o : Obj) (p : Nat) : Option Nat :=
  o.work.findIdx? fun w => w.npsn != 0 && decide (psnSub p w.psn < w.npsn)

/-- A UD datagram: destination queue pair in RADDR, Q_Key in RKEY (log 27). -/
def udPacket (s : State) (onum : Nat) (o : Obj) (w : Work2) : List Byte :=
  rocePacket s (if w.op == 2 then 0x65 else 0x64) (w.raddr % 2 ^ 24) o.a.sqPsn w.solicited false
    (deth w.rkey onum ++ (if w.op == 2 then bytesBE 4 w.imm else [])) w.data

/-- The packet of a started RC work item at a PSN: its bytes, and the PSN after it. -/
def rcPacket (s : State) (o : Obj) (w : Work2) (p : Nat) : List Byte × Nat :=
  let i := psnSub p w.psn
  let m := pmtuBytes o
  if w.op == 5 then
    (rocePacket s 0x0C o.a.destQpn p false true (reth (w.raddr + i * m) w.rkey (w.len - i * m)) [], psnAdd w.psn w.npsn)
  else if w.op == 6 || w.op == 7 then
    (rocePacket s (if w.op == 6 then 0x13 else 0x14) o.a.destQpn p false true (atomicEth w.raddr w.rkey w.opA w.opB) [], psnAdd p 1)
  else
    let write := w.op == 3 || w.op == 4
    let imm := w.op == 2 || w.op == 4
    let first := i == 0
    let last := i + 1 == w.npsn
    let base := if write then 6 else 0
    let code := base + (if first && last then (if imm then 5 else 4) else if first then 0 else if last then (if imm then 3 else 2) else 1)
    let ext := (if write && first then reth w.raddr w.rkey w.len else []) ++ (if imm && last then bytesBE 4 w.imm else [])
    (rocePacket s code o.a.destQpn p (w.solicited && last) last ext ((w.data.drop (i * m)).take m), psnAdd p 1)

/-- The next packet that a requester may send, formed (R428, R431, R433); nothing where it has none. -/
def formRoce (onum : Nat) (s : State) : State :=
  let o := objOf s onum
  if o.state != 3 && o.state != 4 then s
  else if o.rnrAt.isSome then s
  else if o.type == 1 then
    match nextStart o with
    | none => s
    | some i =>
      let w := o.work.getD i {}
      let f := workFault s o w
      if o.state == 4 then s
      else if f != 0 then failWork onum i f 0 s
      else
        let s := useDraw (formPacket onum false (udPacket s onum o w) s)
        finishWork onum i (workEntry s onum w 0 0) (startWork onum i s)
  else
    let s := if o.formPsn == o.a.sqPsn && o.state == 3 then
        (match nextStart o with
         | none => s
         | some i =>
           let w := o.work.getD i {}
           let f := workFault s o w
           if f != 0 then failWork onum i f 0 s
           else if w.reads && readsOut o ≥ 16 then s
           else startWork onum i s)
      else s
    let o := objOf s onum
    match workAt o o.formPsn with
    | none => s
    | some i =>
      if o.state == 5 || o.formPsn == o.a.sqPsn then s
      else
        let w := o.work.getD i {}
        let r := rcPacket s o w o.formPsn
        let s := useDraw (formPacket onum false r.1 s)
        setObj onum (fun o => { o with
          formPsn := r.2, work := o.work.mapIdx fun j w => if j == i then { w with formed := w.formed + 1 } else w
          ackAt := if o.ackAt.isSome then o.ackAt else o.ackTicks.map (· + s.tick) }) s

/-! ## Requester: acknowledgements (R434) -/

/-- `a` is at or after `b`. -/
def psnGe (a b : Nat) : Bool := psnSub a b < 2 ^ 23

/-- The first response that a requester still awaits: its PSN. -/
def awaited (o : Obj) : Option Nat :=
  (o.work.find? fun w => w.reads && w.npsn != 0 && w.fin.isNone).map fun w => psnAdd w.psn (w.got.length / pmtuBytes o)

/-- Everything up to a PSN is acknowledged: work without a response of its own completes, and retries are restored. -/
def progress (onum p : Nat) (s : State) : State :=
  let o := objOf s onum
  if !psnGe p o.una then s
  else
    let una := psnAdd p 1
    let form := if psnGe o.formPsn una then o.formPsn else una
    let ws := o.work.map fun w =>
      if w.npsn != 0 && w.fin.isNone && !w.reads && w.op != 9 && psnGe p (psnAdd w.psn (w.npsn - 1)) then
        { w with fin := some (workEntry s onum w 0 0) }
      else w
    settleWork onum (setObj onum (fun o => { o with
      una := una, formPsn := form, retries := o.retryCnt, rnrLeft := o.rnrRetry, work := ws
      ackAt := if form == una then none else o.ackTicks.map (· + s.tick) }) s)

/-- The first work item not finished. -/
def oldest (o : Obj) : Nat := (o.work.findIdx? fun w => w.fin.isNone).getD 0

/-- The formed requests of an object that still wait in its leaf are given up: it forms them again. -/
def dropRequests (onum : Nat) (s : State) : State := dropLeafIf (kLeaf (objOf s onum).sq) (fun x => x.origin == some onum && !x.reply) s

/-- Retransmission from a PSN (R434): one of RETRY_CNT, or the end of the message. -/
def retransmit (onum p : Nat) (s : State) : State :=
  let o := objOf s onum
  if o.retries == 0 then failWork onum (oldest o) 5 0 s
  else setObj onum (fun o => { o with retries := o.retries - 1, formPsn := p, ackAt := o.ackTicks.map (· + s.tick) }) (dropRequests onum s)

/-- A positive acknowledgement of a PSN; a response that it passes over was lost. -/
def acked (onum p : Nat) (s : State) : State :=
  match awaited (objOf s onum) with
  | some m => if psnGe p m then retransmit onum m (progress onum (psnSub m 1) s) else progress onum p s
  | none => progress onum p s

/-- An acknowledgement arrives: its AETH syndrome. -/
def gotAck (onum p synd : Nat) (s : State) : State :=
  let kind := bits 6 5 synd
  let o := objOf s onum
  if !psnGe p o.una || psnGe p o.a.sqPsn then s
  else if kind == 0 then acked onum p s
  else
    let s := progress onum (psnSub p 1) s
    if kind == 1 then
      setObj onum (fun o => { o with rnrAt := some (s.tick + rnrTicks (bits 4 0 synd)), formPsn := p, ackAt := none }) (dropRequests onum s)
    else
      let c := bits 4 0 synd
      if c == 0 then retransmit onum p s
      else failWork onum (oldest (objOf s onum)) (if c == 2 then 3 else 4) 0 s

/-- A work item has its response whole. -/
def responseWhole (onum i : Nat) (s : State) : State :=
  let w := (objOf s onum).work.getD i {}
  let s := finishWork onum i (workEntry s onum w 0 0) s
  match w.svc with
  | some (id + 1) => writeData id 0 w.got s
  | _ => s

/-- The data of the response with PSN p, for the request at place i of its object's work: written to the host (or
kept for an engine service), and the request done when all of it is in. -/
def responseData (onum i p : Nat) (payload : List Byte) (s : State) : State :=
  let w := (objOf s onum).work.getD i {}
  let bs := payload.take (w.len - w.got.length)
  let data := if w.op == 5 then bs else (payload.take 8).reverse
  let s := if w.svc.isSome then s
    else hostWrite (objOf s onum).iid (w.addr + w.got.length) data.length (ofBytes data) false s
  let s := setObj onum (fun o => { o with
    una := psnAdd p 1, retries := o.retryCnt, formPsn := if psnGe o.formPsn (psnAdd p 1) then o.formPsn else psnAdd p 1
    ackAt := if o.formPsn == psnAdd p 1 then none else o.ackTicks.map (· + s.tick)
    work := o.work.mapIdx fun j w => if j == i then { w with got := w.got ++ data } else w }) s
  if w.got.length + data.length ≥ w.len then responseWhole onum i s else s

/-- A READ or atomic response of one packet arrives. -/
def gotResponse (onum p : Nat) (payload : List Byte) (s : State) : State :=
  let o := objOf s onum
  match awaited o with
  | none => s
  | some m =>
    if p != m then (if psnGe p m && !psnGe p o.a.sqPsn then retransmit onum m (progress onum (psnSub m 1) s) else s)
    else
      let s := progress onum (psnSub p 1) s
      match (objOf s onum).work.findIdx? fun w => w.reads && w.npsn != 0 && w.fin.isNone with
      | none => s
      | some i => responseData onum i p payload s

/-! ## Responder (R434, R435) -/

/-- Receive buffers of a queue that nothing waits for yet. -/
def buffersFree (s : State) (o : Obj) : Bool :=
  match ownerOf s o.rq with
  | none => false
  | some (fn, slot) =>
    let q := (fnOf s fn).slots.get slot
    let waiting := ((s.xport.objs.filter fun e => e.2.rq == o.rq).map fun e => e.2.inbound.length).sum + (s.deliveries.get o.rq).length
    q.rxEn && !q.stopped && decide ((q.rxPi - q.rxTaken).toNat > waiting)

/-- A NAK after which the queue pair enters ERR. -/
def refuseRequest (onum p code : Nat) (s : State) : State :=
  let s := sendAck onum p (0x60 + code) s
  let keep := (objOf s onum).replies
  setObj onum (fun o => { o with replies := keep }) (errObject onum s)

/-- A message of an inbound SEND is whole: it waits for a buffer, or it is a capsule. -/
def messageIn (onum : Nat) (m : Inbound) (s : State) : State :=
  let o := objOf s onum
  if o.type == 5 then setObj onum (fun o => { o with capsules := o.capsules ++ [(m.bytes.take 64, m.bytes.drop 64)] }) s
  else if o.type == 4 then
    match o.work.findIdx? fun w => w.op == 9 && w.cid == rd m.bytes 12 2 && w.formed != 0 && w.fin.isNone with
    | none => s
    | some i => finishWork onum i (entryBits s onum { wrId := (o.work.getD i {}).wrId, bytes := (o.work.getD i {}).len
                                                      imm := rd m.bytes 0 4, opcode := 7, nvme := rd m.bytes 14 2 / 2 }) s
  else setObj onum (fun o => { o with inbound := o.inbound ++ [m] }) s

/-- The packets of a READ response from a PSN on (R434). -/
def answerRead (onum : Nat) (r : RespRead) (p : Nat) (s : State) : State :=
  let o := objOf s onum
  let m := pmtuBytes o
  let data := r.result.getD []
  if r.atomic != 0 then replyRoce onum 0x12 r.psn (aeth 0x1F o.msn ++ data) [] s
  else
    let i := psnSub p r.psn
    (List.range (r.npsn - i)).foldl (fun s j =>
      let first := j == 0
      let last := i + j + 1 == r.npsn
      let code := if first && last then 0x10 else if first then 0x0D else if last then 0x0F else 0x0E
      replyRoce onum code (psnAdd r.psn (i + j)) (if first || last then aeth 0x1F o.msn else [])
        ((data.drop ((i + j) * m)).take m) s) s

/-- The host memory that a READ or atomic request names has been read: it is answered (R433). -/
def readAnswered (onum : Nat) (data : List Byte) (s : State) : State :=
  match (objOf s onum).reads.find? fun r => r.result.isNone with
  | none => s
  | some r =>
    let old := ofBytes (data.take 8)
    let result := if r.atomic == 0 then data.take r.len else bytesBE 8 old
    let new := if r.atomic == 1 then (if old == r.opB then some r.opA else none) else some ((old + r.opA) % 2 ^ 64)
    let s := match r.atomic, new with
      | 0, _ => s
      | _, some v => hostWrite (objOf s onum).iid r.addr 8 v false s
      | _, none => s
    let r := { r with result := some result }
    let s := setObj onum (fun o => { o with reads := o.reads.map fun e => if e.result.isNone then r else e, msn := (o.msn + 1) % 2 ^ 24 }) s
    answerRead onum r r.psn s

/-- A READ or atomic request is taken up: its host memory is read, at most 16 being kept (R433). -/
def takeRead (onum : Nat) (r : RespRead) (s : State) : State :=
  let s := setObj onum (fun o => { o with
    reads := (if o.reads.length ≥ 16 then o.reads.drop 1 else o.reads) ++ [r], nakSent := false
    a := { o.a with rqPsn := psnAdd o.a.rqPsn r.npsn } }) s
  if r.len == 0 then readAnswered onum [] s else issueRead (objOf s onum).iid (.xport onum) r.addr r.len s

/-- A request packet has been executed: RQ_PSN advances, and it is acknowledged where it asks for it. -/
def executed (onum p : Nat) (last ackReq : Bool) (s : State) : State :=
  let s := setObj onum (fun o => { o with
    nakSent := false, msn := if last then (o.msn + 1) % 2 ^ 24 else o.msn, a := { o.a with rqPsn := psnAdd p 1 } }) s
  if ackReq then sendAck onum p 0x1F s else s

/-- The receiver is not ready (R430). -/
def notReady (onum p : Nat) (s : State) : State := sendAck onum p (0x20 + bits 7 3 (objOf s onum).a.rnr) s

/-- A packet of a SEND at the expected PSN. -/
def execSendIn (onum p pos : Nat) (imm : Bool) (se ackReq : Bool) (body : List Byte) (s : State) : State :=
  let o := objOf s onum
  let first := pos == 0 || pos == 4
  let last := pos ≥ 2
  let data := if imm then body.drop 4 else body
  let whole := (if first then [] else o.part) ++ data
  if first && o.type == 0 && !buffersFree s o then notReady onum p s
  else if whole.length > 2 ^ 31 then refuseRequest onum p 1 s
  else
    let s := setObj onum (fun o => { o with part := if last then [] else whole }) s
    let s := if last then messageIn onum { opcode := 4, imm := if imm then ofBytesBE (body.take 4) else 0, immValid := imm
                                           solicited := se, bytes := whole, count := whole.length } s else s
    executed onum p last ackReq s

/-- A packet of an RDMA WRITE at the expected PSN. -/
def execWriteIn (onum p pos : Nat) (imm : Bool) (se ackReq : Bool) (body : List Byte) (s : State) : State :=
  let o := objOf s onum
  let first := pos == 0 || pos == 4
  let last := pos ≥ 2
  let addr := if first then ofBytesBE (body.take 8) else o.wrAddr
  let key := ofBytesBE ((body.drop 8).take 4)
  let len := if first then ofBytesBE ((body.drop 12).take 4) else o.wrLeft
  let body := if first then body.drop 16 else body
  let data := if imm then body.drop 4 else body
  if first && len > 2 ^ 31 then refuseRequest onum p 1 s
  else if first && len != 0 && !regionOk s o.iid key addr len 2 then refuseRequest onum p 2 s
  else if data.length > len || (last && data.length != len) then refuseRequest onum p 1 s
  else if imm && o.type == 0 && !buffersFree s o then notReady onum p s
  else
    let ro := match ownerOf s o.rq with | some (fn, slot) => relaxed s fn slot | none => false
    let s := if data.isEmpty then s else hostWrite o.iid addr data.length (ofBytes data) ro s
    let total := (if first then 0 else o.part.length) + data.length
    let s := setObj onum (fun o => { o with
      wrAddr := addr + data.length, wrLeft := len - data.length
      part := if last then [] else (if first then [] else o.part) ++ data }) s
    let s := if imm then messageIn onum { opcode := 5, imm := ofBytesBE (body.take 4), immValid := true, solicited := se
                                          noData := true, count := total } s else s
    executed onum p last ackReq s

/-- A request at the expected PSN (R433, R434). -/
def execRequest (onum op p : Nat) (se ackReq : Bool) (body : List Byte) (s : State) : State :=
  let o := objOf s onum
  let m := pmtuBytes o
  if op ≤ 5 || (6 ≤ op && op ≤ 0x0B) then
    let pos := if op ≤ 5 then op else op - 6
    let imm := pos == 3 || pos == 5
    let pos := if pos == 3 then 2 else if pos == 5 then 4 else pos
    let write := op ≥ 6
    let n := body.length - (if write && (pos == 0 || pos == 4) then 16 else 0) - (if imm then 4 else 0)
    if (pos < 2 && n != m) || n > m then refuseRequest onum p 1 s
    else if write then execWriteIn onum p pos imm se ackReq body s
    else execSendIn onum p pos imm se ackReq body s
  else if op == 0x0C then
    let addr := ofBytesBE (body.take 8)
    let len := ofBytesBE ((body.drop 12).take 4)
    if len > 2 ^ 31 then refuseRequest onum p 1 s
    else if len != 0 && !regionOk s o.iid (ofBytesBE ((body.drop 8).take 4)) addr len 1 then refuseRequest onum p 2 s
    else takeRead onum { psn := p, npsn := max 1 ((len + m - 1) / m), addr := addr, len := len } s
  else if op == 0x13 || op == 0x14 then
    let addr := ofBytesBE (body.take 8)
    if addr % 8 != 0 then refuseRequest onum p 1 s
    else if !regionOk s o.iid (ofBytesBE ((body.drop 8).take 4)) addr 8 3 then refuseRequest onum p 2 s
    else takeRead onum { psn := p, npsn := 1, addr := addr, len := 8, atomic := op - 0x12
                         opA := ofBytesBE ((body.drop 12).take 8), opB := ofBytesBE ((body.drop 20).take 8) } s
  else refuseRequest onum p 1 s

/-- A request packet of RC (R434). -/
def rcRequest (onum op p : Nat) (se ackReq : Bool) (body : List Byte) (s : State) : State :=
  let o := objOf s onum
  if p == o.a.rqPsn then execRequest onum op p se ackReq body s
  else if psnGe p o.a.rqPsn then
    let s := setObj onum (fun o => { o with oos := satAdd 32 o.oos 1 }) s
    if o.nakSent then s else setObj onum (fun o => { o with nakSent := true }) (sendAck onum o.a.rqPsn 0x60 s)
  else if op == 0x0C || op == 0x13 || op == 0x14 then
    match o.reads.find? fun r => decide (psnSub p r.psn < r.npsn) && r.result.isSome with
    | some r => answerRead onum r p s
    | none => s
  else sendAck onum (psnSub o.a.rqPsn 1) 0x1F s

/-- A congestion notification packet is owed (R435). -/
def sendCnp (onum dest : Nat) (s : State) : State :=
  if (objOf s onum).cnpNext > s.tick then s
  else
    let b := rocePacket s 0x81 dest 0 false false [] (List.replicate 16 0)
    useDraw (setObj onum (fun o => { o with replies := o.replies ++ [b], cnpNext := s.tick + usT 50 }) s)

/-- A packet whose ICRC is right reaches its queue pair: `t` from its base transport header, without ICRC; `ce`: IP or SFH CE. -/
def rocePacketIn (onum : Nat) (t : List Byte) (ce : Bool) (s : State) : State :=
  let o := objOf s onum
  let op := rd t 0 1
  let se := bits 7 7 (rd t 1 1) == 1
  let pad := bits 5 4 (rd t 1 1)
  let p := ofBytesBE ((t.drop 9).take 3)
  let ackReq := bits 7 7 (rd t 8 1) == 1
  let body := (t.drop 12).take (t.length - 12 - pad)
  let src := if o.type == 1 then ofBytesBE ((body.drop 5).take 3) else o.a.destQpn
  let s := if ce then sendCnp onum src s else s
  if o.type == 1 then
    if (op == 0x64 || op == 0x65) && buffersFree s o then
      let b := body.drop 8
      let imm := op == 0x65
      let data := if imm then b.drop 4 else b
      messageIn onum { opcode := 4, imm := if imm then ofBytesBE (b.take 4) else 0, immValid := imm, solicited := se, bytes := data
                       count := data.length } s
    else s
  else if op == 0x11 then gotAck onum p (rd body 0 1) s
  else if op == 0x12 then gotResponse onum p (body.drop 4) s
  else if 0x0D ≤ op && op ≤ 0x10 then gotResponse onum p (if op == 0x0E then body else body.drop 4) s
  else rcRequest onum op p se ackReq body s

/-- A host read that a responder had begun ends with data, or fails: the request is refused (R480). -/
def roceReadFailed (onum : Nat) (s : State) : State :=
  match (objOf s onum).reads.find? fun r => r.result.isNone with
  | some r => refuseRequest onum r.psn 3 s
  | none => s

end Sys2Proof.Machine
end

