-- ==== Sys2Proof/Machine/TcpOps.lean ====
section
/-! DEFINITION. TCP, TLS 1.3 records and NVMe/TCP of an offloaded connection (R437 to R441). -/
namespace Sys2Proof.Machine

/-! ## Sequence numbers and options -/

def seqAdd (a n : Nat) : Nat := (a + n) % 2 ^ 32
def seqSub (a b : Nat) : Nat := (a + 2 ^ 32 - b % 2 ^ 32) % 2 ^ 32
/-- `a` is at or after `b`. -/
def seqGe (a b : Nat) : Bool := seqSub a b < 2 ^ 31

/-- MSS: 536 while none has been given (RFC 9293). -/
def Obj.mss (o : Obj) : Nat := if bits 15 0 o.a.tcpOpt == 0 then 536 else bits 15 0 o.a.tcpOpt
def Obj.tsOn (o : Obj) : Bool := bits 24 24 o.a.tcpOpt == 1
def Obj.sackOn (o : Obj) : Bool := bits 25 25 o.a.tcpOpt == 1
def Obj.peerScale (o : Obj) : Nat := bits 19 16 o.a.tcpOpt
def Obj.ownScale (o : Obj) : Nat := bits 23 20 o.a.tcpOpt

/-- The initial window of RFC 5681. -/
def initialWindow (mss : Nat) : Nat := if mss > 2190 then 2 * mss else if mss > 1095 then 3 * mss else 4 * mss

/-- A connection's TCP variables change. -/
def setTcp (onum : Nat) (f : Tcp → Tcp) (s : State) : State := setObj onum (fun o => { o with tcp := f o.tcp }) s
def tcpOf (s : State) (onum : Nat) : Tcp := (objOf s onum).tcp

/-! ## Segments -/

/-- The time stamp clock, in milliseconds. -/
def tsClock (s : State) : Nat := s.tick / msT 1 % 2 ^ 32

/-- Bytes received and not yet taken. -/
def heldRx (t : Tcp) : Nat := t.rx.length + t.pdu.length + (t.ooo.map fun e => e.2.length).sum

/-- The window field. -/
def windowField (o : Obj) : Nat := min 65535 ((Config.rcvWindow - heldRx o.tcp) >>> o.ownScale)

/-- Options of a segment: time stamps, and up to three SACK blocks. -/
def tcpOptions (s : State) (o : Obj) : List Byte :=
  let ts := if o.tsOn then [1#8, 1#8, 8#8, 10#8] ++ bytesBE 4 (tsClock s) ++ bytesBE 4 o.tcp.tsRecent else []
  let bs := o.tcp.ooo.take 3
  let sack := if o.sackOn && !bs.isEmpty then
      [1#8, 1#8, 5#8, BitVec.ofNat 8 (2 + 8 * bs.length)] ++ bs.flatMap fun e => bytesBE 4 e.1 ++ bytesBE 4 (seqAdd e.1 e.2.length)
    else []
  ts ++ sack

/-- A segment from its TCP header on. The ports belong to what the set builds, and the checksum is generated over the IP header that
the set puts before it (log 97): until then it is free (log 5). -/
def tcpSegment (s : State) (onum seq flags : Nat) (payload : List Byte) : List Byte :=
  let o := objOf s onum
  let opt := tcpOptions s o
  let fl := flags + 16 + (if o.tcp.ece then 64 else 0)
  [0#8, 0#8, 0#8, 0#8] ++ bytesBE 4 seq ++ bytesBE 4 o.tcp.rcvNxt ++ bytesBE 1 ((5 + opt.length / 4) * 16) ++ bytesBE 1 fl
    ++ bytesBE 2 (windowField o) ++ bytesOf 2 (drawn 16 s) ++ [0#8, 0#8] ++ opt ++ payload

/-- An acknowledgement is owed: it is built when it is formed. -/
def oweAck (onum : Nat) (s : State) : State :=
  setObj onum (fun o => if o.replies.contains [] then o else { o with replies := o.replies ++ [[]] }) s

/-- A reset is owed (R437). -/
def oweReset (onum : Nat) (s : State) : State :=
  let b := tcpSegment s onum (objOf s onum).tcp.sndNxt 4 []
  useDraw (setObj onum (fun o => { o with replies := o.replies ++ [b] }) s)

/-! ## Sending (R437) -/

/-- The first bytes from SND_UNA that the peer has not acknowledged selectively: offset and length, at most `n`. -/
def firstHole (t : Tcp) (n : Nat) : Nat × Nat :=
  let off := t.sacked.foldl (fun off e => if seqSub e.1 t.sndUna ≤ off && off < seqSub e.2 t.sndUna then seqSub e.2 t.sndUna else off) 0
  let next := (t.sacked.map fun e => seqSub e.1 t.sndUna).filter (fun d => d > off)
  let stop := next.foldl min t.out.length
  (off, min n (stop - off))

/-- A data segment goes out. -/
def sendSegment (onum off n : Nat) (s : State) : State :=
  let t := tcpOf s onum
  let seq := seqAdd t.sndUna off
  let cwr := t.cwr && seq == t.sndMax
  let b := tcpSegment s onum seq (8 + if cwr then 128 else 0) ((t.out.drop off).take n)
  let s := useDraw (formPacket onum false b s)
  let fin := seqAdd seq n
  setTcp onum (fun t => { t with
    sndNxt := if seqGe fin t.sndNxt then fin else t.sndNxt, sndMax := if seqGe fin t.sndMax then fin else t.sndMax
    cwr := t.cwr && !cwr, again := false, rtxAt := if t.rtxAt.isSome then t.rtxAt else some (s.tick + t.rto)
    timed := if t.timed.isNone && seq == t.sndMax then some (fin, s.tick) else t.timed }) s

/-- The next data segment that the windows allow. -/
def formTcp (onum : Nat) (s : State) : State :=
  let o := objOf s onum
  let t := o.tcp
  let flight := seqSub t.sndNxt t.sndUna
  let wnd := min t.cwnd t.sndWnd
  if o.state != 3 && o.state != 4 && !(o.state == 5 && t.closing) then s
  else if t.again then
    let h := firstHole t (if t.sndWnd == 0 then 1 else o.mss)
    if h.2 == 0 then setTcp onum (fun t => { t with again := false }) s else sendSegment onum h.1 h.2 s
  else if t.out.length > flight && flight < wnd then
    sendSegment onum flight (min o.mss (min (t.out.length - flight) (wnd - flight))) s
  else if t.out.length > flight && t.sndWnd == 0 && flight == 0 && t.rtxAt.isNone then
    setTcp onum (fun t => { t with rtxAt := some (s.tick + t.rto) }) s
  else s

/-- A work item of an initiator's queue starts: its capsule joins the stream, or its record those to be sealed (R438, R439). -/
def startTcpWork (onum : Nat) (s : State) : State :=
  let o := objOf s onum
  if o.state != 3 then s
  else match o.work.findIdx? fun w => w.formed == 0 && w.fin.isNone with
    | none => s
    | some i =>
      let w := o.work.getD i {}
      let s := setObj onum (fun o => { o with
        work := o.work.mapIdx fun j w => if j == i then { w with formed := 1, psn := o.tcp.nextRec } else w
        tcp := if w.op == 8 then { o.tcp with toSeal := o.tcp.toSeal ++ [(w.ctype, w.data, some o.tcp.nextRec)], nextRec := o.tcp.nextRec + 1 }
               else o.tcp }) s
      if w.op == 8 then s else sendPdu onum 4 0 w.data [] s

/-- The next record is sealed (R439, R440). -/
def sealNext (onum : Nat) (s : State) : State :=
  let o := objOf s onum
  let t := o.tcp
  if t.sealing.isSome then s
  else match t.toSeal with
    | [] => s
    | (c, bs, w) :: rest =>
      let id := s.ciph.nextId
      let inner := bs ++ [BitVec.ofNat 8 c]
      let r : TlsRec := { id := id, work := w, hdr := [23#8, 3#8, 3#8] ++ bytesBE 2 (inner.length + 16), body := inner }
      let s := setTcp onum (fun t => { t with sealing := some r, toSeal := rest }) s
      cipherAsk { req := .record onum id, key := keyNumber s o.a.txKey, len := inner.length, aad := 5 } s

/-! ## NVMe/TCP (R438) -/

/-- The connection ends with a TermReq of an error code, then ERR. -/
def termReq (onum fes : Nat) (hdr : List Byte) (s : State) : State :=
  let type := if (objOf s onum).type == 2 then 2 else 3
  let s := streamOut onum (pduBytes 0 type 0 (bytesOf 2 fes ++ List.replicate 14 0) (hdr.take 128)) s
  let s := sealNext onum s
  errWith onum (if type == 2 then 4 else 7) 0 (setTcp onum (fun t => { t with closing := true }) s)

/-- The work item of an initiator that a command identifier names. -/
def initiatorWork (o : Obj) (cid : Nat) : Option Nat :=
  o.work.findIdx? fun w => w.op == 9 && w.cid == cid && w.formed == 1 && w.fin.isNone

/-- A command of an initiator completes with a response. -/
def initiatorDone (onum cid dw0 st : Nat) (s : State) : State :=
  match initiatorWork (objOf s onum) cid with
  | none => s
  | some i =>
    let w := (objOf s onum).work.getD i {}
    finishWork onum i (entryBits s onum { wrId := w.wrId, bytes := w.len, imm := dw0, opcode := 7, nvme := st }) s

/-- The next data that a target has asked for are read from the host. -/
def serveH2c (onum : Nat) (s : State) : State :=
  let o := objOf s onum
  match o.h2c with
  | [] => s
  | (cid, _, off, len) :: _ =>
    match initiatorWork o cid with
    | none => setObj onum (fun o => { o with h2c := o.h2c.drop 1 }) s
    | some i =>
      if awaiting s o.iid (.xport onum) then s
      else issueRead o.iid (.xport onum) (sglAddr (o.work.getD i {}).data + off) (min len 131072) s

/-- The data that a target has asked for have been read: they go out as H2CData. -/
def h2cRead (onum : Nat) (data : List Byte) (s : State) : State :=
  match (objOf s onum).h2c with
  | [] => s
  | (cid, tag, off, len) :: rest =>
    let n := min len 131072
    let s := sendPdu onum 6 (if len ≤ 131072 then 4 else 0)
      (bytesOf 2 cid ++ bytesOf 2 tag ++ bytesOf 4 off ++ bytesOf 4 n ++ bytesOf 4 0) (data.take n) s
    serveH2c onum (setObj onum (fun o => { o with
      work := o.work.map fun w => if w.op == 9 && w.cid == cid && w.fin.isNone then { w with len := max w.len (off + n) } else w
      h2c := if len ≤ 131072 then rest else (cid, tag, off + n, len - n) :: rest }) s)

/-- Data of a C2HData PDU reach the host, but for the first `skip` bytes that already have. -/
def placeC2h (onum cid off skip : Nat) (data : List Byte) (s : State) : State :=
  let o := objOf s onum
  match initiatorWork o cid with
  | none => s
  | some i =>
    let c := (o.work.getD i {}).data
    let bs := data.drop skip
    let s := setObj onum (fun o => { o with work := o.work.mapIdx fun j w =>
      if j == i then { w with len := max w.len (off + data.length) } else w }) s
    if bs.isEmpty then s else hostWrite o.iid (sglAddr c + off + skip) bs.length (ofBytes bs) false s

/-- A data PDU lies within what its command names. -/
def c2hFits (o : Obj) (cid off n : Nat) : Bool :=
  match initiatorWork o cid with
  | some i => off + n ≤ sglLen (o.work.getD i {}).data
  | none => false

/-- A PDU acts: its type, flags, header and data; `skip`: bytes of its data that have reached the host already. -/
def actPdu (onum type flags skip : Nat) (h data : List Byte) (s : State) : State :=
  let o := objOf s onum
  let psh := h.drop 8
  if o.type == 2 then
    match type with
    | 5 => initiatorDone onum (rd psh 12 2) (rd psh 0 4) (rd psh 14 2 / 2) s
    | 7 =>
      let cid := rd psh 0 2
      let off := rd psh 4 4
      if !c2hFits o cid off data.length || rd psh 8 4 != data.length then termReq onum 4 h s
      else
        let s := placeC2h onum cid off skip data s
        if bits 3 3 flags == 1 then initiatorDone onum cid 0 0 s else s
    | 9 =>
      let cid := rd psh 0 2
      if o.h2c.length ≥ 128 then termReq onum 5 h s
      else if !c2hFits o cid (rd psh 4 4) (rd psh 8 4) || rd psh 8 4 == 0 then termReq onum 4 h s
      else serveH2c onum (setObj onum (fun o => { o with h2c := o.h2c ++ [(cid, rd psh 2 2, rd psh 4 4, rd psh 8 4)] }) s)
    | 3 => errWith onum 8 0 s
    | _ => termReq onum 1 h s
  else
    match type with
    | 4 =>
      if data.length > 8192 then termReq onum 5 h s
      else setObj onum (fun o => { o with capsules := o.capsules ++ [(psh.take 64, data)] }) s
    | 6 =>
      match s.store.cmds.find? fun c => c.2.onum == onum && c.2.phase == 0 && c.1 % 65536 == rd psh 2 2 with
      | some (id, c) =>
        if data.length > 131072 then termReq onum 5 h s
        else if rd psh 4 4 != c.got || rd psh 8 4 != data.length || c.got + data.length > r2tEnd c then termReq onum 4 h s
        else writeData id c.got data s
      | none => termReq onum 4 h s
    | 2 => errWith onum 8 0 s
    | _ => termReq onum 1 h s

/-- Header length of a PDU type. -/
def pduHlen (type : Nat) : Nat := if type == 4 then 72 else 24

/-- Complete PDUs at the head of the stream are taken, at most `fuel` of them. -/
def takePdus (onum : Nat) : Nat → State → State
  | 0, s => s
  | fuel + 1, s =>
    let o := objOf s onum
    let t := o.tcp
    let b := t.pdu
    if o.state < 2 || o.state == 5 || b.length < 8 then s
    else
      let type := rd b 0 1
      let flags := rd b 1 1
      let hlen := rd b 2 1
      let pdo := rd b 3 1
      let plen := rd b 4 4
      let dig := if type == 2 || type == 3 then 0 else Config.digests onum % 4
      let hd := if dig % 2 == 1 then 4 else 0
      let dd := if dig / 2 == 1 && plen > hlen + hd then 4 else 0
      let at_ := if pdo == 0 then hlen + hd else pdo
      let h := b.take hlen
      if hlen != pduHlen type || plen < hlen + hd || plen > 1048576 + 256 || bits 0 0 flags != dig % 2
          || (pdo != 0 && (pdo < hlen + hd || pdo + dd > plen)) then termReq onum 1 (b.take 8) s
      else if b.length < plen then s
      else if hd == 4 && (b.drop hlen).take 4 != digest32 h then termReq onum 3 h s
      else
        let data := (b.drop at_).take (plen - at_ - dd)
        if dd == 4 && (b.drop (plen - 4)).take 4 != digest32 data then termReq onum 3 h s
        else
          let skip := t.wrote - at_
          let s := setTcp onum (fun t => { t with pdu := t.pdu.drop plen, wrote := t.wrote - plen }) s
          takePdus onum fuel (actPdu onum type flags (min skip data.length) h data s)

/-! ## TLS records (R416 to R418, R439 to R441) -/

/-- Blocks of a record's payload that have arrived. -/
def recordBlocks (r : TlsRec) : Nat := (min r.body.length (r.need - 16) + 15) / 16

/-- The operation of the record that a connection is opening, once it has been admitted. -/
def openingOp (s : State) (onum : Nat) : Option CipherOp :=
  match (tcpOf s onum).opening with
  | some r => s.ciph.bound.find? fun o => o.id == r.id
  | none => none

/-- `k` bytes leave the head of the received stream. -/
def dropRx (k : Nat) (t : Tcp) : Tcp := { t with rx := t.rx.drop k, cuts := (t.cuts.filter (· > k)).map (· - k) }

/-- The stream's bytes that belong to the record being opened join it. Its early bytes end with the last segment that holds nothing
of the tag (R416). -/
def joinRecord (r : TlsRec) (t : Tcp) : Tcp :=
  let k := min t.rx.length (r.need - r.body.length)
  let ends := ((t.cuts.filter (· ≤ k)).map (r.body.length + ·)).filter (· ≤ r.need - 16)
  dropRx k { t with opening := some { r with body := r.body ++ t.rx.take k, early := ends.foldl max r.early } }

/-- Where bytes of the plaintext stream go in host memory: the data of the C2HData PDUs in it, as far as they reach. -/
def c2hSpans (o : Obj) (dig wrote : Nat) : Nat → Nat → List Byte → List (Nat × List Byte)
  | 0, _, _ => []
  | fuel + 1, at_, b =>
    let plen := rd b 4 4
    if b.length < 24 || plen < 24 then []
    else
      let hd := if dig % 2 == 1 then 4 else 0
      let start := if rd b 3 1 == 0 then 24 + hd else rd b 3 1
      let data := (b.drop start).take (min (rd b 16 4) (plen - start))
      let skip := wrote - (at_ + start)
      let here := match (if rd b 0 1 == 7 then initiatorWork o (rd b 8 2) else none) with
        | some i =>
          if rd b 12 4 + rd b 16 4 ≤ sglLen (o.work.getD i {}).data && !(data.drop skip).isEmpty then
            [(sglAddr (o.work.getD i {}).data + rd b 12 4 + skip, data.drop skip)]
          else []
        | none => []
      here ++ c2hSpans o dig wrote fuel (at_ + plen) (b.drop plen)

/-- On cut-through, the plaintext of the early bytes that has not reached the host yet does so (R416). -/
def recordEarly (onum : Nat) (s : State) : State :=
  let o := objOf s onum
  match o.tcp.opening, openingOp s onum with
  | some r, some c =>
    if (slotKey s c.key).rxStore || r.early == 0 then s
    else
      let stream := o.tcp.pdu ++ gcmCrypt (opKey s c) (ivXor (opIv s c) (c.icnt - 1)) (r.body.take r.early)
      let ws := if o.type == 2 then c2hSpans o (Config.digests onum % 4) o.tcp.wrote 64 0 stream else []
      let s := ws.foldl (fun s w => hostWrite o.iid w.1 w.2.length (ofBytes w.2) false s) s
      setTcp onum (fun t => { t with
        wrote := if ws.isEmpty then t.wrote else stream.length
        opening := some { r with spans := r.spans ++ ws.map fun w => (w.1, w.2.length) } }) s
  | _, _ => s

/-- What has arrived of the record being opened goes to its core, and on from it (R389, R416). -/
def fillRecord (onum : Nat) (s : State) : State :=
  match (tcpOf s onum).opening with
  | none => s
  | some r =>
    let s := setTcp onum (joinRecord r) s
    let more := match (tcpOf s onum).opening with | some r' => recordBlocks r' - recordBlocks r | none => 0
    recordEarly onum (setOp r.id (fun o => { o with left := o.left + more }) s)

/-- The next record of the stream is opened once its header is in, unless one is being opened or the connection waits for a key
(R389, R440). -/
def openNext (onum : Nat) (s : State) : State :=
  let o := objOf s onum
  let t := o.tcp
  if t.opening.isSome || t.held || o.state < 2 || o.state == 5 || t.rx.length < 5 then s
  else
    let n := be16 t.rx 3
    if rd t.rx 0 1 != 23 || n < 17 || n > 16640 then errWith onum 9 0 s
    else
      let r : TlsRec := { id := s.ciph.nextId, hdr := t.rx.take 5, need := n }
      let s := setTcp onum (fun t => dropRx 5 { t with opening := some r }) s
      fillRecord onum (cipherAsk { req := .record onum r.id, key := keyNumber s o.a.rxKey, open_ := true, len := n - 16, aad := 5 } s)

/-- The entry of a record that failed, and ERR (R441). -/
def recordFailed (onum bytes status : Nat) (s : State) : State :=
  let s := postEntry onum none (entryBits s onum { bytes := bytes, opcode := 4, err := 9, status := status }) s
  errObject onum s

/-- A record that was being opened has its result (R416 to R418, R439 to R441). -/
def recordOpened (onum : Nat) (good : Bool) (plain : List Byte) (s : State) : State :=
  let o := objOf s onum
  match o.tcp.opening with
  | none => s
  | some r =>
    let s := setTcp onum (fun t => { t with opening := none }) s
    if !good then
      let s := r.spans.foldl (fun s w => hostWrite o.iid w.1 w.2 0 false s) s
      let s := countBlock 0xFD02 (16 + onum / 262144) plain.length s
      recordFailed onum ((r.spans.map (·.2)).sum) 0x0603 s
    else
      let body := (plain.reverse.dropWhile (· == 0)).reverse
      match body.getLast? with
      | none => errWith onum 9 0 s
      | some c =>
        let content := body.dropLast
        if content.length > 16384 then errWith onum 9 0 s
        else if c == 23 then openNext onum (takePdus onum 4096 (setTcp onum (fun t => { t with pdu := t.pdu ++ content }) s))
        else if c == 21 || c == 22 then
          let s := setTcp onum (fun t => { t with wrote := min t.wrote t.pdu.length }) s
          let m : Inbound := { opcode := 6, imm := c.toNat, bytes := content, count := content.length }
          openNext onum (setObj onum (fun o => { o with
            inbound := o.inbound ++ [m], tcp := { o.tcp with held := o.tcp.held || c == 22 } }) s)
        else errWith onum 9 0 s

/-- The work item that a sealed record ends. -/
def recordWork (o : Obj) (r : TlsRec) : Option Nat :=
  match r.work with
  | some n => o.work.findIdx? fun w => w.op == 8 && w.formed == 1 && w.psn == n && w.fin.isNone
  | none => none

/-- A record has been sealed: it joins the stream, and the next is begun. -/
def recordSealed (onum : Nat) (bytes : List Byte) (s : State) : State :=
  let o := objOf s onum
  match o.tcp.sealing with
  | none => s
  | some r =>
    let s := setTcp onum (fun t => { t with sealing := none, out := t.out ++ r.hdr ++ bytes }) s
    let s := match recordWork o r with
      | some i => finishWork onum i (workEntry s onum (o.work.getD i {}) 0 0) s
      | none => s
    sealNext onum s

/-- A record was refused by the cipher complex (R413, R441). -/
def recordRefused (onum id : Nat) (s : State) : State :=
  let o := objOf s onum
  let sealed := match o.tcp.sealing with | some r => if r.id == id then recordWork o r else none | none => none
  let mine := (o.tcp.sealing.map (·.id)) == some id || (o.tcp.opening.map (·.id)) == some id
  match sealed with
  | some i => failWork onum i 9 0x0602 s
  | none => if mine then recordFailed onum 0 0x0602 s else s

/-! ## Receiving (R437) -/

/-- In-order stream bytes are taken by records, or by PDUs. -/
def streamIn (onum : Nat) (s : State) : State :=
  if (objOf s onum).a.rxKey == 0xFFFFFFFF then
    takePdus onum 4096 (setTcp onum (fun t => { t with pdu := t.pdu ++ t.rx, rx := [], cuts := [] }) s)
  else notePeak 1 (openNext onum (fillRecord onum s))

/-- Bytes of one segment join the in-order stream; where they end is kept (R416). -/
def pushRx (bs : List Byte) (t : Tcp) : Tcp :=
  if bs.isEmpty then t
  else { t with rx := t.rx ++ bs, cuts := t.cuts ++ [t.rx.length + bs.length], rcvNxt := seqAdd t.rcvNxt bs.length }

/-- Segments held out of order that are now in order join the stream. -/
def absorb : Nat → Tcp → Tcp
  | 0, t => t
  | n + 1, t =>
    match t.ooo.find? fun e => seqGe t.rcvNxt e.1 with
    | none => t
    | some e => absorb n (pushRx (e.2.drop (seqSub t.rcvNxt e.1)) { t with ooo := t.ooo.filter (· != e) })

/-- The bytes of a segment arrive: those in order join the stream, those out of order wait. -/
def takeBytes (seq : Nat) (bs : List Byte) (t : Tcp) : Tcp :=
  if bs.isEmpty then t
  else if seqGe t.rcvNxt seq then absorb 1024 (pushRx (bs.drop (seqSub t.rcvNxt seq)) t)
  else if t.ooo.any fun e => e.1 == seq then t
  else { t with ooo := t.ooo ++ [(seq, bs)] }

/-- A round-trip measurement (RFC 6298), in ticks: RTO stays between 200 µs and 2 s (R437). -/
def rttSample (r : Nat) (t : Tcp) : Tcp :=
  let t := if t.srtt == 0 then { t with srtt := r, rttvar := r / 2 }
    else { t with rttvar := (3 * t.rttvar + (max t.srtt r - min t.srtt r)) / 4, srtt := (7 * t.srtt + r) / 8 }
  { t with rto := max (usT 200) (min (secT 2) (t.srtt + max 1 (4 * t.rttvar))) }

/-- An acknowledgement of new data (RFC 5681, RFC 6298). -/
def ackNew (ack tick mss : Nat) (t : Tcp) : Tcp :=
  let n := seqSub ack t.sndUna
  let t := match t.timed with
    | some (q, at_) => if seqGe ack q then rttSample (tick - at_) { t with timed := none } else t
    | none => t
  let leaving := match t.recover with | some r => seqGe ack r | none => false
  let cwnd := if leaving then t.ssthresh else if t.recover.isSome then t.cwnd - min t.cwnd n + mss
    else if t.cwnd < t.ssthresh then t.cwnd + min n mss else t.cwnd + max 1 (mss * mss / max 1 t.cwnd)
  let left := t.out.length - n
  { t with
    sndUna := ack, sndNxt := if seqGe t.sndNxt ack then t.sndNxt else ack, out := t.out.drop n, dupAcks := 0, cwnd := cwnd
    recover := if leaving then none else t.recover, again := t.recover.isSome && !leaving
    sacked := t.sacked.filter fun e => !seqGe ack e.2
    rtxAt := if left == 0 || ack == t.sndMax then none else some (tick + t.rto) }

/-- A duplicate acknowledgement; the third starts fast retransmit (RFC 5681). -/
def ackDup (mss : Nat) (t : Tcp) : Tcp :=
  let n := t.dupAcks + 1
  if n == 3 && t.recover.isNone then
    let ss := max (seqSub t.sndNxt t.sndUna / 2) (2 * mss)
    { t with dupAcks := n, ssthresh := ss, cwnd := ss + 3 * mss, recover := some t.sndMax, again := true, timed := none }
  else if n > 3 then { t with dupAcks := n, cwnd := t.cwnd + mss }
  else { t with dupAcks := n }

/-- Options of a received segment: time stamp value, and SACK blocks. `fuel` bounds the options. -/
def readOptions : Nat → List Byte → Option Nat × List (Nat × Nat)
  | 0, _ => (none, [])
  | n + 1, bs =>
    match bs with
    | [] => (none, [])
    | k :: rest =>
      if k == 0 then (none, [])
      else if k == 1 then readOptions n rest
      else
        let len := (rest.headD 0).toNat
        let r := readOptions n (bs.drop (max 2 len))
        if k == 8 then (some (ofBytesBE ((bs.drop 2).take 4)), r.2)
        else if k == 5 then
          (r.1, ((List.range ((len - 2) / 8)).map fun i =>
            (ofBytesBE ((bs.drop (2 + 8 * i)).take 4), ofBytesBE ((bs.drop (6 + 8 * i)).take 4))) ++ r.2)
        else r

/-- A segment whose checksum is right arrives (RFC 9293), from its TCP header on; `ce`: it is marked. -/
def segmentIn (onum : Nat) (g : List Byte) (ce : Bool) (s : State) : State :=
  let o := objOf s onum
  let t := o.tcp
  let seq := ofBytesBE ((g.drop 4).take 4)
  let ack := ofBytesBE ((g.drop 8).take 4)
  let hlen := rd g 12 1 / 16 * 4
  let fl := rd g 13 1
  let wnd := be16 g 14 <<< o.peerScale
  let opts := readOptions 40 ((g.drop 20).take (hlen - 20))
  let data := g.drop hlen
  let fin := bits 0 0 fl == 1
  let len := data.length + bit fin
  let inWin := decide (seqSub seq t.rcvNxt < max 1 (Config.rcvWindow - heldRx t)) || (seqGe t.rcvNxt seq && seqGe (seqAdd seq len) t.rcvNxt)
  let old := match opts.1 with | some v => o.tsOn && after 32 t.tsRecent v | none => false
  if hlen < 20 || hlen > g.length then s
  else if !inWin || old then (if bits 2 2 fl == 1 then s else oweAck onum s)
  else if bits 2 2 fl == 1 then (if seq == t.rcvNxt then errWith onum 8 0 s else oweAck onum s)
  else if bits 1 1 fl == 1 || bits 4 4 fl == 0 then oweAck onum s
  else
    let ack1 (t : Tcp) : Tcp :=
      let t := match opts.1 with | some v => if seqGe t.rcvNxt seq then { t with tsRecent := v } else t | none => t
      let t := if o.sackOn then { t with sacked := (t.sacked ++ opts.2).eraseDups } else t
      let fresh := seqGe ack t.sndUna && ack != t.sndUna && seqGe t.sndMax ack
      let t := if fresh then ackNew ack s.tick o.mss t
        else if ack == t.sndUna && data.isEmpty && wnd == t.sndWnd && t.sndMax != t.sndUna then ackDup o.mss t else t
      let t := if bits 6 6 fl == 1 && fresh && (match t.cwrAt with | some c => seqGe ack c | none => true) then
          { t with ssthresh := max (t.cwnd / 2) (2 * o.mss), cwnd := max (t.cwnd / 2) (2 * o.mss), cwrAt := some t.sndMax, cwr := true }
        else t
      let t := { t with sndWnd := wnd, ece := (t.ece && bits 7 7 fl == 0) || ce }
      takeBytes seq data t
    let s := setTcp onum ack1 s
    let s := if len > 0 then oweAck onum s else s
    let s := streamIn onum s
    if fin && seqAdd seq data.length == (tcpOf s onum).rcvNxt && hasObj s onum then
      errWith onum 8 0 (setTcp onum (fun t => { t with rcvNxt := seqAdd t.rcvNxt 1 }) s)
    else s

/-- The retransmission timer expires (RFC 6298, RFC 5681): go back to SND_UNA with one segment. -/
def tcpTimeout (onum : Nat) (s : State) : State :=
  let mss := (objOf s onum).mss
  setTcp onum (fun t =>
    let rto := min (secT 2) (2 * t.rto)
    if t.sndWnd == 0 then { t with again := true, rto := rto, rtxAt := some (s.tick + rto) }
    else { t with
      ssthresh := max (seqSub t.sndNxt t.sndUna / 2) (2 * mss), cwnd := mss, sndNxt := t.sndUna, recover := none, dupAcks := 0
      timed := none, sacked := [], rto := rto, rtxAt := some (s.tick + rto) }) s

end Sys2Proof.Machine
end

