-- ==== Sys2Proof/Machine/XportOps.lean ====
section
/-! DEFINITION. Work posted to objects, what engines offer the scheduler, and host reads that end (R426 to R431). -/
namespace Sys2Proof.Machine

/-- The OPs that a type's SQ permits (R438, R439, R469; log 27). -/
def opPermitted (type op : Nat) : Bool :=
  match type with
  | 0 => 1 ≤ op && op ≤ 7
  | 1 => op == 1 || op == 2
  | 2 => op == 8 || op == 9
  | 3 => op == 8
  | 4 => op == 9
  | 6 => op == 9
  | _ => false

/-- A descriptor may be posted to an object. -/
def sqPermits (s : State) (onum d : Nat) : Bool := opPermitted (objOf s onum).type (bits 3 0 d)

/-- A work item of an object from its descriptor and payload (R469). -/
def workOf (o : Obj) (d : Nat) (payload : List Byte) : Work2 :=
  let op := bits 3 0 d
  let data := if op == 9 then payload.take 64 else payload.take (bits 383 352 d)
  { op := op, wrId := bits 511 448 d, addr := bits 447 384 d
    len := if op == 9 then (if o.type == 4 then sglLen data else 0) else bits 383 352 d
    lkey := bits 351 320 d, raddr := bits 319 256 d, rkey := bits 255 224 d, imm := bits 223 192 d, opA := bits 191 128 d
    opB := bits 127 64 d, solicited := bits 18 18 d == 1, ctype := bits 31 24 d, data := data, cid := if op == 9 then rd data 2 2 else 0 }

/-- A work item joins an object's queue and its descriptor is consumed; in ERR it is flushed (R431). -/
def postWork (onum fn slot d : Nat) (payload : List Byte) (s : State) : State :=
  let o := objOf s onum
  let w := workOf o d payload
  let w := if o.state == 5 then { w with fin := some (workEntry s onum w 7 0) } else w
  let s := setSlot fn slot (fun q => { q with txCi := q.txCi + 1 }) s
  settleWork onum (setObj onum (fun o => { o with work := o.work ++ [w] }) s)

/-! ## What an engine offers (R428) -/

/-- A data packet of an object waits in its leaf. -/
def dataWaits (s : State) (onum : Nat) : Bool :=
  (leafQueue s (kLeaf (objOf s onum).sq)).any fun p => (pkt s p).origin == some onum && !(pkt s p).reply

/-- Depth of an object's rate bucket (log 24), in units of 2^-16 byte. -/
def tokenDepth : Int := 65535 * 65536

/-- The rate tokens of an object after the refills since they were last looked at (R87, R88, R430, log 24). -/
def tokensNow (s : State) (o : Obj) : Int :=
  min tokenDepth (o.tokens + ((s.tick / 64 - o.tokAt / 64 : Nat) : Int) * (credit o.a.rate : Nat))

/-- Replies are formed first, while there is room. -/
def formReplies (onum : Nat) : List (List Byte) → State → State
  | [], s => s
  | r :: rest, s =>
    let s' := setObj onum (fun o => { o with replies := rest }) s
    if r.isEmpty then
      let b := tcpSegment s' onum (objOf s' onum).tcp.sndNxt 0 []
      if prefetchRoom s (portOf (objOf s onum).iid) (cellsOf b.length) then
        formReplies onum rest (useDraw (formPacket onum true b s'))
      else s
    else if prefetchRoom s (portOf (objOf s onum).iid) (cellsOf r.length) then formReplies onum rest (formPacket onum true r s')
    else s

/-- One data packet is formed where the object may send one. -/
def formData (onum : Nat) (s : State) : State :=
  let o := objOf s onum
  let t := tokensNow s o
  if dataWaits s onum || !prefetchRoom s (portOf o.iid) 37 || (o.a.rate != 0 && t < 0) then s
  else
    let p := s.nextPkt
    let s := if isTcp o.type then formTcp onum (sealNext onum (startTcpWork onum s)) else formRoce onum s
    let n := if s.nextPkt == p then 0 else (pkt s p).bytes.length
    setObj onum (fun o => { o with tokens := if o.a.rate == 0 then t else t - (n * 65536 : Nat), tokAt := s.tick }) s

/-- An object's replies and its next data packet are offered to its SQ leaf. -/
def pumpObj (onum : Nat) (s : State) : State :=
  let o := objOf s onum
  if !s.xport.cached.contains onum || !leafValid s o.sq || !(isRoce o.type || isTcp o.type) then s
  else formData onum (formReplies onum o.replies s)

/-- The objects whose SQ leaf is on a pipeline. -/
def objectsOn (s : State) (k : Nat) : List Nat :=
  (s.xport.objs.filter fun o => (isRoce o.2.type || isTcp o.2.type) && leafPipe (activeSet s) (kLeaf o.2.sq) == k).map (·.1)

/-! ## Host reads of an object (R480) -/

/-- A read of host memory for an object has ended with data. -/
def objectReadDone (onum : Nat) (data : List Byte) (s : State) : State :=
  if !hasObj s onum then s
  else if isRoce (objOf s onum).type then readAnswered onum data s
  else h2cRead onum data s

/-- A read of host memory for an object has failed. -/
def objectReadFailed (onum : Nat) (s : State) : State :=
  if !hasObj s onum then s
  else if isRoce (objOf s onum).type then roceReadFailed onum s
  else errWith onum 2 0 s

/-- Write data of a local submission queue have been read, or not (R447). -/
def storeReadDone (id : Nat) (data : Option (List Byte)) (s : State) : State :=
  match data with
  | some bs => writeData id 0 bs s
  | none => errObject (driveCmd s id).onum (finishCmd id (nvStatus 0 4 0) 0 s)

end Sys2Proof.Machine
end

