-- ==== Sys2Proof/Machine/CipherRows.lean ====
section
/-! DEFINITION. Keys and the cipher complex (R98 to R101, R387 to R423, R442 to R445). -/
namespace Sys2Proof.Machine

/-! ## The key cache (R407) -/

/-- A key enters the cache of 8,192; where it is full a drawn entry leaves (log 5). -/
def cacheKey (i : Nat) (s : State) : State :=
  let c := s.keys.cache
  if c.contains i then s
  else if c.length < 8192 then { s with keys := { s.keys with cache := c ++ [i] } }
  else
    let out := c.getD (drawn 32 s % c.length) 0
    useDraw { s with keys := { s.keys with cache := (c.filter (· != out)) ++ [i] } }

/-- KEY_RELOAD (R407, R408): the record of a live key that is not cached has been read. -/
def execKeyReload (idx : Nat) (bad : Bool) (s : State) : Host.Outcome State Fault Refusal :=
  if (keySlot s idx).key.isNone || s.keys.cache.contains idx then .next s
  else if bad then .next (setKey idx (fun k => { k with fault := true }) s)
  else .next (cacheKey idx s)

/-! ## Key commands (R399, R402 to R410) -/

/-- The key that KEY_DERIVE asks for (R402). -/
def deriveKey (c : CmdPkt) : Key :=
  let a := c.p 0 1
  { root := bits 3 2 a, domain := c.p 15 1, xts := bits 0 0 a == 1, aes256 := bits 1 1 a == 1, rxStore := bits 4 4 a == 1
    label := bytesOf (c.p 1 1) (c.p 16 32), limitI := c.p 2 6, limitB := c.p 8 7 }

/-- Two keys of the same derivation parameters (R404). -/
def Key.same (a b : Key) : Bool :=
  a.root == b.root && a.domain == b.domain && a.xts == b.xts && a.aes256 == b.aes256 && a.label == b.label

/-- The lowest key index that is free and not held. -/
def freeKeyIndex (s : State) : Option Nat :=
  (List.range (s.keys.slots.length + 1)).find? fun i => i < 2 ^ 20 && (keySlot s i).key.isNone && (keySlot s i).held.isNone

/-- K1 equals K2 (R404). -/
def halvesEqual (out : List Byte) : Bool := out.take (out.length / 2) == out.drop (out.length / 2)

def keyDeriveCheck (c : CmdPkt) (s : State) : Refuse :=
  let k := deriveKey c
  let n := c.p 1 1
  if bits 7 5 (c.p 0 1) != 0 || n < 1 || n > 32 || k.limitI == 0 || k.limitB == 0 || (k.rxStore && k.xts)
      || (k.domain > 7 && k.domain != 0xFF) || c.p 16 32 / 256 ^ n != 0 then some (stBadParam, 0)
  else
    match keysWhere s fun x => x.same k with
    | i :: _ => some (stBadState, fld 63 32 (handleOf s i))
    | [] =>
      if (freeKeyIndex s).isNone then some (stNoResource, 0)
      else if k.xts && halvesEqual (keyOut s k) then some (stBadParam, 0)
      else none

/-- KEY_DERIVE (R402 to R404): the handle, and the key check value. -/
def execKeyDerive (c : CmdPkt) (s : State) : Host.Outcome State Fault Refusal :=
  .next (runCmd 0x0601 .P false
    (fun c s => (c.fn == 0 || c.p 15 1 == portOf c.fn) && s.sec.roots.has (bits 3 2 (c.p 0 1))) keyDeriveCheck quiet
    (fun c s =>
      let k := deriveKey c
      let i := (freeKeyIndex s).getD 0
      let kcv := kmac (k.keyOf (keyOut s k)) [] 32 "SX7100-KCV"
      let s := cacheKey i (setKeySlot i (fun e => { e with key := some k }) s)
      done s (fld 95 64 (ofBytes (kcv.take 4)) + fld 63 32 (handleOf s i))) c s)

/-- The live key that PARAM bytes 0 to 3 name. -/
def cmdKey (c : CmdPkt) (s : State) : Option Nat := liveHandle s (c.p 0 4)

/-- KEY_DESTROY (R409). -/
def execKeyDestroy (c : CmdPkt) (s : State) : Host.Outcome State Fault Refusal :=
  .next (runCmd 0x0602 .P false always (fun c s =>
    firstOf [(c.p 4 44 != 0, stBadParam), ((cmdKey c s).isNone, stNotFound),
      (s.ciph.bound.any fun o => some o.key == cmdKey c s, stBusy)]) quiet
    (fun c s => done (match cmdKey c s with | some i => destroyKey i s | none => s) 0) c s)

/-- What KEY_QUERY returns of a key (R410). -/
def keySummary (k : Key) : Nat :=
  fld 127 72 k.bcnt + fld 71 24 k.icnt + fld 18 18 (bit k.fault) + fld 17 17 (bit k.exhausted) + fld 16 16 (bit k.near)

/-- KEY_QUERY (R408, R410). -/
def execKeyQuery (c : CmdPkt) (s : State) : Host.Outcome State Fault Refusal :=
  .next (runCmd 0x0603 .P false always (fun c s =>
    firstOf [(c.p 4 44 != 0, stBadParam), ((cmdKey c s).isNone, stNotFound),
      ((slotKey s ((cmdKey c s).getD 0)).fault, stHwFault)]) quiet
    (fun c s => done s (keySummary (slotKey s ((cmdKey c s).getD 0)))) c s)

/-- CIPH_DUMMY_RATE (R399, R613): below 1/256 in PROVISION, TEST and RETURN, or with the LOWRATE fuse. -/
def execCiphDummyRate (c : CmdPkt) (s : State) : Host.Outcome State Fault Refusal :=
  .next (runCmd 0x0604 .A true (fun c s => c.p 0 2 ≥ 0x0100 || s.sec.lc != 2 || s.sec.lowrate)
    (fun c _ => firstOf [(c.p 0 2 > 0x2000 || c.p 2 46 != 0, stBadParam)]) quiet
    (fun c s => done { s with ciph := { s.ciph with rate := c.p 0 2 } } (fld 47 32 s.ciph.rate)) c s)

/-! ## ESP (R442 to R445) -/

/-- An ESP packet's frame: what precedes the ESP header, the header to the frame end, and the bytes past it. -/
def espParts (x : Pkt) : List Byte × List Byte × List Byte :=
  match x.esp with
  | some (e, _, _, pad) =>
    let l := x.bytes.length - pad
    (x.bytes.take (l - e), (x.bytes.take l).drop (l - e), x.bytes.drop l)
  | none => (x.bytes, [], [])

/-- The ESN of a received packet, from its low 32 bits and the highest authenticated (RFC 4303, Appendix A2). -/
def esnOf (top lo : Nat) : Nat :=
  let tl := top % 2 ^ 32
  let th := top / 2 ^ 32
  let hi := if tl ≥ 1023 then (if lo ≥ tl - 1023 then th else th + 1)
    else if lo ≥ (tl + 2 ^ 32 - 1023) % 2 ^ 32 then th - 1 else th
  hi * 2 ^ 32 + lo

/-- A duplicate, or left of the window of 1,024 (R442, R444). -/
def replayed (k : Key) (esn : Nat) : Bool := k.marks.contains esn || esn + 1024 ≤ k.top

/-- A packet whose tag has verified marks the window and may raise T. -/
def markEsn (esn : Nat) (k : Key) : Key :=
  let top := max k.top esn
  { k with top := top, marks := (esn :: k.marks).filter fun e => e + 1024 > top }

/-- The ESN of an opened packet under its key. -/
def packetEsn (s : State) (x : Pkt) (i : Nat) : Nat :=
  esnOf (slotKey s i).top (ofBytesBE (((espParts x).2.1.drop 4).take 4))

/-- The additional data: SPI, ESN high and ESN low. -/
def espAad (spi : List Byte) (esn : Nat) : List Byte := spi ++ bytesBE 8 esn

/-- The packet with another length after its SFH: PLEN follows. -/
def refit (old new : List Byte) : List Byte :=
  if hasSfh new then withSfh new (setFld 59 46 (bits 59 46 (sfh new) + new.length - old.length) (sfh new)) else new

/-- A sealed packet (R443). -/
def espSealed (x : Pkt) (key base : List Byte) (esn : Nat) : List Byte :=
  let (head, body, tail) := espParts x
  let (n, c) := match x.esp with | some (_, n, c, _) => (n, c) | none => (0, 0)
  let k := espPad n
  let pt := body.drop 16 ++ ((List.range k).map fun i => BitVec.ofNat 8 (i + 1)) ++ [BitVec.ofNat 8 k, BitVec.ofNat 8 ((espNext c).getD 0)]
  let aad := espAad (body.take 4) esn
  let ct := gcmCrypt key (ivConcat base esn) pt
  refit x.bytes (head ++ body.take 4 ++ bytesBE 4 (esn % 2 ^ 32) ++ bytesBE 8 esn ++ ct ++ gcmTag key (ivConcat base esn) aad ct ++ tail)

/-- The plaintext and trailer of an opened packet, and whether its tag is right. -/
def espOpened (x : Pkt) (key base : List Byte) (esn : Nat) : List Byte × Bool :=
  let body := (espParts x).2.1
  let iv := base.take 4 ++ (body.drop 8).take 8
  let ct := (body.drop 16).take (body.length - 32)
  let aad := espAad (body.take 4) esn
  (gcmCrypt key iv ct, gcmTag key iv aad ct == body.drop (body.length - 16))

/-- The padding bytes are 1, 2 and so on (R444). -/
def paddingOk (pt : List Byte) : Bool :=
  let k := (pt.getD (pt.length - 2) 0).toNat
  k + 2 ≤ pt.length && ((List.range k).all fun i => (pt.getD (pt.length - 2 - k + i) 0).toNat == i + 1)

/-! ## Results -/

/-- The record that an operation seals or opens. -/
def opRecord (s : State) (o : CipherOp) : Option TlsRec :=
  match o.req with
  | .record n id =>
    match o.orphan with
    | some (_, _, r) => some r
    | none => (if o.open_ then (objOf s n).tcp.opening else (objOf s n).tcp.sealing).filter fun r => r.id == id
  | _ => none

/-- The plaintext of a record being opened, and whether its tag is right (R395, R396, R439). -/
def recordPlain (s : State) (o : CipherOp) (r : TlsRec) : List Byte × Bool :=
  let iv := ivXor (opIv s o) (o.icnt - 1)
  let n := r.body.length - 16
  let ct := r.body.take n
  (gcmCrypt (opKey s o) iv ct, gcmTag (opKey s o) iv r.hdr ct == r.body.drop n)

/-- The tag of an opened operation is right (R396). -/
def tagGood (s : State) (o : CipherOp) : Bool :=
  match o.req with
  | .packet p => (espOpened (pkt s p) (opKey s o) (opIv s o) (packetEsn s (pkt s p) o.key)).2
  | .record _ _ => match opRecord s o with | some r => (recordPlain s o r).2 | none => false
  | .unit _ _ => true

/-! ## Dispatch (R389, R390, R413) -/

/-- Operations bound to a core, and the blocks that wait to enter it. -/
def coreOps (s : State) (c : Nat) : List CipherOp := s.ciph.bound.filter fun o => o.core == some c
def coreBlocks (s : State) (c : Nat) : Nat := ((coreOps s c).map fun o => o.left).sum

/-- The core that takes the next operation: usable, with a free context, the fewest blocks, the lowest number. -/
def pickCore (s : State) : Option Nat :=
  ((List.range 80).filter fun c => coreUsable s c && (coreOps s c).length < 64).foldl (fun b c =>
    match b with
    | none => some c
    | some d => if coreBlocks s c < coreBlocks s d then some c else b) none

/-- The key of an operation is live and is not in the cache: the operation waits (R407). -/
def keyWaits (s : State) (o : CipherOp) : Bool :=
  match (keySlot s o.key).key with
  | some k => k.xts == o.xts && !k.fault && !s.keys.cache.contains o.key
  | none => false

/-- The oldest operation that no operation of its key waits before. -/
def nextOp (s : State) : List CipherOp → List Nat → Option CipherOp
  | [], _ => none
  | o :: rest, waiting =>
    if keyWaits s o || waiting.contains o.key then nextOp s rest (o.key :: waiting) else some o

/-- Why an operation is not admitted (R99, R413). -/
def refusal (s : State) (o : CipherOp) : Option Nat :=
  match (keySlot s o.key).key with
  | none => some 2
  | some k =>
    if o.key ≥ 2 ^ 20 || k.xts != o.xts then some 2
    else if k.fault then some 3
    else if k.icnt + 1 > k.limitI then some 0
    else if k.bcnt + o.blocks > k.limitB then some 1
    else none

/-- The key index that a refusal is reported under. -/
def refusedIndex (o : CipherOp) : Nat := if o.key ≥ 2 ^ 32 then (o.key - 2 ^ 32) % 2 ^ 20 else o.key

/-- A refusal is counted, and KEY_EXHAUSTED posted at most once in 1 ms (R413, R414). -/
def noteRefusal (o : CipherOp) (cause : Nat) (s : State) : State :=
  let i := refusedIndex o
  let s := countBlock 0xFD03 cause (16 * o.blocks) s
  let s := if cause < 2 then setKey i (fun k => { k with exhausted := true }) s else s
  let s := setKeySlot i (fun e => { e with refused := satAdd 15 e.refused 1 }) s
  let e := keySlot s i
  if s.tick < e.nextPost then s
  else
    let n := if cause == 0 then (slotKey s i).icnt else if cause == 1 then (slotKey s i).bcnt else 0
    postAll 0x0602 16 (fld 255 224 (handleOf s i) + fld 223 220 cause + fld 219 164 n + fld 163 143 o.blocks + fld 142 128 e.refused)
      (setKeySlot i (fun e => { e with refused := 0, nextPost := s.tick + msT 1 }) s)

/-- What a refusal does to its requester (R413). -/
def refuseOp (o : CipherOp) (cause : Nat) (s : State) : State :=
  let s := noteRefusal o cause s
  match o.req with
  | .packet p => dropPkt p s
  | .record n id => recordRefused n id s
  | .unit c b => unitDone c b false [] s

/-- An operation is admitted: it counts, and KEY_NEAR_LIMIT is raised once (R99, R100). -/
def admitOp (o : CipherOp) (s : State) : State :=
  let k := slotKey s o.key
  let i := k.icnt + 1
  let b := k.bcnt + o.blocks
  let nearI := i ≥ k.limitI - k.limitI / 16
  let nearB := b ≥ k.limitB - k.limitB / 16
  let s := setKey o.key (fun k => { k with icnt := i, bcnt := b, near := k.near || nearI || nearB }) s
  if !k.near && (nearI || nearB) then
    postAll 0x0601 16 (fld 255 224 (handleOf s o.key) + fld 223 220 (if nearI then 0 else 1) + fld 219 164 (if nearI then i else b)) s
  else s

/-- An operation leaves the queue of those that wait. -/
def unqueueOp (o : CipherOp) (s : State) : State :=
  holdBackOf o { s with ciph := { s.ciph with queue := s.ciph.queue.filter fun q => q.id != o.id } }

/-- What the start of an operation does beyond the complex: the packet's place, and cut-through of a record (R416). -/
def opBegins (o : CipherOp) (s : State) : State :=
  match o.req with
  | .packet p => setPkt p (fun x => { x with place := .cipher }) s
  | .record n _ => if o.open_ then recordEarly n s else s
  | .unit _ _ => s

/-- The blocks that an operation brings its core when it is bound: of a record, those that have arrived. -/
def arrivedBlocks (s : State) (o : CipherOp) : Nat :=
  match (if o.open_ then opRecord s o else none) with
  | some r => recordBlocks r + (o.aad + 15) / 16
  | none => o.blocks

/-- An operation that left its core (R583) is bound to another where one is free; it is not admitted again. -/
def rebind (s : State) : State :=
  match s.ciph.bound.find? fun o => o.core.isNone, pickCore s with
  | some o, some c => { s with ciph := { s.ciph with
      bound := s.ciph.bound.map fun q => if q.id == o.id then { q with core := some c } else q } }
  | _, _ => s

/-- CIPHER_DISPATCH (R389, R390, R101): an operation that left its core, else the oldest that can be dispatched. -/
def execCipherDispatch (s : State) : Host.Outcome State Fault Refusal :=
  if s.ciph.bound.any fun o => o.core.isNone then .next (rebind s)
  else
  match nextOp s s.ciph.queue [], pickCore s with
  | some o, some c =>
    let replay := match o.req with
      | .packet p => o.open_ && (refusal s o).isNone && replayed (slotKey s o.key) (packetEsn s (pkt s p) o.key)
      | _ => false
    if replay then
      match o.req with
      | .packet p => .next (dropPkt p (countBlock 0xFC02 (pkt s p).pipe (pktLen (pkt s p)) (unqueueOp o s)))
      | _ => .next s
    else
      match refusal s o with
      | some cause => .next (refuseOp o cause (unqueueOp o s))
      | none =>
        let s := admitOp o s
        let o' := { o with mat := keyOut s (slotKey s o.key), icnt := (slotKey s o.key).icnt, core := some c, left := arrivedBlocks s o }
        let q := s.ciph.queue.filter fun q => q.id != o.id
        .next (opBegins o' { s with ciph := { s.ciph with queue := q, bound := s.ciph.bound ++ [o'] } })
  | _, _ => .next s

/-! ## Results (R391, R396, R416 to R418) -/

/-- TAG_RESULT: the tag of an opened operation is known, its last block having left the core. -/
def execTagResult (id : Nat) (s : State) : Host.Outcome State Fault Refusal :=
  .next (setOp id (fun o =>
    if o.open_ && !o.xts && !o.known && o.whole (opRecord s o) then { o with known := true, good := tagGood s o, left := 0 } else o) s)

/-- An ESP packet's result (R443 to R445). -/
def releasePacket (p : Nat) (o : CipherOp) (s : State) : State :=
  let x := pkt s p
  if !o.open_ then
    settle p (setPkt p (fun x => { x with ciphered := true, bytes := espSealed x (opKey s o) (opIv s o) o.icnt }) s)
  else
    let esn := packetEsn s x o.key
    let pt := (espOpened x (opKey s o) (opIv s o) esn).1
    if !o.good then dropPkt p (countBlock 0xFD02 x.pipe o.len s)
    else if replayed (slotKey s o.key) esn then dropPkt p (countBlock 0xFC02 x.pipe (pktLen x) s)
    else
      let s := setKey o.key (markEsn esn) s
      if !paddingOk pt then dropPkt p (countBlock 0xFC03 x.pipe (pktLen x) s)
      else
        let (head, body, tail) := espParts x
        let bs := refit x.bytes (head ++ body.take 8 ++ pt ++ tail)
        settle p (setPkt p (fun x => { x with ciphered := true, bytes := bs }) s)

/-- The result of a record whose connection has ended: its plaintext is discarded; where its tag fails, what was written of it is
zeroed (R417), or discarded and counted where its function lost bus mastering or was reset (R420, R482). -/
def releaseOrphan (n fn : Nat) (silent : Bool) (r : TlsRec) (good : Bool) (s : State) : State :=
  if good then s
  else
    let s := countBlock 0xFD02 (16 + n / 262144) (r.need - 16) s
    if silent then r.spans.foldl (fun s w => setPort (portOf fn) (fun p => { p with bmeDrop := p.bmeDrop.count w.2 }) s) s
    else
      let s := r.spans.foldl (fun s w => hostWrite fn w.1 w.2 0 false s) s
      if (objOf s n).state == 5 then recordFailed n ((r.spans.map (·.2)).sum) 0x0603 s else s

/-- A TLS record's result. -/
def releaseRecord (n : Nat) (o : CipherOp) (s : State) : State :=
  match o.orphan, opRecord s o with
  | some (fn, silent, r), _ => releaseOrphan n fn silent r o.good s
  | none, none => s
  | none, some r =>
    if o.open_ then recordOpened n o.good (recordPlain s o r).1 s
    else
      let iv := ivXor (opIv s o) (o.icnt - 1)
      let ct := gcmCrypt (opKey s o) iv r.body
      recordSealed n (ct ++ gcmTag (opKey s o) iv r.hdr ct) s

/-- A data unit's result (R394, R448): the data unit number is the namespace LBA. -/
def releaseUnit (c b : Nat) (o : CipherOp) (s : State) : State :=
  let d := driveCmd s c
  unitDone c b true (xts (!o.open_) (opKey s o) (d.lba + b) ((d.data.drop (b * o.len)).take o.len)) s

/-- CIPHER_RESULT_RELEASE: the result of the oldest operation of its key and direction, once its tag is known. -/
def execCipherResultRelease (id : Nat) (s : State) : Host.Outcome State Fault Refusal :=
  match s.ciph.bound.find? fun o => o.id == id with
  | none => .next s
  | some o =>
    let first := (s.ciph.bound.find? fun q => q.key == o.key && q.open_ == o.open_).map (·.id)
    if first != some id || o.core.isNone || (o.open_ && !o.xts && !o.known) then .next s
    else
      let s := { s with ciph := { s.ciph with bound := s.ciph.bound.filter fun q => q.id != id } }
      let s := holdBackOf o (countBlock 0xFD00 (o.core.getD 0) (16 * o.blocks) s)
      match o.req with
      | .packet p => .next (releasePacket p o s)
      | .record n _ => .next (releaseRecord n o s)
      | .unit c b => .next (releaseUnit c b o s)

end Sys2Proof.Machine
end

