-- ==== Sys2Proof/Machine/FiRows.lean ====
section
/-! DEFINITION. The rows of lane fault injection (R602 to R605). -/
namespace Sys2Proof.Machine

/-- FI_SET is permitted in the life-cycle state (R602, R613). -/
def fiPermit (_ : CmdPkt) (s : State) : Bool := s.sec.lc == 1 || s.sec.lc == 3 || (s.sec.lc == 2 && s.sec.fiField)

def execFiSet (c : CmdPkt) (s : State) : Host.Outcome State Fault Refusal :=
  .next (runCmd 0x0A01 .A false fiPermit
    (fun c s =>
      let start := c.p 12 16
      firstOf [(c.p 0 2 ≥ 1024 || c.p 2 1 > 1 || c.p 3 1 != 0 || c.p 10 2 < 100 || bits 79 62 start != 0
          || bits 61 32 start ≥ 1000000000 || c.p 28 4 == 0 || c.p 28 4 > 3600000000 || c.p 32 16 != 0, stBadParam),
        (c.p 8 2 != 0 && (!setActive s || ownerFeature (activeSet s) 2 (c.p 0 2) != 4), stConflict)]) quiet
    (fun c s =>
      let n := c.p 0 2
      let t := DevTime.ofFull (c.p 12 16)
      let s := setFi n (fun f => { f with
        armed := true, open_ := false, rx := c.p 2 1 == 1, drop := c.p 4 2, corrupt := c.p 6 2, reorder := c.p 8 2
        delay := c.p 10 2, start := t, duration := c.p 28 4 }) (fiRelease n s)
      done (postAll 0x0A01 (n / 64) (fld 255 246 n + fld 245 245 (c.p 2 1) + fld 191 128 t.stamp) s) 0) c s)

def execFiClear (c : CmdPkt) (s : State) : Host.Outcome State Fault Refusal :=
  .next (runCmd 0x0A02 .A false always (fun c _ => firstOf [(c.p 0 2 ≥ 1024, stBadParam)]) quiet
    (fun c s => done (fiEnd (c.p 0 2) s) 0) c s)

/-- The window's end has come. -/
def fiOver (s : State) (n : Nat) : Bool :=
  decide ((nsU (1000 * (fiOf s n).duration) : Int) ≤ DevTime.diff s.time.now (fiOf s n).start)

def execFiWindowOpen (lane : Fin 1024) (s : State) : Host.Outcome State Fault Refusal :=
  let f := fiOf s lane.val
  if f.armed && !f.open_ && DevTime.reached s.time.now f.start && !fiOver s lane.val then
    .next (setFi lane.val (fun f => { f with open_ := true }) s)
  else .next s

def execFiWindowEnd (lane : Fin 1024) (s : State) : Host.Outcome State Fault Refusal :=
  if (fiOf s lane.val).armed && fiOver s lane.val then .next (fiEnd lane.val s) else .next s

def execFiHoldRelease (lane : Fin 1024) (s : State) : Host.Outcome State Fault Refusal :=
  match (fiOf s lane.val).held with
  | some (_, _, _, t) => if t ≤ s.tick then .next (fiRelease lane.val s) else .next s
  | none => .next s

end Sys2Proof.Machine
end

