-- ==== Sys2Proof/Machine/HostQueues.lean ====
section
/-! DEFINITION. Descriptors, receive buffers, completion entries. -/
namespace Sys2Proof.Machine

/-! ## Transmit descriptors (R333, R469, R470) -/

/-- A descriptor's fields (R469). -/
def dOp (d : Nat) : Nat := bits 3 0 d
def dBad (d : Nat) : Bool := bits 63 32 d != 0 || bits 23 19 d != 0 || bits 15 4 d != 0 || dOp d ≥ 10

/-- A transmit descriptor is taken off the fetch, and the next one fetched. -/
def takeFetch (fn slot : Nat) (s : State) : State :=
  setSlot fn slot (fun q => { q with txReady := false, txFetched := q.txFetched + 1 }) s

/-- A PACKET descriptor that R470 refuses: consumed, completed with LOCAL_LENGTH, counted. It is consumed in its turn, when every
descriptor before it has been (R473, R475, log 99). -/
def refuseLength (fn slot d : Nat) (s : State) : State :=
  let idx := ((fnOf s fn).slots.get slot).txFetched
  let s := setPort (portOf fn) (fun p => { p with txLen := p.txLen.count (bits 383 352 d) }) (takeFetch fn slot s)
  let s := setSlot fn slot (fun q => { q with txCi := q.txCi + 1, txOrder := q.txOrder ++ [(idx, none)] }) s
  let b := fld 255 192 (bits 511 448 d) + fld 191 128 s.time.now.stamp + fld 127 96 (bits 383 352 d) + fld 24 21 1
  endTx fn slot idx { tx := true, bits := b } s

/-- A PACKET is prefetched (R333): its cells are charged to the port's transmit account. -/
def prefetchPacket (fn slot d : Nat) (payload : List Byte) (s : State) : State :=
  let q := queueOf s fn slot
  let idx := ((fnOf s fn).slots.get slot).txFetched
  let x : Pkt := { src := 1, srcId := q, bytes := payload, raw := payload,
                   charge := { use := some 1, cells := cellsOf payload.length, acct := some (portOf fn) }
                   tx := some { fn := fn, slot := slot, idx := idx, wrId := bits 511 448 d, len := payload.length,
                                launch := if bits 17 17 d == 1 then some (DevTime.ofStamp s.time.now (bits 319 256 d)) else none,
                                tsReq := bits 16 16 d == 1 } }
  joinLeaf (kLeaf q) x (takeFetch fn slot s)

/-- DESCRIPTOR_FETCH_COMPLETE: a transmit descriptor and its payload have arrived. A leaf that the active set does not list is not
served for it (R339). A ring that has been disabled still ends the descriptor in progress (R468). -/
def execDescriptorFetchComplete (fn slot : Nat) (desc : BitVec 512) (payload : List Byte) (s : State) :
    Host.Outcome State Fault Refusal :=
  let q := (fnOf s fn).slots.get slot
  let d := desc.toNat
  let sq := objectOfSq s (queueOf s fn slot)
  if !q.txReady || q.stopped || !leafValid s (queueOf s fn slot) then .next s
  else if dBad d || (sq.isSome && dOp d == 0) || (sq.isNone && dOp d != 0)
      || (dOp d != 0 && (bits 17 17 d == 1 || bits 16 16 d == 1)) then .next (stopQueue fn slot 3 s)
  else
    match sq with
    | some onum =>
      if sqPermits s onum d then .next (kickTx fn slot (postWork onum fn slot d payload (takeFetch fn slot s)))
      else .next (stopQueue fn slot 3 s)
    | none =>
      let len := bits 383 352 d
      if len < 14 || len > 9216 then
        .next (if q.txFetched == q.txCi then kickTx fn slot (refuseLength fn slot d s) else s)
      else if !prefetchRoom s (portOf fn) (cellsOf len) then .next s
      else .next (kickTx fn slot (prefetchPacket fn slot d (payload.take len) s))

/-! ## Receive buffers (R471, R477) -/

/-- A receive entry without its PHASE (R453, R472). -/
def recvEntry (x : Pkt) (tag bytes err : Nat) : Nat :=
  fld 255 192 tag + fld 191 128 x.stamp.stamp + fld 127 96 bytes + fld 95 64 (if x.src == 0 then x.srcId % 1024 + 1024 else 0)
    + fld 43 40 4 + fld 24 21 err

/-- A buffer of a receive queue has been taken. -/
def takeBuffer (fn slot : Nat) (s : State) : State :=
  setSlot fn slot (fun q => { q with rxReady := false, rxTaken := q.rxTaken + 1 }) s

/-- The object with inbound data for a receive queue. -/
def inboundFor (s : State) (q : Nat) : Option Nat :=
  (s.xport.objs.find? fun o => o.2.rq == q && o.2.type != 3 && o.2.type != 5 && o.2.type != 7 && !o.2.inbound.isEmpty).map (·.1)

/-- Inbound data of an object take a buffer (R429, R453): a buffer too short ends the object. -/
def writeInbound (fn slot onum b : Nat) (s : State) : State :=
  match (objOf s onum).inbound with
  | [] => s
  | m :: rest =>
    let short := !m.noData && m.count > bits 63 32 b
    let s := setObj onum (fun o => { o with inbound := rest }) (takeBuffer fn slot s)
    let s := if short || m.noData || m.bytes.isEmpty then s
      else hostWrite fn (bits 127 64 b) m.count (ofBytes m.bytes) (relaxed s fn slot) s
    let e := entryBits s onum { wrId := bits 31 0 b, bytes := m.count, imm := m.imm, opcode := m.opcode, err := if short then 1 else 0
                                immValid := m.immValid, solicited := m.solicited }
    let s := postEntry onum (some slot) e s
    if short && (objOf s onum).type != 1 then errObject onum s else s

/-- RX_PACKET_WRITE: the head packet of a receive queue takes the buffer whose descriptor has been fetched, the last one of a ring that
has been disabled meanwhile (R468). -/
def execRxPacketWrite (fn slot : Nat) (buf : BitVec 128) (s : State) : Host.Outcome State Fault Refusal :=
  let q := (fnOf s fn).slots.get slot
  let b := buf.toNat
  let len := bits 63 32 b
  let aq := queueOf s fn slot
  if !q.rxReady || q.stopped || !(fnOf s fn).bme then .next s
  else if len < 64 || len > 16384 then .next (stopQueue fn slot 3 s)
  else
    match s.deliveries.get aq with
    | [] =>
      match inboundFor s aq with
      | some onum => .next (kickRx fn slot (writeInbound fn slot onum b s))
      | none => .next s
    | p :: rest =>
      let x := pkt s p
      let n := x.bytes.length
      let s := takeBuffer fn slot { s with deliveries := s.deliveries.put aq rest }
      let short := n > len
      let e : CplEntry := { bits := recvEntry x (bits 31 0 b) n (if short then 1 else 0), rx := some slot, held := if short then none else some p }
      let s := if short then removePkt p s
        else holdCells p (hostWrite fn (bits 127 64 b) n (ofBytes x.bytes) (relaxed s fn slot) s)
      .next (kickRx fn slot (setSlot fn slot (fun q => { q with waiting := q.waiting ++ [e] }) s))

/-! ## Completion entries (R473, R487) -/

/-- Room in a completion ring. -/
def cqRoom (q : QSlot) : Bool := (q.cqPi - q.cqCi).toNat < 2 ^ q.log2Cq.toNat

/-- An entry is written, bytes 16 to 31 first (R453), its PHASE by the lap (R468). -/
def writeEntry (fn slot : Nat) (e : CplEntry) (s : State) : State :=
  let q := (fnOf s fn).slots.get slot
  let size := 2 ^ q.log2Cq.toNat
  let addr := q.cqBase.toNat + 32 * (q.cqPi.toNat % size)
  let b := e.bits + fld 18 18 (1 - q.cqPi.toNat / size % 2)
  let s := hostWrite fn (addr + 16) 16 (b / 2 ^ 128) false s
  let s := hostWrite fn addr 16 (b % 2 ^ 128) false s
  let s := freeHeld e (match e.lane with | some n => freeStampEntry n s | none => s)
  let s := setSlot fn slot (fun q => { q with cqPi := q.cqPi + 1 }) s
  match e.rx with
  | some r => setSlot fn r (fun q => { q with rxCi := q.rxCi + 1 }) s
  | none => s

/-- COMPLETION_ENTRY_ISSUE: the oldest entry that waits is written, and an ARMed ring raises its vector (R487). -/
def execCompletionEntryIssue (fn slot : Nat) (s : State) : Host.Outcome State Fault Refusal :=
  let q := (fnOf s fn).slots.get slot
  match q.waiting with
  | [] => .next s
  | e :: rest =>
    if !q.cqEn || !cqRoom q || !(fnOf s fn).bme then .next s
    else
      let s := writeEntry fn slot e (setSlot fn slot (fun q => { q with waiting := rest }) s)
      let q := (fnOf s fn).slots.get slot
      if q.arm then .next (raiseVector fn q.vector.toNat (setSlot fn slot (fun q => { q with arm := false }) s)) else .next s

end Sys2Proof.Machine
end

