-- ==== Sys2Proof/Machine/InstCmds.lean ====
section
/-! DEFINITION. Instance commands. -/
namespace Sys2Proof.Machine

/-! The 0x02 and 0x0D commands (R475, R488, R493, R494, R510, R522 to R536). -/

/-- Another instance that is not ABSENT holds a queue of the range. -/
def rangeTaken (s : State) (iid base count : Nat) : Bool :=
  s.fns.any fun p => p.1 != iid && p.2.inst.state != 0 && p.2.inst.qbase < base + count && base < p.2.inst.qbase + p.2.inst.qcount

def execInstConfig (c : CmdPkt) (s : State) : Host.Outcome State Fault Refusal :=
  .next (runCmd 0x0201 .P false always
    (fun c s =>
      let base := c.p 0 2
      let n := c.p 2 2
      let i := (fnOf s c.iid).inst
      firstOf [(n > 256 || base + n > 65536 || c.p 4 1 > 7 || c.p 5 43 != 0, stBadParam),
        (!fnExists s c.iid, stNotFound), (n != 0 && rangeTaken s c.iid base n, stBadParam),
        ((List.range n).any (fun k => leafClassOther s (base + k) (c.p 4 1)), stBadParam),
        (i.state == 4, stBusy),
        ((i.qbase != base || i.qcount != n) && (fnOf s c.iid).slots.any (fun q => q.2.state != 0), stBusy)]) quiet
    (fun c s =>
      let i := (fnOf s c.iid).inst
      let resumed := i.state == 2 || i.state == 3
      let s := setFn c.iid (fun f => { f with inst := { f.inst with
        state := 1, qbase := c.p 0 2, qcount := c.p 2 2, cls := c.p 4 1, quiesceAt := none, quiesceRings := [] } }) s
      if resumed then
        let s := sendNotice c.iid 0xF1 0 (finishRings i.quiesceRings stBadState 0 s)
        done ((List.range (c.p 2 2)).foldl (fun s k =>
          if ((fnOf s c.iid).slots.get k).stopped then s else actQueue c.iid k s) s) 0
      else done s 0) c s)

/-- An instance enters QUIESCED (R524, R526), and every INST_QUIESCE that waits for it gets its reply. -/
def enterQuiesced (iid : Nat) (forced : Bool) (rdata : Nat) (s : State) : State :=
  let rings := (fnOf s iid).inst.quiesceRings
  let s := setFn iid (fun f => { f with inst := { f.inst with state := 3, quiesceAt := none, quiesceRings := [] } }) s
  finishRings rings stOk rdata (postInst 0x0201 iid 16 (fld 255 240 iid + fld 239 239 (bit forced)) s)

/-- The command's own execution, which CMD counts, when its ring is the target's. -/
def ownCmd (c : CmdPkt) : Nat := if c.fn == c.iid then 1 else 0

/-- R523: BOUND in bytes 0 to 3, FORCE in byte 4 bit 0. -/
def execInstQuiesce (c : CmdPkt) (s : State) : Host.Outcome State Fault Refusal :=
  .next (runCmd 0x0202 .P false always
    (fun c s => firstOf [(c.p 0 4 < 1 || c.p 0 4 > 100000, stBadParam),
      ((fnOf s c.iid).inst.state == 0 || (fnOf s c.iid).inst.state == 4, stBadState)]) quiet
    (fun c s =>
      if (fnOf s c.iid).inst.state == 3 then done s 0
      else
        let s := setFn c.iid (fun f => { f with
          inst := { f.inst with state := 2, quiesceAt := some (s.tick + usT (c.p 0 4)), force := c.p 4 1 % 2 == 1,
                                quiesceRings := f.inst.quiesceRings ++ [(c.fn, c.sec)] }
          slots := f.slots.mapAll fun _ q => { q with txFetched := q.txCi, txReady := false } }) (dropLeaves c.iid s)
        let s := dropReqs c.iid (fun k => match k with | .txFetch _ => true | _ => false) s
        (sendNotice c.iid 0xF0 (c.p 0 4) s, none)) c s)

/-- A quiescing instance has no work left; the INST_QUIESCE commands that wait on its own rings do not count (R524). -/
def drained (s : State) (iid : Nat) : Bool :=
  noWork s iid ((fnOf s iid).inst.quiesceRings.filter fun r => r.1 == iid).length

/-- A quiescing instance that is drained is QUIESCED before it is reset or removed (R524). -/
def endQuiesce (iid : Nat) (s : State) : State := if (fnOf s iid).inst.state == 2 then enterQuiesced iid false 0 s else s

/-- The instance may be reset or removed (R527). -/
def resettable (c : CmdPkt) (s : State) : Bool :=
  let st := (fnOf s c.iid).inst.state
  st == 3 || ((st == 1 || st == 2) && noWork s c.iid (ownCmd c))

/-- ST_BUSY with the counts of R525, where the instance is not drained. -/
def busyCounts (c : CmdPkt) (s : State) : Refuse :=
  if resettable c s then none else some (stBusy, packCounts (workCounts s c.iid))

def execInstReset (c : CmdPkt) (s : State) : Host.Outcome State Fault Refusal :=
  .next (runCmd 0x0203 .P false always busyCounts quiet
    (fun c s => done (endReset c.iid 1 (resetInstance c.iid 1 (endQuiesce c.iid s))) 0) c s)

/-- R530: the rules for a physical function come first among the state checks. -/
def execInstRemove (c : CmdPkt) (s : State) : Host.Outcome State Fault Refusal :=
  .next (runCmd 0x0204 .P false (fun c _ => !(isPf c.iid && iidOk c.iid) || (c.fn == 0 && c.iid != 0))
    (fun c s =>
      if isPf c.iid && (vfsOf s (portOf c.iid)).any (fun v => (fnOf s v).inst.state != 0) then some (stBusy, 0)
      else busyCounts c s) quiet
    (fun c s =>
      let s := resetInstance c.iid 2 (endQuiesce c.iid s)
      let s := if isPf c.iid then destroyDomainKeys (portOf c.iid) s else s
      done (setFn c.iid (fun f => { f with inst := { f.inst with state := 0, qcount := 0 } }) s) 0) c s)

/-- R475: the queue slot in PARAM bytes 0 to 1 (log 13). Fetching resumes behind the descriptors consumed, and the doorbells written
meanwhile are acted on. -/
def execQueueRestart (c : CmdPkt) (s : State) : Host.Outcome State Fault Refusal :=
  .next (runCmd 0x0205 .V false always
    (fun c s => firstOf [(!slotExists s c.iid (c.p 0 2), stBadParam),
      (!((fnOf s c.iid).slots.get (c.p 0 2)).stopped, stBadState)]) quiet
    (fun c s =>
      let k := c.p 0 2
      let held := ((fnOf s c.iid).slots.get k).armHeld
      let s := setSlot c.iid k (fun q => { q with stopped := false, armHeld := false }) s
      if doorbellActs s c.iid k then
        let s := actQueue c.iid k s
        done (if held && doorbellActs s c.iid k then armQueue c.iid k s else s) 0
      else done s 0) c s)

def execDirtyLogStart (c : CmdPkt) (s : State) : Host.Outcome State Fault Refusal :=
  .next (runCmd 0x0206 .P false always
    (fun c s =>
      let i := (fnOf s c.iid).inst
      firstOf [(c.p 0 8 % 4096 != 0 || c.p 8 1 < 10 || c.p 8 1 > 24 || c.p 9 39 != 0, stBadParam),
        (i.state == 0 || i.state == 4 || i.log.isSome, stBadState),
        ((s.fns.filter fun p => p.2.inst.log.isSome).length ≥ 64, stNoResource)]) quiet
    (fun c s =>
      let s := setFn c.iid (fun f => { f with inst := { f.inst with
        log := some { ring := c.p 0 8, log2 := c.p 8 1 } } }) s
      done (sendNotice c.iid 0xF3 1 s) 0) c s)

/-- The byte of ring entry `j` (R532). -/
def DirtyLog.entryAddr (d : DirtyLog) (j : Nat) : Nat := d.ring + 64 + 8 * (j % 2 ^ d.log2)

/-- Entry `j` for a page (R532). -/
def DirtyLog.entry (d : DirtyLog) (j page : Nat) : Nat := page % 2 ^ 52 * 4096 + (1 - j / 2 ^ d.log2 % 2)

/-- The log of an instance changes. -/
def setLog (iid : Nat) (g : DirtyLog → DirtyLog) (s : State) : State :=
  setFn iid (fun f => { f with inst := { f.inst with log := f.inst.log.map g } }) s

/-- A write of the log's own, into the port manager's ring or a harvest's buffer, is not logged itself (R533); without bus mastering it
is discarded (R482). -/
def logWrite (fn addr data len : Nat) (s : State) : State :=
  if (fnOf s fn).bme then emit (.dma fn addr len data false) s
  else setPort (portOf fn) (fun p => { p with bmeDrop := p.bmeDrop.count len }) s

/-- DIRTY_LOG_FULL, at most once per round and cause (R534). -/
def postLogFull (iid cause : Nat) (s : State) : State :=
  match (fnOf s iid).inst.log with
  | none => s
  | some d =>
    if d.fullPosted.contains cause then s
    else postInst 0x0204 iid 20 (fld 255 240 iid + fld 239 238 cause)
      (setLog iid (fun d => { d with fullPosted := cause :: d.fullPosted }) s)

/-- The CONSUMER read failed: treated as OVERFLOW, with CAUSE 2 (R534). -/
def logReadFailed (iid : Nat) (s : State) : State :=
  postLogFull iid 2 (setLog iid (fun d => { d with overflow := true, readError := true }) s)

/-- R533: the oldest staged entry is written to the ring once there is room. -/
def execDirtyLogEntryWrite (iid : Nat) (s : State) : Host.Outcome State Fault Refusal :=
  match (fnOf s iid).inst.log with
  | none => .next s
  | some d =>
    let s := if d.overflow && !d.readError then postLogFull iid 1 s else s
    match d.staged with
    | [] => .next s
    | page :: rest =>
      if d.room && !d.readError then
        let s := logWrite (pfOf iid) (d.entryAddr d.producer) (d.entry d.producer page) 8 s
        .next (setLog iid (fun d => { d with
          producer := (d.producer + 1) % 2 ^ 32, staged := rest, roundWritten := d.roundWritten + 1 }) s)
      else .next s

/-- R534: CONSUMER is read when the ring seems full, at most once per 10 µs; `value` is what the read returned. -/
def execDirtyLogConsumerRead (iid : Nat) (value : Option Word) (s : State) : Host.Outcome State Fault Refusal :=
  match (fnOf s iid).inst.log with
  | none => .next s
  | some d =>
    if d.room || d.staged.isEmpty || s.tick < d.readNext || d.readError then .next s
    else
      match value with
      | none => .next (logReadFailed iid s)
      | some v =>
        let d' := { d with consumer := v.toNat, readNext := s.tick + usT 10 }
        let s := setLog iid (fun _ => d') s
        if d'.room then .next s else .next (postLogFull iid 0 s)

/-- Staged entries written to a buffer with PHASE 0 (R535). -/
def harvestWrites (fn : Nat) : Nat → List Nat → State → State
  | _, [], s => s
  | addr, page :: rest, s => harvestWrites fn (addr + 8) rest (logWrite fn addr (page % 2 ^ 52 * 4096) 8 s)

/-- Staged entries written to the ring while there is room, before a harvest returns (R533, R535). -/
def drainStaged (iid : Nat) : List Nat → State → State
  | [], s => s
  | page :: rest, s =>
    match (fnOf s iid).inst.log with
    | none => s
    | some d =>
      if d.room && !d.readError then
        drainStaged iid rest (setLog iid (fun d => { d with
            producer := (d.producer + 1) % 2 ^ 32, staged := rest, roundWritten := d.roundWritten + 1 })
          (logWrite (pfOf iid) (d.entryAddr d.producer) (d.entry d.producer page) 8 s))
      else s

def execDirtyLogHarvest (c : CmdPkt) (s : State) : Host.Outcome State Fault Refusal :=
  .next (runCmd 0x0207 .P false always
    (fun c s => firstOf [(!c.indirect || c.p 8 4 % 8 != 0, stBadParam), ((fnOf s c.iid).inst.log.isNone, stBadState)]) quiet
    (fun c s =>
      let s := drainStaged c.iid (((fnOf s c.iid).inst.log.map fun d => d.staged).getD []) s
      match (fnOf s c.iid).inst.log with
      | none => done s 0
      | some d =>
        let n := min (c.p 8 4 / 8) d.staged.length
        let s := setLog c.iid (fun d => { d with
          staged := d.staged.drop n, round := d.staged.drop n, roundWritten := 0, overflow := false, readError := false,
          fullPosted := [] }) s
        let s := harvestWrites c.fn (c.p 0 8) (d.staged.take n) s
        done s (fld 63 32 n + fld 95 64 d.roundWritten + fld 111 96 (min 65535 (d.staged.length - n))
          + fld 112 112 (bit d.overflow))) c s)

def execDirtyLogStop (c : CmdPkt) (s : State) : Host.Outcome State Fault Refusal :=
  .next (runCmd 0x0208 .P false always
    (fun c s => firstOf [((fnOf s c.iid).inst.log.isNone, stBadState)]) quiet
    (fun c s =>
      let n := (((fnOf s c.iid).inst.log.map fun d => d.staged.length).getD 0)
      done (stopLogging c.iid s) (fld 63 32 n)) c s)

/-- R524: the last count of a quiescing instance has reached 0. While the firmware is halted the drain is not completed (R136, log
88). -/
def execQuiesceDrained (iid : Nat) (s : State) : Host.Outcome State Fault Refusal :=
  if (fnOf s iid).inst.state == 2 && s.fw.ready && drained s iid then .next (enterQuiesced iid false 0 s) else .next s

/-- R525: the quiesce timer expires, unless the drain came first (R69). -/
def execQuiesceTimeout (iid : Nat) (s : State) : Host.Outcome State Fault Refusal :=
  let i := (fnOf s iid).inst
  match i.quiesceAt with
  | none => .next s
  | some t =>
    if i.state != 2 || s.tick < t || !s.fw.ready then .next s
    else if drained s iid then .next (enterQuiesced iid false 0 s)
    else
      let counts := packCounts (workCounts s iid)
      if i.force then .next (enterQuiesced iid true counts (discardDelivery iid (discardWork iid s)))
      else
        let s := setFn iid (fun f => { f with inst := { f.inst with quiesceAt := none, quiesceRings := [] } }) s
        .next (finishRings i.quiesceRings stTimeout counts s)

/-- The RX_INFO word of a channel (R513). -/
def MboxChan.info (c : MboxChan) : Nat :=
  fld 31 31 (bit c.full) + fld 30 30 (bit c.valid) + fld 28 24 c.len + fld 15 0 c.src

/-- The TX_STS word of a transmit side (R513). -/
def MboxTx.sts (t : MboxTx) : Nat := fld 4 4 (bit t.done) + fld 3 0 t.result.toNat

/-- A receive channel exists at a function (R512). -/
def chanExists (iid c : Nat) : Bool := if isPf iid then c ≤ 512 else c ≤ 1

def execMboxStatus (c : CmdPkt) (s : State) : Host.Outcome State Fault Refusal :=
  .next (runCmd 0x0209 .V false always
    (fun c _ =>
      let sel := c.p 0 2
      firstOf [(!((sel ≤ 0x200 && chanExists c.iid sel) || sel == 0x8000 || (isPf c.iid && (sel == 0x4000 || sel == 0x8001))),
        stBadParam)]) quiet
    (fun c s =>
      let f := fnOf s c.iid
      let sel := c.p 0 2
      if sel == 0x8000 then done s (fld 63 32 f.tx.sts + fld 64 64 (bit f.tx.go))
      else if sel == 0x8001 then done s (fld 63 32 f.secTx.sts + fld 64 64 (bit f.secTx.go))
      else if sel == 0x4000 then done s (fld 63 32 f.secChan.info)
      else done s (fld 63 32 (f.chans.get sel).info)) c s)

/-! ## Windows and interrupts (R476, R488, R493, R494) -/

/-- R493: HBM ends at 0x0030_0000_0000; the reservations of R666 are refused. -/
def execWindowWrite (c : CmdPkt) (s : State) : Host.Outcome State Fault Refusal :=
  .next (runCmd 0x0D01 .P false always
    (fun c _ =>
      let base := c.p 2 6
      let l := c.p 8 1
      firstOf [(!isPf c.iid || c.p 1 1 != 0 || c.p 9 1 > 3 || c.p 10 38 != 0, stBadParam),
        (l != 0 && (l < 12 || l > 28), stBadParam), (l != 0 && base % 2 ^ l != 0, stBadParam),
        (l != 0 && base + 2 ^ l > 0x003000000000, stBadParam),
        (l != 0 && base < 0x000C00000000 && 0x000BF0000000 < base + 2 ^ l, stDenied)]) quiet
    (fun c s =>
      let e : WinEntry := { base := BitVec.ofNat 48 (c.p 2 6), log2 := c.p 8 1, rd := c.p 9 1 % 2 == 1, wr := c.p 9 1 / 2 % 2 == 1 }
      done (setFn (pfOf c.iid) (fun f => { f with winPending := f.winPending.put (c.p 0 1) e }) s) 0) c s)

def execWindowCommit (c : CmdPkt) (s : State) : Host.Outcome State Fault Refusal :=
  .next (runCmd 0x0D02 .P false always (fun c _ => firstOf [(!isPf c.iid, stBadParam)]) quiet
    (fun c s => done (setFn (pfOf c.iid) (fun f => { f with winActive := f.winPending }) s) 0) c s)

def execMsixMap (c : CmdPkt) (s : State) : Host.Outcome State Fault Refusal :=
  .next (runCmd 0x0D03 .V false always
    (fun c s => firstOf [(!slotExists s c.iid (c.p 0 2) || c.p 2 2 ≥ vectorCount c.iid, stBadParam)]) quiet
    (fun c s => done (setSlot c.iid (c.p 0 2) (fun q => { q with vector := BitVec.ofNat 10 (c.p 2 2) }) s) 0) c s)

def execQueueRoCfg (c : CmdPkt) (s : State) : Host.Outcome State Fault Refusal :=
  .next (runCmd 0x0D04 .V false always
    (fun c s => firstOf [(!slotExists s c.iid (c.p 0 2), stBadParam)]) quiet
    (fun c s => done (setSlot c.iid (c.p 0 2) (fun q => { q with roData := c.p 2 1 % 2 == 1 }) s) 0) c s)

end Sys2Proof.Machine
end

