-- ==== Sys2Proof/Machine/Rings.lean ====
section
/-! DEFINITION. Command rings. -/
namespace Sys2Proof.Machine

/-! Command rings (R103 to R109). -/

/-- A register of a function's BAR0 can be reached. -/
def bar0Open (s : State) (iid : Nat) : Bool :=
  fnExists s iid && (s.ports.get (portOf iid)).linkUp && !(fnOf s iid).d3hot && (fnOf s iid).flr.isNone

def execCmdRingPi (fn : Nat) (sec : Bool) (v : Word) (s : State) : Host.Outcome State Fault Refusal :=
  if !bar0Open s fn || (sec && !isPf fn) then .next s
  else
    let s := setRing fn sec (fun r => { r with pi := v.extractLsb' 0 16 }) s
    let r := ringOf s fn sec
    if r.enable && !r.stopped && (r.pi - r.ci).toNat > 2 ^ r.log2.toNat then .next (stopRing fn sec 1 s) else .next s

def execCmdRingEnable (fn : Nat) (sec : Bool) (v : Word) (s : State) : Host.Outcome State Fault Refusal :=
  if !bar0Open s fn || (sec && !isPf fn) || !v.getLsbD 31 || (ringOf s fn sec).enable then .next s
  else
    let s := setRing fn sec (fun r => { r with
      enable := true, vector := v.extractLsb' 16 11, log2 := v.extractLsb' 0 4, pi := 0, ci := 0, seqValid := false,
      stopped := false }) s
    if badLog2 (ringOf s fn sec).log2 then .next (stopRing fn sec 3 s) else .next s

/-- R105: the command in execution goes on, and no later one is fetched; PI keeps the value last written (R17). -/
def execCmdRingDisable (fn : Nat) (sec : Bool) (v : Word) (s : State) : Host.Outcome State Fault Refusal :=
  if !bar0Open s fn || (sec && !isPf fn) || v.getLsbD 31 then .next s
  else if (ringOf s fn sec).enable then .next (setRing fn sec (fun r => { r with enable := false }) s)
  else .next (setRing fn sec (fun r => { r with vector := v.extractLsb' 16 11, log2 := v.extractLsb' 0 4 }) s)

def execCommandFetchError (fn : Nat) (sec : Bool) (s : State) : Host.Outcome State Fault Refusal :=
  if ringLive s fn sec then .next (stopRing fn sec 2 s) else .next s

end Sys2Proof.Machine
end

