-- ==== Sys2Proof/Machine/Trust.lean ====
section
/-! DEFINITION. The trust region. -/
namespace Sys2Proof.Machine

/-! ## Secure mailbox requests (R618 to R625) -/

/-- A port's secure state. -/
def secPort (s : State) (h : Nat) : SecPort := s.sec.ports.get h

/-- A port's secure state changes. -/
def setSecPort (h : Nat) (f : SecPort → SecPort) (s : State) : State :=
  { s with sec := { s.sec with ports := s.sec.ports.upd h f } }

/-- TYPE and TAG of a request (R514, R622). -/
def reqType (ws : List Word) : Nat := (ws.headD 0).toNat / 2 ^ 24
def reqTag (ws : List Word) : Nat := (ws.headD 0).toNat / 65536 % 256

/-- Word `i` of a request. -/
def reqWord (ws : List Word) (i : Nat) : Nat := (ws.getD i 0).toNat

/-- The trust region takes the request a port has posted: the message is read (R515, R622). It serves none while the adapter is
in its start-up, in SCRAP, or has taken one it has not yet answered. -/
def takeRequest (h type : Nat) (s : State) : Option (List Word × State) :=
  match (secPort s h).request with
  | none => none
  | some ws =>
    if reqType ws != type || (secPort s h).verifying.isSome || (secPort s h).reading.isSome || s.pwr.stage < 6 then none
    else
      some (ws, endMessage (h * 4096) true 1 (setSecPort h (fun p => { p with request := none }) s))

/-- The trust region answers a request (R622): RESULT with the request's TYPE and TAG. -/
def secResult (h type tag status : Nat) (s : State) : State :=
  fillSecure (h * 4096) [BitVec.ofNat 32 (0x82 * 2 ^ 24 + tag * 65536 + 0xFFFF),
    BitVec.ofNat 32 (type * 2 ^ 24 + tag * 65536 + status), 0, 0, 0, 0, 0, 0] s

/-- A request is answered by RESULT (R622). -/
def answer (h : Nat) (ws : List Word) (status : Nat) (s : State) : State := secResult h (reqType ws) (reqTag ws) status s

/-- The buffer that a request names in words 1 and 2 is read through the function's own path (R618, R624, log 87). Without bus mastering
nothing can be read. -/
def readBuffer (h : Nat) (ws : List Word) (nonce : List Byte) (len : Nat) (s : State) : State :=
  if (fnOf s (h * 4096)).bme then
    issueRead (h * 4096) .secure (reqWord ws 1 + reqWord ws 2 * 2 ^ 32) len
      (setSecPort h (fun p => { p with reading := some { msg := ws, nonce := nonce } }) s)
  else answer h ws stTimeout s

/-- The request of a type whose buffer a read has brought. -/
def bufferRead (s : State) (h type : Nat) : Option (SecRead × List Byte) :=
  match (secPort s h).reading with
  | some r => if reqType r.msg == type then r.buf.map fun b => (r, b) else none
  | none => none

/-- The read of a request's buffer has failed (R618, R625). -/
def secureReadFailed (h : Nat) (s : State) : State :=
  match (secPort s h).reading with
  | some r => answer h r.msg stTimeout (setSecPort h (fun p => { p with reading := none }) s)
  | none => s

/-- Words from `i` on are zero. -/
def restZero (ws : List Word) (i : Nat) : Bool := (ws.drop i).all fun w => w == 0

/-- 32 bytes drawn (R618, R626). -/
def drawnBytes (n : Nat) (s : State) : List Byte := bytesOf n (drawn (8 * n) s)

/-- R618 step 1, R627. -/
def execNonceReq (port : Fin 8) (s : State) : Host.Outcome State Fault Refusal :=
  match takeRequest port.val 1 s with
  | none => .next s
  | some (ws, s) =>
    if ws.length != 8 || !restZero ws 1 then .next (answer port.val ws stBadParam s)
    else if s.sec.lc == 4 then .next (answer port.val ws stDenied s)
    else if s.sec.entropyFail then .next (answer port.val ws stHwFault s)
    else
      let n := drawnBytes 32 s
      let s := useDraw (setSecPort port.val (fun p => { p with nonce := some (n, s.tick + secT 10) }) s)
      .next (fillSecure (port.val * 4096) (BitVec.ofNat 32 (0x81 * 2 ^ 24 + reqTag ws * 65536 + 0xFFFF)
        :: (List.range 8).map fun i => BitVec.ofNat 32 (ofBytes ((n.drop (4 * i)).take 4))) s)

/-- The verification of an AUTH begins. -/
def beginVerify (h : Nat) (ws : List Word) (nonce b : List Byte) (s : State) : State :=
  setSecPort h (fun p => { p with reading := none, verifying := some (reqWord ws 3, reqTag ws, b), spent := some nonce }) s

/-- R618 step 2: the buffer is read and verification begins; the nonce is spent in every case. A row without the buffer's bytes has it
read, and comes again when they are in (log 87). -/
def execAuth (port : Fin 8) (buf : Option (List Byte)) (s : State) : Host.Outcome State Fault Refusal :=
  let nonce := (secPort s port.val).nonce
  match bufferRead s port.val 2 with
  | some (r, b) => .next (beginVerify port.val r.msg r.nonce b s)
  | none =>
  match takeRequest port.val 2 s with
  | none => .next s
  | some (ws, s) =>
    let purpose := reqWord ws 3
    let s := setSecPort port.val (fun p => { p with nonce := none }) s
    if ws.length != 8 || !restZero ws 4 || purpose / 256 != 0 || purpose < 1 || purpose > 2 then
      .next (answer port.val ws stBadParam s)
    else if s.sec.lc == 4 then .next (answer port.val ws stDenied s)
    else
      match nonce with
      | none => .next (answer port.val ws stBadState s)
      | some (n, till) =>
        if till < s.tick then .next (answer port.val ws stBadState s)
        else
          match buf with
          | none => .next (readBuffer port.val ws n 5261 s)
          | some b => .next (beginVerify port.val ws n b s)

/-- The message an operator signs (R618 step 3): "SX7100-SC", DEVICE_ID, NONCE, IID and PURPOSE. -/
def authMessage (h purpose : Nat) (nonce : List Byte) : List Byte :=
  [0x53, 0x58, 0x37, 0x31, 0x30, 0x30, 0x2D, 0x53, 0x43] ++ Config.deviceId ++ nonce ++ bytesOf 2 (h * 4096) ++ bytesOf 1 purpose

/-- AUTH_VERIFIED (R618). In the clock in which every session ends none opens, and the RESULT is discarded (R621). -/
def execAuthVerified (port : Fin 8) (s : State) : Host.Outcome State Fault Refusal :=
  let p := secPort s port.val
  match p.verifying with
  | none => .next s
  | some (purpose, tag, b) =>
    if s.sec.endedAt == some s.tick then
      .next (setSecPort port.val (fun p => { p with verifying := none, spent := none }) s)
    else
    let pub := b.take 1952
    let ok := b.length == 5261 && keyTrusted s 32 pub
      && mlDsaVerify pub (authMessage port.val purpose (p.spent.getD [])) (b.drop 1952)
    let s := setSecPort port.val (fun p => { p with
      verifying := none, spent := none, session := if ok then purpose else p.session }) s
    .next (secResult port.val 2 tag (if ok then stOk else stSigFail) s)

/-- R621. -/
def execClose (port : Fin 8) (s : State) : Host.Outcome State Fault Refusal :=
  match takeRequest port.val 3 s with
  | none => .next s
  | some (ws, s) =>
    if ws.length != 8 || !restZero ws 1 then .next (answer port.val ws stBadParam s)
    else if (secPort s port.val).session == 0 then .next (answer port.val ws stDenied s)
    else .next (answer port.val ws stOk (setSecPort port.val (fun p => { p with session := 0 }) s))

/-- A life-cycle transition is permitted (R613). -/
def lcTarget (now target : Nat) : Bool :=
  (now == 1 && (target == 2 || target == 4)) || (now == 2 && (target == 3 || target == 4)) || (now == 3 && target == 4)

/-- Entry to FIELD (R615). -/
def enterField (s : State) : State :=
  let s := if s.sec.fiField then s else endAllInjection s
  if s.sec.lowrate || s.ciph.rate ≥ 0x0100 then s else { s with ciph := { s.ciph with rate := 0x0100 } }

/-- Entry to RETURN (R616). -/
def enterReturn (s : State) : State :=
  zeroiseKeys { s with sec := { s.sec with roots := [] } }

/-- Measurement 4 (R628): LC, FI_FIELD, LOWRATE_FIELD, MIN_SVN and the usable bits. -/
def measure4 (s : State) : BitVec 256 :=
  BitVec.ofNat 256 (fld 3 0 s.sec.lc + fld 8 8 (bit s.sec.fiField) + fld 9 9 (bit s.sec.lowrate) + fld 47 16 s.sec.minSvn
    + (List.range 12).foldl (fun a i => a + fld (48 + i) (48 + i)
        (bit (s.sec.hashes.get (16 * (i / 4) + i % 4)).usable)) 0)

/-- Measurement 4 follows its parts. -/
def remeasure (s : State) : State := { s with sec := { s.sec with meas := s.sec.meas.put 4 (measure4 s) } }

/-- R614 to R617: the LC bits are blown first, every session ends, and the entry actions follow. -/
def execLcAdvance (port : Fin 8) (s : State) : Host.Outcome State Fault Refusal :=
  match takeRequest port.val 4 s with
  | none => .next s
  | some (ws, s) =>
    let target := reqWord ws 1
    if ws.length != 8 || !restZero ws 2 || target > 7 then .next (answer port.val ws stBadParam s)
    else if (secPort s port.val).session != 2 || !lcTarget s.sec.lc target then .next (answer port.val ws stDenied s)
    else
      let s := endSessions { s with sec := { s.sec with lc := target } }
      let s := answer port.val ws stOk s
      let s := if target == 2 then enterField s else if target == 3 then enterReturn s else s
      let s := remeasure s
      .next (if target == 4 then enterSafe { s with sec := { s.sec with zeroising := true } } else s)

/-- The wrapped root of ROOT_IMPORT, or none on a tag mismatch (R624). -/
def unwrapRoot (s : State) (slot : Nat) (b : List Byte) : Option (List Byte) :=
  let c := b.take 1088
  let w := (b.drop 1088).take 32
  let t := b.drop 1120
  let seed := kmac ((s.sec.roots.get 0)) Config.deviceId 512 "SX7100-KEM"
  let ss := mlKemDecaps seed c
  let ma := kmac ss (bytesOf 1 slot ++ Config.deviceId) 512 "SX7100-WRAP"
  let m := ma.take 32
  let a := ma.drop 32
  if kmac a (c ++ w ++ bytesOf 1 slot) 256 "SX7100-TAG" == t then some (List.zipWith (· ^^^ ·) w m) else none

/-- ROOT_IMPORT goes on with its buffer's bytes (R624, R625). -/
def importRoot (h : Nat) (ws : List Word) (b : List Byte) (s : State) : State :=
  let slot := reqWord ws 3
  match unwrapRoot s slot b with
  | none => answer h ws stSigFail s
  | some root =>
    if liveKeyOfRoot s slot then answer h ws stBusy s
    else if s.sec.rootWrites.get slot ≥ 64 then answer h ws stNoResource s
    else answer h ws stOk { s with sec := { s.sec with
      roots := s.sec.roots.put slot root, rootWrites := s.sec.rootWrites.put slot (s.sec.rootWrites.get slot + 1) } }

/-- R624, R625. A row without the buffer's bytes has it read, and comes again when they are in (log 87); a part that has lost its roots
meanwhile imports none (R613). -/
def execRootImport (port : Fin 8) (buf : Option (List Byte)) (s : State) : Host.Outcome State Fault Refusal :=
  match bufferRead s port.val 5 with
  | some (r, b) =>
    let s := setSecPort port.val (fun p => { p with reading := none }) s
    .next (if s.sec.roots.has 0 then importRoot port.val r.msg b s else answer port.val r.msg stDenied s)
  | none =>
  match takeRequest port.val 5 s with
  | none => .next s
  | some (ws, s) =>
    let slot := reqWord ws 3
    if ws.length != 8 || !restZero ws 4 || slot < 1 || slot > 3 then .next (answer port.val ws stBadParam s)
    else if (secPort s port.val).session != 2 || (s.sec.lc != 1 && s.sec.lc != 2) then .next (answer port.val ws stDenied s)
    else
      match buf with
      | none => .next (readBuffer port.val ws [] 1152 s)
      | some b => .next (importRoot port.val ws b s)

/-- The adapter's encapsulation key (R623). -/
def kemPublic (s : State) : List Byte :=
  mlKemPublic (kmac (s.sec.roots.get 0) Config.deviceId 512 "SX7100-KEM")

/-- R623. The key goes out by posted writes, so `_ok`, a completion's status, selects nothing. -/
def execKemKeyGet (port : Fin 8) (_ok : Bool) (s : State) : Host.Outcome State Fault Refusal :=
  match takeRequest port.val 6 s with
  | none => .next s
  | some (ws, s) =>
    if ws.length != 8 || !restZero ws 3 then .next (answer port.val ws stBadParam s)
    else if (secPort s port.val).session == 0 || !s.sec.roots.has 0 then .next (answer port.val ws stDenied s)
    else .next (answer port.val ws stOk
      (hostWrite (port.val * 4096) (reqWord ws 1 + reqWord ws 2 * 2 ^ 32) 1184 (ofBytes (kemPublic s)) false s))

/-- A field code names a hash slot: its group and index (R622). -/
def hashField (f : Nat) : Bool := f % 16 < 4 && f / 16 < 3

/-- The usable slots of the group a field lies in. -/
def usableCount (s : State) (f : Nat) : Nat :=
  ([0, 1, 2, 3].filter fun i => (s.sec.hashes.get (f / 16 * 16 + i)).usable).length

/-- The public key of the running image lies in this hash slot. -/
def signedRunning (s : State) (f : Nat) : Bool :=
  s.fw.accepted && f < 4 && match slotImage s s.fw.slot with
    | some i => (s.sec.hashes.get f).hash == sha3 i.pubkey
    | none => false

/-- R610, R611, R613, R620. -/
def execFuseProgram (port : Fin 8) (s : State) : Host.Outcome State Fault Refusal :=
  match takeRequest port.val 7 s with
  | none => .next s
  | some (ws, s) =>
    let f := reqWord ws 1 % 256
    let revoke := reqWord ws 1 / 256 == 1
    let policy := f == 0x30 || f == 0x31
    let hash := ofBytes ((ws.drop 2).flatMap fun w => bytesOf 4 w.toNat)
    let open0 := s.sec.lc == 1 && !(s.sec.hashes.get 32).written && f == 0x20 && !revoke && port.val == 0
    if ws.length != 10 || reqWord ws 1 > 511 || !(hashField f || policy) || ((policy || revoke) && hash != 0)
        || (policy && revoke) then .next (answer port.val ws stBadParam s)
    else if ((secPort s port.val).session != 2 && !open0) || (policy && s.sec.lc != 1) || (s.sec.lc != 1 && s.sec.lc != 2) then
      .next (answer port.val ws stDenied s)
    else if policy then
      .next (answer port.val ws stOk (remeasure { s with sec :=
        if f == 0x30 then { s.sec with fiField := true } else { s.sec with lowrate := true } }))
    else if revoke then
      if (f < 32 && (s.sec.hashes.get f).usable && usableCount s f ≤ 1) || signedRunning s f then
        .next (answer port.val ws stBadState s)
      else .next (answer port.val ws stOk (remeasure { s with sec := { s.sec with
        hashes := s.sec.hashes.upd f fun h => { h with revoked := true } } }))
    else if (s.sec.hashes.get f).written then .next (answer port.val ws stBadState s)
    else .next (answer port.val ws stOk (remeasure { s with sec := { s.sec with
      hashes := s.sec.hashes.upd f fun h => { h with hash := BitVec.ofNat 256 hash, written := true } } }))

/-- Every storage slot is unpowered, as it stays in SCRAP (R617). -/
def slotsOff (s : State) : State :=
  (List.range 16).foldl (fun s p => if (sport s p).powerOn then failPort p s else s) s

/-- R617: at entry to SCRAP and at every start in SCRAP. Afterwards HX is released. -/
def execScrapZeroise (s : State) : Host.Outcome State Fault Refusal :=
  if s.sec.lc != 4 || s.sec.zeroised || (s.pwr.stage < 6 || s.pwr.stage > 11) then .next s
  else
    let s := zeroiseMemories (zeroiseKeys (slotsOff (enterSafe s)))
    .next { s with
      sec := { s.sec with devsec := List.replicate 32 0, roots := [], zeroising := false, zeroised := true }
      hbm := {}
      fw := { s.fw with accepted := false, ready := false }
      pwr := { s.pwr with hxReleased := true, hxReady := true } }

def execEntropyHealthFail (s : State) : Host.Outcome State Fault Refusal :=
  .next { s with sec := { s.sec with entropyFail := true } }

def execEntropyHealthRecover (s : State) : Host.Outcome State Fault Refusal :=
  .next { s with sec := { s.sec with entropyFail := false } }

/-- R626, R627: the DRBGs are reseeded; tile DRBGs are not while a health test fails. -/
def execEntropyReseed (s : State) : Host.Outcome State Fault Refusal :=
  if s.sec.entropyFail then .next s
  else .next (useDraw { s with sec := { s.sec with reseedAt := s.tick, drbg := Config.draw s.draws } })

/-! ## SPDM (R628 to R631) -/

/-- SPDM is served: the trust region runs and the part is not in SCRAP or BLANK (R613, R617). -/
def spdmServed (s : State) (h : Nat) : Bool :=
  s.sec.lc != 0 && s.sec.lc != 4 && s.pwr.stage ≥ 6 && (s.ports.get h).linkUp && (fnOf s (h * 4096)).flr.isNone

/-- SPDM response codes and ERROR codes (DSP0274, named by R629). -/
def spdmError (h ver code : Nat) (s : State) : State := emit (.doe h [BitVec.ofNat 8 ver, 0x7F, BitVec.ofNat 8 code, 0]) s

/-- A response leaves the DOE mailbox. -/
def spdmReply (h ver code : Nat) (body : List Byte) (s : State) : State :=
  emit (.doe h ([BitVec.ofNat 8 ver, BitVec.ofNat 8 code, 0, 0] ++ body)) s

def execGetVersion (port : Fin 8) (s : State) : Host.Outcome State Fault Refusal :=
  if !spdmServed s port.val then .next s
  else .next (spdmReply port.val 0x10 0x04 [0, 2, 0x00, 0x12, 0x00, 0x13]
    (setSecPort port.val (fun p => { p with spdm := 1, spdmVersion := 0 }) s))

/-- Capabilities CERT, CHAL, MEAS with signatures, MEAS_FRESH, CT exponent 16 (R629). -/
def execGetCapabilities (port : Fin 8) (minor : Nat) (s : State) : Host.Outcome State Fault Refusal :=
  if !spdmServed s port.val then .next s
  else if (secPort s port.val).spdm == 0 then .next (spdmError port.val 0x10 0x04 s)
  else if minor != 2 && minor != 3 then .next (spdmError port.val 0x10 0x41 s)
  else .next (spdmReply port.val (0x10 + minor) 0x61 ([0, 16, 0, 0] ++ bytesOf 4 0x36)
    (setSecPort port.val (fun p => { p with spdm := 2, spdmVersion := 0x10 + minor }) s))

def execNegotiateAlgorithms (port : Fin 8) (sha3 mlDsa : Bool) (s : State) : Host.Outcome State Fault Refusal :=
  let p := secPort s port.val
  if !spdmServed s port.val then .next s
  else if p.spdm < 2 then .next (spdmError port.val 0x10 0x04 s)
  else if !sha3 || !mlDsa then .next (spdmError port.val p.spdmVersion 0x07 s)
  else .next (spdmReply port.val p.spdmVersion 0x63 (bytesOf 4 8) (setSecPort port.val (fun p => { p with spdm := 3 }) s))

def execGetDigests (port : Fin 8) (s : State) : Host.Outcome State Fault Refusal :=
  let p := secPort s port.val
  if !spdmServed s port.val then .next s
  else if p.spdm < 3 then .next (spdmError port.val 0x10 0x04 s)
  else .next (spdmReply port.val p.spdmVersion 0x01 (bytesOf 32 (sha3 Config.certChain).toNat) s)

/-- Slot 0 holds the device identity chain; other slots are empty (R629). -/
def execGetCertificate (port : Fin 8) (slot offset length : Nat) (s : State) : Host.Outcome State Fault Refusal :=
  let p := secPort s port.val
  if !spdmServed s port.val then .next s
  else if p.spdm < 3 then .next (spdmError port.val 0x10 0x04 s)
  else if slot != 0 || offset > Config.certChain.length then .next (spdmError port.val p.spdmVersion 0x01 s)
  else
    let part := (Config.certChain.drop offset).take length
    .next (spdmReply port.val p.spdmVersion 0x02
      (bytesOf 2 part.length ++ bytesOf 2 (Config.certChain.length - offset - part.length) ++ part) s)

/-- The device identity key's seed (R630). -/
def identitySeed (s : State) : List Byte := kmac s.sec.devsec Config.deviceId 256 "SX7100-ID"

/-- A body followed by its signature under the device identity key (R629, R630), with 32 random bytes drawn. -/
def spdmSigned (body : List Byte) (s : State) : List Byte := body ++ mlDsaSign (identitySeed s) body (drawnBytes 32 s)

def execChallenge (port : Fin 8) (slot : Nat) (nonce : List Byte) (s : State) : Host.Outcome State Fault Refusal :=
  let p := secPort s port.val
  if !spdmServed s port.val then .next s
  else if p.spdm < 3 then .next (spdmError port.val 0x10 0x04 s)
  else if slot != 0 then .next (spdmError port.val p.spdmVersion 0x01 s)
  else
    let body := bytesOf 32 (sha3 Config.certChain).toNat ++ nonce ++ drawnBytes 32 s
    .next (spdmReply port.val p.spdmVersion 0x03 (spdmSigned body (useDraw s)) (useDraw (useDraw s)))

/-- The encapsulation key as it was at entry to PROVISION, which a later loss of ROOT 0 does not change (R623, R628). -/
def kemAtProvision : List Byte := mlKemPublic (kmac Config.root0 Config.deviceId 512 "SX7100-KEM")

/-- A measurement's value (R628): indices 1 to 4 are kept, 5 is of the encapsulation key at entry to PROVISION, 6 is fixed. -/
def measurement (s : State) (i : Nat) : BitVec 256 :=
  if i == 4 then measure4 s
  else if i == 5 then sha3 kemAtProvision
  else if i == 6 then Config.romHash
  else s.sec.meas.get i

/-- A measurement's bytes: index 4 is a raw value of 8 bytes, the others digests (R628). -/
def measurementBytes (s : State) (i : Nat) : List Byte :=
  bytesOf 1 i ++ (if i == 4 then bytesOf 8 (measurement s 4).toNat else bytesOf 32 (measurement s i).toNat)

def execGetMeasurements (port : Fin 8) (index : Nat) (signed : Bool) (nonce : List Byte) (s : State) :
    Host.Outcome State Fault Refusal :=
  let p := secPort s port.val
  if !spdmServed s port.val then .next s
  else if p.spdm < 3 then .next (spdmError port.val 0x10 0x04 s)
  else if index > 6 && index != 0xFF then .next (spdmError port.val p.spdmVersion 0x01 s)
  else
    let blocks := if index == 0 then bytesOf 1 6
      else if index == 0xFF then ([1, 2, 3, 4, 5, 6].map (measurementBytes s)).flatten
      else measurementBytes s index
    let body := blocks ++ nonce
    if signed then
      let body := body ++ drawnBytes 32 s
      .next (spdmReply port.val p.spdmVersion 0x60 (spdmSigned body (useDraw s)) (useDraw (useDraw s)))
    else .next (spdmReply port.val p.spdmVersion 0x60 body s)

end Sys2Proof.Machine
end

