-- ==== Sys2Proof/Machine/HostRows.lean ====
section
/-! DEFINITION. Host requests. -/
namespace Sys2Proof.Machine

/-! ## Doorbells and ring enables (R467, R468, R474, R475, R487, R511) -/

def execHostDbTx (fn slot : Nat) (v : Word) (s : State) : Host.Outcome State Fault Refusal :=
  if !slotWritable s fn slot then .next s
  else
    let s := setSlot fn slot (fun q => { q with txPi := v.extractLsb' 0 16 }) s
    .next (if doorbellActs s fn slot then actQueue fn slot s else s)

def execHostDbRx (fn slot : Nat) (v : Word) (s : State) : Host.Outcome State Fault Refusal :=
  if !slotWritable s fn slot then .next s
  else
    let s := setSlot fn slot (fun q => { q with rxPi := v.extractLsb' 0 16 }) s
    .next (if doorbellActs s fn slot then actQueue fn slot s else s)

def execHostDbCq (fn slot : Nat) (v : Word) (s : State) : Host.Outcome State Fault Refusal :=
  if !slotWritable s fn slot then .next s
  else
    let s := setSlot fn slot (fun q => { q with cqCi := v.extractLsb' 0 16 }) s
    let q := (fnOf s fn).slots.get slot
    if (fnOf s fn).inst.state != 1 || domainDown s fn then .next s
    else if q.stopped then .next (setSlot fn slot (fun q => { q with armHeld := q.armHeld || v.getLsbD 31 }) s)
    else if q.cqEn && overrun q.cqPi q.cqCi q.log2Cq then .next (stopQueue fn slot 4 s)
    else .next (if v.getLsbD 31 then armQueue fn slot s else s)

def execHostQRingEnable (fn slot : Nat) (v : Word) (s : State) : Host.Outcome State Fault Refusal :=
  if v.extractLsb' 29 3 = 0 then .next s else .next (writeQCtl fn slot v s)

def execHostQRingDisable (fn slot : Nat) (v : Word) (s : State) : Host.Outcome State Fault Refusal :=
  if v.extractLsb' 29 3 = 7 then .next s else .next (writeQCtl fn slot v s)

def execHostEvtAck (fn : Nat) (v : Word) (s : State) : Host.Outcome State Fault Refusal :=
  if !isPf fn || !bar0Open s fn then .next s
  else .next (flushEvents fn (setFn fn (fun f => { f with evt := { f.evt with ack := v.extractLsb' 0 16 } }) s))

def execHostPuntAck (fn : Nat) (v : Word) (s : State) : Host.Outcome State Fault Refusal :=
  if fn != 0 || !bar0Open s fn then .next s
  else .next (flushPunts (setFn 0 (fun f => { f with punt := { f.punt with ack := v.extractLsb' 0 16 } }) s))

def execHostIntxStsClear (fn : Nat) (v : Word) (s : State) : Host.Outcome State Fault Refusal :=
  if !isPf fn || !bar0Open s fn then .next s
  else .next (setFnIntx fn (fun f => { f with intx := f.intx &&& ~~~v }) s)

/-! ## Mailboxes (R514 to R521) -/

/-- Word 0 with the sender's identifier in bits [15:0] (R514). -/
def stampWord0 (src : Nat) : List Word → List Word
  | [] => []
  | w :: ws => BitVec.ofNat 32 (w.toNat / 65536 * 65536 + src % 65536) :: ws

/-- A write of GO = 1 (R513, R515). The other fields take the values written in any case (R17); nothing is
posted with a message outstanding, nor by an instance that is ABSENT or RESETTING (R520). -/
def execMessagePost (fn : Nat) (sec : Bool) (v : Word) (s : State) : Host.Outcome State Fault Refusal :=
  let f := fnOf s fn
  if !bar0Open s fn || (sec && !isPf fn) || !v.getLsbD 31 then .next s
  else
    let len := (v.extractLsb' 8 5).toNat
    let dest := (v.extractLsb' 16 10).toNat
    let ms := (v.extractLsb' 0 8).toNat
    let s := setTx fn sec (fun t => { t with
      dest := if sec then 0 else v.extractLsb' 16 10, len := v.extractLsb' 8 5, timeout := v.extractLsb' 0 8 }) s
    if (if sec then f.secTx.go else f.tx.go || f.inst.state == 0 || f.inst.state == 4) then .next s else
    let expire := if ms == 0 then none else some (s.tick + msT ms)
    if sec then
      if len < 8 || len > 16 then .next (endMessage fn true 5 s)
      else
        let ws := stampWord0 fn (f.secTx.data.take len)
        let s := setTx fn true (fun t => { t with go := true, expire := expire }) s
        if reqType ws < 1 || reqType ws > 7 then
          .next (secResult (portOf fn) (reqType ws) (reqTag ws) stBadParam (endMessage fn true 1 s))
        else .next { s with sec := { s.sec with ports := s.sec.ports.upd (portOf fn) fun p => { p with request := some ws } } }
    else
      match mboxReceiver fn dest with
      | none => .next (endMessage fn false 5 s)
      | some r =>
        if len < 8 || len > 16 || !fnExists s r || (fnOf s r).inst.state == 0 then .next (endMessage fn false 5 s)
        else if (fnOf s r).inst.state == 4 && !domainDown s r then .next (endMessage fn false 2 s)
        else if domainDown s r then
          .next (postInst 0x0203 fn 20 (fld 255 240 r + fld 239 224 fn) (endMessage fn false 4 s))
        else
          let c : MboxChan := { full := true, valid := true, len := len, src := fn, words := stampWord0 fn (f.tx.data.take len) }
          .next (fillChannel r (mboxChannel fn) c (setTx fn false (fun t => { t with go := true, expire := expire, to_ := some r }) s))

/-- A receiver's read of a message delivers it to its sender (R515). -/
def deliverAck (src : Nat) (s : State) : State := if src == 0xFFFF then s else endMessage src false 1 s

def execMboxAck (fn : Nat) (sec : Bool) (s : State) : Host.Outcome State Fault Refusal :=
  if !bar0Open s fn then .next s
  else if sec then .next (if (fnOf s fn).secChan.full then nextAnswer fn s else s)
  else
    let sel := (fnOf s fn).rxSel.toNat
    let c := (fnOf s fn).chans.get sel
    if !c.full then .next s
    else .next (deliverAck c.src (setFn fn (fun f => { f with chans := f.chans.put sel { c with full := false } }) s))

def execMailboxTimeout (fn : Nat) (sec : Bool) (s : State) : Host.Outcome State Fault Refusal :=
  let t := if sec then (fnOf s fn).secTx else (fnOf s fn).tx
  match t.expire with
  | none => .next s
  | some d =>
    if !t.go || s.tick < d then .next s
    else if sec then
      .next (endMessage fn true 3
        { s with sec := { s.sec with ports := s.sec.ports.upd (portOf fn) fun p => { p with request := none } } })
    else
      let s := match t.to_ with
        | some r => setFn r (fun g => { g with chans := g.chans.upd (mboxChannel fn) fun c =>
            { c with full := false, valid := false } }) s
        | none => s
      .next (endMessage fn false 3 s)

def execMboxDomainDownAccess (fn : Nat) (write : Bool) (s : State) : Host.Outcome State Fault Refusal :=
  if !fnExists s fn || !domainDown s fn then .next s
  else
    let s := if write then s else emit (.cplAbort fn) (setFn fn (fun f => { f with aer := f.aer ++ [.completerAbort] }) s)
    let s := if (fnOf s fn).tx.go then s else endMessage fn false 4 s
    .next (postInst 0x0203 fn 20 (fld 255 240 fn + fld 239 224 fn + fld 223 223 1) s)

def execMboxNoticePost (fn : Nat) (s : State) : Host.Outcome State Fault Refusal :=
  let f := fnOf s fn
  match f.notices with
  | [] => .next s
  | ws :: rest =>
    if (f.chans.get 0).full || !s.fw.ready then .next s
    else .next (fillChannel fn 0 { full := true, valid := true, len := 8, src := 0xFFFF, words := ws }
      (setFn fn (fun f => { f with notices := rest }) s))

/-! ## Requests from a host (R463, R492, R132, R459) -/

def execBar0BadAccess (fn : Nat) (write : Bool) (s : State) : Host.Outcome State Fault Refusal :=
  if !bar0Open s fn then .next s
  else
    let s := setFn fn (fun f => { f with aer := f.aer ++ [.unsupportedRequest] }) s
    .next (if write then s else emit (.cplOnes fn) s)

/-- R492: decoded with the active copy; the window reaches HBM (R493). -/
def execBar2Request (port : Fin 8) (offset : Nat) (r : Bar2Req) (s : State) : Host.Outcome State Fault Refusal :=
  let pf := port.val * 4096
  let e := (fnOf s pf).winActive.get (offset / 2 ^ 28)
  let w := offset % 2 ^ 28
  if !bar0Open s pf then .next s
  else
    match r with
    | .read n =>
      if e.log2 == 0 || w + n > 2 ^ e.log2 || !e.rd then
        .next (emit (.cplAbort pf) (setFn pf (fun f => { f with aer := f.aer ++ [.completerAbort] }) s))
      else .next (emit (.cpl pf n (ofBytes (Memory.readAll s.hbm (e.base.toNat + w) n))) s)
    | .write bs =>
      if e.log2 == 0 || w + bs.length > 2 ^ e.log2 || !e.wr then
        .next (setPort port.val (fun p => { p with winDrop := p.winDrop.count bs.length }) s)
      else .next { s with hbm := Memory.writeAll s.hbm (e.base.toNat + w) bs }

/-- A dword of configuration space (R459, R460): the fields the spec gives values for. Others read 0 (log 20). -/
def cfgRead (s : State) (fn off : Nat) : Nat :=
  let f := fnOf s fn
  let pf := isPf fn
  if off == 0x00 then (if pf then 0x7100B415 else 0xFFFFFFFF)
  else if off == 0x04 then fld 1 1 (bit f.memEn) + fld 2 2 (bit f.bme) + fld 10 10 (bit f.intxDisable)
    + fld 19 19 (bit (f.intx != 0)) + fld 20 20 1
  else if off == 0x08 then 0x020000B0
  else if off == 0x2C then fld 15 0 0xB415 + fld 31 16 Config.subsystemId
  else if off == 0x34 then 0x40
  else if off == 0x3C then fld 7 0 f.intLine.toNat + fld 15 8 (if pf then 1 else 0)
  else if off == 0x10 || off == 0x18 then (if pf then (f.bars.get off).toNat + (if off == 0x10 then 4 else 12) else 0)
  else if off == 0x14 || off == 0x1C then (if pf then (f.bars.get off).toNat else 0)
  else if off == 0x40 then 0x00035001
  else if off == 0x44 then (if f.d3hot then 3 else 0) + 8
  else if off == 0x50 then 0x7011 + fld 26 16 (if pf then 1023 else 63) + fld 30 30 (bit f.msixMaskAll) + fld 31 31 (bit f.msixEn)
  else if off == 0x54 then 0x8000
  else if off == 0x58 then 0xC000
  else if off == 0x70 then 0x80020010
  else if off == 0x74 then 0x10008002
  else if off == 0x78 then fld 4 4 (bit f.roEn) + fld 7 5 f.mps.toNat + fld 11 11 (bit f.noSnoop) + fld 14 12 f.mrrs.toNat
  else if off == 0x7C then 0x00400106
  else if off == 0x94 then 0x00030007
  else if off == 0x98 then f.cplTo.toNat
  else if off == 0x100 then 0x14820001
  else if off == 0x148 then (if pf then 0x1501000E else 0x0001000E)
  else if !pf then 0
  else if off == 0x150 then 0x19010010
  else if off == 0x158 then fld 0 0 (bit f.vfEnable) + fld 3 3 (bit f.memEn)
  else if off == 0x15C then 0x02000200
  else if off == 0x160 then f.numVfs
  else if off == 0x164 then 0x00010001
  else if off == 0x168 then 0x71010000
  else if off == 0x16C || off == 0x170 then 1
  else if off == 0x174 then (f.bars.get off).toNat + 4
  else if off == 0x178 then (f.bars.get off).toNat
  else if off == 0x190 then 0x1C010019
  else if off == 0x1C0 then 0x1D010025
  else if off == 0x1C4 then 1
  else if off == 0x1D0 then 0x20010026
  else if off == 0x200 then 0x2301002A
  else if off == 0x230 then 0x25010031
  else if off == 0x250 then 0x2A010027
  else if off == 0x2A0 then 0x2B01002F
  else if off == 0x2A4 then 0xC
  else if off == 0x2B0 then 0x2D010032
  else if off == 0x2D0 then 0x0001002E
  else 0

/-- A configuration write's effect on the fields that have no row of their own (R457, R459, R462, R489). -/
def cfgWrite (fn off : Nat) (v : Word) (s : State) : State :=
  if off == 0x04 then setFnIntx fn (fun f => { f with memEn := v.getLsbD 1, intxDisable := v.getLsbD 10 }) s
  else if isPf fn && (off == 0x10 || off == 0x14 || off == 0x18 || off == 0x1C || off == 0x174 || off == 0x178) then
    let kept := if off == 0x10 || off == 0x174 then v &&& 0xFFFF0000 else if off == 0x18 then 0 else if off == 0x1C then v &&& 0xFFFFFFF0 else v
    setFn fn (fun f => { f with bars := f.bars.put off kept }) s
  else if off == 0x3C then setFn fn (fun f => { f with intLine := v.extractLsb' 0 8 }) s
  else if off == 0x50 then setFnIntx fn (fun f => { f with msixMaskAll := v.getLsbD 30, msixEn := v.getLsbD 31 }) s
  else if off == 0x78 then setFn fn (fun f => { f with
      roEn := v.getLsbD 4, mps := v.extractLsb' 5 3, noSnoop := v.getLsbD 11, mrrs := v.extractLsb' 12 3 }) s
  else if off == 0x98 then setFn fn (fun f => { f with cplTo := v.extractLsb' 0 4 }) s
  else s

/-- Pending vectors that may be sent are sent (R483, R486). -/
def sendPending (fn : Nat) (s : State) : State :=
  let f := fnOf s fn
  if f.bme && f.msixEn && !f.msixMaskAll then
    let go := f.msixPending.filter fun v => f.unmasked.contains v
    let s := setFn fn (fun f => { f with msixPending := f.msixPending.filter fun v => !f.unmasked.contains v }) s
    go.foldl (fun s v => emit (.msix fn v) s) s
  else s

def execConfigRequest (fn : Nat) (r : CfgReq) (s : State) : Host.Outcome State Fault Refusal :=
  if !(s.ports.get (portOf fn)).linkUp then .next s
  else if !fnExists s fn then .next (emit (.cplOnes fn) s)
  else if (!s.fw.ready && !s.fw.recovery && !(s.kiln.holding && fn == 0) && s.sec.lc != 4 && s.pwr.stage != 11) || (fnOf s fn).flr.isSome then
    .next (emit (.cplRetry fn) s)
  else
    match r with
    | .read off => .next (emit (.cpl fn 4 (cfgRead s fn off)) s)
    | .write off v => .next (sendPending fn (cfgWrite fn off v s))

/-! ## Bus mastering, resets and links (R482 to R485, R495, R507, R529) -/

/-- A command whose INDIRECT buffer is still being read gets no completion any more (R482) and ends without effect (R114, log 87); its
reply is discarded with the others (R138). A secure mailbox request whose buffer is being read is answered ST_TIMEOUT. -/
def commandReadsLost (fn : Nat) (s : State) : State :=
  let s := if isPf fn && awaiting s fn .secure then secureReadFailed (portOf fn) s else s
  [false, true].foldl (fun s sec =>
    if awaiting s fn (.command sec) then
      setRing fn sec (fun r => { r with exec := none, err := true, errCode := 4 }) s
    else s) s

def execBusMasterDisable (fn : Nat) (s : State) : Host.Outcome State Fault Refusal :=
  if !fnExists s fn || !(fnOf s fn).bme then .next s
  else
    let reads := ((s.ports.get (portOf fn)).reqs.filter fun r => r.fn == fn && !r.drop).length
    let running := (fnOf s fn).slots.any fun p => p.2.state == 1
    let dropped := (waitingOf s fn).length
    let s := stopAllQueues fn 1 (discardWork fn (commandReadsLost fn s))
    let s := setFn fn (fun f => { f with
      bme := false, masterLost := f.masterLost || reads != 0 || running
      cmd := { f.cmd with stopped := true }, sec := { f.sec with stopped := true } }) s
    .next (postTo 0x0D02 fn (fld 255 240 fn + fld 239 208 dropped + fld 207 192 reads)
      (if pfOf fn == 0 then [0] else [pfOf fn, 0]) s)

def execBusMasterEnable (fn : Nat) (s : State) : Host.Outcome State Fault Refusal :=
  if !fnExists s fn || (fnOf s fn).bme then .next s
  else
    let s := sendPending fn (setFn fn (fun f => { f with bme := true }) s)
    .next (kickFn fn (if isPf fn then flushEvents fn s else s))

/-- R484, R529: work discarded, everything reset, the domain down until FUNCTION_LEVEL_RESET_DONE. -/
def execFunctionLevelReset (fn : Nat) (s : State) : Host.Outcome State Fault Refusal :=
  if !fnExists s fn || (fnOf s fn).flr.isSome then .next s
  else
    let s := setFn fn (fun f => { f with flr := some (s.tick + msT 10) }) s
    let s := if isPf fn then endVfs 3 (vfsOf s (portOf fn)) (forgetRings fn s) else s
    .next (resetWhole fn 3 s)

def execFunctionLevelResetDone (fn : Nat) (s : State) : Host.Outcome State Fault Refusal :=
  if (fnOf s fn).flr.isNone then .next s
  else
    let s := setFn fn (fun f => { f with flr := none }) s
    .next (if (fnOf s fn).inst.state == 4 then endReset fn 2 s else s)

/-- Virtual functions `lo + 1` to `lo + n` of a port come to exist (R508). -/
def beginVfs (pf lo : Nat) : Nat → State → State
  | 0, s => s
  | n + 1, s => beginVfs pf lo n (setFn (pf + lo + n + 1) (fun f => { f with inst := { f.inst with state := 1, qbase := 0, qcount := 0 } }) s)

def execVfEnableChange (port : Fin 8) (enable : Bool) (numVfs : Nat) (s : State) : Host.Outcome State Fault Refusal :=
  let pf := port.val * 4096
  if !bar0Open s pf then .next s
  else
    let f := fnOf s pf
    let old := if f.vfEnable then f.numVfs else 0
    let n := min numVfs 512
    let new := if enable then n else 0
    let s := endVfs 5 ((vfsOf s port.val).filter fun v => fnNum v > new) s
    let s := setFn pf (fun f => { f with vfEnable := enable, numVfs := n }) s
    .next (beginVfs pf old (new - old) s)

def execDevicePowerStateChange (fn : Nat) (d3hot : Bool) (s : State) : Host.Outcome State Fault Refusal :=
  if !fnExists s fn then .next s
  else
    let s := setFn fn (fun f => { f with d3hot := d3hot }) s
    .next (if d3hot then s else kickFn fn s)

def execMsixUnmask (fn vector : Nat) (s : State) : Host.Outcome State Fault Refusal :=
  if !bar0Open s fn || vector ≥ vectorCount fn then .next s
  else .next (sendPending fn (setFn fn (fun f => { f with
    unmasked := if f.unmasked.contains vector then f.unmasked else vector :: f.unmasked }) s))

def execHostLinkLoss (port : Fin 8) (perst : Bool) (s : State) : Host.Outcome State Fault Refusal :=
  if (s.ports.get port.val).linkUp || (perst && !(s.ports.get port.val).perst) then .next (linkLoss port.val perst s) else .next s

def execHostLinkUp (port : Fin 8) (s : State) : Host.Outcome State Fault Refusal :=
  if s.pwr.hxReleased && s.pwr.ckLocked && !s.kiln.blocks.contains (sliceId 9 port.val) then
    .next (setPort port.val (fun p => { p with linkUp := true, perst := false }) s)
  else .next s

/-! ## Completions (R479 to R481) -/

/-- The key of a port's request state: host ports 0 to 7, storage ports 8 to 23 (R503). -/
def pcKey (sp : Bool) (port : Nat) : Nat := if sp then 8 + port else port % 8

/-- The submission queue of an object stops: a read for the object failed (R480). -/
def stopObjectQueue (onum : Nat) (s : State) : State :=
  match ownerOf s (objOf s onum).sq with
  | some (fn, slot) => if hasObj s onum then stopQueue fn slot 2 s else s
  | none => s

/-- What a read that failed does to the one that asked for it (R480). -/
def readFailed (r : Req) (s : State) : State :=
  match r.kind with
  | .txFetch slot => stopQueue r.fn slot 2 s
  | .rxFetch slot => stopQueue r.fn slot 2 s
  | .xport onum => stopObjectQueue onum (objectReadFailed onum s)
  | .dirtyLog => logReadFailed r.fn s
  | .drive id => stopObjectQueue (driveCmd s id).onum (storeReadDone id none s)
  | .command sec => finishExec r.fn sec stTimeout 0 s
  | .secure => secureReadFailed (portOf r.fn) s

/-- A completion arrives: accepted, or discarded for a function that lost bus mastering, or late (R480 to R482). -/
def execReadCompletion (sp : Bool) (port : Fin 16) (tag : Nat) (e : CplEnd) (s : State) : Host.Outcome State Fault Refusal :=
  let k := pcKey sp port.val
  let p := s.ports.get k
  match p.reqs.find? (fun r => r.tag == tag) with
  | some r =>
    let s := issueWaiting k (setPort k (fun p => { p with reqs := p.reqs.filter fun r => r.tag != tag }) s)
    if r.drop then .next s
    else
      match e with
      | .error => .next (readFailed r s)
      | .ok data => .next (match r.kind with
        | .txFetch slot => setSlot r.fn slot (fun q => { q with txReady := true }) s
        | .rxFetch slot => setSlot r.fn slot (fun q => { q with rxReady := true }) s
        | .xport onum => objectReadDone onum data s
        | .dirtyLog => s
        | .drive id => storeReadDone id (some data) s
        | .command sec => setRing r.fn sec (fun g => { g with exec := g.exec.map fun e => { e with buf := some data } }) s
        | .secure => setSecPort (portOf r.fn) (fun p => { p with
            reading := p.reading.map fun q => { q with buf := some data } }) s)
  | none =>
    if p.quar.any (fun q => q.1 == tag) then
      let s := setPort k (fun p => { p with lateCpl := p.lateCpl.count 0, lateCount := satAdd 32 p.lateCount 1 }) s
      let s := if sp then s else setFn (k * 4096) (fun f => { f with aer := f.aer ++ [.unexpectedCompletion] }) s
      let n := (s.ports.get k).lateCount
      if (s.ports.get k).lateNext ≤ s.tick then
        .next (postAll 0x0D03 (if sp then 21 else 20) (fld 255 255 (bit sp) + fld 254 251 port.val + fld 250 237 tag + fld 236 205 n)
          (setPort k (fun p => { p with lateCount := 0, lateNext := s.tick + msT 1 }) s))
      else .next s
    else .next s

/-- R480, and R482 step 3 for a request whose completion is to be discarded. -/
def execCompletionTimeout (sp : Bool) (port : Fin 16) (tag : Nat) (s : State) : Host.Outcome State Fault Refusal :=
  let k := pcKey sp port.val
  match (s.ports.get k).reqs.find? (fun r => r.tag == tag) with
  | none => .next s
  | some r =>
    if s.tick < r.deadline then .next s
    else
      let wait := if sp then msT 50 else cplTicks (fnOf s r.fn).cplTo
      let s := issueWaiting k (setPort k (fun p => { p with
        reqs := p.reqs.filter fun r => r.tag != tag, quar := p.quar ++ [(tag, s.tick + 2 * wait)] }) s)
      if r.drop then .next s
      else
        let s := setPort k (fun p => { p with cplTimeout := p.cplTimeout.count 0 }) s
        let s := if sp then s else setFn r.fn (fun f => { f with aer := f.aer ++ [.completionTimeout] }) s
        .next (readFailed r s)

def execTagQuarantineEnd (sp : Bool) (port : Fin 16) (tag : Nat) (s : State) : Host.Outcome State Fault Refusal :=
  .next (issueWaiting (pcKey sp port.val)
    (setPort (pcKey sp port.val) (fun p => { p with quar := p.quar.filter fun q => !(q.1 == tag && decide (q.2 ≤ s.tick)) }) s))

/-! ## Selection (R317 to R323, R428) -/

/-- HOST_SCHEDULER_SELECT: a slot that neither a lane's packet nor a recirculated one takes is the tree's (R27). -/
def execHostSchedulerSelect (k : Fin 16) (s : State) : Host.Outcome State Fault Refusal :=
  if !setActive s || pipeLost s k.val || !s.pwr.released || slotTaken s k.val 2 then .next s
  else
    let s := (objectsOn s k.val).foldl (fun s n => pumpObj n s) s
    match orphanLeaf s k.val with
    | some (leaf, p) =>
      let s := { s with tm := { s.tm with leafQ := s.tm.leafQ.upd leaf (·.drop 1) } }
      .next (setPkt p (fun x => { x with place := .arrival, stamp := s.time.now }) (consumeTx (pkt s p) s))
    | none =>
      match selectFrom (2 ^ 36) (kRoot k.val) s with
      | (none, s) => .next s
      | (some leaf, s) =>
        match leafQueue s leaf with
        | [] => .next s
        | p :: _ => .next (takeSelected leaf p s)


end Sys2Proof.Machine
end

