-- ==== Sys2Proof/Machine/KilnRows.lean ====
section
/-! DEFINITION. Kiln's rows: steps, tests, copies and drains, the start-up test, the failure policy and their commands (R570 to
R595). -/
namespace Sys2Proof.Machine

/-! ## Results -/

/-- A slice has a result (R594). -/
def kilnResult (slice : Nat) (pass : Bool) (s : State) : State :=
  { s with kiln := { s.kiln with
    passes := if pass then satAdd 32 s.kiln.passes 1 else s.kiln.passes
    fails := if pass then s.kiln.fails else satAdd 32 s.kiln.fails 1
    lastSlice := slice, lastResult := if pass then 1 else 2 } }

/-- A physical bank or buffer slice is retired; it had been the spare, or has been replaced by it. -/
def retirePhys (slice : Nat) (s : State) : State :=
  let s := setRot slice (fun r => { r with retired := unitOf slice :: r.retired }) s
  { s with kiln := { s.kiln with gone := s.kiln.gone ++ [slice] } }

/-- BANK_RETIRED where the retired unit served no logical one: LOGICAL is free (log 5). -/
def postSpareRetired (slice : Nat) (s : State) : State := postBankRetired slice (drawn 4 s) (useDraw s)

/-- A failing bank or buffer slice that serves a logical unit leaves it to the spare. -/
def Rot.replace (r : Rot) (b sp : Nat) : Rot := { r with map := r.map.put b sp, spare := none }

/-- The test of a slice that KILN_RUN asked for has a result: it is posted (R592). -/
def runResult (slice : Nat) (fail : Option (Nat × Nat)) (s : State) : State :=
  if s.kiln.runs.contains slice then
    postKiln slice false false false fail { s with kiln := { s.kiln with runs := s.kiln.runs.filter (· != slice) } }
  else s

/-! ## The start-up test (R587) -/

/-- A unit of a rotation that was retired before stays out of use. -/
def outAgain (slice : Nat) (s : State) : State :=
  let u := unitOf slice
  setRot slice (fun r =>
    let r := { r with retired := u :: r.retired }
    if r.spare == some u then { r with spare := none }
    else match r.spare, r.logicalOf (logicalCount slice) u with
      | some sp, some b => r.replace b sp
      | _, _ => r) s

/-- Every rotation is as at the release of region resets, less what has been retired since power-on of AO (R577, R579, R587). -/
def rotationsReset (s : State) : State :=
  let s := { s with kiln := { s.kiln with
    banks := [], buf := { spare := some 8 }, queue := [], core := none, ways := [], asked := [], runs := [] } }
  let s := s.kiln.gone.foldl (fun s g => outAgain g s) s
  s.kiln.blocks.foldl (fun s b =>
    if b / 4096 < 2 then setRot b (fun r => { r with lost := unitOf b :: r.lost }) s else s) s

/-- A slice fails the start-up test. -/
def startUpFail (slice : Nat) (fail : Nat × Nat) (s : State) : State :=
  let s := kilnResult slice false s
  if slice / 4096 < 2 then
    let u := unitOf slice
    let r := rotOf s slice
    if r.spare == some u then
      postSpareRetired slice (retirePhys slice (setRot slice (fun r => { r with spare := none })
        (postKiln slice false true false (some fail) s)))
    else match r.logicalOf (logicalCount slice) u with
      | none => s
      | some b =>
        match r.spare with
        | some sp => postBankRetired slice b (retirePhys slice (setRot slice (fun r => r.replace b sp)
            (postKiln slice false true false (some fail) s)))
        | none => lastingLogical slice b false (postKiln slice false true (!retires s slice) (some fail) s)
  else lastingBlock slice false (postKiln slice false true (!retires s slice) (some fail) s)

/-- The slices there are (R572). -/
def sliceExists (slice : Nat) : Bool :=
  decide (slice % 4096 < [272, 9, 80, 64, 16, 8, 4, 4, 16, 8, 16].getD (slice / 4096) 0)

/-- The start-up test overwrites the first GiB of every HBM stack that is not retired (R46, R587). -/
def stacksOverwritten (retired : List Nat) (m : Hbm) : Hbm :=
  [0, 1, 2, 3].foldl (fun m n => if retired.contains (sliceId 7 n) then m else Memory.overwrite n m) m

/-- The slices that pass the start-up test are counted; the last of them is storage port 15. -/
def startUpPasses (n : Nat) (s : State) : State :=
  { s with kiln := { s.kiln with
    passes := satAdd 32 s.kiln.passes n, lastSlice := sliceId 10 15, lastResult := 1 } }

/-- START_UP_TEST: every slice that is not retired is tested; `failed` lists those that fail, with the address and the pass of their
first failure. -/
def execStartUpTest (failed : List (Nat × Nat × Nat)) (s : State) : Host.Outcome State Fault Refusal :=
  if s.pwr.stage != 9 || !s.fw.accepted || s.kiln.holding then .next s
  else
    let s := rotationsReset { s with hbm := stacksOverwritten s.kiln.blocks s.hbm }
    let tested := 497 - s.kiln.blocks.length - s.kiln.gone.length
    let bad := failed.filter fun f => sliceExists f.1 && !s.kiln.blocks.contains f.1 && !s.kiln.gone.contains f.1
    let s := startUpPasses (tested - bad.length) s
    let s := bad.foldl (fun s f =>
      if s.kiln.blocks.contains f.1 || s.kiln.gone.contains f.1 then s else startUpFail f.1 f.2 s) s
    if s.kiln.holding then .next s else .next { s with pwr := { s.pwr with stage := 10 } }

/-! ## The resource a slice belongs to (R575, R582) -/

/-- Two slices are tested one at a time: banks of one pipeline, the buffer's slices, cores, or ways of one pipeline. -/
def sameResource (a b : Nat) : Bool :=
  a / 4096 == b / 4096 &&
    (match a / 4096 with
     | 0 => a / 17 == b / 17
     | 1 => true
     | 2 => true
     | 3 => a % 4096 / 4 == b % 4096 / 4
     | _ => a == b)

/-- A targeted test of the resource is queued. -/
def queuedFor (s : State) (slice : Nat) : Bool := s.kiln.queue.any (sameResource slice)

/-! ## Moving a bank or buffer slice (R575 to R578, R583) -/

/-- The units swap: the logical unit is served by the spare, and the unit it had left is the spare, or is tested (R575, R583). -/
def switchRot (slice : Nat) (s : State) : State :=
  let r := rotOf s slice
  match r.move, r.spare with
  | some m, some sp =>
    let p := siblingOf slice m.phys
    let test := m.targeted || s.kiln.asked.any fun a => a.1 == p
    let s := setRot slice (fun r => { r with
      map := r.map.put m.logical sp, next := if test then r.next else (m.logical + 1) % logicalCount slice,
      spare := if test then none else some m.phys, stage := if test then 3 else 0, move := if test then some m else none }) s
    let s := if m.targeted && slice / 4096 == 0 then mendBank (slice / 17) m.logical none s else s
    if test then testStarts p s else s
  | _, _ => s

/-- A logical unit's contents begin to move into the spare; a bank that no set places switches at once (R575, R578). -/
def beginMove (slice b p : Nat) (targeted : Bool) (s : State) : State :=
  let at_ := if slice / 4096 == 1 then some (s.tick + msT 1) else none
  let s := setRot slice (fun r => { r with
    stage := 2, move := some { logical := b, phys := p, targeted := targeted, copyAt := at_ } }) s
  if slice / 4096 == 0 && !bankPlaced s (slice / 17) b then switchRot slice s else s

/-- The test of the spare passed: the next logical unit moves. -/
def sparePassed (slice : Nat) (s : State) : State :=
  let r := rotOf s slice
  beginMove slice r.next (r.physOf r.next) false s

/-- The spare's test begins. -/
def testSpare (slice sp : Nat) (s : State) : State :=
  testStarts (siblingOf slice sp) (setRot slice (fun r => { r with stage := 1, move := none }) s)

/-! ## Scheduled steps (R575, R578, R580, R581) -/

/-- A bank or buffer step of the rotation that holds `slice`, where an instant of its period has come. -/
def rotStep (slice cls k : Nat) (s : State) : State :=
  let r := rotOf s slice
  if !kilnDue s cls k r.last then s
  else
    let s := setRot slice (fun r => { r with last := kilnInstants s cls k }) s
    if r.stage != 0 || queuedFor s slice then s
    else match r.spare with
      | some sp => testSpare slice sp s
      | none => s

def execKilnBankStep (k : Fin 16) (s : State) : Host.Outcome State Fault Refusal := .next (rotStep (17 * k.val) 0 k.val s)

def execKilnBufferStep (s : State) : Host.Outcome State Fault Refusal := .next (rotStep (sliceId 1 0) 1 0 s)

/-- KILN_BUFFER_COPY: 1 ms after the redirection the remaining cells are copied. -/
def execKilnBufferCopy (s : State) : Host.Outcome State Fault Refusal :=
  match s.kiln.buf.move with
  | some m =>
    match m.copyAt with
    | some t =>
      if t ≤ s.tick && s.kiln.buf.stage == 2 then
        .next { s with kiln := { s.kiln with buf := { s.kiln.buf with move := some { m with copyAt := none } } } }
      else .next s
    | none => .next s
  | none => .next s

/-- KILN_COPY_DONE: the copy ends and the mapping switches. -/
def execKilnCopyDone (slice : Nat) (s : State) : Host.Outcome State Fault Refusal :=
  let r := rotOf s slice
  match r.move with
  | some m =>
    if slice / 4096 < 2 && sliceExists slice && r.stage == 2 && m.copyAt.isNone && s.fw.ready then .next (switchRot slice s)
    else .next s
  | none => .next s

/-- The instants of the cipher cores' schedule up to now are passed. -/
def coreInstant (s : State) : State := { s with kiln := { s.kiln with coreLast := kilnInstants s 2 0 } }

/-- Core c stops taking operations for its test; the core after it is the next one. -/
def coreStops (c : Nat) (s : State) : State :=
  { s with kiln := { s.kiln with core := some (c, false, false, s.tick), coreNext := (c + 1) % 80 } }

/-- The next core that a scheduled step takes, in ascending order. -/
def nextCore (s : State) : Option Nat :=
  ((List.range 80).map fun i => (s.kiln.coreNext + i) % 80).find? fun c => coreUsable s c

def execKilnCipherStep (s : State) : Host.Outcome State Fault Refusal :=
  if !kilnDue s 2 0 s.kiln.coreLast then .next s
  else
    let s := coreInstant s
    if s.kiln.core.isSome || queuedFor s (sliceId 2 0) then .next s
    else match nextCore s with
      | some c => .next (coreStops c s)
      | none => .next s

/-- KILN_CORE_DRAINED: the stopped core holds no operation, and its test begins. -/
def execKilnCoreDrained (s : State) : Host.Outcome State Fault Refusal :=
  match s.kiln.core with
  | some (c, false, t, at_) =>
    if (coreOps s c).isEmpty then .next (testStarts (sliceId 2 c) { s with kiln := { s.kiln with core := some (c, true, t, at_) } })
    else .next s
  | _ => .next s

/-- A KILN_RUN whose slice never comes under test is answered. -/
def runSkipped (slice : Nat) (s : State) : State :=
  match s.kiln.asked.find? fun a => a.1 == slice with
  | none => s
  | some (_, f, c) =>
    let left := s.kiln.asked.filter fun a => a.1 != slice
    finishExec f c stTimeout 0 { s with kiln := { s.kiln with asked := left } }

def execKilnCipherDrainTimeout (s : State) : Host.Outcome State Fault Refusal :=
  match s.kiln.core with
  | some (c, false, false, at_) =>
    if at_ + msT 2 ≤ s.tick && !(coreOps s c).isEmpty then
      .next (runSkipped (sliceId 2 c) (kilnErr 10 1 { s with kiln := { s.kiln with core := none } }))
    else .next s
  | _ => .next s

/-- The next way of a pipeline that a scheduled step takes. -/
def nextWay (s : State) (k : Nat) : Option Nat :=
  ((List.range 4).map fun i => (s.kiln.wayNext.get k + i) % 4).find? fun w => wayUsable s (k * 4096 + w)

/-- A way stops allocating (R581, R583). -/
def stopWay (k w : Nat) (targeted : Bool) (s : State) : State :=
  wayEmptied k { s with kiln := { s.kiln with ways := s.kiln.ways.put k (w, targeted, s.tick) } }

def execKilnFragWayStep (k : Fin 16) (s : State) : Host.Outcome State Fault Refusal :=
  if !kilnDue s 3 k.val (s.kiln.wayLast.get k.val) then .next s
  else
    let s := { s with kiln := { s.kiln with wayLast := s.kiln.wayLast.put k.val (kilnInstants s 3 k.val) } }
    if s.kiln.ways.has k.val || queuedFor s (sliceId 3 (4 * k.val)) then .next s
    else match nextWay s k.val with
      | some w => .next (stopWay k.val w false { s with kiln := { s.kiln with wayNext := s.kiln.wayNext.put k.val ((w + 1) % 4) } })
      | none => .next s

/-- KILN_WAY_DRAIN_TIMEOUT: a scheduled step is skipped; entries that keep a targeted test from its way are freed (R583). -/
def execKilnWayDrainTimeout (k : Fin 16) (s : State) : Host.Outcome State Fault Refusal :=
  let (w, targeted, at_) := s.kiln.ways.get k.val
  let live := wayLive s k.val w
  if !s.kiln.ways.has k.val || live.isEmpty || s.tick < at_ + msT 10 then .next s
  else if targeted then .next (live.foldl (fun s e => freeFrag e s) s)
  else .next (runSkipped (sliceId 3 (4 * k.val + w)) (kilnErr 10 1 { s with kiln := { s.kiln with ways := s.kiln.ways.del k.val } }))

/-! ## Targeted tests (R582, R583) -/

/-- A scheduled step of the rotation that holds `slice` gives way (R582). -/
def abandonRot (slice : Nat) (s : State) : State :=
  let r := rotOf s slice
  let u := match r.stage, r.move with
    | 1, _ => r.spare
    | 3, some m => some m.phys
    | _, _ => none
  let s := match u with
    | some u => { s with kiln := { s.kiln with runs := s.kiln.runs.filter (· != siblingOf slice u) } }
    | none => s
  setRot slice (fun r => { r with stage := 0, move := none, spare := if r.stage == 3 then u else r.spare }) s

/-- The targeted test or KILN_RUN of a bank or buffer slice begins: a live one moves into the spare first. -/
def rotTest (slice : Nat) (targeted : Bool) (s : State) : State :=
  let u := unitOf slice
  let r := rotOf s slice
  if r.spare == some u then
    if targeted then
      setRot slice (fun r => { r with stage := 3, spare := none, move := some { logical := 16, phys := u, targeted := true } }) s
    else testSpare slice u s
  else match r.logicalOf (logicalCount slice) u with
    | none => s
    | some b =>
      if r.spare.isSome then beginMove slice b u targeted s
      else if slice / 4096 == 0 then mendBank (slice / 17) b none s
      else s

/-- A targeted test of the resource is in progress. -/
def targetedBusy (s : State) (slice : Nat) : Bool :=
  match slice / 4096 with
  | 2 => (match s.kiln.core with | some (_, _, t, _) => t | none => false)
  | 3 => s.kiln.ways.has (slice % 4096 / 4) && (s.kiln.ways.get (slice % 4096 / 4)).2.1
  | _ => (match (rotOf s slice).move with | some m => m.targeted | none => false)

/-- Something is in progress in the resource. -/
def resourceBusy (s : State) (slice : Nat) : Bool :=
  match slice / 4096 with
  | 2 => s.kiln.core.isSome
  | 3 => s.kiln.ways.has (slice % 4096 / 4)
  | _ => (rotOf s slice).stage != 0

/-- The test of a slice of classes 0 to 3 begins. -/
def beginTest (slice : Nat) (targeted : Bool) (s : State) : State :=
  let i := slice % 4096
  match slice / 4096 with
  | 2 =>
    let runs := match s.kiln.core with | some (c, _, _, _) => s.kiln.runs.filter (· != sliceId 2 c) | none => s.kiln.runs
    { s with kiln := { s.kiln with core := some (i, targeted, targeted, s.tick), runs := runs } }
  | 3 =>
    let old := sliceId 3 (4 * (i / 4) + (s.kiln.ways.get (i / 4)).1)
    let s := if s.kiln.ways.has (i / 4) then { s with kiln := { s.kiln with runs := s.kiln.runs.filter (· != old) } } else s
    stopWay (i / 4) (i % 4) targeted s
  | _ => rotTest slice targeted (abandonRot slice s)

/-- TARGETED_TEST_START: the first queued test of its resource starts; where none is queued, one that KILN_RUN asked for. -/
def execTargetedTestStart (slice : Nat) (s : State) : Host.Outcome State Fault Refusal :=
  if !s.fw.ready || targetedBusy s slice then .next s
  else if s.kiln.queue.find? (sameResource slice) == some slice then
    .next (beginTest slice true { s with kiln := { s.kiln with queue := s.kiln.queue.filter (· != slice) } })
  else if s.kiln.asked.any (fun a => a.1 == slice) && !queuedFor s slice && !resourceBusy s slice then
    .next (beginTest slice false s)
  else .next s

/-! ## The end of a test (R575, R583) -/

/-- The spare's test ends. -/
def spareDone (slice : Nat) (fail : Option (Nat × Nat)) (s : State) : State :=
  let s := kilnResult slice fail.isNone s
  let s := runResult slice fail s
  match fail with
  | none => sparePassed slice s
  | some _ => postSpareRetired slice (retirePhys slice (setRot slice (fun r => { r with stage := 0, spare := none }) s))

/-- The test of a bank or slice that has moved out ends. -/
def movedDone (slice : Nat) (m : Move) (fail : Option (Nat × Nat)) (s : State) : State :=
  let s := kilnResult slice fail.isNone s
  let s := if m.targeted then postKiln slice true false false fail s else runResult slice fail s
  match fail with
  | none => setRot slice (fun r => { r with stage := 0, move := none, spare := some m.phys }) s
  | some _ =>
    let s := retirePhys slice (setRot slice (fun r => { r with stage := 0, move := none, spare := none }) s)
    if m.logical < 16 then postBankRetired slice m.logical s else postSpareRetired slice s

/-- A lasting fault of a block of classes 2 to 10; the namespaces of a storage port that it retires fail (R588). -/
def blockFails (slice : Nat) (s : State) : State :=
  let s := lastingBlock slice true s
  if slice / 4096 == 10 && s.kiln.blocks.contains slice then failPort (slice % 4096) s else s

/-- The test of a core or way ends: a failure goes to the policy (R583, R587). -/
def blockTested (slice : Nat) (targeted : Bool) (fail : Option (Nat × Nat)) (s : State) : State :=
  let s := kilnResult slice fail.isNone s
  let ran := s.kiln.runs.contains slice
  let s := { s with kiln := { s.kiln with runs := s.kiln.runs.filter (· != slice) } }
  match fail with
  | none => if targeted || ran then postKiln slice targeted false false none s else s
  | some f => blockFails slice (postKiln slice targeted false (!retires s slice) (some f) s)

/-- KILN_TEST_DONE: the test under way of a slice ends; `fail`: the address and the pass of the first failure. -/
def execKilnTestDone (slice : Nat) (fail : Option (Nat × Nat)) (s : State) : Host.Outcome State Fault Refusal :=
  let i := slice % 4096
  if !s.fw.ready || !sliceExists slice then .next s
  else match slice / 4096 with
  | 2 =>
    match s.kiln.core with
    | some (c, true, t, _) =>
      if c == i then .next (blockTested slice t fail { s with kiln := { s.kiln with core := none } }) else .next s
    | _ => .next s
  | 3 =>
    let w := s.kiln.ways.get (i / 4)
    if s.kiln.ways.has (i / 4) && w.1 == i % 4 && (wayLive s (i / 4) (i % 4)).isEmpty then
      .next (blockTested slice w.2.1 fail { s with kiln := { s.kiln with ways := s.kiln.ways.del (i / 4) } })
    else .next s
  | 0 | 1 =>
    let r := rotOf s slice
    if r.stage == 1 && r.spare == some (unitOf slice) then .next (spareDone slice fail s)
    else match r.move with
      | some m => if r.stage == 3 && m.phys == unitOf slice then .next (movedDone slice m fail s) else .next s
      | none => .next s
  | _ => if s.kiln.runs.contains slice then .next (blockTested slice false fail s) else .next s

/-! ## Errors (R571, R583) -/

/-- PATROL_SCRUB: what the scrub's reads found (R570, R571). -/
def execPatrolScrub (corrected uncorrectable : Nat) (s : State) : Host.Outcome State Fault Refusal :=
  .next (kilnErr 4 uncorrectable (kilnErr 3 corrected s))

/-- CIPHER_CORE_CHECK_ERROR: the core leaves service at once and its open operations go to other cores (R583). -/
def execCipherCoreCheckError (core : Fin 80) (s : State) : Host.Outcome State Fault Refusal :=
  let c := core.val
  if s.kiln.blocks.contains (sliceId 2 c) || (match s.kiln.core with | some (d, t, _, _) => d == c && t | none => false) then .next s
  else
    let n := (coreOps s c).length
    let s := queueTest (sliceId 2 c) (kilnErr 6 1 s)
    let s := { s with ciph := { s.ciph with
      bound := s.ciph.bound.map fun o => if o.core == some c then { o with core := none } else o } }
    .next ((List.range n).foldl (fun s _ => rebind s) s)

/-! ## Commands (R590 to R594) -/

/-- The slice under test, the stage of its test, and whether it is targeted (R594): banks first, then the buffer, the cores, the
ways and the tests of other blocks. -/
def kilnCurrent (s : State) : Option (Nat × Nat × Bool) :=
  let ofRot (rep : Nat) : Option (Nat × Nat × Bool) :=
    let r := rotOf s rep
    match r.stage, r.move with
    | 0, _ => none
    | st, some m => some (siblingOf rep m.phys, st, m.targeted)
    | st, none => r.spare.map fun u => (siblingOf rep u, st, false)
  let rots := ((List.range 16).map fun k => 17 * k) ++ [sliceId 1 0]
  let core := match s.kiln.core with | some (c, t, g, _) => some (sliceId 2 c, if t then 3 else 2, g) | none => none
  let way := (s.kiln.ways.head?).map fun e =>
    (sliceId 3 (4 * e.1 + e.2.1), if (wayLive s e.1 e.2.1).isEmpty then 3 else 2, e.2.2.1)
  let other := (s.kiln.runs.find? fun r => r / 4096 > 3).map fun r => (r, 3, false)
  (((rots.findSome? ofRot).or core).or way).or other

def execKilnStatus (c : CmdPkt) (s : State) : Host.Outcome State Fault Refusal :=
  .next (runCmd 0x0901 .V false always (fun _ _ => none) quiet (fun _ s =>
    let cur := kilnCurrent s
    let k := s.kiln
    done s ((match cur with
      | some (sl, st, t) => fld 127 112 sl + fld 111 110 st + fld 109 109 (bit t)
      | none => fld 127 112 0xFFFF)
      + fld 103 96 k.queue.length + fld 95 64 k.passes + fld 63 32 k.fails + fld 31 16 k.lastSlice + fld 15 14 k.lastResult)) c s)

/-- The least step period of a class (R591). -/
def leastPeriod (cls : Nat) : Nat := [1000, 10000, 100, 1000].getD cls 0

/-- R591. Instants count anew under the new period. -/
def execKilnSchedule (c : CmdPkt) (s : State) : Host.Outcome State Fault Refusal :=
  .next (runCmd 0x0902 .A false always
    (fun c _ =>
      let cls := c.p 0 1
      let p := c.p 4 4
      firstOf [(cls > 3, stBadParam), (p != 0 && (p < leastPeriod cls || p > 86400000), stBadParam)]) quiet
    (fun c s =>
      let cls := c.p 0 1
      let s := { s with kiln := { s.kiln with periods := s.kiln.periods.put cls (c.p 4 4) } }
      let ks := List.range 16
      let k := s.kiln
      let s := match cls with
        | 0 => { s with kiln := { k with banks := ks.foldl (fun m i => m.upd i fun r => { r with last := kilnInstants s 0 i }) k.banks } }
        | 1 => { s with kiln := { k with buf := { k.buf with last := kilnInstants s 1 0 } } }
        | 2 => { s with kiln := { k with coreLast := kilnInstants s 2 0 } }
        | _ => { s with kiln := { k with wayLast := ks.foldl (fun m i => m.put i (kilnInstants s 3 i)) k.wayLast } }
      done s 0) c s)

/-- A slice that KILN_RUN can take out of service: it is not retired, and a live bank or buffer slice has a spare to move into. -/
def runnable (s : State) (slice : Nat) : Bool :=
  if s.kiln.blocks.contains slice then false
  else if slice / 4096 < 2 then
    let r := rotOf s slice
    let u := unitOf slice
    !r.retired.contains u && (r.spare.isSome || r.stage != 0)
      && (match r.logicalOf (logicalCount slice) u with | some b => !r.lost.contains b | none => true)
  else true

/-- KILN_RUN (R592). The reply is written when the test starts. -/
def execKilnRun (c : CmdPkt) (s : State) : Host.Outcome State Fault Refusal :=
  .next (runCmd 0x0903 .A true (fun _ s => s.sec.lc == 1 || s.sec.lc == 3)
    (fun c s =>
      let sl := c.p 0 2
      firstOf [(!sliceExists sl, stBadParam), (sl / 4096 ≥ 4 && setActive s, stBadState), (!runnable s sl, stBadState)]) quiet
    (fun c s =>
      let sl := c.p 0 2
      if sl / 4096 ≥ 4 then done { s with kiln := { s.kiln with runs := sl :: s.kiln.runs } } 0
      else
        let s := { s with kiln := { s.kiln with asked := s.kiln.asked ++ [(sl, c.fn, c.sec)] } }
        if resourceBusy s sl || queuedFor s sl then (s, none) else (beginTest sl false s, none)) c s)

/-- The hold by blocks of a class ends once its policy is RETIRE (R590); FW_READY will report the end of a HOLD (R126). -/
def endHold (s : State) : State :=
  let free := s.kiln.holds.filter fun h => retires s h
  if free.isEmpty then s
  else
    let s := { s with kiln := { s.kiln with holds := s.kiln.holds.filter fun h => !free.contains h } }
    let s := free.foldl (fun s h => if h / 4096 < 2 then retireLogical h (unitOf h) s else retireBlock h s) s
    if s.kiln.holding then s
    else
      let s := { s with fw := { s.fw with cause := 3 } }
      if s.kiln.holdService then
        regionsReleased (cacheInvalidate (setsEmptied { s with kiln := { s.kiln with holdService := false } }))
      else { s with pwr := { s.pwr with stage := 10, released := true } }

/-- R593, R590. -/
def execFailPolicy (c : CmdPkt) (s : State) : Host.Outcome State Fault Refusal :=
  .next (runCmd 0x0904 .A true always (fun c _ => firstOf [(c.p 0 1 > 10, stBadParam), (c.p 1 1 > 1, stBadParam)]) quiet
    (fun c s => done (endHold { s with kiln := { s.kiln with policy := s.kiln.policy.put (c.p 0 1) (c.p 1 1 == 1) } }) 0) c s)

end Sys2Proof.Machine
end

