-- ==== Sys2Proof/Machine/SetRows.lean ====
section
/-! DEFINITION. Sets, firings and table commands (chapters 05 and 08). -/
namespace Sys2Proof.Machine

/-! ## Loading (R146, R148) -/

/-- The set that an image makes, before its initial entries. -/
def imageSet (b : List Byte) (i : SetInit) : SetSlot :=
  { valid := true, secs := sectionsOf b, setId := rd b 12 4, podGen := rd b 24 4, drainLimit := rd b 28 4, measure := sha3 b,
    metas := i.metas, handlers := i.handlers }

/-- The first check of R146 that an image fails, where the shadow accepts a load. -/
def loadCheck (s : State) (b : List Byte) (i : SetInit) : Refuse :=
  let x := imageSet b i
  if !headerOk b || !keyTrusted s 16 ((b.drop 96).take 1952)
      || !mlDsaVerify ((b.drop 96).take 1952) (b.take 2048) ((b.drop 2048).take 3309)
      || sha3 (b.drop 5376) != BitVec.ofNat 256 (rd b 64 32) then some (stSigFail, 0)
  else if s.fw.version < rd b 32 4 then some (stBadState, 0)
  else if !directoryOk b then some (stBadParam, 0)
  else if usesRetired s x then some (stBadParam, 0x0904)
  else if !sectionsOk x || (placeInits x i).isNone || !countersFit x i || !metasFit x i then some (stBadParam, 0)
  else if !ownershipOk x then some (stConflict, 0)
  else if ownsRetired s x then some (stConflict, 0x0904)
  else if setActive s && !placedApart x (activeSet s) then some (stConflict, 0)
  else none

/-- SET_LOAD. RDATA (log 13): SET_ID in [31:0], the first 8 bytes of the measurement in [127:64]. -/
def execSetLoad (c : CmdPkt) (init : SetInit) (s : State) : Host.Outcome State Fault Refusal :=
  .next (runCmd 0x0401 .A false always
    (fun c s =>
      let st := shadowState s
      if !c.indirect then some (stBadParam, 0)
      else if st == 1 || st == 4 then some (stBusy, 0)
      else if st == 3 then some (stBadState, 0)
      else loadCheck s (c.ind.getD []) init) quiet
    (fun c s =>
      let b := c.ind.getD []
      let x := (placeInits (imageSet b init) init).getD {}
      let s := updSet (s.sets.epoch + 1) (fun _ => x) s
      let s := { s with sec := { s.sec with meas := s.sec.meas.put 3 x.measure } }
      done s (fld 31 0 x.setId + fld 127 64 x.measure.toNat)) c s)

/-! ## Firing (R159, R163, R165, R172) -/

/-- The instant in PARAM bytes 0 to 15 and the pod-wide flag in byte 16 (log 13). -/
def fireInstant (c : CmdPkt) : DevTime := DevTime.ofFull (c.p 0 16)

/-- The payload of FIRE_ANNOUNCE and FIRE_CANCEL (R543). -/
def firePayload (t : DevTime) (target gen : Nat) : List Byte := bytesOf 16 t.full ++ bytesOf 2 target ++ bytesOf 4 gen

/-- SET_FIRE. RDATA (log 13): the epoch that the firing will set in [31:16]. -/
def execSetFire (c : CmdPkt) (s : State) : Host.Outcome State Fault Refusal :=
  .next (runCmd 0x0402 .A false always
    (fun c s =>
      let t := fireInstant c
      let d := DevTime.diff t s.time.now
      let st := shadowState s
      let pod := c.p 16 1 == 1
      if !t.valid || c.p 0 16 != t.full || c.p 16 1 > 1 then some (stBadParam, 0)
      else if st == 4 then some (stBusy, 0)
      else if st != 2 then some (stBadState, 0)
      else if d < (nsU 10000 : Int) then some (stBadState, 0)
      else if d > (nsU 1000000000000 : Int) then some (stBadParam, 0)
      else if s.time.untrusted then some (stBadState, 0x0506)
      else if pod && (!s.peal.member || (shadowSet s).podGen == 0 || d < (nsU 50000000 : Int)) then some (stBadState, 0)
      else none) quiet
    (fun c s =>
      let t := fireInstant c
      let pod := c.p 16 1 == 1
      let target := (s.sets.epoch + 1) % 65536
      let s := { s with sets := { s.sets with arm := some { instant := t, target := target, pod := pod, initiator := pod } } }
      let s := if pod then { s with peal := { s.peal with
          announce := some (firePayload t target (shadowSet s).podGen), fireMap := [(s.peal.node, 1)] } } else s
      done s (fld 31 16 target)) c s)

/-- SET_CANCEL; on the initiator of a pod-wide firing FIRE_CANCEL is queued (R563). -/
def execSetCancel (c : CmdPkt) (s : State) : Host.Outcome State Fault Refusal :=
  .next (runCmd 0x0403 .A false always
    (fun _ s => firstOf [(s.sets.arm.isNone || nearFiring s, stBadState)]) quiet
    (fun _ s =>
      let s := match s.sets.arm with
        | some a => if a.pod && a.initiator then
            { s with peal := { s.peal with
              announce := none
              cancel := some (firePayload a.instant a.target (shadowSet s).podGen) } } else s
        | none => s
      done (withdraw 0 s) 0) c s)

/-- SET_STATUS. -/
def execSetStatus (c : CmdPkt) (s : State) : Host.Outcome State Fault Refusal :=
  .next (runCmd 0x0404 .V false always (fun _ _ => none) quiet
    (fun _ s =>
      let old := match s.sets.drain with | some e => min (epochCount s e) (2 ^ 32 - 1) | none => 0
      done s (fld 127 96 old + fld 95 64 (if setActive s then (activeSet s).setId else 0)
        + fld 63 32 (if (shadowSet s).valid then (shadowSet s).setId else 0) + fld 31 16 s.sets.epoch + fld 4 2 (shadowState s)
        + fld 1 1 (bit (setActive s)) + fld 0 0 (bit (setActive s && s.sets.epoch % 2 == 0)))) c s)

/-- A feature and the resource it is to be enabled on suit each other (R150, R152); one that R150 permits on no such resource is a
parameter out of range (log 90). -/
def featureOk (kind idx f : Nat) : Bool :=
  (kind == 1 && 1 ≤ idx && idx < 8 && f == 2) || (kind == 2 && idx < 1024 && (f == 3 || f == 4))

/-- FEATURE_ENABLE. With no set active no table gives the resource to the feature, which is a conflict (log 90).
FEATURE in PARAM bytes 0 to 1, KIND in byte 2, INDEX in bytes 4 to 5, enable in byte 6 bit 0 (log 13). -/
def execFeatureEnable (c : CmdPkt) (s : State) : Host.Outcome State Fault Refusal :=
  .next (runCmd 0x0405 .A false always
    (fun c s =>
      let f := c.p 0 2
      if !featureOk (c.p 2 1) (c.p 4 2) f || c.p 6 1 > 1 then some (stBadParam, 0)
      else if !setActive s || ownerFeature (activeSet s) (c.p 2 1) (c.p 4 2) != f then some (stConflict, 0)
      else none) quiet
    (fun c s =>
      let r := (c.p 2 1, c.p 4 2, c.p 0 2)
      let rest := s.sets.feats.filter (· != r)
      let s := { s with sets := { s.sets with feats := if c.p 6 1 == 1 then r :: rest else rest } }
      done (if c.p 6 1 == 0 && r.1 == 1 then { s with strobe := s.strobe.del r.2.1 } else s) 0) c s)

/-- FIRING_EFFECTIVE. -/
def execFiringEffective (s : State) : Host.Outcome State Fault Refusal :=
  match s.sets.arm with
  | none => .next s
  | some a => if s.pwr.released && s.time.now.reached a.instant then .next (fire a s) else .next s

/-- STRADDLE_WINDOW_CLOSE. -/
def execStraddleWindowClose (s : State) : Host.Outcome State Fault Refusal :=
  if s.sets.straddle.isSome && decide (s.sets.straddleBy ≤ s.tick) then .next { s with sets := { s.sets with straddle := none } }
  else .next s

/-- SET_DRAIN_END. -/
def execSetDrainEnd (s : State) : Host.Outcome State Fault Refusal :=
  match s.sets.drain with
  | none => .next s
  | some e => if s.pwr.released && s.sets.straddle.isNone && epochCount s e == 0 then .next (endDrain e 0 false s) else .next s

/-- DRAIN_LIMIT_EXPIRY. -/
def execDrainLimitExpiry (s : State) : Host.Outcome State Fault Refusal :=
  match s.sets.drain with
  | none => .next s
  | some e =>
    if s.tick < s.sets.drainBy || epochCount s e == 0 then .next s
    else .next (endDrain e (epochPkts s e).length true (dropEpoch e s))

/-! ## Table commands (R157, R158, R302 to R304) -/

/-- The set that SET 0 or 1 names, and its refusal. -/
def tableSet (s : State) (which : Nat) (write : Bool) : Except Nat (Nat × Option SetSlot) :=
  let st := shadowState s
  if write && nearFiring s then .error stBadState
  else if which == 0 then .ok (s.sets.epoch, if setActive s then some (activeSet s) else none)
  else if st == 0 then .error stBadState
  else if st == 1 then .error stBusy
  else if write && st == 3 then .error stBadState
  else if write && st == 4 then .error stBusy
  else .ok (s.sets.epoch + 1, some (shadowSet s))

/-- What a table command is about: epoch of the set, instance, table, set and descriptor. -/
structure TblRef where
  epoch : Nat
  inst : Nat
  table : Nat
  set : SetSlot
  desc : Nat

/-- Steps 1 to 3 of R304: fields `set` at byte `at_`, instance and table after it; reserved bytes from `res` on are zero. -/
def tblRef (s : State) (c : CmdPkt) (at_ res : Nat) (write : Bool) : Except Nat TblRef :=
  let which := c.p at_ 1
  let inst := c.p (at_ + 1) 1
  if which > 1 || (inst > 15 && inst != 0xFF) || c.p res (48 - res) != 0 then .error stBadParam
  else
    match tableSet s which write with
    | .error e => .error e
    | .ok (_, none) => .error stNotFound
    | .ok (ep, some x) =>
      match tableOf x inst (c.p (at_ + 2) 1) with
      | none => .error stNotFound
      | some d => if tKind d == 4 || tKind d == 5 then .error stBadParam
                  else .ok { epoch := ep, inst := inst, table := c.p (at_ + 2) 1, set := x, desc := d }

/-- A key, its prefix length, its sub-table and its probe sequence. -/
structure TblKey where
  key : List Byte
  plen : Nat
  sub : Option Nat × Nat × Nat
  seq : List Nat

/-- The key and prefix length suit the table (R304 step 4). -/
def tblKey (r : TblRef) (key : List Byte) (plen : Nat) : Except Nat TblKey :=
  match (if keyFits r.desc key plen then subOf r.desc plen else none) with
  | none => .error stBadParam
  | some sub =>
    let seq := seqOf r.desc sub key
    if tKind r.desc == 1 && seq.isEmpty then .error stBadParam else .ok { key := key, plen := plen, sub := sub, seq := seq }

/-- The key at the start of an indirect buffer, with its prefix length for LPM, and what follows it. -/
def bufKey (r : TblRef) (b : List Byte) : Except Nat (TblKey × List Byte) :=
  let w := tKeyWidth r.desc
  let lpm := tKind r.desc == 3
  if b.length < w + bit lpm then .error stBadParam
  else
    match tblKey r (b.take w) (if lpm then (b.getD w 0).toNat else 0) with
    | .error e => .error e
    | .ok k => .ok (k, b.drop (w + bit lpm))

/-- Key, ACTION and data of TBL_INSERT and TBL_MODIFY. -/
def bufEntry (r : TblRef) (b : List Byte) : Except Nat (TblKey × Nat × List Byte) :=
  match bufKey r b with
  | .error e => .error e
  | .ok (k, rest) =>
    let a := (rest.headD 0).toNat
    if rest.length < 1 + dataRoom r.desc || !actionFits r.set r.inst r.table a then .error stBadParam
    else .ok (k, a, (rest.drop 1).take (dataRoom r.desc))

/-- The place that holds a key. -/
def TblRef.find (r : TblRef) (k : TblKey) : Option Nat := findKey r.set r.inst r.desc k.seq k.key

/-- The first empty slot of a probe sequence, in no lost bank (R585). -/
def TblRef.free (s : State) (r : TblRef) (k : TblKey) : Option Nat :=
  freeHandle r.set r.inst r.desc (k.seq.filter fun h => !handleLost (if r.inst < 16 then lostBanks s r.inst else []) r.desc h)

/-- The handles of a table's entries, within a sub-table. -/
def TblRef.handles (r : TblRef) (lo n : Nat) : List Nat :=
  (r.set.entries.filterMap fun e =>
    if e.1 / 2 ^ 32 == tKey r.inst r.table 0 / 2 ^ 32 && lo ≤ e.1 % 2 ^ 32 && e.1 % 2 ^ 32 < lo + n then some (e.1 % 2 ^ 32) else none)

/-- OCCUPANCY, LONGEST_CHAIN and HOME_ROW of a refused insert (R303). -/
def fullRdata (r : TblRef) (k : TblKey) : Nat :=
  let rows := k.sub.2.2
  let per := tPerRow r.desc
  let hs := r.handles k.sub.2.1 (rows * per)
  let chain (h : Nat) : Nat :=
    let key := (r.set.entries.get (tKey r.inst r.table h)).key
    ((h - k.sub.2.1) / per + rows - crc32c (tSeedLo r.desc) key % rows) % rows + 1
  let home := if tKind r.desc == 1 then ofBytesBE k.key / per else crc32c (tSeedLo r.desc) k.key % rows
  let longest := if tKind r.desc == 1 then (if hs.isEmpty then 0 else 1) else hs.foldl (fun m h => max m (chain h)) 0
  fld 63 32 hs.length + fld 79 64 longest + fld 111 80 home

/-- A check's answer as a refusal. -/
def refuseOf {α : Type} (e : Except Nat α) (ok : α → Refuse) : Refuse :=
  match e with
  | .error st => some (st, 0)
  | .ok a => ok a

/-- An entry is written, or removed, in a set. -/
def writeTbl (r : TblRef) (h : Nat) (e : Option TEntry) (s : State) : State :=
  updSet r.epoch (fun x => clearBad r.inst r.desc h { x with entries := match e with
    | some e => x.entries.put (tKey r.inst r.table h) e
    | none => x.entries.del (tKey r.inst r.table h) }) s

/-- The reference and the entry of TBL_INSERT and TBL_MODIFY. -/
def insertArgs (s : State) (c : CmdPkt) : Except Nat (TblRef × TblKey × Nat × List Byte) :=
  match tblRef s c 12 15 true with
  | .error e => .error e
  | .ok r => match bufEntry r (c.ind.getD []) with
    | .error e => .error e
    | .ok (k, a, d) => if c.indirect then .ok (r, k, a, d) else .error stBadParam

/-- TBL_INSERT. -/
def execTblInsert (c : CmdPkt) (s : State) : Host.Outcome State Fault Refusal :=
  .next (runCmd 0x0301 .A false always
    (fun c s => refuseOf (insertArgs s c) fun (r, k, _, _) =>
      match r.find k with
      | some h => some (stBadState, fld 63 32 h)
      | none => if (TblRef.free s r k).isNone then some (stTableFull, fullRdata r k) else none) quiet
    (fun c s => match insertArgs s c with
      | .error _ => done s 0
      | .ok (r, k, a, d) =>
        match TblRef.free s r k with
        | none => done s 0
        | some h => done (writeTbl r h (some { hit := true, action := a, key := k.key, data := d, visited := 0 }) s) (fld 63 32 h)) c s)

/-- The reference and key of TBL_DELETE: prefix length in byte 3, key in bytes 4 to 43. -/
def deleteArgs (s : State) (c : CmdPkt) : Except Nat (TblRef × TblKey) :=
  match tblRef s c 0 44 true with
  | .error e => .error e
  | .ok r => match tblKey r (bytesOf (tKeyWidth r.desc) (c.p 4 40)) (c.p 3 1) with
    | .error e => .error e
    | .ok k => .ok (r, k)

/-- TBL_DELETE. -/
def execTblDelete (c : CmdPkt) (s : State) : Host.Outcome State Fault Refusal :=
  .next (runCmd 0x0302 .A false always
    (fun c s => refuseOf (deleteArgs s c) fun (r, k) => if (r.find k).isNone then some (stNotFound, 0) else none) quiet
    (fun c s => match deleteArgs s c with
      | .error _ => done s 0
      | .ok (r, k) => match r.find k with
        | none => done s 0
        | some h => done (writeTbl r h none s) 0) c s)

/-- TBL_MODIFY. -/
def execTblModify (c : CmdPkt) (s : State) : Host.Outcome State Fault Refusal :=
  .next (runCmd 0x0303 .A false always
    (fun c s => refuseOf (insertArgs s c) fun (r, k, _, _) => if (r.find k).isNone then some (stNotFound, 0) else none) quiet
    (fun c s => match insertArgs s c with
      | .error _ => done s 0
      | .ok (r, k, a, d) => match r.find k with
        | none => done s 0
        | some h =>
          let e := r.set.entries.get (tKey r.inst r.table h)
          done (writeTbl r h (some { e with hit := true, action := a, data := d }) s) 0) c s)

/-- An entry's bytes (R280). -/
def entryBytes (d : Nat) (e : TEntry) : List Byte :=
  let w := if tKind d == 6 then 64 else tEntryBytes d
  let key := if tKind d == 1 then [] else e.key ++ List.replicate (4 * ((e.key.length + 3) / 4) - e.key.length) 0
  let b := bytesOf 4 (fld 31 31 1 + fld 30 30 (bit e.hit) + fld 23 16 e.action) ++ key ++ e.data
  (b ++ List.replicate (w - b.length) 0).take w

/-- Width of an entry. -/
def entryWidth (d : Nat) : Nat := if tKind d == 6 then 64 else tEntryBytes d

/-- The reference and key of TBL_LOOKUP; its buffer holds the entry that is written back. -/
def lookupArgs (s : State) (c : CmdPkt) : Except Nat (TblRef × TblKey) :=
  match tblRef s c 12 15 false with
  | .error e => .error e
  | .ok r => match bufKey r (c.ind.getD []) with
    | .error e => .error e
    | .ok (k, _) => if c.indirect && entryWidth r.desc ≤ c.p 8 4 then .ok (r, k) else .error stBadParam

/-- TBL_LOOKUP. -/
def execTblLookup (c : CmdPkt) (s : State) : Host.Outcome State Fault Refusal :=
  .next (runCmd 0x0304 .A false always
    (fun c s => refuseOf (lookupArgs s c) fun _ => none) quiet
    (fun c s => match lookupArgs s c with
      | .error _ => done s 0
      | .ok (r, k) => match r.find k with
        | none => done s 0
        | some h =>
          let bs := entryBytes r.desc (r.set.entries.get (tKey r.inst r.table h))
          done (hostWrite c.fn (c.p 0 8) bs.length (ofBytes bs) false s) (fld 32 32 1 + fld 95 64 h)) c s)

/-- The reference of TBL_DUMP: first handle in bytes 16 to 19, count in bytes 20 to 21. -/
def dumpArgs (s : State) (c : CmdPkt) : Except Nat TblRef :=
  if c.p 20 2 == 0 || c.p 20 2 > 1024 || c.p 15 1 != 0 || !c.indirect then .error stBadParam
  else match tblRef s c 12 22 false with
    | .error e => .error e
    | .ok r => if c.p 8 4 < 4 + entryWidth r.desc then .error stBadParam else .ok r

/-- TBL_DUMP. -/
def execTblDump (c : CmdPkt) (s : State) : Host.Outcome State Fault Refusal :=
  .next (runCmd 0x0305 .A false always
    (fun c s => refuseOf (dumpArgs s c) fun _ => none) quiet
    (fun c s => match dumpArgs s c with
      | .error _ => done s 0
      | .ok r =>
        let hs := r.handles (c.p 16 4) (2 ^ 32)
        let n := min (c.p 20 2) (c.p 8 4 / (4 + entryWidth r.desc))
        let bs := (hs.take n).flatMap fun h => bytesOf 4 h ++ entryBytes r.desc (r.set.entries.get (tKey r.inst r.table h))
        let s := if bs.isEmpty then s else hostWrite c.fn (c.p 0 8) bs.length (ofBytes bs) false s
        done s (fld 47 32 (min n hs.length) + fld 95 64 ((hs.drop n).headD 0xFFFFFFFF))) c s)

/-- The table that TBL_AGE_CFG names lies in the active set, and P is off or no shorter than its least period. -/
def ageArgs (s : State) (c : CmdPkt) : Refuse :=
  let inst := c.p 0 1
  let p := c.p 4 4
  if (inst > 15 && inst != 0xFF) || c.p 2 2 != 0 || c.p 8 40 != 0 || p > 3600000 then some (stBadParam, 0)
  else
    match (if setActive s then tableOf (activeSet s) inst (c.p 1 1) else none) with
    | none => some (stNotFound, 0)
    | some d =>
      if tKind d == 4 || tKind d == 5 || (p != 0 && p * 1000000 < tRows d * (if tKind d == 6 then 8 else 40)) then some (stBadParam, 0)
      else none

/-- TBL_AGE_CFG. -/
def execTblAgeCfg (c : CmdPkt) (s : State) : Host.Outcome State Fault Refusal :=
  .next (runCmd 0x0306 .A false always (fun c s => ageArgs s c) quiet
    (fun c s => done { s with ages := s.ages.put (c.p 0 1 * 256 + c.p 1 1) (c.p 4 4) } 0) c s)

/-- LEARN_CFG (R299): enable 0 empties the filter. -/
def execLearnCfg (c : CmdPkt) (s : State) : Host.Outcome State Fault Refusal :=
  .next (runCmd 0x0307 .A false always
    (fun c _ => firstOf [(c.p 0 1 > 15 || c.p 1 1 != 0 || c.p 2 2 == 0 || c.p 2 2 > 1024 || c.p 4 1 > 1 || c.p 5 43 != 0, stBadParam)])
    quiet
    (fun c s => done { s with learns := s.learns.upd (c.p 0 1) fun l =>
      { l with window := c.p 2 2, enable := c.p 4 1 == 1, entries := if c.p 4 1 == 1 then l.entries else [] } } 0) c s)

/-! ## COUNTER_READ (R293, R343, R423, R456, R503, R568, R606) -/

/-- The indices of a counter block that is no table. -/
def blockSize (b : Nat) : Nat :=
  if b == 0xFE00 || b == 0xFE01 || b == 0xFE02 || b == 0xFE07 then 8192
  else if b == 0xFE03 || b == 0xFE05 || b == 0xFE06 then 65536
  else if b == 0xFE04 then 9
  else if b == 0xFD00 || b == 0xFD01 then 80
  else if b == 0xFD02 then 20
  else if b == 0xFD03 then 4
  else if b == 0xFC00 || b == 0xFC01 then 4
  else if b == 0xFC02 || b == 0xFC03 || b == 0xFC04 || b == 0xFC05 || b == 0xFC06 || b == 0xFB05 then 16
  else if b == 0xFB00 || b == 0xFB01 then 24
  else if b == 0xFB02 || b == 0xFB03 || b == 0xFB04 then 8
  else if b == 0xFA00 then 7
  else if b == 0xF900 then 11
  else if b == 0xF901 then 4096
  else 0

/-- A record of a counter block that is no table. -/
def blockCtr (s : State) (b i : Nat) : Ctr :=
  match b with
  | 0xFB00 => (s.ports.get i).cplTimeout
  | 0xFB01 => (s.ports.get i).lateCpl
  | 0xFB02 => (s.ports.get i).bmeDrop
  | 0xFB03 => (s.ports.get i).winDrop
  | 0xFB04 => (s.ports.get i).txLen
  | 0xF900 => { pk := s.kiln.err.get i }
  | 0xF901 =>
    let f := fiOf s (i / 4)
    { pk := match i % 4 with | 0 => f.dropped | 1 => f.corrupted | 2 => f.reordered | _ => f.busy }
  | 0xFD01 => { pk := s.ciph.dummies.getD i 0 }
  | _ => s.tm.blocks.get (b * 2 ^ 20 + i)

/-- A record's bytes (R292). -/
def ctrRecord (c : Ctr) : List Byte := bytesOf 16 (fld 127 64 c.by_ + fld 63 16 c.pk)

/-- The size of the block that COUNTER_READ names (block in bytes 12 to 13, SET in byte 14, first index in bytes 16 to 19, count in
bytes 20 to 21: log 13), or its refusal. -/
def counterBlock (s : State) (c : CmdPkt) : Except Nat (Nat × (Nat → Ctr)) :=
  let b := c.p 12 2
  if blockSize b != 0 then .ok (blockSize b, blockCtr s b)
  else
    let x := if c.p 14 1 == 0 then (if setActive s then some (activeSet s) else none)
      else if (shadowSet s).valid then some (shadowSet s) else none
    match x.bind fun x => tableOf x (b / 256) (b % 256) with
    | none => .error stNotFound
    | some d =>
      if tKind d != 4 then .error stBadParam
      else .ok (tEntries d, fun i => ((x.getD {}).counters.get (tKey (b / 256) (b % 256) i)))

/-- COUNTER_READ. -/
def execCounterRead (c : CmdPkt) (s : State) : Host.Outcome State Fault Refusal :=
  .next (runCmd 0x0109 .V false always
    (fun c s =>
      let n := c.p 20 2
      if !c.indirect || n == 0 || n > 64 || c.p 14 1 > 1 || c.p 8 4 < 16 * n then some (stBadParam, 0)
      else refuseOf (counterBlock s c) fun r => if c.p 16 4 + n > r.1 then some (stBadParam, 0) else none) quiet
    (fun c s => match counterBlock s c with
      | .error _ => done s 0
      | .ok r =>
        let n := c.p 20 2
        let bs := (List.range n).flatMap fun i => ctrRecord (r.2 (c.p 16 4 + i))
        let s := hostWrite c.fn (c.p 0 8) bs.length (ofBytes bs) false s
        done s (fld 63 32 n)) c s)

/-- NODE_ID_SET (R555): the node in PARAM bytes 0 to 1. -/
def execNodeIdSet (c : CmdPkt) (s : State) : Host.Outcome State Fault Refusal :=
  .next (runCmd 0x0108 .A true always
    (fun c s => firstOf [(c.p 0 2 > 511, stBadParam), (s.peal.member || s.peal.joining, stBadState)]) quiet
    (fun c s => done { s with peal := { s.peal with node := c.p 0 2, nodeValid := true, dupId := false } } 0) c s)

end Sys2Proof.Machine
end

