-- ==== Sys2Proof/Machine/PealRows.lean ====
section
/-! DEFINITION. The peal bus (R537 to R569), and the time and firing frames it carries (R165 to R168, R383). -/
namespace Sys2Proof.Machine

/-! ## The controller -/

/-- The controller's state changes. -/
def setPeal (f : Peal → Peal) (s : State) : State := { s with peal := f s.peal }

/-- A number of bit times of 100 ns, in CK_T ticks (R539). -/
def btT (n : Nat) : Nat := 80 * n

/-- A count of PEAL_CNT (R568). -/
def pealCnt (i : Nat) (s : State) : State := countBlock 0xFA00 i 0 s

/-- Every node (R540). -/
def bcast : Nat := 0x8000

/-- The check of a frame: CRC-32C over its bytes from TYPE to the last payload byte (R540, R254). -/
def pealCrc (type : Nat) (body : List Byte) : Nat := crc32c 0xFFFFFFFF (BitVec.ofNat 8 type :: body)

/-- The bytes of a frame from a node, SYNC first (R540). -/
def pealFrame (node seq type dst : Nat) (payload : List Byte) : List Byte :=
  let body := bytesOf 2 node ++ bytesOf 2 dst ++ bytesOf 1 payload.length ++ bytesOf 1 seq ++ payload
  0x5A :: BitVec.ofNat 8 type :: body ++ bytesOf 4 (pealCrc type body)

/-- A frame is sent. -/
def sendPeal (type dst : Nat) (payload : List Byte) (s : State) : State :=
  let s := emit (.peal (pealFrame s.peal.node s.peal.seq type dst payload)) s
  pealCnt 0 (setPeal (fun p => { p with seq := (p.seq + 1) % 256, busy := s.tick }) s)

/-- The map with a node set, or cleared (R547). -/
def mapSet (n : Nat) (m : List Nat) : List Nat := if m.contains n then m else n :: m
def mapClear (n : Nat) (m : List Nat) : List Nat := m.filter (· != n)

/-- The next member above a node in ascending order, wrapping (R547); the node itself where it has no other. -/
def successor (m : List Nat) (n : Nat) : Nat :=
  let up := m.filter (· > n)
  let all := m.filter (· != n)
  match up.min?, all.min? with
  | some a, _ => a
  | none, some a => a
  | none, none => n

/-- TOKEN is sent to a node; `drop`: a member removed with it. A sole member takes the end of its own frame as receipt (R547). The
next start bit is awaited 80 BT from the token's end, `after_` BT from now (R549). -/
def sendToken (dst tries after_ : Nat) (drop : Option Nat) (s : State) : State :=
  let pl := match drop with | some d => bytesOf 2 (2 ^ 15 + d) | none => [0, 0]
  let s := sendPeal 1 dst pl s
  if dst == s.peal.node then setPeal (fun p => { p with watch := none, selfToken := true }) s
  else setPeal (fun p => { p with watch := some (dst, tries, s.tick + btT (after_ + 140 + 80)) }) s

/-- The holder passes the token to its successor; `after_`: the BT its own frame of this visit takes. -/
def passToken (after_ : Nat) (s : State) : State := sendToken (successor s.peal.map s.peal.node) 1 after_ none s

/-- BT of a frame of a payload length (R539, R540). -/
def frameBt (len : Nat) : Nat := 10 * (12 + len)

/-- A visit's one frame besides TOKEN: sent, and the token after it. -/
def visitFrame (type dst : Nat) (payload : List Byte) (s : State) : State :=
  passToken (frameBt payload.length) (sendPeal type dst payload s)

/-- A node ceases to be a member and its controller is disabled. -/
def pealStop (s : State) : State :=
  setPeal (fun p => { p with
    member := false, joining := false, recovering := false, enabled := false, leave := false, tokenBy := none, watch := none
    window := none, contend := none, selfToken := false, map := mapClear p.node p.map }) s

/-- The member with the lowest node number, 10 ms or more after its previous SOLICIT (R552). -/
def solicitDue (s : State) : Bool :=
  s.peal.map.all (fun n => s.peal.node ≤ n) && (match s.peal.solicited with | some t => t + msT 10 ≤ s.tick | none => true)

/-- The frames of a visit from TIME on (R548, R559, R663). -/
def visitTail (s : State) : State :=
  if s.peal.timeSrcEn && s.peal.timeSrc == s.peal.node then visitFrame 0x20 bcast (bytesOf 16 s.time.now.full) s
  else
    match s.peal.telem, s.peal.sends with
    | some t, _ => visitFrame 0x22 bcast t (setPeal (fun p => { p with telem := none }) s)
    | none, (type, dst, pl) :: rest => visitFrame type dst pl (setPeal (fun p => { p with sends := rest }) s)
    | none, [] => passToken 0 s

/-- A visit from SOLICIT on. -/
def visitSolicit (s : State) : State :=
  if solicitDue s then
    let s := sendPeal 2 bcast [] s
    setPeal (fun p => { p with solicited := some s.tick, window := some (s.tick + btT (frameBt 0) + msT 1) }) s
  else visitTail s

/-- A visit: the node holds the token (R548). -/
def visit (s : State) : State :=
  let p := s.peal
  if p.leave then pealStop (passToken (frameBt 0) (sendPeal 6 bcast [] s))
  else
    match p.announce, p.cancel, p.armed with
    | some pl, _, _ =>
      let mark (a : Arm) : Arm := { a with announced := a.announced || a.initiator }
      visitFrame 0x10 bcast pl (setPeal (fun p => { p with announce := none }) { s with sets := { s.sets with arm := s.sets.arm.map mark } })
    | none, some pl, _ => visitFrame 0x11 bcast pl (setPeal (fun p => { p with cancel := none }) s)
    | none, none, some (dst, t, pl) =>
      let s := setPeal (fun p => { p with armed := none }) s
      if s.time.now.reached t then visitSolicit s else visitFrame 0x12 dst pl s
    | none, none, none => visitSolicit s

/-- The token is received (R548, R551, R567). -/
def holdToken (s : State) : State :=
  let rot := match s.peal.tokenAt with | some t => min (2 ^ 32 - 1) (rneDiv ((s.tick - t) * 5) 4) | none => s.peal.rotation
  visit (setPeal (fun p => { p with
    tokenBy := some (s.tick + msT p.tokenTo), tokenAt := some s.tick, rotation := rot, selfToken := false }) s)

/-- PEAL_JOINED (R569). -/
def postJoined (byClaim : Bool) (s : State) : State :=
  postAll 0x0C01 23 (fld 255 247 s.peal.node + fld 246 237 s.peal.map.length + fld 236 236 (bit byClaim)) s

/-- A node becomes a member. -/
def becomeMember (byClaim : Bool) (s : State) : State :=
  let s := setPeal (fun p => { p with
    member := true, joining := false, recovering := false, contend := none, map := mapSet p.node p.map
    tokenBy := some (s.tick + msT p.tokenTo) }) s
  postJoined byClaim s

/-! ## Contention (R546) -/

/-- When a contending frame of an attempt may be sent, were the bus to stay idle: 400 BT, and a drawn number of 64 BT. -/
def contendAt (attempt : Nat) (s : State) : Nat := s.tick + btT (400 + 64 * (drawn 10 s % 2 ^ min attempt 10))

/-- A node begins to contend with a frame. -/
def startContend (type dst : Nat) (until_ : Option Nat) (s : State) : State :=
  let c : Contend := { type := type, dst := dst, attempt := 1, from_ := contendAt 1 s, until_ := until_ }
  useDraw (setPeal (fun p => { p with contend := some c }) s)

/-- The bus went busy: a contender waits again. -/
def restartContend (s : State) : State :=
  match s.peal.contend with
  | none => s
  | some c => useDraw (setPeal (fun p => { p with contend := some { c with from_ := contendAt c.attempt s } }) s)

/-- PEAL_CONTEND_SEND: the contending frame is sent; `clash`: a bit read back differs. -/
def execPealContendSend (clash : Bool) (s : State) : Host.Outcome State Fault Refusal :=
  match s.peal.contend with
  | none => .next s
  | some c =>
    if !s.peal.enabled || s.tick < c.from_ then .next s
    else if (match c.until_ with | some d => decide (d < s.tick) | none => false) then
      .next (setPeal (fun p => { p with contend := none }) s)
    else if clash then
      let s := pealCnt 3 (setPeal (fun p => { p with busy := s.tick }) s)
      if c.attempt ≥ 16 then .next (pealCnt 4 (setPeal (fun p => { p with contend := none }) s))
      else
        let a := c.attempt + 1
        .next (useDraw (setPeal (fun p => { p with contend := some { c with attempt := a, from_ := contendAt a s } }) s))
    else
      let s := sendPeal c.type c.dst [] (setPeal (fun p => { p with contend := none }) s)
      if c.type == 5 then
        let s := if s.peal.member then
            setPeal (fun p => { p with recovering := false, map := mapSet p.node p.map, tokenBy := some (s.tick + msT p.tokenTo) }) s
          else becomeMember true s
        .next (passToken (frameBt 0) s)
      else .next s

/-- PEAL_SILENCE: 2 ms without a start bit while joining or recovering (R554). -/
def execPealSilence (s : State) : Host.Outcome State Fault Refusal :=
  let p := s.peal
  if !p.enabled || !(p.joining || p.recovering) || s.tick < p.busy + msT 2
      || (match p.contend with | some c => c.type == 5 | none => false) then .next s
  else .next (startContend 5 bcast none (if p.recovering then s else pealCnt 6 s))

/-! ## Timers (R549, R551, R552) -/

/-- PEAL_SUCCESSOR_WATCH. -/
def execPealSuccessorWatch (s : State) : Host.Outcome State Fault Refusal :=
  match s.peal.watch with
  | none => .next s
  | some (n, tries, until_) =>
    if s.tick < until_ then .next s
    else if tries == 1 then .next (sendToken n 2 0 none s)
    else
      let next := successor (mapClear n s.peal.map) n
      let next := if next == n then s.peal.node else next
      let s := pealCnt 5 (setPeal (fun p => { p with map := mapClear n p.map }) s)
      .next (sendToken next 1 0 (some n) s)

/-- PEAL_TOKEN_LOST (R569). -/
def postTokenLost (dropped : Bool) (s : State) : State :=
  postAll 0x0C02 23 (fld 255 247 s.peal.lastHolder + fld 246 246 (bit dropped)) s

/-- PEAL_TOKEN_TIMEOUT. -/
def execPealTokenTimeout (s : State) : Host.Outcome State Fault Refusal :=
  match s.peal.tokenBy with
  | none => .next s
  | some d =>
    if s.tick < d || !s.peal.member then .next s
    else
      let s := setPeal (fun p => { p with tokenBy := none }) s
      if s.tick < s.peal.lastRx + msT 2 then
        .next (postTokenLost true (setPeal (fun p => { p with member := false, joining := true, map := mapClear p.node p.map }) s))
      else .next (postTokenLost false (pealCnt 6 (setPeal (fun p => { p with recovering := true }) s)))

/-- PEAL_JOIN_WINDOW_END: no JOIN_REQ in 1 ms; the holder passes the token. -/
def execPealJoinWindowEnd (s : State) : Host.Outcome State Fault Refusal :=
  match s.peal.window with
  | none => .next s
  | some d => if s.tick < d then .next s else .next (passToken 0 (setPeal (fun p => { p with window := none }) s))

/-! ## Receiving (R540 to R543, R547) -/

/-- A received frame from SRC on. -/
def fSrc (b : List Byte) : Nat := rd b 0 2
def fDst (b : List Byte) : Nat := rd b 2 2
def fLen (b : List Byte) : Nat := rd b 4 1
def fPay (b : List Byte) : List Byte := (b.drop 6).take (fLen b)

/-- LEN of a type (R541): least and most. -/
def lenOf (type : Nat) : Nat × Nat :=
  match type with
  | 1 => (2, 2) | 4 => (2, 2) | 0x10 => (22, 22) | 0x11 => (22, 22) | 0x12 => (7, 7) | 0x20 => (16, 16) | 0x21 => (1, 32)
  | 0x22 => (1, 32)
  | t => if t ≥ 0x80 then (0, 32) else (0, 0)

/-- A type's payload begins with a device time in the layout of R79 (R541). -/
def timed (type : Nat) : Bool := type == 0x10 || type == 0x11 || type == 0x20

/-- A frame is valid, its zero fields with it (R540 to R542); its bytes are given from SRC to the end of its CRC. -/
def frameValid (type : Nat) (b : List Byte) : Bool :=
  let l := lenOf type
  b.length == 10 + fLen b && rd b (6 + fLen b) 4 == pealCrc type (b.take (6 + fLen b))
    && fSrc b < 512 && fDst b % 2 ^ 15 < 512 && l.1 ≤ fLen b && fLen b ≤ l.2
    && (type != 1 || bits 14 9 (rd b 6 2) == 0) && (type != 4 || bits 15 9 (rd b 6 2) == 0)
    && (!timed type || bits 79 62 (rd b 6 16) == 0)

/-- A valid frame's effect on the map (R547). -/
def mapFrame (type : Nat) (b : List Byte) (m : List Nat) : List Nat :=
  match type with
  | 1 =>
    let m := mapSet (fSrc b) m
    if bits 15 15 (rd b 6 2) == 1 then mapClear (bits 8 0 (rd b 6 2)) m else m
  | 5 => mapSet (fSrc b) m
  | 4 => mapSet (bits 8 0 (rd b 6 2)) m
  | 6 => mapClear (fSrc b) m
  | _ => m

/-- A node with a duplicate of its identifier stops (R543). -/
def duplicateId (s : State) : State := setPeal (fun p => { p with dupId := true }) (pealStop s)

/-- A frame arrives: discarded and counted, or observed, and acted on where it is for this node or for all. -/
def pealRx (type : Nat) (b : List Byte) (bad : Bool) (act : State → State) (s : State) : State :=
  if !s.peal.enabled then s
  else
    let s := setPeal (fun p => { p with busy := s.tick, watch := none }) s
    if bad || !frameValid type b then pealCnt 2 (restartContend s)
    else if fSrc b == s.peal.node && !(type == 1 && s.peal.selfToken && fDst b == s.peal.node) then duplicateId s
    else
      let stop := (type == 1 || type == 5) && fSrc b != s.peal.node
      let s := pealCnt 1 (setPeal (fun p => { p with
        lastRx := s.tick, map := mapFrame type b p.map, recovering := p.recovering && !stop
        lastHolder := if type == 1 then fSrc b else p.lastHolder
        contend := if stop && (p.contend.map (·.type)) == some 5 then none else p.contend }) s)
      let s := restartContend s
      if fDst b / 2 ^ 15 == 1 || fDst b == s.peal.node then act s else s

/-- TOKEN: a member that it is for holds it. -/
def execToken (bytes : List Byte) (bad : Bool) (s : State) : Host.Outcome State Fault Refusal :=
  .next (pealRx 1 bytes bad (fun s => if s.peal.member && fDst bytes == s.peal.node then holdToken s else s) s)

/-- SOLICIT: a joining node contends with JOIN_REQ for 1 ms (R553). -/
def execSolicit (bytes : List Byte) (bad : Bool) (s : State) : Host.Outcome State Fault Refusal :=
  .next (pealRx 2 bytes bad (fun s =>
    if s.peal.joining then startContend 3 (fSrc bytes) (some (s.tick + msT 1)) s else s) s)

/-- JOIN_REQ: the node that solicited admits its sender (R552). -/
def execJoinReq (bytes : List Byte) (bad : Bool) (s : State) : Host.Outcome State Fault Refusal :=
  .next (pealRx 3 bytes bad (fun s =>
    match s.peal.window with
    | none => s
    | some d =>
      if d < s.tick then s
      else
        let s := setPeal (fun p => { p with window := none, map := mapSet (fSrc bytes) p.map }) s
        passToken (frameBt 2) (sendPeal 4 bcast (bytesOf 2 (fSrc bytes)) s)) s)

/-- JOIN_ACK (R553). -/
def execJoinAck (bytes : List Byte) (bad : Bool) (s : State) : Host.Outcome State Fault Refusal :=
  .next (pealRx 4 bytes bad (fun s =>
    if !s.peal.joining then s
    else if bits 8 0 (rd bytes 6 2) == s.peal.node then becomeMember false s
    else setPeal (fun p => { p with contend := if (p.contend.map (·.type)) == some 3 then none else p.contend }) s) s)

/-- CLAIM (R554). -/
def execClaim (bytes : List Byte) (bad : Bool) (s : State) : Host.Outcome State Fault Refusal :=
  .next (pealRx 5 bytes bad (fun s => s) s)

/-- LEAVE (R547). -/
def execLeave (bytes : List Byte) (bad : Bool) (s : State) : Host.Outcome State Fault Refusal :=
  .next (pealRx 6 bytes bad (fun s => s) s)

/-! ## Firings of the pod (R166 to R168, R560 to R563) -/

/-- What a FIRE_ANNOUNCE or FIRE_CANCEL names: instant, target epoch, POD_GEN. -/
def annInstant (b : List Byte) : DevTime := DevTime.ofFull (rd b 6 16)
def annTarget (b : List Byte) : Nat := rd b 22 2
def annGen (b : List Byte) : Nat := rd b 24 4

/-- Why a peer does not arm itself, as the REASON of R173 (R166): 6 not ready, 3 POD_GEN, 4 parity, 5 late. -/
def announceReason (s : State) (b : List Byte) : Option Nat :=
  if shadowState s != 2 then some 6
  else if annGen b == 0 || (shadowSet s).podGen != annGen b then some 3
  else if annTarget b % 2 != (s.sets.epoch + 1) % 2 then some 4
  else if DevTime.diff (annInstant b) s.time.now < (nsU 10000 : Int) then some 5
  else none

/-- FIRE_ANNOUNCE. -/
def execFireAnnounce (bytes : List Byte) (bad : Bool) (s : State) : Host.Outcome State Fault Refusal :=
  .next (pealRx 0x10 bytes bad (fun s =>
    let r := announceReason s bytes
    let s := match r with
      | some c => postCancelled (annInstant bytes) (annTarget bytes) c s
      | none => { s with sets := { s.sets with arm := some { instant := annInstant bytes, target := annTarget bytes, pod := true } } }
    if s.peal.member then
      let pl := bytesOf 2 (annTarget bytes) ++ bytesOf 4 (annGen bytes) ++ bytesOf 1 (r.getD 0xFF)
      setPeal (fun p => { p with armed := some (fSrc bytes, annInstant bytes, pl) }) s
    else s) s)

/-- FIRE_CANCEL: the firing it names is withdrawn with reason POD_CANCEL (R168). -/
def execFireCancel (bytes : List Byte) (bad : Bool) (s : State) : Host.Outcome State Fault Refusal :=
  .next (pealRx 0x11 bytes bad (fun s =>
    match s.sets.arm with
    | some a =>
      if a.pod && a.instant == annInstant bytes && a.target == annTarget bytes
          && decide ((nsU 10000 : Int) ≤ DevTime.diff a.instant s.time.now) then
        withdraw 1 (setPeal (fun p => { p with armed := none }) s)
      else s
    | none => s) s)

/-- FIRE_ARMED (R562). -/
def execFireArmed (bytes : List Byte) (bad : Bool) (s : State) : Host.Outcome State Fault Refusal :=
  .next (pealRx 0x12 bytes bad (fun s =>
    match s.sets.arm with
    | some a =>
      if a.pod && a.initiator && rd bytes 6 2 == a.target && rd bytes 8 4 == (shadowSet s).podGen then
        setPeal (fun p => { p with fireMap := p.fireMap.put (fSrc bytes) (if rd bytes 12 1 == 0xFF then 1 else 2) }) s
      else s
    | none => s) s)

/-- FIRE_ANNOUNCE_LATE: an announcement not sent by 10 µs before its instant withdraws the firing with reason LATE (R560). -/
def execFireAnnounceLate (s : State) : Host.Outcome State Fault Refusal :=
  match s.sets.arm with
  | some a =>
    if a.pod && a.initiator && !a.announced && nearFiring s then
      .next (withdraw 5 (setPeal (fun p => { p with announce := none }) s))
    else .next s
  | none => .next s

/-! ## Time, alerts and telemetry (R383, R558, R663) -/

/-- TIME: the offset from the time source is recorded (R383, R559). -/
def execTime (bytes : List Byte) (bad : Bool) (s : State) : Host.Outcome State Fault Refusal :=
  .next (pealRx 0x20 bytes bad (fun s =>
    if s.peal.timeSrcEn && fSrc bytes == s.peal.timeSrc then
      let sent := (DevTime.ofFull (rd bytes 6 16)).add ((s.time.pealDelay.toNat * 2 ^ 24 : Nat) : Int)
      let d := satSigned 64 (DevTime.diff s.time.now sent)
      { s with time := { s.time with
        pealOfs := BitVec.ofNat 64 (ofSigned 64 d), pealValid := true, pealSrc := BitVec.ofNat 9 (fSrc bytes), pealAt := s.tick } }
    else s) s)

/-- A frame enters PEAL_RX_LOG: its bytes from TYPE on, in 44 bytes. -/
def logFrame (type : Nat) (b : List Byte) (s : State) : State :=
  let e := BitVec.ofNat 8 type :: b.take (6 + fLen b) ++ List.replicate (44 - 7 - fLen b) 0
  setPeal (fun p => { p with log := p.log.put p.logNext e, logNext := (p.logNext + 1) % 64 }) s

/-- ALERT, or an operator type: stored, and PEAL_ALERT posted (R558, R569). A reserved type is discarded and counted (R541, R542); the
other types have rows of their own. -/
def execAlert (bytes : List Byte) (bad : Bool) (s : State) : Host.Outcome State Fault Refusal :=
  let type := (bytes.headD 0).toNat
  let bytes := bytes.drop 1
  if [1, 2, 3, 4, 5, 6, 0x10, 0x11, 0x12, 0x20, 0x22].contains type then .next s
  else
    .next (pealRx type bytes (bad || (type < 0x80 && type != 0x21)) (fun s =>
      let head := ofBytesBE ((fPay bytes ++ List.replicate 12 0).take 12)
      postAll 0x0C03 23 (fld 255 247 (fSrc bytes) + fld 246 239 type + fld 238 233 (fLen bytes) + fld 232 227 s.peal.logNext
        + fld 223 128 head) (logFrame type bytes s)) s)

/-- TELEMETRY: stored. -/
def execTelemetry (bytes : List Byte) (bad : Bool) (s : State) : Host.Outcome State Fault Refusal :=
  .next (pealRx 0x22 bytes bad (logFrame 0x22 bytes) s)

/-- The region with the least margin, and that margin in 1/16 mV. -/
def leastMargin (s : State) : Nat × Int :=
  (List.range 24).foldl (fun b k => if (s.age.get k).margin < b.2 then (k, (s.age.get k).margin) else b) (0, (s.age.get 0).margin)

/-- The telemetry frame (R663); POWER is the latest total, as in R661 (log 76). -/
def telemFrame (s : State) : List Byte :=
  let h := hottest s
  let m := leastMargin s
  bytesOf 2 (s.pwr.totals.headD 0) ++ bytesOf 1 h ++ bytesOf 1 (ofSigned 8 (satSigned 8 (regionOf s h).tj)) ++ bytesOf 2 (ofSigned 16 m.2)
    ++ bytesOf 1 m.1 ++ bytesOf 1 (bit (s.pwr.capStep != 0) + 2 * bit (s.pwr.regions.any fun r => r.2.thermStep != 0))

/-- The next TELEMETRY is one period later. -/
def telemRearm (s : State) : State :=
  { s with pwr := { s.pwr with telemNext := s.pwr.telemNext + msT s.pwr.telemPeriod } }

/-- TELEMETRY_PERIOD. -/
def execTelemetryPeriod (s : State) : Host.Outcome State Fault Refusal :=
  if s.pwr.telemPeriod == 0 || s.tick < s.pwr.telemNext then .next s
  else
    let s := telemRearm s
    .next (if s.pwr.telemPeal && s.peal.member then setPeal (fun p => { p with telem := some (telemFrame s) }) s else s)

/-! ## Commands and PEAL_CFG (R555 to R557, R564 to R567) -/

/-- PEAL_JOIN. -/
def execPealJoin (c : CmdPkt) (s : State) : Host.Outcome State Fault Refusal :=
  .next (runCmd 0x0C01 .A false always (fun _ s =>
    firstOf [(!s.peal.nodeValid || s.peal.member || s.peal.joining, stBadState)]) quiet
    (fun _ s => done (setPeal (fun p => { p with joining := true, enabled := true, busy := s.tick }) s) 0) c s)

/-- PEAL_LEAVE: a join is abandoned at once; a member queues LEAVE. -/
def execPealLeave (c : CmdPkt) (s : State) : Host.Outcome State Fault Refusal :=
  .next (runCmd 0x0C02 .A false always (fun _ s => firstOf [(!s.peal.member && !s.peal.joining, stBadState)]) quiet
    (fun _ s => done (if s.peal.member then setPeal (fun p => { p with leave := true }) s else pealStop s) 0) c s)

/-- PEAL_STS (R565): RECOVERING covers a joining node that contends with CLAIM (R554). -/
def pealSts (s : State) : Nat :=
  let p := s.peal
  fld 31 31 (bit p.member) + fld 30 30 (bit p.joining) + fld 29 29 (bit (p.recovering || (p.contend.map (·.type)) == some 5)) + fld 28 28 (bit p.dupId)
    + fld 27 27 (bit p.nodeValid) + fld 26 18 p.node + fld 17 8 p.map.length

/-- PEAL_STATUS. -/
def execPealStatus (c : CmdPkt) (s : State) : Host.Outcome State Fault Refusal :=
  .next (runCmd 0x0C03 .A false always (fun _ _ => none) quiet
    (fun _ s => done s (fld 127 96 s.peal.rotation + fld 95 87 (s.peal.map.filter (· < s.peal.node)).length + fld 63 32 (pealSts s))) c s)

/-- PEAL_SEND. -/
def execPealSend (c : CmdPkt) (s : State) : Host.Outcome State Fault Refusal :=
  .next (runCmd 0x0C04 .A false always (fun c s =>
    let t := c.p 0 1
    let n := c.p 1 1
    firstOf [(!(t == 0x21 || t == 0x22 || t ≥ 0x80) || n > 32 || (t < 0x80 && n == 0), stBadParam),
      (bits 14 9 (c.p 2 2) != 0, stBadParam), (!s.peal.member, stBadState), (s.peal.sends.length ≥ 16, stNoResource)]) quiet
    (fun c s => done (setPeal (fun p => { p with sends := p.sends ++ [(c.p 0 1, c.p 2 2, bytesOf (c.p 1 1) (c.p 4 32))] }) s) 0) c s)

/-- PEAL_CFG_WRITE (R564): a write with TOKEN_TO out of range is ignored in whole. -/
def execPealCfgWrite (v : Word) (s : State) : Host.Outcome State Fault Refusal :=
  let n := (v.extractLsb' 21 11).toNat
  if n < 40 || n > 1000 then .next s
  else .next (setPeal (fun p => { p with
    tokenTo := n, timeSrc := (v.extractLsb' 12 9).toNat, timeSrcEn := v.getLsbD 11 }) s)

end Sys2Proof.Machine
end

