-- ==== Sys2Proof/Machine/RegRows.lean ====
section
/-! DEFINITION. The registers: what a read of each returns, and writes that have no row of their own (R17, R76, R463 to R467, R513,
R665 to R672). -/
namespace Sys2Proof.Machine

/-! ## Reads of BAR0 (R463) -/

/-- One word of a 64-bit register. -/
def wordOf (v : BitVec 64) (hi : Bool) : Nat := if hi then v.toNat / 2 ^ 32 else v.toNat % 2 ^ 32

/-- A command register block (R103 to R109). -/
def ringRead (r : Ring) (o : Nat) : Nat :=
  match o with
  | 0x00 => wordOf r.base false
  | 0x04 => wordOf r.base true
  | 0x08 => wordOf r.replyBase false
  | 0x0C => wordOf r.replyBase true
  | 0x10 => fld 31 31 (bit r.enable) + fld 26 16 r.vector.toNat + fld 3 0 r.log2.toNat
  | 0x14 => r.pi.toNat
  | 0x18 => r.ci.toNat
  | 0x1C => fld 31 16 r.lastSeq.toNat + fld 7 4 r.errCode.toNat + fld 2 2 (bit r.seqValid) + fld 1 1 (bit r.err)
      + fld 0 0 (bit r.exec.isSome)
  | _ => 0

/-- The queue registers of a slot (R466). -/
def slotRead (q : QSlot) (o : Nat) : Nat :=
  match o with
  | 0x00 => wordOf q.txBase false
  | 0x04 => wordOf q.txBase true
  | 0x08 => wordOf q.rxBase false
  | 0x0C => wordOf q.rxBase true
  | 0x10 => wordOf q.cqBase false
  | 0x14 => wordOf q.cqBase true
  | 0x18 => fld 31 31 (bit q.txEn) + fld 30 30 (bit q.rxEn) + fld 29 29 (bit q.cqEn) + fld 28 28 (bit q.roData)
      + fld 25 16 q.vector.toNat + fld 15 12 q.log2Tx.toNat + fld 11 8 q.log2Rx.toNat + fld 7 4 q.log2Cq.toNat
  | 0x1C => fld 31 30 q.state + fld 29 26 q.cause.toNat
  | 0x20 => q.txCi.toNat
  | 0x24 => q.rxCi.toNat
  | 0x28 => q.cqPi.toNat
  | _ => 0

/-- A receive channel's information word (R513). -/
def chanInfo (c : MboxChan) : Nat :=
  fld 31 31 (bit c.full) + fld 30 30 (bit c.valid) + fld 28 24 c.len + fld 15 0 c.src

/-- The transmit registers of a mailbox (R513). -/
def txRead (t : MboxTx) (o : Nat) : Nat :=
  if o < 0x40 then (t.data.getD (o / 4) 0).toNat
  else if o == 0x40 then fld 31 31 (bit t.go) + fld 25 16 t.dest.toNat + fld 12 8 t.len.toNat + fld 7 0 t.timeout.toNat
  else if o == 0x44 then fld 4 4 (bit t.done) + fld 3 0 t.result.toNat
  else 0

/-- Mailbox registers (R513), at offsets from 0x1000. -/
def mboxRead (f : Fn) (pf : Bool) (o : Nat) : Nat :=
  let c := f.chans.get f.rxSel.toNat
  if o < 0x48 then txRead f.tx o
  else if o == 0x48 then fld 31 31 (bit f.rxIe) + fld 30 30 (bit f.txIe) + fld 9 0 f.mboxVec.toNat
  else if o == 0x80 then f.rxSel.toNat
  else if o == 0x88 then chanInfo c
  else if 0xC0 ≤ o && o < 0x100 then (c.words.getD ((o - 0xC0) / 4) 0).toNat
  else if 0x100 ≤ o && o ≤ 0x140 then
    ((List.range 32).map fun b => if (f.chans.get (32 * ((o - 0x100) / 4) + b)).full then 2 ^ b else 0).sum
  else if !pf then 0
  else if 0x800 ≤ o && o < 0x848 then txRead f.secTx (o - 0x800)
  else if o == 0x888 then chanInfo f.secChan
  else if 0x8C0 ≤ o && o < 0x900 then (f.secChan.words.getD ((o - 0x8C0) / 4) 0).toNat
  else 0

/-- SEC_LC_STS (R632). -/
def secLcSts (s : State) : Nat :=
  fld 31 29 s.sec.lc + fld 28 21 (((List.range 8).map fun h => if (s.sec.ports.get h).session != 0 then 2 ^ h else 0).sum)
    + fld 20 17 (((List.range 4).map fun i => if s.sec.roots.has i then 2 ^ i else 0).sum) + fld 16 16 (bit s.sec.entropyFail)
    + fld 15 15 (bit s.sec.fiField) + fld 14 14 (bit s.sec.lowrate) + fld 13 13 (bit s.sec.zeroising)

/-- HOST_FN_STS (R464). -/
def fnSts (f : Fn) : Nat :=
  fld 3 3 (bit f.badVector) + fld 2 2 (bit (f.slots.any fun q => q.2.stopped)) + fld 1 1 (bit f.masterLost)

/-- The MSI-X table and the pending bits (R463, R486, log 53). -/
def msixRead (f : Fn) (n o : Nat) : Nat :=
  if 0x8000 ≤ o && o < 0x8000 + 16 * n then
    let v := (o - 0x8000) / 16
    if o % 16 == 12 then bit (!f.unmasked.contains v) else (f.msixTable.get (4 * v + o % 16 / 4)).toNat
  else if 0xC000 ≤ o && o < 0xC080 then
    ((List.range 32).map fun b => if f.msixPending.contains (8 * (o - 0xC000) + b) then 2 ^ b else 0).sum
  else 0

/-- A 32-bit read of BAR0 of a function, but for the MSI-X table and pending bits, which the internal image leaves out (R670); doorbells
read 0 (R463 to R467, R513). -/
def imageRead (s : State) (fn o : Nat) : Nat :=
  let f := fnOf s fn
  let pf := isPf fn
  let onlyPf (v : Nat) : Nat := if pf then v else 0
  if o % 4 != 0 then 0
  else if o == 0x0000 then fnSts f
  else if o == 0x0008 then onlyPf f.intx.toNat
  else if o == 0x0040 then onlyPf f.evt.ack.toNat
  else if o == 0x0044 then onlyPf f.evt.pi.toNat
  else if o == 0x0048 then if fn == 0 then f.punt.ack.toNat else 0
  else if o == 0x004C then if fn == 0 then f.punt.pi.toNat else 0
  else if 0x0100 ≤ o && o < 0x0120 then ringRead f.cmd (o - 0x0100)
  else if 0x0180 ≤ o && o < 0x01A0 then onlyPf (ringRead f.sec (o - 0x0180))
  else if o == 0x1900 then if fn == 0 then secLcSts s else 0
  else if 0x1000 ≤ o && o < 0x2000 then mboxRead f pf (o - 0x1000)
  else if 0x2000 ≤ o && o < 0x6000 then
    if slotExists s fn ((o - 0x2000) / 64) then slotRead (f.slots.get ((o - 0x2000) / 64)) ((o - 0x2000) % 64) else 0
  else 0

/-- A 32-bit read of BAR0 of a function (R463). -/
def bar0Read (s : State) (fn o : Nat) : Nat :=
  if o % 4 != 0 then 0 else if 0x8000 ≤ o then msixRead (fnOf s fn) (vectorCount fn) o else imageRead s fn o

/-! ## Reads of the internal registers (R665 to R672) -/

/-- The 32-bit lane counters at 0x10 to 0x44 of a lane's block (R668), and a pipeline's from 0x04 (R669). -/
def laneCounters : List Cnt :=
  [.laneRxBad, .laneRxSize, .laneFecCorr, .laneFecUncorr, .laneTxTrunc, .laneTxFlush, .laneTxStomp, .lanePfcRx, .lanePfcTx,
   .lanePauseDrop, .lanePauseSubst, .laneTsLost, .laneLaunchLate, .laneLaunchBad]
def pipeCounters : List Cnt :=
  [.puntDrop, .nosetDrop, .epochSkew, .hopsDrop, .recircLimit, .parseDepth, .malformed, .parseDrop, .fragRedirect, .fragFull,
   .fragHoldFull, .fragOrphan, .fragDrop, .nodispDrop, .actionDrop, .actionFault, .mtuDrop, .flowBusy, .parityMiss,
   .learnSuppress, .learnEvict]

/-- A counter of a list, or 0 past its end. -/
def counterAt (s : State) (cs : List Cnt) (i n : Nat) : Nat := match cs[i]? with | some c => cntGet s c n | none => 0

/-- KILN_SPARE_STS[k] (R577). -/
def kilnSpareSts (s : State) (k : Nat) : Nat :=
  let r := s.kiln.banks.get k
  fld 31 27 (r.spare.getD 31) + fld 26 10 ((r.retired.map fun b => 2 ^ b).sum) + fld 9 8 r.stage
    + fld 7 4 (min 15 (s.kiln.queue.filter fun q => q / 4096 == 0 && q / 17 == k).length)

/-- KILN_BUF_STS (R579). -/
def kilnBufSts (s : State) : Nat :=
  let r := s.kiln.buf
  fld 31 28 (r.spare.getD 15) + fld 27 19 ((r.retired.map fun b => 2 ^ b).sum) + fld 18 17 r.stage
    + fld 16 13 (s.kiln.queue.filter fun q => q / 4096 == 1).length

/-- LANE_FI_STS[n] (R605). -/
def laneFiSts (s : State) (n : Nat) : Nat :=
  let f := s.fi.get n
  fld 31 31 (bit f.armed) + fld 30 30 (bit f.open_) + fld 29 29 (bit f.rx) + fld 28 28 (bit f.held.isSome)

/-- PWR_REGION_MON[k] (R55). -/
def regionMon (s : State) (k : Nat) : Nat :=
  let r := regionOf s k
  fld 30 29 (stretchStep s k) + fld 28 28 (bit r.limitT) + fld 27 27 (bit r.limitV) + fld 26 18 (ofSigned 9 r.tj) + fld 17 6 r.vdd

/-- PWR_CLK_STATUS (R47), PWR_SEQ_STS (R644), PWR_THERM_STS (R649), PWR_LS_STS[k] (R655). -/
def clkStatus (s : State) : Nat :=
  fld 3 3 (bit s.pwr.ckLocked) + fld 2 2 (bit s.pwr.lossOfLock) + fld 1 1 (bit s.pwr.refValid)
def seqSts (s : State) : Nat := fld 31 28 s.pwr.stage + fld 27 24 s.pwr.failCause + fld 23 23 (bit s.pwr.hxReady)
def thermSts (s : State) : Nat :=
  fld 31 31 (bit s.pwr.tripped) + fld 30 30 (bit s.pwr.tripHw) + fld 29 25 s.pwr.tripRegion
    + fld 24 16 (ofSigned 9 s.pwr.tripTj)
def lsSts (s : State) (k : Nat) : Nat :=
  let l := s.pwr.lasers.get k
  fld 31 31 (bit l.en) + fld 30 30 (bit l.fault) + fld 29 29 (bit l.mated) + fld 28 28 (bit l.lref) + fld 27 27 (bit l.faultSeen)

/-- INST_STS[i] (R509). -/
def instSts (s : State) (iid : Nat) : Nat :=
  let i := (fnOf s iid).inst
  fld 31 29 i.state + fld 28 28 (bit i.log.isSome) + fld 27 27 (bit (match i.log with | some l => l.overflow | none => false))
    + fld 26 26 (bit (domainDown s iid)) + fld 24 16 i.qcount + fld 15 0 i.qbase

/-- SPORT_SLOT_STS[p] (R498). -/
def slotSts (s : State) (p : Nat) : Nat :=
  let q := s.store.ports.get p
  fld 11 11 (bit q.ready) + fld 10 10 (bit q.linkUp) + fld 9 9 (bit q.fault) + fld 8 8 (bit q.button) + fld 7 7 (bit q.changed)
    + fld 5 4 q.pwrInd + fld 3 2 q.attn + fld 1 1 (bit q.powerOn) + fld 0 0 (bit q.present)

/-- PEAL_CFG (R564). -/
def pealCfg (s : State) : Nat := fld 31 21 s.peal.tokenTo + fld 20 12 s.peal.timeSrc + fld 11 11 (bit s.peal.timeSrcEn)
/-- TIME_STS (R355) and TIME_PEAL_STS (R385). -/
def timeSts (s : State) : Nat :=
  fld 31 16 s.time.steps.toNat + fld 2 2 (bit s.time.ppsOn) + fld 1 1 (bit s.time.untrusted)
def timePealSts (s : State) : Nat :=
  fld 31 31 (bit s.time.pealValid) + fld 30 22 s.time.pealSrc.toNat
    + (if s.time.pealValid then fld 15 0 (min 65535 ((s.tick - s.time.pealAt) / msT 1)) else 0)

/-- CIPH_STS (R421), CIPH_KEY_LIVE and CIPH_HOLD_STS (R422). -/
def ciphSts (s : State) : Nat := fld 31 16 s.ciph.rate + fld 14 8 ((List.range 80).filter fun c => coreUsable s c).length
def keyLive (s : State) : Nat := (keysWhere s fun _ => true).length
def holdSts (s : State) : Nat := (s.ciph.heldBack.map fun k => 2 ^ k).sum

/-- PIPE_FRAG_STS[k] (R261). -/
def fragSts (s : State) (k : Nat) : Nat :=
  fld 28 16 (s.frags.filter fun e => e.1 / 4096 == k).length
    + fld 6 0 (s.pkts.filter fun q => q.2.place == .hold && q.2.pipe == k).length

/-- TM_BUF_STS[u] (R340) and TM_PFC_STS[p] (R342). -/
def bufSts (s : State) (u : Nat) : Nat := fld 20 20 (bit (s.tm.peakValid.contains u)) + fld 19 0 (useHeld s u)
def pfcSts (s : State) (p : Nat) : Nat := ((List.range 8).map fun c => if s.tm.xoff.has (8 * p + c) then 2 ^ c else 0).sum

/-- The function whose instance index is `i` (R505). -/
def fnOfIndex (i : Nat) : Nat := i / 513 * 4096 + i % 513

/-- Offsets within the register blocks (R665, R672). -/
def laneRead (s : State) (o : Nat) : Nat :=
  if o < 0x1000 then laneSts s (o / 4)
  else if o < 0x2000 then (lane s ((o - 0x1000) / 4)).stamps
  else if o < 0x3000 then laneFiSts s ((o - 0x2000) / 4)
  else if 0x10000 ≤ o && o < 0x30000 then
    let n := (o - 0x10000) / 128
    match (o - 0x10000) % 128 with
    | 0x00 => cntGet s .laneRxFrames n % 2 ^ 32
    | 0x04 => cntGet s .laneRxFrames n / 2 ^ 32
    | 0x08 => cntGet s .laneTxFrames n % 2 ^ 32
    | 0x0C => cntGet s .laneTxFrames n / 2 ^ 32
    | w => counterAt s laneCounters ((w - 0x10) / 4) n
  else if 0x30000 ≤ o && o < 0x34000 then cntGet s .lanePsDrop ((o - 0x30000) / 4)
  else if o == 0x34000 then cntGet s .laneRoNoctx 0
  else 0
def pipeRead (s : State) (o : Nat) : Nat :=
  if 0x1000 ≤ o then 0
  else if o % 0x100 == 0 then fragSts s (o / 0x100)
  else counterAt s pipeCounters ((o % 0x100 - 4) / 4) (o / 0x100)
def tmRead (s : State) (o : Nat) : Nat :=
  if o < 0x10 then bufSts s (o / 4)
  else if o < 0x20 then s.tm.peaks.get ((o - 0x10) / 4)
  else if 0x1000 ≤ o && o < 0x2000 then pfcSts s ((o - 0x1000) / 4)
  else 0
def timeRead (s : State) (o : Nat) : Nat :=
  if o == 0 then timeSts s
  else if o == 0x10 then s.time.pealDelay.toNat
  else if o == 0x18 then wordOf s.time.pealOfs false
  else if o == 0x1C then wordOf s.time.pealOfs true
  else if o == 0x20 then timePealSts s
  else if 0x1000 ≤ o && o < 0x2000 then ofSigned 32 (calOf s ((o - 0x1000) / 4) false)
  else if 0x2000 ≤ o && o < 0x3000 then ofSigned 32 (calOf s ((o - 0x2000) / 4) true)
  else 0
def pealRead (s : State) (o : Nat) : Nat :=
  if o == 0 then pealCfg s
  else if o == 4 then pealSts s
  else if 0x100 ≤ o && o < 0x140 then
    ((List.range 32).map fun i => if s.peal.map.contains (8 * (o - 0x100) + i) then 2 ^ i else 0).sum
  else if 0x200 ≤ o && o < 0x280 then
    ((List.range 16).map fun i => s.peal.fireMap.get (4 * (o - 0x200) + i) % 4 * 4 ^ i).sum
  else if 0x1000 ≤ o && o < 0x2000 then
    if (o - 0x1000) % 64 < 44 then rd (s.peal.log.get ((o - 0x1000) / 64)) ((o - 0x1000) % 64) 4 else 0
  else 0
def pwrRead (s : State) (o : Nat) : Nat :=
  match o with
  | 0x0 => clkStatus s
  | 0x4 => s.pwr.limitSts.toNat
  | 0x8 => seqSts s
  | 0xC => thermSts s
  | _ =>
    if 0x100 ≤ o && o < 0x160 then regionMon s ((o - 0x100) / 4)
    else if 0x200 ≤ o && o < 0x240 then lsSts s ((o - 0x200) / 4)
    else 0

/-- An aligned address of the register space, its block, and its offset within the block (R665, R667). -/
def isReg (a : Nat) : Bool := a % 4 == 0 && decide (0xF00000000000 ≤ a)
def regBlock (a : Nat) : Nat := (a - 0xF00000000000) / 2 ^ 30
def regOffset (a : Nat) : Nat := a % 2 ^ 30

/-- What an aligned 32-bit read of an internal register returns; 0 where no register is named (R667). -/
def regRead (s : State) (a : Nat) : Nat :=
  let o := regOffset a
  if !isReg a then 0
  else match regBlock a with
    | 0 => laneRead s o
    | 1 => pipeRead s o
    | 2 => tmRead s o
    | 3 => timeRead s o
    | 4 => if o == 0 then ciphSts s else if o == 4 then keyLive s else if o == 8 then holdSts s else 0
    | 6 =>
      let fn := fnOfIndex (o / 0x10000)
      if o / 0x10000 < 4104 && fnExists s fn then imageRead s fn (o % 0x10000) else 0
    | 7 => if o < 0x40 then slotSts s (o / 4) else 0
    | 8 => if o < 16416 then instSts s (fnOfIndex (o / 4)) else 0
    | 9 => pealRead s o
    | 10 => if o < 0x40 then kilnSpareSts s (o / 4) else if o == 0x40 then kilnBufSts s else 0
    | 11 => pwrRead s o
    | _ => 0

/-! ## Writes (R17, R103 to R109, R463 to R468, R513) -/

/-- One word of a 64-bit address register is written; its low `n` bits are reserved. -/
def putWord (old : BitVec 64) (hi : Bool) (n : Nat) (v : Word) : BitVec 64 :=
  if hi then v ++ old.extractLsb' 0 32 else (old.extractLsb' 32 32) ++ ((v >>> n) <<< n)

/-- A register of a command ring that has no row of its own: its bases while ENABLE is 0, and ERR (R103, R105, R109). -/
def ringWrite (o : Nat) (v : Word) (r : Ring) : Ring :=
  match o with
  | 0x00 => if r.enable then r else { r with base := putWord r.base false 6 v }
  | 0x04 => if r.enable then r else { r with base := putWord r.base true 6 v }
  | 0x08 => if r.enable then r else { r with replyBase := putWord r.replyBase false 5 v }
  | 0x0C => if r.enable then r else { r with replyBase := putWord r.replyBase true 5 v }
  | 0x1C => if v.getLsbD 1 then { r with err := false } else r
  | _ => r

/-- A ring base of a queue slot, written while its ring is not enabled (R466, R468). -/
def slotWrite (o : Nat) (v : Word) (q : QSlot) : QSlot :=
  match o with
  | 0x00 => if q.txEn then q else { q with txBase := putWord q.txBase false 6 v }
  | 0x04 => if q.txEn then q else { q with txBase := putWord q.txBase true 6 v }
  | 0x08 => if q.rxEn then q else { q with rxBase := putWord q.rxBase false 4 v }
  | 0x0C => if q.rxEn then q else { q with rxBase := putWord q.rxBase true 4 v }
  | 0x10 => if q.cqEn then q else { q with cqBase := putWord q.cqBase false 5 v }
  | 0x14 => if q.cqEn then q else { q with cqBase := putWord q.cqBase true 5 v }
  | _ => q

/-- A transmit register of a mailbox (R513); GO = 1 has a row of its own, and a write of GO = 0 leaves GO. -/
def txWrite (sec : Bool) (o : Nat) (v : Word) (t : MboxTx) : MboxTx :=
  if o < 0x40 then (if t.go then t else { t with data := t.data.set (o / 4) v })
  else if o == 0x40 then
    if v.getLsbD 31 then t
    else { t with dest := if sec then 0 else v.extractLsb' 16 10, len := v.extractLsb' 8 5, timeout := v.extractLsb' 0 8 }
  else if o == 0x44 then (if v.getLsbD 4 then { t with done := false } else t)
  else t

/-- Mailbox registers (R513), at offsets from 0x1000. -/
def mboxWrite (pf : Bool) (o : Nat) (v : Word) (f : Fn) : Fn :=
  if o < 0x48 then { f with tx := txWrite false o v f.tx }
  else if o == 0x48 then { f with rxIe := v.getLsbD 31, txIe := v.getLsbD 30, mboxVec := v.extractLsb' 0 10 }
  else if o == 0x80 then { f with rxSel := v.extractLsb' 0 10 }
  else if pf && 0x800 ≤ o && o < 0x848 then { f with secTx := txWrite true (o - 0x800) v f.secTx }
  else f

/-- An MSI-X table word (R486): address and data, or the mask bit. -/
def msixWrite (o : Nat) (v : Word) (f : Fn) : Fn :=
  let n := o / 16
  if o % 16 == 12 then
    { f with unmasked := if v.getLsbD 0 then f.unmasked.filter (· != n) else if f.unmasked.contains n then f.unmasked
                                                                         else n :: f.unmasked }
  else { f with msixTable := f.msixTable.put (4 * n + o % 16 / 4) v }

/-- A write through a function's BAR0, or through its image without the MSI-X table (R463, R670). -/
def bar0Write (fn o : Nat) (v : Word) (image : Bool) (s : State) : State :=
  let pf := isPf fn
  if o % 4 != 0 then s
  else if o == 0x0000 then setFn fn (fun f => { f with
    badVector := f.badVector && !v.getLsbD 3, masterLost := f.masterLost && !v.getLsbD 1 }) s
  else if 0x0100 ≤ o && o < 0x0120 then setRing fn false (ringWrite (o - 0x0100) v) s
  else if 0x0180 ≤ o && o < 0x01A0 then (if pf then setRing fn true (ringWrite (o - 0x0180) v) s else s)
  else if 0x1000 ≤ o && o < 0x2000 then
    if domainDown s fn then s else setFn fn (mboxWrite pf (o - 0x1000) v) s
  else if 0x2000 ≤ o && o < 0x6000 then
    let i := (o - 0x2000) / 64
    if slotWritable s fn i then setSlot fn i (slotWrite ((o - 0x2000) % 64) v) s else s
  else if 0x8000 ≤ o && o < 0x8000 + 16 * vectorCount fn && !image then
    sendPending fn (setFn fn (msixWrite (o - 0x8000) v) s)
  else s

/-- LANE_STS[n]: CHIME is cleared by writing 1. -/
def laneRegWrite (o : Nat) (v : Word) (s : State) : State :=
  if o < 0x1000 && v.getLsbD 23 then setLane (o / 4) (fun l => { l with chime := false }) s else s

/-- PEAL_DELAY. -/
def pealDelayWrite (o : Nat) (v : Word) (s : State) : State :=
  if o == 0x10 then { s with time := { s.time with pealDelay := v.extractLsb' 0 24 } } else s

/-- The BAR0 registers of every function, at their internal places. -/
def bar0RegWrite (o : Nat) (v : Word) (s : State) : State :=
  let fn := fnOfIndex (o / 0x10000)
  if o / 0x10000 < 4104 && fnExists s fn then bar0Write fn (o % 0x10000) v true s else s

/-- SLOT_STS[n]: FAULT, BUTTON and CHANGED are cleared by writing 1. -/
def slotRegWrite (o : Nat) (v : Word) (s : State) : State :=
  if o < 0x40 then { s with store := { s.store with ports := s.store.ports.upd (o / 4) fun p => { p with
    fault := p.fault && !v.getLsbD 9, button := p.button && !v.getLsbD 8, changed := p.changed && !v.getLsbD 7 } } } else s

/-- PEAL_STS: the duplicate-node flag is cleared by writing 1. -/
def pealRegWrite (o : Nat) (v : Word) (s : State) : State :=
  if o == 4 && v.getLsbD 28 then { s with peal := { s.peal with dupId := false } } else s

/-- The power block's flags that are cleared by writing 1. -/
def powerRegWrite (o : Nat) (v : Word) (s : State) : State :=
  if o == 0x0 then { s with pwr := { s.pwr with lossOfLock := s.pwr.lossOfLock && !v.getLsbD 2 } }
  else if o == 0x4 then { s with pwr := { s.pwr with limitSts := s.pwr.limitSts &&& ~~~(v.extractLsb' 0 24) } }
  else if o == 0xC then { s with pwr := { s.pwr with tripped := s.pwr.tripped && !v.getLsbD 31 } }
  else if 0x200 ≤ o && o < 0x240 then
    { s with pwr := { s.pwr with lasers := s.pwr.lasers.upd ((o - 0x200) / 4) fun l => { l with
      faultSeen := l.faultSeen && !v.getLsbD 27 } } }
  else s

/-- A write of an internal register that has no row of its own: the W1C bits, and TIME_PEAL_DELAY. -/
def regWrite (a : Nat) (v : Word) (s : State) : State :=
  if !isReg a then s
  else match regBlock a with
    | 0 => laneRegWrite (regOffset a) v s
    | 3 => pealDelayWrite (regOffset a) v s
    | 6 => bar0RegWrite (regOffset a) v s
    | 7 => slotRegWrite (regOffset a) v s
    | 9 => pealRegWrite (regOffset a) v s
    | 11 => powerRegWrite (regOffset a) v s
    | _ => s

/-- REGISTER_WRITE: a 32-bit write of a register without a row of its own (R17). -/
def execRegisterWrite (r : RegPlace) (v : Word) (s : State) : Host.Outcome State Fault Refusal :=
  match r with
  | .bar0 fn o => if bar0Open s fn then .next (bar0Write fn o v false s) else .next s
  | .internal a => .next (regWrite a v s)

/-- The address of the lower word of a counter wider than 32 bits. -/
def wideLow (a : Nat) : Bool :=
  let o := a - 0xF00000010000
  (0xF00000010000 ≤ a && o < 0x20000 && (o % 128 == 0 || o % 128 == 8)) || a == 0xF000C0000018

/-- COUNTER_LOW_READ: the lower word of a counter wider than 32 bits is read, which latches its upper word (R76). The row with the
address of an upper word is that word's read, which uses the latched word up (log 55). -/
def execCounterLowRead (r : RegPlace) (s : State) : Host.Outcome State Fault Refusal :=
  match r with
  | .bar0 _ _ => .next s
  | .internal a =>
    if wideLow a then .next { s with latches := s.latches.put a (regRead s (a + 4)) }
    else if 4 ≤ a && wideLow (a - 4) then .next { s with latches := s.latches.del (a - 4) }
    else .next s

/-- What the next read of the upper word of a wide counter returns: the latched word, where the lower word has been read since the last
read of the upper one, else the live one (R76). -/
def upperRead (s : State) (a : Nat) : Nat := if s.latches.has (a - 4) then s.latches.get (a - 4) else regRead s a

/-- TM_BUF_PEAK_RESET: a write of TM_BUF_STS[u] with PEAK_VALID 1 (R340, R341). -/
def execTmBufPeakReset (u : Fin 4) (v : Word) (s : State) : Host.Outcome State Fault Refusal :=
  if v.getLsbD 20 then
    .next { s with tm := { s.tm with
      peaks := s.tm.peaks.put u.val (useHeld s u.val), peakValid := s.tm.peakValid.filter (· != u.val) } }
  else .next s

end Sys2Proof.Machine
end

