-- ==== Sys2Proof/Machine/StoreRows.lean ====
section
/-! DEFINITION. Namespaces, storage commands and storage slots (R446 to R452, R497 to R502). -/
namespace Sys2Proof.Machine

/-! ## Namespaces (R446) -/

/-- A range overlaps another namespace of the same drive. -/
def rangeOverlaps (s : State) (sp nsid start count : Nat) : Bool :=
  s.store.nss.any fun e => e.2.sp == sp && e.2.driveNsid == nsid && !e.2.gone && e.2.start < start + count && start < e.2.start + e.2.count

/-- The lowest NSID of a subsystem that is free. -/
def freeNsid (s : State) (subsys : Nat) : Option Nat :=
  ((List.range 1024).map (· + 1)).find? fun n => !s.store.nss.has (nsKey subsys n)

/-- The NSID that NS_CREATE gives. -/
def nsidFor (s : State) (c : CmdPkt) : Option Nat := if c.p 28 4 == 0 then freeNsid s (c.p 1 1) else some (c.p 28 4)

def nsCreateCheck (c : CmdPkt) (s : State) : Refuse :=
  let sp := c.p 0 1
  let h := c.p 24 4
  let d := (sport s sp).drives.find? fun d => d.1 == c.p 4 4
  let key := (liveHandle s h).bind fun i => (keySlot s i).key
  firstOf [
    (sp > 15 || c.p 2 1 > 1 || c.p 3 1 != 0 || c.p 16 8 == 0 || c.p 28 4 > 1024 || c.p 32 16 != 0, stBadParam),
    (s.kiln.blocks.contains (sliceId 10 sp), stHwFault),
    (!sportReady s sp, stBadState),
    (match d with | some (_, n, f) => f != c.p 2 1 || c.p 8 8 + c.p 16 8 > n | none => true, stBadParam),
    (rangeOverlaps s sp (c.p 4 4) (c.p 8 8) (c.p 16 8), stBadParam),
    (h != 0xFFFFFFFF && key.isNone, stNotFound),
    (h != 0xFFFFFFFF && !(match key with | some k => k.xts && k.domain == 0xFF | none => false), stBadParam),
    (c.p 28 4 != 0 && s.store.nss.has (nsKey (c.p 1 1) (c.p 28 4)), stBadParam),
    (s.store.nss.length ≥ 4096 || (nsidFor s c).isNone, stNoResource)]

/-- NS_CREATE. -/
def execNsCreate (c : CmdPkt) (s : State) : Host.Outcome State Fault Refusal :=
  .next (runCmd 0x0804 .A false always nsCreateCheck quiet (fun c s =>
    let n := (nsidFor s c).getD 0
    let e : Ns := { sp := c.p 0 1, lbaf := c.p 2 1, driveNsid := c.p 4 4, start := c.p 8 8, count := c.p 16 8, key := c.p 24 4 }
    done { s with store := { s.store with nss := s.store.nss.put (nsKey (c.p 1 1) n) e } } (fld 63 32 n)) c s)

/-- NS_DELETE: NSID in PARAM bytes 0 to 3, SUBSYS in byte 4 (log 13). -/
def execNsDelete (c : CmdPkt) (s : State) : Host.Outcome State Fault Refusal :=
  let key (c : CmdPkt) : Nat := nsKey (c.p 4 1) (c.p 0 4)
  .next (runCmd 0x0805 .A false always (fun c s =>
    firstOf [(c.p 5 43 != 0, stBadParam), (c.p 0 4 > 1024 || !s.store.nss.has (key c), stNotFound),
      (s.store.cmds.any fun d => d.2.ns == key c, stBusy)]) quiet
    (fun c s =>
      let n := s.store.nss.get (key c)
      let b := lbaSize n.lbaf
      let lo := lineKey n.sp n.driveNsid (n.start * b / 4096)
      let hi := lineKey n.sp n.driveNsid (((n.start + n.count) * b - 1) / 4096)
      let s := invalidate (fun k => lo ≤ k && k ≤ hi) s
      done { s with store := { s.store with nss := s.store.nss.del (key c) } } 0) c s)

/-! ## Commands (R447 to R450, R502) -/

/-- NVME_COMMAND: the oldest command of a target connection, or of a local submission queue; at most 128 R2Ts are outstanding on a
connection (R438). -/
def execNvmeCommand (onum : Nat) (s : State) : Host.Outcome State Fault Refusal :=
  let o := objOf s onum
  if !hasObj s onum || o.state != 3 || !s.xport.cached.contains onum then .next s
  else if o.type == 6 then
    match o.work.findIdx? fun w => w.op == 9 && w.formed == 0 && w.fin.isNone with
    | none => .next s
    | some i =>
      let s := setObj onum (fun o => { o with work := o.work.mapIdx fun j w => if j == i then { w with formed := 1 } else w }) s
      .next (serveCommand onum (o.work.getD i {}).data [] s)
  else if (s.store.cmds.filter fun c => c.2.onum == onum && c.2.phase == 0).length ≥ 128 then .next s
  else
    match o.capsules with
    | [] => .next s
    | (c, inline) :: rest => .next (serveCommand onum c inline (setObj onum (fun o => { o with capsules := rest }) s))

/-- The bytes of a read: those of the lines that the cache served, and the drive's. -/
def mergeRead (s : State) (c : DriveCmd) (data : List Byte) : List Byte :=
  let n := s.store.nss.get c.ns
  let start := cmdStart s c
  (List.range (cmdLen s c)).map fun i =>
    if c.hits.contains (lineKey c.sp n.driveNsid ((start + i) / 4096)) then c.data.getD i 0 else data.getD i 0

/-- DRIVE_COMPLETION: honoured while the command is still at its drive; its status field and data. -/
def execDriveCompletion (sp : Fin 16) (id status : Nat) (data : List Byte) (s : State) : Host.Outcome State Fault Refusal :=
  let c := driveCmd s id
  if !s.store.cmds.has id || c.phase != 2 || c.sp != sp.val then .next s
  else if status != 0 then .next (finishCmd id (status % 2 ^ 15) 0 s)
  else if c.op == 2 then .next (readInHand id (setCmd id (fun c => { c with data := mergeRead s c data }) s))
  else .next (finishCmd id 0 (if c.op == 1 || c.op == 8 then c.data.length else 0) s)

/-- DRIVE_COMMAND_TIMEOUT (R502). -/
def execDriveCommandTimeout (id : Nat) (s : State) : Host.Outcome State Fault Refusal :=
  let c := driveCmd s id
  if !s.store.cmds.has id || c.phase != 2 || s.tick < c.deadline then .next s
  else .next (finishCmd id nvAbort 0 (countBlock 0xFB05 c.sp 0 (emit (.driveAbort c.sp id) s)))

/-- STORAGE_CACHE_FILL: the line is installed unless it was invalidated; at most 64 GiB of lines are kept (R449). -/
def execStorageCacheFill (line : Nat) (data : List Byte) (s : State) : Host.Outcome State Fault Refusal :=
  match s.store.fills.find? fun f => f.1 == line with
  | none => .next s
  | some f =>
    let s := { s with store := { s.store with fills := s.store.fills.eraseP fun f => f.1 == line } }
    if !f.2 then .next s
    else
      let full := s.store.lines.length ≥ 16777216
      let ls : SMap (List Byte) := if full then s.store.lines.eraseIdx (drawn 32 s % s.store.lines.length) else s.store.lines
      let s := if full then useDraw s else s
      .next { s with store := { s.store with lines := ls.put line (data.take 4096) } }

/-! ## Slots (R452, R497 to R502) -/

/-- Commands of a port are outstanding. -/
def portBusy (s : State) (p : Nat) : Bool := s.store.cmds.any fun c => c.2.sp == p

def slotCtlCheck (c : CmdPkt) (s : State) : Refuse :=
  let b := c.p 1 1
  firstOf [
    (c.p 0 1 > 15 || bits 1 1 b != 0 || bits 7 6 b != 0 || bits 3 2 b == 3 || bits 5 4 b == 3 || c.p 2 46 != 0, stBadParam),
    (s.kiln.blocks.contains (sliceId 10 (c.p 0 1)), stHwFault),
    (bits 0 0 b == 1 && !(sport s (c.p 0 1)).present, stBadState),
    (bits 0 0 b == 0 && (sport s (c.p 0 1)).powerOn && portBusy s (c.p 0 1), stBusy)]

/-- SLOT_CTL (R452, R499): the indicators, then power. -/
def execSlotCtl (c : CmdPkt) (s : State) : Host.Outcome State Fault Refusal :=
  .next (runCmd 0x0806 .A false always slotCtlCheck quiet (fun c s =>
    let p := c.p 0 1
    let b := c.p 1 1
    let on := bits 0 0 b == 1
    let was := (sport s p).powerOn
    let s := setSport p (fun q => { q with attn := bits 3 2 b, pwrInd := bits 5 4 b }) s
    if on && !was then
      done (driveSlot p (setSport p (fun q => { q with powerOn := true, perst := true, pwrInd := 2, onAt := s.tick }) s)) 0
    else if !on && was then done (removeDrive p 2 s) 0
    else done s 0) c s)

/-- DRIVE_PRESENCE_CHANGE (R500, R451). -/
def execDrivePresenceChange (sp : Fin 16) (present : Bool) (s : State) : Host.Outcome State Fault Refusal :=
  if (sport s sp.val).present == present then .next s
  else
    let on := (sport s sp.val).powerOn
    let s := setSport sp.val (fun q => { q with present := present, changed := true }) s
    if present then .next (postAll 0x0801 21 (fld 255 252 sp.val) s)
    else if on then .next (removeDrive sp.val 0 s)
    else .next s

/-- ATTENTION_BUTTON (R452, R500). -/
def execAttentionButton (sp : Fin 16) (s : State) : Host.Outcome State Fault Refusal :=
  .next (postAll 0x0803 21 (fld 255 252 sp.val) (setSport sp.val (fun q => { q with button := true }) s))

/-- SLOT_POWER_FAULT (R501). -/
def execSlotPowerFault (sp : Fin 16) (s : State) : Host.Outcome State Fault Refusal :=
  if !(sport s sp.val).powerOn then .next s
  else .next (removeDrive sp.val 1 (setSport sp.val (fun q => { q with fault := true }) s))

/-- DRIVE_LINK_DOWN (R450). -/
def execDriveLinkDown (sp : Fin 16) (s : State) : Host.Outcome State Fault Refusal :=
  if !(sport s sp.val).linkUp then .next s else .next (removeDrive sp.val 1 s)

/-- SLOT_PERST_RELEASE: 100 ms after power (R499). -/
def execSlotPerstRelease (sp : Fin 16) (s : State) : Host.Outcome State Fault Refusal :=
  let q := sport s sp.val
  if !q.powerOn || !q.perst || s.tick < q.onAt + msT 100 then .next s
  else .next (driveSlot sp.val (setSport sp.val (fun q => { q with perst := false }) s))

/-- DRIVE_LINK_UP (R499). -/
def execDriveLinkUp (sp : Fin 16) (s : State) : Host.Outcome State Fault Refusal :=
  let q := sport s sp.val
  if !q.powerOn || q.perst || q.linkUp then .next s
  else .next (setSport sp.val (fun q => { q with linkUp := true }) s)

/-- SLOT_LINK_DEADLINE: no link 1.1 s after power is handled as a power fault (R499, R501). -/
def execSlotLinkDeadline (sp : Fin 16) (s : State) : Host.Outcome State Fault Refusal :=
  let q := sport s sp.val
  if !q.powerOn || q.linkUp || s.tick < q.onAt + msT 1100 then .next s
  else .next (removeDrive sp.val 1 (setSport sp.val (fun q => { q with fault := true }) s))

/-- DRIVE_CONTROLLER_READY (R499). -/
def execDriveControllerReady (sp : Fin 16) (nss : List (Nat × Nat × Nat)) (s : State) : Host.Outcome State Fault Refusal :=
  let q := sport s sp.val
  if !q.powerOn || !q.linkUp || q.ready then .next s
  else .next (setSport sp.val (fun q => { q with ready := true, drives := nss, pwrInd := 1 }) s)

end Sys2Proof.Machine
end

