-- ==== Sys2Proof/Machine/TimeRows.lean ====
section
/-! DEFINITION. Device time and gate lists. -/
namespace Sys2Proof.Machine

/-! ## The queued changes of device time (R346, R349, R350, R360) -/

/-- What the tick adds (R346, R349, R350): the next queued change, if any; calibration constants that wait for it come into force
(R360). -/
def timeAfterTick (t : Time) : Time :=
  let step (f : DevTime → DevTime) (g : Time) : Time := { g with
    now := f g.now, replicas := g.replicas.map f, prev := t.now, cal := t.calNext.foldl (fun m e => m.put e.1 e.2) t.cal, calNext := [] }
  match t.queue with
  | [] => step (fun x => x.tick t.inc) t
  | .inc v _ _ :: rest => step (fun x => x.tick v) { t with inc := v, queue := rest }
  | .step d _ _ :: rest => step (fun x => (x.tick t.inc).add d) { t with queue := rest, steps := t.steps + 1 }
  | .set v _ _ :: rest => step (fun _ => v) { t with queue := rest, steps := t.steps + 1, untrusted := false }

/-- Device time after the ticks that the queued changes take. -/
def afterQueue : Nat → Time → Time
  | 0, t => t
  | k + 1, t => afterQueue k (timeAfterTick t)

/-- An offset step would leave device time before 0 s at the tick that carries it out, after the changes queued before it (R349). -/
def beforeZero (t : Time) (d : Int) : Bool :=
  let u := afterQueue t.queue.length t
  decide (((u.now.tick u.inc).units : Int) + d < 0)

/-! ## Device time commands (R345 to R351) -/

/-- A change is queued for the next tick, and its reply follows that tick (R346, R347). -/
def queueTime (t : TimeChange) (s : State) : CmdEnd := ({ s with time := { s.time with queue := s.time.queue ++ [t] } }, none)

def execTimeGet (c : CmdPkt) (s : State) : Host.Outcome State Fault Refusal :=
  .next (runCmd 0x0501 .V false always (fun _ _ => none) quiet (fun _ s => done s s.time.now.full) c s)

def execTimeIncSet (c : CmdPkt) (s : State) : Host.Outcome State Fault Refusal :=
  .next (runCmd 0x0502 .A false always
    (fun c _ => firstOf [(c.p 0 8 < 0x013FAE147B || c.p 0 8 > 0x014051EB85, stBadParam)]) quiet
    (fun c s => queueTime (.inc (c.p 0 8) c.fn c.sec) s) c s)

/-- The offset of TIME_ADJUST in units (R349). -/
def CmdPkt.offset (c : CmdPkt) : Int := toSigned 80 (c.p 0 10)

/-- JUMP_REFUSED (R386). -/
def postJumpRefused (c : CmdPkt) (s : State) : State :=
  postAll 0x0501 23 (fld 255 176 (c.p 0 10) + fld 175 128 (s.time.thr / 2 ^ 14)) s

/-- The offset exceeds the jump threshold (R349). -/
def beyondThreshold (c : CmdPkt) (s : State) : Bool := c.offset.natAbs > s.time.thr

def execTimeAdjust (c : CmdPkt) (s : State) : Host.Outcome State Fault Refusal :=
  .next (runCmd 0x0503 .A false always
    (fun c s =>
      if c.p 10 38 != 0 then some (stBadParam, 0)
      else if beyondThreshold c s then some (stDenied, 0x0501)
      else if beforeZero s.time c.offset then some (stBadParam, 0)
      else none)
    (fun c s => if c.p 10 38 == 0 && beyondThreshold c s then postJumpRefused c s else s)
    (fun c s => queueTime (.step c.offset c.fn c.sec) s) c s)

def execTimeSet (c : CmdPkt) (s : State) : Host.Outcome State Fault Refusal :=
  .next (runCmd 0x0504 .A true always
    (fun c _ => firstOf [(bits 79 62 (c.p 0 16) != 0 || bits 61 32 (c.p 0 16) ≥ 1000000000, stBadParam)]) quiet
    (fun c s => queueTime (.set (DevTime.ofFull (c.p 0 16)) c.fn c.sec) s) c s)

def execTimeJumpThr (c : CmdPkt) (s : State) : Host.Outcome State Fault Refusal :=
  .next (runCmd 0x0505 .A true always
    (fun c _ => firstOf [(c.p 0 10 < nsU 1000 || c.p 0 10 > nsU 1000000000, stBadParam)]) quiet
    (fun c s => done { s with time := { s.time with thr := c.p 0 10 } } 0) c s)

/-- R360: the constant comes into force at the next tick. -/
def execTsCalSet (c : CmdPkt) (s : State) : Host.Outcome State Fault Refusal :=
  .next (runCmd 0x0507 .A false always
    (fun c _ => firstOf [(c.p 0 2 ≥ 1024 || c.p 2 1 > 1, stBadParam)]) quiet
    (fun c s => done { s with time := { s.time with
      calNext := s.time.calNext.put (2 * c.p 0 2 + c.p 2 1) (toSigned 32 (c.p 4 4)) } } 0) c s)

/-- R370. -/
def execPpsCfg (c : CmdPkt) (s : State) : Host.Outcome State Fault Refusal :=
  .next (runCmd 0x0508 .A false always
    (fun c s => if c.p 0 1 % 2 == 1 then
        firstOf [(c.p 4 4 < 1 || c.p 4 4 > 500000, stBadParam), (!ownsBall s 0 1, stConflict)]
      else none) quiet
    (fun c s =>
      if c.p 0 1 % 2 == 1 then done { s with time := { s.time with ppsOn := true, ppsWidth := c.p 4 4 } } 0
      else done { s with time := { s.time with ppsOn := false, ppsHigh := false } } 0) c s)

/-! ## The tick (R81, R87, R346, R354) -/

/-- The ring whose command this tick carries out. -/
def tickRing (t : Time) : Option (Nat × Bool) :=
  match t.queue with
  | [] => none
  | .inc _ f c :: _ => some (f, c)
  | .step _ f c :: _ => some (f, c)
  | .set _ f c :: _ => some (f, c)

/-- CK_P has an edge in clock n of a region at a stretch step: 16, 15, 14 or 12 of every 16 (R55, R58, log 69). -/
def ckpEdge (step n : Nat) : Bool := decide (n % 16 < [16, 15, 14, 12].getD step 12)

/-- CK_P clock n of a core carries a dummy block (R77, R397). -/
def dummySlot (s : State) (c n : Nat) : Bool :=
  ckpEdge (stretchStep s (c / 5)) n && coreUsable s c && decide (Config.cipherDraw c n % 2 ^ 16 < s.ciph.rate)

/-- CK_P clock n of a core can take a real block. -/
def realSlot (s : State) (c n : Nat) : Bool := ckpEdge (stretchStep s (c / 5)) n && !dummySlot s c n

/-- The two CK_P clocks of a tick at the cipher cores: dummy slots are counted, and waiting blocks enter in the others (R397). -/
def cipherClocks (s : State) : State :=
  if !s.pwr.released then s
  else
    let n := 2 * s.tick
    let real (c : Nat) : Nat := bit (realSlot s c n) + bit (realSlot s c (n + 1))
    let dummy (c : Nat) : Nat := wrapAdd 64 (s.ciph.dummies.getD c 0) (bit (dummySlot s c n) + bit (dummySlot s c (n + 1)))
    { s with ciph := { s.ciph with
      bound := drainOps s.ciph.bound real
      dummies := if s.ciph.rate == 0 then s.ciph.dummies else (List.range 80).map dummy } }

/-- R81: one CK_T tick. Device time stands still while the root PLL is unlocked (R45); the refill is its own row (log 6). -/
def execCkTTick (s : State) : Host.Outcome State Fault Refusal :=
  if !s.pwr.ckLocked then .next s
  else
    let ring := tickRing s.time
    let back := (timeAfterTick s.time).now.units < s.time.now.units
    let s := cipherClocks { s with tick := s.tick + 1, time := timeAfterTick s.time }
    let s := if back then kilnStart s else s
    match ring with
    | none => .next s
    | some (f, c) =>
      if s.fw.ready then .next (finishExec f c stOk 0 s)
      else .next (setRing f c (fun r => { r with exec := r.exec.map fun e => { e with committed := true } }) s)

def execTimeReplicaCheck (k : Fin 23) (upset : Option DevTime) (s : State) : Host.Outcome State Fault Refusal :=
  let found := upset.getD (s.time.replicas.getD k.val s.time.now)
  if found == s.time.now then .next s
  else
    let s := { s with time := { s.time with replicas := s.time.replicas.set k.val s.time.now } }
    .next (postAll 0x0505 k.val (fld 255 248 k.val) s)

/-! ## Pulse per second (R371) -/

/-- R371: a second boundary was passed by the last tick, going forward: a pulse of the whole width begins, be it during one. -/
def execPpsRise (s : State) : Host.Outcome State Fault Refusal :=
  let t := s.time
  if t.ppsOn && !t.untrusted && decide (0 < DevTime.diff t.now t.prev) && t.now.sec != t.prev.sec then
    .next { s with time := { t with ppsHigh := true, ppsFallAt := s.tick + usT t.ppsWidth, prev := t.now } }
  else .next s

def execPpsFall (s : State) : Host.Outcome State Fault Refusal :=
  if s.time.ppsHigh && decide (s.time.ppsFallAt ≤ s.tick) then .next { s with time := { s.time with ppsHigh := false } }
  else .next s

/-! ## Gate lists (R373 to R382) -/

/-- R379; an earlier pending list that reaches its start at this tick starts first (R380). -/
def execGateLoad (c : CmdPkt) (s : State) : Host.Outcome State Fault Refusal :=
  .next (runCmd 0x0506 .A false always
    (fun c s =>
      let bs := c.ind.getD []
      let base := c.p 24 16
      firstOf [(!c.indirect || c.p 8 4 != bs.length || bs.length % 8 != 0 || bs.length > 2048 || !gateEntriesOk bs
          || c.p 14 1 > 1 || c.p 15 1 != 0 || c.p 40 8 != 0 || !cycleOk (c.p 16 8) || bits 79 62 base != 0
          || bits 61 32 base ≥ 1000000000, stBadParam),
        (!setActive s, stBadState), (!isLogicalPort s (c.p 12 2), stBadParam),
        (c.p 14 1 == 1 && strobeTaken s (c.p 12 2), stConflict)]) quiet
    (fun c s =>
      let p := c.p 12 2
      let (l, n) := startGate (DevTime.ofFull (c.p 24 16))
        { cycle := c.p 16 8, strobe := c.p 14 1 == 1, entries := gateEntries (c.ind.getD []) } s.time.now
      let s := setGate p (fun g => { startPending g s.time.now with pend := some l }) s
      done (postStartAdvanced p n l.start false s)
        (fld 127 64 l.start.stamp + fld 63 32 (min n (2 ^ 32 - 1)) + fld 0 0 (bit (n != 0)))) c s)

/-- The shared balls that the gate strobe drives pulse for 8 CK_T ticks (R372). -/
def strobePulse (s : State) : State :=
  (List.range 8).foldl (fun s b => if ballEnabled s b 2 then { s with strobe := s.strobe.put b (s.tick + 8) } else s) s

/-- R378: the pending list of a port starts. -/
def execGateListStart (port : Fin 1024) (s : State) : Host.Outcome State Fault Refusal :=
  match (s.gates.get port.val).pend with
  | none => .next s
  | some l =>
    if s.time.now.reached l.start then
      let s := setGate port.val (fun g => startPending g s.time.now) s
      .next (if l.strobe then strobePulse s else s)
    else .next s

/-- R376: the gates of a port take the value of the running list at this tick; a cycle start may strobe (R372). -/
def execGateStateChange (port : Fin 1024) (s : State) : Host.Outcome State Fault Refusal :=
  let g := s.gates.get port.val
  let s' := setGate port.val (fun g => { g with gates := gateState g.run s.time.now }) s
  match g.run with
  | some l =>
    if l.strobe && l.cycle != 0 && l.offset s.time.now < s.time.inc then .next (strobePulse s') else .next s'
  | none => .next s'

end Sys2Proof.Machine
end

