-- ==== Sys2Proof/Machine/XportRows.lean ====
section
/-! DEFINITION. Commands and events of transport objects (R424 to R437). -/
namespace Sys2Proof.Machine

/-! ## QP_CREATE, QP_MODIFY, QP_DESTROY, CONN_QUERY -/

/-- Contexts of a type's kind that an engine has left (R425). -/
def freeContexts (s : State) (type e : Nat) : Nat :=
  let mine := s.xport.objs.filter fun o => o.1 / 262144 == e
  let all := 262144 - (if e == 0 then 16 else 0) - mine.length
  if isTcp type then min all (65536 - (mine.filter fun o => isTcp o.2.type).length) else all

/-- A transport engine, or the stack whose HBM holds its contexts, is retired (R588). -/
def engineLost (s : State) (e : Nat) : Bool := s.kiln.blocks.contains (sliceId 6 e) || s.kiln.blocks.contains (sliceId 7 e)

/-- The engine that a QP_CREATE names or leaves to the adapter (R429). -/
def engineFor (s : State) (type want : Nat) : Nat :=
  if want != 0xFF then want
  else [1, 2, 3].foldl (fun b e => if !engineLost s e && (engineLost s b || freeContexts s type e > freeContexts s type b) then e else b) 0

/-- The lowest object number of an engine that is free and not held (R424, R431). -/
def freeOnum (s : State) (e : Nat) : Option Nat :=
  let lo := if e == 0 then 16 else 262144 * e
  ((List.range (s.xport.objs.length + s.xport.heldNums.length + 1)).map (· + lo)).find? fun n =>
    n / 262144 == e && !hasObj s n && !(s.xport.heldNums.any fun h => h.1 == n)

def qpCreateCheck (c : CmdPkt) (s : State) : Refuse :=
  let t := c.p 0 1
  let e := engineFor s t (c.p 1 1)
  let mine (q : Nat) : Bool := queueIn s c.iid q
  firstOf [
    (t > 7 || (c.p 1 1 > 3 && c.p 1 1 != 0xFF), stBadParam),
    (c.p 9 39 != 0 || (t != 3 && t != 5 && c.p 8 1 != 0), stBadParam),
    (t != 7 && !mine (c.p 2 2), stBadParam),
    ((t == 0 || t == 1 || t == 2 || t == 4 || t == 6) && !mine (c.p 4 2), stBadParam),
    (t != 7 && !mine (c.p 6 2), stBadParam),
    (engineLost s e, stHwFault),
    (freeContexts s t e == 0 || (freeOnum s e).isNone, stNoResource)]

/-- QP_CREATE (R429): an object in RESET under the lowest free number of its engine. -/
def execQpCreate (c : CmdPkt) (s : State) : Host.Outcome State Fault Refusal :=
  .next (runCmd 0x0801 .P false always qpCreateCheck quiet (fun c s =>
    let n := (freeOnum s (engineFor s (c.p 0 1) (c.p 1 1))).getD 0
    let o : Obj := { type := c.p 0 1, iid := c.iid, sq := c.p 2 2, rq := c.p 4 2, cq := c.p 6 2, subsys := c.p 8 1 }
    done { s with xport := { s.xport with objs := s.xport.objs.put n o } } (fld 51 32 n)) c s)

/-- A command names an object of its IID. -/
def objectHere (s : State) (c : CmdPkt) (n : Nat) : Bool := hasObj s n && (objOf s n).iid == c.iid

/-- The MASK bits that a type's attributes have (R430). -/
def maskAllowed (t : Nat) : Nat :=
  let rc := if t == 0 || t == 4 || t == 5 then 0x3F else if t == 1 then 0x04 else 0
  rc + (if t ≤ 5 then 0x40 else 0) + (if t == 2 || t == 3 then 0x780 else 0) + (if t == 7 then 0x7800 else 0)

/-- The attribute block's values in range where they are applied (R430). -/
def attrsOk (m : Nat) (b : List Byte) : Bool :=
  (!m.testBit 1 || (1 ≤ rd b 3 1 && rd b 3 1 ≤ 5)) && (!m.testBit 6 || rateOk (rd b 16 6))
    && (!m.testBit 12 || 1 ≤ rd b 52 4) && (!m.testBit 13 || rd b 56 1 < 16) && (!m.testBit 14 || rd b 58 2 < 4096)

/-- The transitions of R431; the state it has is accepted. -/
def transitionOk (t now new : Nat) : Bool :=
  new == now || new == 0 || new == 5
    || (new == 1 && now == 0) || (new == 2 && now == 1) || (new == 3 && (now == 2 || now == 4)) || (new == 4 && now == 3)
    || (new == 3 && now == 0 && (t == 6 || t == 7))

/-- A key attribute is a handle that names no key (R405), and is not the value for none. -/
def noKey (s : State) (h : Nat) : Bool := h != 0xFFFFFFFF && (liveHandle s h).isNone

def qpModifyCheck (c : CmdPkt) (s : State) : Refuse :=
  let n := c.p 12 4
  let m := c.p 20 4
  let b := c.ind.getD []
  firstOf [
    (c.p 16 1 > 5 || c.p 17 3 != 0 || (!c.indirect && c.p 0 12 != 0) || c.p 24 24 != 0, stBadParam),
    (m != 0 && (!c.indirect || b.length < 64), stBadParam),
    (!objectHere s c n, stNotFound),
    (m &&& maskAllowed (objOf s n).type != m || !attrsOk m b, stBadParam),
    ((m.testBit 7 && noKey s (rd b 24 4)) || (m.testBit 8 && noKey s (rd b 28 4)), stNotFound),
    (!transitionOk (objOf s n).type (objOf s n).state (c.p 16 1), stBadState)]

/-- The attributes that a mask selects are applied (R430). -/
def applyAttrs (m : Nat) (b : List Byte) (o : Obj) : Obj :=
  let has (i : Nat) : Bool := m.testBit i
  let a := o.a
  let a := if has 0 then { a with destQpn := rd b 0 3 } else a
  let a := if has 1 then { a with pmtu := rd b 3 1 } else a
  let a := if has 2 then { a with sqPsn := rd b 4 3 } else a
  let a := if has 3 then { a with rqPsn := rd b 8 3 } else a
  let a := if has 4 then { a with timers := rd b 11 1 } else a
  let a := if has 5 then { a with rnr := rd b 12 1 } else a
  let a := if has 6 then { a with rate := rd b 16 6 } else a
  let a := if has 7 then { a with txKey := rd b 24 4 } else a
  let a := if has 8 then { a with rxKey := rd b 28 4 } else a
  let a := if has 9 then { a with sndNxt := rd b 32 4, rcvNxt := rd b 36 4 } else a
  let a := if has 10 then { a with tcpOpt := rd b 40 4 } else a
  let a := if has 11 then { a with mrBase := rd b 44 8 } else a
  let a := if has 12 then { a with mrLen := rd b 52 4 } else a
  let a := if has 13 then { a with mrAccess := rd b 56 1 } else a
  let a := if has 14 then { a with mrTag := rd b 58 2 } else a
  let o := { o with a := a }
  let o := if has 2 then { o with una := a.sqPsn, formPsn := a.sqPsn } else o
  let o := if has 8 then { o with tcp := { o.tcp with held := false } } else o
  if has 9 then
    let t := { o.tcp with sndUna := a.sndNxt, sndNxt := a.sndNxt, sndMax := a.sndNxt, rcvNxt := a.rcvNxt }
    { o with tcp := t }
  else o

/-- An object without its traffic (R431): RESET. -/
def Obj.cleared (o : Obj) : Obj := { o.dead with state := 0, una := o.a.sqPsn, formPsn := o.a.sqPsn, qid := none, h2c := [] }

/-- An object goes to RESET. -/
def resetObject (onum : Nat) (s : State) : State :=
  let s := dropReqs (objOf s onum).iid (fun k => k == .xport onum) (abandonRecord false onum (dropFormed onum s))
  setObj onum Obj.cleared s

/-- A new state takes effect (R431). -/
def enterState (onum new : Nat) (s : State) : State :=
  let o := objOf s onum
  if new == o.state then s
  else if new == 0 then resetObject onum s
  else if new == 5 then
    errObject onum (if isTcp o.type && o.state ≥ 2 then oweReset onum s else s)
  else
    let first := new == 3 && o.state != 4
    setObj onum (fun o => { o with
      state := new, retries := if first then o.retryCnt else o.retries, rnrLeft := if first then o.rnrRetry else o.rnrLeft
      tcp := if first then { o.tcp with cwnd := initialWindow o.mss } else o.tcp }) s

/-- QP_MODIFY (R430, R431). -/
def execQpModify (c : CmdPkt) (s : State) : Host.Outcome State Fault Refusal :=
  .next (runCmd 0x0802 .P false always qpModifyCheck quiet (fun c s =>
    let n := c.p 12 4
    let s := setObj n (applyAttrs (c.p 20 4) (c.ind.getD []) ∘ fun o => { o with
      tokens := if o.a.rate == 0 then tokenDepth else tokensNow s o, tokAt := s.tick }) s
    let s := enterState n (c.p 16 1) s
    done (if isTcp (objOf s n).type && (objOf s n).a.rxKey != 0xFFFFFFFF then openNext n s else s) 0) c s)

/-- QP_DESTROY (R431). -/
def execQpDestroy (c : CmdPkt) (s : State) : Host.Outcome State Fault Refusal :=
  .next (runCmd 0x0803 .P false always (fun c s =>
    let n := c.p 0 4
    firstOf [(c.p 4 44 != 0, stBadParam), (!objectHere s c n, stNotFound),
      ((objOf s n).state != 0 && (objOf s n).state != 5, stBadState)]) quiet
    (fun c s => done (destroyObject (c.p 0 4) s) 0) c s)

/-- The summary of R432. -/
def connSummary (o : Obj) : Nat :=
  let snd := if isTcp o.type then o.tcp.sndNxt else if o.type == 1 then o.a.sqPsn else o.formPsn
  let rcv := if isTcp o.type then o.tcp.rcvNxt else o.a.rqPsn
  fld 127 124 o.type + fld 123 120 o.state + fld 119 96 snd + fld 95 72 rcv + fld 71 64 o.retries + fld 63 32 o.cnpRx + fld 31 0 o.oos

/-- CONN_QUERY (R432). -/
def execConnQuery (c : CmdPkt) (s : State) : Host.Outcome State Fault Refusal :=
  .next (runCmd 0x0807 .P false always (fun c s =>
    firstOf [(c.p 4 44 != 0, stBadParam), (!objectHere s c (c.p 0 4), stNotFound)]) quiet
    (fun c s => done s (connSummary (objOf s (c.p 0 4)))) c s)

/-! ## Contexts and numbers (R426, R431) -/

/-- TRANSPORT_CONTEXT_FETCH: the context enters its engine's cache of 16,384, the oldest leaving. -/
def execTransportContextFetch (onum : Nat) (s : State) : Host.Outcome State Fault Refusal :=
  if !hasObj s onum || s.xport.cached.contains onum then .next s
  else
    let mine := s.xport.cached.filter fun n => n / 262144 == onum / 262144
    let out := if mine.length ≥ 16384 then mine.take 1 else []
    .next { s with xport := { s.xport with cached := (s.xport.cached.filter fun n => !out.contains n) ++ [onum] } }

/-- OBJECT_NUMBER_RELEASE: 2 s have passed since QP_DESTROY. -/
def execObjectNumberRelease (onum : Nat) (s : State) : Host.Outcome State Fault Refusal :=
  .next { s with xport := { s.xport with heldNums := s.xport.heldNums.filter fun h => !(h.1 == onum && decide (h.2 ≤ s.tick)) } }

/-! ## Packets (R426, R427, R433 to R437) -/

/-- The object that a packet handed to an engine names. -/
def pktObject (s : State) (p : Nat) : Nat := bits 29 0 (md (pkt s p) 15)

/-- A packet may be executed now: it is the oldest of its object, whose context is cached. -/
def engineTurn (s : State) (p : Nat) : Bool :=
  let n := pktObject s p
  (s.xport.inq.find? fun q => pktObject s q == n) == some p && (!hasObj s n || s.xport.cached.contains n)

/-- A packet leaves the engine. -/
def takeEngine (p : Nat) (s : State) : State :=
  removePkt p { s with xport := { s.xport with inq := s.xport.inq.filter (· != p) } }

/-- The object receives (R431). -/
def receives (o : Obj) : Bool := 2 ≤ o.state && o.state ≤ 4

/-- The packet's congestion mark: its IP header, or its SFH (R435). -/
def marked (x : Pkt) (h : IpHdr) : Bool := ipCe x.bytes h || (match x.sfh0 with | some h => bits 62 62 h == 1 | none => false)

/-- A packet at an engine names an object of another type: it is dropped and counted (R427). -/
def wrongType (p : Nat) (s : State) : State := countBlock 0xFC00 (pktObject s p / 262144) (pktLen (pkt s p)) (takeEngine p s)

/-- ROCE_PACKET_RECEIVED. The ICRC and the congestion mark are those of the packet's own bytes: `_icrcOk` and `_ce` select nothing. -/
def execRocePacketReceived (p off : Nat) (_icrcOk _ce : Bool) (s : State) : Host.Outcome State Fault Refusal :=
  let n := pktObject s p
  let x := pkt s p
  let o := objOf s n
  if !engineTurn s p || o.reads.any fun r => r.result.isNone then .next s
  else if hasObj s n && !isRoce o.type then .next (wrongType p s)
  else
    match roceIn x.bytes off with
    | none => .next (takeEngine p s)
    | some (t, h) =>
      if rd t 0 1 == 0x81 then .next s
      else
        let s := takeEngine p s
        .next (if hasObj s n && receives o && t.length ≥ 12 then rocePacketIn n t (marked x h) s else s)

/-- CNP_RECEIVED: counted, and nothing else changes. -/
def execCnpReceived (p off : Nat) (s : State) : Host.Outcome State Fault Refusal :=
  let n := pktObject s p
  let x := pkt s p
  if !engineTurn s p then .next s
  else if hasObj s n && !isRoce (objOf s n).type then .next (wrongType p s)
  else
    match roceIn x.bytes off with
    | none => .next (takeEngine p s)
    | some (t, _) =>
      if rd t 0 1 != 0x81 then .next s
      else
        let o := objOf s n
        let s := takeEngine p s
        .next (if receives o then setObj n (fun o => { o with cnpRx := satAdd 32 o.cnpRx 1 }) s else s)

/-- TCP_SEGMENT_RECEIVED. The checksum and the congestion mark are those of the segment's own bytes: `_csumOk` and `_ce` select
nothing. -/
def execTcpSegmentReceived (p off : Nat) (_csumOk _ce : Bool) (s : State) : Host.Outcome State Fault Refusal :=
  let n := pktObject s p
  let x := pkt s p
  let o := objOf s n
  if !engineTurn s p then .next s
  else if hasObj s n && !isTcp o.type then .next (wrongType p s)
  else
    let s := takeEngine p s
    if !hasObj s n || !receives o then .next s
    else
      match tcpIn x.bytes off with
      | none => .next (countBlock 0xFC01 (n / 262144) (pktLen x) s)
      | some (g, h) => .next (segmentIn n g (marked x h) s)

/-! ## Timers (R430, R434, R437) -/

def execAckTimeout (onum : Nat) (s : State) : Host.Outcome State Fault Refusal :=
  match (objOf s onum).ackAt with
  | none => .next s
  | some d => if s.tick < d then .next s else .next (retransmit onum (objOf s onum).una s)

def execRnrTimerExpiry (onum : Nat) (s : State) : Host.Outcome State Fault Refusal :=
  let o := objOf s onum
  match o.rnrAt with
  | none => .next s
  | some d =>
    if s.tick < d then .next s
    else if o.rnrLeft == 0 then .next (failWork onum (oldest o) 6 0 s)
    else .next (setObj onum (fun o => { o with
      rnrAt := none, rnrLeft := if o.rnrLeft == 7 then 7 else o.rnrLeft - 1, ackAt := o.ackTicks.map (· + s.tick) }) s)

def execTcpRetransmitTimeout (onum : Nat) (s : State) : Host.Outcome State Fault Refusal :=
  let o := objOf s onum
  match o.tcp.rtxAt with
  | none => .next s
  | some d => if s.tick < d || !isTcp o.type then .next s else .next (tcpTimeout onum s)

end Sys2Proof.Machine
end

