-- ==== Sys2Proof/Machine/Dispatch.lean ====
section
/-! DEFINITION. The dispatch of every command to its meaning. -/
namespace Sys2Proof.Machine

/-- The effect of a command on everything but the queue. -/
def exec (i : Instr) (s : State) : Host.Outcome State Fault Refusal :=
  match i with
  | .powerOnAo => Sys2Proof.Machine.execPowerOnAo s
  | .adpPwrokRise cool => Sys2Proof.Machine.execAdpPwrokRise cool s
  | .pwrSeqFail => Sys2Proof.Machine.execPwrSeqFail s
  | .rootPllLock => Sys2Proof.Machine.execRootPllLock s
  | .fwBootCheck img0 img1 => Sys2Proof.Machine.execFwBootCheck img0 img1 s
  | .fwRecoveryTimeout => Sys2Proof.Machine.execFwRecoveryTimeout s
  | .startUpTest failed => Sys2Proof.Machine.execStartUpTest failed s
  | .fwReady => Sys2Proof.Machine.execFwReady s
  | .heartbeatTimeout core => Sys2Proof.Machine.execHeartbeatTimeout core s
  | .pllLockLost => Sys2Proof.Machine.execPllLockLost s
  | .pllRelock => Sys2Proof.Machine.execPllRelock s
  | .pwrPgLost n => Sys2Proof.Machine.execPwrPgLost n s
  | .adpPwrokFall => Sys2Proof.Machine.execAdpPwrokFall s
  | .thermComparatorTrip k tj => Sys2Proof.Machine.execThermComparatorTrip k tj s
  | .regionMonitorSample k vdd tj => Sys2Proof.Machine.execRegionMonitorSample k vdd tj s
  | .stretchStepRise k => Sys2Proof.Machine.execStretchStepRise k s
  | .stretchStepFall k => Sys2Proof.Machine.execStretchStepFall k s
  | .regionLimitRepeat k => Sys2Proof.Machine.execRegionLimitRepeat k s
  | .avsLimitRaise k => Sys2Proof.Machine.execAvsLimitRaise k s
  | .powerTotalSample total => Sys2Proof.Machine.execPowerTotalSample total s
  | .capStepRise => Sys2Proof.Machine.execCapStepRise s
  | .capStepFall => Sys2Proof.Machine.execCapStepFall s
  | .thermalStepRise k => Sys2Proof.Machine.execThermalStepRise k s
  | .thermalStepFall k => Sys2Proof.Machine.execThermalStepFall k s
  | .avsResponse bus rail r => Sys2Proof.Machine.execAvsResponse bus rail r s
  | .timeReplicaCheck k upset => Sys2Proof.Machine.execTimeReplicaCheck k upset s
  | .cmdRingPi fn sec value => Sys2Proof.Machine.execCmdRingPi fn sec value s
  | .cmdRingEnable fn sec value => Sys2Proof.Machine.execCmdRingEnable fn sec value s
  | .cmdRingDisable fn sec value => Sys2Proof.Machine.execCmdRingDisable fn sec value s
  | .commandFetchError fn sec => Sys2Proof.Machine.execCommandFetchError fn sec s
  | .adapterInfo c => Sys2Proof.Machine.execAdapterInfo c s
  | .fwStatus c => Sys2Proof.Machine.execFwStatus c s
  | .fwUpdate c img => Sys2Proof.Machine.execFwUpdate c img s
  | .fwActivate c => Sys2Proof.Machine.execFwActivate c s
  | .evtRingSet c => Sys2Proof.Machine.execEvtRingSet c s
  | .evtSubscribe c => Sys2Proof.Machine.execEvtSubscribe c s
  | .puntRingSet c => Sys2Proof.Machine.execPuntRingSet c s
  | .nodeIdSet c => Sys2Proof.Machine.execNodeIdSet c s
  | .counterRead c => Sys2Proof.Machine.execCounterRead c s
  | .instConfig c => Sys2Proof.Machine.execInstConfig c s
  | .instQuiesce c => Sys2Proof.Machine.execInstQuiesce c s
  | .instReset c => Sys2Proof.Machine.execInstReset c s
  | .instRemove c => Sys2Proof.Machine.execInstRemove c s
  | .queueRestart c => Sys2Proof.Machine.execQueueRestart c s
  | .dirtyLogStart c => Sys2Proof.Machine.execDirtyLogStart c s
  | .dirtyLogHarvest c => Sys2Proof.Machine.execDirtyLogHarvest c s
  | .dirtyLogStop c => Sys2Proof.Machine.execDirtyLogStop c s
  | .mboxStatus c => Sys2Proof.Machine.execMboxStatus c s
  | .tblInsert c => Sys2Proof.Machine.execTblInsert c s
  | .tblDelete c => Sys2Proof.Machine.execTblDelete c s
  | .tblModify c => Sys2Proof.Machine.execTblModify c s
  | .tblLookup c => Sys2Proof.Machine.execTblLookup c s
  | .tblDump c => Sys2Proof.Machine.execTblDump c s
  | .tblAgeCfg c => Sys2Proof.Machine.execTblAgeCfg c s
  | .learnCfg c => Sys2Proof.Machine.execLearnCfg c s
  | .setLoad c init => Sys2Proof.Machine.execSetLoad c init s
  | .setFire c => Sys2Proof.Machine.execSetFire c s
  | .setCancel c => Sys2Proof.Machine.execSetCancel c s
  | .setStatus c => Sys2Proof.Machine.execSetStatus c s
  | .featureEnable c => Sys2Proof.Machine.execFeatureEnable c s
  | .timeGet c => Sys2Proof.Machine.execTimeGet c s
  | .timeIncSet c => Sys2Proof.Machine.execTimeIncSet c s
  | .timeAdjust c => Sys2Proof.Machine.execTimeAdjust c s
  | .timeSet c => Sys2Proof.Machine.execTimeSet c s
  | .timeJumpThr c => Sys2Proof.Machine.execTimeJumpThr c s
  | .gateLoad c => Sys2Proof.Machine.execGateLoad c s
  | .tsCalSet c => Sys2Proof.Machine.execTsCalSet c s
  | .ppsCfg c => Sys2Proof.Machine.execPpsCfg c s
  | .keyDerive c => Sys2Proof.Machine.execKeyDerive c s
  | .keyDestroy c => Sys2Proof.Machine.execKeyDestroy c s
  | .keyQuery c => Sys2Proof.Machine.execKeyQuery c s
  | .ciphDummyRate c => Sys2Proof.Machine.execCiphDummyRate c s
  | .laneStatus c => Sys2Proof.Machine.execLaneStatus c s
  | .lanePark c => Sys2Proof.Machine.execLanePark c s
  | .laneWake c => Sys2Proof.Machine.execLaneWake c s
  | .substStatus c => Sys2Proof.Machine.execSubstStatus c s
  | .reorderStats c => Sys2Proof.Machine.execReorderStats c s
  | .qpCreate c => Sys2Proof.Machine.execQpCreate c s
  | .qpModify c => Sys2Proof.Machine.execQpModify c s
  | .qpDestroy c => Sys2Proof.Machine.execQpDestroy c s
  | .nsCreate c => Sys2Proof.Machine.execNsCreate c s
  | .nsDelete c => Sys2Proof.Machine.execNsDelete c s
  | .slotCtl c => Sys2Proof.Machine.execSlotCtl c s
  | .connQuery c => Sys2Proof.Machine.execConnQuery c s
  | .kilnStatus c => Sys2Proof.Machine.execKilnStatus c s
  | .kilnSchedule c => Sys2Proof.Machine.execKilnSchedule c s
  | .kilnRun c => Sys2Proof.Machine.execKilnRun c s
  | .failPolicy c => Sys2Proof.Machine.execFailPolicy c s
  | .marginRead c => Sys2Proof.Machine.execMarginRead c s
  | .fiSet c => Sys2Proof.Machine.execFiSet c s
  | .fiClear c => Sys2Proof.Machine.execFiClear c s
  | .pwrStatus c => Sys2Proof.Machine.execPwrStatus c s
  | .pwrCap c => Sys2Proof.Machine.execPwrCap c s
  | .telemCfg c => Sys2Proof.Machine.execTelemCfg c s
  | .pealJoin c => Sys2Proof.Machine.execPealJoin c s
  | .pealLeave c => Sys2Proof.Machine.execPealLeave c s
  | .pealStatus c => Sys2Proof.Machine.execPealStatus c s
  | .pealSend c => Sys2Proof.Machine.execPealSend c s
  | .windowWrite c => Sys2Proof.Machine.execWindowWrite c s
  | .windowCommit c => Sys2Proof.Machine.execWindowCommit c s
  | .msixMap c => Sys2Proof.Machine.execMsixMap c s
  | .queueRoCfg c => Sys2Proof.Machine.execQueueRoCfg c s
  | .registerWrite r v => Sys2Proof.Machine.execRegisterWrite r v s
  | .counterLowRead r => Sys2Proof.Machine.execCounterLowRead r s
  | .tmBufPeakReset u v => Sys2Proof.Machine.execTmBufPeakReset u v s
  | .pealCfgWrite v => Sys2Proof.Machine.execPealCfgWrite v s
  | .hostEvtAck fn v => Sys2Proof.Machine.execHostEvtAck fn v s
  | .hostPuntAck fn v => Sys2Proof.Machine.execHostPuntAck fn v s
  | .hostDbTx fn slot v => Sys2Proof.Machine.execHostDbTx fn slot v s
  | .hostDbRx fn slot v => Sys2Proof.Machine.execHostDbRx fn slot v s
  | .hostDbCq fn slot v => Sys2Proof.Machine.execHostDbCq fn slot v s
  | .hostQRingEnable fn slot v => Sys2Proof.Machine.execHostQRingEnable fn slot v s
  | .hostQRingDisable fn slot v => Sys2Proof.Machine.execHostQRingDisable fn slot v s
  | .hostIntxStsClear fn v => Sys2Proof.Machine.execHostIntxStsClear fn v s
  | .messagePost fn sec v => Sys2Proof.Machine.execMessagePost fn sec v s
  | .mboxAck fn sec => Sys2Proof.Machine.execMboxAck fn sec s
  | .mailboxTimeout fn sec => Sys2Proof.Machine.execMailboxTimeout fn sec s
  | .mboxDomainDownAccess fn write => Sys2Proof.Machine.execMboxDomainDownAccess fn write s
  | .mboxNoticePost fn => Sys2Proof.Machine.execMboxNoticePost fn s
  | .bar0BadAccess fn write => Sys2Proof.Machine.execBar0BadAccess fn write s
  | .bar2Request port offset r => Sys2Proof.Machine.execBar2Request port offset r s
  | .configRequest fn r => Sys2Proof.Machine.execConfigRequest fn r s
  | .busMasterDisable fn => Sys2Proof.Machine.execBusMasterDisable fn s
  | .busMasterEnable fn => Sys2Proof.Machine.execBusMasterEnable fn s
  | .functionLevelReset fn => Sys2Proof.Machine.execFunctionLevelReset fn s
  | .vfEnableChange port enable numVfs => Sys2Proof.Machine.execVfEnableChange port enable numVfs s
  | .devicePowerStateChange fn d3hot => Sys2Proof.Machine.execDevicePowerStateChange fn d3hot s
  | .msixUnmask fn vector => Sys2Proof.Machine.execMsixUnmask fn vector s
  | .hostLinkLoss port perst => Sys2Proof.Machine.execHostLinkLoss port perst s
  | .hostLinkUp port => Sys2Proof.Machine.execHostLinkUp port s
  | .readCompletion sp port tag e => Sys2Proof.Machine.execReadCompletion sp port tag e s
  | .completionTimeout sp port tag => Sys2Proof.Machine.execCompletionTimeout sp port tag s
  | .tagQuarantineEnd sp port tag => Sys2Proof.Machine.execTagQuarantineEnd sp port tag s
  | .nonceReq port => Sys2Proof.Machine.execNonceReq port s
  | .auth port buf => Sys2Proof.Machine.execAuth port buf s
  | .authVerified port => Sys2Proof.Machine.execAuthVerified port s
  | .close port => Sys2Proof.Machine.execClose port s
  | .lcAdvance port => Sys2Proof.Machine.execLcAdvance port s
  | .rootImport port buf => Sys2Proof.Machine.execRootImport port buf s
  | .kemKeyGet port ok => Sys2Proof.Machine.execKemKeyGet port ok s
  | .fuseProgram port => Sys2Proof.Machine.execFuseProgram port s
  | .scrapZeroise => Sys2Proof.Machine.execScrapZeroise s
  | .entropyHealthFail => Sys2Proof.Machine.execEntropyHealthFail s
  | .entropyReseed => Sys2Proof.Machine.execEntropyReseed s
  | .getVersion port => Sys2Proof.Machine.execGetVersion port s
  | .getCapabilities port minor => Sys2Proof.Machine.execGetCapabilities port minor s
  | .negotiateAlgorithms port sha3 mlDsa => Sys2Proof.Machine.execNegotiateAlgorithms port sha3 mlDsa s
  | .getDigests port => Sys2Proof.Machine.execGetDigests port s
  | .getCertificate port slot offset length => Sys2Proof.Machine.execGetCertificate port slot offset length s
  | .challenge port slot nonce => Sys2Proof.Machine.execChallenge port slot nonce s
  | .getMeasurements port index signed nonce => Sys2Proof.Machine.execGetMeasurements port index signed nonce s
  | .firingEffective => Sys2Proof.Machine.execFiringEffective s
  | .straddleWindowClose => Sys2Proof.Machine.execStraddleWindowClose s
  | .setDrainEnd => Sys2Proof.Machine.execSetDrainEnd s
  | .drainLimitExpiry => Sys2Proof.Machine.execDrainLimitExpiry s
  | .gateListStart port => Sys2Proof.Machine.execGateListStart port s
  | .gateStateChange port => Sys2Proof.Machine.execGateStateChange port s
  | .launchTimeReached lane cls => Sys2Proof.Machine.execLaunchTimeReached lane cls s
  | .ppsRise => Sys2Proof.Machine.execPpsRise s
  | .ppsFall => Sys2Proof.Machine.execPpsFall s
  | .bucketRefill => Sys2Proof.Machine.execBucketRefill s
  | .laneFrameReceived lane bytes more bad ui corr uncorr => Sys2Proof.Machine.execLaneFrameReceived lane bytes more bad ui corr uncorr s
  | .cutThroughThreshold p => Sys2Proof.Machine.execCutThroughThreshold p s
  | .pfcFrameReceived lane vector times => Sys2Proof.Machine.execPfcFrameReceived lane vector times s
  | .pfcPauseExpiry lane cls => Sys2Proof.Machine.execPfcPauseExpiry lane cls s
  | .pauseFrameReceived lane => Sys2Proof.Machine.execPauseFrameReceived lane s
  | .pfcXoffRepeat port cls => Sys2Proof.Machine.execPfcXoffRepeat port cls s
  | .passStart p upset => Sys2Proof.Machine.execPassStart p upset s
  | .parseNodeVisit p => Sys2Proof.Machine.execParseNodeVisit p s
  | .frameEndClaimTest p => Sys2Proof.Machine.execFrameEndClaimTest p s
  | .hbmLookupResult p bad => Sys2Proof.Machine.execHbmLookupResult p bad s
  | .nop p => Sys2Proof.Machine.execNop p s
  | .set p => Sys2Proof.Machine.execSet p s
  | .copy p => Sys2Proof.Machine.execCopy p s
  | .data p => Sys2Proof.Machine.execData p s
  | .add p => Sys2Proof.Machine.execAdd p s
  | .and p => Sys2Proof.Machine.execAnd p s
  | .or p => Sys2Proof.Machine.execOr p s
  | .xor p => Sys2Proof.Machine.execXor p s
  | .setif p => Sys2Proof.Machine.execSetif p s
  | .count p => Sys2Proof.Machine.execCount p s
  | .meter p => Sys2Proof.Machine.execMeter p s
  | .inval p => Sys2Proof.Machine.execInval p s
  | .encap p => Sys2Proof.Machine.execEncap p s
  | .decap p => Sys2Proof.Machine.execDecap p s
  | .write p => Sys2Proof.Machine.execWrite p s
  | .mplsPush p => Sys2Proof.Machine.execMplsPush p s
  | .l4adj p => Sys2Proof.Machine.execL4adj p s
  | .learn p => Sys2Proof.Machine.execLearn p s
  | .fragrec p => Sys2Proof.Machine.execFragrec p s
  | .recirc p => Sys2Proof.Machine.execRecirc p s
  | .punt p => Sys2Proof.Machine.execPunt p s
  | .drop p => Sys2Proof.Machine.execDrop p s
  | .fragmentDecided e => Sys2Proof.Machine.execFragmentDecided e s
  | .fragmentHoldExpiry p => Sys2Proof.Machine.execFragmentHoldExpiry p s
  | .fragmentLifetimeExpiry e => Sys2Proof.Machine.execFragmentLifetimeExpiry e s
  | .spray p => Sys2Proof.Machine.execSpray p s
  | .laneFrameBegin lane ui => Sys2Proof.Machine.execLaneFrameBegin lane ui s
  | .laneFrameEnd lane => Sys2Proof.Machine.execLaneFrameEnd lane s
  | .laneGoesDown lane cause => Sys2Proof.Machine.execLaneGoesDown lane cause s
  | .laneLockHeld lane => Sys2Proof.Machine.execLaneLockHeld lane s
  | .chimeHeard lane => Sys2Proof.Machine.execChimeHeard lane s
  | .laneWakeTimeout lane => Sys2Proof.Machine.execLaneWakeTimeout lane s
  | .laneRefLost k => Sys2Proof.Machine.execLaneRefLost k s
  | .reorderArrival p => Sys2Proof.Machine.execReorderArrival p s
  | .reorderTimeout key => Sys2Proof.Machine.execReorderTimeout key s
  | .reorderIdleExpiry key => Sys2Proof.Machine.execReorderIdleExpiry key s
  | .learnReport k => Sys2Proof.Machine.execLearnReport k s
  | .ageScanVisit inst table handle touched => Sys2Proof.Machine.execAgeScanVisit inst table handle touched s
  | .descriptorFetchComplete fn slot desc payload => Sys2Proof.Machine.execDescriptorFetchComplete fn slot desc payload s
  | .hostSchedulerSelect k => Sys2Proof.Machine.execHostSchedulerSelect k s
  | .rxPacketWrite fn slot buf => Sys2Proof.Machine.execRxPacketWrite fn slot buf s
  | .completionEntryIssue fn slot => Sys2Proof.Machine.execCompletionEntryIssue fn slot s
  | .cipherDispatch => Sys2Proof.Machine.execCipherDispatch s
  | .keyReload idx bad => Sys2Proof.Machine.execKeyReload idx bad s
  | .tagResult id => Sys2Proof.Machine.execTagResult id s
  | .cipherResultRelease id => Sys2Proof.Machine.execCipherResultRelease id s
  | .transportContextFetch onum => Sys2Proof.Machine.execTransportContextFetch onum s
  | .rocePacketReceived p off icrcOk ce => Sys2Proof.Machine.execRocePacketReceived p off icrcOk ce s
  | .cnpReceived p off => Sys2Proof.Machine.execCnpReceived p off s
  | .ackTimeout onum => Sys2Proof.Machine.execAckTimeout onum s
  | .tcpSegmentReceived p off csumOk ce => Sys2Proof.Machine.execTcpSegmentReceived p off csumOk ce s
  | .tcpRetransmitTimeout onum => Sys2Proof.Machine.execTcpRetransmitTimeout onum s
  | .objectNumberRelease onum => Sys2Proof.Machine.execObjectNumberRelease onum s
  | .nvmeCommand onum => Sys2Proof.Machine.execNvmeCommand onum s
  | .driveCompletion sp id status data => Sys2Proof.Machine.execDriveCompletion sp id status data s
  | .driveCommandTimeout id => Sys2Proof.Machine.execDriveCommandTimeout id s
  | .storageCacheFill line data => Sys2Proof.Machine.execStorageCacheFill line data s
  | .drivePresenceChange sp present => Sys2Proof.Machine.execDrivePresenceChange sp present s
  | .attentionButton sp => Sys2Proof.Machine.execAttentionButton sp s
  | .slotPowerFault sp => Sys2Proof.Machine.execSlotPowerFault sp s
  | .driveLinkDown sp => Sys2Proof.Machine.execDriveLinkDown sp s
  | .slotPerstRelease sp => Sys2Proof.Machine.execSlotPerstRelease sp s
  | .slotLinkDeadline sp => Sys2Proof.Machine.execSlotLinkDeadline sp s
  | .driveControllerReady sp nss => Sys2Proof.Machine.execDriveControllerReady sp nss s
  | .laserMatedChange k mated => Sys2Proof.Machine.execLaserMatedChange k mated s
  | .laserSourceFault k => Sys2Proof.Machine.execLaserSourceFault k s
  | .token bytes bad => Sys2Proof.Machine.execToken bytes bad s
  | .solicit bytes bad => Sys2Proof.Machine.execSolicit bytes bad s
  | .joinReq bytes bad => Sys2Proof.Machine.execJoinReq bytes bad s
  | .joinAck bytes bad => Sys2Proof.Machine.execJoinAck bytes bad s
  | .claim bytes bad => Sys2Proof.Machine.execClaim bytes bad s
  | .leave bytes bad => Sys2Proof.Machine.execLeave bytes bad s
  | .fireAnnounce bytes bad => Sys2Proof.Machine.execFireAnnounce bytes bad s
  | .fireCancel bytes bad => Sys2Proof.Machine.execFireCancel bytes bad s
  | .fireArmed bytes bad => Sys2Proof.Machine.execFireArmed bytes bad s
  | .time bytes bad => Sys2Proof.Machine.execTime bytes bad s
  | .alert bytes bad => Sys2Proof.Machine.execAlert bytes bad s
  | .telemetry bytes bad => Sys2Proof.Machine.execTelemetry bytes bad s
  | .pealContendSend clash => Sys2Proof.Machine.execPealContendSend clash s
  | .pealSuccessorWatch => Sys2Proof.Machine.execPealSuccessorWatch s
  | .pealTokenTimeout => Sys2Proof.Machine.execPealTokenTimeout s
  | .pealJoinWindowEnd => Sys2Proof.Machine.execPealJoinWindowEnd s
  | .pealSilence => Sys2Proof.Machine.execPealSilence s
  | .telemetryPeriod => Sys2Proof.Machine.execTelemetryPeriod s
  | .kilnBankStep k => Sys2Proof.Machine.execKilnBankStep k s
  | .kilnBufferStep => Sys2Proof.Machine.execKilnBufferStep s
  | .kilnBufferCopy => Sys2Proof.Machine.execKilnBufferCopy s
  | .kilnCipherStep => Sys2Proof.Machine.execKilnCipherStep s
  | .kilnCoreDrained => Sys2Proof.Machine.execKilnCoreDrained s
  | .kilnCipherDrainTimeout => Sys2Proof.Machine.execKilnCipherDrainTimeout s
  | .kilnFragWayStep k => Sys2Proof.Machine.execKilnFragWayStep k s
  | .kilnWayDrainTimeout k => Sys2Proof.Machine.execKilnWayDrainTimeout k s
  | .targetedTestStart slice => Sys2Proof.Machine.execTargetedTestStart slice s
  | .kilnTestDone slice fail => Sys2Proof.Machine.execKilnTestDone slice fail s
  | .patrolScrub corrected uncorrectable => Sys2Proof.Machine.execPatrolScrub corrected uncorrectable s
  | .crazingSample k rings taps steps => Sys2Proof.Machine.execCrazingSample k rings taps steps s
  | .guardbandReplan k => Sys2Proof.Machine.execGuardbandReplan k s
  | .fiWindowOpen lane => Sys2Proof.Machine.execFiWindowOpen lane s
  | .fiWindowEnd lane => Sys2Proof.Machine.execFiWindowEnd lane s
  | .fiHoldRelease lane => Sys2Proof.Machine.execFiHoldRelease lane s
  | .quiesceDrained iid => Sys2Proof.Machine.execQuiesceDrained iid s
  | .quiesceTimeout iid => Sys2Proof.Machine.execQuiesceTimeout iid s
  | .dirtyLogEntryWrite iid => Sys2Proof.Machine.execDirtyLogEntryWrite iid s
  | .dirtyLogConsumerRead iid value => Sys2Proof.Machine.execDirtyLogConsumerRead iid value s
  | .ckTTick => Sys2Proof.Machine.execCkTTick s
  | .pwrPgRise n => Sys2Proof.Machine.execPwrPgRise n s
  | .laserFaultClear k => Sys2Proof.Machine.execLaserFaultClear k s
  | .laneRefRestored k => Sys2Proof.Machine.execLaneRefRestored k s
  | .driveLinkUp sp => Sys2Proof.Machine.execDriveLinkUp sp s
  | .fireAnnounceLate => Sys2Proof.Machine.execFireAnnounceLate s
  | .rnrTimerExpiry onum => Sys2Proof.Machine.execRnrTimerExpiry onum s
  | .puntHandler k => Sys2Proof.Machine.execPuntHandler k s
  | .cipherCoreCheckError core => Sys2Proof.Machine.execCipherCoreCheckError core s
  | .entropyHealthRecover => Sys2Proof.Machine.execEntropyHealthRecover s
  | .functionLevelResetDone fn => Sys2Proof.Machine.execFunctionLevelResetDone fn s
  | .kilnCopyDone slice => Sys2Proof.Machine.execKilnCopyDone slice s

end Sys2Proof.Machine
end

