-- ==== Sys2Proof/WellFormed.lean ====
section
/-! DEFINITION. What a command must be to be one of the block's: every operand within the width that the spec gives it. -/
namespace Sys2Proof.Machine

/-- An operand that may be absent is well formed. -/
def optWf {α : Type} (f : α → Bool) : Option α → Bool
  | none => true
  | some a => f a

/-- A slice identifier names a slice (R572). -/
def sliceOk (slice : Nat) : Bool := decide (slice % 4096 < [272, 9, 80, 64, 16, 8, 4, 4, 16, 8, 16].getD (slice / 4096) 0)

/-- A temperature in S9.0 °C (R55). -/
def tempOk (t : Int) : Bool := decide (-256 ≤ t) && decide (t < 256)

/-- A packet comes from a function there is, on the secure channel of a physical function only, and holds a buffer only where it is
INDIRECT (R113, R114, R118, R505). -/
def CmdPkt.wf (c : CmdPkt) : Bool := iidOk c.fn && (!c.sec || isPf c.fn) && (c.ind.isNone || c.indirect)

/-- The fields of an image header within their widths (R129). -/
def FwImage.wf (i : FwImage) : Bool :=
  i.magic < 2 ^ 32 && i.format < 2 ^ 16 && i.hdrLen < 2 ^ 16 && i.version < 2 ^ 32 && i.svn < 2 ^ 32 && i.imageLen < 2 ^ 32
    && i.entryMgmt < 2 ^ 32 && i.entryCtrl < 2 ^ 32 && i.pubkey.length == 1952 && i.signature.length == 3309

/-- An initial entry (log 14) within the bounds of R264 to R268: a key of at most 64 bytes. -/
def InitEntry.wf (e : InitEntry) : Bool := e.inst < 16 && e.table < 256 && e.key.length ≤ 64 && e.plen ≤ 512

/-- The structured sections of a set image (log 14). -/
def SetInit.wf (i : SetInit) : Bool := i.entries.all InitEntry.wf && i.metas.all fun m => m.1 < 16

/-- A BAR0 offset within 64 KiB, or an internal address of 48 bits, aligned (R463, R667). -/
def RegPlace.wf : RegPlace → Bool
  | .bar0 fn offset => iidOk fn && offset < 65536 && offset % 4 == 0
  | .internal addr => addr < 2 ^ 48 && addr % 4 == 0

/-- A dword of the 4 KiB configuration space. -/
def CfgReq.wf : CfgReq → Bool
  | .read offset => offset < 4096 && offset % 4 == 0
  | .write offset _ => offset < 4096 && offset % 4 == 0

/-- A request of at most 4 KiB. -/
def Bar2Req.wf : Bar2Req → Bool
  | .read n => n ≤ 4096
  | .write bs => bs.length ≤ 4096

/-- A voltage read back in U12.4 mV. -/
def AvsResult.wf : AvsResult → Bool
  | .readback v => v < 65536
  | _ => true

end Sys2Proof.Machine

namespace Sys2Proof
open Sys2Proof.Machine

/-- The command is well formed. -/
def Instr.wf : Instr → Bool
  | .powerOnAo => true
  | .adpPwrokRise _ => true
  | .pwrSeqFail => true
  | .rootPllLock => true
  | .fwBootCheck img0 img1 => optWf FwImage.wf img0 && optWf FwImage.wf img1
  | .fwRecoveryTimeout => true
  | .startUpTest failed => failed.all fun f => sliceOk f.1
  | .fwReady => true
  | .heartbeatTimeout _ => true
  | .pllLockLost => true
  | .pllRelock => true
  | .pwrPgLost _ => true
  | .adpPwrokFall => true
  | .thermComparatorTrip _ tj => tempOk tj
  | .regionMonitorSample _ vdd tj => vdd < 4096 && tempOk tj
  | .stretchStepRise _ => true
  | .stretchStepFall _ => true
  | .regionLimitRepeat _ => true
  | .avsLimitRaise _ => true
  | .powerTotalSample total => total < 65536
  | .capStepRise => true
  | .capStepFall => true
  | .thermalStepRise _ => true
  | .thermalStepFall _ => true
  | .avsResponse _ _ r => r.wf
  | .timeReplicaCheck _ upset => optWf DevTime.valid upset
  | .cmdRingPi fn _ _ => iidOk fn
  | .cmdRingEnable fn _ _ => iidOk fn
  | .cmdRingDisable fn _ _ => iidOk fn
  | .commandFetchError fn _ => iidOk fn
  | .adapterInfo c => c.wf
  | .fwStatus c => c.wf
  | .fwUpdate c img => c.wf && img.wf
  | .fwActivate c => c.wf
  | .evtRingSet c => c.wf
  | .evtSubscribe c => c.wf
  | .puntRingSet c => c.wf
  | .nodeIdSet c => c.wf
  | .counterRead c => c.wf
  | .instConfig c => c.wf
  | .instQuiesce c => c.wf
  | .instReset c => c.wf
  | .instRemove c => c.wf
  | .queueRestart c => c.wf
  | .dirtyLogStart c => c.wf
  | .dirtyLogHarvest c => c.wf
  | .dirtyLogStop c => c.wf
  | .mboxStatus c => c.wf
  | .tblInsert c => c.wf
  | .tblDelete c => c.wf
  | .tblModify c => c.wf
  | .tblLookup c => c.wf
  | .tblDump c => c.wf
  | .tblAgeCfg c => c.wf
  | .learnCfg c => c.wf
  | .setLoad c init => c.wf && init.wf
  | .setFire c => c.wf
  | .setCancel c => c.wf
  | .setStatus c => c.wf
  | .featureEnable c => c.wf
  | .timeGet c => c.wf
  | .timeIncSet c => c.wf
  | .timeAdjust c => c.wf
  | .timeSet c => c.wf
  | .timeJumpThr c => c.wf
  | .gateLoad c => c.wf
  | .tsCalSet c => c.wf
  | .ppsCfg c => c.wf
  | .keyDerive c => c.wf
  | .keyDestroy c => c.wf
  | .keyQuery c => c.wf
  | .ciphDummyRate c => c.wf
  | .laneStatus c => c.wf
  | .lanePark c => c.wf
  | .laneWake c => c.wf
  | .substStatus c => c.wf
  | .reorderStats c => c.wf
  | .qpCreate c => c.wf
  | .qpModify c => c.wf
  | .qpDestroy c => c.wf
  | .nsCreate c => c.wf
  | .nsDelete c => c.wf
  | .slotCtl c => c.wf
  | .connQuery c => c.wf
  | .kilnStatus c => c.wf
  | .kilnSchedule c => c.wf
  | .kilnRun c => c.wf
  | .failPolicy c => c.wf
  | .marginRead c => c.wf
  | .fiSet c => c.wf
  | .fiClear c => c.wf
  | .pwrStatus c => c.wf
  | .pwrCap c => c.wf
  | .telemCfg c => c.wf
  | .pealJoin c => c.wf
  | .pealLeave c => c.wf
  | .pealStatus c => c.wf
  | .pealSend c => c.wf
  | .windowWrite c => c.wf
  | .windowCommit c => c.wf
  | .msixMap c => c.wf
  | .queueRoCfg c => c.wf
  | .registerWrite r _ => r.wf
  | .counterLowRead r => r.wf
  | .tmBufPeakReset _ _ => true
  | .pealCfgWrite _ => true
  | .hostEvtAck fn _ => iidOk fn
  | .hostPuntAck fn _ => iidOk fn
  | .hostDbTx fn slot _ => iidOk fn && slot < 256
  | .hostDbRx fn slot _ => iidOk fn && slot < 256
  | .hostDbCq fn slot _ => iidOk fn && slot < 256
  | .hostQRingEnable fn slot _ => iidOk fn && slot < 256
  | .hostQRingDisable fn slot _ => iidOk fn && slot < 256
  | .hostIntxStsClear fn _ => iidOk fn
  | .messagePost fn _ _ => iidOk fn
  | .mboxAck fn _ => iidOk fn
  | .mailboxTimeout fn _ => iidOk fn
  | .mboxDomainDownAccess fn _ => iidOk fn
  | .mboxNoticePost fn => iidOk fn
  | .bar0BadAccess fn _ => iidOk fn
  | .bar2Request _ offset r => offset < 68719476736 && r.wf
  | .configRequest fn r => iidOk fn && r.wf
  | .busMasterDisable fn => iidOk fn
  | .busMasterEnable fn => iidOk fn
  | .functionLevelReset fn => iidOk fn
  | .vfEnableChange _ _ numVfs => numVfs ≤ 512
  | .devicePowerStateChange fn _ => iidOk fn
  | .msixUnmask fn vector => iidOk fn && vector < 1024
  | .hostLinkLoss _ _ => true
  | .hostLinkUp _ => true
  | .readCompletion _ _ tag _ => tag < 1024
  | .completionTimeout _ _ tag => tag < 1024
  | .tagQuarantineEnd _ _ tag => tag < 1024
  | .nonceReq _ => true
  | .auth _ _ => true
  | .authVerified _ => true
  | .close _ => true
  | .lcAdvance _ => true
  | .rootImport _ _ => true
  | .kemKeyGet _ _ => true
  | .fuseProgram _ => true
  | .scrapZeroise => true
  | .entropyHealthFail => true
  | .entropyReseed => true
  | .getVersion _ => true
  | .getCapabilities _ _ => true
  | .negotiateAlgorithms _ _ _ => true
  | .getDigests _ => true
  | .getCertificate _ slot _ _ => slot < 8
  | .challenge _ slot nonce => slot < 8 && nonce.length == 32
  | .getMeasurements _ _ _ nonce => nonce.length == 32
  | .firingEffective => true
  | .straddleWindowClose => true
  | .setDrainEnd => true
  | .drainLimitExpiry => true
  | .gateListStart _ => true
  | .gateStateChange _ => true
  | .launchTimeReached _ _ => true
  | .ppsRise => true
  | .ppsFall => true
  | .bucketRefill => true
  | .laneFrameReceived _ bytes _ _ _ _ _ => bytes.length ≤ 16384
  | .cutThroughThreshold _ => true
  | .pfcFrameReceived _ _ times => times.length == 8 && times.all (· < 65536)
  | .pfcPauseExpiry _ _ => true
  | .pauseFrameReceived _ => true
  | .pfcXoffRepeat _ _ => true
  | .passStart _ upset => upset.all fun u => u.1 < 256 && u.2.1 < 2 ^ 20 && u.2.2 < 64
  | .parseNodeVisit _ => true
  | .frameEndClaimTest _ => true
  | .hbmLookupResult _ bad => bad.all fun u => u.1 < 2 && u.2.2 < 65536
  | .nop _ => true
  | .set _ => true
  | .copy _ => true
  | .data _ => true
  | .add _ => true
  | .and _ => true
  | .or _ => true
  | .xor _ => true
  | .setif _ => true
  | .count _ => true
  | .meter _ => true
  | .inval _ => true
  | .encap _ => true
  | .decap _ => true
  | .write _ => true
  | .mplsPush _ => true
  | .l4adj _ => true
  | .learn _ => true
  | .fragrec _ => true
  | .recirc _ => true
  | .punt _ => true
  | .drop _ => true
  | .fragmentDecided e => e < 65536
  | .fragmentHoldExpiry _ => true
  | .fragmentLifetimeExpiry e => e < 65536
  | .spray _ => true
  | .laneFrameBegin _ _ => true
  | .laneFrameEnd _ => true
  | .laneGoesDown _ _ => true
  | .laneLockHeld _ => true
  | .chimeHeard _ => true
  | .laneWakeTimeout _ => true
  | .laneRefLost _ => true
  | .reorderArrival _ => true
  | .reorderTimeout key => key < 2097152
  | .reorderIdleExpiry key => key < 2097152
  | .learnReport _ => true
  | .ageScanVisit _ _ _ _ => true
  | .descriptorFetchComplete fn slot _ _ => iidOk fn && slot < 256
  | .hostSchedulerSelect _ => true
  | .rxPacketWrite fn slot _ => iidOk fn && slot < 256
  | .completionEntryIssue fn slot => iidOk fn && slot < 256
  | .cipherDispatch => true
  | .keyReload idx _ => idx < 1048576
  | .tagResult _ => true
  | .cipherResultRelease _ => true
  | .transportContextFetch onum => onum < 1048576
  | .rocePacketReceived _ _ _ _ => true
  | .cnpReceived _ _ => true
  | .ackTimeout onum => onum < 1048576
  | .tcpSegmentReceived _ _ _ _ => true
  | .tcpRetransmitTimeout onum => onum < 1048576
  | .objectNumberRelease onum => onum < 1048576
  | .nvmeCommand onum => onum < 1048576
  | .driveCompletion _ _ _ _ => true
  | .driveCommandTimeout _ => true
  | .storageCacheFill _ _ => true
  | .drivePresenceChange _ _ => true
  | .attentionButton _ => true
  | .slotPowerFault _ => true
  | .driveLinkDown _ => true
  | .slotPerstRelease _ => true
  | .slotLinkDeadline _ => true
  | .driveControllerReady _ _ => true
  | .laserMatedChange _ _ => true
  | .laserSourceFault _ => true
  | .token bytes _ => bytes.length ≤ 42
  | .solicit bytes _ => bytes.length ≤ 42
  | .joinReq bytes _ => bytes.length ≤ 42
  | .joinAck bytes _ => bytes.length ≤ 42
  | .claim bytes _ => bytes.length ≤ 42
  | .leave bytes _ => bytes.length ≤ 42
  | .fireAnnounce bytes _ => bytes.length ≤ 42
  | .fireCancel bytes _ => bytes.length ≤ 42
  | .fireArmed bytes _ => bytes.length ≤ 42
  | .time bytes _ => bytes.length ≤ 42
  | .alert bytes _ => 1 ≤ bytes.length && bytes.length ≤ 43
  | .telemetry bytes _ => bytes.length ≤ 42
  | .pealContendSend _ => true
  | .pealSuccessorWatch => true
  | .pealTokenTimeout => true
  | .pealJoinWindowEnd => true
  | .pealSilence => true
  | .telemetryPeriod => true
  | .kilnBankStep _ => true
  | .kilnBufferStep => true
  | .kilnBufferCopy => true
  | .kilnCipherStep => true
  | .kilnCoreDrained => true
  | .kilnCipherDrainTimeout => true
  | .kilnFragWayStep _ => true
  | .kilnWayDrainTimeout _ => true
  | .targetedTestStart slice => sliceOk slice
  | .kilnTestDone slice fail => sliceOk slice && optWf (fun f => f.1 < 4294967296 && f.2 < 16) fail
  | .patrolScrub _ _ => true
  | .crazingSample _ rings taps steps => rings.length ≤ 6 && taps.length ≤ 4 && taps.all (· < 64) && steps.length ≤ 4 && steps.all (· < 64)
  | .guardbandReplan _ => true
  | .fiWindowOpen _ => true
  | .fiWindowEnd _ => true
  | .fiHoldRelease _ => true
  | .quiesceDrained iid => iidOk iid
  | .quiesceTimeout iid => iidOk iid
  | .dirtyLogEntryWrite iid => iidOk iid
  | .dirtyLogConsumerRead iid _ => iidOk iid
  | .ckTTick => true
  | .pwrPgRise _ => true
  | .laserFaultClear _ => true
  | .laneRefRestored _ => true
  | .driveLinkUp _ => true
  | .fireAnnounceLate => true
  | .rnrTimerExpiry onum => onum < 1048576
  | .puntHandler _ => true
  | .cipherCoreCheckError _ => true
  | .entropyHealthRecover => true
  | .functionLevelResetDone fn => iidOk fn
  | .kilnCopyDone slice => sliceOk slice

/-- The command packet that a command brings from a ring (R113); none where it is no packet. -/
def Instr.packet : Instr → Option CmdPkt
  | .powerOnAo => none
  | .adpPwrokRise _ => none
  | .pwrSeqFail => none
  | .rootPllLock => none
  | .fwBootCheck _ _ => none
  | .fwRecoveryTimeout => none
  | .startUpTest _ => none
  | .fwReady => none
  | .heartbeatTimeout _ => none
  | .pllLockLost => none
  | .pllRelock => none
  | .pwrPgLost _ => none
  | .adpPwrokFall => none
  | .thermComparatorTrip _ _ => none
  | .regionMonitorSample _ _ _ => none
  | .stretchStepRise _ => none
  | .stretchStepFall _ => none
  | .regionLimitRepeat _ => none
  | .avsLimitRaise _ => none
  | .powerTotalSample _ => none
  | .capStepRise => none
  | .capStepFall => none
  | .thermalStepRise _ => none
  | .thermalStepFall _ => none
  | .avsResponse _ _ _ => none
  | .timeReplicaCheck _ _ => none
  | .cmdRingPi _ _ _ => none
  | .cmdRingEnable _ _ _ => none
  | .cmdRingDisable _ _ _ => none
  | .commandFetchError _ _ => none
  | .adapterInfo c => some c
  | .fwStatus c => some c
  | .fwUpdate c _ => some c
  | .fwActivate c => some c
  | .evtRingSet c => some c
  | .evtSubscribe c => some c
  | .puntRingSet c => some c
  | .nodeIdSet c => some c
  | .counterRead c => some c
  | .instConfig c => some c
  | .instQuiesce c => some c
  | .instReset c => some c
  | .instRemove c => some c
  | .queueRestart c => some c
  | .dirtyLogStart c => some c
  | .dirtyLogHarvest c => some c
  | .dirtyLogStop c => some c
  | .mboxStatus c => some c
  | .tblInsert c => some c
  | .tblDelete c => some c
  | .tblModify c => some c
  | .tblLookup c => some c
  | .tblDump c => some c
  | .tblAgeCfg c => some c
  | .learnCfg c => some c
  | .setLoad c _ => some c
  | .setFire c => some c
  | .setCancel c => some c
  | .setStatus c => some c
  | .featureEnable c => some c
  | .timeGet c => some c
  | .timeIncSet c => some c
  | .timeAdjust c => some c
  | .timeSet c => some c
  | .timeJumpThr c => some c
  | .gateLoad c => some c
  | .tsCalSet c => some c
  | .ppsCfg c => some c
  | .keyDerive c => some c
  | .keyDestroy c => some c
  | .keyQuery c => some c
  | .ciphDummyRate c => some c
  | .laneStatus c => some c
  | .lanePark c => some c
  | .laneWake c => some c
  | .substStatus c => some c
  | .reorderStats c => some c
  | .qpCreate c => some c
  | .qpModify c => some c
  | .qpDestroy c => some c
  | .nsCreate c => some c
  | .nsDelete c => some c
  | .slotCtl c => some c
  | .connQuery c => some c
  | .kilnStatus c => some c
  | .kilnSchedule c => some c
  | .kilnRun c => some c
  | .failPolicy c => some c
  | .marginRead c => some c
  | .fiSet c => some c
  | .fiClear c => some c
  | .pwrStatus c => some c
  | .pwrCap c => some c
  | .telemCfg c => some c
  | .pealJoin c => some c
  | .pealLeave c => some c
  | .pealStatus c => some c
  | .pealSend c => some c
  | .windowWrite c => some c
  | .windowCommit c => some c
  | .msixMap c => some c
  | .queueRoCfg c => some c
  | .registerWrite _ _ => none
  | .counterLowRead _ => none
  | .tmBufPeakReset _ _ => none
  | .pealCfgWrite _ => none
  | .hostEvtAck _ _ => none
  | .hostPuntAck _ _ => none
  | .hostDbTx _ _ _ => none
  | .hostDbRx _ _ _ => none
  | .hostDbCq _ _ _ => none
  | .hostQRingEnable _ _ _ => none
  | .hostQRingDisable _ _ _ => none
  | .hostIntxStsClear _ _ => none
  | .messagePost _ _ _ => none
  | .mboxAck _ _ => none
  | .mailboxTimeout _ _ => none
  | .mboxDomainDownAccess _ _ => none
  | .mboxNoticePost _ => none
  | .bar0BadAccess _ _ => none
  | .bar2Request _ _ _ => none
  | .configRequest _ _ => none
  | .busMasterDisable _ => none
  | .busMasterEnable _ => none
  | .functionLevelReset _ => none
  | .vfEnableChange _ _ _ => none
  | .devicePowerStateChange _ _ => none
  | .msixUnmask _ _ => none
  | .hostLinkLoss _ _ => none
  | .hostLinkUp _ => none
  | .readCompletion _ _ _ _ => none
  | .completionTimeout _ _ _ => none
  | .tagQuarantineEnd _ _ _ => none
  | .nonceReq _ => none
  | .auth _ _ => none
  | .authVerified _ => none
  | .close _ => none
  | .lcAdvance _ => none
  | .rootImport _ _ => none
  | .kemKeyGet _ _ => none
  | .fuseProgram _ => none
  | .scrapZeroise => none
  | .entropyHealthFail => none
  | .entropyReseed => none
  | .getVersion _ => none
  | .getCapabilities _ _ => none
  | .negotiateAlgorithms _ _ _ => none
  | .getDigests _ => none
  | .getCertificate _ _ _ _ => none
  | .challenge _ _ _ => none
  | .getMeasurements _ _ _ _ => none
  | .firingEffective => none
  | .straddleWindowClose => none
  | .setDrainEnd => none
  | .drainLimitExpiry => none
  | .gateListStart _ => none
  | .gateStateChange _ => none
  | .launchTimeReached _ _ => none
  | .ppsRise => none
  | .ppsFall => none
  | .bucketRefill => none
  | .laneFrameReceived _ _ _ _ _ _ _ => none
  | .cutThroughThreshold _ => none
  | .pfcFrameReceived _ _ _ => none
  | .pfcPauseExpiry _ _ => none
  | .pauseFrameReceived _ => none
  | .pfcXoffRepeat _ _ => none
  | .passStart _ _ => none
  | .parseNodeVisit _ => none
  | .frameEndClaimTest _ => none
  | .hbmLookupResult _ _ => none
  | .nop _ => none
  | .set _ => none
  | .copy _ => none
  | .data _ => none
  | .add _ => none
  | .and _ => none
  | .or _ => none
  | .xor _ => none
  | .setif _ => none
  | .count _ => none
  | .meter _ => none
  | .inval _ => none
  | .encap _ => none
  | .decap _ => none
  | .write _ => none
  | .mplsPush _ => none
  | .l4adj _ => none
  | .learn _ => none
  | .fragrec _ => none
  | .recirc _ => none
  | .punt _ => none
  | .drop _ => none
  | .fragmentDecided _ => none
  | .fragmentHoldExpiry _ => none
  | .fragmentLifetimeExpiry _ => none
  | .spray _ => none
  | .laneFrameBegin _ _ => none
  | .laneFrameEnd _ => none
  | .laneGoesDown _ _ => none
  | .laneLockHeld _ => none
  | .chimeHeard _ => none
  | .laneWakeTimeout _ => none
  | .laneRefLost _ => none
  | .reorderArrival _ => none
  | .reorderTimeout _ => none
  | .reorderIdleExpiry _ => none
  | .learnReport _ => none
  | .ageScanVisit _ _ _ _ => none
  | .descriptorFetchComplete _ _ _ _ => none
  | .hostSchedulerSelect _ => none
  | .rxPacketWrite _ _ _ => none
  | .completionEntryIssue _ _ => none
  | .cipherDispatch => none
  | .keyReload _ _ => none
  | .tagResult _ => none
  | .cipherResultRelease _ => none
  | .transportContextFetch _ => none
  | .rocePacketReceived _ _ _ _ => none
  | .cnpReceived _ _ => none
  | .ackTimeout _ => none
  | .tcpSegmentReceived _ _ _ _ => none
  | .tcpRetransmitTimeout _ => none
  | .objectNumberRelease _ => none
  | .nvmeCommand _ => none
  | .driveCompletion _ _ _ _ => none
  | .driveCommandTimeout _ => none
  | .storageCacheFill _ _ => none
  | .drivePresenceChange _ _ => none
  | .attentionButton _ => none
  | .slotPowerFault _ => none
  | .driveLinkDown _ => none
  | .slotPerstRelease _ => none
  | .slotLinkDeadline _ => none
  | .driveControllerReady _ _ => none
  | .laserMatedChange _ _ => none
  | .laserSourceFault _ => none
  | .token _ _ => none
  | .solicit _ _ => none
  | .joinReq _ _ => none
  | .joinAck _ _ => none
  | .claim _ _ => none
  | .leave _ _ => none
  | .fireAnnounce _ _ => none
  | .fireCancel _ _ => none
  | .fireArmed _ _ => none
  | .time _ _ => none
  | .alert _ _ => none
  | .telemetry _ _ => none
  | .pealContendSend _ => none
  | .pealSuccessorWatch => none
  | .pealTokenTimeout => none
  | .pealJoinWindowEnd => none
  | .pealSilence => none
  | .telemetryPeriod => none
  | .kilnBankStep _ => none
  | .kilnBufferStep => none
  | .kilnBufferCopy => none
  | .kilnCipherStep => none
  | .kilnCoreDrained => none
  | .kilnCipherDrainTimeout => none
  | .kilnFragWayStep _ => none
  | .kilnWayDrainTimeout _ => none
  | .targetedTestStart _ => none
  | .kilnTestDone _ _ => none
  | .patrolScrub _ _ => none
  | .crazingSample _ _ _ _ => none
  | .guardbandReplan _ => none
  | .fiWindowOpen _ => none
  | .fiWindowEnd _ => none
  | .fiHoldRelease _ => none
  | .quiesceDrained _ => none
  | .quiesceTimeout _ => none
  | .dirtyLogEntryWrite _ => none
  | .dirtyLogConsumerRead _ _ => none
  | .ckTTick => none
  | .pwrPgRise _ => none
  | .laserFaultClear _ => none
  | .laneRefRestored _ => none
  | .driveLinkUp _ => none
  | .fireAnnounceLate => none
  | .rnrTimerExpiry _ => none
  | .puntHandler _ => none
  | .cipherCoreCheckError _ => none
  | .entropyHealthRecover => none
  | .functionLevelResetDone _ => none
  | .kilnCopyDone _ => none

end Sys2Proof
end

