-- ==== Sys2Proof/Laws/PerInstr.lean ====
section
/-! SUPPORT. A well-formed command brings a well-formed packet, constructor by constructor. -/
namespace Sys2Proof.Laws.Packet
open Sys2Proof Sys2Proof.Machine

/-- What a packet command brings is a well-formed packet (R113, R114, R118). -/
def Statement (i : Instr) : Prop := i.wf = true → ∀ c, i.packet = some c → c.wf = true

theorem powerOnAo : Statement (.powerOnAo) := by intro _ c e; cases e

theorem adpPwrokRise (cool : Bool) : Statement (.adpPwrokRise cool) := by intro _ c e; cases e

theorem pwrSeqFail : Statement (.pwrSeqFail) := by intro _ c e; cases e

theorem rootPllLock : Statement (.rootPllLock) := by intro _ c e; cases e

theorem fwBootCheck (img0 img1 : Option FwImage) : Statement (.fwBootCheck img0 img1) := by intro _ c e; cases e

theorem fwRecoveryTimeout : Statement (.fwRecoveryTimeout) := by intro _ c e; cases e

theorem startUpTest (failed : List (Nat × Nat × Nat)) : Statement (.startUpTest failed) := by intro _ c e; cases e

theorem fwReady : Statement (.fwReady) := by intro _ c e; cases e

theorem heartbeatTimeout (core : Fin 64) : Statement (.heartbeatTimeout core) := by intro _ c e; cases e

theorem pllLockLost : Statement .pllLockLost := by intro _ c e; cases e

theorem pllRelock : Statement (.pllRelock) := by intro _ c e; cases e

theorem pwrPgLost (n : Fin 3) : Statement (.pwrPgLost n) := by intro _ c e; cases e

theorem adpPwrokFall : Statement (.adpPwrokFall) := by intro _ c e; cases e

theorem thermComparatorTrip (k : Fin 24) (tj : Int) : Statement (.thermComparatorTrip k tj) := by intro _ c e; cases e

theorem regionMonitorSample (k : Fin 24) (vdd : Nat) (tj : Int) : Statement (.regionMonitorSample k vdd tj) := by intro _ c e; cases e

theorem stretchStepRise (k : Fin 24) : Statement (.stretchStepRise k) := by intro _ c e; cases e

theorem stretchStepFall (k : Fin 24) : Statement (.stretchStepFall k) := by intro _ c e; cases e

theorem regionLimitRepeat (k : Fin 24) : Statement (.regionLimitRepeat k) := by intro _ c e; cases e

theorem avsLimitRaise (k : Fin 24) : Statement (.avsLimitRaise k) := by intro _ c e; cases e

theorem powerTotalSample (total : Nat) : Statement (.powerTotalSample total) := by intro _ c e; cases e

theorem capStepRise : Statement (.capStepRise) := by intro _ c e; cases e

theorem capStepFall : Statement (.capStepFall) := by intro _ c e; cases e

theorem thermalStepRise (k : Fin 24) : Statement (.thermalStepRise k) := by intro _ c e; cases e

theorem thermalStepFall (k : Fin 24) : Statement (.thermalStepFall k) := by intro _ c e; cases e

theorem avsResponse (bus : Bool) (rail : Fin 16) (r : AvsResult) : Statement (.avsResponse bus rail r) := by intro _ c e; cases e

theorem timeReplicaCheck (k : Fin 23) (upset : Option DevTime) : Statement (.timeReplicaCheck k upset) := by intro _ c e; cases e

theorem cmdRingPi (fn : Nat) (sec : Bool) (value : Word) : Statement (.cmdRingPi fn sec value) := by intro _ c e; cases e

theorem cmdRingEnable (fn : Nat) (sec : Bool) (value : Word) : Statement (.cmdRingEnable fn sec value) := by intro _ c e; cases e

theorem cmdRingDisable (fn : Nat) (sec : Bool) (value : Word) : Statement (.cmdRingDisable fn sec value) := by intro _ c e; cases e

theorem commandFetchError (fn : Nat) (sec : Bool) : Statement (.commandFetchError fn sec) := by intro _ c e; cases e

theorem adapterInfo (c : CmdPkt) : Statement (.adapterInfo c) := by intro h c e; cases e; exact h

theorem fwStatus (c : CmdPkt) : Statement (.fwStatus c) := by intro h c e; cases e; exact h

theorem fwUpdate (c : CmdPkt) (img : FwImage) : Statement (.fwUpdate c img) := by intro h c e; cases e; exact (Bool.and_eq_true_iff.mp h).1

theorem fwActivate (c : CmdPkt) : Statement (.fwActivate c) := by intro h c e; cases e; exact h

theorem evtRingSet (c : CmdPkt) : Statement (.evtRingSet c) := by intro h c e; cases e; exact h

theorem evtSubscribe (c : CmdPkt) : Statement (.evtSubscribe c) := by intro h c e; cases e; exact h

theorem puntRingSet (c : CmdPkt) : Statement (.puntRingSet c) := by intro h c e; cases e; exact h

theorem nodeIdSet (c : CmdPkt) : Statement (.nodeIdSet c) := by intro h c e; cases e; exact h

theorem counterRead (c : CmdPkt) : Statement (.counterRead c) := by intro h c e; cases e; exact h

theorem instConfig (c : CmdPkt) : Statement (.instConfig c) := by intro h c e; cases e; exact h

theorem instQuiesce (c : CmdPkt) : Statement (.instQuiesce c) := by intro h c e; cases e; exact h

theorem instReset (c : CmdPkt) : Statement (.instReset c) := by intro h c e; cases e; exact h

theorem instRemove (c : CmdPkt) : Statement (.instRemove c) := by intro h c e; cases e; exact h

theorem queueRestart (c : CmdPkt) : Statement (.queueRestart c) := by intro h c e; cases e; exact h

theorem dirtyLogStart (c : CmdPkt) : Statement (.dirtyLogStart c) := by intro h c e; cases e; exact h

theorem dirtyLogHarvest (c : CmdPkt) : Statement (.dirtyLogHarvest c) := by intro h c e; cases e; exact h

theorem dirtyLogStop (c : CmdPkt) : Statement (.dirtyLogStop c) := by intro h c e; cases e; exact h

theorem mboxStatus (c : CmdPkt) : Statement (.mboxStatus c) := by intro h c e; cases e; exact h

theorem tblInsert (c : CmdPkt) : Statement (.tblInsert c) := by intro h c e; cases e; exact h

theorem tblDelete (c : CmdPkt) : Statement (.tblDelete c) := by intro h c e; cases e; exact h

theorem tblModify (c : CmdPkt) : Statement (.tblModify c) := by intro h c e; cases e; exact h

theorem tblLookup (c : CmdPkt) : Statement (.tblLookup c) := by intro h c e; cases e; exact h

theorem tblDump (c : CmdPkt) : Statement (.tblDump c) := by intro h c e; cases e; exact h

theorem tblAgeCfg (c : CmdPkt) : Statement (.tblAgeCfg c) := by intro h c e; cases e; exact h

theorem learnCfg (c : CmdPkt) : Statement (.learnCfg c) := by intro h c e; cases e; exact h

theorem setLoad (c : CmdPkt) (init : SetInit) : Statement (.setLoad c init) := by intro h c e; cases e; exact (Bool.and_eq_true_iff.mp h).1

theorem setFire (c : CmdPkt) : Statement (.setFire c) := by intro h c e; cases e; exact h

theorem setCancel (c : CmdPkt) : Statement (.setCancel c) := by intro h c e; cases e; exact h

theorem setStatus (c : CmdPkt) : Statement (.setStatus c) := by intro h c e; cases e; exact h

theorem featureEnable (c : CmdPkt) : Statement (.featureEnable c) := by intro h c e; cases e; exact h

theorem timeGet (c : CmdPkt) : Statement (.timeGet c) := by intro h c e; cases e; exact h

theorem timeIncSet (c : CmdPkt) : Statement (.timeIncSet c) := by intro h c e; cases e; exact h

theorem timeAdjust (c : CmdPkt) : Statement (.timeAdjust c) := by intro h c e; cases e; exact h

theorem timeSet (c : CmdPkt) : Statement (.timeSet c) := by intro h c e; cases e; exact h

theorem timeJumpThr (c : CmdPkt) : Statement (.timeJumpThr c) := by intro h c e; cases e; exact h

theorem gateLoad (c : CmdPkt) : Statement (.gateLoad c) := by intro h c e; cases e; exact h

theorem tsCalSet (c : CmdPkt) : Statement (.tsCalSet c) := by intro h c e; cases e; exact h

theorem ppsCfg (c : CmdPkt) : Statement (.ppsCfg c) := by intro h c e; cases e; exact h

theorem keyDerive (c : CmdPkt) : Statement (.keyDerive c) := by intro h c e; cases e; exact h

theorem keyDestroy (c : CmdPkt) : Statement (.keyDestroy c) := by intro h c e; cases e; exact h

theorem keyQuery (c : CmdPkt) : Statement (.keyQuery c) := by intro h c e; cases e; exact h

theorem ciphDummyRate (c : CmdPkt) : Statement (.ciphDummyRate c) := by intro h c e; cases e; exact h

theorem laneStatus (c : CmdPkt) : Statement (.laneStatus c) := by intro h c e; cases e; exact h

theorem lanePark (c : CmdPkt) : Statement (.lanePark c) := by intro h c e; cases e; exact h

theorem laneWake (c : CmdPkt) : Statement (.laneWake c) := by intro h c e; cases e; exact h

theorem substStatus (c : CmdPkt) : Statement (.substStatus c) := by intro h c e; cases e; exact h

theorem reorderStats (c : CmdPkt) : Statement (.reorderStats c) := by intro h c e; cases e; exact h

theorem qpCreate (c : CmdPkt) : Statement (.qpCreate c) := by intro h c e; cases e; exact h

theorem qpModify (c : CmdPkt) : Statement (.qpModify c) := by intro h c e; cases e; exact h

theorem qpDestroy (c : CmdPkt) : Statement (.qpDestroy c) := by intro h c e; cases e; exact h

theorem nsCreate (c : CmdPkt) : Statement (.nsCreate c) := by intro h c e; cases e; exact h

theorem nsDelete (c : CmdPkt) : Statement (.nsDelete c) := by intro h c e; cases e; exact h

theorem slotCtl (c : CmdPkt) : Statement (.slotCtl c) := by intro h c e; cases e; exact h

theorem connQuery (c : CmdPkt) : Statement (.connQuery c) := by intro h c e; cases e; exact h

theorem kilnStatus (c : CmdPkt) : Statement (.kilnStatus c) := by intro h c e; cases e; exact h

theorem kilnSchedule (c : CmdPkt) : Statement (.kilnSchedule c) := by intro h c e; cases e; exact h

theorem kilnRun (c : CmdPkt) : Statement (.kilnRun c) := by intro h c e; cases e; exact h

theorem failPolicy (c : CmdPkt) : Statement (.failPolicy c) := by intro h c e; cases e; exact h

theorem marginRead (c : CmdPkt) : Statement (.marginRead c) := by intro h c e; cases e; exact h

theorem fiSet (c : CmdPkt) : Statement (.fiSet c) := by intro h c e; cases e; exact h

theorem fiClear (c : CmdPkt) : Statement (.fiClear c) := by intro h c e; cases e; exact h

theorem pwrStatus (c : CmdPkt) : Statement (.pwrStatus c) := by intro h c e; cases e; exact h

theorem pwrCap (c : CmdPkt) : Statement (.pwrCap c) := by intro h c e; cases e; exact h

theorem telemCfg (c : CmdPkt) : Statement (.telemCfg c) := by intro h c e; cases e; exact h

theorem pealJoin (c : CmdPkt) : Statement (.pealJoin c) := by intro h c e; cases e; exact h

theorem pealLeave (c : CmdPkt) : Statement (.pealLeave c) := by intro h c e; cases e; exact h

theorem pealStatus (c : CmdPkt) : Statement (.pealStatus c) := by intro h c e; cases e; exact h

theorem pealSend (c : CmdPkt) : Statement (.pealSend c) := by intro h c e; cases e; exact h

theorem windowWrite (c : CmdPkt) : Statement (.windowWrite c) := by intro h c e; cases e; exact h

theorem windowCommit (c : CmdPkt) : Statement (.windowCommit c) := by intro h c e; cases e; exact h

theorem msixMap (c : CmdPkt) : Statement (.msixMap c) := by intro h c e; cases e; exact h

theorem queueRoCfg (c : CmdPkt) : Statement (.queueRoCfg c) := by intro h c e; cases e; exact h

theorem registerWrite (r : RegPlace) (v : Word) : Statement (.registerWrite r v) := by intro _ c e; cases e

theorem counterLowRead (r : RegPlace) : Statement (.counterLowRead r) := by intro _ c e; cases e

theorem tmBufPeakReset (u : Fin 4) (v : Word) : Statement (.tmBufPeakReset u v) := by intro _ c e; cases e

theorem pealCfgWrite (v : Word) : Statement (.pealCfgWrite v) := by intro _ c e; cases e

theorem hostEvtAck (fn : Nat) (v : Word) : Statement (.hostEvtAck fn v) := by intro _ c e; cases e

theorem hostPuntAck (fn : Nat) (v : Word) : Statement (.hostPuntAck fn v) := by intro _ c e; cases e

theorem hostDbTx (fn slot : Nat) (v : Word) : Statement (.hostDbTx fn slot v) := by intro _ c e; cases e

theorem hostDbRx (fn slot : Nat) (v : Word) : Statement (.hostDbRx fn slot v) := by intro _ c e; cases e

theorem hostDbCq (fn slot : Nat) (v : Word) : Statement (.hostDbCq fn slot v) := by intro _ c e; cases e

theorem hostQRingEnable (fn slot : Nat) (v : Word) : Statement (.hostQRingEnable fn slot v) := by intro _ c e; cases e

theorem hostQRingDisable (fn slot : Nat) (v : Word) : Statement (.hostQRingDisable fn slot v) := by intro _ c e; cases e

theorem hostIntxStsClear (fn : Nat) (v : Word) : Statement (.hostIntxStsClear fn v) := by intro _ c e; cases e

theorem messagePost (fn : Nat) (sec : Bool) (v : Word) : Statement (.messagePost fn sec v) := by intro _ c e; cases e

theorem mboxAck (fn : Nat) (sec : Bool) : Statement (.mboxAck fn sec) := by intro _ c e; cases e

theorem mailboxTimeout (fn : Nat) (sec : Bool) : Statement (.mailboxTimeout fn sec) := by intro _ c e; cases e

theorem mboxDomainDownAccess (fn : Nat) (write : Bool) : Statement (.mboxDomainDownAccess fn write) := by intro _ c e; cases e

theorem mboxNoticePost (fn : Nat) : Statement (.mboxNoticePost fn) := by intro _ c e; cases e

theorem bar0BadAccess (fn : Nat) (write : Bool) : Statement (.bar0BadAccess fn write) := by intro _ c e; cases e

theorem bar2Request (port : Fin 8) (offset : Nat) (r : Bar2Req) : Statement (.bar2Request port offset r) := by intro _ c e; cases e

theorem configRequest (fn : Nat) (r : CfgReq) : Statement (.configRequest fn r) := by intro _ c e; cases e

theorem busMasterDisable (fn : Nat) : Statement (.busMasterDisable fn) := by intro _ c e; cases e

theorem busMasterEnable (fn : Nat) : Statement (.busMasterEnable fn) := by intro _ c e; cases e

theorem functionLevelReset (fn : Nat) : Statement (.functionLevelReset fn) := by intro _ c e; cases e

theorem vfEnableChange (port : Fin 8) (enable : Bool) (numVfs : Nat) : Statement (.vfEnableChange port enable numVfs) := by intro _ c e; cases e

theorem devicePowerStateChange (fn : Nat) (d3hot : Bool) : Statement (.devicePowerStateChange fn d3hot) := by intro _ c e; cases e

theorem msixUnmask (fn vector : Nat) : Statement (.msixUnmask fn vector) := by intro _ c e; cases e

theorem hostLinkLoss (port : Fin 8) (perst : Bool) : Statement (.hostLinkLoss port perst) := by intro _ c e; cases e

theorem hostLinkUp (port : Fin 8) : Statement (.hostLinkUp port) := by intro _ c e; cases e

theorem readCompletion (sp : Bool) (port : Fin 16) (tag : Nat) (e : CplEnd) : Statement (.readCompletion sp port tag e) := by intro _ c e; cases e

theorem completionTimeout (sp : Bool) (port : Fin 16) (tag : Nat) : Statement (.completionTimeout sp port tag) := by intro _ c e; cases e

theorem tagQuarantineEnd (sp : Bool) (port : Fin 16) (tag : Nat) : Statement (.tagQuarantineEnd sp port tag) := by intro _ c e; cases e

theorem nonceReq (port : Fin 8) : Statement (.nonceReq port) := by intro _ c e; cases e

theorem auth (port : Fin 8) (buf : Option (List Byte)) : Statement (.auth port buf) := by intro _ c e; cases e

theorem authVerified (port : Fin 8) : Statement (.authVerified port) := by intro _ c e; cases e

theorem close (port : Fin 8) : Statement (.close port) := by intro _ c e; cases e

theorem lcAdvance (port : Fin 8) : Statement (.lcAdvance port) := by intro _ c e; cases e

theorem rootImport (port : Fin 8) (buf : Option (List Byte)) : Statement (.rootImport port buf) := by intro _ c e; cases e

theorem kemKeyGet (port : Fin 8) (ok : Bool) : Statement (.kemKeyGet port ok) := by intro _ c e; cases e

theorem fuseProgram (port : Fin 8) : Statement (.fuseProgram port) := by intro _ c e; cases e

theorem scrapZeroise : Statement (.scrapZeroise) := by intro _ c e; cases e

theorem entropyHealthFail : Statement (.entropyHealthFail) := by intro _ c e; cases e

theorem entropyReseed : Statement (.entropyReseed) := by intro _ c e; cases e

theorem getVersion (port : Fin 8) : Statement (.getVersion port) := by intro _ c e; cases e

theorem getCapabilities (port : Fin 8) (minor : Nat) : Statement (.getCapabilities port minor) := by intro _ c e; cases e

theorem negotiateAlgorithms (port : Fin 8) (sha3 mlDsa : Bool) : Statement (.negotiateAlgorithms port sha3 mlDsa) := by intro _ c e; cases e

theorem getDigests (port : Fin 8) : Statement (.getDigests port) := by intro _ c e; cases e

theorem getCertificate (port : Fin 8) (slot offset length : Nat) : Statement (.getCertificate port slot offset length) := by intro _ c e; cases e

theorem challenge (port : Fin 8) (slot : Nat) (nonce : List Byte) : Statement (.challenge port slot nonce) := by intro _ c e; cases e

theorem getMeasurements (port : Fin 8) (index : Nat) (signed : Bool) (nonce : List Byte) : Statement (.getMeasurements port index signed nonce) := by intro _ c e; cases e

theorem firingEffective : Statement (.firingEffective) := by intro _ c e; cases e

theorem straddleWindowClose : Statement (.straddleWindowClose) := by intro _ c e; cases e

theorem setDrainEnd : Statement (.setDrainEnd) := by intro _ c e; cases e

theorem drainLimitExpiry : Statement (.drainLimitExpiry) := by intro _ c e; cases e

theorem gateListStart (port : Fin 1024) : Statement (.gateListStart port) := by intro _ c e; cases e

theorem gateStateChange (port : Fin 1024) : Statement (.gateStateChange port) := by intro _ c e; cases e

theorem launchTimeReached (lane : Fin 1024) (cls : Fin 8) : Statement (.launchTimeReached lane cls) := by intro _ c e; cases e

theorem ppsRise : Statement (.ppsRise) := by intro _ c e; cases e

theorem ppsFall : Statement (.ppsFall) := by intro _ c e; cases e

theorem bucketRefill : Statement (.bucketRefill) := by intro _ c e; cases e

theorem laneFrameReceived (lane : Fin 1024) (bytes : List Byte) (more bad : Bool) (ui : Fin 33) (corr uncorr : Nat) : Statement (.laneFrameReceived lane bytes more bad ui corr uncorr) := by intro _ c e; cases e

theorem cutThroughThreshold (p : Nat) : Statement (.cutThroughThreshold p) := by intro _ c e; cases e

theorem pfcFrameReceived (lane : Fin 1024) (vector : BitVec 8) (times : List Nat) : Statement (.pfcFrameReceived lane vector times) := by intro _ c e; cases e

theorem pfcPauseExpiry (lane : Fin 1024) (cls : Fin 8) : Statement (.pfcPauseExpiry lane cls) := by intro _ c e; cases e

theorem pauseFrameReceived (lane : Fin 1024) : Statement (.pauseFrameReceived lane) := by intro _ c e; cases e

theorem pfcXoffRepeat (port : Fin 1024) (cls : Fin 8) : Statement (.pfcXoffRepeat port cls) := by intro _ c e; cases e

theorem passStart (p : Nat) (upset : List (Nat × Nat × Nat)) : Statement (.passStart p upset) := by intro _ c e; cases e

theorem parseNodeVisit (p : Nat) : Statement (.parseNodeVisit p) := by intro _ c e; cases e

theorem frameEndClaimTest (p : Nat) : Statement (.frameEndClaimTest p) := by intro _ c e; cases e

theorem hbmLookupResult (p : Nat) (bad : List (Nat × Nat × Nat)) : Statement (.hbmLookupResult p bad) := by intro _ c e; cases e

theorem nop (p : Nat) : Statement (.nop p) := by intro _ c e; cases e

theorem set (p : Nat) : Statement (.set p) := by intro _ c e; cases e

theorem copy (p : Nat) : Statement (.copy p) := by intro _ c e; cases e

theorem data (p : Nat) : Statement (.data p) := by intro _ c e; cases e

theorem add (p : Nat) : Statement (.add p) := by intro _ c e; cases e

theorem and (p : Nat) : Statement (.and p) := by intro _ c e; cases e

theorem or (p : Nat) : Statement (.or p) := by intro _ c e; cases e

theorem xor (p : Nat) : Statement (.xor p) := by intro _ c e; cases e

theorem setif (p : Nat) : Statement (.setif p) := by intro _ c e; cases e

theorem count (p : Nat) : Statement (.count p) := by intro _ c e; cases e

theorem meter (p : Nat) : Statement (.meter p) := by intro _ c e; cases e

theorem inval (p : Nat) : Statement (.inval p) := by intro _ c e; cases e

theorem encap (p : Nat) : Statement (.encap p) := by intro _ c e; cases e

theorem decap (p : Nat) : Statement (.decap p) := by intro _ c e; cases e

theorem write (p : Nat) : Statement (.write p) := by intro _ c e; cases e

theorem mplsPush (p : Nat) : Statement (.mplsPush p) := by intro _ c e; cases e

theorem l4adj (p : Nat) : Statement (.l4adj p) := by intro _ c e; cases e

theorem learn (p : Nat) : Statement (.learn p) := by intro _ c e; cases e

theorem fragrec (p : Nat) : Statement (.fragrec p) := by intro _ c e; cases e

theorem recirc (p : Nat) : Statement (.recirc p) := by intro _ c e; cases e

theorem punt (p : Nat) : Statement (.punt p) := by intro _ c e; cases e

theorem drop (p : Nat) : Statement (.drop p) := by intro _ c e; cases e

theorem fragmentDecided (e : Nat) : Statement (.fragmentDecided e) := by intro _ c e; cases e

theorem fragmentHoldExpiry (p : Nat) : Statement (.fragmentHoldExpiry p) := by intro _ c e; cases e

theorem fragmentLifetimeExpiry (e : Nat) : Statement (.fragmentLifetimeExpiry e) := by intro _ c e; cases e

theorem spray (p : Nat) : Statement (.spray p) := by intro _ c e; cases e

theorem laneFrameBegin (lane : Fin 1024) (ui : Fin 33) : Statement (.laneFrameBegin lane ui) := by intro _ c e; cases e

theorem laneFrameEnd (lane : Fin 1024) : Statement (.laneFrameEnd lane) := by intro _ c e; cases e

theorem laneGoesDown (lane : Fin 1024) (cause : DownCause) : Statement (.laneGoesDown lane cause) := by intro _ c e; cases e

theorem laneLockHeld (lane : Fin 1024) : Statement (.laneLockHeld lane) := by intro _ c e; cases e

theorem chimeHeard (lane : Fin 1024) : Statement (.chimeHeard lane) := by intro _ c e; cases e

theorem laneWakeTimeout (lane : Fin 1024) : Statement (.laneWakeTimeout lane) := by intro _ c e; cases e

theorem laneRefLost (k : Fin 16) : Statement (.laneRefLost k) := by intro _ c e; cases e

theorem reorderArrival (p : Nat) : Statement (.reorderArrival p) := by intro _ c e; cases e

theorem reorderTimeout (key : Nat) : Statement (.reorderTimeout key) := by intro _ c e; cases e

theorem reorderIdleExpiry (key : Nat) : Statement (.reorderIdleExpiry key) := by intro _ c e; cases e

theorem learnReport (k : Fin 16) : Statement (.learnReport k) := by intro _ c e; cases e

theorem ageScanVisit (inst table handle : Nat) (touched : Bool) : Statement (.ageScanVisit inst table handle touched) := by intro _ c e; cases e

theorem descriptorFetchComplete (fn slot : Nat) (desc : BitVec 512) (payload : List Byte) : Statement (.descriptorFetchComplete fn slot desc payload) := by intro _ c e; cases e

theorem hostSchedulerSelect (k : Fin 16) : Statement (.hostSchedulerSelect k) := by intro _ c e; cases e

theorem rxPacketWrite (fn slot : Nat) (buf : BitVec 128) : Statement (.rxPacketWrite fn slot buf) := by intro _ c e; cases e

theorem completionEntryIssue (fn slot : Nat) : Statement (.completionEntryIssue fn slot) := by intro _ c e; cases e

theorem cipherDispatch : Statement (.cipherDispatch) := by intro _ c e; cases e

theorem keyReload (idx : Nat) (bad : Bool) : Statement (.keyReload idx bad) := by intro _ c e; cases e

theorem tagResult (id : Nat) : Statement (.tagResult id) := by intro _ c e; cases e

theorem cipherResultRelease (id : Nat) : Statement (.cipherResultRelease id) := by intro _ c e; cases e

theorem transportContextFetch (onum : Nat) : Statement (.transportContextFetch onum) := by intro _ c e; cases e

theorem rocePacketReceived (p off : Nat) (icrcOk ce : Bool) : Statement (.rocePacketReceived p off icrcOk ce) := by intro _ c e; cases e

theorem cnpReceived (p off : Nat) : Statement (.cnpReceived p off) := by intro _ c e; cases e

theorem ackTimeout (onum : Nat) : Statement (.ackTimeout onum) := by intro _ c e; cases e

theorem tcpSegmentReceived (p off : Nat) (csumOk ce : Bool) : Statement (.tcpSegmentReceived p off csumOk ce) := by intro _ c e; cases e

theorem tcpRetransmitTimeout (onum : Nat) : Statement (.tcpRetransmitTimeout onum) := by intro _ c e; cases e

theorem objectNumberRelease (onum : Nat) : Statement (.objectNumberRelease onum) := by intro _ c e; cases e

theorem nvmeCommand (onum : Nat) : Statement (.nvmeCommand onum) := by intro _ c e; cases e

theorem driveCompletion (sp : Fin 16) (id status : Nat) (data : List Byte) : Statement (.driveCompletion sp id status data) := by intro _ c e; cases e

theorem driveCommandTimeout (id : Nat) : Statement (.driveCommandTimeout id) := by intro _ c e; cases e

theorem storageCacheFill (line : Nat) (data : List Byte) : Statement (.storageCacheFill line data) := by intro _ c e; cases e

theorem drivePresenceChange (sp : Fin 16) (present : Bool) : Statement (.drivePresenceChange sp present) := by intro _ c e; cases e

theorem attentionButton (sp : Fin 16) : Statement (.attentionButton sp) := by intro _ c e; cases e

theorem slotPowerFault (sp : Fin 16) : Statement (.slotPowerFault sp) := by intro _ c e; cases e

theorem driveLinkDown (sp : Fin 16) : Statement (.driveLinkDown sp) := by intro _ c e; cases e

theorem slotPerstRelease (sp : Fin 16) : Statement (.slotPerstRelease sp) := by intro _ c e; cases e

theorem slotLinkDeadline (sp : Fin 16) : Statement (.slotLinkDeadline sp) := by intro _ c e; cases e

theorem driveControllerReady (sp : Fin 16) (nss : List (Nat × Nat × Nat)) : Statement (.driveControllerReady sp nss) := by intro _ c e; cases e

theorem laserMatedChange (k : Fin 16) (mated : Bool) : Statement (.laserMatedChange k mated) := by intro _ c e; cases e

theorem laserSourceFault (k : Fin 16) : Statement (.laserSourceFault k) := by intro _ c e; cases e

theorem token (bytes : List Byte) (bad : Bool) : Statement (.token bytes bad) := by intro _ c e; cases e

theorem solicit (bytes : List Byte) (bad : Bool) : Statement (.solicit bytes bad) := by intro _ c e; cases e

theorem joinReq (bytes : List Byte) (bad : Bool) : Statement (.joinReq bytes bad) := by intro _ c e; cases e

theorem joinAck (bytes : List Byte) (bad : Bool) : Statement (.joinAck bytes bad) := by intro _ c e; cases e

theorem claim (bytes : List Byte) (bad : Bool) : Statement (.claim bytes bad) := by intro _ c e; cases e

theorem leave (bytes : List Byte) (bad : Bool) : Statement (.leave bytes bad) := by intro _ c e; cases e

theorem fireAnnounce (bytes : List Byte) (bad : Bool) : Statement (.fireAnnounce bytes bad) := by intro _ c e; cases e

theorem fireCancel (bytes : List Byte) (bad : Bool) : Statement (.fireCancel bytes bad) := by intro _ c e; cases e

theorem fireArmed (bytes : List Byte) (bad : Bool) : Statement (.fireArmed bytes bad) := by intro _ c e; cases e

theorem time (bytes : List Byte) (bad : Bool) : Statement (.time bytes bad) := by intro _ c e; cases e

theorem alert (bytes : List Byte) (bad : Bool) : Statement (.alert bytes bad) := by intro _ c e; cases e

theorem telemetry (bytes : List Byte) (bad : Bool) : Statement (.telemetry bytes bad) := by intro _ c e; cases e

theorem pealContendSend (clash : Bool) : Statement (.pealContendSend clash) := by intro _ c e; cases e

theorem pealSuccessorWatch : Statement (.pealSuccessorWatch) := by intro _ c e; cases e

theorem pealTokenTimeout : Statement (.pealTokenTimeout) := by intro _ c e; cases e

theorem pealJoinWindowEnd : Statement (.pealJoinWindowEnd) := by intro _ c e; cases e

theorem pealSilence : Statement (.pealSilence) := by intro _ c e; cases e

theorem telemetryPeriod : Statement (.telemetryPeriod) := by intro _ c e; cases e

theorem kilnBankStep (k : Fin 16) : Statement (.kilnBankStep k) := by intro _ c e; cases e

theorem kilnBufferStep : Statement (.kilnBufferStep) := by intro _ c e; cases e

theorem kilnBufferCopy : Statement (.kilnBufferCopy) := by intro _ c e; cases e

theorem kilnCipherStep : Statement (.kilnCipherStep) := by intro _ c e; cases e

theorem kilnCoreDrained : Statement (.kilnCoreDrained) := by intro _ c e; cases e

theorem kilnCipherDrainTimeout : Statement (.kilnCipherDrainTimeout) := by intro _ c e; cases e

theorem kilnFragWayStep (k : Fin 16) : Statement (.kilnFragWayStep k) := by intro _ c e; cases e

theorem kilnWayDrainTimeout (k : Fin 16) : Statement (.kilnWayDrainTimeout k) := by intro _ c e; cases e

theorem targetedTestStart (slice : Nat) : Statement (.targetedTestStart slice) := by intro _ c e; cases e

theorem kilnTestDone (slice : Nat) (fail : Option (Nat × Nat)) : Statement (.kilnTestDone slice fail) := by intro _ c e; cases e

theorem patrolScrub (corrected uncorrectable : Nat) : Statement (.patrolScrub corrected uncorrectable) := by intro _ c e; cases e

theorem crazingSample (k : Fin 24) (rings taps steps : List Nat) : Statement (.crazingSample k rings taps steps) := by intro _ c e; cases e

theorem guardbandReplan (k : Fin 24) : Statement (.guardbandReplan k) := by intro _ c e; cases e

theorem fiWindowOpen (lane : Fin 1024) : Statement (.fiWindowOpen lane) := by intro _ c e; cases e

theorem fiWindowEnd (lane : Fin 1024) : Statement (.fiWindowEnd lane) := by intro _ c e; cases e

theorem fiHoldRelease (lane : Fin 1024) : Statement (.fiHoldRelease lane) := by intro _ c e; cases e

theorem quiesceDrained (iid : Nat) : Statement (.quiesceDrained iid) := by intro _ c e; cases e

theorem quiesceTimeout (iid : Nat) : Statement (.quiesceTimeout iid) := by intro _ c e; cases e

theorem dirtyLogEntryWrite (iid : Nat) : Statement (.dirtyLogEntryWrite iid) := by intro _ c e; cases e

theorem dirtyLogConsumerRead (iid : Nat) (value : Option Word) : Statement (.dirtyLogConsumerRead iid value) := by intro _ c e; cases e

theorem ckTTick : Statement (.ckTTick) := by intro _ c e; cases e

theorem pwrPgRise (n : Fin 3) : Statement (.pwrPgRise n) := by intro _ c e; cases e

theorem laserFaultClear (k : Fin 16) : Statement (.laserFaultClear k) := by intro _ c e; cases e

theorem laneRefRestored (k : Fin 16) : Statement (.laneRefRestored k) := by intro _ c e; cases e

theorem driveLinkUp (sp : Fin 16) : Statement (.driveLinkUp sp) := by intro _ c e; cases e

theorem fireAnnounceLate : Statement (.fireAnnounceLate) := by intro _ c e; cases e

theorem rnrTimerExpiry (onum : Nat) : Statement (.rnrTimerExpiry onum) := by intro _ c e; cases e

theorem puntHandler (k : Fin 16) : Statement (.puntHandler k) := by intro _ c e; cases e

theorem cipherCoreCheckError (core : Fin 80) : Statement (.cipherCoreCheckError core) := by intro _ c e; cases e

theorem entropyHealthRecover : Statement (.entropyHealthRecover) := by intro _ c e; cases e

theorem functionLevelResetDone (fn : Nat) : Statement (.functionLevelResetDone fn) := by intro _ c e; cases e

theorem kilnCopyDone (slice : Nat) : Statement (.kilnCopyDone slice) := by intro _ c e; cases e

end Sys2Proof.Laws.Packet
end

