-- ==== Sys2Proof/Safety.lean ====
section
/-! DEFINITION. What claims mean by a step that goes on, by a state in canonical form, and by a queue of well-formed commands. -/
namespace Sys2Proof.Machine

/-- The command's effect is a next state. -/
def Goes (i : Instr) (s t : State) : Prop := exec i s = .next t

/-- Some next state follows. -/
def Completes (i : Instr) (s : State) : Prop := ∃ t, exec i s = .next t

/-- HBM is in its canonical form: addresses strictly rising, and no byte listed that equals 0 (R665, log 8). -/
def HbmCanonical (s : State) : Prop := Memory.wf s.hbm = true

/-- Every waiting command is well formed. -/
def QueueOk (s : State) : Prop := ∀ c ∈ s.pending, c.wf = true

/-- A state without what records, replies, interrupts and messages to a host write: what has left the block, the functions, the
host ports, and the count of free values used. -/
def core (s : State) : State := { s with out := [], draws := 0, fns := [], ports := [] }

/-- The frame of an effect on the host side alone: t is s but for what `core` leaves out. -/
def HostSide (s t : State) : Prop := core t = core s

/-! ## Commands of a ring (R117) -/

/-- What a ring records of the command it executes. -/
def execOf (c : CmdPkt) (s : State) : Exec := { pkt := c, opcode := c.opcode, idx := (ringOf s c.fn c.sec).ci, start := s.tick }

/-- The command is taken from its ring: it is in execution, and LAST_SEQ and SEQ_VALID follow it. -/
def taken (c : CmdPkt) (s : State) : State :=
  setRing c.fn c.sec (fun r => { r with lastSeq := BitVec.ofNat 16 c.seq, seqValid := true })
    (setRing c.fn c.sec (fun r => { r with exec := some (execOf c s) }) s)

/-- The header passes the first steps of R117: reserved bits, PLEN and SEQ. -/
def headOk (c : CmdPkt) (s : State) : Prop :=
  ringLive s c.fn c.sec = true ∧ c.h 95 70 = 0 ∧ c.h 31 19 = 0 ∧ c.plen ≤ 48 ∧
    ((ringOf s c.fn c.sec).seqValid = true → after 16 c.seq (ringOf s c.fn c.sec).lastSeq.toNat = true)

/-- The command at the head of a live ring, of opcode `op`, passes R117 up to its parameter check: its issuer is a `w`, on the
secure channel if `secure`, its domain is up, its IID is one, and it waits for no buffer (R114). -/
def Passes (op : Nat) (w : Who) (secure : Bool) (permit : CmdPkt → State → Bool) (c : CmdPkt) (s : State) : Prop :=
  headOk c s ∧ c.opcode = op ∧ opcodeListed op = true ∧ channelOk (taken c s) w secure op c = true ∧ permit c (taken c s) = true ∧
    iidOk c.iid = true ∧ domainDown (taken c s) c.iid = false ∧ needsBuffer c = false

/-- The same, for a command that is to be executed and not only checked. -/
def Runs (op : Nat) (w : Who) (secure : Bool) (permit : CmdPkt → State → Bool) (c : CmdPkt) (s : State) : Prop :=
  Passes op w secure permit c s ∧ c.isCheck = false

/-- The command answers ST_OK with RDATA `r`, and leaves `t` (its ring's registers and the reply aside). -/
def repliesOk (c : CmdPkt) (s t : State) (r : Nat) : Host.Outcome State Fault Refusal := .next (writeReply (execOf c s) stOk r t)

/-- The command answers `st`, and changes nothing but its ring and the reply. -/
def refusesWith (c : CmdPkt) (s : State) (st : Nat) : Host.Outcome State Fault Refusal :=
  .next (writeReply (execOf c s) st 0 (taken c s))

/-! ## Doorbells (R474, R475) -/

/-- A doorbell has left the registers of the slot as `q`, and has been acted on: a ring further ahead than its size stops the queue
with BAD_DOORBELL, and otherwise nothing changes but what the host side reads. Where doorbells do not act, `q` is all. -/
def rung (fn slot : Nat) (q : QSlot) (s t : State) : Prop :=
  if doorbellActs s fn slot = false then t = setSlot fn slot (fun _ => q) s
  else if (q.txEn = true ∧ 2 ^ q.log2Tx.toNat < (q.txPi - q.txCi).toNat) ∨ (q.rxEn = true ∧ 2 ^ q.log2Rx.toNat < (q.rxPi - q.rxCi).toNat) ∨
      (q.cqEn = true ∧ 2 ^ q.log2Cq.toNat < (q.cqPi - q.cqCi).toNat) then
    ((fnOf t fn).slots.get slot).stopped = true ∧ ((fnOf t fn).slots.get slot).cause = 4 ∧ ((fnOf t fn).slots.get slot).txPi = q.txPi ∧
      ((fnOf t fn).slots.get slot).rxPi = q.rxPi ∧ ((fnOf t fn).slots.get slot).txCi = q.txCi ∧ ((fnOf t fn).slots.get slot).rxCi = q.rxCi
  else (fnOf t fn).slots.get slot = q ∧ core t = core s

/-! ## The secure mailbox (R622) -/

/-- Port `h` has been sent a message by the trust region: it is in the FULL channel, or waits last behind the message that is there. -/
def told (h : Nat) (ws : List Word) (s t : State) : Prop :=
  if (fnOf s (h * 4096)).secChan.full = true then
    (secPort t h).answers = (secPort s h).answers ++ [ws] ∧ (fnOf t (h * 4096)).secChan = (fnOf s (h * 4096)).secChan
  else (fnOf t (h * 4096)).secChan.full = true ∧ (fnOf t (h * 4096)).secChan.words = ws ∧ (secPort t h).answers = (secPort s h).answers

/-- Port `h` has been sent a RESULT for a request of a TYPE and TAG. -/
def resulted (h type tag st : Nat) (s t : State) : Prop :=
  told h [BitVec.ofNat 32 (0x82 * 2 ^ 24 + tag * 65536 + 0xFFFF), BitVec.ofNat 32 (type * 2 ^ 24 + tag * 65536 + st), 0, 0, 0, 0, 0, 0] s t

/-! ## A drive's removal (R450) -/

/-- The drive of a storage port has been removed: its slot is off, no command of the port is outstanding, no line of it is cached,
and its namespaces are gone. -/
def driveGone (p : Nat) (t : State) : Prop :=
  (sport t p).powerOn = false ∧ (sport t p).perst = true ∧ (sport t p).linkUp = false ∧ (sport t p).ready = false ∧ (sport t p).drives = [] ∧
    (∀ c ∈ t.store.cmds, c.2.sp ≠ p) ∧ (∀ l ∈ t.store.lines, l.1 / 2 ^ 96 ≠ p) ∧ (∀ n ∈ t.store.nss, n.2.sp = p → n.2.gone = true)

/-! ## The peal bus (R540 to R543) -/

/-- The row of a frame of type `ty` with bytes `b` from SRC on: an alert's row is that of every type that has none of its own. -/
def frameRow (ty : Nat) (b : List Byte) (bad : Bool) (i : Instr) : Prop :=
  (ty = 1 ∧ i = .token b bad) ∨ (ty = 2 ∧ i = .solicit b bad) ∨ (ty = 3 ∧ i = .joinReq b bad) ∨ (ty = 4 ∧ i = .joinAck b bad) ∨
    (ty = 5 ∧ i = .claim b bad) ∨ (ty = 6 ∧ i = .leave b bad) ∨ (ty = 0x10 ∧ i = .fireAnnounce b bad) ∨ (ty = 0x11 ∧ i = .fireCancel b bad) ∨
    (ty = 0x12 ∧ i = .fireArmed b bad) ∨ (ty = 0x20 ∧ i = .time b bad) ∨ (ty = 0x22 ∧ i = .telemetry b bad) ∨
    (([1, 2, 3, 4, 5, 6, 0x10, 0x11, 0x12, 0x20, 0x22] : List Nat).contains ty = false ∧ ty < 256 ∧ i = .alert (BitVec.ofNat 8 ty :: b) bad)

/-- A valid frame of a type, from another node, reaches the enabled controller. -/
def hears (type : Nat) (b : List Byte) (s : State) : Prop :=
  s.peal.enabled = true ∧ frameValid type b = true ∧ fSrc b ≠ s.peal.node

/-- It is for this node, or for every node. -/
def forUs (b : List Byte) (s : State) : Prop := fDst b / 2 ^ 15 = 1 ∨ fDst b = s.peal.node

/-- A frame has been sent first of what left the block. -/
def sentFirst (type dst : Nat) (payload : List Byte) (s t : State) : Prop :=
  ∃ rest, t.out = s.out ++ .peal (pealFrame s.peal.node s.peal.seq type dst payload) :: rest

/-! ## Action instructions (R285, R286) -/

/-- The head instruction `w` of packet `p` is taken: `u` is s but for that packet, which has one instruction less to run and the
same bytes. -/
def tookInstr (p : Nat) (s u : State) : Prop :=
  u = { s with pkts := u.pkts } ∧ (pkt u p).bytes = (pkt s p).bytes ∧ (pkt u p).work = (pkt s p).work.drop 1

/-- It has been taken, the field of its destination is `v` cut to the field's width, and no other bit of a container changes. -/
def setsField (p : Nat) (w : Work) (v : Nat) (s u : State) : Prop :=
  tookInstr p s u ∧ fieldOf w.word (wDst w.word) (pkt u p) = v % 2 ^ wWidth w.word ∧
    (∀ b, b < wLsb w.word ∨ wLsb w.word + wWidth w.word ≤ b →
      ((pkt u p).conts.get (wDst w.word)).testBit b = ((pkt s p).conts.get (wDst w.word)).testBit b) ∧
    ∀ c, c ≠ wDst w.word → (pkt u p).conts.get c = (pkt s p).conts.get c

end Sys2Proof.Machine
end

