-- ==== Sys2Proof/Certificates/Slice0/Obligations.lean ====
section
/-! DEFINITION. What the provers are to prove of the model. -/
open Sys2Proof Sys2Proof.Machine

/-- A step runs the command at the front of the queue on the state with the queue's rest. Rests on spec/00_scope.md, spec/95_what_each_step_holds.md. -/
def Obligations.StepRunsTheFrontCommand : Prop :=
  ∀ (s : State) (c : Instr) (rest : List Instr), s.pending = c :: rest → step s = exec c { s with pending := rest }

/-- On an empty queue the block idles (the model's choice, log 1). Rests on spec/00_scope.md. -/
def Obligations.EmptyQueueIdles : Prop := ∀ s : State, s.pending = [] → step s = .next s

/-- No step but for its front command changes the queue: it is first in, first out. Rests on spec/00_scope.md, spec/95_what_each_step_holds.md. -/
def Obligations.EveryStepTakesExactlyTheFrontCommand : Prop :=
  ∀ s t : State, step s = .next t → t.pending = s.pending.tail

/-- Every step keeps HBM in its canonical form. Rests on spec/19_address_index.md R665, spec/02_clocks_regions_order.md R46, spec/13_host_endpoint.md R492, spec/17_security_lifecycle.md R617. -/
def Obligations.HbmKeepsItsCanonicalForm : Prop :=
  ∀ s t : State, HbmCanonical s → step s = .next t → HbmCanonical t

/-- HBM has its canonical form after reset, with nothing listed. Rests on spec/19_address_index.md R665. -/
def Obligations.HbmCanonicalAtReset : Prop :=
  State.reset.hbm.cells = [] ∧ HbmCanonical State.reset ∧ ∀ a : Nat, Memory.read State.reset.hbm a = 0

/-- A read of HBM gives the last byte written to its address, and a write leaves every other address. Rests on spec/19_address_index.md R665, spec/13_host_endpoint.md R492. -/
def Obligations.HbmReadsWhatWasWritten : Prop :=
  ∀ (m : Hbm) (k a : Nat) (bs : List Byte), Memory.wf m = true →
    Memory.wf (Memory.writeAll m k bs) = true ∧
    Memory.read (Memory.writeAll m k bs) a =
      if k ≤ a ∧ a < k + bs.length then bs.getD (a - k) 0 else Memory.read m a

/-- No step takes the life-cycle state back, and only LC_ADVANCE moves it, along the permitted arcs. Rests on spec/17_security_lifecycle.md R612, spec/17_security_lifecycle.md R614. -/
def Obligations.LifeCycleMovesForwardOnly : Prop :=
  ∀ s t : State, step s = .next t → t.sec.lc = s.sec.lc ∨
    ((∃ (p : Fin 8) (rest : List Instr), s.pending = .lcAdvance p :: rest) ∧
      ((s.sec.lc, t.sec.lc) = (1, 2) ∨ (s.sec.lc, t.sec.lc) = (2, 3) ∨
        (1 ≤ s.sec.lc ∧ s.sec.lc ≤ 3 ∧ t.sec.lc = 4)))

/-- No step lowers the fused minimum SVN, and only a firmware start raises it. Rests on spec/17_security_lifecycle.md R610, spec/04_commands_firmware.md R133. -/
def Obligations.MinimumSvnNeverDecreases : Prop :=
  ∀ s t : State, step s = .next t → s.sec.minSvn ≤ t.sec.minSvn ∧
    (t.sec.minSvn = s.sec.minSvn ∨
      (s.pending.head? = some .fwReady ∧ t.sec.minSvn = max s.sec.minSvn s.fw.svn))

/-- EPOCH changes only when an armed firing takes effect, or returns to 0 at a reset. Rests on spec/05_sets_and_firing.md R140, spec/05_sets_and_firing.md R160, spec/10_time_and_gates.md R344. -/
def Obligations.EpochMovesOnlyAtAFiringOrAReset : Prop :=
  ∀ s t : State, step s = .next t → t.sets.epoch = s.sets.epoch ∨
    (s.pending.head? = some .firingEffective ∧ ∃ a, s.sets.arm = some a ∧ t.sets.epoch = a.target) ∨
    ((s.pending.head? = some .powerOnAo ∨ ∃ cool, s.pending.head? = some (.adpPwrokRise cool)) ∧ t.sets.epoch = 0)

/-- Device time changes only at a CK_T tick, or is cleared at power-on of AO. Rests on spec/03_arithmetic.md R81, spec/10_time_and_gates.md R344, spec/10_time_and_gates.md R346, spec/02_clocks_regions_order.md R64. -/
def Obligations.DeviceTimeMovesOnlyAtATick : Prop :=
  ∀ s t : State, step s = .next t → t.time.now = s.time.now ∨ s.pending.head? = some .ckTTick ∨
    (s.pending.head? = some .powerOnAo ∧ t.time.now = {})

/-- Every well-formed command that comes from a command ring carries a well-formed packet. Rests on spec/04_commands_firmware.md R113, spec/04_commands_firmware.md R114, spec/04_commands_firmware.md R118. -/
def Obligations.PacketCommandsCarryWellFormedPackets : Prop := ∀ i : Instr, Laws.Packet.Statement i

/-- The 16-byte device-time layout loses no bit, and its stamp is the layout's low part. Formalises R79, R80. -/
def Obligations.DeviceTimeLayoutRoundTrips : Prop :=
  ∀ t : DevTime, t.valid = true →
    DevTime.ofFull t.full = t ∧ bits 79 62 t.full = 0 ∧ t.full < 2 ^ 128 ∧
    bits 127 80 t.full = t.sec ∧ bits 61 32 t.full = t.ns ∧ bits 31 0 t.full = t.frac ∧
    bits 63 48 t.stamp = t.sec % 65536 ∧ bits 47 18 t.stamp = t.ns ∧ bits 17 0 t.stamp = t.frac / 2 ^ 14 ∧ t.stamp < 2 ^ 64

/-- ADAPTER_INFO, FW_STATUS, FW_UPDATE, FW_ACTIVATE, NODE_ID_SET and COUNTER_READ run to their replies. Rests on spec/04_commands_firmware.md R120, spec/04_commands_firmware.md R133, spec/04_commands_firmware.md R134, spec/04_commands_firmware.md R136, spec/08_tables_actions.md R293, spec/15_peal_bus.md R555. -/
def Obligations.AdapterCommandsReplyAndTakeEffect : Prop :=
  (∀ c s, Runs 0x0101 .V false always c s → exec (.adapterInfo c) s = repliesOk c s (taken c s)
    (fld 7 0 0xB0 + fld 63 32 s.fw.version + fld 95 64 s.fw.svn + fld 98 96 s.sec.lc + fld 120 112 s.peal.node)) ∧
  (∀ c s, Runs 0x0102 .V false always c s → exec (.fwStatus c) s = repliesOk c s (taken c s)
    (fld 0 0 s.fw.slot + fld 15 8 s.fw.boot0 + fld 23 16 s.fw.boot1 + fld 31 24 1)) ∧
  (∀ c s img, Runs 0x0103 .A true always c s → c.p 12 1 ≤ 1 → c.indirect = true → (s.fw.accepted = true → c.p 12 1 ≠ s.fw.slot) →
    exec (.fwUpdate c img) s = if bootCheck s (some img) = 1 then repliesOk c s
        { taken c s with
          fw := if c.p 12 1 = 0 then { s.fw with slot0 := some img } else { s.fw with slot1 := some img }
          out := s.out ++ [.flash (c.p 12 1 * 0x1000000) (img.signed ++ img.signature ++ List.replicate 51 0 ++ img.payload)] }
        (fld 0 0 (c.p 12 1) + fld 63 32 img.svn)
      else refusesWith c s stSigFail) ∧
  (∀ c s img, Runs 0x0104 .A true always c s → c.p 0 1 ≤ 1 → slotImage s (c.p 0 1) = some img → s.fw.recovery = false →
    (bootCheck s (some img) ≠ 1 → exec (.fwActivate c) s = refusesWith c s stSigFail) ∧
    (bootCheck s (some img) = 1 → ∃ t, exec (.fwActivate c) s = .next t ∧
      t.fw = { s.fw with slot := c.p 0 1, version := img.version, svn := img.svn, accepted := true, ready := false,
                         cause := 1, commit := c.p 1 1 % 2 == 1 } ∧
      t.sec = { s.sec with meas := s.sec.meas.put 1 img.measure } ∧ t.out = s.out ∧ t.sets = s.sets ∧ t.pkts = s.pkts ∧
      (ringOf t c.fn c.sec).exec = some { execOf c s with committed := true, rdata := BitVec.ofNat 128 (fld 31 0 img.version) })) ∧
  (∀ c s, Runs 0x0108 .A true always c s → c.p 0 2 ≤ 511 → s.peal.member = false → s.peal.joining = false →
    exec (.nodeIdSet c) s = repliesOk c s
      { taken c s with peal := { s.peal with node := c.p 0 2, nodeValid := true, dupId := false } } 0) ∧
  (∀ c s, Runs 0x0109 .V false always c s → c.indirect = true → 1 ≤ c.p 20 2 → c.p 20 2 ≤ 64 → c.p 14 1 ≤ 1 →
    16 * c.p 20 2 ≤ c.p 8 4 → blockSize (c.p 12 2) ≠ 0 → c.p 16 4 + c.p 20 2 ≤ blockSize (c.p 12 2) →
    exec (.counterRead c) s = repliesOk c s
      (hostWrite c.fn (c.p 0 8) (16 * c.p 20 2) (ofBytes ((List.range (c.p 20 2)).flatMap fun i =>
        bytesOf 16 (fld 127 64 (blockCtr s (c.p 12 2) (c.p 16 4 + i)).by_ + fld 63 16 (blockCtr s (c.p 12 2) (c.p 16 4 + i)).pk)))
        false (taken c s))
      (fld 63 32 (c.p 20 2)))

/-- EVT_RING_SET, EVT_SUBSCRIBE and PUNT_RING_SET write their ring's registers and nothing else. Rests on spec/04_commands_firmware.md R120, spec/04_commands_firmware.md R122, spec/04_commands_firmware.md R124, spec/04_commands_firmware.md R128. -/
def Obligations.EventAndPuntRingsAreSet : Prop :=
  (∀ c s, Runs 0x0105 .P false always c s → 4 ≤ c.p 8 1 → c.p 8 1 ≤ 12 →
    (fnOf s (pfOf c.iid)).evt.held = [] → (fnOf s (pfOf c.iid)).evt.dropped = 0 →
    exec (.evtRingSet c) s = repliesOk c s
      (setFn (pfOf c.iid) (fun f => { f with evt := { f.evt with
        set := true, base := BitVec.ofNat 64 (c.p 0 8), log2 := BitVec.ofNat 4 (c.p 8 1), vector := BitVec.ofNat 16 (c.p 10 2),
        pi := 0, ack := 0 } }) (taken c s)) 0) ∧
  (∀ c s, Runs 0x0106 .P false always c s → c.p 2 1 ≤ 3 →
    exec (.evtSubscribe c) s = repliesOk c s
      (setFn (pfOf c.iid) (fun f => { f with evt := { f.evt with mask := BitVec.ofNat 16 (c.p 0 2), floor := c.p 2 1 } }) (taken c s))
      (fld 15 0 (fnOf s (pfOf c.iid)).evt.mask.toNat)) ∧
  (∀ c s, Runs 0x0107 .A false always c s → 4 ≤ c.p 8 1 → c.p 8 1 ≤ 12 →
    (fnOf s 0).punt.held = [] → (fnOf s 0).punt.dropped = 0 →
    exec (.puntRingSet c) s = repliesOk c s
      (setFn 0 (fun f => { f with punt := { f.punt with
        set := true, base := BitVec.ofNat 64 (c.p 0 8), log2 := BitVec.ofNat 4 (c.p 8 1), vector := BitVec.ofNat 16 (c.p 10 2),
        pi := 0, ack := 0 } }) (taken c s)) 0)

/-- INST_CONFIG, INST_QUIESCE, INST_RESET and INST_REMOVE move the instance between its states. Rests on spec/14_instances_mailboxes.md R508, spec/14_instances_mailboxes.md R510, spec/14_instances_mailboxes.md R523, spec/14_instances_mailboxes.md R527, spec/14_instances_mailboxes.md R528, spec/14_instances_mailboxes.md R530. -/
def Obligations.InstanceCommandsMoveTheInstance : Prop :=
  (∀ c s, Runs 0x0201 .P false always c s → c.p 2 2 ≤ 256 → c.p 0 2 + c.p 2 2 ≤ 65536 → c.p 4 1 ≤ 7 → c.p 5 43 = 0 →
    fnExists (taken c s) c.iid = true → (c.p 2 2 = 0 ∨ rangeTaken (taken c s) c.iid (c.p 0 2) (c.p 2 2) = false) →
    (∀ k, k < c.p 2 2 → leafClassOther (taken c s) (c.p 0 2 + k) (c.p 4 1) = false) →
    (fnOf s c.iid).inst.state ≠ 4 →
    (((fnOf s c.iid).inst.qbase = c.p 0 2 ∧ (fnOf s c.iid).inst.qcount = c.p 2 2) ∨ (∀ q ∈ (fnOf s c.iid).slots, q.2.state = 0)) →
    ∃ u d, exec (.instConfig c) s = repliesOk c s u 0 ∧
      (fnOf u c.iid).inst = { (fnOf s c.iid).inst with
        state := 1, qbase := c.p 0 2, qcount := c.p 2 2, cls := c.p 4 1, quiesceAt := none, quiesceRings := [], log := d } ∧
      ((fnOf s c.iid).inst.quiesceRings = [] → d = (fnOf s c.iid).inst.log) ∧
      ((fnOf s c.iid).inst.state ≤ 1 → u = setFn c.iid (fun f => { f with inst := { f.inst with
        state := 1, qbase := c.p 0 2, qcount := c.p 2 2, cls := c.p 4 1, quiesceAt := none, quiesceRings := [] } }) (taken c s))) ∧
  (∀ c s, Runs 0x0202 .P false always c s → 1 ≤ c.p 0 4 → c.p 0 4 ≤ 100000 →
    ((fnOf s c.iid).inst.state = 3 → exec (.instQuiesce c) s = repliesOk c s (taken c s) 0) ∧
    ((fnOf s c.iid).inst.state = 1 ∨ (fnOf s c.iid).inst.state = 2 →
      ∃ t, exec (.instQuiesce c) s = .next t ∧ (fnOf t c.iid).inst.state = 2 ∧
        (fnOf t c.iid).inst.quiesceAt = some (s.tick + 800 * c.p 0 4) ∧
        ((fnOf t c.iid).inst.force = true ↔ c.p 4 1 % 2 = 1) ∧
        (fnOf t c.iid).inst.quiesceRings = (fnOf s c.iid).inst.quiesceRings ++ [(c.fn, c.sec)] ∧
        (fnOf t c.iid).inst.qbase = (fnOf s c.iid).inst.qbase ∧ (fnOf t c.iid).inst.qcount = (fnOf s c.iid).inst.qcount ∧
        (ringOf t c.fn c.sec).exec = some (execOf c s))) ∧
  (∀ c s, Runs 0x0203 .P false always c s → resettable c (taken c s) = true →
    ∃ t, exec (.instReset c) s = .next t ∧ (fnOf t c.iid).inst.state = 1 ∧
      (fnOf t c.iid).inst.qbase = (fnOf s c.iid).inst.qbase ∧ (fnOf t c.iid).inst.qcount = (fnOf s c.iid).inst.qcount ∧
      (fnOf t c.iid).inst.cls = (fnOf s c.iid).inst.cls ∧ (fnOf t c.iid).inst.log = none ∧ (fnOf t c.iid).slots = []) ∧
  (∀ c s, Runs 0x0204 .P false (fun c _ => !(isPf c.iid && iidOk c.iid) || (c.fn == 0 && c.iid != 0)) c s →
    (isPf c.iid = true → ∀ v ∈ vfsOf (taken c s) (portOf c.iid), (fnOf s v).inst.state = 0) → resettable c (taken c s) = true →
    ∃ t, exec (.instRemove c) s = .next t ∧ (fnOf t c.iid).inst.state = 0 ∧ (fnOf t c.iid).inst.qcount = 0 ∧
      (fnOf t c.iid).slots = [])

/-- DIRTY_LOG_START, DIRTY_LOG_HARVEST, DIRTY_LOG_STOP, its entry writes and its reads of CONSUMER. Rests on spec/14_instances_mailboxes.md R531, spec/14_instances_mailboxes.md R532, spec/14_instances_mailboxes.md R533, spec/14_instances_mailboxes.md R534, spec/14_instances_mailboxes.md R535, spec/14_instances_mailboxes.md R536. -/
def Obligations.DirtyLogCommandsKeepTheLog : Prop :=
  (∀ c s, Runs 0x0206 .P false always c s → c.p 0 8 % 4096 = 0 → 10 ≤ c.p 8 1 → c.p 8 1 ≤ 24 → c.p 9 39 = 0 →
    (fnOf s c.iid).inst.state ≠ 0 → (fnOf s c.iid).inst.state ≠ 4 → (fnOf s c.iid).inst.log = none →
    ((taken c s).fns.filter fun p => p.2.inst.log.isSome).length < 64 →
    ∃ u, exec (.dirtyLogStart c) s = repliesOk c s u 0 ∧
      (fnOf u c.iid).inst = { (fnOf s c.iid).inst with log := some { ring := c.p 0 8, log2 := c.p 8 1 } } ∧ core u = core s) ∧
  (∀ c s d k n, Runs 0x0207 .P false always c s → c.indirect = true → c.p 8 4 % 8 = 0 → (fnOf s c.iid).inst.log = some d →
    k = (if d.readError then 0 else min d.staged.length (2 ^ d.log2 - (d.producer + 2 ^ 32 - d.consumer % 2 ^ 32) % 2 ^ 32)) →
    n = min (c.p 8 4 / 8) (d.staged.length - k) → d.producer < 2 ^ 32 → d.log2 ≤ 24 →
    ∃ u, exec (.dirtyLogHarvest c) s = repliesOk c s u
        (fld 63 32 n + fld 95 64 (d.roundWritten + k) + fld 111 96 (min 65535 (d.staged.length - k - n)) + fld 112 112 (bit d.overflow)) ∧
      (fnOf u c.iid).inst.log = some { d with
        producer := (d.producer + k) % 2 ^ 32, staged := d.staged.drop (k + n), round := d.staged.drop (k + n), roundWritten := 0
        overflow := false, readError := false, fullPosted := [] } ∧ core u = core s) ∧
  (∀ c s d, Runs 0x0208 .P false always c s → (fnOf s c.iid).inst.log = some d →
    ∃ u, exec (.dirtyLogStop c) s = repliesOk c s u (fld 63 32 d.staged.length) ∧
      (fnOf u c.iid).inst = { (fnOf s c.iid).inst with log := none } ∧ core u = core s) ∧
  (∀ s iid d page rest, (fnOf s iid).inst.log = some d → (d.overflow = true → d.fullPosted.contains 1 = true) → d.readError = false → d.room = true →
    d.staged = page :: rest → (fnOf s (pfOf iid)).bme = true →
    ∃ t, exec (.dirtyLogEntryWrite iid) s = .next t ∧
      t.out = s.out ++ [.dma (pfOf iid) (d.ring + 64 + 8 * (d.producer % 2 ^ d.log2))
        8 (page % 2 ^ 52 * 4096 + (1 - d.producer / 2 ^ d.log2 % 2)) false] ∧
      fnOf t iid = { fnOf s iid with inst := { (fnOf s iid).inst with log := some { d with
        producer := (d.producer + 1) % 2 ^ 32, staged := rest, roundWritten := d.roundWritten + 1 } } } ∧
      (∀ j, j ≠ iid → fnOf t j = fnOf s j) ∧ t.ports = s.ports ∧ core t = core s) ∧
  (∀ s iid d, (fnOf s iid).inst.log = some d → d.room = false → d.staged ≠ [] → d.readNext ≤ s.tick → d.readError = false →
    (∀ v : Word, DirtyLog.room { d with consumer := v.toNat } = true →
      ∃ t, exec (.dirtyLogConsumerRead iid (some v)) s = .next t ∧
        (fnOf t iid).inst.log = some { d with consumer := v.toNat, readNext := s.tick + 8000 } ∧ core t = core s ∧ t.out = s.out) ∧
    (d.fullPosted.contains 2 = true → ∃ t, exec (.dirtyLogConsumerRead iid none) s = .next t ∧
      (fnOf t iid).inst.log = some { d with overflow := true, readError := true } ∧ core t = core s ∧ t.out = s.out))

/-- QUEUE_RESTART, MBOX_STATUS, WINDOW_WRITE, WINDOW_COMMIT, MSIX_MAP and QUEUE_RO_CFG. Formalises R476. -/
def Obligations.QueueAndWindowCommandsWriteTheirRegisters : Prop :=
  (∀ c s, Runs 0x0205 .V false always c s → slotExists (taken c s) c.iid (c.p 0 2) = true →
    ((fnOf (taken c s) c.iid).slots.get (c.p 0 2)).stopped = true →
    ∀ u v, u = setSlot c.iid (c.p 0 2) (fun q => { q with stopped := false, armHeld := false }) (taken c s) →
      v = actQueue c.iid (c.p 0 2) u →
      exec (.queueRestart c) s = repliesOk c s
        (if doorbellActs u c.iid (c.p 0 2) = false then u
         else if ((fnOf (taken c s) c.iid).slots.get (c.p 0 2)).armHeld = true ∧ doorbellActs v c.iid (c.p 0 2) = true then
           armQueue c.iid (c.p 0 2) v
         else v) 0) ∧
  (∀ c s, Runs 0x0209 .V false always c s →
    (c.p 0 2 ≤ 512 → chanExists c.iid (c.p 0 2) = true → exec (.mboxStatus c) s = repliesOk c s (taken c s)
      (fld 63 32 ((fnOf (taken c s) c.iid).chans.get (c.p 0 2)).info)) ∧
    (c.p 0 2 = 0x8000 → exec (.mboxStatus c) s = repliesOk c s (taken c s)
      (fld 63 32 (fnOf (taken c s) c.iid).tx.sts + fld 64 64 (bit (fnOf (taken c s) c.iid).tx.go))) ∧
    (c.p 0 2 = 0x8001 → isPf c.iid = true → exec (.mboxStatus c) s = repliesOk c s (taken c s)
      (fld 63 32 (fnOf (taken c s) c.iid).secTx.sts + fld 64 64 (bit (fnOf (taken c s) c.iid).secTx.go))) ∧
    (c.p 0 2 = 0x4000 → isPf c.iid = true → exec (.mboxStatus c) s = repliesOk c s (taken c s)
      (fld 63 32 (fnOf (taken c s) c.iid).secChan.info))) ∧
  (∀ c s, Runs 0x0D01 .P false always c s → isPf c.iid = true → c.p 1 1 = 0 → c.p 9 1 ≤ 3 → c.p 10 38 = 0 →
    (c.p 8 1 = 0 ∨ (12 ≤ c.p 8 1 ∧ c.p 8 1 ≤ 28 ∧ c.p 2 6 % 2 ^ c.p 8 1 = 0 ∧ c.p 2 6 + 2 ^ c.p 8 1 ≤ 0x003000000000 ∧
      (0x000C00000000 ≤ c.p 2 6 ∨ c.p 2 6 + 2 ^ c.p 8 1 ≤ 0x000BF0000000))) →
    exec (.windowWrite c) s = repliesOk c s (setFn (pfOf c.iid) (fun f => { f with
        winPending := f.winPending.put (c.p 0 1)
          { base := BitVec.ofNat 48 (c.p 2 6), log2 := c.p 8 1, rd := c.p 9 1 % 2 == 1, wr := c.p 9 1 / 2 % 2 == 1 } }) (taken c s)) 0) ∧
  (∀ c s, Runs 0x0D02 .P false always c s → isPf c.iid = true →
    exec (.windowCommit c) s = repliesOk c s (setFn (pfOf c.iid) (fun f => { f with winActive := f.winPending }) (taken c s)) 0) ∧
  (∀ c s, Runs 0x0D03 .V false always c s →
    if slotExists (taken c s) c.iid (c.p 0 2) = true ∧ c.p 2 2 < vectorCount c.iid then
      exec (.msixMap c) s = repliesOk c s
        (setSlot c.iid (c.p 0 2) (fun q => { q with vector := BitVec.ofNat 10 (c.p 2 2) }) (taken c s)) 0
    else exec (.msixMap c) s = refusesWith c s stBadParam) ∧
  (∀ c s, Runs 0x0D04 .V false always c s →
    if slotExists (taken c s) c.iid (c.p 0 2) = true then
      exec (.queueRoCfg c) s = repliesOk c s
        (setSlot c.iid (c.p 0 2) (fun q => { q with roData := c.p 2 1 % 2 == 1 }) (taken c s)) 0
    else exec (.queueRoCfg c) s = refusesWith c s stBadParam)

/-- A tick adds INC in U8.32 ns exactly, carrying into NS and SEC, and keeps device time in its range. Formalises R81. -/
def Obligations.ATickAddsTheIncrementExactly : Prop :=
  ∀ (t : DevTime) (inc : Nat), t.valid = true → inc < 256 * 2 ^ 32 →
    (t.tick inc).valid = true ∧ (t.tick inc).units = (t.units + inc) % (2 ^ 48 * 1000000000 * 2 ^ 32) ∧
    (t.tick inc).frac = (t.frac + inc % 2 ^ 32) % 2 ^ 32 ∧
    ∀ s, s.pwr.ckLocked = true → s.time.queue = [] → ∃ u, exec .ckTTick s = .next u ∧ u.time.now = s.time.now.tick s.time.inc ∧
      u.time.replicas = s.time.replicas.map fun x => x.tick s.time.inc

/-- The device-time commands: what TIME_GET, TIME_INC_SET, TIME_ADJUST, TIME_SET and TIME_JUMP_THR do. Formalises R345, R348, R351. -/
def Obligations.TimeCommandsActAtTheNextTick : Prop :=
  (∀ c s, Runs 0x0501 .V false always c s → exec (.timeGet c) s = repliesOk c s (taken c s) s.time.now.full) ∧
  (∀ c s, Runs 0x0502 .A false always c s →
    exec (.timeIncSet c) s = if 0x013FAE147B ≤ c.p 0 8 ∧ c.p 0 8 ≤ 0x014051EB85 then
        .next { taken c s with time := { s.time with queue := s.time.queue ++ [.inc (c.p 0 8) c.fn c.sec] } }
      else refusesWith c s stBadParam) ∧
  (∀ c s u, Runs 0x0503 .A false always c s → u = afterQueue s.time.queue.length s.time →
    exec (.timeAdjust c) s =
      if c.p 10 38 ≠ 0 then refusesWith c s stBadParam
      else if s.time.thr < (toSigned 80 (c.p 0 10)).natAbs then
        .next (writeReply (execOf c s) stDenied 0x0501
          (postAll 0x0501 23 (fld 255 176 (c.p 0 10) + fld 175 128 (s.time.thr / 2 ^ 14)) (taken c s)))
      else if ((u.now.tick u.inc).units : Int) + toSigned 80 (c.p 0 10) < 0 then refusesWith c s stBadParam
      else .next { taken c s with time := { s.time with queue := s.time.queue ++ [.step (toSigned 80 (c.p 0 10)) c.fn c.sec] } }) ∧
  (∀ c s, Runs 0x0504 .A true always c s →
    exec (.timeSet c) s = if bits 79 62 (c.p 0 16) = 0 ∧ bits 61 32 (c.p 0 16) < 1000000000 then
        .next { taken c s with time := { s.time with queue := s.time.queue ++ [.set (DevTime.ofFull (c.p 0 16)) c.fn c.sec] } }
      else refusesWith c s stBadParam) ∧
  (∀ c s, Runs 0x0505 .A true always c s →
    exec (.timeJumpThr c) s = if 1000 * 2 ^ 32 ≤ c.p 0 10 ∧ c.p 0 10 ≤ 1000000000 * 2 ^ 32 then
        repliesOk c s { taken c s with time := { s.time with thr := c.p 0 10 } } 0
      else refusesWith c s stBadParam)

/-- A CK_T tick carries out at most the oldest queued change, and a replica that differs is reloaded. Rests on spec/03_arithmetic.md R81, spec/10_time_and_gates.md R346, spec/10_time_and_gates.md R347, spec/10_time_and_gates.md R349, spec/10_time_and_gates.md R350, spec/02_clocks_regions_order.md R45, spec/10_time_and_gates.md R354. -/
def Obligations.TheTickCarriesOutOneChange : Prop :=
  (∀ s, s.pwr.ckLocked = true → s.time.queue = [] → s.time.now.units ≤ (s.time.now.tick s.time.inc).units →
    exec .ckTTick s = .next (cipherClocks { s with
      tick := s.tick + 1
      time := { s.time with now := s.time.now.tick s.time.inc, prev := s.time.now,
                            replicas := s.time.replicas.map fun x => x.tick s.time.inc
                            cal := s.time.calNext.foldl (fun m e => m.put e.1 e.2) s.time.cal, calNext := [] } })) ∧
  (∀ s, ∃ x, cipherClocks s = { s with ciph := x }) ∧
  (∀ s x rest, s.pwr.ckLocked = true → s.time.queue = x :: rest →
    ∃ t, exec .ckTTick s = .next t ∧ t.tick = s.tick + 1 ∧ t.time.queue = rest ∧ t.time.prev = s.time.now ∧ t.sets = s.sets ∧
      (match x with
       | .inc v _ _ => t.time.now = s.time.now.tick v ∧ t.time.inc = v ∧ t.time.steps = s.time.steps ∧
           t.time.untrusted = s.time.untrusted
       | .step d _ _ => t.time.now = (s.time.now.tick s.time.inc).add d ∧ t.time.inc = s.time.inc ∧ t.time.steps = s.time.steps + 1 ∧
           t.time.untrusted = s.time.untrusted
       | .set v _ _ => t.time.now = v ∧ t.time.inc = s.time.inc ∧ t.time.steps = s.time.steps + 1 ∧ t.time.untrusted = false)) ∧
  (∀ s, s.pwr.ckLocked = false → exec .ckTTick s = .next s) ∧
  (∀ s (k : Fin 23) (u : Option DevTime), u.getD (s.time.replicas.getD k.val s.time.now) ≠ s.time.now →
    exec (.timeReplicaCheck k u) s = .next (postAll 0x0505 k.val (fld 255 248 k.val)
      { s with time := { s.time with replicas := s.time.replicas.set k.val s.time.now } })) ∧
  (∀ s (k : Fin 23), s.time.replicas.getD k.val s.time.now = s.time.now → exec (.timeReplicaCheck k none) s = .next s)

/-- GATE_LOAD, TS_CAL_SET, PPS_CFG, the pulse per second, and the start and state of gate lists. Rests on spec/10_time_and_gates.md R360, spec/10_time_and_gates.md R370, spec/10_time_and_gates.md R371, spec/10_time_and_gates.md R376, spec/10_time_and_gates.md R378, spec/10_time_and_gates.md R379. -/
def Obligations.GatesAndPulsesFollowDeviceTime : Prop :=
  (∀ c s l n, Runs 0x0506 .A false always c s → c.indirect = true → c.p 8 4 = (c.ind.getD []).length → (c.ind.getD []).length % 8 = 0 →
    (c.ind.getD []).length ≤ 2048 → gateEntriesOk (c.ind.getD []) = true → c.p 14 1 ≤ 1 → c.p 15 1 = 0 → c.p 40 8 = 0 →
    1 ≤ c.p 16 8 → c.p 16 8 ≤ 1000000000 * 2 ^ 32 → bits 79 62 (c.p 24 16) = 0 → bits 61 32 (c.p 24 16) < 1000000000 →
    setActive s = true → isLogicalPort s (c.p 12 2) = true → (c.p 14 1 = 1 → strobeTaken s (c.p 12 2) = false) →
    (l, n) = startGate (DevTime.ofFull (c.p 24 16))
      { cycle := c.p 16 8, strobe := c.p 14 1 == 1, entries := gateEntries (c.ind.getD []) } s.time.now →
    ∃ u, exec (.gateLoad c) s = repliesOk c s u (fld 127 64 l.start.stamp + fld 63 32 (min n (2 ^ 32 - 1)) + fld 0 0 (bit (n != 0))) ∧
      u.gates = s.gates.put (c.p 12 2) { startPending (s.gates.get (c.p 12 2)) s.time.now with pend := some l } ∧
      core { u with gates := s.gates } = core s) ∧
  (∀ (base : DevTime) (l : GateList) (now : DevTime), 0 < l.cycle →
    (startGate base l now).1 = { l with start := DevTime.ofUnits ((base.units + (startGate base l now).2 * l.cycle) % timeSpan) } ∧
    now.units + 2000 * 2 ^ 32 ≤ base.units + (startGate base l now).2 * l.cycle ∧
    ∀ k, k < (startGate base l now).2 → base.units + k * l.cycle < now.units + 2000 * 2 ^ 32) ∧
  (∀ c s, Runs 0x0507 .A false always c s →
    exec (.tsCalSet c) s = if c.p 0 2 < 1024 ∧ c.p 2 1 ≤ 1 then repliesOk c s { taken c s with
      time := { s.time with calNext := s.time.calNext.put (2 * c.p 0 2 + c.p 2 1) (toSigned 32 (c.p 4 4)) } } 0
      else refusesWith c s stBadParam) ∧
  (∀ c s, Runs 0x0508 .A false always c s →
    exec (.ppsCfg c) s =
      if c.p 0 1 % 2 = 0 then repliesOk c s { taken c s with time := { s.time with ppsOn := false, ppsHigh := false } } 0
      else if c.p 4 4 < 1 ∨ 500000 < c.p 4 4 then refusesWith c s stBadParam
      else if ownsBall s 0 1 = true then
        repliesOk c s { taken c s with time := { s.time with ppsOn := true, ppsWidth := c.p 4 4 } } 0
      else refusesWith c s stConflict) ∧
  (∀ s, s.time.ppsOn = true → s.time.untrusted = false → 0 < DevTime.diff s.time.now s.time.prev →
    s.time.now.sec ≠ s.time.prev.sec →
    exec .ppsRise s = .next { s with time := { s.time with
      ppsHigh := true, ppsFallAt := s.tick + 800 * s.time.ppsWidth, prev := s.time.now } }) ∧
  (∀ s, s.time.ppsHigh = true → s.time.ppsFallAt ≤ s.tick →
    exec .ppsFall s = .next { s with time := { s.time with ppsHigh := false } }) ∧
  (∀ s (p : Fin 1024) l, (s.gates.get p.val).pend = some l → s.time.now.reached l.start = true →
    ∃ t, exec (.gateListStart p) s = .next t ∧
      t.gates = s.gates.put p.val { run := some l, pend := none, gates := gateState (some l) s.time.now } ∧
      t = { s with gates := t.gates, strobe := t.strobe }) ∧
  (∀ s (p : Fin 1024), ∃ t, exec (.gateStateChange p) s = .next t ∧
      t.gates = s.gates.put p.val { s.gates.get p.val with gates := gateState (s.gates.get p.val).run s.time.now } ∧
      t = { s with gates := t.gates, strobe := t.strobe })

/-- TBL_INSERT, TBL_DELETE, TBL_MODIFY, TBL_LOOKUP and TBL_DUMP over the entries of a table. Rests on spec/05_sets_and_firing.md R157, spec/08_tables_actions.md R303, spec/08_tables_actions.md R304. -/
def Obligations.TableCommandsWriteTheEntriesTheyName : Prop :=
  (∀ c s, Runs 0x0301 .A false always c s →
    exec (.tblInsert c) s = match insertArgs (taken c s) c with
      | .error st => refusesWith c s st
      | .ok (r, k, a, d) => match r.find k, TblRef.free (taken c s) r k with
        | some h, _ => .next (writeReply (execOf c s) stBadState (fld 63 32 h) (taken c s))
        | none, none => .next (writeReply (execOf c s) stTableFull (fullRdata r k) (taken c s))
        | none, some h => repliesOk c s (writeTbl r h (some { hit := true, action := a, key := k.key, data := d }) (taken c s)) (fld 63 32 h)) ∧
  (∀ s (r : TblRef) (k : TblKey) h (e : TEntry), r.table = tId r.desc → r.find k = none → TblRef.free s r k = some h → e.key = k.key →
    TblRef.find { r with set := { r.set with entries := r.set.entries.put (tKey r.inst r.table h) e } } k = some h) ∧
  (∀ c s, Runs 0x0302 .A false always c s →
    exec (.tblDelete c) s = match deleteArgs (taken c s) c with
      | .error st => refusesWith c s st
      | .ok (r, k) => match r.find k with
        | none => refusesWith c s stNotFound
        | some h => repliesOk c s (writeTbl r h none (taken c s)) 0) ∧
  (∀ c s, Runs 0x0303 .A false always c s →
    exec (.tblModify c) s = match insertArgs (taken c s) c with
      | .error st => refusesWith c s st
      | .ok (r, k, a, d) => match r.find k with
        | none => refusesWith c s stNotFound
        | some h => repliesOk c s (writeTbl r h (some { r.set.entries.get (tKey r.inst r.table h) with
                                                   hit := true, action := a, data := d }) (taken c s)) 0) ∧
  (∀ c s st, Runs 0x0304 .A false always c s → lookupArgs (taken c s) c = .error st → exec (.tblLookup c) s = refusesWith c s st) ∧
  (∀ c s st, Runs 0x0305 .A false always c s → dumpArgs (taken c s) c = .error st → exec (.tblDump c) s = refusesWith c s st) ∧
  (∀ c s r k, Runs 0x0304 .A false always c s → lookupArgs (taken c s) c = .ok (r, k) →
    ∃ t, core t = core s ∧ exec (.tblLookup c) s = match r.find k with
      | none => repliesOk c s (taken c s) 0
      | some h => repliesOk c s t (fld 32 32 1 + fld 95 64 h)) ∧
  (∀ c s r, Runs 0x0305 .A false always c s → dumpArgs (taken c s) c = .ok r →
    ∃ t, core t = core s ∧
      exec (.tblDump c) s = repliesOk c s t
        (fld 47 32 (min (min (c.p 20 2) (c.p 8 4 / (4 + entryWidth r.desc))) (r.handles (c.p 16 4) (2 ^ 32)).length)
          + fld 95 64 (((r.handles (c.p 16 4) (2 ^ 32)).drop (min (c.p 20 2) (c.p 8 4 / (4 + entryWidth r.desc)))).headD 0xFFFFFFFF)))

/-- TBL_AGE_CFG, LEARN_CFG and FEATURE_ENABLE set what they name, and refuse what lies out of range. Rests on spec/08_tables_actions.md R299, spec/08_tables_actions.md R302, spec/05_sets_and_firing.md R152. -/
def Obligations.AgeingAndLearningAreConfigured : Prop :=
  (∀ c s d, Runs 0x0306 .A false always c s → (c.p 0 1 ≤ 15 ∨ c.p 0 1 = 0xFF) → c.p 2 2 = 0 → c.p 8 40 = 0 → c.p 4 4 ≤ 3600000 →
    setActive s = true → tableOf (activeSet s) (c.p 0 1) (c.p 1 1) = some d → tKind d ≠ 4 → tKind d ≠ 5 →
    (c.p 4 4 = 0 ∨ tRows d * (if tKind d == 6 then 8 else 40) ≤ c.p 4 4 * 1000000) →
    exec (.tblAgeCfg c) s = repliesOk c s { taken c s with ages := s.ages.put (c.p 0 1 * 256 + c.p 1 1) (c.p 4 4) } 0) ∧
  (∀ c s, Runs 0x0307 .A false always c s → c.p 1 1 = 0 → c.p 4 1 ≤ 1 → c.p 5 43 = 0 →
    exec (.learnCfg c) s = if c.p 0 1 ≤ 15 ∧ 1 ≤ c.p 2 2 ∧ c.p 2 2 ≤ 1024 then
        repliesOk c s { taken c s with
          learns := s.learns.put (c.p 0 1)
            { window := c.p 2 2, enable := c.p 4 1 == 1, entries := if c.p 4 1 = 1 then (s.learns.get (c.p 0 1)).entries else [] } } 0
      else refusesWith c s stBadParam) ∧
  (∀ c s, Runs 0x0405 .A false always c s →
    if featureOk (c.p 2 1) (c.p 4 2) (c.p 0 2) = false ∨ 1 < c.p 6 1 then exec (.featureEnable c) s = refusesWith c s stBadParam
    else if setActive s = true ∧ ownerFeature (activeSet s) (c.p 2 1) (c.p 4 2) = c.p 0 2 then
      ∃ t, exec (.featureEnable c) s = repliesOk c s t 0 ∧ t = { taken c s with sets := t.sets, strobe := t.strobe } ∧
        (featOn t (c.p 2 1) (c.p 4 2) (c.p 0 2) = true ↔ c.p 6 1 = 1) ∧
        (∀ k i f, (k, i, f) ≠ (c.p 2 1, c.p 4 2, c.p 0 2) → featOn t k i f = featOn s k i f)
    else exec (.featureEnable c) s = refusesWith c s stConflict)

/-- SET_LOAD, SET_FIRE, SET_CANCEL and SET_STATUS over the shadow and the armed firing. Rests on spec/05_sets_and_firing.md R142, spec/05_sets_and_firing.md R146, spec/05_sets_and_firing.md R159, spec/05_sets_and_firing.md R163, spec/05_sets_and_firing.md R165, spec/05_sets_and_firing.md R172. -/
def Obligations.SetsAreLoadedArmedAndCancelled : Prop :=
  (∀ c i s, Runs 0x0401 .A false always c s → c.indirect = true →
    (shadowState s = 1 ∨ shadowState s = 4 → exec (.setLoad c i) s = refusesWith c s stBusy) ∧
    (shadowState s = 3 → exec (.setLoad c i) s = refusesWith c s stBadState) ∧
    (shadowState s = 0 ∨ shadowState s = 2 →
      match loadCheck (taken c s) (c.ind.getD []) i with
      | some (st, d) => exec (.setLoad c i) s = .next (writeReply (execOf c s) st d (taken c s))
      | none => ∃ t x, exec (.setLoad c i) s = repliesOk c s t (fld 31 0 x.setId + fld 127 64 x.measure.toNat) ∧
          placeInits (imageSet (c.ind.getD []) i) i = some x ∧
          shadowSet t = x ∧ activeSet t = activeSet s ∧ t.sets.epoch = s.sets.epoch ∧ t.sets.on = s.sets.on ∧
          t = { taken c s with sets := t.sets, sec := { s.sec with meas := s.sec.meas.put 3 x.measure } })) ∧
  (∀ c s, Runs 0x0402 .A false always c s → (fireInstant c).valid = true → c.p 0 16 = (fireInstant c).full → c.p 16 1 ≤ 1 →
    shadowState s = 2 → (10000 * 2 ^ 32 : Int) ≤ DevTime.diff (fireInstant c) s.time.now →
    DevTime.diff (fireInstant c) s.time.now ≤ (1000000000000 * 2 ^ 32 : Int) → s.time.untrusted = false →
    (c.p 16 1 = 1 → s.peal.member = true ∧ (shadowSet s).podGen ≠ 0 ∧ (50000000 * 2 ^ 32 : Int) ≤ DevTime.diff (fireInstant c) s.time.now) →
    ∃ t, exec (.setFire c) s = repliesOk c s t (fld 31 16 ((s.sets.epoch + 1) % 65536)) ∧
      t.sets = { s.sets with arm := some { instant := fireInstant c, target := (s.sets.epoch + 1) % 65536, pod := c.p 16 1 == 1,
                                           initiator := c.p 16 1 == 1 } } ∧
      t = { taken c s with sets := t.sets, peal := t.peal } ∧ (c.p 16 1 = 0 → t.peal = s.peal)) ∧
  (∀ c s, Runs 0x0403 .A false always c s →
    (s.sets.arm = none ∨ nearFiring s = true → exec (.setCancel c) s = refusesWith c s stBadState) ∧
    (s.sets.arm ≠ none → nearFiring s = false →
      ∃ t, exec (.setCancel c) s = repliesOk c s t 0 ∧ t.sets = { s.sets with arm := none } ∧
        core { t with sets := s.sets, peal := s.peal } = core s)) ∧
  (∀ c s, Runs 0x0404 .V false always c s → s.sets.epoch < 2 ^ 16 →
    ∃ r, exec (.setStatus c) s = repliesOk c s (taken c s) r ∧ bits 31 16 r = s.sets.epoch ∧ bits 4 2 r = shadowState s ∧
      bits 1 1 r = bit s.sets.on ∧ bits 15 5 r = 0)

/-- A firing that takes effect, the straddle window, the drain of the old set and its limit. Rests on spec/05_sets_and_firing.md R160, spec/05_sets_and_firing.md R164, spec/05_sets_and_firing.md R166, spec/05_sets_and_firing.md R170, spec/05_sets_and_firing.md R171. -/
def Obligations.AFiringMakesTheShadowActive : Prop :=
  (∀ s a, s.sets.arm = some a → s.pwr.released = true → s.time.now.reached a.instant = true →
    ∃ t, exec .firingEffective s = .next t ∧ t.sets.epoch = a.target ∧ t.sets.on = true ∧ t.sets.arm = none ∧
      t.sets.drain = (if s.sets.on then some s.sets.epoch else none) ∧
      t.sets.straddle = (if a.pod then some s.sets.epoch else none) ∧
      (setFor t a.target).secs = (setFor s a.target).secs ∧ (setFor t (a.target + 1)).secs = (setFor s (a.target + 1)).secs ∧
      t.time.now = s.time.now ∧ t.hbm = s.hbm) ∧
  (∀ s a, s.sets.arm = some a → s.time.now.reached a.instant = false → exec .firingEffective s = .next s) ∧
  (∀ s e, s.sets.straddle = some e → s.sets.straddleBy ≤ s.tick →
    exec .straddleWindowClose s = .next { s with sets := { s.sets with straddle := none } }) ∧
  (∀ s e, s.pwr.released = true → s.sets.drain = some e → s.sets.straddle = none → epochCount s e = 0 →
    ∃ t, exec .setDrainEnd s = .next t ∧ t.sets = { s.sets with drain := none } ∧
      core { t with sets := s.sets, keys := s.keys } = core s) ∧
  (∀ s e, s.sets.drain = some e → epochCount s e ≠ 0 → s.sets.drainBy ≤ s.tick →
    ∃ t, exec .drainLimitExpiry s = .next t ∧ t.sets = { s.sets with drain := none } ∧ (∀ f ∈ t.frags, f.2.epoch ≠ e))

/-- The steps of the power-on order, from power-on of AO to FW_READY. Rests on spec/18_electrical_package.md R638, spec/18_electrical_package.md R641, spec/02_clocks_regions_order.md R44, spec/04_commands_firmware.md R130, spec/04_commands_firmware.md R131, spec/04_commands_firmware.md R132, spec/04_commands_firmware.md R133, spec/04_commands_firmware.md R135, spec/16_reliability_selftest_ageing.md R587. -/
def Obligations.ThePowerOnOrderRuns : Prop :=
  (∀ s, ∃ t, exec .powerOnAo s = .next t ∧ t.pwr = State.reset.pwr ∧ t.sets = {} ∧ t.hbm = {} ∧ t.fns = [] ∧ t.fw.slot0 = s.fw.slot0 ∧
      t.fw.slot1 = s.fw.slot1 ∧ t.sec.lc = s.sec.lc ∧ t.sec.minSvn = s.sec.minSvn ∧ t.sec.hashes = s.sec.hashes ∧ t.pending = s.pending) ∧
  (∀ s cool, s.pwr.pwrok = false → (s.pwr.tripped = true → s.pwr.stage = 12 → cool = true ∧ s.pwr.fellAt + 800000 ≤ s.tick) →
    ∃ t, exec (.adpPwrokRise cool) s = .next t ∧ t.pwr.pwrok = true ∧ t.pwr.stage = 1 ∧ t.pwr.en = 1 ∧ t.sets = {} ∧ t.fw.ready = false ∧
      t.sec.lc = s.sec.lc ∧ t.time.now = s.time.now) ∧
  (∀ s, s.pwr.tripped = true → s.pwr.stage = 12 → exec (.adpPwrokRise false) s = .next s) ∧
  (∀ s (n : Fin 3), s.pwr.stage = n.val + 1 → s.pwr.en.getLsbD n.val = true →
    ∃ t, exec (.pwrPgRise n) s = .next t ∧ t.pwr.stage = n.val + 2 ∧ t.pwr.pg.getLsbD n.val = true ∧
      (n.val < 2 → t.pwr.en.getLsbD (n.val + 1) = true) ∧ t = { s with pwr := { s.pwr with stage := n.val + 2, pg := t.pwr.pg, en := t.pwr.en } }) ∧
  (∀ s, 1 ≤ s.pwr.stage → s.pwr.stage ≤ 3 →
    ∃ t, exec .pwrSeqFail s = .next t ∧ t.pwr.stage = 13 ∧ t.pwr.failCause = s.pwr.stage ∧ t.pwr.en = 0 ∧ t.pwr.safe = true) ∧
  (∀ s, s.pwr.stage = 4 → s.pwr.relock = false →
    ∃ t, exec .rootPllLock s = .next t ∧
      t.pwr = { s.pwr with ckLocked := true, refValid := true, unlocked := false, lockTick := s.tick, stage := 6 } ∧
      t.time.untrusted = (s.time.untrusted || s.pwr.unlocked) ∧ core { t with pwr := s.pwr, time := s.time } = core s) ∧
  (∀ s i0 i1, s.pwr.stage = 6 → s.fw.recovery = false → s.sec.lc ≠ 0 → s.sec.lc ≠ 4 →
    ∃ t, exec (.fwBootCheck i0 i1) s = .next t ∧ t.fw.slot0 = i0 ∧ t.fw.slot1 = i1 ∧ t.fw.boot0 = bootCheck s i0 ∧
      (if bootCheck s i0 = 1 ∨ bootCheck s i1 = 1 then
        t.pwr.stage = 9 ∧ t.fw.accepted = true ∧ t.pwr.hxReady = true ∧ t.pwr.released = true ∧
          t.fw.slot = (if bootCheck s i0 = 1 then 0 else 1)
      else t.pwr = s.pwr ∧ t.fw.accepted = s.fw.accepted)) ∧
  (∀ s i, bootCheck s (some i) = 1 → s.sec.minSvn ≤ i.svn) ∧
  (∀ s, s.pwr.stage = 6 → s.fw.accepted = false → s.sec.lc ≠ 0 → s.sec.lc ≠ 4 → s.pwr.lockTick + 800000000 ≤ s.tick →
    exec .fwRecoveryTimeout s = .next { s with fw := { s.fw with recovery := true }, pwr := { s.pwr with hxReleased := true, hxReady := true } }) ∧
  (∀ s, s.pwr.stage = 9 → s.fw.accepted = true → s.kiln.holds = [] →
    ∃ t, exec (.startUpTest []) s = .next t ∧ t.pwr = { s.pwr with stage := 10 } ∧ t.kiln.fails = s.kiln.fails ∧
      t.hbm = stacksOverwritten s.kiln.blocks s.hbm) ∧
  (∀ s, s.pwr.stage = 10 → s.fw.accepted = true → s.fw.ready = false → s.kiln.holds = [] →
    ∃ t, exec .fwReady s = .next t ∧ t.fw.ready = true ∧ t.fw.commit = false ∧ t.pwr.stage = 11 ∧ t.pwr.safe = false ∧
      t.sec.minSvn = (if s.fw.commit then max s.sec.minSvn s.fw.svn else s.sec.minSvn)) ∧
  (∀ s c, s.fw.ready = true →
    ∃ t, exec (.heartbeatTimeout c) s = .next t ∧ t.fw = { s.fw with ready := false, cause := 2, faults := min (2 ^ 16 - 1) (s.fw.faults + 1) } ∧
      core { t with fw := s.fw, kiln := s.kiln } = core s)

/-- Loss of lock, of a power group, of ADP_PWROK, and a hardware trip enter the safe state; relock repeats the order. Rests on spec/02_clocks_regions_order.md R45, spec/02_clocks_regions_order.md R46, spec/10_time_and_gates.md R352, spec/17_security_lifecycle.md R621, spec/18_electrical_package.md R640, spec/18_electrical_package.md R642, spec/18_electrical_package.md R647, spec/18_electrical_package.md R653. -/
def Obligations.LossesLeadToTheSafeState : Prop :=
  (∀ s, s.pwr.ckLocked = true → 9 ≤ s.pwr.stage → s.pwr.stage ≤ 11 →
    ∃ t, exec .pllLockLost s = .next t ∧ t.pwr.unlocked = true ∧ t.pkts = [] ∧ t.frags = [] ∧ t.pwr.safe = true ∧ t.pwr.ckLocked = false ∧ t.pwr.lossOfLock = true ∧ t.pwr.relock = true ∧
      t.pwr.stage = 4 ∧ t.fw.ready = false ∧ (∀ p, (t.sec.ports.get p).session = 0) ∧ t.hbm = s.hbm ∧ t.keys = s.keys ∧
      t.sets.epoch = s.sets.epoch ∧ t.time.now = s.time.now) ∧
  (∀ s, s.pwr.stage = 4 → s.pwr.relock = true →
    ∃ t, exec .pllRelock s = .next t ∧ t.pwr.ckLocked = true ∧ t.pwr.stage = 9 ∧ t.pwr.released = true ∧
      t.time.untrusted = (s.time.untrusted || s.pwr.unlocked) ∧ t.sets = { epoch := s.sets.epoch } ∧ t.pkts = s.pkts ∧ t.hbm = s.hbm ∧ t.keys.slots = s.keys.slots ∧ t.store.nss = s.store.nss) ∧
  (∀ s (n : Fin 3), n.val + 1 < s.pwr.stage → s.pwr.stage ≤ 11 → s.pwr.en.getLsbD n.val = true →
    ∃ t, exec (.pwrPgLost n) s = .next t ∧ t.pwr.safe = true ∧ t.pwr.en = 0 ∧ t.pwr.failCause = 4 ∧ t.pwr.stage = 13 ∧
      (∀ k, (t.pwr.lasers.get k).en = false)) ∧
  (∀ s, s.pwr.pwrok = true →
    ∃ t, exec .adpPwrokFall s = .next t ∧ t.pwr.safe = true ∧ t.pwr.en = 0 ∧ t.pwr.pwrok = false ∧ t.pwr.ckLocked = s.pwr.ckLocked ∧
      t.pwr.stage = (if s.pwr.stage = 12 ∨ s.pwr.stage = 13 then s.pwr.stage else 0) ∧ (∀ k, (t.pwr.lasers.get k).en = false)) ∧
  (∀ s (k : Fin 24) tj, 135 ≤ tj → s.pwr.stage ≠ 12 →
    ∃ t, exec (.thermComparatorTrip k tj) s = .next t ∧ t.pwr.safe = true ∧ t.pwr.en = 0 ∧ t.pwr.tripped = true ∧ t.pwr.tripHw = true ∧
      t.pwr.tripRegion = k.val ∧ t.pwr.tripTj = tj ∧ t.pwr.tripOut = true ∧ t.pwr.stage = 12 ∧ (∀ j, (t.pwr.lasers.get j).en = false))

/-- Region samples, the stretch, cap and thermal steps, the power totals and the raised supply. Rests on spec/02_clocks_regions_order.md R57, spec/02_clocks_regions_order.md R58, spec/02_clocks_regions_order.md R59, spec/02_clocks_regions_order.md R60, spec/02_clocks_regions_order.md R62, spec/18_electrical_package.md R634, spec/18_electrical_package.md R645, spec/18_electrical_package.md R646. -/
def Obligations.RegionLimitsStretchAndCapsStep : Prop :=
  (∀ s (k : Fin 24) vdd tj, s.pwr.ckLocked = true → monitorRuns s k = true → (tj < 128 ∨ (regionOf s k).hot < 99) →
    ∃ t, exec (.regionMonitorSample k vdd tj) s = .next t ∧ (regionOf t k).sampled = true ∧ (regionOf t k).vdd = vdd % 4096 ∧
      (regionOf t k).tj = satSigned 9 tj ∧ (regionOf t k).hot = (if 128 ≤ tj then (regionOf s k).hot + 1 else 0) ∧ ((regionOf t k).limitV = true ↔ overV t k ≠ []) ∧ ((regionOf t k).limitT = true ↔ overT t k ≠ []) ∧
      core { t with pwr := s.pwr } = core s ∧ (tj < 118 → t = { s with pwr := { s.pwr with regions := t.pwr.regions } })) ∧
  (∀ s (k : Fin 24), ((regionOf s k).limitV = true ∨ (regionOf s k).limitT = true) → (regionOf s k).monStep < 3 →
    ((regionOf s k).monStep = 0 ∨ (regionOf s k).monAt + 8000 ≤ s.tick) →
    ∃ t, exec (.stretchStepRise k) s = .next t ∧ (regionOf t k).monStep = (regionOf s k).monStep + 1 ∧ (regionOf t k).monAt = s.tick ∧
      ((regionOf s k).monStep = 0 → t.pwr.limitSts.getLsbD k.val = true) ∧ core { t with pwr := s.pwr } = core s) ∧
  (∀ s (k : Fin 24) since, (regionOf s k).calm = some since → 0 < (regionOf s k).monStep → since + 80000 ≤ s.tick →
    (regionOf s k).monAt + 80000 ≤ s.tick →
    exec (.stretchStepFall k) s = .next (setRegion k (fun r => { r with monStep := r.monStep - 1, monAt := s.tick, lowSince := none }) s)) ∧
  (∀ s (k : Fin 24), (regionOf s k).monStep = 3 → (regionOf s k).repeatAt ≤ s.tick →
    exec (.regionLimitRepeat k) s =
      .next (postRegionLimit k true (setRegion k (fun r => { r with repeatAt := s.tick + 800000 }) s))) ∧
  (∀ s (k : Fin 24) since, k.val < 22 → (regionOf s k).lowSince = some since → since + 800000 ≤ s.tick → 740 ≤ (regionOf s k).setMv →
    (regionOf s k).setMv + 5 ≤ 860 → (16 * bit (railOf k).1 + (railOf k).2) ∉ s.pwr.avsFaulted →
    ∃ t, exec (.avsLimitRaise k) s = .next t ∧ (regionOf t k).setMv = (regionOf s k).setMv + 5 ∧
      t.out = s.out ++ [.avs (railOf k).1 (railOf k).2 ((regionOf s k).setMv + 5)] ∧ core { t with pwr := s.pwr } = core s) ∧
  (∀ s total ts, ts = (total % 2 ^ 16 :: s.pwr.totals).take 10 →
    exec (.powerTotalSample total) s = .next { s with pwr := { s.pwr with
      totals := ts, overCap := decide (ts.length = 10 ∧ s.pwr.cap * 160 < ts.sum)
      underCap := decide (ts.length = 10 ∧ ts.sum * 100 ≤ s.pwr.cap * 160 * 95) } }) ∧
  (∀ s, s.pwr.overCap = true → s.pwr.capAt + 8000000 ≤ s.tick → s.pwr.capStep < 3 →
    ∃ t, exec .capStepRise s = .next t ∧ t.pwr.capStep = s.pwr.capStep + 1 ∧ t.pwr.capAt = s.tick ∧ core { t with pwr := s.pwr } = core s) ∧
  (∀ s, s.pwr.underCap = true → 0 < s.pwr.capStep → s.pwr.capAt + 80000000 ≤ s.tick →
    exec .capStepFall s = .next { s with pwr := { s.pwr with capStep := s.pwr.capStep - 1, capAt := s.tick } }) ∧
  (∀ s (k : Fin 24), k.val < 20 → (regionOf s k).thermStep < 3 → (regionOf s k).thermAt + 8000000 ≤ s.tick →
    exec (.thermalStepRise k) s = if 120 ≤ (regionOf s k).tj then
      .next (setRegion k (fun r => { r with thermStep := r.thermStep + 1, thermAt := s.tick }) s) else .next s) ∧
  (∀ s (k : Fin 24), k.val < 20 → 0 < (regionOf s k).thermStep → (regionOf s k).thermAt + 80000000 ≤ s.tick →
    exec (.thermalStepFall k) s = if (regionOf s k).tj < 115 then
      .next (setRegion k (fun r => { r with thermStep := r.thermStep - 1, thermAt := s.tick }) s) else .next s)

/-- AVSBus responses, laser sources and lane references, and PWR_STATUS, PWR_CAP and TELEM_CFG. Rests on spec/18_electrical_package.md R635, spec/18_electrical_package.md R636, spec/18_electrical_package.md R645, spec/18_electrical_package.md R650, spec/18_electrical_package.md R653, spec/18_electrical_package.md R661, spec/18_electrical_package.md R662, spec/18_electrical_package.md R663. -/
def Obligations.RailsLasersAndPowerCommands : Prop :=
  (∀ s (r : Fin 16) a, 6 ≤ r.val → exec (.avsResponse true r a) s = .next s) ∧
  (∀ s bus (r : Fin 16), (bus = true → r.val < 6) →
    (s.pwr.avsTries.get (16 * bit bus + r.val) < 2 → exec (.avsResponse bus r .noResponse) s =
      .next { s with pwr := { s.pwr with avsTries := s.pwr.avsTries.put (16 * bit bus + r.val) (s.pwr.avsTries.get (16 * bit bus + r.val) + 1) } }) ∧
    (∀ a, (a = .statusFault ∨ (a = .noResponse ∧ 2 ≤ s.pwr.avsTries.get (16 * bit bus + r.val)) ∨
        (∃ v, a = .readback v ∧ (regionOf s (16 * bit bus + r.val)).setMv ≠ 0 ∧
          ((regionOf s (16 * bit bus + r.val)).setMv * 16 + 160 < v ∨ v + 160 < (regionOf s (16 * bit bus + r.val)).setMv * 16))) →
      ∃ t, exec (.avsResponse bus r a) s = .next t ∧ (16 * bit bus + r.val) ∈ t.pwr.avsFaulted ∧ core { t with pwr := s.pwr } = core s) ∧
    (∀ v, (regionOf s (16 * bit bus + r.val)).setMv * 16 ≤ v + 160 → v ≤ (regionOf s (16 * bit bus + r.val)).setMv * 16 + 160 →
      ∃ t, exec (.avsResponse bus r (.readback v)) s = .next t ∧ t.pwr.avsFaulted = s.pwr.avsFaulted ∧
        t.pwr.avsRead.get (16 * bit bus + r.val) = v % 65536 ∧ t.pwr.avsTries.get (16 * bit bus + r.val) = 0)) ∧
  (∀ s (k : Nat) v, k < 22 → (16 * bit (railOf k).1 + (railOf k).2) ∈ s.pwr.avsFaulted → writeRail k v s = s) ∧
  (∀ s (k : Fin 16), (s.pwr.lasers.get k).mated = false →
    ∃ t, exec (.laserMatedChange k true) s = .next t ∧ (t.pwr.lasers.get k).mated = true ∧ (t.pwr.lasers.get k).matedAt = s.tick ∧
      (t.pwr.lasers.get k).en = (s.pwr.lasers.get k).en) ∧
  (∀ s (k : Fin 16), ∃ t, exec (.laserMatedChange k false) s = .next t ∧ (t.pwr.lasers.get k).mated = false ∧ (t.pwr.lasers.get k).en = false ∧
      t = { s with pwr := { s.pwr with lasers := t.pwr.lasers } }) ∧
  (∀ s (k : Fin 16), ∃ t, exec (.laserSourceFault k) s = .next t ∧ (t.pwr.lasers.get k).fault = true ∧ (t.pwr.lasers.get k).en = false ∧
      t = { s with pwr := { s.pwr with lasers := t.pwr.lasers } }) ∧
  (∀ s (k : Fin 16), ∃ t, exec (.laserFaultClear k) s = .next t ∧ (t.pwr.lasers.get k).fault = false ∧
      ((t.pwr.lasers.get k).en = true ↔ s.pwr.released = true ∧ (s.pwr.lasers.get k).mated = true ∧ (s.pwr.lasers.get k).matedAt + 80000000 ≤ s.tick) ∧
      t = { s with pwr := { s.pwr with lasers := t.pwr.lasers } }) ∧
  (∀ s (k : Fin 16), ∃ t, exec (.laneRefLost k) s = .next t ∧ (t.pwr.lasers.get k).lref = false) ∧
  (∀ s (k : Fin 16), exec (.laneRefRestored k) s =
    .next { s with pwr := { s.pwr with lasers := s.pwr.lasers.put k { s.pwr.lasers.get k with lref := true } } }) ∧
  (∀ c s, Runs 0x0B01 .V false always c s →
    exec (.pwrStatus c) s = repliesOk c s (taken c s) (fld 15 0 (s.pwr.totals.headD 0) + fld 20 16 (hottest s)
      + fld 29 21 (ofSigned 9 (regionOf s (hottest s)).tj) + fld 47 32 s.pwr.cap + fld 49 48 s.pwr.capStep + fld 50 50 (bit s.pwr.tripped))) ∧
  (∀ c s, Runs 0x0B02 .A false always c s →
    exec (.pwrCap c) s = if 300 ≤ c.p 0 2 ∧ c.p 0 2 ≤ 720 then repliesOk c s { taken c s with pwr := { s.pwr with cap := c.p 0 2 } } 0
      else refusesWith c s stBadParam) ∧
  (∀ c s, Runs 0x0B03 .A false always c s → c.p 2 1 ≤ 1 →
    exec (.telemCfg c) s = if c.p 0 2 = 0 ∨ (100 ≤ c.p 0 2 ∧ c.p 0 2 ≤ 60000) then
        repliesOk c s { taken c s with
          pwr := { s.pwr with telemPeriod := c.p 0 2, telemPeal := c.p 2 1 == 1, telemNext := s.tick + 800000 * c.p 0 2 } } 0
      else refusesWith c s stBadParam)

/-- Doorbell, enable and disable of a command ring, its stops, and a failed command fetch. Rests on spec/04_commands_firmware.md R103, spec/04_commands_firmware.md R105, spec/04_commands_firmware.md R106, spec/04_commands_firmware.md R108, spec/04_commands_firmware.md R109. -/
def Obligations.RingRegistersDriveTheRing : Prop :=
  (∀ s fn sec (v : Word), bar0Open s fn = true → (sec = true → isPf fn = true) →
    exec (.cmdRingPi fn sec v) s =
      if (ringOf s fn sec).enable = true ∧ (ringOf s fn sec).stopped = false ∧
          2 ^ (ringOf s fn sec).log2.toNat < (v.extractLsb' 0 16 - (ringOf s fn sec).ci).toNat then
        .next (stopRing fn sec 1 (setRing fn sec (fun r => { r with pi := v.extractLsb' 0 16 }) s))
      else .next (setRing fn sec (fun r => { r with pi := v.extractLsb' 0 16 }) s)) ∧
  (∀ s fn sec (v : Word), bar0Open s fn = true → (sec = true → isPf fn = true) → v.getLsbD 31 = true → (ringOf s fn sec).enable = false →
    ∃ t, exec (.cmdRingEnable fn sec v) s = .next t ∧ (ringOf t fn sec).enable = true ∧ (ringOf t fn sec).vector = v.extractLsb' 16 11 ∧
      (ringOf t fn sec).log2 = v.extractLsb' 0 4 ∧ (ringOf t fn sec).pi = 0 ∧ (ringOf t fn sec).ci = 0 ∧ (ringOf t fn sec).seqValid = false ∧
      ((ringOf t fn sec).stopped = true ↔ (v.extractLsb' 0 4).toNat < 4 ∨ 12 < (v.extractLsb' 0 4).toNat) ∧ core t = core s) ∧
  (∀ s fn sec (v : Word), bar0Open s fn = true → (sec = true → isPf fn = true) → v.getLsbD 31 = false → exec (.cmdRingDisable fn sec v) s =
      if (ringOf s fn sec).enable = true then .next (setRing fn sec (fun r => { r with enable := false }) s)
      else .next (setRing fn sec (fun r => { r with vector := v.extractLsb' 16 11, log2 := v.extractLsb' 0 4 }) s)) ∧
  (∀ s fn sec, ringLive s fn sec = true → exec (.commandFetchError fn sec) s = .next (stopRing fn sec 2 s)) ∧
  (∀ s fn sec code, code < 16 → (ringOf (stopRing fn sec code s) fn sec).err = true ∧
    (ringOf (stopRing fn sec code s) fn sec).errCode.toNat = code ∧ (ringOf (stopRing fn sec code s) fn sec).pi = (ringOf s fn sec).pi ∧
    (ringOf (stopRing fn sec code s) fn sec).ci = (ringOf s fn sec).ci ∧ ringLive (stopRing fn sec code s) fn sec = false ∧
    core (stopRing fn sec code s) = core s)

/-- The header checks of every command packet, in their order, and the reply that ends a command. Rests on spec/04_commands_firmware.md R106, spec/04_commands_firmware.md R110, spec/04_commands_firmware.md R113, spec/04_commands_firmware.md R114, spec/04_commands_firmware.md R115, spec/04_commands_firmware.md R116, spec/04_commands_firmware.md R117. -/
def Obligations.EveryCommandIsAnswered : Prop :=
  (∀ op w sec permit check onRefuse effect c s, ringLive s c.fn c.sec = true → (c.opcode = op ∨ opcodeListed c.opcode = false) →
    ((c.h 95 70 ≠ 0 ∨ c.h 31 19 ≠ 0 ∨ 48 < c.plen) → runCmd op w sec permit check onRefuse effect c s =
      writeReply (execOf c s) stBadParam 0 (setRing c.fn c.sec (fun r => { r with exec := some (execOf c s) }) s)) ∧
    (c.h 95 70 = 0 → c.h 31 19 = 0 → c.plen ≤ 48 → (ringOf s c.fn c.sec).seqValid = true →
      after 16 c.seq (ringOf s c.fn c.sec).lastSeq.toNat = false → runCmd op w sec permit check onRefuse effect c s =
      writeReply (execOf c s) stBadParam 0 (setRing c.fn c.sec (fun r => { r with exec := some (execOf c s) }) s)) ∧
    (headOk c s → opcodeListed c.opcode = false →
      runCmd op w sec permit check onRefuse effect c s = writeReply (execOf c s) stBadOpcode 0 (taken c s)) ∧
    (headOk c s → c.opcode = op → opcodeListed op = true → (channelOk (taken c s) w sec op c = false ∨ permit c (taken c s) = false) →
      runCmd op w sec permit check onRefuse effect c s = writeReply (execOf c s) stDenied 0 (taken c s)) ∧
    (Passes op w sec permit c s → c.isCheck = true → ∃ st r, runCmd op w sec permit check onRefuse effect c s =
      writeReply (execOf c s) st r (taken c s)) ∧
    (headOk c s → c.opcode = op → opcodeListed op = true → channelOk (taken c s) w sec op c = true → permit c (taken c s) = true →
      iidOk c.iid = true → domainDown (taken c s) c.iid = false → needsBuffer c = true →
      runCmd op w sec permit check onRefuse effect c s = issueRead c.fn (.command c.sec) (c.p 0 8) (c.p 8 4) (taken c s))) ∧
  (∀ op w sec permit check onRefuse effect c s e d, resumed (ringOf s c.fn c.sec) c = some (e, d) → c.opcode = op → ringsServed s = true →
    runCmd op w sec permit check onRefuse effect c s = runBody e check onRefuse effect d s ∧ d = { c with ind := e.buf }) ∧
  (∀ i c s, i.packet = some c → ringLive s c.fn c.sec = false → resumed (ringOf s c.fn c.sec) c = none → exec i s = .next s) ∧
  (∀ e st r s, (fnOf s e.pkt.fn).bme = true → (ringOf s e.pkt.fn e.pkt.sec).exec ≠ none →
    (ringOf (writeReply e st r s) e.pkt.fn e.pkt.sec).exec = none ∧
    (ringOf (writeReply e st r s) e.pkt.fn e.pkt.sec).ci = (ringOf s e.pkt.fn e.pkt.sec).ci + 1 ∧
    (ringOf (writeReply e st r s) e.pkt.fn e.pkt.sec).pi = (ringOf s e.pkt.fn e.pkt.sec).pi ∧
    (∃ a h tail, (writeReply e st r s).out = s.out ++ .dma e.pkt.fn (a + 16) 16 (r % 2 ^ 128) false :: .dma e.pkt.fn a 16 h false :: tail ∧
      a = (ringOf s e.pkt.fn e.pkt.sec).replyBase.toNat + 32 * (e.idx.toNat % 2 ^ (ringOf s e.pkt.fn e.pkt.sec).log2.toNat) ∧
      bits 15 0 h = st % 2 ^ 16 ∧ bits 31 16 h = e.opcode % 2 ^ 16 ∧ bits 47 32 h = e.pkt.seq % 2 ^ 16 ∧ bits 63 48 h = e.pkt.iid % 2 ^ 16 ∧
      bits 95 64 h = e.pkt.cookie % 2 ^ 32 ∧ bits 111 96 h = min 65535 (rneDiv (s.tick - e.start) 800) ∧ bits 127 127 h = (1 - e.idx.toNat / 2 ^ (ringOf s e.pkt.fn e.pkt.sec).log2.toNat % 2) % 2) ∧
    core (writeReply e st r s) = core s)

/-- KEY_DERIVE, KEY_DESTROY, KEY_QUERY, CIPH_DUMMY_RATE, reloads, and what destroying a key leaves. Rests on spec/11_cipher_keys.md R399, spec/11_cipher_keys.md R402, spec/11_cipher_keys.md R403, spec/11_cipher_keys.md R404, spec/11_cipher_keys.md R407, spec/11_cipher_keys.md R408, spec/11_cipher_keys.md R409, spec/11_cipher_keys.md R410. -/
def Obligations.KeysAreDerivedCountedAndDestroyed : Prop :=
  (∀ c s, Runs 0x0601 .P false (fun c s => (c.fn == 0 || c.p 15 1 == portOf c.fn) && s.sec.roots.has (bits 3 2 (c.p 0 1))) c s →
    match keyDeriveCheck c (taken c s) with
    | some (st, d) => exec (.keyDerive c) s = .next (writeReply (execOf c s) st d (taken c s))
    | none => ∃ t i, exec (.keyDerive c) s = repliesOk c s t (fld 63 32 (handleOf s i) +
          fld 95 64 (ofBytes ((kmac ((deriveKey c).keyOf (keyOut s (deriveKey c))) [] 32 "SX7100-KCV").take 4))) ∧ freeKeyIndex s = some i ∧
        (keySlot t i).key = some (deriveKey c) ∧ (∀ j, j ≠ i → keySlot t j = keySlot s j) ∧ i ∈ t.keys.cache ∧
        core { t with keys := s.keys } = core s) ∧
  (∀ c s, Runs 0x0602 .P false always c s →
    exec (.keyDestroy c) s = if c.p 4 44 ≠ 0 then refusesWith c s stBadParam else match liveHandle s (c.p 0 4) with
      | none => refusesWith c s stNotFound
      | some i => if s.ciph.bound.any (fun o => o.key == i) = true then refusesWith c s stBusy else repliesOk c s (destroyKey i (taken c s)) 0) ∧
  (∀ s i h, liveHandle s h = some i → (keySlot (destroyKey i s) i).key = none ∧
    (keySlot (destroyKey i s) i).gen = ((keySlot s i).gen + 1) % 4096 ∧ i ∉ (destroyKey i s).keys.cache ∧ liveHandle (destroyKey i s) h = none ∧
    (∀ j, j ≠ i → keySlot (destroyKey i s) j = keySlot s j)) ∧
  (∀ c s, Runs 0x0603 .P false always c s →
    exec (.keyQuery c) s = if c.p 4 44 ≠ 0 then refusesWith c s stBadParam else match liveHandle s (c.p 0 4) with
      | none => refusesWith c s stNotFound
      | some i => if (slotKey s i).fault = true then refusesWith c s stHwFault else repliesOk c s (taken c s) (keySummary (slotKey s i))) ∧
  (∀ c s, Runs 0x0604 .A true (fun c s => c.p 0 2 ≥ 0x0100 || s.sec.lc != 2 || s.sec.lowrate) c s →
    exec (.ciphDummyRate c) s = if c.p 0 2 ≤ 0x2000 ∧ c.p 2 46 = 0 then
        repliesOk c s { taken c s with ciph := { s.ciph with rate := c.p 0 2 } } (fld 47 32 s.ciph.rate)
      else refusesWith c s stBadParam) ∧
  (∀ s i k, (keySlot s i).key = some k → i ∉ s.keys.cache →
    (∃ t, exec (.keyReload i false) s = .next t ∧ i ∈ t.keys.cache ∧ t.keys.slots = s.keys.slots ∧ t = { s with keys := t.keys, draws := t.draws }) ∧
    (∃ t, exec (.keyReload i true) s = .next t ∧ (keySlot t i).key = some { k with fault := true } ∧ t = { s with keys := t.keys }))

/-- Dispatch, tag results, release in order, and a core that fails its check. Rests on spec/03_arithmetic.md R99, spec/11_cipher_keys.md R389, spec/11_cipher_keys.md R390, spec/11_cipher_keys.md R391, spec/11_cipher_keys.md R396, spec/11_cipher_keys.md R413, spec/12_transport_storage.md R444, spec/16_reliability_selftest_ageing.md R583. -/
def Obligations.TheCipherComplexAdmitsWithinTheLimits : Prop :=
  (∀ s o c k, s.ciph.bound.all (fun q => q.core.isSome) = true → nextOp s s.ciph.queue [] = some o → pickCore s = some c →
    (∀ p, o.req = .packet p → o.open_ = true → replayed (slotKey s o.key) (packetEsn s (pkt s p) o.key) = false) →
    (keySlot s o.key).key = some k → o.key < 2 ^ 20 → k.xts = o.xts → k.fault = false →
    k.icnt + 1 ≤ k.limitI → k.bcnt + o.blocks ≤ k.limitB →
    ∃ t o', exec .cipherDispatch s = .next t ∧ (slotKey t o.key).icnt = k.icnt + 1 ∧ (slotKey t o.key).bcnt = k.bcnt + o.blocks ∧
      (slotKey t o.key).icnt ≤ (slotKey t o.key).limitI ∧ (slotKey t o.key).bcnt ≤ (slotKey t o.key).limitB ∧
      (∀ j, j ≠ o.key → keySlot t j = keySlot s j) ∧ t.ciph.bound = s.ciph.bound ++ [o'] ∧ o'.id = o.id ∧ o'.core = some c ∧
      o'.icnt = k.icnt + 1 ∧ (∀ q ∈ t.ciph.queue, q.id ≠ o.id)) ∧
  (∀ s c, pickCore s = some c → c < 80 ∧ coreUsable s c = true ∧ (coreOps s c).length < 64 ∧
    ∀ d, d < 80 → coreUsable s d = true → (coreOps s d).length < 64 → coreBlocks s c < coreBlocks s d ∨ (coreBlocks s c = coreBlocks s d ∧ c ≤ d)) ∧
  (∀ s o c cause p, s.ciph.bound.all (fun q => q.core.isSome) = true → nextOp s s.ciph.queue [] = some o → pickCore s = some c → o.req = .packet p →
    refusal s o = some cause →
    ∃ t, exec .cipherDispatch s = .next t ∧ t.ciph.bound = s.ciph.bound ∧
      ∀ j, (slotKey t j).icnt = (slotKey s j).icnt ∧ (slotKey t j).bcnt = (slotKey s j).bcnt) ∧
  (∀ s id, ∃ t, exec (.tagResult id) s = .next t ∧ t = { s with ciph := { s.ciph with bound := t.ciph.bound } } ∧
    t.ciph.bound.map (·.id) = s.ciph.bound.map (·.id) ∧
    ∀ o ∈ s.ciph.bound, o.id = id → o.open_ = true → o.xts = false → o.known = false → o.whole (opRecord s o) = true →
      { o with known := true, good := tagGood s o, left := 0 } ∈ t.ciph.bound) ∧
  (∀ s o q, s.ciph.bound.find? (fun x => x.id == o.id) = some o → s.ciph.bound.find? (fun x => x.key == o.key && x.open_ == o.open_) = some q →
    (q.id ≠ o.id ∨ (o.open_ = true ∧ o.xts = false ∧ o.known = false)) → exec (.cipherResultRelease o.id) s = .next s) ∧
  (∀ s o p, s.ciph.bound.find? (fun x => x.id == o.id) = some o → s.ciph.bound.find? (fun x => x.key == o.key && x.open_ == o.open_) = some o →
    o.core.isSome = true → o.open_ = true → o.known = true → o.good = false → o.req = .packet p →
    ∃ t, exec (.cipherResultRelease o.id) s = .next t ∧ t.keys = s.keys ∧ ∀ q ∈ t.ciph.bound, q.id ≠ o.id) ∧
  (∀ s (n : Fin 80), s.kiln.blocks.contains (sliceId 2 n) = false → s.kiln.core = none →
    ∃ t, exec (.cipherCoreCheckError n) s = .next t ∧ coreUsable t n = false ∧ coreOps t n = [] ∧
      t.ciph.bound.map (·.id) = s.ciph.bound.map (·.id) ∧ t = { s with ciph := { s.ciph with bound := t.ciph.bound }, kiln := t.kiln })

/-- A lane going down, its lock, parking, waking and chimes, and the lane status commands. Rests on spec/06_lanes_planes_spray.md R176, spec/06_lanes_planes_spray.md R177, spec/06_lanes_planes_spray.md R200, spec/06_lanes_planes_spray.md R205, spec/06_lanes_planes_spray.md R223, spec/06_lanes_planes_spray.md R224, spec/06_lanes_planes_spray.md R225, spec/06_lanes_planes_spray.md R228. -/
def Obligations.LanesMoveBetweenTheirStates : Prop :=
  (∀ s (n : Fin 1024) cause, setActive s = true → laneListed (activeSet s) n = true → ((lane s n).state = 2 ∨ (lane s n).state = 3) →
    (cause = .fecLockLost → laneFec (activeSet s) n = true) →
    ∃ t, exec (.laneGoesDown n cause) s = .next t ∧ (lane t n).state = 1 ∧ (lane t n).reason = downCode cause ∧ (lane t n).queues = [] ∧
      (lane t n).cur = none ∧ (lane t n).pause = [] ∧ (lane t n).rx = none ∧ (lane t n).brokenAt = s.tick ∧ (lane t n).held = false) ∧
  (∀ s (n : Fin 1024) cause, (setActive s = false ∨ laneListed (activeSet s) n = false ∨ (lane s n).state = 0 ∨ (lane s n).state = 1 ∨
      (lane s n).state = 4 ∨ (lane s n).state = 5) → (cause = .fecLockLost → laneFec (activeSet s) n = true) →
    ∃ t, exec (.laneGoesDown n cause) s = .next t ∧ (lane t n).state = (lane s n).state ∧ (lane t n).held = false ∧
      (lane t n).brokenAt = s.tick ∧ (lane t n).rx = none) ∧
  (∀ s (n : Fin 1024), laneFec (activeSet s) n = false → exec (.laneGoesDown n .fecLockLost) s = .next s) ∧
  (∀ s (n : Fin 1024), ((lane s n).state = 1 ∨ (lane s n).state = 5) → s.pwr.ckLocked = true → s.pwr.released = true → laneLost s n = false →
    (lane s n).brokenAt + 80000 ≤ s.tick → ∃ t, exec (.laneLockHeld n) s = .next t ∧ (lane t n).state = (if setActive s && laneListed (activeSet s) n then 2 else 0) ∧
      (lane t n).blockLock = true ∧ (lane t n).held = true ∧ (lane t n).wakeBy = none ∧ core { t with lanes := s.lanes } = core s) ∧
  (∀ s (n : Fin 1024), (lane s n).state ≠ 4 → s.pwr.ckLocked = true → s.pwr.released = true → laneLost s n = false →
    s.tick < (lane s n).brokenAt + 80000 →
    exec (.laneLockHeld n) s = .next (setLane n (fun l => { l with blockLock := true, hiBer := false }) s)) ∧
  (∀ s (n : Fin 1024), ((lane s n).state = 4 ∨ s.pwr.ckLocked = false ∨ s.pwr.released = false ∨ laneLost s n = true) →
    exec (.laneLockHeld n) s = .next s) ∧
  (∀ s (n : Fin 1024), (lane s n).state ≠ 4 → exec (.chimeHeard n) s = .next s) ∧
  (∀ s (n : Fin 1024) d, (lane s n).wakeBy = some d → s.tick < d → exec (.laneWakeTimeout n) s = .next s) ∧
  (∀ s (n : Fin 1024), (lane s n).state = 4 →
    ∃ t, exec (.chimeHeard n) s = .next t ∧ (lane t n).chime = true ∧ (lane t n).state = 4 ∧ core { t with lanes := s.lanes } = core s) ∧
  (∀ s (n : Fin 1024) d, (lane s n).wakeBy = some d → d ≤ s.tick →
    ∃ t, exec (.laneWakeTimeout n) s = .next t ∧ (lane t n).state = 1 ∧ (lane t n).reason = 7 ∧ (lane t n).wakeBy = none ∧
      core { t with lanes := s.lanes } = core s) ∧
  (∀ c s, Runs 0x0702 .A false always c s → c.p 0 2 < 1024 →
    ((lane s (c.p 0 2)).state = 4 ∨ (lane s (c.p 0 2)).state = 5 → exec (.lanePark c) s = refusesWith c s stBadState) ∧
    ((lane s (c.p 0 2)).state = 3 → (∀ e ∈ substs (activeSet s) (c.p 0 2), laneActive s e.2 = false) →
      exec (.lanePark c) s = .next (writeReply (execOf c s) stBadState 0x0705 (taken c s))) ∧
    (((lane s (c.p 0 2)).state < 3 ∨ ((lane s (c.p 0 2)).state = 3 ∧ ∃ e ∈ substs (activeSet s) (c.p 0 2), laneActive s e.2 = true)) →
      ∃ t, exec (.lanePark c) s = repliesOk c s t 0 ∧ (lane t (c.p 0 2)).state = 4 ∧ (lane t (c.p 0 2)).reason = 6 ∧
        (lane t (c.p 0 2)).queues = [] ∧ (lane t (c.p 0 2)).pause = [] ∧ (lane t (c.p 0 2)).rx = none ∧
        (lane t (c.p 0 2)).chime = (lane s (c.p 0 2)).chime)) ∧
  (∀ c s, Runs 0x0702 .A false always c s → 1024 ≤ c.p 0 2 → exec (.lanePark c) s = refusesWith c s stBadParam) ∧
  (∀ c s, Runs 0x0703 .A false always c s →
    exec (.laneWake c) s = if 1024 ≤ c.p 0 2 then refusesWith c s stBadParam else if (lane s (c.p 0 2)).state = 4 then
        repliesOk c s (emit (.laneSignal (c.p 0 2) true)
          (setLane (c.p 0 2) (fun l => { l with state := 5, wakeBy := some (s.tick + 8000000), brokenAt := s.tick }) (taken c s))) 0
      else refusesWith c s stBadState) ∧
  (∀ c s, Runs 0x0704 .A false always c s →
    exec (.substStatus c) s = if 1024 ≤ c.p 0 2 then refusesWith c s stBadParam else repliesOk c s (taken c s)
      (fld 31 29 (lane s (c.p 0 2)).state + fld 28 26 ((substNow s (c.p 0 2)).getD (0, 0)).1 + fld 25 16 ((substNow s (c.p 0 2)).getD (0, 0)).2 +
        fld 15 13 (if setActive s then ((substs (activeSet s) (c.p 0 2)).filter fun e => laneActive s e.2).length else 0))) ∧
  (∀ c s, Runs 0x0701 .A false always c s →
    if c.indirect = true ∧ 1 ≤ c.p 14 2 ∧ c.p 14 2 ≤ 64 ∧ c.p 12 2 + c.p 14 2 ≤ 1024 ∧ 16 * c.p 14 2 ≤ c.p 8 4 then
      ∃ t, exec (.laneStatus c) s = repliesOk c s t (fld 63 32 (c.p 14 2)) ∧ core t = core s ∧
        t.out = s.out ++ (List.range (c.p 14 2)).map fun i => .dma c.fn (c.p 0 8 + 16 * i) 16
          (fld 127 96 (laneSts s (c.p 12 2 + i)) + fld 95 64 (cntGet s .laneFecCorr (c.p 12 2 + i)) +
            fld 63 32 (cntGet s .laneFecUncorr (c.p 12 2 + i)) + fld 31 0 (cntGet s .laneRxBad (c.p 12 2 + i))) false
    else exec (.laneStatus c) s = refusesWith c s stBadParam)

/-- A frame received whole, the lane's choice of the next frame, a frame sent to its end, and launch times. Rests on spec/06_lanes_planes_spray.md R174, spec/06_lanes_planes_spray.md R175, spec/06_lanes_planes_spray.md R185, spec/06_lanes_planes_spray.md R221, spec/10_time_and_gates.md R367, spec/10_time_and_gates.md R368, spec/05_sets_and_firing.md R141. -/
def Obligations.FramesArriveAndLeaveOnLanes : Prop :=
  (∀ s (n : Fin 1024) bs bad (ui : Fin 33) corr uncorr, (((lane s n).state = 0 ∧ setActive s = false) ∨ (lane s n).state = 2 ∨ (lane s n).state = 3) → (lane s n).rx = none →
    s.pwr.ckLocked = true → s.pwr.released = true → laneLost s n = false → (fiOf s n).armed = false → (fiOf s n).fate = .none →
    (lane s n).ctl = [] → isPause bs = false → (isPfc bs = true → pfcLane s n = false) →
    ∃ t, exec (.laneFrameReceived n bs false bad ui corr uncorr) s = .next t ∧
      if 60 ≤ bs.length ∧ bs.length ≤ 9212 ∧ bad = false ∧ setActive s = true then
        t.nextPkt = s.nextPkt + 1 ∧ t.pkts = s.pkts.put s.nextPkt
          { srcId := n.val, bytes := bs, raw := bs, stamp := laneStamp s n ui true, pipe := n.val / 64 } ∧
        cntGet t .laneRxFrames n = (cntGet s .laneRxFrames n + 1) % 2 ^ 48
      else t.nextPkt = s.nextPkt ∧ t.pkts = s.pkts ∧
        (bs.length < 60 ∨ 9212 < bs.length → cntGet t .laneRxSize n = min (2 ^ 32 - 1) (cntGet s .laneRxSize n + 1)) ∧
        (60 ≤ bs.length → bs.length ≤ 9212 → bad = true → cntGet t .laneRxBad n = min (2 ^ 32 - 1) (cntGet s .laneRxBad n + 1))) ∧
  (∀ s (n : Fin 1024) bs bad (ui : Fin 33) corr uncorr, laneHears s n = true → ((lane s n).state = 0 → setActive s = false) → (lane s n).rx = none →
    (fiOf s n).armed = false → (fiOf s n).fate = .none → (lane s n).ctl = [] → (isPause bs = true ∨ (isPfc bs = true ∧ pfcLane s n = true)) →
    exec (.laneFrameReceived n bs false bad ui corr uncorr) s =
      .next (takeControl n bs bad (setLane n (fun l => { l with ctl := [] }) (countN .laneFecUncorr n uncorr (countN .laneFecCorr n corr s))))) ∧
  (∀ s (n : Fin 1024) bs more bad (ui : Fin 33) corr uncorr,
    (laneHears s n = false ∨ ((lane s n).state = 0 ∧ setActive s = true ∧ (lane s n).rx = none ∧ (lane s n).ctl = [] ∧ (fiOf s n).fate = .none)) →
    exec (.laneFrameReceived n bs more bad ui corr uncorr) s = .next s) ∧
  (∀ s (n : Fin 1024) ui ts, setActive s = true → (lane s n).cur = none → ((lane s n).state = 2 ∨ (lane s n).state = 3) → s.pwr.ckLocked = true →
    s.pwr.released = true → (lane s n).pfc = some ts →
    ∃ t, exec (.laneFrameBegin n ui) s = .next t ∧ t.out = s.out ++ [.pfc n (pfcFrame n ts)] ∧ (lane t n).pfc = none ∧ (lane t n).cur = none) ∧
  (∀ s (n : Fin 1024) ui c p, setActive s = true → (lane s n).cur = none → ((lane s n).state = 2 ∨ (lane s n).state = 3) → s.pwr.ckLocked = true →
    s.pwr.released = true → (lane s n).pfc = none →
    nextFrame (judgeHeads n s) n = some (c, p) →
    ∃ t, exec (.laneFrameBegin n ui) s = .next t ∧ (lane t n).cur = some p ∧
      ((∀ k q, q ∈ (lane s n).queues.get k → (pkt s q).tx.bind (·.launch) = none) →
        (lane t n).queues.get c = ((lane s n).queues.get c).drop 1 ∧ (hasPkt s p = true → (pkt t p).place = .onLane n))) ∧
  (∀ s n c p, nextFrame s n = some (c, p) → c < 8 ∧ ((lane s n).queues.get c).head? = some p ∧ mayBegin s n c p = true ∧
    ∀ d q, c < d → d < 8 → ((lane s n).queues.get d).head? = some q → mayBegin s n d q = false) ∧
  (∀ s n c p, mayBegin s n c p = true → paused s n c = false) ∧
  (∀ s (n : Fin 1024) ui, setActive s = true → (lane s n).cur = none → ((lane s n).state = 2 ∨ (lane s n).state = 3) → s.pwr.ckLocked = true →
    s.pwr.released = true → (lane s n).pfc = none → nextFrame (judgeHeads n s) n = none →
    exec (.laneFrameBegin n ui) s = .next (judgeHeads n s)) ∧
  (∀ s (n : Fin 1024) ui, (setActive s = false ∨ (lane s n).cur ≠ none ∨ ((lane s n).state ≠ 2 ∧ (lane s n).state ≠ 3) ∨ s.pwr.ckLocked = false ∨
    s.pwr.released = false) → exec (.laneFrameBegin n ui) s = .next s) ∧
  (∀ s (n : Fin 1024), ((lane s n).cur = none ∨ ∃ p, (lane s n).cur = some p ∧ (pkt s p).arriving = true) → exec (.laneFrameEnd n) s = .next s) ∧
  (∀ s (n : Fin 1024) p, (lane s n).cur = some p → (pkt s p).arriving = false → (fiOf s n).txFate = .none →
    ∃ t, exec (.laneFrameEnd n) s = .next t ∧ (lane t n).cur = none ∧ t.pkts = s.pkts.del p ∧
      t.out = s.out ++ [.laneFrame n (((pkt s p).bytes ++ List.replicate (60 - (pkt s p).bytes.length) 0) ++
        bytesOf 4 (fcs32 ((pkt s p).bytes ++ List.replicate (60 - (pkt s p).bytes.length) 0)))] ∧
      cntGet t .laneTxFrames n = (cntGet s .laneTxFrames n + 1) % 2 ^ 48) ∧
  (∀ s n k j p d, ((lane s n).queues.get k).head? = some p → (pkt s p).tx.bind (·.launch) = some d → (pkt s p).judged = false → launchOn s n = true →
    ((1000000000 * 2 ^ 32 : Int) < DevTime.diff d s.time.now → judgeHead n k (j + 1) s =
      judgeHead n k j (dropPkt p (count .laneLaunchBad n (setLane n (fun l => { l with queues := l.queues.upd k (·.drop 1) }) s)))) ∧
    (DevTime.diff d s.time.now ≤ (1000000000 * 2 ^ 32 : Int) → s.time.now.reached d = false →
      p ∈ (judgeHead n k (j + 1) s).launchHeld ∧ judgeHead n k (j + 1) s =
        { setPkt p (fun x => { x with judged := true }) s with launchHeld := (judgeHead n k (j + 1) s).launchHeld }) ∧
    (DevTime.diff d s.time.now ≤ (1000000000 * 2 ^ 32 : Int) → s.time.now.reached d = true →
      judgeHead n k (j + 1) s = count .laneLaunchLate n (setPkt p (fun x => { x with judged := true }) s))) ∧
  (∀ s (n : Fin 1024) (k : Fin 8), exec (.launchTimeReached n k) s = .next
    (match ((lane (judgeHeads n s) n).queues.get k).head? with
      | none => judgeHeads n s
      | some p => match (pkt (judgeHeads n s) p).tx.bind (·.launch) with
        | none => judgeHeads n s
        | some d => if (judgeHeads n s).time.now.reached d = true then
            { judgeHeads n s with launchHeld := (judgeHeads n s).launchHeld.filter (· ≠ p) } else judgeHeads n s))

/-- Priority-flow-control frames received, their expiry, the repeat of XOFF, and PAUSE frames. Rests on spec/06_lanes_planes_spray.md R174, spec/06_lanes_planes_spray.md R219, spec/06_lanes_planes_spray.md R220, spec/06_lanes_planes_spray.md R221. -/
def Obligations.PausesHoldTheirClasses : Prop :=
  (∀ s (n : Fin 1024) (v : BitVec 8) ts, laneHears s n = true → pfcLane s n = true →
    ((∃ p, p < 8 ∧ v.getLsbD p = true ∧ pfcEn (activeSet s) n p = true) → ∃ t, exec (.pfcFrameReceived n v ts) s = .next t ∧
      cntGet t .lanePfcRx n = (cntGet s .lanePfcRx n + 1) % 2 ^ 32 ∧ cntGet t .laneRxFrames n = (cntGet s .laneRxFrames n + 1) % 2 ^ 48 ∧
      ∀ p, p < 8 →
        (v.getLsbD p = true ∧ pfcEn (activeSet s) n p = true → ts.getD p 0 ≠ 0 → (lane t n).pause.get p = pauseEnd s (ts.getD p 0 % 65536)) ∧
        (v.getLsbD p = true ∧ pfcEn (activeSet s) n p = true → ts.getD p 0 = 0 → (lane t n).pause.has p = false) ∧
        (v.getLsbD p = false ∨ pfcEn (activeSet s) n p = false → (lane t n).pause.get p = (lane s n).pause.get p)) ∧
    ((∀ p, p < 8 → v.getLsbD p = true → pfcEn (activeSet s) n p = false) →
      exec (.pfcFrameReceived n v ts) s = .next (count .lanePauseDrop n (count .lanePfcRx n (count .laneRxFrames n s))))) ∧
  (∀ s (n : Fin 1024) v ts, (laneHears s n = false ∨ pfcLane s n = false) → exec (.pfcFrameReceived n v ts) s = .next s) ∧
  (∀ s (n : Fin 1024) (c : Fin 8), ∃ t, exec (.pfcPauseExpiry n c) s = .next t ∧ t = { s with lanes := t.lanes } ∧
    ∀ e, e ∈ (lane t n).pause ↔ e ∈ (lane s n).pause ∧ ¬ (pcpMap (activeSet s) n e.1 = c.val ∧ e.2 ≤ s.tick)) ∧
  (∀ s (p : Fin 1024) (c : Fin 8), s.tm.xoff.has (8 * p.val + c.val) = true →
    (s.tm.xoff.get (8 * p.val + c.val) ≤ s.tick → ∃ t, exec (.pfcXoffRepeat p c) s = .next t ∧
      t.tm.xoff.get (8 * p.val + c.val) = s.tick + 536871 ∧ t = { s with tm := t.tm, lanes := t.lanes }) ∧
    (s.tick < s.tm.xoff.get (8 * p.val + c.val) → exec (.pfcXoffRepeat p c) s = .next s)) ∧
  (∀ s (n : Fin 1024), exec (.pauseFrameReceived n) s =
    if laneHears s n = true ∧ ((lane s n).state = 0 → setActive s = false) then .next (count .lanePauseDrop n (count .laneRxFrames n s)) else .next s) ∧
  (∀ c i k s d j, (d ≠ c ∨ j ≠ i) → cntGet (countN c i k s) d j = cntGet s d j) ∧
  (∀ c i k s, cntGet (countN c i k s) c i = if c.shape.2 then satAdd c.shape.1 (cntGet s c i) k else wrapAdd c.shape.1 (cntGet s c i) k)

/-- Spraying, the cut-through threshold, and the reorder contexts with their timers and statistics. Rests on spec/06_lanes_planes_spray.md R196, spec/06_lanes_planes_spray.md R207, spec/06_lanes_planes_spray.md R208, spec/06_lanes_planes_spray.md R210, spec/06_lanes_planes_spray.md R211, spec/06_lanes_planes_spray.md R214, spec/06_lanes_planes_spray.md R217. -/
def Obligations.SprayingAndReorderKeepTheirOrder : Prop :=
  (∀ s p, hasPkt s p = true → (pkt s p).place = .spray → (pkt s p).arriving = true → (pkt s p).transit = true →
    match sprayTries (bits 11 0 (md (pkt s p) 15)) (match (pkt s p).sfh0 with | some h => bits 66 64 h | none => 0) (pkt s p).epoch
        (pathLen (setFor s (pkt s p).epoch) (bits 11 0 (md (pkt s p) 15))) s with
    | (none, u) => exec (.spray p) s = .next (setPkt p (fun x => { x with place := .frameEnd, verdict := .psDrop (bits 11 0 (md (pkt s p) 15)) }) u)
    | (some m, _) => ∃ t, exec (.spray p) s = .next t ∧ (pkt t p).place = .threshold m ∧ (pkt t p).sprayed = true ∧ (pkt t p).bytes = (pkt s p).bytes) ∧
  (∀ s p, hasPkt s p = true → (pkt s p).place = .spray → (pkt s p).arriving = false →
    match sprayTries (bits 11 0 (md (pkt s p) 15)) (txClass (pkt s p)) (pkt s p).epoch (pathLen (setFor s (pkt s p).epoch) (bits 11 0 (md (pkt s p) 15))) s with
    | (none, u) => exec (.spray p) s = .next (dropPkt p (count .lanePsDrop (bits 11 0 (md (pkt s p) 15)) u))
    | (some m, u) => if (pkt s p).transit = true then exec (.spray p) s = .next (storeToLane p m (setPkt p (fun x => { x with sprayed := true }) u))
      else ∃ v, exec (.spray p) s = .next (storeToLane p m v) ∧ (pkt v p).sprayed = true ∧
        (pkt v p).bytes = withSfh (pkt s p).bytes (setFld 95 72 (u.seqs.get (bits 11 0 (md (pkt s p) 15))) (sfh (pkt s p).bytes)) ∧
        v.seqs = u.seqs.put (bits 11 0 (md (pkt s p) 15)) ((u.seqs.get (bits 11 0 (md (pkt s p) 15)) + 1) % 2 ^ 24)) ∧
  (∀ s p n, hasPkt s p = true → (pkt s p).place = .threshold n → (pkt s p).arriving = true → (laneActive s n = false ∨ laneCt (activeSet s) n = false) →
    exec (.cutThroughThreshold p) s = .next (setPkt p (fun x => { x with place := .store n }) s)) ∧
  (∀ s p n, hasPkt s p = true → (pkt s p).place = .threshold n → (pkt s p).arriving = false → (laneActive s n = false ∨ laneCt (activeSet s) n = false) →
    exec (.cutThroughThreshold p) s = .next (storeToLane p n s)) ∧
  (∀ s key d, (ctxOf s key).deadline = some d → s.tick < d → exec (.reorderTimeout key) s = .next (postGap key s)) ∧
  (∀ s p h, hasPkt s p = true → (pkt s p).place = .reorder → (pkt s p).sfh0 = some h →
    ctxFind (activeSet s) (bits 116 108 h * 4096 + bits 107 96 h) = none →
    exec (.reorderArrival p) s = .next (carryOut p (count .laneRoNoctx 0 (setPkt p (fun x => { x with ordered := true }) s)))) ∧
  (∀ s p h e, hasPkt s p = true → (pkt s p).place = .reorder → (pkt s p).sfh0 = some h → (pkt s p).charge.ip = none →
    ctxFind (activeSet s) (bits 116 108 h * 4096 + bits 107 96 h) = some e → bits 106 102 e ≤ 22 →
    (ctxOf s (bits 116 108 h * 4096 + bits 107 96 h)).started = true → (ctxOf s (bits 116 108 h * 4096 + bits 107 96 h)).held = [] →
    (ctxOf s (bits 116 108 h * 4096 + bits 107 96 h)).deadline = none →
    0 < (bits 95 72 h + 2 ^ 24 - (ctxOf s (bits 116 108 h * 4096 + bits 107 96 h)).expected) % 2 ^ 24 →
    (bits 95 72 h + 2 ^ 24 - (ctxOf s (bits 116 108 h * 4096 + bits 107 96 h)).expected) % 2 ^ 24 < 2 ^ bits 106 102 e →
    (ctxOf s (bits 116 108 h * 4096 + bits 107 96 h)).expected < 2 ^ 24 →
    (pkt s p).bytes.length + 4 ≤ bits 84 69 e * 1024 →
    ∃ t, exec (.reorderArrival p) s = .next t ∧ (pkt t p).place = .context (bits 116 108 h * 4096 + bits 107 96 h) ∧
      (ctxOf t (bits 116 108 h * 4096 + bits 107 96 h)).held = [(bits 95 72 h, p)] ∧
      (ctxOf t (bits 116 108 h * 4096 + bits 107 96 h)).expected = (ctxOf s (bits 116 108 h * 4096 + bits 107 96 h)).expected ∧
      (ctxOf t (bits 116 108 h * 4096 + bits 107 96 h)).deadline = some (s.tick + 32 * bits 101 86 e)) ∧
  (∀ s key d, (ctxOf s key).deadline = some d → d ≤ s.tick → (ctxOf s key).held = [] →
    ∃ t, exec (.reorderTimeout key) s = .next t ∧ (ctxOf t key).held = [] ∧ (ctxOf t key).deadline = none ∧
      (ctxOf t key).timeouts = min (2 ^ 32 - 1) ((ctxOf s key).timeouts + 1) ∧ (ctxOf t key).expected = (ctxOf s key).expected ∧
      core { t with ctxs := s.ctxs } = core s) ∧
  (∀ s key, (flushCtx key s).ctxs = (setCtx key (fun c => if c.held.isEmpty then { c with deadline := none } else
      { c with expected := (highestHeld c + 1) % 2 ^ 24, held := [], deadline := none,
               gaps := if missing c = 0 then c.gaps else satAdd 32 c.gaps (missing c), gapNew := c.gapNew + missing c }) s).ctxs) ∧
  (∀ s key, (ctxOf s key).started = true → (ctxOf s key).held = [] → (ctxOf s key).lastAt + 800000000 ≤ s.tick →
    exec (.reorderIdleExpiry key) s = .next (setCtx key (fun c => { c with started := false }) s)) ∧
  (∀ c s, Runs 0x0705 .A false always c s →
    if 512 ≤ c.p 0 2 ∨ 4096 ≤ c.p 2 2 then exec (.reorderStats c) s = refusesWith c s stBadParam
    else if setActive s = true ∧ (ctxFind (activeSet s) (c.p 0 2 * 4096 + c.p 2 2)).isSome = true then
      ∃ t, exec (.reorderStats c) s = repliesOk c s t (fld 127 96 (ctxOf s (c.p 0 2 * 4096 + c.p 2 2)).gaps +
          fld 95 64 (ctxOf s (c.p 0 2 * 4096 + c.p 2 2)).late + fld 63 32 (ctxOf s (c.p 0 2 * 4096 + c.p 2 2)).timeouts +
          fld 31 16 (ctxOf s (c.p 0 2 * 4096 + c.p 2 2)).dups + fld 15 8 (ctxOf s (c.p 0 2 * 4096 + c.p 2 2)).flushes +
          fld 7 0 (ctxOf s (c.p 0 2 * 4096 + c.p 2 2)).jumps) ∧ t.ctxs = s.ctxs.put (c.p 0 2 * 4096 + c.p 2 2)
          { ctxOf s (c.p 0 2 * 4096 + c.p 2 2) with gaps := 0, late := 0, timeouts := 0, dups := 0, flushes := 0, jumps := 0 } ∧
        core { t with ctxs := s.ctxs } = core s
    else exec (.reorderStats c) s = refusesWith c s stNotFound)

/-- NOP, SET, COPY, DATA, ADD, AND, OR, XOR and SETIF change the field they name and no other bit. Rests on spec/08_tables_actions.md R285, spec/08_tables_actions.md R286. -/
def Obligations.ArithmeticInstructionsSetTheirField : Prop :=
  (∀ s p w, headWork s p 0x00 = some w → ∃ u, exec (.nop p) s = .next (goOn p u) ∧ tookInstr p s u ∧ (pkt u p).conts = (pkt s p).conts) ∧
  (∀ s p w, headWork s p 0x01 = some w → ∃ u, exec (.set p) s = .next (goOn p u) ∧ setsField p w (wImm w.word) s u) ∧
  (∀ s p w, headWork s p 0x02 = some w → ∃ u, exec (.copy p) s = .next (goOn p u) ∧
    setsField p w ((pkt s p).conts.get (wSrc w.word) / 2 ^ (wImm w.word % 32)) s u) ∧
  (∀ s p w, headWork s p 0x03 = some w → ∃ u, exec (.data p) s = .next (goOn p u) ∧
    setsField p w (dataBits w.data (wImm w.word % 1024) (wWidth w.word)) s u) ∧
  (∀ s p w, headWork s p 0x04 = some w → ∃ u, exec (.add p) s = .next (goOn p u) ∧
    setsField p w (ofSigned 32 (fieldOf w.word (wDst w.word) (pkt s p) + toSigned 32 (wImm w.word))) s u) ∧
  (∀ s p w, headWork s p 0x05 = some w → ∃ u, exec (.and p) s = .next (goOn p u) ∧
    setsField p w (fieldOf w.word (wDst w.word) (pkt s p) &&& wImm w.word) s u) ∧
  (∀ s p w, headWork s p 0x06 = some w → ∃ u, exec (.or p) s = .next (goOn p u) ∧
    setsField p w (fieldOf w.word (wDst w.word) (pkt s p) ||| wImm w.word) s u) ∧
  (∀ s p w, headWork s p 0x07 = some w → ∃ u, exec (.xor p) s = .next (goOn p u) ∧
    setsField p w (fieldOf w.word (wDst w.word) (pkt s p) ^^^ wImm w.word) s u) ∧
  (∀ s p w, headWork s p 0x08 = some w → ∃ u, exec (.setif p) s = .next (goOn p u) ∧
    if ((pkt s p).conts.get (wSrc w.word)).testBit (bits 31 27 (wImm w.word)) then setsField p w (bits 26 0 (wImm w.word)) s u
    else tookInstr p s u ∧ (pkt u p).conts = (pkt s p).conts)

/-- The counting, metering, header and disposition instructions, and those without effect. Rests on spec/08_tables_actions.md R286, spec/08_tables_actions.md R287, spec/08_tables_actions.md R297, spec/08_tables_actions.md R265, spec/09_traffic_management.md R326. -/
def Obligations.PacketInstructionsChangeHeadersAndCounts : Prop :=
  (∀ s p w d, headWork s p 0x09 = some w → tableOf (setFor s (pkt s p).epoch) (pkt s p).pipe (wImm w.word % 256) = some d → (pkt s p).arriving = false →
    ∃ u, exec (.count p) s = .next (goOn p u) ∧
      if wImm w.word / 256 + fieldOf w.word (wSrc w.word) (pkt s p) < tEntries d then
        (entryWords d (wImm w.word / 256 + fieldOf w.word (wSrc w.word) (pkt s p)) (rowBad (setFor s (pkt s p).epoch) (pkt s p).pipe d
            ((wImm w.word / 256 + fieldOf w.word (wSrc w.word) (pkt s p)) / tPerRow d)) = 0 → (setFor u (pkt s p).epoch).counters = (setFor s (pkt s p).epoch).counters.upd
          (tKey (pkt s p).pipe (wImm w.word % 256) (wImm w.word / 256 + fieldOf w.word (wSrc w.word) (pkt s p))) (fun c => c.count (pkt s p).raw.length)) ∧
        cntGet u .actionFault (pkt s p).pipe = cntGet s .actionFault (pkt s p).pipe
      else u.sets = s.sets ∧ cntGet u .actionFault (pkt s p).pipe = min (2 ^ 32 - 1) (cntGet s .actionFault (pkt s p).pipe + 1)) ∧
  (∀ s p w d, headWork s p 0x09 = some w → tableOf (setFor s (pkt s p).epoch) (pkt s p).pipe (wImm w.word % 256) = some d → (pkt s p).arriving = true →
    wImm w.word / 256 + fieldOf w.word (wSrc w.word) (pkt s p) < tEntries d →
    entryWords d (wImm w.word / 256 + fieldOf w.word (wSrc w.word) (pkt s p)) (rowBad (setFor s (pkt s p).epoch) (pkt s p).pipe d
      ((wImm w.word / 256 + fieldOf w.word (wSrc w.word) (pkt s p)) / tPerRow d)) = 0 →
    ∃ u, exec (.count p) s = .next (goOn p u) ∧ tookInstr p s u ∧ (pkt u p).effects = (pkt s p).effects ++
      [.count (pkt s p).epoch (pkt s p).pipe (wImm w.word % 256) (wImm w.word / 256 + fieldOf w.word (wSrc w.word) (pkt s p)) (pkt s p).raw.length]) ∧
  (∀ s p w, headWork s p 0x09 = some w → tableOf (setFor s (pkt s p).epoch) (pkt s p).pipe (wImm w.word % 256) = none → (pkt s p).arriving = false →
    ∃ u, exec (.count p) s = .next (goOn p u) ∧ u.sets = s.sets ∧
      cntGet u .actionFault (pkt s p).pipe = min (2 ^ 32 - 1) (cntGet s .actionFault (pkt s p).pipe + 1)) ∧
  (∀ s p w, headWork s p 0x0A = some w → (pkt s p).arriving = false →
    (262144 ≤ wImm w.word + fieldOf w.word (wSrc w.word) (pkt s p) ∨ policerOk s (wImm w.word + fieldOf w.word (wSrc w.word) (pkt s p)) = false) →
    ∃ u, exec (.meter p) s = .next (goOn p u) ∧ u.tm = s.tm ∧
      cntGet u .actionFault (pkt s p).pipe = min (2 ^ 32 - 1) (cntGet s .actionFault (pkt s p).pipe + 1)) ∧
  (∀ s p w a, ((a = 0x12 ∧ headWork s p 0x12 = some w) ∨ (a = 0x13 ∧ headWork s p 0x13 = some w) ∨ (a = 0x14 ∧ headWork s p 0x14 = some w) ∨
      (a = 0x15 ∧ headWork s p 0x15 = some w)) → instValid (pkt s p) (wImm w.word % 64) = false → (pkt s p).arriving = false →
    ∃ u, exec (if a = 0x12 then .decap p else if a = 0x13 then .write p else if a = 0x14 then .mplsPush p else .l4adj p) s = .next (goOn p u) ∧
      (pkt u p).bytes = (pkt s p).bytes ∧ (pkt u p).insts = (pkt s p).insts ∧ (pkt u p).inserts = (pkt s p).inserts ∧
      (pkt u p).popped = (pkt s p).popped ∧ cntGet u .actionFault (pkt s p).pipe = min (2 ^ 32 - 1) (cntGet s .actionFault (pkt s p).pipe + 1)) ∧
  (∀ s p w, headWork s p 0x0A = some w → wImm w.word + fieldOf w.word (wSrc w.word) (pkt s p) < 262144 →
    policerOk s (wImm w.word + fieldOf w.word (wSrc w.word) (pkt s p)) = true → ((pkt s p).arriving = true → (pkt s p).untested = true) →
    ∃ u, exec (.meter p) s = .next (goOn p u) ∧
      u.tm = (chargePolicer (wImm w.word + fieldOf w.word (wSrc w.word) (pkt s p)) (pkt s p).raw.length (bits 1 0 (md (pkt s p) 19)) s).2.tm ∧
      bits 1 0 (md (pkt u p) 19) =
        (chargePolicer (wImm w.word + fieldOf w.word (wSrc w.word) (pkt s p)) (pkt s p).raw.length (bits 1 0 (md (pkt s p) 19)) s).1) ∧
  (∀ s p, (pkt s p).arriving = true → (pkt s p).untested = false → exec (.meter p) s = .next s) ∧
  (∀ s p w, headWork s p 0x10 = some w → ∃ u, exec (.inval p) s = .next (goOn p u) ∧ tookInstr p s u ∧ instValid (pkt u p) (wImm w.word % 64) = false ∧
    ∀ i, i ≠ wImm w.word % 64 → instValid (pkt u p) i = instValid (pkt s p) i) ∧
  (∀ s p w, headWork s p 0x11 = some w → (pkt s p).arriving = false →
    ∃ u, exec (.encap p) s = .next (goOn p u) ∧ (pkt u p).bytes = (pkt s p).bytes ∧ (pkt u p).insts = (pkt s p).insts ∧
      if wImm w.word / 256 % 256 = 0xFF ∨ instValid (pkt s p) (wImm w.word / 256 % 256) = true then
        tookInstr p s u ∧ (pkt u p).inserts = (pkt s p).inserts ++
          [templateInsert (ap (setFor s (pkt s p).epoch) (pkt s p).pipe) (wImm w.word % 256) (wImm w.word / 256 % 256) (pkt s p)]
      else (pkt u p).inserts = (pkt s p).inserts ∧ cntGet u .actionFault (pkt s p).pipe = min (2 ^ 32 - 1) (cntGet s .actionFault (pkt s p).pipe + 1)) ∧
  (∀ s p w, headWork s p 0x12 = some w → instValid (pkt s p) (wImm w.word % 64) = true →
    ∃ u, exec (.decap p) s = .next (goOn p u) ∧ tookInstr p s u ∧
      (pkt u p).cut = max (pkt s p).cut ((pkt s p).insts.get (wImm w.word % 64)).1 ∧
      (∀ i ∈ (pkt u p).inserts, i.anchor ≠ 0xFF ∧ ((pkt s p).insts.get (wImm w.word % 64)).1 < ((pkt s p).insts.get i.anchor).1) ∧
      ∀ e ∈ (pkt s p).insts, e.1 ≠ wImm w.word % 64 → e.2.1 + e.2.2 ≤ ((pkt s p).insts.get (wImm w.word % 64)).1 → instValid (pkt u p) e.1 = false) ∧
  (∀ s p w, headWork s p 0x13 = some w → instValid (pkt s p) (wImm w.word % 64) = true →
    bits 17 6 (wImm w.word) + wWidth w.word ≤ 8 * ((pkt s p).insts.get (wImm w.word % 64)).2 →
    ∃ u, exec (.write p) s = .next (goOn p u) ∧ (pkt u p).conts = (pkt s p).conts ∧
      (pkt u p).bytes = writeField (pkt s p).bytes ((pkt s p).insts.get (wImm w.word % 64)).1 (bits 17 6 (wImm w.word)) (wWidth w.word)
        (fieldOf w.word (wSrc w.word) (pkt s p)) ∧ u = { s with pkts := u.pkts }) ∧
  (∀ bs off b w v, 1 ≤ w → w ≤ 32 → 8 * off + b + w ≤ 8 * bs.length → (writeField bs off b w v).length = bs.length ∧
    hdrField (writeField bs off b w v) off b w = v % 2 ^ w) ∧
  (∀ s p w, headWork s p 0x14 = some w → instValid (pkt s p) (wImm w.word % 64) = true →
    ∃ u, exec (.mplsPush p) s = .next (goOn p u) ∧ tookInstr p s u ∧ (pkt u p).inserts = (pkt s p).inserts ++
      [{ anchor := wImm w.word % 64, bytes := bytesBE 4 ((pkt s p).conts.get (wSrc w.word)) }]) ∧
  (∀ s p w, headWork s p 0x15 = some w → instValid (pkt s p) (wImm w.word % 64) = true →
    bits 17 6 (wImm w.word) + 16 ≤ 8 * ((pkt s p).insts.get (wImm w.word % 64)).2 →
    ∃ u, exec (.l4adj p) s = .next (goOn p u) ∧ (pkt u p).conts = (pkt s p).conts ∧
      (pkt u p).bytes = writeField (pkt s p).bytes ((pkt s p).insts.get (wImm w.word % 64)).1 (bits 17 6 (wImm w.word)) 16
        (rfc1624 (hdrField (pkt s p).bytes ((pkt s p).insts.get (wImm w.word % 64)).1 (bits 17 6 (wImm w.word)) 16)
          ((pkt s p).conts.get (wSrc w.word)) ((pkt s p).conts.get (wDst w.word)))) ∧
  (∀ s p w, headWork s p 0x18 = some w → (pkt s p).arriving = false →
    ∃ u, exec (.learn p) s = .next (goOn p u) ∧ ∃ r, u.reports = s.reports ++ [r] ∧ r.table = wImm w.word % 256 ∧ r.pipe = (pkt s p).pipe ∧
      r.key = (pkt s p).conts.get (wSrc w.word) * 2 ^ 32 + (pkt s p).conts.get (wSrc w.word + 1) ∧ r.home < 16 ∧
      r.port = bits 15 0 (md (pkt s p) 17) ∧ r.time = s.time.now) ∧
  (∀ s p w, headWork s p 0x19 = some w → ∃ u, exec (.fragrec p) s = .next (goOn p u) ∧ tookInstr p s u ∧
    (pkt u p).fragRec = (List.range 8).map fun i => (pkt s p).conts.get (wSrc w.word + i)) ∧
  (∀ s p w, headWork s p 0x1A = some w → ∃ u, exec (.recirc p) s = .next (goOn p u) ∧ tookInstr p s u ∧ disp (pkt u p) = 7 ∧
    md (pkt u p) 20 = bits 17 0 (wImm w.word)) ∧
  (∀ s p w, headWork s p 0x1B = some w → w.stage < 256 → ∃ u, exec (.punt p) s = .next (goOn p u) ∧ tookInstr p s u ∧ disp (pkt u p) = 6 ∧
    bits 15 8 (md (pkt u p) 14) = w.stage) ∧
  (∀ s p w, headWork s p 0x1C = some w → ∃ u, exec (.drop p) s = .next (goOn p u) ∧ tookInstr p s u ∧ disp (pkt u p) = 5)

/-- The start of a pass, a visit of the parser, the end of a frame, and an HBM read that returns. Rests on spec/05_sets_and_firing.md R141, spec/05_sets_and_firing.md R153, spec/01_architecture.md R27, spec/01_architecture.md R30, spec/07_parser.md R233, spec/07_parser.md R239, spec/07_parser.md R240, spec/07_parser.md R248, spec/07_parser.md R249, spec/07_parser.md R250, spec/08_tables_actions.md R278, spec/08_tables_actions.md R279. -/
def Obligations.PassesParseAndEndFrames : Prop :=
  (∀ s p up, hasPkt s p = true → pipeLost s (pkt s p).pipe = false → s.pwr.released = true → (pkt s p).place = .arrival →
    slotTaken s (pkt s p).pipe ((slotRank (pkt s p)).getD 0) = false → setActive s = false → exec (.passStart p up) s = .next
      (if (pkt s p).arriving = true then setPkt p (fun x => { x with place := .frameEnd, verdict := .noset }) (strikes (pkt s p).pipe up s)
        else dropPkt p (count .nosetDrop (pkt s p).pipe (strikes (pkt s p).pipe up s)))) ∧
  (∀ s p up, (hasPkt s p = false ∨ pipeLost s (pkt s p).pipe = true ∨ s.pwr.released = false ∨
    slotTaken s (pkt s p).pipe ((slotRank (pkt s p)).getD 0) = true) → exec (.passStart p up) s = .next s) ∧
  (∀ s p, hasPkt s p = true → pipeLost s (pkt s p).pipe = false → s.pwr.released = true → (pkt s p).place = .arrival → setActive s = true →
    slotTaken s (pkt s p).pipe ((slotRank (pkt s p)).getD 0) = false → (pkt s p).counted = false →
    ((pkt s p).src ≠ 0 ∨ hasSfh (pkt s p).bytes = false) →
    ∃ u, exec (.passStart p []) s = .next (parseTop p u) ∧ (pkt u p).place = .parser ∧ (pkt u p).epoch = s.sets.epoch ∧ (pkt u p).counted = true ∧
      (pkt u p).bytes = (pkt s p).bytes ∧ (pkt u p).visits = 0 ∧ (pkt u p).entered = s.turns ∧ u = { s with pkts := u.pkts, turns := s.turns + 1 }) ∧
  (∀ s p, hasPkt s p = true → pipeLost s (pkt s p).pipe = false → s.pwr.released = true → (pkt s p).place = .arrival → (pkt s p).arriving = false →
    slotTaken s (pkt s p).pipe 0 = false → bits 71 71 (sfh (pkt s p).bytes) = s.sets.epoch % 2 →
    setActive s = true → (pkt s p).src = 0 → (pkt s p).counted = false → hasSfh (pkt s p).bytes = true →
    bits 125 117 (sfh (pkt s p).bytes) ≠ s.peal.node → bits 70 67 (sfh (pkt s p).bytes) = 0 →
    ∃ t, exec (.passStart p []) s = .next t ∧ cntGet t .hopsDrop (pkt s p).pipe = min (2 ^ 32 - 1) (cntGet s .hopsDrop (pkt s p).pipe + 1)) ∧
  (∀ s x, (epochAt s x).1 = s.sets.epoch ∨ s.sets.straddle = some (epochAt s x).1) ∧
  (∀ s p, hasPkt s p = true → (pkt s p).place = .parser → (pkt s p).untested = false → (pkt s p).arriving = true →
    (pkt s p).bytes.length < (pkt s p).off + nb (pgNode (graphOf s (pkt s p)) (pkt s p).node) 4 1 → exec (.parseNodeVisit p) s = .next s) ∧
  (∀ s p, (hasPkt s p = false ∨ (pkt s p).place ≠ .parser ∨ (pkt s p).untested = true ∨ firstInParser s p = false) →
    exec (.parseNodeVisit p) s = .next s) ∧
  (∀ s p, hasPkt s p = true → (pkt s p).place = .parser → (pkt s p).arriving = false → (pkt s p).untested = false →
    firstInParser s p = true → (pkt s p).fragWait = none → (pkt s p).fend < (pkt s p).off + nb (pgNode (graphOf s (pkt s p)) (pkt s p).node) 4 1 →
    exec (.parseNodeVisit p) s = .next (parseException p 2 (pkt s p).off
      (setPkt p (fun _ => { pkt s p with visits := (pkt s p).visits + 1, last := some (pkt s p).node }) s))) ∧
  (∀ s p, (pkt s p).node < 0xF0 → (pkt s p).visits = 32 → parseTop p s = parseException p 1 (pkt s p).off s) ∧
  (∀ s p d g, hasPkt s p = true → (pkt s p).place = .parser → (pkt s p).untested = false → firstInParser s p = true → (pkt s p).fragWait = none →
    ((pkt s p).arriving = true → (pkt s p).off + max (nb g 4 1) (headerLen g (pkt s p).bytes (pkt s p).off) ≤ (pkt s p).bytes.length) →
    d = graphOf s (pkt s p) → g = pgNode d (pkt s p).node → nb g 1 1 = 0xFF → bits 4 2 (nb g 0 1) = 0 →
    (pkt s p).off + nb g 4 1 ≤ min 512 (walkEnd (pkt s p)) → zeroMaskHit g (pkt s p).bytes (pkt s p).off = false →
    nb g 8 2 ≤ headerLen g (pkt s p).bytes (pkt s p).off → headerLen g (pkt s p).bytes (pkt s p).off ≤ nb g 10 2 →
    (pkt s p).off + headerLen g (pkt s p).bytes (pkt s p).off ≤ min 512 (walkEnd (pkt s p)) →
    ∃ u, exec (.parseNodeVisit p) s = .next (parseTop p u) ∧ u = { s with pkts := u.pkts } ∧ (pkt u p).visits = (pkt s p).visits + 1 ∧
      (pkt u p).off = (pkt s p).off + headerLen g (pkt s p).bytes (pkt s p).off ∧ (pkt u p).last = some (pkt s p).node ∧
      (pkt u p).node = nextNode d g (pkt s p).bytes (pkt s p).off ∧ (pkt u p).bytes = (pkt s p).bytes ∧ (pkt u p).insts = (pkt s p).insts) ∧
  (∀ s p, hasPkt s p = true → (pkt s p).untested = true → (pkt s p).claims = [] → (pkt s p).effects = [] → (pkt s p).verdict = .none →
    ∃ t, exec (.frameEndClaimTest p) s = .next t ∧ (pkt t p).arriving = false ∧ (pkt t p).untested = false ∧
      (pkt t p).fend = (pkt s p).bytes.length ∧ (pkt t p).place = (pkt s p).place ∧ t = { s with pkts := t.pkts }) ∧
  (∀ s p c rest, hasPkt s p = true → (pkt s p).untested = true → (pkt s p).claims = c :: rest → (pkt s p).bytes.length < c.claimed →
    (pkt s p).refunds = [] → (pkt s p).cutThrough = false → rd (graphOf s (pkt s p)) 8 1 = 0 →
    ∃ t, exec (.frameEndClaimTest p) s = .next t ∧ cntGet t .malformed (pkt s p).pipe = min (2 ^ 32 - 1) (cntGet s .malformed (pkt s p).pipe + 1)) ∧
  (∀ s p d t key, hasPkt s p = true → (pkt s p).place = .flowWait → firstWaiting s p = true →
    (∀ e ∈ tlDescs (setFor s (pkt s p).epoch) (pkt s p).pipe, tKind e = 5 → tIssue e ≠ (pkt s p).stage) →
    tableAt (setFor s (pkt s p).epoch) (pkt s p).pipe (pkt s p).stage 0 = some d → tKind d = 5 →
    tableAt (setFor s (pkt s p).epoch) (pkt s p).pipe (pkt s p).stage 1 = none → tableOf (setFor s (pkt s p).epoch) 0xFF (tHbmTable d) = some t →
    (pkt s p).hbm.find? (fun e => e.1 == (pkt s p).stage && e.2.1 == 0) = some ((pkt s p).stage, 0, key, false) →
    badRows (setFor s (pkt s p).epoch) 0xFF t key = [] →
    ∃ v, v = { s with pkts := v.pkts } ∧ (pkt v p).place = .stages ∧ (pkt v p).bytes = (pkt s p).bytes ∧ (pkt v p).work = (pkt s p).work ∧
      exec (.hbmLookupResult p []) s = .next (goOn p (setPkt p (fun x => { x with stage := x.stage + 1 })
        (useResult p d t 0xFF (pkt s p).stage (lookup (setFor s (pkt s p).epoch) [] 0xFF t key).1
          (lookup (setFor s (pkt s p).epoch) [] 0xFF t key).2 v)))) ∧
  (∀ s p bad, (hasPkt s p = false ∨ (pkt s p).place ≠ .flowWait ∨ firstWaiting s p = false) → exec (.hbmLookupResult p bad) s = .next s) ∧
  (∀ s p d t k st h, (pkt (useResult p d t k st .miss h s) p).lastTable = tId d ∧ (pkt (useResult p d t k st .miss h s) p).lastHash = h ∧
    (pkt (useResult p d t k st .miss h s) p).work = (pkt s p).work ++
      actionWork (setFor s (pkt s p).epoch) (pkt s p).pipe (tMiss d) st (tMissData d) true)

/-- Fragment entries, learn reports, the ageing scan, and punt records handled by the control cores. Rests on spec/07_parser.md R255, spec/07_parser.md R256, spec/07_parser.md R257, spec/07_parser.md R259, spec/08_tables_actions.md R298, spec/08_tables_actions.md R299, spec/08_tables_actions.md R300, spec/08_tables_actions.md R301, spec/04_commands_firmware.md R127. -/
def Obligations.FragmentsLearningAndAgeing : Prop :=
  (∀ s e, s.frags.has e = true → (s.frags.get e).decided = false → (s.frags.get e).ready = true → heldOf s (e / 4096) (s.frags.get e).key = [] →
    (s.frags.get e).total = none → s.tick < (s.frags.get e).made + (s.frags.get e).life →
    exec (.fragmentDecided e) s = .next { s with frags := s.frags.put e { s.frags.get e with decided := true } }) ∧
  (∀ s e, (s.frags.has e = false ∨ (s.frags.get e).decided = true ∨ (s.frags.get e).ready = false) → exec (.fragmentDecided e) s = .next s) ∧
  (∀ s e, (s.frags.has e = false ∨ (s.frags.get e).decided = false ∨ s.tick < (s.frags.get e).made + (s.frags.get e).life) →
    exec (.fragmentLifetimeExpiry e) s = .next s) ∧
  (∀ s p, hasPkt s p = true → (pkt s p).place = .hold → (s.frags.any fun f => f.1 / 4096 == (pkt s p).pipe && f.2.key == (pkt s p).fragKey) = false →
    (pkt s p).holdAt + 6400 ≤ s.tick →
    ∃ t, exec (.fragmentHoldExpiry p) s = .next t ∧ cntGet t .fragOrphan (pkt s p).pipe = min (2 ^ 32 - 1) (cntGet s .fragOrphan (pkt s p).pipe + 1) ∧
      p ∉ t.holdQ.get (pkt s p).pipe) ∧
  (∀ s e, s.frags.has e = true → (s.frags.get e).decided = true → (s.frags.get e).made + (s.frags.get e).life ≤ s.tick →
    ∃ t, exec (.fragmentLifetimeExpiry e) s = .next t ∧ t.frags = s.frags.del e ∧
      t.pkts = s.pkts.mapAll (fun _ x => if x.fragOwn = some e then { x with fragOwn := none } else x)) ∧
  (∀ s (k : Fin 16) r, s.reports.find? (fun r => r.home == k.val) = some r → (s.learns.get k).enable = false →
    exec (.learnReport k) s = .next { s with reports := s.reports.erase r }) ∧
  (∀ s (k : Fin 16) r, s.reports.find? (fun r => r.home == k.val) = some r → (s.learns.get k).enable = true →
    (∀ e ∈ (s.learns.get k).entries, e.2.corrupt = false) →
    ∃ t, exec (.learnReport k) s = .next t ∧
      ((∀ w, w / 4 = r.hash / 16 % 1024 → (s.learns.get k).entries.has w = true → ((s.learns.get k).entries.get w).key ≠ r.key) →
        (t.learns.get k).entries.get (learnWay (s.learns.get k).entries (r.hash / 16 % 1024)) = { key := r.key, port := r.port, first := r.time }) ∧
      ((∀ w, w / 4 = r.hash / 16 % 1024 → (s.learns.get k).entries.has w = true → ((s.learns.get k).entries.get w).key = r.key ∧
          ((s.learns.get k).entries.get w).port = r.port ∧ inWindow (s.learns.get k) ((s.learns.get k).entries.get w) r.time = true) →
        (∃ w, w / 4 = r.hash / 16 % 1024 ∧ (s.learns.get k).entries.has w = true) →
        cntGet t .learnSuppress k = (cntGet s .learnSuppress k + 1) % 2 ^ 32 ∧ (t.learns.get k).entries = (s.learns.get k).entries ∧ t.out = s.out)) ∧
  (∀ s inst table h touched, (setActive s = false ∨ s.pwr.released = false ∨ tableOf (activeSet s) inst table = none ∨
    s.ages.get (inst * 256 + table) = 0 ∨ (activeSet s).entries.has (tKey inst table h) = false) →
    exec (.ageScanVisit inst table h touched) s = .next s) ∧
  (∀ s inst table h touched d, setActive s = true → s.pwr.released = true → tableOf (activeSet s) inst table = some d → tAge d = true → s.ages.get (inst * 256 + table) ≠ 0 →
    (activeSet s).entries.has (tKey inst table h) = true →
    (((activeSet s).entries.get (tKey inst table h)).visited = 0 ∨
      ((activeSet s).entries.get (tKey inst table h)).visited + 800000 * s.ages.get (inst * 256 + table) ≤ s.tick) →
    ∃ t, exec (.ageScanVisit inst table h touched) s = .next t ∧ core { t with sets := s.sets } = core s ∧
      (((activeSet s).entries.get (tKey inst table h)).hit = true ∨ touched = true →
        ((activeSet t).entries.get (tKey inst table h)).hit = touched ∧ ((activeSet t).entries.get (tKey inst table h)).visited = s.tick ∧
        ((activeSet t).entries.get (tKey inst table h)).key = ((activeSet s).entries.get (tKey inst table h)).key) ∧
      (((activeSet s).entries.get (tKey inst table h)).hit = false → touched = false →
        (activeSet t).entries = (activeSet s).entries.del (tKey inst table h))) ∧
  (∀ s (k : Fin 16), (s.punts.get k = [] ∨ s.fw.ready = false) → exec (.puntHandler k) s = .next s) ∧
  (∀ s (k : Fin 16) r rest, s.punts.get k = r :: rest → s.fw.ready = true →
    ∃ t, exec (.puntHandler k) s = .next t ∧ t.punts.get k = rest ∧ core { t with punts := s.punts } = core s)

/-- A refill of the token buckets, and the colours and tokens of a policer's charge. Rests on spec/03_arithmetic.md R87, spec/03_arithmetic.md R88, spec/03_arithmetic.md R89, spec/09_traffic_management.md R324, spec/09_traffic_management.md R326. -/
def Obligations.BucketsStayWithinTheirDepth : Prop :=
  (∀ s, s.tm.refillAt ≤ s.tick → ∃ t, exec .bucketRefill s = .next t ∧ t.tm.refillAt = s.tm.refillAt + 64 ∧
    t.tm.shapers = s.tm.shapers.mapAll (fun i k => min (shaperDepth (activeSet s) i) (k + credit (bits 127 80 (shaperEntry (activeSet s) i)))) ∧
    (∀ e ∈ t.tm.shapers, e.2 ≤ shaperDepth (activeSet s) e.1) ∧
    (∀ e ∈ t.tm.policers, e.2.1 ≤ bits 159 128 (policerEntry (activeSet s) e.1) * 65536 ∧
      e.2.2 ≤ bits 127 96 (policerEntry (activeSet s) e.1) * 65536) ∧
    (∀ i c p, (i, (c, p)) ∈ s.tm.policers →
      (i, (min (bits 159 128 (policerEntry (activeSet s) i) * 65536) (c + credit (bits 255 208 (policerEntry (activeSet s) i))),
           min (bits 127 96 (policerEntry (activeSet s) i) * 65536) (p + credit (bits 207 160 (policerEntry (activeSet s) i))))) ∈ t.tm.policers) ∧
    t = { s with tm := t.tm } ∧ t.tm.leafQ = s.tm.leafQ) ∧
  (∀ s, s.tick < s.tm.refillAt → exec .bucketRefill s = .next s) ∧
  (∀ aware pre tc tp b,
    (colourCharge aware pre tc tp b = (2, tc, tp) ∧ ((aware = true ∧ pre = 2) ∨ tp < b)) ∨
    (colourCharge aware pre tc tp b = (1, tc, tp - b) ∧ b ≤ tp ∧ ¬ (aware = true ∧ pre = 2) ∧ ((aware = true ∧ pre = 1) ∨ tc < b)) ∨
    (colourCharge aware pre tc tp b = (0, tc - b, tp - b) ∧ b ≤ tp ∧ b ≤ tc ∧ ¬ (aware = true ∧ (pre = 1 ∨ pre = 2)))) ∧
  (∀ s i, shaperValid (activeSet s) i = true → (shaperOk s i = true ↔ 0 ≤ shaperTokens s i))

/-- Doorbells, ring enables and disables of a queue slot, acknowledgements and interrupt registers. Rests on spec/13_host_endpoint.md R466, spec/13_host_endpoint.md R467, spec/13_host_endpoint.md R474, spec/13_host_endpoint.md R475, spec/13_host_endpoint.md R486, spec/13_host_endpoint.md R487, spec/13_host_endpoint.md R489, spec/04_commands_firmware.md R123. -/
def Obligations.DoorbellsAndEnablesDriveTheQueue : Prop :=
  (∀ s fn slot (v : Word), slotWritable s fn slot = true →
    (∃ t, exec (.hostDbTx fn slot v) s = .next t ∧
      rung fn slot { (fnOf s fn).slots.get slot with txPi := v.extractLsb' 0 16 } s t) ∧
    (∃ t, exec (.hostDbRx fn slot v) s = .next t ∧
      rung fn slot { (fnOf s fn).slots.get slot with rxPi := v.extractLsb' 0 16 } s t)) ∧
  (∀ s fn slot (v : Word) q, slotWritable s fn slot = true → q = (fnOf s fn).slots.get slot →
    ((fnOf s fn).inst.state ≠ 1 ∨ domainDown s fn = true →
      exec (.hostDbCq fn slot v) s = .next (setSlot fn slot (fun q => { q with cqCi := v.extractLsb' 0 16 }) s)) ∧
    ((fnOf s fn).inst.state = 1 → domainDown s fn = false → q.stopped = true → exec (.hostDbCq fn slot v) s =
      .next (setSlot fn slot (fun q => { q with cqCi := v.extractLsb' 0 16, armHeld := q.armHeld || v.getLsbD 31 }) s)) ∧
    (doorbellActs s fn slot = true → q.cqEn = true → 2 ^ q.log2Cq.toNat < (q.cqPi - v.extractLsb' 0 16).toNat →
      ∃ t, exec (.hostDbCq fn slot v) s = .next t ∧ ((fnOf t fn).slots.get slot).stopped = true ∧ ((fnOf t fn).slots.get slot).cause = 4) ∧
    (doorbellActs s fn slot = true → (q.cqEn = true → (q.cqPi - v.extractLsb' 0 16).toNat ≤ 2 ^ q.log2Cq.toNat) →
      (v.getLsbD 31 = false →
        exec (.hostDbCq fn slot v) s = .next (setSlot fn slot (fun q => { q with cqCi := v.extractLsb' 0 16 }) s)) ∧
      (v.getLsbD 31 = true → q.cqPi = v.extractLsb' 0 16 →
        exec (.hostDbCq fn slot v) s = .next (setSlot fn slot (fun q => { q with cqCi := v.extractLsb' 0 16, arm := true }) s)) ∧
      (v.getLsbD 31 = true → q.cqPi ≠ v.extractLsb' 0 16 →
        exec (.hostDbCq fn slot v) s = .next (raiseVector fn q.vector.toNat
          (setSlot fn slot (fun q => { q with cqCi := v.extractLsb' 0 16, arm := false }) s))))) ∧
  (∀ s fn slot (v : Word) q, slotWritable s fn slot = true → v.extractLsb' 29 3 ≠ 0 → q = (fnOf s fn).slots.get slot →
    q.txEn = false → q.rxEn = false → q.cqEn = false →
    ∃ t, exec (.hostQRingEnable fn slot v) s = .next t ∧ ∃ u, u = (fnOf t fn).slots.get slot ∧
      u.txEn = v.getLsbD 31 ∧ u.rxEn = v.getLsbD 30 ∧ u.cqEn = v.getLsbD 29 ∧ u.log2Tx = v.extractLsb' 12 4 ∧ u.log2Rx = v.extractLsb' 8 4 ∧
      u.log2Cq = v.extractLsb' 4 4 ∧ (v.getLsbD 31 = true → u.txPi = 0 ∧ u.txCi = 0) ∧ (v.getLsbD 30 = true → u.rxPi = 0 ∧ u.rxCi = 0) ∧
      (v.getLsbD 29 = true → u.cqPi = 0 ∧ u.cqCi = 0 ∧ u.arm = false) ∧ u.vector = q.vector ∧ u.roData = q.roData ∧
      (if (v.getLsbD 31 = true ∧ ¬ (4 ≤ u.log2Tx.toNat ∧ u.log2Tx.toNat ≤ 12)) ∨ (v.getLsbD 30 = true ∧ ¬ (4 ≤ u.log2Rx.toNat ∧ u.log2Rx.toNat ≤ 12)) ∨
          (v.getLsbD 29 = true ∧ ¬ (4 ≤ u.log2Cq.toNat ∧ u.log2Cq.toNat ≤ 12)) then u.stopped = true ∧ u.cause = 4
       else u.stopped = q.stopped ∧ (v.getLsbD 31 = false → core t = core s) ∧
        core { t with tm := s.tm, pkts := s.pkts, lanes := s.lanes } = core s)) ∧
  (∀ s fn slot (v : Word) q, slotWritable s fn slot = true → v.extractLsb' 29 3 ≠ 7 → q = (fnOf s fn).slots.get slot →
    (v.getLsbD 31 = true → q.txEn = true) → (v.getLsbD 30 = true → q.rxEn = true) → (v.getLsbD 29 = true → q.cqEn = true) →
    exec (.hostQRingDisable fn slot v) s = .next (setSlot fn slot (fun q => { q with
      txEn := v.getLsbD 31, rxEn := v.getLsbD 30, cqEn := v.getLsbD 29, log2Tx := if q.txEn then q.log2Tx else v.extractLsb' 12 4,
      log2Rx := if q.rxEn then q.log2Rx else v.extractLsb' 8 4, log2Cq := if q.cqEn then q.log2Cq else v.extractLsb' 4 4 }) s)) ∧
  (∀ s fn slot (v : Word), slotWritable s fn slot = false → exec (.hostDbTx fn slot v) s = .next s ∧ exec (.hostDbRx fn slot v) s = .next s ∧
    exec (.hostDbCq fn slot v) s = .next s ∧ exec (.hostQRingEnable fn slot v) s = .next s ∧ exec (.hostQRingDisable fn slot v) s = .next s) ∧
  (∀ s fn (v : Word), isPf fn = true → bar0Open s fn = true →
    (∃ t, exec (.hostEvtAck fn v) s = .next t ∧ (fnOf t fn).evt.ack = v.extractLsb' 0 16 ∧ core t = core s) ∧
    (∃ t, exec (.hostIntxStsClear fn v) s = .next t ∧ (fnOf t fn).intx = (fnOf s fn).intx &&& ~~~v ∧
      t.out = s.out ++ (if intxLevel (fnOf s fn) = true ∧ (fnOf s fn).intx &&& ~~~v = 0 then [.intx fn false] else []) ∧
      t = { s with fns := t.fns, out := t.out })) ∧
  (∀ s (v : Word), bar0Open s 0 = true →
    ∃ t, exec (.hostPuntAck 0 v) s = .next t ∧ (fnOf t 0).punt.ack = v.extractLsb' 0 16 ∧ core t = core s) ∧
  (∀ s fn n, bar0Open s fn = true → n < vectorCount fn →
    ∃ t, exec (.msixUnmask fn n) s = .next t ∧ n ∈ (fnOf t fn).unmasked ∧ t = { s with fns := t.fns, out := t.out } ∧
      ((fnOf s fn).bme = true → (fnOf s fn).msixEn = true → (fnOf s fn).msixMaskAll = false → n ∉ (fnOf t fn).msixPending ∧
        (n ∈ (fnOf s fn).msixPending → .msix fn n ∈ t.out)))

/-- Transmit descriptors, receive buffers and completion entries of a queue, and the host scheduler's selection. Rests on spec/13_host_endpoint.md R469, spec/13_host_endpoint.md R470, spec/13_host_endpoint.md R471, spec/13_host_endpoint.md R473, spec/13_host_endpoint.md R475, spec/13_host_endpoint.md R487, spec/12_transport_storage.md R453, spec/09_traffic_management.md R317, spec/09_traffic_management.md R333. -/
def Obligations.DescriptorsBuffersAndEntriesMove : Prop :=
  (∀ s fn slot (desc : BitVec 512) payload q, q = (fnOf s fn).slots.get slot → q.txReady = true → q.stopped = false →
    leafValid s (queueOf s fn slot) = true → objectOfSq s (queueOf s fn slot) = none →
    ((bits 63 32 desc.toNat ≠ 0 ∨ bits 23 19 desc.toNat ≠ 0 ∨ bits 15 4 desc.toNat ≠ 0 ∨ bits 3 0 desc.toNat ≠ 0) →
      ∃ t, exec (.descriptorFetchComplete fn slot desc payload) s = .next t ∧ ((fnOf t fn).slots.get slot).stopped = true ∧
        ((fnOf t fn).slots.get slot).cause = 3 ∧ ((fnOf t fn).slots.get slot).txCi = q.txCi) ∧
    (bits 63 32 desc.toNat = 0 → bits 23 19 desc.toNat = 0 → bits 15 0 desc.toNat = 0 →
      (14 ≤ bits 383 352 desc.toNat → bits 383 352 desc.toNat ≤ 9216 → prefetchRoom s (portOf fn) ((bits 383 352 desc.toNat + 255) / 256) = true →
        ∃ t, exec (.descriptorFetchComplete fn slot desc payload) s = .next t ∧
          leafQueue t (kLeaf (queueOf s fn slot)) = leafQueue s (kLeaf (queueOf s fn slot)) ++ [s.nextPkt] ∧ t.nextPkt = s.nextPkt + 1 ∧
          (pkt t s.nextPkt).bytes = payload.take (bits 383 352 desc.toNat) ∧ ((fnOf t fn).slots.get slot).txFetched = q.txFetched + 1 ∧
          ((fnOf t fn).slots.get slot).txCi = q.txCi) ∧
      ((bits 383 352 desc.toNat < 14 ∨ 9216 < bits 383 352 desc.toNat) → q.txFetched ≠ q.txCi →
        exec (.descriptorFetchComplete fn slot desc payload) s = .next s) ∧
      (14 ≤ bits 383 352 desc.toNat → bits 383 352 desc.toNat ≤ 9216 → prefetchRoom s (portOf fn) ((bits 383 352 desc.toNat + 255) / 256) = false →
        exec (.descriptorFetchComplete fn slot desc payload) s = .next s) ∧
      ((bits 383 352 desc.toNat < 14 ∨ 9216 < bits 383 352 desc.toNat) → q.txFetched = q.txCi →
        ∃ t, exec (.descriptorFetchComplete fn slot desc payload) s = .next t ∧ ((fnOf t fn).slots.get slot).txFetched = q.txFetched + 1 ∧
          ((fnOf t fn).slots.get slot).txCi = q.txCi + 1 ∧ ((fnOf t fn).slots.get slot).stopped = false ∧ core t = core s))) ∧
  (∀ s fn slot desc payload, (((fnOf s fn).slots.get slot).txReady = false ∨ ((fnOf s fn).slots.get slot).stopped = true ∨
    leafValid s (queueOf s fn slot) = false) → exec (.descriptorFetchComplete fn slot desc payload) s = .next s) ∧
  (∀ s fn slot (buf : BitVec 128) q, q = (fnOf s fn).slots.get slot → q.rxReady = true → q.stopped = false →
    (fnOf s fn).bme = true →
    ((bits 63 32 buf.toNat < 64 ∨ 16384 < bits 63 32 buf.toNat) →
      ∃ t, exec (.rxPacketWrite fn slot buf) s = .next t ∧ ((fnOf t fn).slots.get slot).stopped = true ∧
        ((fnOf t fn).slots.get slot).cause = 3 ∧ ((fnOf t fn).slots.get slot).rxCi = q.rxCi) ∧
    (64 ≤ bits 63 32 buf.toNat → bits 63 32 buf.toNat ≤ 16384 → ∀ p rest, s.deliveries.get (queueOf s fn slot) = p :: rest →
      ∃ t es e, exec (.rxPacketWrite fn slot buf) s = .next t ∧ t.deliveries.get (queueOf s fn slot) = rest ∧
        (bits 63 32 buf.toNat < (pkt s p).bytes.length → t.pkts.has p = false ∧ e.held = none) ∧
        ((pkt s p).bytes.length ≤ bits 63 32 buf.toNat → hasPkt s p = true → (pkt t p).place = .written ∧ (pkt t p).counted = false ∧
          (pkt t p).charge = (pkt s p).charge ∧ e.held = some p) ∧
        ((fnOf t fn).slots.get slot).waiting = q.waiting ++ es ++ [e] ∧ ((pkt s p).tx = none → es = []) ∧ e.rx = some slot ∧
        bits 255 192 e.bits = bits 31 0 buf.toNat ∧ bits 191 128 e.bits = (pkt s p).stamp.stamp % 2 ^ 64 ∧
        bits 127 96 e.bits = (pkt s p).bytes.length % 2 ^ 32 ∧
        bits 24 21 e.bits = (if bits 63 32 buf.toNat < (pkt s p).bytes.length then 1 else 0) ∧
        ((pkt s p).bytes.length ≤ bits 63 32 buf.toNat →
          ∃ tail, t.out = s.out ++ .dma fn (bits 127 64 buf.toNat) (pkt s p).bytes.length (ofBytes (pkt s p).bytes) (relaxed s fn slot) :: tail) ∧
        ((fnOf t fn).slots.get slot).rxTaken = q.rxTaken + 1 ∧ ((fnOf t fn).slots.get slot).rxCi = q.rxCi)) ∧
  (∀ s fn slot q e rest, q = (fnOf s fn).slots.get slot → q.waiting = e :: rest → q.cqEn = true → (q.cqPi - q.cqCi).toNat < 2 ^ q.log2Cq.toNat →
    (fnOf s fn).bme = true →
    ∃ t a tail, exec (.completionEntryIssue fn slot) s = .next t ∧ a = q.cqBase.toNat + 32 * (q.cqPi.toNat % 2 ^ q.log2Cq.toNat) ∧
      t.out = s.out ++ .dma fn (a + 16) 16 ((e.bits + fld 18 18 (1 - q.cqPi.toNat / 2 ^ q.log2Cq.toNat % 2)) / 2 ^ 128) false
        :: .dma fn a 16 ((e.bits + fld 18 18 (1 - q.cqPi.toNat / 2 ^ q.log2Cq.toNat % 2)) % 2 ^ 128) false :: tail ∧
      (∀ p, e.held = some p → t.pkts.has p = false) ∧
      ((fnOf t fn).slots.get slot).cqPi = q.cqPi + 1 ∧ ((fnOf t fn).slots.get slot).waiting = rest ∧ ((fnOf t fn).slots.get slot).arm = false ∧
      (∀ r, e.rx = some r → ((fnOf t fn).slots.get r).rxCi = ((fnOf s fn).slots.get r).rxCi + 1)) ∧
  (∀ s (k : Fin 16), setActive s = false ∨ pipeLost s k = true ∨ s.pwr.released = false ∨ slotTaken s k 2 = true → exec (.hostSchedulerSelect k) s = .next s) ∧
  (∀ s (k : Fin 16) leaf p rest, setActive s = true → pipeLost s k = false → s.pwr.released = true → slotTaken s k 2 = false → objectsOn s k = [] →
    orphanLeaf s k = some (leaf, p) → leafQueue s leaf = p :: rest → s.pkts.has p = true →
    ∃ t, exec (.hostSchedulerSelect k) s = .next t ∧ leafQueue t leaf = rest ∧ (pkt t p).place = .arrival ∧ (pkt t p).stamp = s.time.now ∧
      (pkt t p).conts = (pkt s p).conts) ∧
  (∀ s (k : Fin 16) leaf p rest, setActive s = true → pipeLost s k = false → s.pwr.released = true → slotTaken s k 2 = false → objectsOn s k = [] →
    orphanLeaf s k = none → (selectFrom (2 ^ 36) (kRoot k) s).1 = some leaf → leafQueue s leaf = p :: rest → s.pkts.has p = true →
    (leaf < 0x30000 → bits 57 57 (leafEntry (activeSet s) (leaf - 0x20000)) = 0) →
    ∃ t, exec (.hostSchedulerSelect k) s = .next t ∧ leafQueue t leaf = rest ∧ (pkt t p).place = .arrival ∧
      (pkt t p).stamp = s.time.now ∧ (pkt t p).bytes = (pkt s p).bytes ∧ t.sets = s.sets ∧ t.hbm = s.hbm)

/-- Instance mailboxes: a post, its read, its timeout, notices, and access to a domain that is down. Rests on spec/14_instances_mailboxes.md R520, spec/14_instances_mailboxes.md R512, spec/14_instances_mailboxes.md R513, spec/14_instances_mailboxes.md R514, spec/14_instances_mailboxes.md R515, spec/14_instances_mailboxes.md R516, spec/14_instances_mailboxes.md R521, spec/18_electrical_package.md R633. -/
def Obligations.MessagesArePostedReadAndWithdrawn : Prop :=
  (∀ s fn (v : Word), bar0Open s fn = true → v.getLsbD 31 = true → (fnOf s fn).tx.go = false → (fnOf s fn).inst.state ≠ 0 →
    (fnOf s fn).inst.state ≠ 4 →
    (match mboxReceiver fn (v.extractLsb' 16 10).toNat with
     | none => ∃ t, exec (.messagePost fn false v) s = .next t ∧ (fnOf t fn).tx.go = false ∧ (fnOf t fn).tx.done = true ∧
        (fnOf t fn).tx.result = 5 ∧ core t = core s
     | some r =>
        ((v.extractLsb' 8 5).toNat < 8 ∨ 16 < (v.extractLsb' 8 5).toNat ∨ fnExists s r = false ∨ (fnOf s r).inst.state = 0 →
          ∃ t, exec (.messagePost fn false v) s = .next t ∧ (fnOf t fn).tx.go = false ∧ (fnOf t fn).tx.done = true ∧
            (fnOf t fn).tx.result = 5 ∧ core t = core s) ∧
        (8 ≤ (v.extractLsb' 8 5).toNat → (v.extractLsb' 8 5).toNat ≤ 16 → fnExists s r = true → (fnOf s r).inst.state ≠ 0 →
          domainDown s r = true → ∃ t, exec (.messagePost fn false v) s = .next t ∧ (fnOf t fn).tx.go = false ∧ (fnOf t fn).tx.done = true ∧
            (fnOf t fn).tx.result = 4 ∧ core t = core s) ∧
        (8 ≤ (v.extractLsb' 8 5).toNat → (v.extractLsb' 8 5).toNat ≤ 16 → fnExists s r = true → (fnOf s r).inst.state ≠ 0 →
          (fnOf s r).inst.state = 4 → domainDown s r = false → ∃ t, exec (.messagePost fn false v) s = .next t ∧ (fnOf t fn).tx.go = false ∧
            (fnOf t fn).tx.done = true ∧ (fnOf t fn).tx.result = 2 ∧ core t = core s) ∧
        (8 ≤ (v.extractLsb' 8 5).toNat → (v.extractLsb' 8 5).toNat ≤ 16 → fnExists s r = true → (fnOf s r).inst.state ≠ 0 →
          (fnOf s r).inst.state ≠ 4 → domainDown s r = false → (fnOf s fn).tx.data.length = 16 →
          ∃ t c, exec (.messagePost fn false v) s = .next t ∧ (fnOf t r).chans.get (if isPf fn then 1 else fnNum fn) = c ∧ c.full = true ∧
            c.valid = true ∧ c.src = fn ∧ c.len = (v.extractLsb' 8 5).toNat ∧ c.words.length = c.len ∧
            c.words.tail = ((fnOf s fn).tx.data.take c.len).tail ∧
            (∀ w x, c.words.head? = some w → (fnOf s fn).tx.data.head? = some x → w.toNat % 65536 = fn % 65536 ∧ w.toNat / 65536 = x.toNat / 65536) ∧
            (fnOf t fn).tx.go = true ∧ (fnOf t fn).tx.result = (fnOf s fn).tx.result ∧
            (fnOf t fn).tx.expire = (if (v.extractLsb' 0 8).toNat = 0 then none else some (s.tick + 800000 * (v.extractLsb' 0 8).toNat)) ∧
            (∀ k, k ≠ (if isPf fn then 1 else fnNum fn) → (fnOf t r).chans.get k = (fnOf s r).chans.get k) ∧ core t = core s))) ∧
  (∀ s fn (v : Word), bar0Open s fn = true → v.getLsbD 31 = true →
    ((fnOf s fn).tx.go = true ∨ (fnOf s fn).inst.state = 0 ∨ (fnOf s fn).inst.state = 4) → exec (.messagePost fn false v) s = .next
    (setTx fn false (fun t => { t with dest := v.extractLsb' 16 10, len := v.extractLsb' 8 5, timeout := v.extractLsb' 0 8 }) s)) ∧
  (∀ s fn sec (v : Word), (bar0Open s fn = false ∨ (sec = true ∧ isPf fn = false) ∨ v.getLsbD 31 = false) →
    exec (.messagePost fn sec v) s = .next s) ∧
  (∀ s fn, (bar0Open s fn = false ∨ ((fnOf s fn).chans.get (fnOf s fn).rxSel.toNat).full = false) → exec (.mboxAck fn false) s = .next s) ∧
  (∀ s fn, bar0Open s fn = true → (fnOf s fn).secChan.full = true → ∃ t, exec (.mboxAck fn true) s = .next t ∧
    match (s.sec.ports.get (portOf fn)).answers with
    | [] => (fnOf t fn).secChan = { (fnOf s fn).secChan with full := false } ∧ core t = core s
    | ws :: rest => (fnOf t fn).secChan = { full := true, valid := true, len := ws.length, src := 0xFFFF, words := ws } ∧
        (t.sec.ports.get (portOf fn)).answers = rest ∧ core { t with sec := s.sec } = core s) ∧
  (∀ s fn c, bar0Open s fn = true → (fnOf s fn).chans.get (fnOf s fn).rxSel.toNat = c → c.full = true →
    ∃ t, exec (.mboxAck fn false) s = .next t ∧ (fnOf t fn).chans.get (fnOf s fn).rxSel.toNat = { c with full := false } ∧
      (c.src ≠ 0xFFFF → (fnOf t c.src).tx.go = false ∧ (fnOf t c.src).tx.done = true ∧ (fnOf t c.src).tx.result = 1 ∧
        (fnOf t c.src).tx.expire = none) ∧ (∀ k, k ≠ (fnOf s fn).rxSel.toNat → (fnOf t fn).chans.get k = (fnOf s fn).chans.get k) ∧
      core t = core s) ∧
  (∀ s fn d r, (fnOf s fn).tx.expire = some d → (fnOf s fn).tx.go = true → d ≤ s.tick → (fnOf s fn).tx.to_ = some r →
    ∃ t, exec (.mailboxTimeout fn false) s = .next t ∧ (fnOf t fn).tx.go = false ∧ (fnOf t fn).tx.done = true ∧ (fnOf t fn).tx.result = 3 ∧
      ((fnOf t r).chans.get (mboxChannel fn)).full = false ∧ ((fnOf t r).chans.get (mboxChannel fn)).valid = false ∧ core t = core s) ∧
  (∀ s fn d, (fnOf s fn).tx.expire = some d → (s.tick < d ∨ (fnOf s fn).tx.go = false) → exec (.mailboxTimeout fn false) s = .next s) ∧
  (∀ s fn d, (fnOf s fn).secTx.expire = some d → (fnOf s fn).secTx.go = true → d ≤ s.tick →
    ∃ t, exec (.mailboxTimeout fn true) s = .next t ∧ (fnOf t fn).secTx.go = false ∧ (fnOf t fn).secTx.result = 3 ∧
      (t.sec.ports.get (portOf fn)).request = none) ∧
  (∀ s fn ws rest, (fnOf s fn).notices = ws :: rest → ((fnOf s fn).chans.get 0).full = false → s.fw.ready = true →
    ∃ t, exec (.mboxNoticePost fn) s = .next t ∧ (fnOf t fn).notices = rest ∧
      (fnOf t fn).chans.get 0 = { full := true, valid := true, len := 8, src := 0xFFFF, words := ws } ∧ core t = core s) ∧
  (∀ s fn w, (fnExists s fn = false ∨ domainDown s fn = false) → exec (.mboxDomainDownAccess fn w) s = .next s) ∧
  (∀ s fn, ((fnOf s fn).notices = [] ∨ ((fnOf s fn).chans.get 0).full = true ∨ s.fw.ready = false) → exec (.mboxNoticePost fn) s = .next s) ∧
  (∀ s fn w, fnExists s fn = true → domainDown s fn = true →
    ∃ t, exec (.mboxDomainDownAccess fn w) s = .next t ∧ core t = core s ∧ (fnOf t fn).tx.go = (fnOf s fn).tx.go ∧
      ((fnOf s fn).tx.go = false → (fnOf t fn).tx.result = 4 ∧ (fnOf t fn).tx.done = true) ∧
      ((fnOf s fn).tx.go = true → (fnOf t fn).tx = (fnOf s fn).tx) ∧ (fnOf t fn).chans = (fnOf s fn).chans ∧
      (w = false → .cplAbort fn ∈ t.out))

/-- BAR2, configuration and illegal requests, bus mastering, function-level resets, virtual functions, power states and links. Rests on spec/13_host_endpoint.md R459, spec/13_host_endpoint.md R461, spec/13_host_endpoint.md R463, spec/13_host_endpoint.md R482, spec/13_host_endpoint.md R483, spec/13_host_endpoint.md R484, spec/13_host_endpoint.md R486, spec/13_host_endpoint.md R492, spec/13_host_endpoint.md R495, spec/14_instances_mailboxes.md R507, spec/14_instances_mailboxes.md R508, spec/14_instances_mailboxes.md R529. -/
def Obligations.HostRequestsFunctionsAndLinks : Prop :=
  (∀ s (port : Fin 8) off e w, bar0Open s (port * 4096) = true → e = (fnOf s (port * 4096)).winActive.get (off / 2 ^ 28) → w = off % 2 ^ 28 →
    (∀ n, (e.log2 ≠ 0 ∧ w + n ≤ 2 ^ e.log2 ∧ e.rd = true → exec (.bar2Request port off (.read n)) s =
        .next (emit (.cpl (port * 4096) n (ofBytes (Memory.readAll s.hbm (e.base.toNat + w) n))) s)) ∧
      (¬ (e.log2 ≠ 0 ∧ w + n ≤ 2 ^ e.log2 ∧ e.rd = true) → ∃ t, exec (.bar2Request port off (.read n)) s = .next t ∧
        t.out = s.out ++ [.cplAbort (port * 4096)] ∧ core t = core s)) ∧
    (∀ bs, (HbmCanonical s → e.log2 ≠ 0 ∧ w + bs.length ≤ 2 ^ e.log2 ∧ e.wr = true → ∃ t, exec (.bar2Request port off (.write bs)) s = .next t ∧
        (∀ k b, bs[k]? = some b → Memory.read t.hbm (e.base.toNat + w + k) = b) ∧
        (∀ a, (a < e.base.toNat + w ∨ e.base.toNat + w + bs.length ≤ a) → Memory.read t.hbm a = Memory.read s.hbm a) ∧
        t = { s with hbm := t.hbm }) ∧
      (¬ (e.log2 ≠ 0 ∧ w + bs.length ≤ 2 ^ e.log2 ∧ e.wr = true) → ∃ t, exec (.bar2Request port off (.write bs)) s = .next t ∧
        (t.ports.get port).winDrop.pk = ((s.ports.get port).winDrop.pk + 1) % 2 ^ 64 ∧ t = { s with ports := t.ports }))) ∧
  (∀ s (port : Fin 8) off r, bar0Open s (port * 4096) = false → exec (.bar2Request port off r) s = .next s) ∧
  (∀ s fn w, bar0Open s fn = false → exec (.bar0BadAccess fn w) s = .next s) ∧
  (∀ s fn w, bar0Open s fn = true → ∃ t, exec (.bar0BadAccess fn w) s = .next t ∧ t.out = s.out ++ (if w = true then [] else [.cplOnes fn]) ∧
    (fnOf t fn).aer = (fnOf s fn).aer ++ [.unsupportedRequest] ∧ t = { s with fns := t.fns, out := t.out }) ∧
  (∀ s fn r, (s.ports.get (portOf fn)).linkUp = false → exec (.configRequest fn r) s = .next s) ∧
  (∀ s fn, (s.ports.get (portOf fn)).linkUp = true →
    (fnExists s fn = true → s.fw.ready = false → s.fw.recovery = false → ¬ (s.kiln.holding = true ∧ fn = 0) → s.sec.lc ≠ 4 → s.pwr.stage ≠ 11 →
      ∀ r, exec (.configRequest fn r) s = .next (emit (.cplRetry fn) s)) ∧
    (fnExists s fn = false → ∀ r, exec (.configRequest fn r) s = .next (emit (.cplOnes fn) s)) ∧
    (fnExists s fn = true → (fnOf s fn).flr ≠ none → ∀ r, exec (.configRequest fn r) s = .next (emit (.cplRetry fn) s)) ∧
    (fnExists s fn = true → (fnOf s fn).flr = none → s.fw.ready = true →
      (∀ off, exec (.configRequest fn (.read off)) s = .next (emit (.cpl fn 4 (cfgRead s fn off)) s)) ∧
      (∀ off (v : Word), ∃ t, exec (.configRequest fn (.write off v)) s = .next t ∧ core t = core s ∧
        (off = 4 → (fnOf t fn).memEn = v.getLsbD 1 ∧ (fnOf t fn).intxDisable = v.getLsbD 10) ∧
        (off = 0x50 → (fnOf t fn).msixEn = v.getLsbD 31 ∧ (fnOf t fn).msixMaskAll = v.getLsbD 30) ∧
        (fnOf t fn).bme = (fnOf s fn).bme ∧ (fnOf t fn).inst = (fnOf s fn).inst ∧ (fnOf t fn).slots = (fnOf s fn).slots))) ∧
  (∀ s fn, (fnExists s fn = false ∨ (fnOf s fn).bme = false) → exec (.busMasterDisable fn) s = .next s) ∧
  (∀ s fn, (fnExists s fn = false ∨ (fnOf s fn).bme = true) → exec (.busMasterEnable fn) s = .next s) ∧
  (∀ s fn, (fnExists s fn = false ∨ (fnOf s fn).flr ≠ none) → exec (.functionLevelReset fn) s = .next s) ∧
  (∀ s fn, (fnOf s fn).flr = none → exec (.functionLevelResetDone fn) s = .next s) ∧
  (∀ s fn, (fnOf s fn).flr ≠ none → (fnOf s fn).inst.state ≠ 4 →
    exec (.functionLevelResetDone fn) s = .next (setFn fn (fun f => { f with flr := none }) s)) ∧
  (∀ s fn d, fnExists s fn = false → exec (.devicePowerStateChange fn d) s = .next s) ∧
  (∀ s (port : Fin 8) en n, bar0Open s (port * 4096) = false → exec (.vfEnableChange port en n) s = .next s) ∧
  (∀ s (port : Fin 8) p, (s.ports.get port).linkUp = false → (p = false ∨ (s.ports.get port).perst = true) →
    exec (.hostLinkLoss port p) s = .next s) ∧
  (∀ s fn, fnExists s fn = true → (fnOf s fn).bme = true →
    ∃ t, exec (.busMasterDisable fn) s = .next t ∧ (fnOf t fn).bme = false ∧ (fnOf t fn).cmd.stopped = true ∧ (fnOf t fn).sec.stopped = true ∧
      (∀ r ∈ (t.ports.get (portOf fn)).reqs, r.fn = fn → r.drop = true) ∧
      (∀ k, ((fnOf s fn).slots.get k).state ≠ 0 → ((fnOf t fn).slots.get k).stopped = true ∧ ((fnOf t fn).slots.get k).cause = 1)) ∧
  (∀ s fn, fnExists s fn = true → (fnOf s fn).bme = false →
    ∃ t, exec (.busMasterEnable fn) s = .next t ∧ (fnOf t fn).bme = true ∧ (fnOf t fn).cmd = (fnOf s fn).cmd ∧ (fnOf t fn).sec = (fnOf s fn).sec ∧
      (fnOf t fn).slots = (fnOf s fn).slots ∧ core t = core s ∧
      ((fnOf s fn).msixEn = true → (fnOf s fn).msixMaskAll = false → ∀ v ∈ (fnOf s fn).unmasked, v ∈ (fnOf s fn).msixPending → .msix fn v ∈ t.out)) ∧
  (∀ s fn, fnExists s fn = true → (fnOf s fn).flr = none →
    ∃ t, exec (.functionLevelReset fn) s = .next t ∧ (fnOf t fn).flr = some (s.tick + 8000000) ∧ domainDown t fn = true ∧
      (fnOf t fn).cmd = {} ∧ (fnOf t fn).sec = {} ∧ (fnOf t fn).slots = [] ∧ (fnOf t fn).bme = false ∧ (fnOf t fn).msixEn = false ∧
      (fnOf t fn).winActive = [] ∧ (fnOf t fn).winPending = [] ∧ (fnOf t fn).inst.state = 4) ∧
  (∀ s fn, (fnOf s fn).flr ≠ none → (fnOf s fn).inst.state = 4 →
    ∃ t, exec (.functionLevelResetDone fn) s = .next t ∧ (fnOf t fn).flr = none ∧ (fnOf t fn).inst = { (fnOf s fn).inst with state := 1 } ∧
      core t = core s) ∧
  (∀ s (port : Fin 8) en n, bar0Open s (port * 4096) = true →
    ∃ t, exec (.vfEnableChange port en n) s = .next t ∧ (fnOf t (port * 4096)).vfEnable = en ∧ (fnOf t (port * 4096)).numVfs = min n 512 ∧
      ∀ v, 1 ≤ v → v ≤ 512 →
        (((if (fnOf s (port * 4096)).vfEnable = true then (fnOf s (port * 4096)).numVfs else 0) < v → en = true → v ≤ min n 512 →
            (fnOf t (port * 4096 + v)).inst.state = 1 ∧ (fnOf t (port * 4096 + v)).inst.qcount = 0) ∧
          ((en = false ∨ min n 512 < v) → (fnOf t (port * 4096 + v)).inst.state = 0))) ∧
  (∀ s fn d, fnExists s fn = true → exec (.devicePowerStateChange fn d) s =
    .next (if d then setFn fn (fun f => { f with d3hot := d }) s else kickFn fn (setFn fn (fun f => { f with d3hot := d }) s))) ∧
  (∀ s (port : Fin 8) p, ((s.ports.get port).linkUp = true ∨ (p = true ∧ (s.ports.get port).perst = false)) →
    ∃ t, exec (.hostLinkLoss port p) s = .next t ∧ (t.ports.get port).linkUp = false ∧ ((t.ports.get port).perst = true ↔ p = true ∨ (s.ports.get port).perst = true) ∧
      (t.ports.get port).reqs = [] ∧ (t.ports.get port).quar = [] ∧ (t.sec.ports.get port).session = 0 ∧
      ∀ v, 1 ≤ v → v ≤ 512 → (fnOf t (port * 4096 + v)).inst.state = 0) ∧
  (∀ s (port : Fin 8), exec (.hostLinkUp port) s =
    if s.pwr.hxReleased = true ∧ s.pwr.ckLocked = true ∧ s.kiln.blocks.contains (sliceId 9 port) = false then
      .next { s with ports := s.ports.upd port fun p => { p with linkUp := true, perst := false } }
    else .next s)

/-- Read completions, timeouts, quarantined tags, and the end of a quiesce. Rests on spec/13_host_endpoint.md R479, spec/13_host_endpoint.md R480, spec/13_host_endpoint.md R481, spec/13_host_endpoint.md R482, spec/14_instances_mailboxes.md R524, spec/14_instances_mailboxes.md R525, spec/14_instances_mailboxes.md R526. -/
def Obligations.CompletionsTagsAndQuiescing : Prop :=
  (∀ s sp (port : Fin 16) tag r, (s.ports.get (pcKey sp port)).reqs.find? (fun r => r.tag == tag) = some r →
    (r.drop = true → ∀ e, exec (.readCompletion sp port tag e) s =
      .next (issueWaiting (pcKey sp port) (setPort (pcKey sp port) (fun p => { p with reqs := p.reqs.filter fun r => r.tag != tag }) s))) ∧
    (r.drop = false → ∀ slot, (r.kind = .txFetch slot ∨ r.kind = .rxFetch slot) →
      ∃ t, exec (.readCompletion sp port tag .error) s = .next t ∧ ((fnOf t r.fn).slots.get slot).stopped = true ∧
        ((fnOf t r.fn).slots.get slot).cause = 2 ∧
        ((s.ports.get (pcKey sp port)).waits = [] → ∀ x ∈ (t.ports.get (pcKey sp port)).reqs, x.tag ≠ tag)) ∧
    (r.drop = false → ∀ slot data, r.kind = .txFetch slot → exec (.readCompletion sp port tag (.ok data)) s =
      .next (setSlot r.fn slot (fun q => { q with txReady := true })
        (issueWaiting (pcKey sp port) (setPort (pcKey sp port) (fun p => { p with reqs := p.reqs.filter fun r => r.tag != tag }) s)))) ∧
    (r.drop = false → ∀ slot data, r.kind = .rxFetch slot → exec (.readCompletion sp port tag (.ok data)) s =
      .next (setSlot r.fn slot (fun q => { q with rxReady := true })
        (issueWaiting (pcKey sp port) (setPort (pcKey sp port) (fun p => { p with reqs := p.reqs.filter fun r => r.tag != tag }) s)))) ∧
    (r.drop = false → ∀ sec data, r.kind = .command sec → exec (.readCompletion sp port tag (.ok data)) s =
      .next (setRing r.fn sec (fun g => { g with exec := g.exec.map fun e => { e with buf := some data } })
        (issueWaiting (pcKey sp port) (setPort (pcKey sp port) (fun p => { p with reqs := p.reqs.filter fun r => r.tag != tag }) s)))) ∧
    (s.tick < r.deadline → exec (.completionTimeout sp port tag) s = .next s) ∧
    (r.deadline ≤ s.tick → r.drop = false → ∀ slot, r.kind = .txFetch slot → sp = false →
      ∃ t, exec (.completionTimeout sp port tag) s = .next t ∧ ((fnOf t r.fn).slots.get slot).stopped = true ∧
        ((fnOf t r.fn).slots.get slot).cause = 2 ∧ ((s.ports.get (pcKey sp port)).waits = [] → ∀ x ∈ (t.ports.get (pcKey sp port)).reqs, x.tag ≠ tag) ∧
        (tag, s.tick + 2 * cplTicks (fnOf s r.fn).cplTo) ∈ (t.ports.get (pcKey sp port)).quar ∧
        (t.ports.get (pcKey sp port)).cplTimeout.pk = ((s.ports.get (pcKey sp port)).cplTimeout.pk + 1) % 2 ^ 64 ∧
        (fnOf t r.fn).aer = (fnOf s r.fn).aer ++ [.completionTimeout])) ∧
  (∀ s sp (port : Fin 16) tag e, (s.ports.get (pcKey sp port)).reqs.find? (fun r => r.tag == tag) = none →
    exec (.completionTimeout sp port tag) s = .next s ∧
    ((∀ q ∈ (s.ports.get (pcKey sp port)).quar, q.1 ≠ tag) → exec (.readCompletion sp port tag e) s = .next s) ∧
    ((∃ q ∈ (s.ports.get (pcKey sp port)).quar, q.1 = tag) → ∃ t, exec (.readCompletion sp port tag e) s = .next t ∧
      (t.ports.get (pcKey sp port)).lateCpl.pk = ((s.ports.get (pcKey sp port)).lateCpl.pk + 1) % 2 ^ 64 ∧
      (t.ports.get (pcKey sp port)).reqs = (s.ports.get (pcKey sp port)).reqs ∧ (t.ports.get (pcKey sp port)).quar = (s.ports.get (pcKey sp port)).quar ∧
      core t = core s)) ∧
  (∀ s sp (port : Fin 16) tag, ∃ t, exec (.tagQuarantineEnd sp port tag) s = .next t ∧ t = { s with ports := t.ports, out := t.out } ∧
    ∀ q, q ∈ (t.ports.get (pcKey sp port)).quar ↔ q ∈ (s.ports.get (pcKey sp port)).quar ∧ ¬ (q.1 = tag ∧ q.2 ≤ s.tick)) ∧
  (∀ s iid kd a n, freeTag (s.ports.get (portOf iid)) = none → issueRead iid kd a n s =
    setPort (portOf iid) (fun p => { p with waits := p.waits ++ [{ fn := iid, kind := kd, addr := a, len := n }] }) s) ∧
  (∀ s k w rest i, (s.ports.get k).waits = w :: rest → freeTag (s.ports.get k) = some i → i < 16384 ∧
    (∀ q ∈ (s.ports.get k).quar, q.1 ≠ i) ∧ (issueWaiting k s).out = s.out ++ [.read w.fn i w.addr w.len] ∧
    ((issueWaiting k s).ports.get k).waits = rest) ∧
  (∀ s iid, s.fw.ready = false → exec (.quiesceDrained iid) s = .next s ∧ exec (.quiesceTimeout iid) s = .next s) ∧
  (∀ s iid fn sec, s.fw.ready = true → (fnOf s iid).inst.state = 2 → (fn, sec) ∈ (fnOf s iid).inst.quiesceRings →
    (drained s iid = true → ∃ t, exec (.quiesceDrained iid) s = .next t ∧ (fnOf t iid).inst.state = 3 ∧
      (fnOf t iid).inst.quiesceAt = none ∧ (fnOf t iid).inst.qcount = (fnOf s iid).inst.qcount ∧ (ringOf t fn sec).exec = none ∧ core t = core s) ∧
    (drained s iid = false → exec (.quiesceDrained iid) s = .next s) ∧
    (∀ d, (fnOf s iid).inst.quiesceAt = some d →
      (s.tick < d → exec (.quiesceTimeout iid) s = .next s) ∧
      (d ≤ s.tick → drained s iid = true → exec (.quiesceTimeout iid) s = exec (.quiesceDrained iid) s) ∧
      (d ≤ s.tick → drained s iid = false → (fnOf s iid).inst.force = false → ∃ t, exec (.quiesceTimeout iid) s = .next t ∧ (fnOf t iid).inst.state = 2 ∧
        (fnOf t iid).inst.quiesceAt = none ∧ (ringOf t fn sec).exec = none ∧ core t = core s) ∧
      (d ≤ s.tick → drained s iid = false → (fnOf s iid).inst.force = true → ∃ t, exec (.quiesceTimeout iid) s = .next t ∧ (fnOf t iid).inst.state = 3 ∧
        (fnOf t iid).inst.quiesceAt = none ∧ (ringOf t fn sec).exec = none)))

/-- Register writes without a row of their own, wide counters, TM_BUF_STS and PEAL_CFG. Rests on spec/00_scope.md R17, spec/03_arithmetic.md R76, spec/04_commands_firmware.md R104, spec/13_host_endpoint.md R463, spec/13_host_endpoint.md R464, spec/09_traffic_management.md R340, spec/15_peal_bus.md R564, spec/19_address_index.md R667. -/
def Obligations.RegistersAreReadAndWritten : Prop :=
  (∀ s fn (v : Word), bar0Open s fn = true →
    exec (.registerWrite (.bar0 fn 0x0000) v) s = .next (setFn fn (fun f => { f with
      badVector := f.badVector && !v.getLsbD 3, masterLost := f.masterLost && !v.getLsbD 1 }) s) ∧
    (∃ t, exec (.registerWrite (.bar0 fn 0x0100) v) s = .next t ∧ (ringOf t fn false).base.toNat =
        (if (ringOf s fn false).enable = true then (ringOf s fn false).base.toNat
         else (ringOf s fn false).base.toNat / 2 ^ 32 * 2 ^ 32 + v.toNat / 64 * 64) ∧
      (ringOf t fn false).enable = (ringOf s fn false).enable ∧ (ringOf t fn false).pi = (ringOf s fn false).pi ∧ core t = core s) ∧
    exec (.registerWrite (.bar0 fn 0x0200) v) s = .next s) ∧
  (∀ s a (v : Word), (a % 4 ≠ 0 ∨ a < 0xF00000000000) → exec (.registerWrite (.internal a) v) s = .next s) ∧
  (∀ s (v : Word), exec (.registerWrite (.internal 0xF002C0000000) v) s =
    .next { s with pwr := { s.pwr with lossOfLock := s.pwr.lossOfLock && !v.getLsbD 2 } }) ∧
  (∀ s (v : Word), exec (.registerWrite (.internal 0xF000C0000010) v) s = .next { s with time := { s.time with pealDelay := v.extractLsb' 0 24 } }) ∧
  (∀ s p (v : Word), ∃ t, exec (.registerWrite p v) s = .next t ∧ t.hbm = s.hbm ∧ t.sets = s.sets ∧ t.keys = s.keys ∧ t.pkts = s.pkts ∧
    t.tick = s.tick ∧ t.fw = s.fw) ∧
  (∀ s n, n < 1024 → ∀ o, (o = 0 ∨ o = 8) →
    ∃ t, exec (.counterLowRead (.internal (0xF00000010000 + 128 * n + o))) s = .next t ∧
      upperRead t (0xF00000010000 + 128 * n + o + 4) = regRead s (0xF00000010000 + 128 * n + o + 4) ∧ t = { s with latches := t.latches }) ∧
  (∀ s n, n < 1024 → ∀ o, (o = 0 ∨ o = 8) →
    ∃ t, exec (.counterLowRead (.internal (0xF00000010000 + 128 * n + o + 4))) s = .next t ∧
      upperRead t (0xF00000010000 + 128 * n + o + 4) = regRead t (0xF00000010000 + 128 * n + o + 4) ∧ t = { s with latches := t.latches }) ∧
  (∀ s fn o, exec (.counterLowRead (.bar0 fn o)) s = .next s) ∧
  (∀ s a, wideLow a = false → (a < 4 ∨ wideLow (a - 4) = false) → exec (.counterLowRead (.internal a)) s = .next s) ∧
  (∀ s fn o (v : Word), bar0Open s fn = false → exec (.registerWrite (.bar0 fn o) v) s = .next s) ∧
  (∀ s (u : Fin 4) (v : Word), (v.getLsbD 20 = false → exec (.tmBufPeakReset u v) s = .next s) ∧
    (v.getLsbD 20 = true → ∃ t, exec (.tmBufPeakReset u v) s = .next t ∧ t.tm.peaks.get u = useHeld s u ∧ u.val ∉ t.tm.peakValid ∧
      (∀ w, w ≠ u.val → (t.tm.peaks.get w = s.tm.peaks.get w ∧ (w ∈ t.tm.peakValid ↔ w ∈ s.tm.peakValid))) ∧ t = { s with tm := t.tm })) ∧
  (∀ s (v : Word), exec (.pealCfgWrite v) s =
    if 40 ≤ v.toNat / 2 ^ 21 ∧ v.toNat / 2 ^ 21 ≤ 1000 then
      .next { s with peal := { s.peal with tokenTo := v.toNat / 2 ^ 21, timeSrc := v.toNat / 2 ^ 12 % 512, timeSrcEn := v.getLsbD 11 } }
    else .next s)

/-- Nonces, sessions, life cycle, roots, fuses, zeroisation and entropy. Rests on spec/17_security_lifecycle.md R611, spec/17_security_lifecycle.md R613, spec/17_security_lifecycle.md R614, spec/17_security_lifecycle.md R615, spec/17_security_lifecycle.md R616, spec/17_security_lifecycle.md R617, spec/17_security_lifecycle.md R618, spec/17_security_lifecycle.md R621, spec/17_security_lifecycle.md R622, spec/17_security_lifecycle.md R623, spec/17_security_lifecycle.md R625, spec/17_security_lifecycle.md R627. -/
def Obligations.TheTrustRegionAnswersItsRequests : Prop :=
  (∀ s h k ws u, takeRequest h k s = some (ws, u) → (secPort s h).request = some ws ∧ reqType ws = k ∧ (secPort u h).request = none ∧
    (secPort u h).session = (secPort s h).session ∧ u.sec.lc = s.sec.lc ∧ u.keys = s.keys ∧ u.hbm = s.hbm) ∧
  (∀ s (port : Fin 8) buf ok, (takeRequest port 1 s = none → exec (.nonceReq port) s = .next s) ∧
    (takeRequest port 2 s = none → bufferRead s port 2 = none → exec (.auth port buf) s = .next s) ∧ (takeRequest port 3 s = none → exec (.close port) s = .next s) ∧
    (takeRequest port 4 s = none → exec (.lcAdvance port) s = .next s) ∧ (takeRequest port 5 s = none → bufferRead s port 5 = none → exec (.rootImport port buf) s = .next s) ∧
    (takeRequest port 6 s = none → exec (.kemKeyGet port ok) s = .next s) ∧ (takeRequest port 7 s = none → exec (.fuseProgram port) s = .next s) ∧
    ((secPort s port).verifying = none → exec (.authVerified port) s = .next s)) ∧
  (∀ s (port : Fin 8) ws st, resulted port (reqType ws) (reqTag ws) st s (answer port ws st s)) ∧
  (∀ s (port : Fin 8) ws u, takeRequest port 1 s = some (ws, u) → exec (.nonceReq port) s =
    .next (if ws.length ≠ 8 ∨ restZero ws 1 = false then answer port ws stBadParam u else if s.sec.lc = 4 then answer port ws stDenied u
      else if s.sec.entropyFail = true then answer port ws stHwFault u
      else fillSecure (port * 4096) (BitVec.ofNat 32 (0x81 * 2 ^ 24 + reqTag ws * 65536 + 0xFFFF) ::
          (List.range 8).map (fun i => BitVec.ofNat 32 (ofBytes (((drawnBytes 32 u).drop (4 * i)).take 4))))
        (useDraw (setSecPort port (fun p => { p with nonce := some (drawnBytes 32 u, s.tick + 8000000000) }) u)))) ∧
  (∀ s (port : Fin 8) w ws, told port (w :: ws) s (fillSecure (port * 4096) (w :: ws) s)) ∧
  (∀ s (port : Fin 8) buf ws u, takeRequest port 2 s = some (ws, u) →
    ∃ t, exec (.auth port buf) s = .next t ∧ (secPort t port).nonce = none ∧ (secPort t port).session = (secPort s port).session ∧
      if ws.length ≠ 8 ∨ restZero ws 4 = false ∨ (reqWord ws 3 ≠ 1 ∧ reqWord ws 3 ≠ 2) then
        (secPort t port).verifying = none ∧ resulted port 2 (reqTag ws) stBadParam s t
      else if s.sec.lc = 4 then (secPort t port).verifying = none ∧ resulted port 2 (reqTag ws) stDenied s t
      else match (secPort s port).nonce, buf with
      | some (n, till), some b => if s.tick ≤ till then (secPort t port).verifying = some (reqWord ws 3, reqTag ws, b) ∧ (secPort t port).spent = some n
          else (secPort t port).verifying = none ∧ resulted port 2 (reqTag ws) stBadState s t
      | some (n, till), none => (secPort t port).verifying = none ∧
          if s.tick ≤ till then t = readBuffer port ws n 5261 (setSecPort port (fun p => { p with nonce := none }) u)
          else resulted port 2 (reqTag ws) stBadState s t
      | none, _ => (secPort t port).verifying = none ∧ resulted port 2 (reqTag ws) stBadState s t) ∧
  (∀ s (port : Fin 8) buf r b, bufferRead s port 2 = some (r, b) → exec (.auth port buf) s = .next (setSecPort port (fun p => { p with
    reading := none, verifying := some (reqWord r.msg 3, reqTag r.msg, b), spent := some r.nonce }) s)) ∧
  (∀ s h ws n len, (fnOf s (h * 4096)).bme = true → (secPort (readBuffer h ws n len s) h).reading = some { msg := ws, nonce := n } ∧
    core { readBuffer h ws n len s with sec := s.sec } = core s) ∧
  (∀ s h ws n len, (fnOf s (h * 4096)).bme = false → readBuffer h ws n len s = answer h ws stTimeout s) ∧
  (∀ s (port : Fin 8) v, (secPort s port).verifying = some v → s.sec.endedAt = some s.tick →
    exec (.authVerified port) s = .next (setSecPort port (fun p => { p with verifying := none, spent := none }) s)) ∧
  (∀ s (port : Fin 8) purpose tag b ok, (secPort s port).verifying = some (purpose, tag, b) → s.sec.endedAt ≠ some s.tick →
    (ok = true ↔ b.length = 5261 ∧ keyTrusted s 32 (b.take 1952) = true ∧
      mlDsaVerify (b.take 1952) (authMessage port purpose ((secPort s port).spent.getD [])) (b.drop 1952) = true) →
    ∃ t, exec (.authVerified port) s = .next t ∧ (secPort t port).verifying = none ∧ (secPort t port).spent = none ∧
      (secPort t port).session = (if ok = true then purpose else (secPort s port).session) ∧
      resulted port 2 tag (if ok = true then stOk else stSigFail) s t) ∧
  (∀ s (port : Fin 8) ws u, takeRequest port 3 s = some (ws, u) →
    ∃ t, exec (.close port) s = .next t ∧ (secPort t port).session = (if ws.length = 8 ∧ restZero ws 1 = true then 0 else (secPort s port).session) ∧
      resulted port 3 (reqTag ws) (if ws.length ≠ 8 ∨ restZero ws 1 = false then stBadParam
        else if (secPort s port).session = 0 then stDenied else stOk) s t) ∧
  (∀ s (port : Fin 8) ws u, takeRequest port 4 s = some (ws, u) →
    (ws.length ≠ 8 ∨ restZero ws 2 = false ∨ 7 < reqWord ws 1 → exec (.lcAdvance port) s = .next (answer port ws stBadParam u)) ∧
    (ws.length = 8 → restZero ws 2 = true → reqWord ws 1 ≤ 7 →
    ((secPort s port).session = 2 → lcTarget s.sec.lc (reqWord ws 1) = true →
      ∃ t, exec (.lcAdvance port) s = .next t ∧ t.sec.lc = reqWord ws 1 ∧ (∀ h, (secPort t h).session = 0) ∧
        (reqWord ws 1 = 2 → t.sec.lowrate = false → 0x0100 ≤ t.ciph.rate) ∧ (reqWord ws 1 = 3 → ∀ i, t.sec.roots.has i = false ∧ (keySlot t i).key = none) ∧
        (reqWord ws 1 = 4 → t.sec.zeroising = true ∧ t.pwr.safe = true ∧ t.fw.ready = false)) ∧
    ((secPort s port).session ≠ 2 ∨ lcTarget s.sec.lc (reqWord ws 1) = false → exec (.lcAdvance port) s = .next (answer port ws stDenied u)))) ∧
  (∀ s (port : Fin 8) buf ws u, takeRequest port 5 s = some (ws, u) →
    (ws.length ≠ 8 ∨ restZero ws 4 = false ∨ reqWord ws 3 < 1 ∨ 3 < reqWord ws 3 → exec (.rootImport port buf) s = .next (answer port ws stBadParam u)) ∧
    (ws.length = 8 → restZero ws 4 = true → 1 ≤ reqWord ws 3 → reqWord ws 3 ≤ 3 →
      ((secPort s port).session ≠ 2 ∨ (s.sec.lc ≠ 1 ∧ s.sec.lc ≠ 2) → exec (.rootImport port buf) s = .next (answer port ws stDenied u)) ∧
      ((secPort s port).session = 2 → (s.sec.lc = 1 ∨ s.sec.lc = 2) →
      (buf = none → exec (.rootImport port buf) s = .next (readBuffer port ws [] 1152 u)) ∧
      ∀ b, buf = some b → ∃ t, exec (.rootImport port buf) s = .next t ∧ match unwrapRoot u (reqWord ws 3) b with
      | none => t.sec.roots = s.sec.roots ∧ resulted port 5 (reqTag ws) stSigFail s t
      | some root => if liveKeyOfRoot u (reqWord ws 3) = true then t.sec.roots = s.sec.roots ∧ resulted port 5 (reqTag ws) stBusy s t
          else if 64 ≤ s.sec.rootWrites.get (reqWord ws 3) then t.sec.roots = s.sec.roots ∧ resulted port 5 (reqTag ws) stNoResource s t
          else t.sec.roots.get (reqWord ws 3) = root ∧ (∀ i, i ≠ reqWord ws 3 → t.sec.roots.get i = s.sec.roots.get i) ∧
            t.sec.rootWrites.get (reqWord ws 3) = s.sec.rootWrites.get (reqWord ws 3) + 1 ∧ resulted port 5 (reqTag ws) stOk s t))) ∧
  (∀ s (port : Fin 8) ok ws u, takeRequest port 6 s = some (ws, u) →
    (ws.length ≠ 8 ∨ restZero ws 3 = false → exec (.kemKeyGet port ok) s = .next (answer port ws stBadParam u)) ∧
    (ws.length = 8 → restZero ws 3 = true →
      ((secPort s port).session = 0 ∨ s.sec.roots.has 0 = false → exec (.kemKeyGet port ok) s = .next (answer port ws stDenied u)) ∧
      ((secPort s port).session ≠ 0 → s.sec.roots.has 0 = true → (fnOf s (port * 4096)).bme = true →
        ∃ t tail, exec (.kemKeyGet port ok) s = .next t ∧
          t.out = u.out ++ .dma (port * 4096) (reqWord ws 1 + reqWord ws 2 * 2 ^ 32) 1184 (ofBytes (kemPublic s)) false :: tail ∧
          resulted port 6 (reqTag ws) stOk s t) ∧
      ((secPort s port).session ≠ 0 → s.sec.roots.has 0 = true → (fnOf s (port * 4096)).bme = false →
        ∃ t, exec (.kemKeyGet port ok) s = .next t ∧ resulted port 6 (reqTag ws) stOk s t))) ∧
  (∀ s (port : Fin 8) ws u f, takeRequest port 7 s = some (ws, u) → ws.length = 10 → reqWord ws 1 = f → hashField f = true →
    ((secPort s port).session = 2 ∧ (s.sec.lc = 1 ∨ s.sec.lc = 2) ∨ s.sec.lc = 1 ∧ f = 0x20 ∧ port = 0 ∧ (s.sec.hashes.get 32).written = false) →
    ((s.sec.hashes.get f).written = false →
      ∃ t, exec (.fuseProgram port) s = .next t ∧ resulted port 7 (reqTag ws) stOk s t ∧ t.sec.hashes.get f =
          { s.sec.hashes.get f with hash := BitVec.ofNat 256 (ofBytes ((ws.drop 2).flatMap fun w => bytesOf 4 w.toNat)), written := true } ∧
        (∀ g, g ≠ f → t.sec.hashes.get g = s.sec.hashes.get g) ∧ t.sec.lc = s.sec.lc) ∧
    ((s.sec.hashes.get f).written = true → exec (.fuseProgram port) s = .next (answer port ws stBadState u))) ∧
  (∀ s (port : Fin 8) ws u, takeRequest port 7 s = some (ws, u) → ws.length = 10 → (∀ w ∈ ws.drop 2, w = 0) → (secPort s port).session = 2 →
    (s.sec.lc = 1 → (reqWord ws 1 = 0x30 ∨ reqWord ws 1 = 0x31) →
      ∃ t, exec (.fuseProgram port) s = .next t ∧ resulted port 7 (reqTag ws) stOk s t ∧ t.sec.fiField = (reqWord ws 1 == 0x30 || s.sec.fiField) ∧
        t.sec.lowrate = (reqWord ws 1 == 0x31 || s.sec.lowrate) ∧ t.sec.hashes = s.sec.hashes) ∧
    ((s.sec.lc = 1 ∨ s.sec.lc = 2) → ∀ f, reqWord ws 1 = 256 + f → hashField f = true →
      ((f < 32 ∧ (s.sec.hashes.get f).usable = true ∧ usableCount s f ≤ 1) ∨ signedRunning s f = true →
        exec (.fuseProgram port) s = .next (answer port ws stBadState u)) ∧
      (¬(f < 32 ∧ (s.sec.hashes.get f).usable = true ∧ usableCount s f ≤ 1) → signedRunning s f = false →
        ∃ t, exec (.fuseProgram port) s = .next t ∧ resulted port 7 (reqTag ws) stOk s t ∧
          t.sec.hashes.get f = { s.sec.hashes.get f with revoked := true } ∧ (∀ g, g ≠ f → t.sec.hashes.get g = s.sec.hashes.get g)))) ∧
  (∀ s (port : Fin 8) ws u, takeRequest port 7 s = some (ws, u) →
    (ws.length ≠ 10 ∨ 511 < reqWord ws 1 ∨ (hashField (reqWord ws 1 % 256) = false ∧ reqWord ws 1 ≠ 0x30 ∧ reqWord ws 1 ≠ 0x31) →
      exec (.fuseProgram port) s = .next (answer port ws stBadParam u)) ∧
    (ws.length = 10 → reqWord ws 1 ≤ 255 → hashField (reqWord ws 1) = true → (secPort s port).session ≠ 2 →
      (s.sec.lc ≠ 1 ∨ reqWord ws 1 ≠ 0x20 ∨ port ≠ 0 ∨ (s.sec.hashes.get 32).written = true) →
      exec (.fuseProgram port) s = .next (answer port ws stDenied u))) ∧
  (∀ s, s.sec.lc = 4 → s.sec.zeroised = false → 6 ≤ s.pwr.stage → s.pwr.stage ≤ 11 →
    ∃ t, exec .scrapZeroise s = .next t ∧ t.sec.devsec = List.replicate 32 0 ∧ (∀ i, t.sec.roots.has i = false ∧ (keySlot t i).key = none) ∧
      (∀ a, Memory.read t.hbm a = 0) ∧ t.sec.zeroising = false ∧ t.sec.zeroised = true ∧ t.pwr.safe = true ∧ t.sec.lc = 4 ∧ t.fw.ready = false) ∧
  (∀ s, (s.sec.lc ≠ 4 ∨ s.sec.zeroised = true ∨ s.pwr.stage < 6 ∨ 11 < s.pwr.stage) → exec .scrapZeroise s = .next s) ∧
  (∀ s, exec .entropyHealthFail s = .next { s with sec := { s.sec with entropyFail := true } } ∧
    exec .entropyHealthRecover s = .next { s with sec := { s.sec with entropyFail := false } } ∧
    (s.sec.entropyFail = true → exec .entropyReseed s = .next s) ∧
    (s.sec.entropyFail = false → ∃ t, exec .entropyReseed s = .next t ∧ t.sec.reseedAt = s.tick ∧ t.draws = s.draws + 1 ∧
      t = { s with sec := t.sec, draws := t.draws }))

/-- SPDM requests of a DOE mailbox: their order, their answers and what they leave. Rests on spec/17_security_lifecycle.md R613, spec/17_security_lifecycle.md R617, spec/17_security_lifecycle.md R628, spec/17_security_lifecycle.md R629, spec/17_security_lifecycle.md R631. -/
def Obligations.AttestationFollowsItsOrder : Prop :=
  (∀ s (port : Fin 8), spdmServed s port = false → exec (.getVersion port) s = .next s ∧ (∀ m, exec (.getCapabilities port m) s = .next s) ∧
    (∀ a b, exec (.negotiateAlgorithms port a b) s = .next s) ∧ exec (.getDigests port) s = .next s ∧
    (∀ a b c, exec (.getCertificate port a b c) s = .next s) ∧ (∀ a n, exec (.challenge port a n) s = .next s) ∧
    (∀ a b n, exec (.getMeasurements port a b n) s = .next s)) ∧
  (∀ s (port : Fin 8), spdmServed s port = true →
    (∃ t, exec (.getVersion port) s = .next t ∧ (secPort t port).spdm = 1 ∧
      t.out = s.out ++ [.doe port [0x10, 0x04, 0, 0, 0, 2, 0x00, 0x12, 0x00, 0x13]] ∧ t = { s with sec := t.sec, out := t.out } ∧
      (∀ h, h ≠ port.val → secPort t h = secPort s h)) ∧
    ((secPort s port).spdm = 0 → ∀ m, ∃ r, exec (.getCapabilities port m) s = .next (emit (.doe port r) s) ∧ r.drop 1 = [0x7F, 0x04, 0]) ∧
    ((secPort s port).spdm ≠ 0 → ∀ m, m ≠ 2 → m ≠ 3 → exec (.getCapabilities port m) s = .next (emit (.doe port [0x10, 0x7F, 0x41, 0]) s)) ∧
    ((secPort s port).spdm ≠ 0 → ∀ m, (m = 2 ∨ m = 3) → ∃ t r, exec (.getCapabilities port m) s = .next t ∧ (secPort t port).spdm = 2 ∧
      (secPort t port).spdmVersion = 0x10 + m ∧ t.out = s.out ++ [.doe port r] ∧ r.take 2 = [BitVec.ofNat 8 (0x10 + m), 0x61] ∧
      t = { s with sec := t.sec, out := t.out }) ∧
    ((secPort s port).spdm < 2 → ∀ a b, ∃ r, exec (.negotiateAlgorithms port a b) s = .next (emit (.doe port r) s) ∧ r.drop 1 = [0x7F, 0x04, 0]) ∧
    (2 ≤ (secPort s port).spdm →
      (∃ t r, exec (.negotiateAlgorithms port true true) s = .next t ∧ (secPort t port).spdm = 3 ∧ t.out = s.out ++ [.doe port r] ∧
        (r.drop 1).head? = some 0x63 ∧ t = { s with sec := t.sec, out := t.out }) ∧
      (∀ a b, (a = false ∨ b = false) → ∃ r, exec (.negotiateAlgorithms port a b) s = .next (emit (.doe port r) s) ∧ r.drop 1 = [0x7F, 0x07, 0])) ∧
    ((secPort s port).spdm < 3 → (∃ r, exec (.getDigests port) s = .next (emit (.doe port r) s) ∧ r.drop 1 = [0x7F, 0x04, 0]) ∧
      (∀ a b c, ∃ r, exec (.getCertificate port a b c) s = .next (emit (.doe port r) s) ∧ r.drop 1 = [0x7F, 0x04, 0]) ∧
      (∀ a n, ∃ r, exec (.challenge port a n) s = .next (emit (.doe port r) s) ∧ r.drop 1 = [0x7F, 0x04, 0]) ∧
      (∀ a b n, ∃ r, exec (.getMeasurements port a b n) s = .next (emit (.doe port r) s) ∧ r.drop 1 = [0x7F, 0x04, 0])) ∧
    (3 ≤ (secPort s port).spdm →
      (∃ r, exec (.getDigests port) s = .next (emit (.doe port r) s) ∧ (r.drop 1).head? = some 0x01) ∧
      (∀ slot off n, (slot ≠ 0 ∨ Config.certChain.length < off) → ∃ r, exec (.getCertificate port slot off n) s = .next (emit (.doe port r) s) ∧
        r.drop 1 = [0x7F, 0x01, 0]) ∧
      (∀ off n, off ≤ Config.certChain.length → ∃ r, exec (.getCertificate port 0 off n) s = .next (emit (.doe port r) s) ∧
        (r.drop 1).head? = some 0x02 ∧ r.drop 8 = (Config.certChain.drop off).take n) ∧
      (∀ n, ∃ t r, exec (.challenge port 0 n) s = .next t ∧ t.out = s.out ++ [.doe port r] ∧ (r.drop 1).head? = some 0x03 ∧
        (∃ body, body = bytesOf 32 (sha3 Config.certChain).toNat ++ n ++ drawnBytes 32 s ∧
          r.drop 4 = body ++ mlDsaSign (identitySeed s) body (drawnBytes 32 (useDraw s))) ∧
        t = { s with out := t.out, draws := s.draws + 2 }) ∧
      (∀ slot n, slot ≠ 0 → ∃ r, exec (.challenge port slot n) s = .next (emit (.doe port r) s) ∧ r.drop 1 = [0x7F, 0x01, 0]) ∧
      (∀ i sg n, 6 < i → i ≠ 0xFF → ∃ r, exec (.getMeasurements port i sg n) s = .next (emit (.doe port r) s) ∧ r.drop 1 = [0x7F, 0x01, 0]) ∧
      (∀ i n, 1 ≤ i → i ≤ 6 → ∃ r, exec (.getMeasurements port i false n) s = .next (emit (.doe port r) s) ∧
        r.drop 4 = measurementBytes s i ++ n) ∧
      (∀ n, ∃ r, exec (.getMeasurements port 0 false n) s = .next (emit (.doe port r) s) ∧ r.drop 4 = 6 :: n) ∧
      (∀ n, ∃ r, exec (.getMeasurements port 0xFF false n) s = .next (emit (.doe port r) s) ∧ r.drop 4 = measurementBytes s 1 ++ measurementBytes s 2 ++
        measurementBytes s 3 ++ measurementBytes s 4 ++ measurementBytes s 5 ++ measurementBytes s 6 ++ n) ∧
      (∀ i n, (i ≤ 6 ∨ i = 0xFF) → ∃ t r, exec (.getMeasurements port i true n) s = .next t ∧ t.out = s.out ++ [.doe port r] ∧
        (r.drop 1).head? = some 0x60 ∧ (1 ≤ i → i ≤ 6 → ∃ body, body = measurementBytes s i ++ n ++ drawnBytes 32 s ∧
          r.drop 4 = body ++ mlDsaSign (identitySeed s) body (drawnBytes 32 (useDraw s))) ∧
        t = { s with out := t.out, draws := s.draws + 2 })))

/-- QP_CREATE, QP_MODIFY, QP_DESTROY, CONN_QUERY, object numbers and cached contexts. Rests on spec/12_transport_storage.md R424, spec/12_transport_storage.md R426, spec/12_transport_storage.md R429, spec/12_transport_storage.md R430, spec/12_transport_storage.md R431, spec/12_transport_storage.md R432. -/
def Obligations.TransportObjectsAreManaged : Prop :=
  (∀ c s n, Runs 0x0801 .P false always c s → qpCreateCheck c (taken c s) = none →
    freeOnum (taken c s) (engineFor (taken c s) (c.p 0 1) (c.p 1 1)) = some n →
    (∃ o : Obj, o = { type := c.p 0 1, iid := c.iid, sq := c.p 2 2, rq := c.p 4 2, cq := c.p 6 2, subsys := c.p 8 1 } ∧
      exec (.qpCreate c) s = repliesOk c s { taken c s with xport := { s.xport with objs := s.xport.objs.put n o } } (fld 51 32 n)) ∧
      hasObj s n = false ∧ (∀ h ∈ s.xport.heldNums, h.1 ≠ n) ∧ n / 262144 = engineFor (taken c s) (c.p 0 1) (c.p 1 1)) ∧
  (∀ c s st, Runs 0x0801 .P false always c s → qpCreateCheck c (taken c s) = some (st, 0) → exec (.qpCreate c) s = refusesWith c s st) ∧
  (∀ c s st, Runs 0x0802 .P false always c s → qpModifyCheck c (taken c s) = some (st, 0) → exec (.qpModify c) s = refusesWith c s st) ∧
  (∀ c s o, Runs 0x0802 .P false always c s → c.p 16 1 ≤ 5 → c.p 17 3 = 0 → (c.indirect = false → c.p 0 12 = 0) → c.p 24 24 = 0 →
    (c.p 20 4 ≠ 0 → c.indirect = true ∧ 64 ≤ (c.ind.getD []).length) → objectHere (taken c s) c (c.p 12 4) = true → o = objOf s (c.p 12 4) →
    c.p 20 4 &&& maskAllowed o.type = c.p 20 4 → attrsOk (c.p 20 4) (c.ind.getD []) = true →
    (((c.p 20 4).testBit 7 = true ∧ noKey (taken c s) (rd (c.ind.getD []) 24 4) = true) ∨
      ((c.p 20 4).testBit 8 = true ∧ noKey (taken c s) (rd (c.ind.getD []) 28 4) = true) → exec (.qpModify c) s = refusesWith c s stNotFound) ∧
    (((c.p 20 4).testBit 7 = true → noKey (taken c s) (rd (c.ind.getD []) 24 4) = false) →
      ((c.p 20 4).testBit 8 = true → noKey (taken c s) (rd (c.ind.getD []) 28 4) = false) →
    (transitionOk o.type o.state (c.p 16 1) = false → exec (.qpModify c) s = refusesWith c s stBadState) ∧
    (transitionOk o.type o.state (c.p 16 1) = true → ∃ t, exec (.qpModify c) s = .next t) ∧
    (transitionOk o.type o.state (c.p 16 1) = true → (isTcp o.type = false ∨ (applyAttrs (c.p 20 4) (c.ind.getD []) o).a.rxKey = 0xFFFFFFFF) →
      ∃ t, exec (.qpModify c) s = .next t ∧ (objOf t (c.p 12 4)).state = c.p 16 1 ∧
        (objOf t (c.p 12 4)).a = (applyAttrs (c.p 20 4) (c.ind.getD []) o).a ∧ (objOf t (c.p 12 4)).sq = o.sq ∧
        (∀ m, m ≠ c.p 12 4 → objOf t m = objOf s m)))) ∧
  (∀ c s, Runs 0x0803 .P false always c s → c.p 4 44 = 0 → objectHere (taken c s) c (c.p 0 4) = true →
    ((objOf s (c.p 0 4)).state = 0 ∨ (objOf s (c.p 0 4)).state = 5 →
      ∃ t, exec (.qpDestroy c) s = repliesOk c s t 0 ∧ hasObj t (c.p 0 4) = false ∧ (c.p 0 4, s.tick + 1600000000) ∈ t.xport.heldNums ∧
        (∀ m, m ≠ c.p 0 4 → objOf t m = objOf s m)) ∧
    ((objOf s (c.p 0 4)).state ≠ 0 → (objOf s (c.p 0 4)).state ≠ 5 → exec (.qpDestroy c) s = refusesWith c s stBadState)) ∧
  (∀ c s, Runs 0x0807 .P false always c s → c.p 4 44 = 0 → objectHere (taken c s) c (c.p 0 4) = true →
    exec (.connQuery c) s = repliesOk c s (taken c s) (connSummary (objOf s (c.p 0 4)))) ∧
  (∀ s n, ∃ t, exec (.objectNumberRelease n) s = .next t ∧ t = { s with xport := t.xport } ∧ t.xport.objs = s.xport.objs ∧
    ∀ h, h ∈ t.xport.heldNums ↔ h ∈ s.xport.heldNums ∧ ¬ (h.1 = n ∧ h.2 ≤ s.tick)) ∧
  (∀ s n, hasObj s n = true → n ∉ s.xport.cached → (s.xport.cached.filter fun m => m / 262144 == n / 262144).length ≤ 16384 →
    ∃ t, exec (.transportContextFetch n) s = .next t ∧ n ∈ t.xport.cached ∧ t = { s with xport := { s.xport with cached := t.xport.cached } } ∧
      (t.xport.cached.filter fun m => m / 262144 == n / 262144).length ≤ 16384 ∧
      ∀ m, m / 262144 ≠ n / 262144 → (m ∈ t.xport.cached ↔ m ∈ s.xport.cached)) ∧
  (∀ s n, hasObj s n = false ∨ n ∈ s.xport.cached → exec (.transportContextFetch n) s = .next s)

/-- RoCE v2 packets, congestion notifications, TCP segments and the transport timers. Rests on spec/12_transport_storage.md R427, spec/12_transport_storage.md R430, spec/12_transport_storage.md R433, spec/12_transport_storage.md R434, spec/12_transport_storage.md R435, spec/12_transport_storage.md R436, spec/12_transport_storage.md R437, spec/12_transport_storage.md R454. -/
def Obligations.TransportPacketsAndTimersAct : Prop :=
  (∀ s p off a b, engineTurn s p = false → exec (.rocePacketReceived p off a b) s = .next s ∧ exec (.cnpReceived p off) s = .next s ∧
    exec (.tcpSegmentReceived p off a b) s = .next s) ∧
  (∀ s p off a b, (∃ r ∈ (objOf s (pktObject s p)).reads, r.result = none) → exec (.rocePacketReceived p off a b) s = .next s) ∧
  (∀ s p off a b n, n = pktObject s p → engineTurn s p = true → hasObj s n = true →
    (isRoce (objOf s n).type = false → (∀ r ∈ (objOf s n).reads, r.result ≠ none) →
      ∃ t, exec (.rocePacketReceived p off a b) s = .next t ∧ exec (.cnpReceived p off) s = .next t ∧ t.pkts.has p = false ∧ t.xport.objs = s.xport.objs ∧
        (t.tm.blocks.get (0xFC00 * 2 ^ 20 + n / 262144)).pk = ((s.tm.blocks.get (0xFC00 * 2 ^ 20 + n / 262144)).pk + 1) % 2 ^ 64) ∧
    (isTcp (objOf s n).type = false →
      ∃ t, exec (.tcpSegmentReceived p off a b) s = .next t ∧ t.pkts.has p = false ∧ t.xport.objs = s.xport.objs ∧
        (t.tm.blocks.get (0xFC00 * 2 ^ 20 + n / 262144)).pk = ((s.tm.blocks.get (0xFC00 * 2 ^ 20 + n / 262144)).pk + 1) % 2 ^ 64)) ∧
  (∀ s p off a b n o, n = pktObject s p → o = objOf s n → engineTurn s p = true → (∀ r ∈ o.reads, r.result ≠ none) →
    (hasObj s n = true → isRoce o.type = true) →
    (roceIn (pkt s p).bytes off = none → ∃ t, exec (.rocePacketReceived p off a b) s = .next t ∧ t.pkts.has p = false ∧ t.xport.objs = s.xport.objs) ∧
    (∀ g h, roceIn (pkt s p).bytes off = some (g, h) →
      (rd g 0 1 = 0x81 → exec (.rocePacketReceived p off a b) s = .next s) ∧
      (rd g 0 1 ≠ 0x81 → (hasObj s n = false ∨ receives o = false ∨ g.length < 12) →
        ∃ t, exec (.rocePacketReceived p off a b) s = .next t ∧ t.pkts.has p = false ∧ t.xport.objs = s.xport.objs) ∧
      (rd g 0 1 ≠ 0x81 → hasObj s n = true → receives o = true → 12 ≤ g.length → ∃ t, exec (.rocePacketReceived p off a b) s = .next t) ∧
      (hasObj s n = true → receives o = true → 12 ≤ g.length → o.type = 1 → rd g 0 1 ≠ 0x64 → rd g 0 1 ≠ 0x65 → rd g 0 1 ≠ 0x81 →
        marked (pkt s p) h = true → o.cnpNext ≤ s.tick → ∃ t, exec (.rocePacketReceived p off a b) s = .next t ∧ t.pkts.has p = false ∧
          (objOf t n).replies.length = o.replies.length + 1 ∧ (objOf t n).cnpNext = s.tick + 40000) ∧
      (hasObj s n = true → receives o = true → 12 ≤ g.length → g.length ≤ 9216 → o.type = 0 → marked (pkt s p) h = false →
        (rd g 0 1 = 4 → ofBytesBE ((g.drop 9).take 3) = o.a.rqPsn → g.length - 12 - bits 5 4 (rd g 1 1) ≤ pmtuBytes o → buffersFree s o = true →
          ∃ t m, exec (.rocePacketReceived p off a b) s = .next t ∧ t.pkts.has p = false ∧ (objOf t n).inbound = o.inbound ++ [m] ∧
            m.bytes = (g.drop 12).take (g.length - 12 - bits 5 4 (rd g 1 1)) ∧ m.immValid = false ∧ (m.solicited = true ↔ 128 ≤ rd g 1 1 % 256) ∧
            (objOf t n).a.rqPsn = (o.a.rqPsn + 1) % 2 ^ 24 ∧ (objOf t n).msn = (o.msn + 1) % 2 ^ 24 ∧
            (objOf t n).replies.length = o.replies.length + bits 7 7 (rd g 8 1) ∧ (objOf t n).work = o.work ∧ (objOf t n).state = o.state) ∧
        (rd g 0 1 ≤ 0x0C → ofBytesBE ((g.drop 9).take 3) ≠ o.a.rqPsn → psnGe (ofBytesBE ((g.drop 9).take 3)) o.a.rqPsn = true →
          ∃ t, exec (.rocePacketReceived p off a b) s = .next t ∧ (objOf t n).oos = min (2 ^ 32 - 1) (o.oos + 1) ∧ (objOf t n).nakSent = true ∧
            (objOf t n).a = o.a ∧ (objOf t n).inbound = o.inbound ∧ (objOf t n).state = o.state ∧
            (objOf t n).replies.length = o.replies.length + (if o.nakSent = true then 0 else 1))))) ∧
  (∀ s p off n g h, n = pktObject s p → engineTurn s p = true → (hasObj s n = true → isRoce (objOf s n).type = true) →
    (roceIn (pkt s p).bytes off = none → ∃ t, exec (.cnpReceived p off) s = .next t ∧ t.pkts.has p = false ∧ t.xport.objs = s.xport.objs) ∧
    (roceIn (pkt s p).bytes off = some (g, h) → rd g 0 1 ≠ 0x81 → exec (.cnpReceived p off) s = .next s) ∧
    (roceIn (pkt s p).bytes off = some (g, h) → rd g 0 1 = 0x81 → receives (objOf s n) = true → hasObj s n = true →
    ∃ t, exec (.cnpReceived p off) s = .next t ∧ t.pkts.has p = false ∧
      objOf t n = { objOf s n with cnpRx := min (2 ^ 32 - 1) ((objOf s n).cnpRx + 1) } ∧ ∀ m, m ≠ n → objOf t m = objOf s m)) ∧
  (∀ s p off a b n o, n = pktObject s p → o = objOf s n → engineTurn s p = true → (hasObj s n = true → isTcp o.type = true) →
    (hasObj s n = false ∨ receives o = false → ∃ t, exec (.tcpSegmentReceived p off a b) s = .next t ∧ t.pkts.has p = false ∧ t.xport.objs = s.xport.objs) ∧
    (hasObj s n = true → receives o = true → tcpIn (pkt s p).bytes off = none →
      ∃ t, exec (.tcpSegmentReceived p off a b) s = .next t ∧ t.pkts.has p = false ∧ objOf t n = o ∧
      (t.tm.blocks.get (0xFC01 * 2 ^ 20 + n / 262144)).pk = ((s.tm.blocks.get (0xFC01 * 2 ^ 20 + n / 262144)).pk + 1) % 2 ^ 64) ∧
    (∀ g h, tcpIn (pkt s p).bytes off = some (g, h) → hasObj s n = true → receives o = true →
      (∃ t, exec (.tcpSegmentReceived p off a b) s = .next t) ∧
      (marked (pkt s p) h = false → rd g 12 1 = 0x50 → ofBytesBE ((g.drop 4).take 4) = o.tcp.rcvNxt →
      (rd g 13 1 = 4 → ∃ t, exec (.tcpSegmentReceived p off a b) s = .next t ∧ (objOf t n).state = 5) ∧
      (rd g 13 1 = 16 → o.a.rxKey = 0xFFFFFFFF → o.tcp.rx = [] → o.tcp.ooo = [] → ofBytesBE ((g.drop 8).take 4) = o.tcp.sndUna → 20 < g.length →
        o.tcp.pdu.length + (g.length - 20) < 8 →
        ∃ t, exec (.tcpSegmentReceived p off a b) s = .next t ∧ (objOf t n).tcp.pdu = o.tcp.pdu ++ g.drop 20 ∧ (objOf t n).tcp.rx = [] ∧
          (objOf t n).tcp.rcvNxt = (o.tcp.rcvNxt + (g.length - 20)) % 2 ^ 32 ∧ (objOf t n).tcp.sndUna = o.tcp.sndUna ∧
          [] ∈ (objOf t n).replies ∧ (objOf t n).state = o.state)))) ∧
  (∀ s n, ((objOf s n).ackAt = none → exec (.ackTimeout n) s = .next s) ∧ ((objOf s n).rnrAt = none → exec (.rnrTimerExpiry n) s = .next s) ∧
    ((objOf s n).tcp.rtxAt = none ∨ isTcp (objOf s n).type = false → exec (.tcpRetransmitTimeout n) s = .next s)) ∧
  (∀ s n o d, hasObj s n = true → o = objOf s n →
    (o.ackAt = some d →
      (s.tick < d → exec (.ackTimeout n) s = .next s) ∧
      (d ≤ s.tick → o.retries = 0 → o.type ≠ 1 → ∃ t, exec (.ackTimeout n) s = .next t ∧ (objOf t n).state = 5) ∧
      (d ≤ s.tick → o.retries ≠ 0 → ∃ t, exec (.ackTimeout n) s = .next t ∧ (objOf t n).retries = o.retries - 1 ∧ (objOf t n).formPsn = o.una ∧
        (objOf t n).work = o.work ∧ (objOf t n).state = o.state)) ∧
    (o.rnrAt = some d →
      (s.tick < d → exec (.rnrTimerExpiry n) s = .next s) ∧
      (d ≤ s.tick → o.rnrLeft = 0 → o.type ≠ 1 → ∃ t, exec (.rnrTimerExpiry n) s = .next t ∧ (objOf t n).state = 5) ∧
      (d ≤ s.tick → o.rnrLeft ≠ 0 → ∃ t, exec (.rnrTimerExpiry n) s = .next t ∧ (objOf t n).rnrAt = none ∧
        (objOf t n).rnrLeft = (if o.rnrLeft = 7 then 7 else o.rnrLeft - 1) ∧ (objOf t n).work = o.work ∧ (objOf t n).state = o.state)) ∧
    (o.tcp.rtxAt = some d → isTcp o.type = true →
      (s.tick < d → exec (.tcpRetransmitTimeout n) s = .next s) ∧
      (d ≤ s.tick → ∃ t, exec (.tcpRetransmitTimeout n) s = .next t ∧ (objOf t n).tcp.rto = min 1600000000 (2 * o.tcp.rto) ∧
        (objOf t n).tcp.rtxAt = some (s.tick + min 1600000000 (2 * o.tcp.rto)) ∧ (objOf t n).tcp.out = o.tcp.out ∧ (objOf t n).tcp.sndUna = o.tcp.sndUna ∧
        (o.tcp.sndWnd ≠ 0 → (objOf t n).tcp.sndNxt = o.tcp.sndUna ∧ (objOf t n).tcp.cwnd = o.mss))))

/-- NS_CREATE, NS_DELETE, SLOT_CTL and the events of a storage slot. Rests on spec/12_transport_storage.md R446, spec/12_transport_storage.md R449, spec/12_transport_storage.md R450, spec/12_transport_storage.md R452, spec/13_host_endpoint.md R498, spec/13_host_endpoint.md R499, spec/13_host_endpoint.md R500, spec/13_host_endpoint.md R501. -/
def Obligations.NamespacesAndSlotsFollowTheirCommands : Prop :=
  (∀ c s n, Runs 0x0804 .A false always c s → nsCreateCheck c (taken c s) = none → nsidFor s c = some n →
    (∃ e : Ns, e = { sp := c.p 0 1, lbaf := c.p 2 1, driveNsid := c.p 4 4, start := c.p 8 8, count := c.p 16 8, key := c.p 24 4 } ∧
      exec (.nsCreate c) s = repliesOk c s { taken c s with store := { s.store with nss := s.store.nss.put (nsKey (c.p 1 1) n) e } } (fld 63 32 n)) ∧
    s.store.nss.has (nsKey (c.p 1 1) n) = false ∧ 1 ≤ n ∧ n ≤ 1024) ∧
  (∀ c s st, Runs 0x0804 .A false always c s → nsCreateCheck c (taken c s) = some (st, 0) → exec (.nsCreate c) s = refusesWith c s st) ∧
  (∀ c s st, Runs 0x0806 .A false always c s → slotCtlCheck c (taken c s) = some (st, 0) → exec (.slotCtl c) s = refusesWith c s st) ∧
  (∀ c s, Runs 0x0805 .A false always c s → (c.p 5 43 ≠ 0 → exec (.nsDelete c) s = refusesWith c s stBadParam) ∧
    (c.p 5 43 = 0 → (1024 < c.p 0 4 ∨ s.store.nss.has (nsKey (c.p 4 1) (c.p 0 4)) = false) → exec (.nsDelete c) s = refusesWith c s stNotFound)) ∧
  (∀ c s k n, Runs 0x0805 .A false always c s → c.p 5 43 = 0 → c.p 0 4 ≤ 1024 → k = nsKey (c.p 4 1) (c.p 0 4) → s.store.nss.has k = true →
    n = s.store.nss.get k →
    ((∃ d ∈ s.store.cmds, d.2.ns = k) → exec (.nsDelete c) s = refusesWith c s stBusy) ∧
    ((∀ d ∈ s.store.cmds, d.2.ns ≠ k) → ∃ t, exec (.nsDelete c) s = repliesOk c s t 0 ∧ t.store.nss.has k = false ∧
      (∀ m, m ≠ k → t.store.nss.get m = s.store.nss.get m) ∧
      (∀ l ∈ t.store.lines, l.1 < lineKey n.sp n.driveNsid (n.start * lbaSize n.lbaf / 4096) ∨
        lineKey n.sp n.driveNsid (((n.start + n.count) * lbaSize n.lbaf - 1) / 4096) < l.1) ∧ core { t with store := s.store } = core s)) ∧
  (∀ c s p, Runs 0x0806 .A false always c s → p = c.p 0 1 → p ≤ 15 → bits 1 1 (c.p 1 1) = 0 → bits 7 6 (c.p 1 1) = 0 → bits 3 2 (c.p 1 1) ≠ 3 →
    bits 5 4 (c.p 1 1) ≠ 3 → c.p 2 46 = 0 → s.kiln.blocks.contains (sliceId 10 p) = false →
    (c.p 1 1 % 2 = 1 → (sport s p).present = false → exec (.slotCtl c) s = refusesWith c s stBadState) ∧
    (c.p 1 1 % 2 = 1 → (sport s p).present = true → (sport s p).powerOn = false →
      ∃ t, exec (.slotCtl c) s = repliesOk c s t 0 ∧ (sport t p).powerOn = true ∧ (sport t p).perst = true ∧ (sport t p).onAt = s.tick ∧
        (sport t p).attn = bits 3 2 (c.p 1 1) ∧ t.out = s.out ++ [.slotPower p true false] ∧ (∀ q, q ≠ p → sport t q = sport s q)) ∧
    (c.p 1 1 % 2 = 1 → (sport s p).present = true → (sport s p).powerOn = true →
      exec (.slotCtl c) s = repliesOk c s (setSport p (fun q => { q with attn := bits 3 2 (c.p 1 1), pwrInd := bits 5 4 (c.p 1 1) }) (taken c s)) 0) ∧
    (c.p 1 1 % 2 = 0 → (sport s p).powerOn = false →
      exec (.slotCtl c) s = repliesOk c s (setSport p (fun q => { q with attn := bits 3 2 (c.p 1 1), pwrInd := bits 5 4 (c.p 1 1) }) (taken c s)) 0) ∧
    (c.p 1 1 % 2 = 0 → (sport s p).powerOn = true → (∀ d ∈ s.store.cmds, d.2.sp ≠ p) →
      ∃ t, exec (.slotCtl c) s = repliesOk c s t 0 ∧ driveGone p t) ∧
    (c.p 1 1 % 2 = 0 → (sport s p).powerOn = true → (∃ d ∈ s.store.cmds, d.2.sp = p) → exec (.slotCtl c) s = refusesWith c s stBusy)) ∧
  (∀ s (p : Fin 16), ((sport s p).present = false → ∃ t, exec (.drivePresenceChange p true) s = .next t ∧ (sport t p).present = true ∧
      (sport t p).changed = true ∧ core { t with store := s.store } = core s) ∧
    ((sport s p).present = true → (sport s p).powerOn = true → ∃ t, exec (.drivePresenceChange p false) s = .next t ∧ (sport t p).present = false ∧
      (sport t p).changed = true ∧ driveGone p t) ∧
    ((sport s p).present = true → (sport s p).powerOn = false → exec (.drivePresenceChange p false) s =
      .next (setSport p (fun q => { q with present := false, changed := true }) s)) ∧
    (∀ b, (sport s p).present = b → exec (.drivePresenceChange p b) s = .next s) ∧
    ((sport s p).linkUp = false → exec (.driveLinkDown p) s = .next s) ∧
    ((sport s p).powerOn = false ∨ (sport s p).perst = false → exec (.slotPerstRelease p) s = .next s) ∧
    ((sport s p).powerOn = false ∨ (sport s p).perst = true ∨ (sport s p).linkUp = true → exec (.driveLinkUp p) s = .next s) ∧
    ((sport s p).powerOn = false ∨ (sport s p).linkUp = true ∨ s.tick < (sport s p).onAt + 880000000 → exec (.slotLinkDeadline p) s = .next s) ∧
    (∀ ns, (sport s p).powerOn = false ∨ (sport s p).linkUp = false ∨ (sport s p).ready = true → exec (.driveControllerReady p ns) s = .next s) ∧
    (∃ t, exec (.attentionButton p) s = .next t ∧ (sport t p).button = true ∧ core { t with store := s.store } = core s ∧ t.store.nss = s.store.nss) ∧
    ((sport s p).powerOn = true → ∃ t, exec (.slotPowerFault p) s = .next t ∧ (sport t p).fault = true ∧ driveGone p t) ∧
    ((sport s p).powerOn = false → exec (.slotPowerFault p) s = .next s) ∧
    ((sport s p).linkUp = true → ∃ t, exec (.driveLinkDown p) s = .next t ∧ driveGone p t) ∧
    ((sport s p).powerOn = true → (sport s p).perst = true → (sport s p).onAt + 80000000 ≤ s.tick →
      ∃ t, exec (.slotPerstRelease p) s = .next t ∧ (sport t p).perst = false ∧ t.out = s.out ++ [.slotPower p true true] ∧
        t = { s with store := { s.store with ports := t.store.ports }, out := t.out }) ∧
    (s.tick < (sport s p).onAt + 80000000 → exec (.slotPerstRelease p) s = .next s) ∧
    ((sport s p).powerOn = true → (sport s p).perst = false → (sport s p).linkUp = false →
      exec (.driveLinkUp p) s = .next (setSport p (fun q => { q with linkUp := true }) s)) ∧
    ((sport s p).powerOn = true → (sport s p).linkUp = false → (sport s p).onAt + 880000000 ≤ s.tick →
      ∃ t, exec (.slotLinkDeadline p) s = .next t ∧ (sport t p).fault = true ∧ driveGone p t) ∧
    ((sport s p).powerOn = true → (sport s p).linkUp = true → (sport s p).ready = false → ∀ ns,
      exec (.driveControllerReady p ns) s = .next (setSport p (fun q => { q with ready := true, drives := ns, pwrInd := 1 }) s)))

/-- NVMe commands of a local queue, drive completions and timeouts, and the storage cache. Rests on spec/12_transport_storage.md R447, spec/12_transport_storage.md R448, spec/12_transport_storage.md R449, spec/12_transport_storage.md R456, spec/13_host_endpoint.md R502. -/
def Obligations.StorageCommandsAreServed : Prop :=
  (∀ s onum o i c n, o = objOf s onum → hasObj s onum = true → onum ∈ s.xport.cached → o.type = 6 → o.state = 3 →
    o.work.findIdx? (fun w => w.op == 9 && w.formed == 0 && w.fin.isNone) = some i → c = (o.work.getD i {}).data →
    n = s.store.nss.get (nsKey o.subsys (rd c 4 4)) → rd c 0 1 = 2 → 1 ≤ rd c 4 4 → rd c 4 4 ≤ 1024 →
    s.store.nss.has (nsKey o.subsys (rd c 4 4)) = true → n.gone = false → sportReady s n.sp = true →
    (rd c 40 8 + (rd c 48 2 + 1) ≤ n.count → (rd c 48 2 + 1) * lbaSize n.lbaf ≤ 1048576 → s.store.lines = [] →
      ∃ t, exec (.nvmeCommand onum) s = .next t ∧ t.store.nextCmd = s.store.nextCmd + 1 ∧ (driveCmd t s.store.nextCmd).phase = 2 ∧
        (driveCmd t s.store.nextCmd).lba = rd c 40 8 ∧ (driveCmd t s.store.nextCmd).blocks = rd c 48 2 + 1 ∧
        (driveCmd t s.store.nextCmd).deadline = s.tick + 1600000000 ∧
        t.out = s.out ++ [.drive n.sp s.store.nextCmd 2 (n.start + rd c 40 8) (rd c 48 2 + 1) []] ∧
        (∀ k, k ≠ s.store.nextCmd → driveCmd t k = driveCmd s k) ∧ t.store.lines = [] ∧ t.store.nss = s.store.nss) ∧
    (n.count < rd c 40 8 + (rd c 48 2 + 1) → ∃ t, exec (.nvmeCommand onum) s = .next t ∧ t.store = s.store ∧ t.out = s.out)) ∧
  (∀ s onum, (hasObj s onum = false ∨ (objOf s onum).state ≠ 3 ∨ onum ∉ s.xport.cached → exec (.nvmeCommand onum) s = .next s) ∧
    ((objOf s onum).type = 6 → (objOf s onum).work.findIdx? (fun w => w.op == 9 && w.formed == 0 && w.fin.isNone) = none →
      exec (.nvmeCommand onum) s = .next s) ∧
    ((objOf s onum).type ≠ 6 → (objOf s onum).capsules = [] ∨ 128 ≤ (s.store.cmds.filter fun c => c.2.onum == onum && c.2.phase == 0).length →
      exec (.nvmeCommand onum) s = .next s) ∧
    (∀ c inline rest, hasObj s onum = true → (objOf s onum).state = 3 → onum ∈ s.xport.cached → (objOf s onum).type ≠ 6 →
      (s.store.cmds.filter fun c => c.2.onum == onum && c.2.phase == 0).length < 128 → (objOf s onum).capsules = (c, inline) :: rest →
      exec (.nvmeCommand onum) s = .next (serveCommand onum c inline (setObj onum (fun o => { o with capsules := rest }) s)))) ∧
  (∀ s (sp : Fin 16) id st data, ∃ t, exec (.driveCompletion sp id st data) s = .next t) ∧
  (∀ s id, s.store.cmds.has id = false ∨ (driveCmd s id).phase ≠ 2 → exec (.driveCommandTimeout id) s = .next s) ∧
  (∀ s (sp : Fin 16) id c st data, s.store.cmds.has id = true → c = driveCmd s id → c.phase = 2 → c.sp = sp.val →
    (st ≠ 0 ∨ c.op ≠ 2 → ∃ t, exec (.driveCompletion sp id st data) s = .next t ∧ t.store.cmds.has id = false ∧
      (∀ k, k ≠ id → driveCmd t k = driveCmd s k)) ∧
    (st = 0 → c.op = 2 → encrypted s c = false → hasObj s c.onum = true → (objOf s c.onum).type = 6 → (objOf s c.onum).state = 3 →
      (fnOf s (objOf s c.onum).iid).bme = true →
      ∃ t, exec (.driveCompletion sp id st data) s = .next t ∧ t.store.cmds.has id = false ∧
        t.out = s.out ++ [.dma (objOf s c.onum).iid c.host (cmdLen s c) (ofBytes (mergeRead s c data)) false])) ∧
  (∀ s (sp : Fin 16) id st data, (s.store.cmds.has id = false ∨ (driveCmd s id).phase ≠ 2 ∨ (driveCmd s id).sp ≠ sp) →
    exec (.driveCompletion sp id st data) s = .next s) ∧
  (∀ s id, s.store.cmds.has id = true → (driveCmd s id).phase = 2 →
    (s.tick < (driveCmd s id).deadline → exec (.driveCommandTimeout id) s = .next s) ∧
    ((driveCmd s id).deadline ≤ s.tick → ∃ t, exec (.driveCommandTimeout id) s = .next t ∧ t.store.cmds.has id = false ∧
      .driveAbort (driveCmd s id).sp id ∈ t.out)) ∧
  (∀ s line ok data, s.store.fills.find? (fun f => f.1 == line) = some (line, ok) →
    ∃ t, exec (.storageCacheFill line data) s = .next t ∧ t.store.fills = s.store.fills.eraseP (fun f => f.1 == line) ∧
      (ok = false → t.store.lines = s.store.lines) ∧
      (ok = true → t.store.lines.get line = data.take 4096) ∧
      (ok = true → s.store.lines.length < 16777216 → ∀ k, k ≠ line → t.store.lines.get k = s.store.lines.get k) ∧
      t.draws = s.draws + (if ok = true ∧ 16777216 ≤ s.store.lines.length then 1 else 0) ∧
      t = { s with store := { s.store with lines := t.store.lines, fills := t.store.fills }, draws := t.draws }) ∧
  (∀ s line data, (∀ f ∈ s.store.fills, f.1 ≠ line) → exec (.storageCacheFill line data) s = .next s)

/-- Frames of the peal bus, the token, joining, contention and the bus's timers. Rests on spec/15_peal_bus.md R541, spec/15_peal_bus.md R542, spec/15_peal_bus.md R543, spec/15_peal_bus.md R546, spec/15_peal_bus.md R547, spec/15_peal_bus.md R548, spec/15_peal_bus.md R549, spec/15_peal_bus.md R552, spec/15_peal_bus.md R553, spec/15_peal_bus.md R554, spec/15_peal_bus.md R558, spec/10_time_and_gates.md R383. -/
def Obligations.ThePealBusPassesItsToken : Prop :=
  (∀ s b bad, s.peal.enabled = false → exec (.token b bad) s = .next s ∧ exec (.solicit b bad) s = .next s ∧ exec (.joinReq b bad) s = .next s ∧
    exec (.joinAck b bad) s = .next s ∧ exec (.claim b bad) s = .next s ∧ exec (.leave b bad) s = .next s ∧ exec (.fireAnnounce b bad) s = .next s ∧
    exec (.fireCancel b bad) s = .next s ∧ exec (.fireArmed b bad) s = .next s ∧ exec (.time b bad) s = .next s ∧ exec (.alert b bad) s = .next s ∧
    exec (.telemetry b bad) s = .next s) ∧
  (∀ s b bad i ty, s.peal.enabled = true → frameRow ty b bad i →
    (bad = true ∨ frameValid ty b = false ∨ (ty < 0x80 ∧ lenOf ty = (0, 0) ∧ ty ≠ 2 ∧ ty ≠ 3 ∧ ty ≠ 5 ∧ ty ≠ 6) →
    ∃ t, exec i s = .next t ∧ t.peal.map = s.peal.map ∧ t.peal.member = s.peal.member ∧ t.peal.joining = s.peal.joining ∧ t.sets = s.sets ∧
      t.time = s.time ∧ t.out = s.out ∧ t.peal.log = s.peal.log ∧
      (t.tm.blocks.get (0xFA00 * 2 ^ 20 + 2)).pk = ((s.tm.blocks.get (0xFA00 * 2 ^ 20 + 2)).pk + 1) % 2 ^ 64) ∧
    (bad = false → frameValid ty b = true → (ty < 7 ∨ 0x10 ≤ ty ∧ ty ≤ 0x12 ∨ 0x20 ≤ ty ∧ ty ≤ 0x22 ∨ 0x80 ≤ ty) → ty ≠ 0 →
      (fSrc b = s.peal.node → ¬ (ty = 1 ∧ s.peal.selfToken = true ∧ fDst b = s.peal.node) →
        ∃ t, exec i s = .next t ∧ t.peal.dupId = true ∧ t.peal.enabled = false ∧ t.peal.member = false ∧ t.peal.joining = false ∧ t.sets = s.sets ∧
          t.time = s.time ∧ t.out = s.out) ∧
      (fSrc b ≠ s.peal.node → ¬ forUs b s → ∃ t, exec i s = .next t ∧ t.peal.member = s.peal.member ∧ t.peal.joining = s.peal.joining ∧
        t.peal.log = s.peal.log ∧ t.sets = s.sets ∧ t.time = s.time ∧ t.out = s.out))) ∧
  (∀ s ty b bad, ([1, 2, 3, 4, 5, 6, 0x10, 0x11, 0x12, 0x20, 0x22] : List Nat).contains ty = true → exec (.alert (BitVec.ofNat 8 ty :: b) bad) s = .next s) ∧
  (∀ s b, hears 1 b s →
    (fDst b = s.peal.node → s.peal.member = true → s.peal.leave = false → s.peal.node < 512 →
      ∃ t ty dst pl, exec (.token b false) s = .next t ∧ sentFirst ty dst pl s t ∧ t.peal.tokenBy = some (s.tick + 800000 * s.peal.tokenTo) ∧
        t.peal.tokenAt = some s.tick ∧ t.peal.member = true ∧ t.sets.epoch = s.sets.epoch) ∧
    (fDst b = s.peal.node → s.peal.member = true → s.peal.leave = true →
      ∃ t, exec (.token b false) s = .next t ∧ sentFirst 6 0x8000 [] s t ∧ t.peal.member = false ∧ t.peal.enabled = false ∧ t.peal.leave = false) ∧
    (fDst b ≠ s.peal.node ∨ s.peal.member = false → ∃ t, exec (.token b false) s = .next t ∧ t.peal.lastHolder = fSrc b ∧ t.peal.member = s.peal.member ∧
      t.out = s.out ∧ t.peal.tokenBy = s.peal.tokenBy ∧
      (rd b 6 2 < 2 ^ 15 → ∀ n, n ∈ t.peal.map ↔ n = fSrc b ∨ n ∈ s.peal.map) ∧
      (bits 15 15 (rd b 6 2) = 1 → ∀ n, n ∈ t.peal.map ↔ n ≠ bits 8 0 (rd b 6 2) ∧ (n = fSrc b ∨ n ∈ s.peal.map)))) ∧
  (∀ s b, hears 2 b s → forUs b s → s.peal.joining = true → ∃ t c, exec (.solicit b false) s = .next t ∧ t.peal.contend = some c ∧ c.type = 3 ∧ c.dst = fSrc b ∧
    c.attempt = 1 ∧ s.tick + 32000 ≤ c.from_ ∧ c.until_ = some (s.tick + 800000) ∧ t.out = s.out) ∧
  (∀ s b, hears 2 b s → s.peal.joining = false → ∃ t, exec (.solicit b false) s = .next t ∧ t.peal.map = s.peal.map ∧ t.peal.joining = false ∧ t.out = s.out) ∧
  (∀ s b, hears 3 b s → (∀ d, s.peal.window = some d → d < s.tick) →
    ∃ t, exec (.joinReq b false) s = .next t ∧ t.peal.map = s.peal.map ∧ t.peal.window = s.peal.window ∧ t.out = s.out) ∧
  (∀ s b d, hears 3 b s → forUs b s → s.peal.window = some d → s.tick ≤ d →
    ∃ t, exec (.joinReq b false) s = .next t ∧ sentFirst 4 bcast (bytesOf 2 (fSrc b)) s t ∧ t.peal.window = none ∧ fSrc b ∈ t.peal.map) ∧
  (∀ s b, hears 4 b s → s.peal.joining = false → ∃ t, exec (.joinAck b false) s = .next t ∧ t.peal.member = s.peal.member ∧ t.peal.joining = false ∧
    bits 8 0 (rd b 6 2) ∈ t.peal.map ∧ t.out = s.out) ∧
  (∀ s b, hears 4 b s → s.peal.joining = true →
    (bits 8 0 (rd b 6 2) = s.peal.node → forUs b s → ∃ t, exec (.joinAck b false) s = .next t ∧ t.peal.member = true ∧ t.peal.joining = false ∧
      s.peal.node ∈ t.peal.map ∧ t.peal.contend = none) ∧
    (bits 8 0 (rd b 6 2) ≠ s.peal.node → ∃ t, exec (.joinAck b false) s = .next t ∧ t.peal.member = s.peal.member ∧ t.peal.joining = true ∧
      bits 8 0 (rd b 6 2) ∈ t.peal.map)) ∧
  (∀ s b, hears 5 b s → ∃ t, exec (.claim b false) s = .next t ∧ fSrc b ∈ t.peal.map ∧ t.peal.recovering = false ∧ t.peal.member = s.peal.member ∧ t.out = s.out) ∧
  (∀ s b, hears 6 b s → ∃ t, exec (.leave b false) s = .next t ∧ fSrc b ∉ t.peal.map ∧ t.peal.member = s.peal.member ∧ t.out = s.out) ∧
  (∀ s b, hears 0x20 b s → (s.peal.timeSrcEn = false ∨ fSrc b ≠ s.peal.timeSrc) →
    ∃ t, exec (.time b false) s = .next t ∧ t.time = s.time ∧ t.peal.map = s.peal.map ∧ t.out = s.out) ∧
  (∀ s b, hears 0x20 b s → forUs b s → s.peal.timeSrcEn = true → fSrc b = s.peal.timeSrc →
    ∃ t, exec (.time b false) s = .next t ∧ t.time.pealValid = true ∧ t.time.pealSrc.toNat = fSrc b ∧ t.time.pealAt = s.tick ∧ t.time.now = s.time.now ∧
      t.time.pealOfs = BitVec.ofNat 64 (ofSigned 64 (satSigned 64 (DevTime.diff s.time.now
        ((DevTime.ofFull (rd b 6 16)).add ((s.time.pealDelay.toNat * 2 ^ 24 : Nat) : Int)))))) ∧
  (∀ s ty b, (ty = 0x21 ∨ 0x80 ≤ ty) → ty < 256 → hears ty b s → forUs b s → ∃ t, exec (.alert (BitVec.ofNat 8 ty :: b) false) s = .next t ∧
    (t.peal.log.get s.peal.logNext).take (7 + fLen b) = BitVec.ofNat 8 ty :: b.take (6 + fLen b) ∧ t.peal.logNext = (s.peal.logNext + 1) % 64 ∧
      t.peal.map = s.peal.map) ∧
  (∀ s b, hears 0x22 b s → forUs b s → ∃ t, exec (.telemetry b false) s = .next t ∧
    (t.peal.log.get s.peal.logNext).take (7 + fLen b) = 0x22 :: b.take (6 + fLen b) ∧ t.peal.logNext = (s.peal.logNext + 1) % 64 ∧ t.out = s.out) ∧
  (∀ s c, s.peal.contend = some c → s.peal.enabled = true → c.from_ ≤ s.tick → (∀ d, c.until_ = some d → s.tick ≤ d) →
    (c.attempt < 16 → ∃ t c', exec (.pealContendSend true) s = .next t ∧ t.peal.contend = some c' ∧ c'.attempt = c.attempt + 1 ∧
      s.tick + 32000 ≤ c'.from_ ∧ t.out = s.out) ∧
    (16 ≤ c.attempt → ∃ t, exec (.pealContendSend true) s = .next t ∧ t.peal.contend = none ∧ t.out = s.out) ∧
    (∃ t, exec (.pealContendSend false) s = .next t ∧ t.peal.contend = none ∧ sentFirst c.type c.dst [] s t ∧
      (c.type = 5 → s.peal.member = false → t.peal.member = true ∧ t.peal.joining = false ∧ s.peal.node ∈ t.peal.map))) ∧
  (∀ s c d b, s.peal.contend = some c → s.peal.enabled = true → c.from_ ≤ s.tick → c.until_ = some d → d < s.tick →
    exec (.pealContendSend b) s = .next { s with peal := { s.peal with contend := none } }) ∧
  (∀ s b, s.peal.contend = none ∨ s.peal.enabled = false → exec (.pealContendSend b) s = .next s) ∧
  (∀ s, (s.peal.watch = none → exec .pealSuccessorWatch s = .next s) ∧ (s.peal.tokenBy = none ∨ s.peal.member = false → exec .pealTokenTimeout s = .next s) ∧
    (s.peal.window = none → exec .pealJoinWindowEnd s = .next s) ∧
    (s.peal.enabled = false ∨ (s.peal.joining = false ∧ s.peal.recovering = false) ∨ (∃ c, s.peal.contend = some c ∧ c.type = 5) →
      exec .pealSilence s = .next s)) ∧
  (∀ s c b, s.peal.contend = some c → s.tick < c.from_ → exec (.pealContendSend b) s = .next s) ∧
  (∀ s n k d, s.peal.watch = some (n, k, d) →
    (s.tick < d → exec .pealSuccessorWatch s = .next s) ∧
    (d ≤ s.tick → k = 1 → n ≠ s.peal.node → ∃ t u, exec .pealSuccessorWatch s = .next t ∧ sentFirst 1 n [0, 0] s t ∧ t.peal.watch = some (n, 2, u) ∧
      t.peal.map = s.peal.map) ∧
    (d ≤ s.tick → k ≠ 1 → ∃ t next, exec .pealSuccessorWatch s = .next t ∧ n ∉ t.peal.map ∧ sentFirst 1 next (bytesOf 2 (2 ^ 15 + n)) s t ∧
      (n ≠ s.peal.node → next ≠ n))) ∧
  (∀ s d, s.peal.tokenBy = some d → s.peal.member = true →
    (s.tick < d → exec .pealTokenTimeout s = .next s) ∧
    (d ≤ s.tick → s.tick < s.peal.lastRx + 1600000 → ∃ t, exec .pealTokenTimeout s = .next t ∧ t.peal.member = false ∧ t.peal.joining = true ∧
      s.peal.node ∉ t.peal.map) ∧
    (d ≤ s.tick → s.peal.lastRx + 1600000 ≤ s.tick → ∃ t, exec .pealTokenTimeout s = .next t ∧ t.peal.member = true ∧ t.peal.recovering = true ∧
      t.peal.tokenBy = none)) ∧
  (∀ s d, s.peal.window = some d → (s.tick < d → exec .pealJoinWindowEnd s = .next s) ∧
    (d ≤ s.tick → ∃ t, exec .pealJoinWindowEnd s = .next t ∧ t.peal.window = none ∧ sentFirst 1 (successor s.peal.map s.peal.node) [0, 0] s t)) ∧
  (∀ s, s.peal.enabled = true → (s.peal.joining = true ∨ s.peal.recovering = true) →
    (s.tick < s.peal.busy + 1600000 → exec .pealSilence s = .next s) ∧
    (s.peal.busy + 1600000 ≤ s.tick → (∀ c, s.peal.contend = some c → c.type ≠ 5) →
      ∃ t c, exec .pealSilence s = .next t ∧ t.peal.contend = some c ∧ c.type = 5 ∧ c.dst = 0x8000 ∧ c.until_ = none ∧ t.out = s.out))

/-- PEAL_JOIN, PEAL_LEAVE, PEAL_STATUS, PEAL_SEND, firing announcements, and telemetry. Rests on spec/05_sets_and_firing.md R166, spec/05_sets_and_firing.md R168, spec/15_peal_bus.md R555, spec/15_peal_bus.md R556, spec/15_peal_bus.md R557, spec/15_peal_bus.md R560, spec/15_peal_bus.md R562, spec/15_peal_bus.md R567, spec/18_electrical_package.md R663. -/
def Obligations.PealCommandsAndFirings : Prop :=
  (∀ c s, Runs 0x0C01 .A false always c s →
    exec (.pealJoin c) s = if s.peal.nodeValid = true ∧ s.peal.member = false ∧ s.peal.joining = false then
        repliesOk c s { taken c s with peal := { s.peal with joining := true, enabled := true, busy := s.tick } } 0
      else refusesWith c s stBadState) ∧
  (∀ c s, Runs 0x0C02 .A false always c s →
    (s.peal.member = true → exec (.pealLeave c) s = repliesOk c s { taken c s with peal := { s.peal with leave := true } } 0) ∧
    (s.peal.member = false → s.peal.joining = true → ∃ t, exec (.pealLeave c) s = repliesOk c s t 0 ∧ t.peal.joining = false ∧ t.peal.enabled = false ∧
      t.peal.member = false ∧ s.peal.node ∉ t.peal.map ∧ core { t with peal := s.peal } = core s) ∧
    (s.peal.member = false → s.peal.joining = false → exec (.pealLeave c) s = refusesWith c s stBadState)) ∧
  (∀ c s, Runs 0x0C03 .A false always c s → ∃ r, exec (.pealStatus c) s = repliesOk c s (taken c s) r ∧ bits 63 32 r = pealSts s % 2 ^ 32 ∧
    bits 127 96 r = s.peal.rotation % 2 ^ 32 ∧ bits 95 87 r = (s.peal.map.filter (· < s.peal.node)).length % 2 ^ 9 ∧ bits 86 64 r = 0 ∧ bits 31 0 r = 0) ∧
  (∀ c s, Runs 0x0C04 .A false always c s → (¬(c.p 0 1 = 0x21 ∨ c.p 0 1 = 0x22 ∨ 0x80 ≤ c.p 0 1) ∨ 32 < c.p 1 1 ∨ (c.p 0 1 < 0x80 ∧ c.p 1 1 = 0) ∨
    bits 14 9 (c.p 2 2) ≠ 0) → exec (.pealSend c) s = refusesWith c s stBadParam) ∧
  (∀ c s, Runs 0x0C04 .A false always c s → (c.p 0 1 = 0x21 ∨ c.p 0 1 = 0x22 ∨ 0x80 ≤ c.p 0 1) → c.p 1 1 ≤ 32 → (c.p 0 1 < 0x80 → c.p 1 1 ≠ 0) →
    bits 14 9 (c.p 2 2) = 0 →
    exec (.pealSend c) s = if s.peal.member = false then refusesWith c s stBadState else if 16 ≤ s.peal.sends.length then refusesWith c s stNoResource
      else repliesOk c s { taken c s with peal := { s.peal with sends := s.peal.sends ++ [(c.p 0 1, c.p 2 2, bytesOf (c.p 1 1) (c.p 4 32))] } } 0) ∧
  (∀ s b, hears 0x10 b s → forUs b s → ∃ t, exec (.fireAnnounce b false) s = .next t ∧ t.sets.epoch = s.sets.epoch ∧ t.sets.a = s.sets.a ∧ t.sets.b = s.sets.b ∧
    ((shadowState s = 2 ∧ (shadowSet s).podGen = annGen b ∧ annTarget b % 2 = (s.sets.epoch + 1) % 2 ∧
        10000 * 2 ^ 32 ≤ DevTime.diff (annInstant b) s.time.now) → t.sets.arm = some { instant := annInstant b, target := annTarget b, pod := true }) ∧
    (¬ (shadowState s = 2 ∧ (shadowSet s).podGen = annGen b ∧ annTarget b % 2 = (s.sets.epoch + 1) % 2 ∧
        10000 * 2 ^ 32 ≤ DevTime.diff (annInstant b) s.time.now) → t.sets.arm = s.sets.arm) ∧
    (s.peal.member = true → ∃ pl, t.peal.armed = some (fSrc b, annInstant b, pl) ∧ pl.length = 7) ∧ (s.peal.member = false → t.peal.armed = s.peal.armed)) ∧
  (∀ s b a, hears 0x11 b s → forUs b s → s.sets.arm = some a →
    (a.pod = true → a.instant = annInstant b → a.target = annTarget b → 10000 * 2 ^ 32 ≤ DevTime.diff a.instant s.time.now →
      ∃ t, exec (.fireCancel b false) s = .next t ∧ t.sets = { s.sets with arm := none } ∧ t.peal.armed = none) ∧
    ((a.pod = false ∨ a.instant ≠ annInstant b ∨ a.target ≠ annTarget b ∨ DevTime.diff a.instant s.time.now < 10000 * 2 ^ 32) →
      ∃ t, exec (.fireCancel b false) s = .next t ∧ t.sets = s.sets ∧ t.out = s.out)) ∧
  (∀ s b, hears 0x11 b s → s.sets.arm = none → ∃ t, exec (.fireCancel b false) s = .next t ∧ t.sets = s.sets ∧ t.out = s.out) ∧
  (∀ s b, hears 0x12 b s → (∀ a, s.sets.arm = some a → a.pod = false ∨ a.initiator = false ∨ rd b 6 2 ≠ a.target ∨ rd b 8 4 ≠ (shadowSet s).podGen) →
    ∃ t, exec (.fireArmed b false) s = .next t ∧ t.peal.fireMap = s.peal.fireMap ∧ t.sets = s.sets ∧ t.out = s.out) ∧
  (∀ s b a, hears 0x12 b s → forUs b s → s.sets.arm = some a → a.pod = true → a.initiator = true → rd b 6 2 = a.target → rd b 8 4 = (shadowSet s).podGen →
    ∃ t, exec (.fireArmed b false) s = .next t ∧ t.peal.fireMap.get (fSrc b) = (if rd b 12 1 = 0xFF then 1 else 2) ∧
      (∀ n, n ≠ fSrc b → t.peal.fireMap.get n = s.peal.fireMap.get n) ∧ t.sets = s.sets) ∧
  (∀ s a, s.sets.arm = some a → a.pod = true → a.initiator = true → a.announced = false →
    (DevTime.diff a.instant s.time.now ≤ 10000 * 2 ^ 32 → ∃ t, exec .fireAnnounceLate s = .next t ∧ t.sets = { s.sets with arm := none } ∧
      t.peal.announce = none) ∧
    (10000 * 2 ^ 32 < DevTime.diff a.instant s.time.now → exec .fireAnnounceLate s = .next s)) ∧
  (∀ s, (∀ a, s.sets.arm = some a → a.pod = false ∨ a.initiator = false ∨ a.announced = true) → exec .fireAnnounceLate s = .next s) ∧
  (∀ s, (s.pwr.telemPeriod = 0 ∨ s.tick < s.pwr.telemNext) → exec .telemetryPeriod s = .next s) ∧
  (∀ s, s.pwr.telemPeriod ≠ 0 → s.pwr.telemNext ≤ s.tick →
    ∃ t, exec .telemetryPeriod s = .next t ∧ t.pwr = { s.pwr with telemNext := s.pwr.telemNext + 800000 * s.pwr.telemPeriod } ∧ t.out = s.out ∧
      (s.pwr.telemPeal = true → s.peal.member = true → ∃ f, t.peal = { s.peal with telem := some f } ∧ f.length = 8) ∧
      ((s.pwr.telemPeal = false ∨ s.peal.member = false) → t.peal = s.peal))

/-- KILN_STATUS, KILN_SCHEDULE, KILN_RUN and FAIL_POLICY, and what a patrol scrub counts. Rests on spec/16_reliability_selftest_ageing.md R570, spec/16_reliability_selftest_ageing.md R571, spec/16_reliability_selftest_ageing.md R580, spec/16_reliability_selftest_ageing.md R590, spec/16_reliability_selftest_ageing.md R591, spec/16_reliability_selftest_ageing.md R592, spec/16_reliability_selftest_ageing.md R593, spec/16_reliability_selftest_ageing.md R594, spec/16_reliability_selftest_ageing.md R606. -/
def Obligations.KilnCommandsFollowTheLifeCycle : Prop :=
  (∀ c s, Runs 0x0901 .V false always c s → ∃ r, exec (.kilnStatus c) s = repliesOk c s (taken c s) r ∧
    bits 103 96 r = s.kiln.queue.length % 256 ∧ bits 95 64 r = s.kiln.passes % 2 ^ 32 ∧ bits 63 32 r = s.kiln.fails % 2 ^ 32 ∧
    bits 31 16 r = s.kiln.lastSlice % 2 ^ 16 ∧ bits 15 14 r = s.kiln.lastResult % 4 ∧ bits 13 0 r = 0 ∧
    (kilnCurrent s = none → bits 127 112 r = 0xFFFF) ∧
    ∀ sl st tg, kilnCurrent s = some (sl, st, tg) → bits 127 112 r = sl % 2 ^ 16 ∧ bits 111 110 r = st % 4 ∧ bits 109 109 r = bit tg) ∧
  (∀ c s, Runs 0x0902 .A false always c s →
    (c.p 0 1 ≤ 3 → (c.p 4 4 = 0 ∨ ([1000, 10000, 100, 1000].getD (c.p 0 1) 0 ≤ c.p 4 4 ∧ c.p 4 4 ≤ 86400000)) →
      ∃ t, exec (.kilnSchedule c) s = repliesOk c s t 0 ∧ kilnPeriod t (c.p 0 1) = c.p 4 4 ∧
        (∀ d, d ≠ c.p 0 1 → kilnPeriod t d = kilnPeriod s d) ∧ core { t with kiln := s.kiln } = core s ∧ t.kiln.queue = s.kiln.queue ∧
        t.kiln.core = s.kiln.core ∧ t.kiln.ways = s.kiln.ways ∧ ∀ k, (t.kiln.banks.get k).stage = (s.kiln.banks.get k).stage ∧
          (t.kiln.banks.get k).spare = (s.kiln.banks.get k).spare ∧ (t.kiln.banks.get k).move = (s.kiln.banks.get k).move) ∧
    ((3 < c.p 0 1 ∨ (c.p 4 4 ≠ 0 ∧ (c.p 4 4 < [1000, 10000, 100, 1000].getD (c.p 0 1) 0 ∨ 86400000 < c.p 4 4))) →
      exec (.kilnSchedule c) s = refusesWith c s stBadParam)) ∧
  (∀ c s, Runs 0x0903 .A true always c s →
    (s.sec.lc ≠ 1 → s.sec.lc ≠ 3 → exec (.kilnRun c) s = refusesWith c s stDenied) ∧
    ((s.sec.lc = 1 ∨ s.sec.lc = 3) →
      (sliceExists (c.p 0 2) = false → exec (.kilnRun c) s = refusesWith c s stBadParam) ∧
      (sliceExists (c.p 0 2) = true → runnable s (c.p 0 2) = false → exec (.kilnRun c) s = refusesWith c s stBadState) ∧
      (c.p 0 2 ∈ s.kiln.blocks → runnable s (c.p 0 2) = false) ∧
      (sliceExists (c.p 0 2) = true → c.p 0 2 / 4096 < 4 → runnable s (c.p 0 2) = true →
        exec (.kilnRun c) s = .next (if resourceBusy s (c.p 0 2) = true ∨ queuedFor s (c.p 0 2) = true
          then { taken c s with kiln := { s.kiln with asked := s.kiln.asked ++ [(c.p 0 2, c.fn, c.sec)] } }
          else beginTest (c.p 0 2) false { taken c s with kiln := { s.kiln with asked := s.kiln.asked ++ [(c.p 0 2, c.fn, c.sec)] } })) ∧
      (sliceExists (c.p 0 2) = true → c.p 0 2 ∉ s.kiln.blocks → 4 ≤ c.p 0 2 / 4096 →
        exec (.kilnRun c) s = if setActive s = true then refusesWith c s stBadState
          else repliesOk c s { taken c s with kiln := { s.kiln with runs := c.p 0 2 :: s.kiln.runs } } 0) ∧
      (∀ i, i < 80 → c.p 0 2 = 2 * 4096 + i → c.p 0 2 ∉ s.kiln.blocks → s.kiln.core = none → s.kiln.queue = [] →
        exec (.kilnRun c) s = .next { taken c s with kiln := { s.kiln with
          core := some (i, false, false, s.tick), asked := s.kiln.asked ++ [(c.p 0 2, c.fn, c.sec)] } }))) ∧
  (∀ c s, Runs 0x0904 .A true always c s →
    (c.p 0 1 ≤ 10 → c.p 1 1 ≤ 1 → s.kiln.holds = [] → exec (.failPolicy c) s =
      repliesOk c s { taken c s with kiln := { s.kiln with policy := s.kiln.policy.put (c.p 0 1) (c.p 1 1 == 1) } } 0) ∧
    ((10 < c.p 0 1 ∨ 1 < c.p 1 1) → exec (.failPolicy c) s = refusesWith c s stBadParam)) ∧
  (∀ c s, Runs 0x0904 .A true always c s → ∃ t, exec (.failPolicy c) s = .next t) ∧
  (∀ c s sl, Runs 0x0904 .A true always c s → s.kiln.holds = [sl] → c.p 0 1 ≤ 10 → c.p 1 1 ≤ 1 →
    (c.p 0 1 ≠ sl / 4096 ∧ retires s sl = false ∨ c.p 0 1 = sl / 4096 ∧ c.p 1 1 = 0 ∨ sl = 7 * 4096 ∨ sl = 9 * 4096) → exec (.failPolicy c) s =
      repliesOk c s { taken c s with kiln := { s.kiln with policy := s.kiln.policy.put (c.p 0 1) (c.p 1 1 == 1) } } 0) ∧
  (∀ c s sl, Runs 0x0904 .A true always c s → s.kiln.holds = [sl] → s.kiln.holdService = false → c.p 1 1 = 1 →
    (sl / 4096 = 2 ∨ sl / 4096 = 3 ∨ sl / 4096 = 5) → c.p 0 1 = sl / 4096 →
    ∃ t, exec (.failPolicy c) s = repliesOk c s t 0 ∧ t.kiln.holds = [] ∧ t.kiln.blocks = sl :: s.kiln.blocks ∧ t.fw = { s.fw with cause := 3 } ∧
      t.pwr = { s.pwr with stage := 10, released := true } ∧ core { t with kiln := s.kiln, pwr := s.pwr, fw := s.fw } = core s) ∧
  (∀ s a b, exec (.patrolScrub a b) s = .next { s with kiln := { s.kiln with
    err := (s.kiln.err.put 3 ((s.kiln.err.get 3 + a) % 2 ^ 64)).put 4 ((s.kiln.err.get 4 + b) % 2 ^ 64) } })

/-- Scheduled steps of banks, the buffer, cores and fragment ways, their tests, copies and drains, and targeted tests. Rests on spec/16_reliability_selftest_ageing.md R575, spec/16_reliability_selftest_ageing.md R577, spec/16_reliability_selftest_ageing.md R578, spec/16_reliability_selftest_ageing.md R580, spec/16_reliability_selftest_ageing.md R581, spec/16_reliability_selftest_ageing.md R582, spec/16_reliability_selftest_ageing.md R583, spec/16_reliability_selftest_ageing.md R585, spec/16_reliability_selftest_ageing.md R587, spec/16_reliability_selftest_ageing.md R588, spec/16_reliability_selftest_ageing.md R594. -/
def Obligations.KilnStepsTestAndMoveUnits : Prop :=
  (∀ s (k : Fin 16), kilnDue s 0 k (s.kiln.banks.get k).last = false → exec (.kilnBankStep k) s = .next s) ∧
  (∀ s (k : Fin 16) r, s.kiln.banks.get k = r → kilnDue s 0 k r.last = true →
    (r.stage ≠ 0 → exec (.kilnBankStep k) s =
      .next { s with kiln := { s.kiln with banks := s.kiln.banks.put k { r with last := kilnInstants s 0 k } } }) ∧
    (r.stage = 0 → (r.spare = none ∨ queuedFor s (17 * k) = true) → exec (.kilnBankStep k) s =
      .next { s with kiln := { s.kiln with banks := s.kiln.banks.put k { r with last := kilnInstants s 0 k } } }) ∧
    (∃ t, exec (.kilnBankStep k) s = .next t) ∧
    (r.stage = 0 → r.spare.isSome = true → queuedFor s (17 * k) = false → s.kiln.asked = [] → exec (.kilnBankStep k) s =
      .next { s with kiln := { s.kiln with banks := s.kiln.banks.put k { r with last := kilnInstants s 0 k, stage := 1, move := none } } })) ∧
  (∀ s, (kilnDue s 1 0 s.kiln.buf.last = false → exec .kilnBufferStep s = .next s) ∧
    (kilnDue s 1 0 s.kiln.buf.last = true → (s.kiln.buf.stage ≠ 0 ∨ s.kiln.buf.spare = none ∨ queuedFor s 4096 = true) → exec .kilnBufferStep s =
      .next { s with kiln := { s.kiln with buf := { s.kiln.buf with last := kilnInstants s 1 0 } } }) ∧
    (∃ t, exec .kilnBufferStep s = .next t) ∧
    (kilnDue s 1 0 s.kiln.buf.last = true → s.kiln.buf.stage = 0 → s.kiln.buf.spare.isSome = true → queuedFor s 4096 = false → s.kiln.asked = [] →
      exec .kilnBufferStep s =
        .next { s with kiln := { s.kiln with buf := { s.kiln.buf with last := kilnInstants s 1 0, stage := 1, move := none } } })) ∧
  (∀ s (k sp : Nat) r, k < 16 → sp < 17 → s.fw.ready = true → s.kiln.banks.get k = r → r.stage = 1 → r.spare = some sp → s.kiln.runs = [] →
    s.kiln.asked = [] →
    (∃ t, exec (.kilnTestDone (17 * k + sp) none) s = .next t ∧ t.kiln.passes = min (2 ^ 32 - 1) (s.kiln.passes + 1) ∧ t.kiln.lastResult = 1 ∧
      t.kiln.lastSlice = 17 * k + sp ∧ t.kiln.banks.get k = (if bankPlaced s k r.next = true then
          { r with stage := 2, move := some { logical := r.next, phys := r.physOf r.next } }
        else { r with map := r.map.put r.next sp, next := (r.next + 1) % 16, spare := some (r.physOf r.next), stage := 0, move := none }) ∧
      core { t with kiln := s.kiln } = core s) ∧
    (∀ f, ∃ t, exec (.kilnTestDone (17 * k + sp) (some f)) s = .next t ∧ t.kiln.fails = min (2 ^ 32 - 1) (s.kiln.fails + 1) ∧
      t.kiln.lastResult = 2 ∧ t.kiln.banks.get k = { r with stage := 0, spare := none, retired := sp :: r.retired } ∧
      t.kiln.gone = s.kiln.gone ++ [17 * k + sp] ∧ core { t with kiln := s.kiln } = core s)) ∧
  (∀ s sl f, (s.fw.ready = false ∨ sliceExists sl = false) → exec (.kilnTestDone sl f) s = .next s) ∧
  (∀ s sl, ∃ t, exec (.kilnCopyDone sl) s = .next t) ∧
  (∀ s sl, (s.fw.ready = false ∨ sliceExists sl = false ∨ 2 ≤ sl / 4096 ∨ (rotOf s sl).stage ≠ 2 ∨ (rotOf s sl).move = none) →
    exec (.kilnCopyDone sl) s = .next s) ∧
  (∀ s, (s.kiln.buf.move = none ∨ s.kiln.buf.stage ≠ 2 ∨ ∃ m, s.kiln.buf.move = some m ∧ m.copyAt = none) → exec .kilnBufferCopy s = .next s) ∧
  (∀ s k m sp r u, k < 16 → s.fw.ready = true → s.kiln.banks.get k = r → r.stage = 2 → r.move = some m → m.copyAt = none → m.targeted = false →
    r.spare = some sp → s.kiln.asked = [] →
    u = { r with map := r.map.put m.logical sp, next := (m.logical + 1) % 16, spare := some m.phys, stage := 0, move := none } →
    exec (.kilnCopyDone (17 * k)) s = .next { s with kiln := { s.kiln with banks := s.kiln.banks.put k u } }) ∧
  (∀ s m sp, s.fw.ready = true → s.kiln.buf.stage = 2 → s.kiln.buf.move = some m → s.kiln.buf.spare = some sp → s.kiln.asked = [] →
    (∀ d, m.copyAt = some d → exec .kilnBufferCopy s = .next (if d ≤ s.tick then
      { s with kiln := { s.kiln with buf := { s.kiln.buf with move := some { m with copyAt := none } } } } else s)) ∧
    (m.copyAt = none → exec (.kilnCopyDone 4096) s = .next { s with kiln := { s.kiln with buf := { s.kiln.buf with
      map := s.kiln.buf.map.put m.logical sp, next := if m.targeted then s.kiln.buf.next else (m.logical + 1) % 8,
      spare := if m.targeted then none else some m.phys, stage := if m.targeted then 3 else 0, move := if m.targeted then some m else none } } })) ∧
  (∀ s (k : Nat) m r, k < 16 → m.phys < 17 → s.fw.ready = true → s.kiln.banks.get k = r → r.stage = 3 → r.move = some m → s.kiln.runs = [] →
    (∃ t, exec (.kilnTestDone (17 * k + m.phys) none) s = .next t ∧
      t.kiln.banks.get k = { r with stage := 0, move := none, spare := some m.phys } ∧ core { t with kiln := s.kiln } = core s) ∧
    (∀ f, ∃ t, exec (.kilnTestDone (17 * k + m.phys) (some f)) s = .next t ∧ core { t with kiln := s.kiln } = core s ∧
      t.kiln.banks.get k = { r with stage := 0, move := none, spare := none, retired := m.phys :: r.retired } ∧
      t.kiln.gone = s.kiln.gone ++ [17 * k + m.phys])) ∧
  (∀ s, (kilnDue s 2 0 s.kiln.coreLast = false → exec .kilnCipherStep s = .next s) ∧
    (kilnDue s 2 0 s.kiln.coreLast = true → (s.kiln.core.isSome = true ∨ queuedFor s 8192 = true ∨ ∀ c, c < 80 → coreUsable s c = false) →
      exec .kilnCipherStep s = .next { s with kiln := { s.kiln with coreLast := kilnInstants s 2 0 } }) ∧
    (kilnDue s 2 0 s.kiln.coreLast = true → s.kiln.core = none → queuedFor s 8192 = false → s.kiln.coreNext < 80 → coreUsable s s.kiln.coreNext = true →
      ∃ u : Kiln, u = { s.kiln with coreLast := kilnInstants s 2 0, core := some (s.kiln.coreNext, false, false, s.tick), coreNext := (s.kiln.coreNext + 1) % 80 } ∧
        exec .kilnCipherStep s = .next { s with kiln := u })) ∧
  (∀ s, (s.kiln.core = none ∨ ∃ c tg d, s.kiln.core = some (c, true, tg, d)) → exec .kilnCoreDrained s = .next s ∧ exec .kilnCipherDrainTimeout s = .next s) ∧
  (∀ s c d, s.kiln.core = some (c, false, true, d) → exec .kilnCipherDrainTimeout s = .next s) ∧
  (∀ s, (∃ t, exec .kilnCoreDrained s = .next t) ∧ ∃ t, exec .kilnCipherDrainTimeout s = .next t) ∧
  (∀ s c tg d, s.kiln.core = some (c, false, tg, d) → s.kiln.asked = [] →
    exec .kilnCoreDrained s = .next (if coreOps s c = [] then { s with kiln := { s.kiln with core := some (c, true, tg, d) } } else s) ∧
    (tg = false → exec .kilnCipherDrainTimeout s = .next (if d + 1600000 ≤ s.tick ∧ coreOps s c ≠ [] then
      { s with kiln := { s.kiln with core := none, err := s.kiln.err.put 10 ((s.kiln.err.get 10 + 1) % 2 ^ 64) } } else s))) ∧
  (∀ s c tg d, s.fw.ready = true → c < 80 → s.kiln.core = some (c, true, tg, d) →
    (∃ t, exec (.kilnTestDone (8192 + c) none) s = .next t ∧ t.kiln.core = none ∧ t.kiln.passes = min (2 ^ 32 - 1) (s.kiln.passes + 1) ∧
      t.kiln.blocks = s.kiln.blocks ∧ core { t with kiln := s.kiln } = core s) ∧
    (∀ f, retires s (8192 + c) = true → ∃ t, exec (.kilnTestDone (8192 + c) (some f)) s = .next t ∧ t.kiln.core = none ∧
      t.kiln.blocks = (8192 + c) :: s.kiln.blocks ∧ core { t with kiln := s.kiln } = core s) ∧
    (∀ f, retires s (8192 + c) = false → ∃ t, exec (.kilnTestDone (8192 + c) (some f)) s = .next t ∧ 8192 + c ∈ t.kiln.holds ∧
      t.pwr.safe = true ∧ t.pwr.released = false ∧ t.pwr.hxReleased = true)) ∧
  (∀ s (k : Fin 16), (kilnDue s 3 k (s.kiln.wayLast.get k) = false → exec (.kilnFragWayStep k) s = .next s) ∧
    (kilnDue s 3 k (s.kiln.wayLast.get k) = true → (s.kiln.ways.has k = true ∨ queuedFor s (3 * 4096 + 4 * k) = true) → exec (.kilnFragWayStep k) s =
      .next { s with kiln := { s.kiln with wayLast := s.kiln.wayLast.put k (kilnInstants s 3 k) } }) ∧
    (∀ w, kilnDue s 3 k (s.kiln.wayLast.get k) = true → s.kiln.ways.has k = false → queuedFor s (3 * 4096 + 4 * k) = false → s.kiln.asked = [] →
      s.kiln.wayNext.get k = w → w < 4 → wayUsable s (k * 4096 + w) = true → ∃ u : Kiln,
      u = { s.kiln with wayLast := s.kiln.wayLast.put k (kilnInstants s 3 k), ways := s.kiln.ways.put k (w, false, s.tick), wayNext := s.kiln.wayNext.put k ((w + 1) % 4) } ∧
      exec (.kilnFragWayStep k) s = .next { s with kiln := u })) ∧
  (∀ s (k : Fin 16), (s.kiln.ways.has k = false → exec (.kilnWayDrainTimeout k) s = .next s) ∧ (∃ t, exec (.kilnFragWayStep k) s = .next t) ∧
    ∃ t, exec (.kilnWayDrainTimeout k) s = .next t) ∧
  (∀ s (k : Fin 16) w tg d, s.kiln.ways.has k = true → s.kiln.ways.get k = (w, tg, d) →
    ((wayLive s k w = [] ∨ s.tick < d + 8000000) → exec (.kilnWayDrainTimeout k) s = .next s) ∧
    (wayLive s k w ≠ [] → d + 8000000 ≤ s.tick →
      (tg = false → s.kiln.asked = [] → exec (.kilnWayDrainTimeout k) s = .next { s with kiln := { s.kiln with
        ways := s.kiln.ways.del k, err := s.kiln.err.put 10 ((s.kiln.err.get 10 + 1) % 2 ^ 64) } }) ∧
      (tg = true → ∃ t, exec (.kilnWayDrainTimeout k) s = .next t ∧ t.frags = (wayLive s k w).foldl SMap.del s.frags))) ∧
  (∀ s sl, (s.fw.ready = false ∨ targetedBusy s sl = true) → exec (.targetedTestStart sl) s = .next s) ∧
  (∀ s sl, s.kiln.queue.find? (sameResource sl) ≠ some sl → (∀ a ∈ s.kiln.asked, a.1 ≠ sl) → exec (.targetedTestStart sl) s = .next s) ∧
  (∀ s sl, s.fw.ready = true → targetedBusy s sl = false → s.kiln.queue.find? (sameResource sl) = some sl →
    exec (.targetedTestStart sl) s = .next (beginTest sl true { s with kiln := { s.kiln with queue := s.kiln.queue.filter (· != sl) } })) ∧
  (∀ s sl, s.fw.ready = true → targetedBusy s sl = false → queuedFor s sl = false → (∃ a ∈ s.kiln.asked, a.1 = sl) → resourceBusy s sl = false →
    exec (.targetedTestStart sl) s = .next (beginTest sl false s)) ∧
  (∀ s i q, s.fw.ready = true → i < 80 → s.kiln.queue = (8192 + i) :: q → targetedBusy s (8192 + i) = false →
    ∃ t, exec (.targetedTestStart (8192 + i)) s = .next t ∧ t.kiln.core = some (i, true, true, s.tick) ∧
      t.kiln.queue = q.filter (· != 8192 + i) ∧ core { t with kiln := s.kiln } = core s) ∧
  (∀ s k u b sp r q, s.fw.ready = true → k < 16 → u < 17 → s.kiln.queue = (17 * k + u) :: q → s.kiln.banks.get k = r → r.stage = 0 →
    r.move = none → r.spare = some sp → sp ≠ u → r.logicalOf 16 u = some b → bankPlaced s k b = true →
    ∃ t, exec (.targetedTestStart (17 * k + u)) s = .next t ∧ t.kiln.queue = q.filter (· != 17 * k + u) ∧
      t.kiln.banks.get k = { r with stage := 2, move := some { logical := b, phys := u, targeted := true } } ∧ core { t with kiln := s.kiln } = core s)

/-- Samples of the ageing monitors, re-planning with its forecast, and MARGIN_READ. Rests on spec/16_reliability_selftest_ageing.md R597, spec/16_reliability_selftest_ageing.md R598, spec/16_reliability_selftest_ageing.md R599, spec/16_reliability_selftest_ageing.md R600, spec/16_reliability_selftest_ageing.md R601, spec/03_arithmetic.md R97, spec/18_electrical_package.md R635. -/
def Obligations.MarginsAreSampledAndReplanned : Prop :=
  (∀ s (k : Fin 24) rings taps steps, (s.fw.ready = false ∨ s.tick < (s.age.get k).sampleAt) →
    exec (.crazingSample k rings taps steps) s = .next s) ∧
  (∀ s (k : Fin 24) rings taps steps, (rings.length, taps.length, steps.length) ≠ monitorCounts k → exec (.crazingSample k rings taps steps) s = .next s) ∧
  (∀ s (k : Fin 24) rings taps steps ms, s.fw.ready = true → (s.age.get k).sampleAt ≤ s.tick → (rings.length, taps.length, steps.length) = monitorCounts k →
    ms = margins k (regionOf s k).tj rings taps steps →
    ∃ t a, exec (.crazingSample k rings taps steps) s = .next t ∧ t.age.get k = a ∧ (a.margin, a.kind, a.index) ∈ ms ∧ (∀ y ∈ ms, a.margin ≤ y.1) ∧
      a.least = some (match (s.age.get k).least with | some l => min l a.margin | none => a.margin) ∧ a.sampleAt = s.tick + 48000000000 ∧
      a.guard = (s.age.get k).guard ∧ (∀ j, j ≠ k.val → t.age.get j = s.age.get j) ∧ core { t with age := s.age } = core s ∧
      ((fuseWarn k : Int) ≤ a.margin → t.out = s.out ∧ t.fns = s.fns)) ∧
  (∀ s (k : Fin 24), (s.fw.ready = false ∨ s.tick < (s.age.get k).planAt) → exec (.guardbandReplan k) s = .next s) ∧
  (∀ s (k : Fin 24) a, s.fw.ready = true → s.age.get k = a → a.planAt ≤ s.tick →
    ∃ t g f, exec (.guardbandReplan k) s = .next t ∧ (t.age.get k).guard = g ∧ (t.age.get k).forecast = f ∧
      (t.age.get k).history = (g :: a.history).take 90 ∧ (t.age.get k).least = none ∧ (t.age.get k).planAt = a.planAt + 69120000000000 ∧
      (t.age.get k).margin = a.margin ∧
      (∀ o, a.history[89]? = some o → o < g → f = min 0xFFFF ((fuseGuardMax k - g) * 90 / (g - o))) ∧
      ((a.history[89]? = none ∨ ∃ o, a.history[89]? = some o ∧ g ≤ o) → f = 0xFFFF) ∧
      (a.least = none → g = a.guard ∧ t.pwr = s.pwr) ∧
      (∀ m, a.least = some m → (fuseTarget k : Int) ≤ m → m < fuseTarget k + 240 → g = a.guard ∧ t.pwr = s.pwr) ∧
      (∀ m, a.least = some m → (fuseTarget k : Int) + 240 ≤ m → raisable s k = true → g = if 80 ≤ a.guard then a.guard - 80 else a.guard) ∧
      (raisable s k = false → g = a.guard ∧ t.pwr = s.pwr) ∧
      (∀ (m : Int) (n : Nat), a.least = some m → m < fuseTarget k → raisable s k = true →
        n = (if fuseGuardMax k < a.guard + 80 * ((((fuseTarget k : Int) - m).toNat + 79) / 80) then (fuseGuardMax k - a.guard) / 80
          else (((fuseTarget k : Int) - m).toNat + 79) / 80) →
        (∀ b ∈ neighbours k, (regionOf s b).vdd = 0 ∨ (regionOf s k).vdd + 5 * n ≤ (regionOf s b).vdd + 40) →
        g = a.guard + 80 * n ∧ (740 ≤ (regionOf s k).setMv → (regionOf s k).setMv + 5 * n ≤ 860 →
          (regionOf t k).setMv = (regionOf s k).setMv + 5 * n))) ∧
  (∀ c s, Runs 0x0905 .A false always c s →
    (23 < c.p 0 1 → exec (.marginRead c) s = refusesWith c s stBadParam) ∧
    (∀ a, c.p 0 1 ≤ 23 → s.age.get (c.p 0 1) = a → ∃ r, exec (.marginRead c) s = repliesOk c s (taken c s) r ∧
      bits 15 0 r = ofSigned 16 a.margin ∧ bits 31 16 r = ofSigned 16 (a.least.getD a.margin) ∧ bits 47 32 r = a.guard % 65536 ∧
      bits 63 48 r = fuseGuardMax (c.p 0 1) ∧ bits 79 64 r = a.forecast % 65536 ∧ bits 87 86 r = a.kind % 4 ∧ bits 85 80 r = a.index % 64))

/-- FI_SET, FI_CLEAR, the injection window of a lane, and the release of a held frame. Rests on spec/16_reliability_selftest_ageing.md R602, spec/16_reliability_selftest_ageing.md R603, spec/16_reliability_selftest_ageing.md R604, spec/16_reliability_selftest_ageing.md R605, spec/17_security_lifecycle.md R613. -/
def Obligations.InjectionIsArmedOpenedAndEnded : Prop :=
  (∀ c s, Runs 0x0A01 .A false always c s →
    (¬ (s.sec.lc = 1 ∨ s.sec.lc = 3 ∨ (s.sec.lc = 2 ∧ s.sec.fiField = true)) → exec (.fiSet c) s = refusesWith c s stDenied) ∧
    ((s.sec.lc = 1 ∨ s.sec.lc = 3 ∨ (s.sec.lc = 2 ∧ s.sec.fiField = true)) →
      ((1024 ≤ c.p 0 2 ∨ 1 < c.p 2 1 ∨ c.p 3 1 ≠ 0 ∨ c.p 10 2 < 100 ∨ 1000000000 ≤ bits 61 32 (c.p 12 16) ∨ c.p 28 4 = 0 ∨ 3600000000 < c.p 28 4 ∨
        c.p 32 16 ≠ 0) → exec (.fiSet c) s = refusesWith c s stBadParam) ∧
      (∀ n f, c.p 0 2 = n → s.fi.get n = f → n < 1024 → c.p 2 1 ≤ 1 → c.p 3 1 = 0 → 100 ≤ c.p 10 2 → bits 79 62 (c.p 12 16) = 0 →
        bits 61 32 (c.p 12 16) < 1000000000 → 0 < c.p 28 4 → c.p 28 4 ≤ 3600000000 → c.p 32 16 = 0 →
        (c.p 8 2 ≠ 0 → (setActive s = false ∨ ownerFeature (activeSet s) 2 n ≠ 4) → exec (.fiSet c) s = refusesWith c s stConflict) ∧
        ((c.p 8 2 = 0 ∨ (setActive s = true ∧ ownerFeature (activeSet s) 2 n = 4)) → f.held = none →
          ∃ t, exec (.fiSet c) s = repliesOk c s t 0 ∧ core { t with fi := s.fi } = core s ∧ t.fi = s.fi.put n { f with
            armed := true, open_ := false, rx := c.p 2 1 == 1, drop := c.p 4 2, corrupt := c.p 6 2, reorder := c.p 8 2, delay := c.p 10 2,
            start := DevTime.ofFull (c.p 12 16), duration := c.p 28 4 }) ∧
        ((c.p 8 2 = 0 ∨ (setActive s = true ∧ ownerFeature (activeSet s) 2 n = 4)) → ∃ t, exec (.fiSet c) s = .next t) ∧
        (∀ bs bad st d, (c.p 8 2 = 0 ∨ (setActive s = true ∧ ownerFeature (activeSet s) 2 n = 4)) → f.held = some (bs, bad, st, d) → f.rx = false →
          ∃ t tail, exec (.fiSet c) s = repliesOk c s t 0 ∧ t.out = s.out ++ .laneFrame n bs :: tail ∧ (t.fi.get n).held = none ∧
            (t.fi.get n).armed = true)))) ∧
  (∀ c s f, Runs 0x0A02 .A false always c s → s.fi.get (c.p 0 2) = f →
    (1024 ≤ c.p 0 2 → exec (.fiClear c) s = refusesWith c s stBadParam) ∧
    (c.p 0 2 < 1024 → f.held = none →
      exec (.fiClear c) s = repliesOk c s { taken c s with fi := s.fi.put (c.p 0 2) { f with armed := false, open_ := false } } 0) ∧
    (c.p 0 2 < 1024 → ∃ t, exec (.fiClear c) s = .next t) ∧
    (∀ bs bad st d, c.p 0 2 < 1024 → f.held = some (bs, bad, st, d) → f.rx = false → exec (.fiClear c) s = repliesOk c s { taken c s with
      fi := s.fi.put (c.p 0 2) { f with held := none, armed := false, open_ := false }, out := s.out ++ [.laneFrame (c.p 0 2) bs] } 0)) ∧
  (∀ s (n : Fin 1024) f, s.fi.get n = f →
    (f.armed = true → f.open_ = false → 0 ≤ DevTime.diff s.time.now f.start → DevTime.diff s.time.now f.start < 1000 * f.duration * 2 ^ 32 →
      exec (.fiWindowOpen n) s = .next { s with fi := s.fi.put n { f with open_ := true } }) ∧
    ((f.armed = false ∨ f.open_ = true ∨ DevTime.diff s.time.now f.start < 0 ∨ 1000 * f.duration * 2 ^ 32 ≤ DevTime.diff s.time.now f.start) →
      exec (.fiWindowOpen n) s = .next s) ∧
    (f.armed = true → f.held = none → exec (.fiWindowEnd n) s = .next (if 1000 * f.duration * 2 ^ 32 ≤ DevTime.diff s.time.now f.start then
      { s with fi := s.fi.put n { f with armed := false, open_ := false } } else s)) ∧
    (f.armed = false → exec (.fiWindowEnd n) s = .next s) ∧ (∃ t, exec (.fiWindowEnd n) s = .next t) ∧
    (∀ bs bad st d, f.held = some (bs, bad, st, d) → d ≤ s.tick → f.rx = true → exec (.fiHoldRelease n) s =
      .next (takeWhole n st bs bad { s with fi := s.fi.put n { f with held := none } })) ∧
    (f.held = none → exec (.fiHoldRelease n) s = .next s) ∧
    (∀ bs bad st d, f.held = some (bs, bad, st, d) → (s.tick < d → exec (.fiHoldRelease n) s = .next s) ∧
      (d ≤ s.tick → f.rx = false → exec (.fiHoldRelease n) s =
        .next { s with fi := s.fi.put n { f with held := none }, out := s.out ++ [.laneFrame n bs] })))
end

