-- ==== Sys2Proof/Laws/State.lean ====
section
/-! SUPPORT. The maps of State, and what each update of one piece leaves of the others. -/
namespace Sys2Proof.Machine

@[simp] theorem SMap.get_nil {α : Type} [Inhabited α] (k : Nat) : SMap.get ([] : SMap α) k = default := rfl

theorem SMap.get_put {α : Type} [Inhabited α] (m : SMap α) (k j : Nat) (a : α) :
    (m.put k a).get j = if k = j then a else m.get j := by
  induction m with
  | nil => rfl
  | cons c m ih =>
    obtain ⟨i, b⟩ := c
    unfold SMap.put
    split
    · rfl
    · split
      · rename_i h
        subst h
        simp only [SMap.get]
        split <;> rfl
      · rename_i h
        simp only [SMap.get]
        by_cases e : i = j
        · rw [if_pos e, if_pos e, if_neg (by omega)]
        · rw [if_neg e, if_neg e, ih]

@[simp] theorem SMap.get_put_same {α : Type} [Inhabited α] (m : SMap α) (k : Nat) (a : α) : (m.put k a).get k = a := by
  rw [SMap.get_put, if_pos rfl]

theorem SMap.get_put_ne {α : Type} [Inhabited α] (m : SMap α) {k j : Nat} (a : α) (h : k ≠ j) : (m.put k a).get j = m.get j := by
  rw [SMap.get_put, if_neg h]

@[simp] theorem SMap.get_upd_same {α : Type} [Inhabited α] (m : SMap α) (k : Nat) (f : α → α) : (m.upd k f).get k = f (m.get k) :=
  SMap.get_put_same ..

theorem SMap.get_upd_ne {α : Type} [Inhabited α] (m : SMap α) {k j : Nat} (f : α → α) (h : k ≠ j) : (m.upd k f).get j = m.get j :=
  SMap.get_put_ne _ _ h

theorem SMap.has_put {α : Type} (m : SMap α) (k j : Nat) (a : α) : (m.put k a).has j = (k == j || m.has j) := by
  induction m with
  | nil => rfl
  | cons c m ih =>
    obtain ⟨i, b⟩ := c
    unfold SMap.put
    split
    · rfl
    · split
      · rename_i h; subst h; simp [SMap.has]
      · simp only [SMap.has, ih, ← Bool.or_assoc, Bool.or_comm (i == j)]

@[simp] theorem fnOf_setFn_same (i : Nat) (f : Fn → Fn) (s : State) : fnOf (setFn i f s) i = f (fnOf s i) := SMap.get_upd_same ..

theorem fnOf_setFn_ne {i j : Nat} (f : Fn → Fn) (s : State) (h : i ≠ j) : fnOf (setFn i f s) j = fnOf s j := SMap.get_upd_ne _ _ h

/-! One update, every other field: each is as it was. -/

@[simp] theorem emit_tick (o : Output) (s : State) : (emit o s).tick = s.tick := rfl
@[simp] theorem emit_draws (o : Output) (s : State) : (emit o s).draws = s.draws := rfl
@[simp] theorem emit_pending (o : Output) (s : State) : (emit o s).pending = s.pending := rfl
@[simp] theorem emit_hbm (o : Output) (s : State) : (emit o s).hbm = s.hbm := rfl
@[simp] theorem emit_pwr (o : Output) (s : State) : (emit o s).pwr = s.pwr := rfl
@[simp] theorem emit_fw (o : Output) (s : State) : (emit o s).fw = s.fw := rfl
@[simp] theorem emit_time (o : Output) (s : State) : (emit o s).time = s.time := rfl
@[simp] theorem emit_gates (o : Output) (s : State) : (emit o s).gates = s.gates := rfl
@[simp] theorem emit_strobe (o : Output) (s : State) : (emit o s).strobe = s.strobe := rfl
@[simp] theorem emit_fns (o : Output) (s : State) : (emit o s).fns = s.fns := rfl
@[simp] theorem emit_ports (o : Output) (s : State) : (emit o s).ports = s.ports := rfl
@[simp] theorem emit_sec (o : Output) (s : State) : (emit o s).sec = s.sec := rfl
@[simp] theorem emit_lanes (o : Output) (s : State) : (emit o s).lanes = s.lanes := rfl
@[simp] theorem emit_pkts (o : Output) (s : State) : (emit o s).pkts = s.pkts := rfl
@[simp] theorem emit_nextPkt (o : Output) (s : State) : (emit o s).nextPkt = s.nextPkt := rfl
@[simp] theorem emit_sets (o : Output) (s : State) : (emit o s).sets = s.sets := rfl
@[simp] theorem emit_frags (o : Output) (s : State) : (emit o s).frags = s.frags := rfl
@[simp] theorem emit_holdQ (o : Output) (s : State) : (emit o s).holdQ = s.holdQ := rfl
@[simp] theorem emit_punts (o : Output) (s : State) : (emit o s).punts = s.punts := rfl
@[simp] theorem emit_ctxs (o : Output) (s : State) : (emit o s).ctxs = s.ctxs := rfl
@[simp] theorem emit_seqs (o : Output) (s : State) : (emit o s).seqs = s.seqs := rfl
@[simp] theorem emit_learns (o : Output) (s : State) : (emit o s).learns = s.learns := rfl
@[simp] theorem emit_reports (o : Output) (s : State) : (emit o s).reports = s.reports := rfl
@[simp] theorem emit_ages (o : Output) (s : State) : (emit o s).ages = s.ages := rfl
@[simp] theorem emit_tm (o : Output) (s : State) : (emit o s).tm = s.tm := rfl
@[simp] theorem emit_cnts (o : Output) (s : State) : (emit o s).cnts = s.cnts := rfl
@[simp] theorem emit_latches (o : Output) (s : State) : (emit o s).latches = s.latches := rfl
@[simp] theorem emit_parity (o : Output) (s : State) : (emit o s).parity = s.parity := rfl
@[simp] theorem emit_deliveries (o : Output) (s : State) : (emit o s).deliveries = s.deliveries := rfl
@[simp] theorem emit_launchHeld (o : Output) (s : State) : (emit o s).launchHeld = s.launchHeld := rfl
@[simp] theorem emit_turns (o : Output) (s : State) : (emit o s).turns = s.turns := rfl
@[simp] theorem emit_ciph (o : Output) (s : State) : (emit o s).ciph = s.ciph := rfl
@[simp] theorem emit_keys (o : Output) (s : State) : (emit o s).keys = s.keys := rfl
@[simp] theorem emit_xport (o : Output) (s : State) : (emit o s).xport = s.xport := rfl
@[simp] theorem emit_store (o : Output) (s : State) : (emit o s).store = s.store := rfl
@[simp] theorem emit_kiln (o : Output) (s : State) : (emit o s).kiln = s.kiln := rfl
@[simp] theorem emit_age (o : Output) (s : State) : (emit o s).age = s.age := rfl
@[simp] theorem emit_fi (o : Output) (s : State) : (emit o s).fi = s.fi := rfl
@[simp] theorem emit_peal (o : Output) (s : State) : (emit o s).peal = s.peal := rfl

@[simp] theorem setFn_tick (i : Nat) (f : Fn → Fn) (s : State) : (setFn i f s).tick = s.tick := rfl
@[simp] theorem setFn_draws (i : Nat) (f : Fn → Fn) (s : State) : (setFn i f s).draws = s.draws := rfl
@[simp] theorem setFn_out (i : Nat) (f : Fn → Fn) (s : State) : (setFn i f s).out = s.out := rfl
@[simp] theorem setFn_pending (i : Nat) (f : Fn → Fn) (s : State) : (setFn i f s).pending = s.pending := rfl
@[simp] theorem setFn_hbm (i : Nat) (f : Fn → Fn) (s : State) : (setFn i f s).hbm = s.hbm := rfl
@[simp] theorem setFn_pwr (i : Nat) (f : Fn → Fn) (s : State) : (setFn i f s).pwr = s.pwr := rfl
@[simp] theorem setFn_fw (i : Nat) (f : Fn → Fn) (s : State) : (setFn i f s).fw = s.fw := rfl
@[simp] theorem setFn_time (i : Nat) (f : Fn → Fn) (s : State) : (setFn i f s).time = s.time := rfl
@[simp] theorem setFn_gates (i : Nat) (f : Fn → Fn) (s : State) : (setFn i f s).gates = s.gates := rfl
@[simp] theorem setFn_strobe (i : Nat) (f : Fn → Fn) (s : State) : (setFn i f s).strobe = s.strobe := rfl
@[simp] theorem setFn_ports (i : Nat) (f : Fn → Fn) (s : State) : (setFn i f s).ports = s.ports := rfl
@[simp] theorem setFn_sec (i : Nat) (f : Fn → Fn) (s : State) : (setFn i f s).sec = s.sec := rfl
@[simp] theorem setFn_lanes (i : Nat) (f : Fn → Fn) (s : State) : (setFn i f s).lanes = s.lanes := rfl
@[simp] theorem setFn_pkts (i : Nat) (f : Fn → Fn) (s : State) : (setFn i f s).pkts = s.pkts := rfl
@[simp] theorem setFn_nextPkt (i : Nat) (f : Fn → Fn) (s : State) : (setFn i f s).nextPkt = s.nextPkt := rfl
@[simp] theorem setFn_sets (i : Nat) (f : Fn → Fn) (s : State) : (setFn i f s).sets = s.sets := rfl
@[simp] theorem setFn_frags (i : Nat) (f : Fn → Fn) (s : State) : (setFn i f s).frags = s.frags := rfl
@[simp] theorem setFn_holdQ (i : Nat) (f : Fn → Fn) (s : State) : (setFn i f s).holdQ = s.holdQ := rfl
@[simp] theorem setFn_punts (i : Nat) (f : Fn → Fn) (s : State) : (setFn i f s).punts = s.punts := rfl
@[simp] theorem setFn_ctxs (i : Nat) (f : Fn → Fn) (s : State) : (setFn i f s).ctxs = s.ctxs := rfl
@[simp] theorem setFn_seqs (i : Nat) (f : Fn → Fn) (s : State) : (setFn i f s).seqs = s.seqs := rfl
@[simp] theorem setFn_learns (i : Nat) (f : Fn → Fn) (s : State) : (setFn i f s).learns = s.learns := rfl
@[simp] theorem setFn_reports (i : Nat) (f : Fn → Fn) (s : State) : (setFn i f s).reports = s.reports := rfl
@[simp] theorem setFn_ages (i : Nat) (f : Fn → Fn) (s : State) : (setFn i f s).ages = s.ages := rfl
@[simp] theorem setFn_tm (i : Nat) (f : Fn → Fn) (s : State) : (setFn i f s).tm = s.tm := rfl
@[simp] theorem setFn_cnts (i : Nat) (f : Fn → Fn) (s : State) : (setFn i f s).cnts = s.cnts := rfl
@[simp] theorem setFn_latches (i : Nat) (f : Fn → Fn) (s : State) : (setFn i f s).latches = s.latches := rfl
@[simp] theorem setFn_parity (i : Nat) (f : Fn → Fn) (s : State) : (setFn i f s).parity = s.parity := rfl
@[simp] theorem setFn_deliveries (i : Nat) (f : Fn → Fn) (s : State) : (setFn i f s).deliveries = s.deliveries := rfl
@[simp] theorem setFn_launchHeld (i : Nat) (f : Fn → Fn) (s : State) : (setFn i f s).launchHeld = s.launchHeld := rfl
@[simp] theorem setFn_turns (i : Nat) (f : Fn → Fn) (s : State) : (setFn i f s).turns = s.turns := rfl
@[simp] theorem setFn_ciph (i : Nat) (f : Fn → Fn) (s : State) : (setFn i f s).ciph = s.ciph := rfl
@[simp] theorem setFn_keys (i : Nat) (f : Fn → Fn) (s : State) : (setFn i f s).keys = s.keys := rfl
@[simp] theorem setFn_xport (i : Nat) (f : Fn → Fn) (s : State) : (setFn i f s).xport = s.xport := rfl
@[simp] theorem setFn_store (i : Nat) (f : Fn → Fn) (s : State) : (setFn i f s).store = s.store := rfl
@[simp] theorem setFn_kiln (i : Nat) (f : Fn → Fn) (s : State) : (setFn i f s).kiln = s.kiln := rfl
@[simp] theorem setFn_age (i : Nat) (f : Fn → Fn) (s : State) : (setFn i f s).age = s.age := rfl
@[simp] theorem setFn_fi (i : Nat) (f : Fn → Fn) (s : State) : (setFn i f s).fi = s.fi := rfl
@[simp] theorem setFn_peal (i : Nat) (f : Fn → Fn) (s : State) : (setFn i f s).peal = s.peal := rfl

@[simp] theorem setPort_tick (i : Nat) (f : PcPort → PcPort) (s : State) : (setPort i f s).tick = s.tick := rfl
@[simp] theorem setPort_draws (i : Nat) (f : PcPort → PcPort) (s : State) : (setPort i f s).draws = s.draws := rfl
@[simp] theorem setPort_out (i : Nat) (f : PcPort → PcPort) (s : State) : (setPort i f s).out = s.out := rfl
@[simp] theorem setPort_pending (i : Nat) (f : PcPort → PcPort) (s : State) : (setPort i f s).pending = s.pending := rfl
@[simp] theorem setPort_hbm (i : Nat) (f : PcPort → PcPort) (s : State) : (setPort i f s).hbm = s.hbm := rfl
@[simp] theorem setPort_pwr (i : Nat) (f : PcPort → PcPort) (s : State) : (setPort i f s).pwr = s.pwr := rfl
@[simp] theorem setPort_fw (i : Nat) (f : PcPort → PcPort) (s : State) : (setPort i f s).fw = s.fw := rfl
@[simp] theorem setPort_time (i : Nat) (f : PcPort → PcPort) (s : State) : (setPort i f s).time = s.time := rfl
@[simp] theorem setPort_gates (i : Nat) (f : PcPort → PcPort) (s : State) : (setPort i f s).gates = s.gates := rfl
@[simp] theorem setPort_strobe (i : Nat) (f : PcPort → PcPort) (s : State) : (setPort i f s).strobe = s.strobe := rfl
@[simp] theorem setPort_fns (i : Nat) (f : PcPort → PcPort) (s : State) : (setPort i f s).fns = s.fns := rfl
@[simp] theorem setPort_sec (i : Nat) (f : PcPort → PcPort) (s : State) : (setPort i f s).sec = s.sec := rfl
@[simp] theorem setPort_lanes (i : Nat) (f : PcPort → PcPort) (s : State) : (setPort i f s).lanes = s.lanes := rfl
@[simp] theorem setPort_pkts (i : Nat) (f : PcPort → PcPort) (s : State) : (setPort i f s).pkts = s.pkts := rfl
@[simp] theorem setPort_nextPkt (i : Nat) (f : PcPort → PcPort) (s : State) : (setPort i f s).nextPkt = s.nextPkt := rfl
@[simp] theorem setPort_sets (i : Nat) (f : PcPort → PcPort) (s : State) : (setPort i f s).sets = s.sets := rfl
@[simp] theorem setPort_frags (i : Nat) (f : PcPort → PcPort) (s : State) : (setPort i f s).frags = s.frags := rfl
@[simp] theorem setPort_holdQ (i : Nat) (f : PcPort → PcPort) (s : State) : (setPort i f s).holdQ = s.holdQ := rfl
@[simp] theorem setPort_punts (i : Nat) (f : PcPort → PcPort) (s : State) : (setPort i f s).punts = s.punts := rfl
@[simp] theorem setPort_ctxs (i : Nat) (f : PcPort → PcPort) (s : State) : (setPort i f s).ctxs = s.ctxs := rfl
@[simp] theorem setPort_seqs (i : Nat) (f : PcPort → PcPort) (s : State) : (setPort i f s).seqs = s.seqs := rfl
@[simp] theorem setPort_learns (i : Nat) (f : PcPort → PcPort) (s : State) : (setPort i f s).learns = s.learns := rfl
@[simp] theorem setPort_reports (i : Nat) (f : PcPort → PcPort) (s : State) : (setPort i f s).reports = s.reports := rfl
@[simp] theorem setPort_ages (i : Nat) (f : PcPort → PcPort) (s : State) : (setPort i f s).ages = s.ages := rfl
@[simp] theorem setPort_tm (i : Nat) (f : PcPort → PcPort) (s : State) : (setPort i f s).tm = s.tm := rfl
@[simp] theorem setPort_cnts (i : Nat) (f : PcPort → PcPort) (s : State) : (setPort i f s).cnts = s.cnts := rfl
@[simp] theorem setPort_latches (i : Nat) (f : PcPort → PcPort) (s : State) : (setPort i f s).latches = s.latches := rfl
@[simp] theorem setPort_parity (i : Nat) (f : PcPort → PcPort) (s : State) : (setPort i f s).parity = s.parity := rfl
@[simp] theorem setPort_deliveries (i : Nat) (f : PcPort → PcPort) (s : State) : (setPort i f s).deliveries = s.deliveries := rfl
@[simp] theorem setPort_launchHeld (i : Nat) (f : PcPort → PcPort) (s : State) : (setPort i f s).launchHeld = s.launchHeld := rfl
@[simp] theorem setPort_turns (i : Nat) (f : PcPort → PcPort) (s : State) : (setPort i f s).turns = s.turns := rfl
@[simp] theorem setPort_ciph (i : Nat) (f : PcPort → PcPort) (s : State) : (setPort i f s).ciph = s.ciph := rfl
@[simp] theorem setPort_keys (i : Nat) (f : PcPort → PcPort) (s : State) : (setPort i f s).keys = s.keys := rfl
@[simp] theorem setPort_xport (i : Nat) (f : PcPort → PcPort) (s : State) : (setPort i f s).xport = s.xport := rfl
@[simp] theorem setPort_store (i : Nat) (f : PcPort → PcPort) (s : State) : (setPort i f s).store = s.store := rfl
@[simp] theorem setPort_kiln (i : Nat) (f : PcPort → PcPort) (s : State) : (setPort i f s).kiln = s.kiln := rfl
@[simp] theorem setPort_age (i : Nat) (f : PcPort → PcPort) (s : State) : (setPort i f s).age = s.age := rfl
@[simp] theorem setPort_fi (i : Nat) (f : PcPort → PcPort) (s : State) : (setPort i f s).fi = s.fi := rfl
@[simp] theorem setPort_peal (i : Nat) (f : PcPort → PcPort) (s : State) : (setPort i f s).peal = s.peal := rfl

@[simp] theorem useDraw_tick (s : State) : (useDraw s).tick = s.tick := rfl
@[simp] theorem useDraw_out (s : State) : (useDraw s).out = s.out := rfl
@[simp] theorem useDraw_pending (s : State) : (useDraw s).pending = s.pending := rfl
@[simp] theorem useDraw_hbm (s : State) : (useDraw s).hbm = s.hbm := rfl
@[simp] theorem useDraw_pwr (s : State) : (useDraw s).pwr = s.pwr := rfl
@[simp] theorem useDraw_fw (s : State) : (useDraw s).fw = s.fw := rfl
@[simp] theorem useDraw_time (s : State) : (useDraw s).time = s.time := rfl
@[simp] theorem useDraw_gates (s : State) : (useDraw s).gates = s.gates := rfl
@[simp] theorem useDraw_strobe (s : State) : (useDraw s).strobe = s.strobe := rfl
@[simp] theorem useDraw_fns (s : State) : (useDraw s).fns = s.fns := rfl
@[simp] theorem useDraw_ports (s : State) : (useDraw s).ports = s.ports := rfl
@[simp] theorem useDraw_sec (s : State) : (useDraw s).sec = s.sec := rfl
@[simp] theorem useDraw_lanes (s : State) : (useDraw s).lanes = s.lanes := rfl
@[simp] theorem useDraw_pkts (s : State) : (useDraw s).pkts = s.pkts := rfl
@[simp] theorem useDraw_nextPkt (s : State) : (useDraw s).nextPkt = s.nextPkt := rfl
@[simp] theorem useDraw_sets (s : State) : (useDraw s).sets = s.sets := rfl
@[simp] theorem useDraw_frags (s : State) : (useDraw s).frags = s.frags := rfl
@[simp] theorem useDraw_holdQ (s : State) : (useDraw s).holdQ = s.holdQ := rfl
@[simp] theorem useDraw_punts (s : State) : (useDraw s).punts = s.punts := rfl
@[simp] theorem useDraw_ctxs (s : State) : (useDraw s).ctxs = s.ctxs := rfl
@[simp] theorem useDraw_seqs (s : State) : (useDraw s).seqs = s.seqs := rfl
@[simp] theorem useDraw_learns (s : State) : (useDraw s).learns = s.learns := rfl
@[simp] theorem useDraw_reports (s : State) : (useDraw s).reports = s.reports := rfl
@[simp] theorem useDraw_ages (s : State) : (useDraw s).ages = s.ages := rfl
@[simp] theorem useDraw_tm (s : State) : (useDraw s).tm = s.tm := rfl
@[simp] theorem useDraw_cnts (s : State) : (useDraw s).cnts = s.cnts := rfl
@[simp] theorem useDraw_latches (s : State) : (useDraw s).latches = s.latches := rfl
@[simp] theorem useDraw_parity (s : State) : (useDraw s).parity = s.parity := rfl
@[simp] theorem useDraw_deliveries (s : State) : (useDraw s).deliveries = s.deliveries := rfl
@[simp] theorem useDraw_launchHeld (s : State) : (useDraw s).launchHeld = s.launchHeld := rfl
@[simp] theorem useDraw_turns (s : State) : (useDraw s).turns = s.turns := rfl
@[simp] theorem useDraw_ciph (s : State) : (useDraw s).ciph = s.ciph := rfl
@[simp] theorem useDraw_keys (s : State) : (useDraw s).keys = s.keys := rfl
@[simp] theorem useDraw_xport (s : State) : (useDraw s).xport = s.xport := rfl
@[simp] theorem useDraw_store (s : State) : (useDraw s).store = s.store := rfl
@[simp] theorem useDraw_kiln (s : State) : (useDraw s).kiln = s.kiln := rfl
@[simp] theorem useDraw_age (s : State) : (useDraw s).age = s.age := rfl
@[simp] theorem useDraw_fi (s : State) : (useDraw s).fi = s.fi := rfl
@[simp] theorem useDraw_peal (s : State) : (useDraw s).peal = s.peal := rfl

@[simp] theorem setSlot_tick (i k : Nat) (f : QSlot → QSlot) (s : State) : (setSlot i k f s).tick = s.tick := rfl
@[simp] theorem setSlot_draws (i k : Nat) (f : QSlot → QSlot) (s : State) : (setSlot i k f s).draws = s.draws := rfl
@[simp] theorem setSlot_out (i k : Nat) (f : QSlot → QSlot) (s : State) : (setSlot i k f s).out = s.out := rfl
@[simp] theorem setSlot_pending (i k : Nat) (f : QSlot → QSlot) (s : State) : (setSlot i k f s).pending = s.pending := rfl
@[simp] theorem setSlot_hbm (i k : Nat) (f : QSlot → QSlot) (s : State) : (setSlot i k f s).hbm = s.hbm := rfl
@[simp] theorem setSlot_pwr (i k : Nat) (f : QSlot → QSlot) (s : State) : (setSlot i k f s).pwr = s.pwr := rfl
@[simp] theorem setSlot_fw (i k : Nat) (f : QSlot → QSlot) (s : State) : (setSlot i k f s).fw = s.fw := rfl
@[simp] theorem setSlot_time (i k : Nat) (f : QSlot → QSlot) (s : State) : (setSlot i k f s).time = s.time := rfl
@[simp] theorem setSlot_gates (i k : Nat) (f : QSlot → QSlot) (s : State) : (setSlot i k f s).gates = s.gates := rfl
@[simp] theorem setSlot_strobe (i k : Nat) (f : QSlot → QSlot) (s : State) : (setSlot i k f s).strobe = s.strobe := rfl
@[simp] theorem setSlot_ports (i k : Nat) (f : QSlot → QSlot) (s : State) : (setSlot i k f s).ports = s.ports := rfl
@[simp] theorem setSlot_sec (i k : Nat) (f : QSlot → QSlot) (s : State) : (setSlot i k f s).sec = s.sec := rfl
@[simp] theorem setSlot_lanes (i k : Nat) (f : QSlot → QSlot) (s : State) : (setSlot i k f s).lanes = s.lanes := rfl
@[simp] theorem setSlot_pkts (i k : Nat) (f : QSlot → QSlot) (s : State) : (setSlot i k f s).pkts = s.pkts := rfl
@[simp] theorem setSlot_nextPkt (i k : Nat) (f : QSlot → QSlot) (s : State) : (setSlot i k f s).nextPkt = s.nextPkt := rfl
@[simp] theorem setSlot_sets (i k : Nat) (f : QSlot → QSlot) (s : State) : (setSlot i k f s).sets = s.sets := rfl
@[simp] theorem setSlot_frags (i k : Nat) (f : QSlot → QSlot) (s : State) : (setSlot i k f s).frags = s.frags := rfl
@[simp] theorem setSlot_holdQ (i k : Nat) (f : QSlot → QSlot) (s : State) : (setSlot i k f s).holdQ = s.holdQ := rfl
@[simp] theorem setSlot_punts (i k : Nat) (f : QSlot → QSlot) (s : State) : (setSlot i k f s).punts = s.punts := rfl
@[simp] theorem setSlot_ctxs (i k : Nat) (f : QSlot → QSlot) (s : State) : (setSlot i k f s).ctxs = s.ctxs := rfl
@[simp] theorem setSlot_seqs (i k : Nat) (f : QSlot → QSlot) (s : State) : (setSlot i k f s).seqs = s.seqs := rfl
@[simp] theorem setSlot_learns (i k : Nat) (f : QSlot → QSlot) (s : State) : (setSlot i k f s).learns = s.learns := rfl
@[simp] theorem setSlot_reports (i k : Nat) (f : QSlot → QSlot) (s : State) : (setSlot i k f s).reports = s.reports := rfl
@[simp] theorem setSlot_ages (i k : Nat) (f : QSlot → QSlot) (s : State) : (setSlot i k f s).ages = s.ages := rfl
@[simp] theorem setSlot_tm (i k : Nat) (f : QSlot → QSlot) (s : State) : (setSlot i k f s).tm = s.tm := rfl
@[simp] theorem setSlot_cnts (i k : Nat) (f : QSlot → QSlot) (s : State) : (setSlot i k f s).cnts = s.cnts := rfl
@[simp] theorem setSlot_latches (i k : Nat) (f : QSlot → QSlot) (s : State) : (setSlot i k f s).latches = s.latches := rfl
@[simp] theorem setSlot_parity (i k : Nat) (f : QSlot → QSlot) (s : State) : (setSlot i k f s).parity = s.parity := rfl
@[simp] theorem setSlot_deliveries (i k : Nat) (f : QSlot → QSlot) (s : State) : (setSlot i k f s).deliveries = s.deliveries := rfl
@[simp] theorem setSlot_launchHeld (i k : Nat) (f : QSlot → QSlot) (s : State) : (setSlot i k f s).launchHeld = s.launchHeld := rfl
@[simp] theorem setSlot_turns (i k : Nat) (f : QSlot → QSlot) (s : State) : (setSlot i k f s).turns = s.turns := rfl
@[simp] theorem setSlot_ciph (i k : Nat) (f : QSlot → QSlot) (s : State) : (setSlot i k f s).ciph = s.ciph := rfl
@[simp] theorem setSlot_keys (i k : Nat) (f : QSlot → QSlot) (s : State) : (setSlot i k f s).keys = s.keys := rfl
@[simp] theorem setSlot_xport (i k : Nat) (f : QSlot → QSlot) (s : State) : (setSlot i k f s).xport = s.xport := rfl
@[simp] theorem setSlot_store (i k : Nat) (f : QSlot → QSlot) (s : State) : (setSlot i k f s).store = s.store := rfl
@[simp] theorem setSlot_kiln (i k : Nat) (f : QSlot → QSlot) (s : State) : (setSlot i k f s).kiln = s.kiln := rfl
@[simp] theorem setSlot_age (i k : Nat) (f : QSlot → QSlot) (s : State) : (setSlot i k f s).age = s.age := rfl
@[simp] theorem setSlot_fi (i k : Nat) (f : QSlot → QSlot) (s : State) : (setSlot i k f s).fi = s.fi := rfl
@[simp] theorem setSlot_peal (i k : Nat) (f : QSlot → QSlot) (s : State) : (setSlot i k f s).peal = s.peal := rfl

@[simp] theorem setRing_tick (i : Nat) (b : Bool) (f : Ring → Ring) (s : State) : (setRing i b f s).tick = s.tick := rfl
@[simp] theorem setRing_draws (i : Nat) (b : Bool) (f : Ring → Ring) (s : State) : (setRing i b f s).draws = s.draws := rfl
@[simp] theorem setRing_out (i : Nat) (b : Bool) (f : Ring → Ring) (s : State) : (setRing i b f s).out = s.out := rfl
@[simp] theorem setRing_pending (i : Nat) (b : Bool) (f : Ring → Ring) (s : State) : (setRing i b f s).pending = s.pending := rfl
@[simp] theorem setRing_hbm (i : Nat) (b : Bool) (f : Ring → Ring) (s : State) : (setRing i b f s).hbm = s.hbm := rfl
@[simp] theorem setRing_pwr (i : Nat) (b : Bool) (f : Ring → Ring) (s : State) : (setRing i b f s).pwr = s.pwr := rfl
@[simp] theorem setRing_fw (i : Nat) (b : Bool) (f : Ring → Ring) (s : State) : (setRing i b f s).fw = s.fw := rfl
@[simp] theorem setRing_time (i : Nat) (b : Bool) (f : Ring → Ring) (s : State) : (setRing i b f s).time = s.time := rfl
@[simp] theorem setRing_gates (i : Nat) (b : Bool) (f : Ring → Ring) (s : State) : (setRing i b f s).gates = s.gates := rfl
@[simp] theorem setRing_strobe (i : Nat) (b : Bool) (f : Ring → Ring) (s : State) : (setRing i b f s).strobe = s.strobe := rfl
@[simp] theorem setRing_ports (i : Nat) (b : Bool) (f : Ring → Ring) (s : State) : (setRing i b f s).ports = s.ports := rfl
@[simp] theorem setRing_sec (i : Nat) (b : Bool) (f : Ring → Ring) (s : State) : (setRing i b f s).sec = s.sec := rfl
@[simp] theorem setRing_lanes (i : Nat) (b : Bool) (f : Ring → Ring) (s : State) : (setRing i b f s).lanes = s.lanes := rfl
@[simp] theorem setRing_pkts (i : Nat) (b : Bool) (f : Ring → Ring) (s : State) : (setRing i b f s).pkts = s.pkts := rfl
@[simp] theorem setRing_nextPkt (i : Nat) (b : Bool) (f : Ring → Ring) (s : State) : (setRing i b f s).nextPkt = s.nextPkt := rfl
@[simp] theorem setRing_sets (i : Nat) (b : Bool) (f : Ring → Ring) (s : State) : (setRing i b f s).sets = s.sets := rfl
@[simp] theorem setRing_frags (i : Nat) (b : Bool) (f : Ring → Ring) (s : State) : (setRing i b f s).frags = s.frags := rfl
@[simp] theorem setRing_holdQ (i : Nat) (b : Bool) (f : Ring → Ring) (s : State) : (setRing i b f s).holdQ = s.holdQ := rfl
@[simp] theorem setRing_punts (i : Nat) (b : Bool) (f : Ring → Ring) (s : State) : (setRing i b f s).punts = s.punts := rfl
@[simp] theorem setRing_ctxs (i : Nat) (b : Bool) (f : Ring → Ring) (s : State) : (setRing i b f s).ctxs = s.ctxs := rfl
@[simp] theorem setRing_seqs (i : Nat) (b : Bool) (f : Ring → Ring) (s : State) : (setRing i b f s).seqs = s.seqs := rfl
@[simp] theorem setRing_learns (i : Nat) (b : Bool) (f : Ring → Ring) (s : State) : (setRing i b f s).learns = s.learns := rfl
@[simp] theorem setRing_reports (i : Nat) (b : Bool) (f : Ring → Ring) (s : State) : (setRing i b f s).reports = s.reports := rfl
@[simp] theorem setRing_ages (i : Nat) (b : Bool) (f : Ring → Ring) (s : State) : (setRing i b f s).ages = s.ages := rfl
@[simp] theorem setRing_tm (i : Nat) (b : Bool) (f : Ring → Ring) (s : State) : (setRing i b f s).tm = s.tm := rfl
@[simp] theorem setRing_cnts (i : Nat) (b : Bool) (f : Ring → Ring) (s : State) : (setRing i b f s).cnts = s.cnts := rfl
@[simp] theorem setRing_latches (i : Nat) (b : Bool) (f : Ring → Ring) (s : State) : (setRing i b f s).latches = s.latches := rfl
@[simp] theorem setRing_parity (i : Nat) (b : Bool) (f : Ring → Ring) (s : State) : (setRing i b f s).parity = s.parity := rfl
@[simp] theorem setRing_deliveries (i : Nat) (b : Bool) (f : Ring → Ring) (s : State) : (setRing i b f s).deliveries = s.deliveries := rfl
@[simp] theorem setRing_launchHeld (i : Nat) (b : Bool) (f : Ring → Ring) (s : State) : (setRing i b f s).launchHeld = s.launchHeld := rfl
@[simp] theorem setRing_turns (i : Nat) (b : Bool) (f : Ring → Ring) (s : State) : (setRing i b f s).turns = s.turns := rfl
@[simp] theorem setRing_ciph (i : Nat) (b : Bool) (f : Ring → Ring) (s : State) : (setRing i b f s).ciph = s.ciph := rfl
@[simp] theorem setRing_keys (i : Nat) (b : Bool) (f : Ring → Ring) (s : State) : (setRing i b f s).keys = s.keys := rfl
@[simp] theorem setRing_xport (i : Nat) (b : Bool) (f : Ring → Ring) (s : State) : (setRing i b f s).xport = s.xport := rfl
@[simp] theorem setRing_store (i : Nat) (b : Bool) (f : Ring → Ring) (s : State) : (setRing i b f s).store = s.store := rfl
@[simp] theorem setRing_kiln (i : Nat) (b : Bool) (f : Ring → Ring) (s : State) : (setRing i b f s).kiln = s.kiln := rfl
@[simp] theorem setRing_age (i : Nat) (b : Bool) (f : Ring → Ring) (s : State) : (setRing i b f s).age = s.age := rfl
@[simp] theorem setRing_fi (i : Nat) (b : Bool) (f : Ring → Ring) (s : State) : (setRing i b f s).fi = s.fi := rfl
@[simp] theorem setRing_peal (i : Nat) (b : Bool) (f : Ring → Ring) (s : State) : (setRing i b f s).peal = s.peal := rfl

@[simp] theorem setLane_tick (i : Nat) (f : Lane → Lane) (s : State) : (setLane i f s).tick = s.tick := rfl
@[simp] theorem setLane_draws (i : Nat) (f : Lane → Lane) (s : State) : (setLane i f s).draws = s.draws := rfl
@[simp] theorem setLane_out (i : Nat) (f : Lane → Lane) (s : State) : (setLane i f s).out = s.out := rfl
@[simp] theorem setLane_pending (i : Nat) (f : Lane → Lane) (s : State) : (setLane i f s).pending = s.pending := rfl
@[simp] theorem setLane_hbm (i : Nat) (f : Lane → Lane) (s : State) : (setLane i f s).hbm = s.hbm := rfl
@[simp] theorem setLane_pwr (i : Nat) (f : Lane → Lane) (s : State) : (setLane i f s).pwr = s.pwr := rfl
@[simp] theorem setLane_fw (i : Nat) (f : Lane → Lane) (s : State) : (setLane i f s).fw = s.fw := rfl
@[simp] theorem setLane_time (i : Nat) (f : Lane → Lane) (s : State) : (setLane i f s).time = s.time := rfl
@[simp] theorem setLane_gates (i : Nat) (f : Lane → Lane) (s : State) : (setLane i f s).gates = s.gates := rfl
@[simp] theorem setLane_strobe (i : Nat) (f : Lane → Lane) (s : State) : (setLane i f s).strobe = s.strobe := rfl
@[simp] theorem setLane_fns (i : Nat) (f : Lane → Lane) (s : State) : (setLane i f s).fns = s.fns := rfl
@[simp] theorem setLane_ports (i : Nat) (f : Lane → Lane) (s : State) : (setLane i f s).ports = s.ports := rfl
@[simp] theorem setLane_sec (i : Nat) (f : Lane → Lane) (s : State) : (setLane i f s).sec = s.sec := rfl
@[simp] theorem setLane_pkts (i : Nat) (f : Lane → Lane) (s : State) : (setLane i f s).pkts = s.pkts := rfl
@[simp] theorem setLane_nextPkt (i : Nat) (f : Lane → Lane) (s : State) : (setLane i f s).nextPkt = s.nextPkt := rfl
@[simp] theorem setLane_sets (i : Nat) (f : Lane → Lane) (s : State) : (setLane i f s).sets = s.sets := rfl
@[simp] theorem setLane_frags (i : Nat) (f : Lane → Lane) (s : State) : (setLane i f s).frags = s.frags := rfl
@[simp] theorem setLane_holdQ (i : Nat) (f : Lane → Lane) (s : State) : (setLane i f s).holdQ = s.holdQ := rfl
@[simp] theorem setLane_punts (i : Nat) (f : Lane → Lane) (s : State) : (setLane i f s).punts = s.punts := rfl
@[simp] theorem setLane_ctxs (i : Nat) (f : Lane → Lane) (s : State) : (setLane i f s).ctxs = s.ctxs := rfl
@[simp] theorem setLane_seqs (i : Nat) (f : Lane → Lane) (s : State) : (setLane i f s).seqs = s.seqs := rfl
@[simp] theorem setLane_learns (i : Nat) (f : Lane → Lane) (s : State) : (setLane i f s).learns = s.learns := rfl
@[simp] theorem setLane_reports (i : Nat) (f : Lane → Lane) (s : State) : (setLane i f s).reports = s.reports := rfl
@[simp] theorem setLane_ages (i : Nat) (f : Lane → Lane) (s : State) : (setLane i f s).ages = s.ages := rfl
@[simp] theorem setLane_tm (i : Nat) (f : Lane → Lane) (s : State) : (setLane i f s).tm = s.tm := rfl
@[simp] theorem setLane_cnts (i : Nat) (f : Lane → Lane) (s : State) : (setLane i f s).cnts = s.cnts := rfl
@[simp] theorem setLane_latches (i : Nat) (f : Lane → Lane) (s : State) : (setLane i f s).latches = s.latches := rfl
@[simp] theorem setLane_parity (i : Nat) (f : Lane → Lane) (s : State) : (setLane i f s).parity = s.parity := rfl
@[simp] theorem setLane_deliveries (i : Nat) (f : Lane → Lane) (s : State) : (setLane i f s).deliveries = s.deliveries := rfl
@[simp] theorem setLane_launchHeld (i : Nat) (f : Lane → Lane) (s : State) : (setLane i f s).launchHeld = s.launchHeld := rfl
@[simp] theorem setLane_turns (i : Nat) (f : Lane → Lane) (s : State) : (setLane i f s).turns = s.turns := rfl
@[simp] theorem setLane_ciph (i : Nat) (f : Lane → Lane) (s : State) : (setLane i f s).ciph = s.ciph := rfl
@[simp] theorem setLane_keys (i : Nat) (f : Lane → Lane) (s : State) : (setLane i f s).keys = s.keys := rfl
@[simp] theorem setLane_xport (i : Nat) (f : Lane → Lane) (s : State) : (setLane i f s).xport = s.xport := rfl
@[simp] theorem setLane_store (i : Nat) (f : Lane → Lane) (s : State) : (setLane i f s).store = s.store := rfl
@[simp] theorem setLane_kiln (i : Nat) (f : Lane → Lane) (s : State) : (setLane i f s).kiln = s.kiln := rfl
@[simp] theorem setLane_age (i : Nat) (f : Lane → Lane) (s : State) : (setLane i f s).age = s.age := rfl
@[simp] theorem setLane_fi (i : Nat) (f : Lane → Lane) (s : State) : (setLane i f s).fi = s.fi := rfl
@[simp] theorem setLane_peal (i : Nat) (f : Lane → Lane) (s : State) : (setLane i f s).peal = s.peal := rfl

@[simp] theorem setPeal_tick (f : Peal → Peal) (s : State) : (setPeal f s).tick = s.tick := rfl
@[simp] theorem setPeal_draws (f : Peal → Peal) (s : State) : (setPeal f s).draws = s.draws := rfl
@[simp] theorem setPeal_out (f : Peal → Peal) (s : State) : (setPeal f s).out = s.out := rfl
@[simp] theorem setPeal_pending (f : Peal → Peal) (s : State) : (setPeal f s).pending = s.pending := rfl
@[simp] theorem setPeal_hbm (f : Peal → Peal) (s : State) : (setPeal f s).hbm = s.hbm := rfl
@[simp] theorem setPeal_pwr (f : Peal → Peal) (s : State) : (setPeal f s).pwr = s.pwr := rfl
@[simp] theorem setPeal_fw (f : Peal → Peal) (s : State) : (setPeal f s).fw = s.fw := rfl
@[simp] theorem setPeal_time (f : Peal → Peal) (s : State) : (setPeal f s).time = s.time := rfl
@[simp] theorem setPeal_gates (f : Peal → Peal) (s : State) : (setPeal f s).gates = s.gates := rfl
@[simp] theorem setPeal_strobe (f : Peal → Peal) (s : State) : (setPeal f s).strobe = s.strobe := rfl
@[simp] theorem setPeal_fns (f : Peal → Peal) (s : State) : (setPeal f s).fns = s.fns := rfl
@[simp] theorem setPeal_ports (f : Peal → Peal) (s : State) : (setPeal f s).ports = s.ports := rfl
@[simp] theorem setPeal_sec (f : Peal → Peal) (s : State) : (setPeal f s).sec = s.sec := rfl
@[simp] theorem setPeal_lanes (f : Peal → Peal) (s : State) : (setPeal f s).lanes = s.lanes := rfl
@[simp] theorem setPeal_pkts (f : Peal → Peal) (s : State) : (setPeal f s).pkts = s.pkts := rfl
@[simp] theorem setPeal_nextPkt (f : Peal → Peal) (s : State) : (setPeal f s).nextPkt = s.nextPkt := rfl
@[simp] theorem setPeal_sets (f : Peal → Peal) (s : State) : (setPeal f s).sets = s.sets := rfl
@[simp] theorem setPeal_frags (f : Peal → Peal) (s : State) : (setPeal f s).frags = s.frags := rfl
@[simp] theorem setPeal_holdQ (f : Peal → Peal) (s : State) : (setPeal f s).holdQ = s.holdQ := rfl
@[simp] theorem setPeal_punts (f : Peal → Peal) (s : State) : (setPeal f s).punts = s.punts := rfl
@[simp] theorem setPeal_ctxs (f : Peal → Peal) (s : State) : (setPeal f s).ctxs = s.ctxs := rfl
@[simp] theorem setPeal_seqs (f : Peal → Peal) (s : State) : (setPeal f s).seqs = s.seqs := rfl
@[simp] theorem setPeal_learns (f : Peal → Peal) (s : State) : (setPeal f s).learns = s.learns := rfl
@[simp] theorem setPeal_reports (f : Peal → Peal) (s : State) : (setPeal f s).reports = s.reports := rfl
@[simp] theorem setPeal_ages (f : Peal → Peal) (s : State) : (setPeal f s).ages = s.ages := rfl
@[simp] theorem setPeal_tm (f : Peal → Peal) (s : State) : (setPeal f s).tm = s.tm := rfl
@[simp] theorem setPeal_cnts (f : Peal → Peal) (s : State) : (setPeal f s).cnts = s.cnts := rfl
@[simp] theorem setPeal_latches (f : Peal → Peal) (s : State) : (setPeal f s).latches = s.latches := rfl
@[simp] theorem setPeal_parity (f : Peal → Peal) (s : State) : (setPeal f s).parity = s.parity := rfl
@[simp] theorem setPeal_deliveries (f : Peal → Peal) (s : State) : (setPeal f s).deliveries = s.deliveries := rfl
@[simp] theorem setPeal_launchHeld (f : Peal → Peal) (s : State) : (setPeal f s).launchHeld = s.launchHeld := rfl
@[simp] theorem setPeal_turns (f : Peal → Peal) (s : State) : (setPeal f s).turns = s.turns := rfl
@[simp] theorem setPeal_ciph (f : Peal → Peal) (s : State) : (setPeal f s).ciph = s.ciph := rfl
@[simp] theorem setPeal_keys (f : Peal → Peal) (s : State) : (setPeal f s).keys = s.keys := rfl
@[simp] theorem setPeal_xport (f : Peal → Peal) (s : State) : (setPeal f s).xport = s.xport := rfl
@[simp] theorem setPeal_store (f : Peal → Peal) (s : State) : (setPeal f s).store = s.store := rfl
@[simp] theorem setPeal_kiln (f : Peal → Peal) (s : State) : (setPeal f s).kiln = s.kiln := rfl
@[simp] theorem setPeal_age (f : Peal → Peal) (s : State) : (setPeal f s).age = s.age := rfl
@[simp] theorem setPeal_fi (f : Peal → Peal) (s : State) : (setPeal f s).fi = s.fi := rfl

@[simp] theorem setRegion_tick (i : Nat) (f : Region → Region) (s : State) : (setRegion i f s).tick = s.tick := rfl
@[simp] theorem setRegion_draws (i : Nat) (f : Region → Region) (s : State) : (setRegion i f s).draws = s.draws := rfl
@[simp] theorem setRegion_out (i : Nat) (f : Region → Region) (s : State) : (setRegion i f s).out = s.out := rfl
@[simp] theorem setRegion_pending (i : Nat) (f : Region → Region) (s : State) : (setRegion i f s).pending = s.pending := rfl
@[simp] theorem setRegion_hbm (i : Nat) (f : Region → Region) (s : State) : (setRegion i f s).hbm = s.hbm := rfl
@[simp] theorem setRegion_fw (i : Nat) (f : Region → Region) (s : State) : (setRegion i f s).fw = s.fw := rfl
@[simp] theorem setRegion_time (i : Nat) (f : Region → Region) (s : State) : (setRegion i f s).time = s.time := rfl
@[simp] theorem setRegion_gates (i : Nat) (f : Region → Region) (s : State) : (setRegion i f s).gates = s.gates := rfl
@[simp] theorem setRegion_strobe (i : Nat) (f : Region → Region) (s : State) : (setRegion i f s).strobe = s.strobe := rfl
@[simp] theorem setRegion_fns (i : Nat) (f : Region → Region) (s : State) : (setRegion i f s).fns = s.fns := rfl
@[simp] theorem setRegion_ports (i : Nat) (f : Region → Region) (s : State) : (setRegion i f s).ports = s.ports := rfl
@[simp] theorem setRegion_sec (i : Nat) (f : Region → Region) (s : State) : (setRegion i f s).sec = s.sec := rfl
@[simp] theorem setRegion_lanes (i : Nat) (f : Region → Region) (s : State) : (setRegion i f s).lanes = s.lanes := rfl
@[simp] theorem setRegion_pkts (i : Nat) (f : Region → Region) (s : State) : (setRegion i f s).pkts = s.pkts := rfl
@[simp] theorem setRegion_nextPkt (i : Nat) (f : Region → Region) (s : State) : (setRegion i f s).nextPkt = s.nextPkt := rfl
@[simp] theorem setRegion_sets (i : Nat) (f : Region → Region) (s : State) : (setRegion i f s).sets = s.sets := rfl
@[simp] theorem setRegion_frags (i : Nat) (f : Region → Region) (s : State) : (setRegion i f s).frags = s.frags := rfl
@[simp] theorem setRegion_holdQ (i : Nat) (f : Region → Region) (s : State) : (setRegion i f s).holdQ = s.holdQ := rfl
@[simp] theorem setRegion_punts (i : Nat) (f : Region → Region) (s : State) : (setRegion i f s).punts = s.punts := rfl
@[simp] theorem setRegion_ctxs (i : Nat) (f : Region → Region) (s : State) : (setRegion i f s).ctxs = s.ctxs := rfl
@[simp] theorem setRegion_seqs (i : Nat) (f : Region → Region) (s : State) : (setRegion i f s).seqs = s.seqs := rfl
@[simp] theorem setRegion_learns (i : Nat) (f : Region → Region) (s : State) : (setRegion i f s).learns = s.learns := rfl
@[simp] theorem setRegion_reports (i : Nat) (f : Region → Region) (s : State) : (setRegion i f s).reports = s.reports := rfl
@[simp] theorem setRegion_ages (i : Nat) (f : Region → Region) (s : State) : (setRegion i f s).ages = s.ages := rfl
@[simp] theorem setRegion_tm (i : Nat) (f : Region → Region) (s : State) : (setRegion i f s).tm = s.tm := rfl
@[simp] theorem setRegion_cnts (i : Nat) (f : Region → Region) (s : State) : (setRegion i f s).cnts = s.cnts := rfl
@[simp] theorem setRegion_latches (i : Nat) (f : Region → Region) (s : State) : (setRegion i f s).latches = s.latches := rfl
@[simp] theorem setRegion_parity (i : Nat) (f : Region → Region) (s : State) : (setRegion i f s).parity = s.parity := rfl
@[simp] theorem setRegion_deliveries (i : Nat) (f : Region → Region) (s : State) : (setRegion i f s).deliveries = s.deliveries := rfl
@[simp] theorem setRegion_launchHeld (i : Nat) (f : Region → Region) (s : State) : (setRegion i f s).launchHeld = s.launchHeld := rfl
@[simp] theorem setRegion_turns (i : Nat) (f : Region → Region) (s : State) : (setRegion i f s).turns = s.turns := rfl
@[simp] theorem setRegion_ciph (i : Nat) (f : Region → Region) (s : State) : (setRegion i f s).ciph = s.ciph := rfl
@[simp] theorem setRegion_keys (i : Nat) (f : Region → Region) (s : State) : (setRegion i f s).keys = s.keys := rfl
@[simp] theorem setRegion_xport (i : Nat) (f : Region → Region) (s : State) : (setRegion i f s).xport = s.xport := rfl
@[simp] theorem setRegion_store (i : Nat) (f : Region → Region) (s : State) : (setRegion i f s).store = s.store := rfl
@[simp] theorem setRegion_kiln (i : Nat) (f : Region → Region) (s : State) : (setRegion i f s).kiln = s.kiln := rfl
@[simp] theorem setRegion_age (i : Nat) (f : Region → Region) (s : State) : (setRegion i f s).age = s.age := rfl
@[simp] theorem setRegion_fi (i : Nat) (f : Region → Region) (s : State) : (setRegion i f s).fi = s.fi := rfl
@[simp] theorem setRegion_peal (i : Nat) (f : Region → Region) (s : State) : (setRegion i f s).peal = s.peal := rfl

@[simp] theorem setAge_tick (i : Nat) (f : Age → Age) (s : State) : (setAge i f s).tick = s.tick := rfl
@[simp] theorem setAge_draws (i : Nat) (f : Age → Age) (s : State) : (setAge i f s).draws = s.draws := rfl
@[simp] theorem setAge_out (i : Nat) (f : Age → Age) (s : State) : (setAge i f s).out = s.out := rfl
@[simp] theorem setAge_pending (i : Nat) (f : Age → Age) (s : State) : (setAge i f s).pending = s.pending := rfl
@[simp] theorem setAge_hbm (i : Nat) (f : Age → Age) (s : State) : (setAge i f s).hbm = s.hbm := rfl
@[simp] theorem setAge_pwr (i : Nat) (f : Age → Age) (s : State) : (setAge i f s).pwr = s.pwr := rfl
@[simp] theorem setAge_fw (i : Nat) (f : Age → Age) (s : State) : (setAge i f s).fw = s.fw := rfl
@[simp] theorem setAge_time (i : Nat) (f : Age → Age) (s : State) : (setAge i f s).time = s.time := rfl
@[simp] theorem setAge_gates (i : Nat) (f : Age → Age) (s : State) : (setAge i f s).gates = s.gates := rfl
@[simp] theorem setAge_strobe (i : Nat) (f : Age → Age) (s : State) : (setAge i f s).strobe = s.strobe := rfl
@[simp] theorem setAge_fns (i : Nat) (f : Age → Age) (s : State) : (setAge i f s).fns = s.fns := rfl
@[simp] theorem setAge_ports (i : Nat) (f : Age → Age) (s : State) : (setAge i f s).ports = s.ports := rfl
@[simp] theorem setAge_sec (i : Nat) (f : Age → Age) (s : State) : (setAge i f s).sec = s.sec := rfl
@[simp] theorem setAge_lanes (i : Nat) (f : Age → Age) (s : State) : (setAge i f s).lanes = s.lanes := rfl
@[simp] theorem setAge_pkts (i : Nat) (f : Age → Age) (s : State) : (setAge i f s).pkts = s.pkts := rfl
@[simp] theorem setAge_nextPkt (i : Nat) (f : Age → Age) (s : State) : (setAge i f s).nextPkt = s.nextPkt := rfl
@[simp] theorem setAge_sets (i : Nat) (f : Age → Age) (s : State) : (setAge i f s).sets = s.sets := rfl
@[simp] theorem setAge_frags (i : Nat) (f : Age → Age) (s : State) : (setAge i f s).frags = s.frags := rfl
@[simp] theorem setAge_holdQ (i : Nat) (f : Age → Age) (s : State) : (setAge i f s).holdQ = s.holdQ := rfl
@[simp] theorem setAge_punts (i : Nat) (f : Age → Age) (s : State) : (setAge i f s).punts = s.punts := rfl
@[simp] theorem setAge_ctxs (i : Nat) (f : Age → Age) (s : State) : (setAge i f s).ctxs = s.ctxs := rfl
@[simp] theorem setAge_seqs (i : Nat) (f : Age → Age) (s : State) : (setAge i f s).seqs = s.seqs := rfl
@[simp] theorem setAge_learns (i : Nat) (f : Age → Age) (s : State) : (setAge i f s).learns = s.learns := rfl
@[simp] theorem setAge_reports (i : Nat) (f : Age → Age) (s : State) : (setAge i f s).reports = s.reports := rfl
@[simp] theorem setAge_ages (i : Nat) (f : Age → Age) (s : State) : (setAge i f s).ages = s.ages := rfl
@[simp] theorem setAge_tm (i : Nat) (f : Age → Age) (s : State) : (setAge i f s).tm = s.tm := rfl
@[simp] theorem setAge_cnts (i : Nat) (f : Age → Age) (s : State) : (setAge i f s).cnts = s.cnts := rfl
@[simp] theorem setAge_latches (i : Nat) (f : Age → Age) (s : State) : (setAge i f s).latches = s.latches := rfl
@[simp] theorem setAge_parity (i : Nat) (f : Age → Age) (s : State) : (setAge i f s).parity = s.parity := rfl
@[simp] theorem setAge_deliveries (i : Nat) (f : Age → Age) (s : State) : (setAge i f s).deliveries = s.deliveries := rfl
@[simp] theorem setAge_launchHeld (i : Nat) (f : Age → Age) (s : State) : (setAge i f s).launchHeld = s.launchHeld := rfl
@[simp] theorem setAge_turns (i : Nat) (f : Age → Age) (s : State) : (setAge i f s).turns = s.turns := rfl
@[simp] theorem setAge_ciph (i : Nat) (f : Age → Age) (s : State) : (setAge i f s).ciph = s.ciph := rfl
@[simp] theorem setAge_keys (i : Nat) (f : Age → Age) (s : State) : (setAge i f s).keys = s.keys := rfl
@[simp] theorem setAge_xport (i : Nat) (f : Age → Age) (s : State) : (setAge i f s).xport = s.xport := rfl
@[simp] theorem setAge_store (i : Nat) (f : Age → Age) (s : State) : (setAge i f s).store = s.store := rfl
@[simp] theorem setAge_kiln (i : Nat) (f : Age → Age) (s : State) : (setAge i f s).kiln = s.kiln := rfl
@[simp] theorem setAge_fi (i : Nat) (f : Age → Age) (s : State) : (setAge i f s).fi = s.fi := rfl
@[simp] theorem setAge_peal (i : Nat) (f : Age → Age) (s : State) : (setAge i f s).peal = s.peal := rfl

@[simp] theorem setFi_tick (i : Nat) (f : Fi → Fi) (s : State) : (setFi i f s).tick = s.tick := rfl
@[simp] theorem setFi_draws (i : Nat) (f : Fi → Fi) (s : State) : (setFi i f s).draws = s.draws := rfl
@[simp] theorem setFi_out (i : Nat) (f : Fi → Fi) (s : State) : (setFi i f s).out = s.out := rfl
@[simp] theorem setFi_pending (i : Nat) (f : Fi → Fi) (s : State) : (setFi i f s).pending = s.pending := rfl
@[simp] theorem setFi_hbm (i : Nat) (f : Fi → Fi) (s : State) : (setFi i f s).hbm = s.hbm := rfl
@[simp] theorem setFi_pwr (i : Nat) (f : Fi → Fi) (s : State) : (setFi i f s).pwr = s.pwr := rfl
@[simp] theorem setFi_fw (i : Nat) (f : Fi → Fi) (s : State) : (setFi i f s).fw = s.fw := rfl
@[simp] theorem setFi_time (i : Nat) (f : Fi → Fi) (s : State) : (setFi i f s).time = s.time := rfl
@[simp] theorem setFi_gates (i : Nat) (f : Fi → Fi) (s : State) : (setFi i f s).gates = s.gates := rfl
@[simp] theorem setFi_strobe (i : Nat) (f : Fi → Fi) (s : State) : (setFi i f s).strobe = s.strobe := rfl
@[simp] theorem setFi_fns (i : Nat) (f : Fi → Fi) (s : State) : (setFi i f s).fns = s.fns := rfl
@[simp] theorem setFi_ports (i : Nat) (f : Fi → Fi) (s : State) : (setFi i f s).ports = s.ports := rfl
@[simp] theorem setFi_sec (i : Nat) (f : Fi → Fi) (s : State) : (setFi i f s).sec = s.sec := rfl
@[simp] theorem setFi_lanes (i : Nat) (f : Fi → Fi) (s : State) : (setFi i f s).lanes = s.lanes := rfl
@[simp] theorem setFi_pkts (i : Nat) (f : Fi → Fi) (s : State) : (setFi i f s).pkts = s.pkts := rfl
@[simp] theorem setFi_nextPkt (i : Nat) (f : Fi → Fi) (s : State) : (setFi i f s).nextPkt = s.nextPkt := rfl
@[simp] theorem setFi_sets (i : Nat) (f : Fi → Fi) (s : State) : (setFi i f s).sets = s.sets := rfl
@[simp] theorem setFi_frags (i : Nat) (f : Fi → Fi) (s : State) : (setFi i f s).frags = s.frags := rfl
@[simp] theorem setFi_holdQ (i : Nat) (f : Fi → Fi) (s : State) : (setFi i f s).holdQ = s.holdQ := rfl
@[simp] theorem setFi_punts (i : Nat) (f : Fi → Fi) (s : State) : (setFi i f s).punts = s.punts := rfl
@[simp] theorem setFi_ctxs (i : Nat) (f : Fi → Fi) (s : State) : (setFi i f s).ctxs = s.ctxs := rfl
@[simp] theorem setFi_seqs (i : Nat) (f : Fi → Fi) (s : State) : (setFi i f s).seqs = s.seqs := rfl
@[simp] theorem setFi_learns (i : Nat) (f : Fi → Fi) (s : State) : (setFi i f s).learns = s.learns := rfl
@[simp] theorem setFi_reports (i : Nat) (f : Fi → Fi) (s : State) : (setFi i f s).reports = s.reports := rfl
@[simp] theorem setFi_ages (i : Nat) (f : Fi → Fi) (s : State) : (setFi i f s).ages = s.ages := rfl
@[simp] theorem setFi_tm (i : Nat) (f : Fi → Fi) (s : State) : (setFi i f s).tm = s.tm := rfl
@[simp] theorem setFi_cnts (i : Nat) (f : Fi → Fi) (s : State) : (setFi i f s).cnts = s.cnts := rfl
@[simp] theorem setFi_latches (i : Nat) (f : Fi → Fi) (s : State) : (setFi i f s).latches = s.latches := rfl
@[simp] theorem setFi_parity (i : Nat) (f : Fi → Fi) (s : State) : (setFi i f s).parity = s.parity := rfl
@[simp] theorem setFi_deliveries (i : Nat) (f : Fi → Fi) (s : State) : (setFi i f s).deliveries = s.deliveries := rfl
@[simp] theorem setFi_launchHeld (i : Nat) (f : Fi → Fi) (s : State) : (setFi i f s).launchHeld = s.launchHeld := rfl
@[simp] theorem setFi_turns (i : Nat) (f : Fi → Fi) (s : State) : (setFi i f s).turns = s.turns := rfl
@[simp] theorem setFi_ciph (i : Nat) (f : Fi → Fi) (s : State) : (setFi i f s).ciph = s.ciph := rfl
@[simp] theorem setFi_keys (i : Nat) (f : Fi → Fi) (s : State) : (setFi i f s).keys = s.keys := rfl
@[simp] theorem setFi_xport (i : Nat) (f : Fi → Fi) (s : State) : (setFi i f s).xport = s.xport := rfl
@[simp] theorem setFi_store (i : Nat) (f : Fi → Fi) (s : State) : (setFi i f s).store = s.store := rfl
@[simp] theorem setFi_kiln (i : Nat) (f : Fi → Fi) (s : State) : (setFi i f s).kiln = s.kiln := rfl
@[simp] theorem setFi_age (i : Nat) (f : Fi → Fi) (s : State) : (setFi i f s).age = s.age := rfl
@[simp] theorem setFi_peal (i : Nat) (f : Fi → Fi) (s : State) : (setFi i f s).peal = s.peal := rfl

@[simp] theorem setSport_tick (i : Nat) (f : Sport → Sport) (s : State) : (setSport i f s).tick = s.tick := rfl
@[simp] theorem setSport_draws (i : Nat) (f : Sport → Sport) (s : State) : (setSport i f s).draws = s.draws := rfl
@[simp] theorem setSport_out (i : Nat) (f : Sport → Sport) (s : State) : (setSport i f s).out = s.out := rfl
@[simp] theorem setSport_pending (i : Nat) (f : Sport → Sport) (s : State) : (setSport i f s).pending = s.pending := rfl
@[simp] theorem setSport_hbm (i : Nat) (f : Sport → Sport) (s : State) : (setSport i f s).hbm = s.hbm := rfl
@[simp] theorem setSport_pwr (i : Nat) (f : Sport → Sport) (s : State) : (setSport i f s).pwr = s.pwr := rfl
@[simp] theorem setSport_fw (i : Nat) (f : Sport → Sport) (s : State) : (setSport i f s).fw = s.fw := rfl
@[simp] theorem setSport_time (i : Nat) (f : Sport → Sport) (s : State) : (setSport i f s).time = s.time := rfl
@[simp] theorem setSport_gates (i : Nat) (f : Sport → Sport) (s : State) : (setSport i f s).gates = s.gates := rfl
@[simp] theorem setSport_strobe (i : Nat) (f : Sport → Sport) (s : State) : (setSport i f s).strobe = s.strobe := rfl
@[simp] theorem setSport_fns (i : Nat) (f : Sport → Sport) (s : State) : (setSport i f s).fns = s.fns := rfl
@[simp] theorem setSport_ports (i : Nat) (f : Sport → Sport) (s : State) : (setSport i f s).ports = s.ports := rfl
@[simp] theorem setSport_sec (i : Nat) (f : Sport → Sport) (s : State) : (setSport i f s).sec = s.sec := rfl
@[simp] theorem setSport_lanes (i : Nat) (f : Sport → Sport) (s : State) : (setSport i f s).lanes = s.lanes := rfl
@[simp] theorem setSport_pkts (i : Nat) (f : Sport → Sport) (s : State) : (setSport i f s).pkts = s.pkts := rfl
@[simp] theorem setSport_nextPkt (i : Nat) (f : Sport → Sport) (s : State) : (setSport i f s).nextPkt = s.nextPkt := rfl
@[simp] theorem setSport_sets (i : Nat) (f : Sport → Sport) (s : State) : (setSport i f s).sets = s.sets := rfl
@[simp] theorem setSport_frags (i : Nat) (f : Sport → Sport) (s : State) : (setSport i f s).frags = s.frags := rfl
@[simp] theorem setSport_holdQ (i : Nat) (f : Sport → Sport) (s : State) : (setSport i f s).holdQ = s.holdQ := rfl
@[simp] theorem setSport_punts (i : Nat) (f : Sport → Sport) (s : State) : (setSport i f s).punts = s.punts := rfl
@[simp] theorem setSport_ctxs (i : Nat) (f : Sport → Sport) (s : State) : (setSport i f s).ctxs = s.ctxs := rfl
@[simp] theorem setSport_seqs (i : Nat) (f : Sport → Sport) (s : State) : (setSport i f s).seqs = s.seqs := rfl
@[simp] theorem setSport_learns (i : Nat) (f : Sport → Sport) (s : State) : (setSport i f s).learns = s.learns := rfl
@[simp] theorem setSport_reports (i : Nat) (f : Sport → Sport) (s : State) : (setSport i f s).reports = s.reports := rfl
@[simp] theorem setSport_ages (i : Nat) (f : Sport → Sport) (s : State) : (setSport i f s).ages = s.ages := rfl
@[simp] theorem setSport_tm (i : Nat) (f : Sport → Sport) (s : State) : (setSport i f s).tm = s.tm := rfl
@[simp] theorem setSport_cnts (i : Nat) (f : Sport → Sport) (s : State) : (setSport i f s).cnts = s.cnts := rfl
@[simp] theorem setSport_latches (i : Nat) (f : Sport → Sport) (s : State) : (setSport i f s).latches = s.latches := rfl
@[simp] theorem setSport_parity (i : Nat) (f : Sport → Sport) (s : State) : (setSport i f s).parity = s.parity := rfl
@[simp] theorem setSport_deliveries (i : Nat) (f : Sport → Sport) (s : State) : (setSport i f s).deliveries = s.deliveries := rfl
@[simp] theorem setSport_launchHeld (i : Nat) (f : Sport → Sport) (s : State) : (setSport i f s).launchHeld = s.launchHeld := rfl
@[simp] theorem setSport_turns (i : Nat) (f : Sport → Sport) (s : State) : (setSport i f s).turns = s.turns := rfl
@[simp] theorem setSport_ciph (i : Nat) (f : Sport → Sport) (s : State) : (setSport i f s).ciph = s.ciph := rfl
@[simp] theorem setSport_keys (i : Nat) (f : Sport → Sport) (s : State) : (setSport i f s).keys = s.keys := rfl
@[simp] theorem setSport_xport (i : Nat) (f : Sport → Sport) (s : State) : (setSport i f s).xport = s.xport := rfl
@[simp] theorem setSport_kiln (i : Nat) (f : Sport → Sport) (s : State) : (setSport i f s).kiln = s.kiln := rfl
@[simp] theorem setSport_age (i : Nat) (f : Sport → Sport) (s : State) : (setSport i f s).age = s.age := rfl
@[simp] theorem setSport_fi (i : Nat) (f : Sport → Sport) (s : State) : (setSport i f s).fi = s.fi := rfl
@[simp] theorem setSport_peal (i : Nat) (f : Sport → Sport) (s : State) : (setSport i f s).peal = s.peal := rfl

@[simp] theorem setSecPort_tick (i : Nat) (f : SecPort → SecPort) (s : State) : (setSecPort i f s).tick = s.tick := rfl
@[simp] theorem setSecPort_draws (i : Nat) (f : SecPort → SecPort) (s : State) : (setSecPort i f s).draws = s.draws := rfl
@[simp] theorem setSecPort_out (i : Nat) (f : SecPort → SecPort) (s : State) : (setSecPort i f s).out = s.out := rfl
@[simp] theorem setSecPort_pending (i : Nat) (f : SecPort → SecPort) (s : State) : (setSecPort i f s).pending = s.pending := rfl
@[simp] theorem setSecPort_hbm (i : Nat) (f : SecPort → SecPort) (s : State) : (setSecPort i f s).hbm = s.hbm := rfl
@[simp] theorem setSecPort_pwr (i : Nat) (f : SecPort → SecPort) (s : State) : (setSecPort i f s).pwr = s.pwr := rfl
@[simp] theorem setSecPort_fw (i : Nat) (f : SecPort → SecPort) (s : State) : (setSecPort i f s).fw = s.fw := rfl
@[simp] theorem setSecPort_time (i : Nat) (f : SecPort → SecPort) (s : State) : (setSecPort i f s).time = s.time := rfl
@[simp] theorem setSecPort_gates (i : Nat) (f : SecPort → SecPort) (s : State) : (setSecPort i f s).gates = s.gates := rfl
@[simp] theorem setSecPort_strobe (i : Nat) (f : SecPort → SecPort) (s : State) : (setSecPort i f s).strobe = s.strobe := rfl
@[simp] theorem setSecPort_fns (i : Nat) (f : SecPort → SecPort) (s : State) : (setSecPort i f s).fns = s.fns := rfl
@[simp] theorem setSecPort_ports (i : Nat) (f : SecPort → SecPort) (s : State) : (setSecPort i f s).ports = s.ports := rfl
@[simp] theorem setSecPort_lanes (i : Nat) (f : SecPort → SecPort) (s : State) : (setSecPort i f s).lanes = s.lanes := rfl
@[simp] theorem setSecPort_pkts (i : Nat) (f : SecPort → SecPort) (s : State) : (setSecPort i f s).pkts = s.pkts := rfl
@[simp] theorem setSecPort_nextPkt (i : Nat) (f : SecPort → SecPort) (s : State) : (setSecPort i f s).nextPkt = s.nextPkt := rfl
@[simp] theorem setSecPort_sets (i : Nat) (f : SecPort → SecPort) (s : State) : (setSecPort i f s).sets = s.sets := rfl
@[simp] theorem setSecPort_frags (i : Nat) (f : SecPort → SecPort) (s : State) : (setSecPort i f s).frags = s.frags := rfl
@[simp] theorem setSecPort_holdQ (i : Nat) (f : SecPort → SecPort) (s : State) : (setSecPort i f s).holdQ = s.holdQ := rfl
@[simp] theorem setSecPort_punts (i : Nat) (f : SecPort → SecPort) (s : State) : (setSecPort i f s).punts = s.punts := rfl
@[simp] theorem setSecPort_ctxs (i : Nat) (f : SecPort → SecPort) (s : State) : (setSecPort i f s).ctxs = s.ctxs := rfl
@[simp] theorem setSecPort_seqs (i : Nat) (f : SecPort → SecPort) (s : State) : (setSecPort i f s).seqs = s.seqs := rfl
@[simp] theorem setSecPort_learns (i : Nat) (f : SecPort → SecPort) (s : State) : (setSecPort i f s).learns = s.learns := rfl
@[simp] theorem setSecPort_reports (i : Nat) (f : SecPort → SecPort) (s : State) : (setSecPort i f s).reports = s.reports := rfl
@[simp] theorem setSecPort_ages (i : Nat) (f : SecPort → SecPort) (s : State) : (setSecPort i f s).ages = s.ages := rfl
@[simp] theorem setSecPort_tm (i : Nat) (f : SecPort → SecPort) (s : State) : (setSecPort i f s).tm = s.tm := rfl
@[simp] theorem setSecPort_cnts (i : Nat) (f : SecPort → SecPort) (s : State) : (setSecPort i f s).cnts = s.cnts := rfl
@[simp] theorem setSecPort_latches (i : Nat) (f : SecPort → SecPort) (s : State) : (setSecPort i f s).latches = s.latches := rfl
@[simp] theorem setSecPort_parity (i : Nat) (f : SecPort → SecPort) (s : State) : (setSecPort i f s).parity = s.parity := rfl
@[simp] theorem setSecPort_deliveries (i : Nat) (f : SecPort → SecPort) (s : State) : (setSecPort i f s).deliveries = s.deliveries := rfl
@[simp] theorem setSecPort_launchHeld (i : Nat) (f : SecPort → SecPort) (s : State) : (setSecPort i f s).launchHeld = s.launchHeld := rfl
@[simp] theorem setSecPort_turns (i : Nat) (f : SecPort → SecPort) (s : State) : (setSecPort i f s).turns = s.turns := rfl
@[simp] theorem setSecPort_ciph (i : Nat) (f : SecPort → SecPort) (s : State) : (setSecPort i f s).ciph = s.ciph := rfl
@[simp] theorem setSecPort_keys (i : Nat) (f : SecPort → SecPort) (s : State) : (setSecPort i f s).keys = s.keys := rfl
@[simp] theorem setSecPort_xport (i : Nat) (f : SecPort → SecPort) (s : State) : (setSecPort i f s).xport = s.xport := rfl
@[simp] theorem setSecPort_store (i : Nat) (f : SecPort → SecPort) (s : State) : (setSecPort i f s).store = s.store := rfl
@[simp] theorem setSecPort_kiln (i : Nat) (f : SecPort → SecPort) (s : State) : (setSecPort i f s).kiln = s.kiln := rfl
@[simp] theorem setSecPort_age (i : Nat) (f : SecPort → SecPort) (s : State) : (setSecPort i f s).age = s.age := rfl
@[simp] theorem setSecPort_fi (i : Nat) (f : SecPort → SecPort) (s : State) : (setSecPort i f s).fi = s.fi := rfl
@[simp] theorem setSecPort_peal (i : Nat) (f : SecPort → SecPort) (s : State) : (setSecPort i f s).peal = s.peal := rfl

@[simp] theorem setGate_tick (i : Nat) (f : Gate → Gate) (s : State) : (setGate i f s).tick = s.tick := rfl
@[simp] theorem setGate_draws (i : Nat) (f : Gate → Gate) (s : State) : (setGate i f s).draws = s.draws := rfl
@[simp] theorem setGate_out (i : Nat) (f : Gate → Gate) (s : State) : (setGate i f s).out = s.out := rfl
@[simp] theorem setGate_pending (i : Nat) (f : Gate → Gate) (s : State) : (setGate i f s).pending = s.pending := rfl
@[simp] theorem setGate_hbm (i : Nat) (f : Gate → Gate) (s : State) : (setGate i f s).hbm = s.hbm := rfl
@[simp] theorem setGate_pwr (i : Nat) (f : Gate → Gate) (s : State) : (setGate i f s).pwr = s.pwr := rfl
@[simp] theorem setGate_fw (i : Nat) (f : Gate → Gate) (s : State) : (setGate i f s).fw = s.fw := rfl
@[simp] theorem setGate_time (i : Nat) (f : Gate → Gate) (s : State) : (setGate i f s).time = s.time := rfl
@[simp] theorem setGate_strobe (i : Nat) (f : Gate → Gate) (s : State) : (setGate i f s).strobe = s.strobe := rfl
@[simp] theorem setGate_fns (i : Nat) (f : Gate → Gate) (s : State) : (setGate i f s).fns = s.fns := rfl
@[simp] theorem setGate_ports (i : Nat) (f : Gate → Gate) (s : State) : (setGate i f s).ports = s.ports := rfl
@[simp] theorem setGate_sec (i : Nat) (f : Gate → Gate) (s : State) : (setGate i f s).sec = s.sec := rfl
@[simp] theorem setGate_lanes (i : Nat) (f : Gate → Gate) (s : State) : (setGate i f s).lanes = s.lanes := rfl
@[simp] theorem setGate_pkts (i : Nat) (f : Gate → Gate) (s : State) : (setGate i f s).pkts = s.pkts := rfl
@[simp] theorem setGate_nextPkt (i : Nat) (f : Gate → Gate) (s : State) : (setGate i f s).nextPkt = s.nextPkt := rfl
@[simp] theorem setGate_sets (i : Nat) (f : Gate → Gate) (s : State) : (setGate i f s).sets = s.sets := rfl
@[simp] theorem setGate_frags (i : Nat) (f : Gate → Gate) (s : State) : (setGate i f s).frags = s.frags := rfl
@[simp] theorem setGate_holdQ (i : Nat) (f : Gate → Gate) (s : State) : (setGate i f s).holdQ = s.holdQ := rfl
@[simp] theorem setGate_punts (i : Nat) (f : Gate → Gate) (s : State) : (setGate i f s).punts = s.punts := rfl
@[simp] theorem setGate_ctxs (i : Nat) (f : Gate → Gate) (s : State) : (setGate i f s).ctxs = s.ctxs := rfl
@[simp] theorem setGate_seqs (i : Nat) (f : Gate → Gate) (s : State) : (setGate i f s).seqs = s.seqs := rfl
@[simp] theorem setGate_learns (i : Nat) (f : Gate → Gate) (s : State) : (setGate i f s).learns = s.learns := rfl
@[simp] theorem setGate_reports (i : Nat) (f : Gate → Gate) (s : State) : (setGate i f s).reports = s.reports := rfl
@[simp] theorem setGate_ages (i : Nat) (f : Gate → Gate) (s : State) : (setGate i f s).ages = s.ages := rfl
@[simp] theorem setGate_tm (i : Nat) (f : Gate → Gate) (s : State) : (setGate i f s).tm = s.tm := rfl
@[simp] theorem setGate_cnts (i : Nat) (f : Gate → Gate) (s : State) : (setGate i f s).cnts = s.cnts := rfl
@[simp] theorem setGate_latches (i : Nat) (f : Gate → Gate) (s : State) : (setGate i f s).latches = s.latches := rfl
@[simp] theorem setGate_parity (i : Nat) (f : Gate → Gate) (s : State) : (setGate i f s).parity = s.parity := rfl
@[simp] theorem setGate_deliveries (i : Nat) (f : Gate → Gate) (s : State) : (setGate i f s).deliveries = s.deliveries := rfl
@[simp] theorem setGate_launchHeld (i : Nat) (f : Gate → Gate) (s : State) : (setGate i f s).launchHeld = s.launchHeld := rfl
@[simp] theorem setGate_turns (i : Nat) (f : Gate → Gate) (s : State) : (setGate i f s).turns = s.turns := rfl
@[simp] theorem setGate_ciph (i : Nat) (f : Gate → Gate) (s : State) : (setGate i f s).ciph = s.ciph := rfl
@[simp] theorem setGate_keys (i : Nat) (f : Gate → Gate) (s : State) : (setGate i f s).keys = s.keys := rfl
@[simp] theorem setGate_xport (i : Nat) (f : Gate → Gate) (s : State) : (setGate i f s).xport = s.xport := rfl
@[simp] theorem setGate_store (i : Nat) (f : Gate → Gate) (s : State) : (setGate i f s).store = s.store := rfl
@[simp] theorem setGate_kiln (i : Nat) (f : Gate → Gate) (s : State) : (setGate i f s).kiln = s.kiln := rfl
@[simp] theorem setGate_age (i : Nat) (f : Gate → Gate) (s : State) : (setGate i f s).age = s.age := rfl
@[simp] theorem setGate_fi (i : Nat) (f : Gate → Gate) (s : State) : (setGate i f s).fi = s.fi := rfl
@[simp] theorem setGate_peal (i : Nat) (f : Gate → Gate) (s : State) : (setGate i f s).peal = s.peal := rfl

@[simp] theorem setCtx_tick (i : Nat) (f : Ctx → Ctx) (s : State) : (setCtx i f s).tick = s.tick := rfl
@[simp] theorem setCtx_draws (i : Nat) (f : Ctx → Ctx) (s : State) : (setCtx i f s).draws = s.draws := rfl
@[simp] theorem setCtx_out (i : Nat) (f : Ctx → Ctx) (s : State) : (setCtx i f s).out = s.out := rfl
@[simp] theorem setCtx_pending (i : Nat) (f : Ctx → Ctx) (s : State) : (setCtx i f s).pending = s.pending := rfl
@[simp] theorem setCtx_hbm (i : Nat) (f : Ctx → Ctx) (s : State) : (setCtx i f s).hbm = s.hbm := rfl
@[simp] theorem setCtx_pwr (i : Nat) (f : Ctx → Ctx) (s : State) : (setCtx i f s).pwr = s.pwr := rfl
@[simp] theorem setCtx_fw (i : Nat) (f : Ctx → Ctx) (s : State) : (setCtx i f s).fw = s.fw := rfl
@[simp] theorem setCtx_time (i : Nat) (f : Ctx → Ctx) (s : State) : (setCtx i f s).time = s.time := rfl
@[simp] theorem setCtx_gates (i : Nat) (f : Ctx → Ctx) (s : State) : (setCtx i f s).gates = s.gates := rfl
@[simp] theorem setCtx_strobe (i : Nat) (f : Ctx → Ctx) (s : State) : (setCtx i f s).strobe = s.strobe := rfl
@[simp] theorem setCtx_fns (i : Nat) (f : Ctx → Ctx) (s : State) : (setCtx i f s).fns = s.fns := rfl
@[simp] theorem setCtx_ports (i : Nat) (f : Ctx → Ctx) (s : State) : (setCtx i f s).ports = s.ports := rfl
@[simp] theorem setCtx_sec (i : Nat) (f : Ctx → Ctx) (s : State) : (setCtx i f s).sec = s.sec := rfl
@[simp] theorem setCtx_lanes (i : Nat) (f : Ctx → Ctx) (s : State) : (setCtx i f s).lanes = s.lanes := rfl
@[simp] theorem setCtx_pkts (i : Nat) (f : Ctx → Ctx) (s : State) : (setCtx i f s).pkts = s.pkts := rfl
@[simp] theorem setCtx_nextPkt (i : Nat) (f : Ctx → Ctx) (s : State) : (setCtx i f s).nextPkt = s.nextPkt := rfl
@[simp] theorem setCtx_sets (i : Nat) (f : Ctx → Ctx) (s : State) : (setCtx i f s).sets = s.sets := rfl
@[simp] theorem setCtx_frags (i : Nat) (f : Ctx → Ctx) (s : State) : (setCtx i f s).frags = s.frags := rfl
@[simp] theorem setCtx_holdQ (i : Nat) (f : Ctx → Ctx) (s : State) : (setCtx i f s).holdQ = s.holdQ := rfl
@[simp] theorem setCtx_punts (i : Nat) (f : Ctx → Ctx) (s : State) : (setCtx i f s).punts = s.punts := rfl
@[simp] theorem setCtx_seqs (i : Nat) (f : Ctx → Ctx) (s : State) : (setCtx i f s).seqs = s.seqs := rfl
@[simp] theorem setCtx_learns (i : Nat) (f : Ctx → Ctx) (s : State) : (setCtx i f s).learns = s.learns := rfl
@[simp] theorem setCtx_reports (i : Nat) (f : Ctx → Ctx) (s : State) : (setCtx i f s).reports = s.reports := rfl
@[simp] theorem setCtx_ages (i : Nat) (f : Ctx → Ctx) (s : State) : (setCtx i f s).ages = s.ages := rfl
@[simp] theorem setCtx_tm (i : Nat) (f : Ctx → Ctx) (s : State) : (setCtx i f s).tm = s.tm := rfl
@[simp] theorem setCtx_cnts (i : Nat) (f : Ctx → Ctx) (s : State) : (setCtx i f s).cnts = s.cnts := rfl
@[simp] theorem setCtx_latches (i : Nat) (f : Ctx → Ctx) (s : State) : (setCtx i f s).latches = s.latches := rfl
@[simp] theorem setCtx_parity (i : Nat) (f : Ctx → Ctx) (s : State) : (setCtx i f s).parity = s.parity := rfl
@[simp] theorem setCtx_deliveries (i : Nat) (f : Ctx → Ctx) (s : State) : (setCtx i f s).deliveries = s.deliveries := rfl
@[simp] theorem setCtx_launchHeld (i : Nat) (f : Ctx → Ctx) (s : State) : (setCtx i f s).launchHeld = s.launchHeld := rfl
@[simp] theorem setCtx_turns (i : Nat) (f : Ctx → Ctx) (s : State) : (setCtx i f s).turns = s.turns := rfl
@[simp] theorem setCtx_ciph (i : Nat) (f : Ctx → Ctx) (s : State) : (setCtx i f s).ciph = s.ciph := rfl
@[simp] theorem setCtx_keys (i : Nat) (f : Ctx → Ctx) (s : State) : (setCtx i f s).keys = s.keys := rfl
@[simp] theorem setCtx_xport (i : Nat) (f : Ctx → Ctx) (s : State) : (setCtx i f s).xport = s.xport := rfl
@[simp] theorem setCtx_store (i : Nat) (f : Ctx → Ctx) (s : State) : (setCtx i f s).store = s.store := rfl
@[simp] theorem setCtx_kiln (i : Nat) (f : Ctx → Ctx) (s : State) : (setCtx i f s).kiln = s.kiln := rfl
@[simp] theorem setCtx_age (i : Nat) (f : Ctx → Ctx) (s : State) : (setCtx i f s).age = s.age := rfl
@[simp] theorem setCtx_fi (i : Nat) (f : Ctx → Ctx) (s : State) : (setCtx i f s).fi = s.fi := rfl
@[simp] theorem setCtx_peal (i : Nat) (f : Ctx → Ctx) (s : State) : (setCtx i f s).peal = s.peal := rfl

@[simp] theorem setNode_tick (i : Nat) (f : Node → Node) (s : State) : (setNode i f s).tick = s.tick := rfl
@[simp] theorem setNode_draws (i : Nat) (f : Node → Node) (s : State) : (setNode i f s).draws = s.draws := rfl
@[simp] theorem setNode_out (i : Nat) (f : Node → Node) (s : State) : (setNode i f s).out = s.out := rfl
@[simp] theorem setNode_pending (i : Nat) (f : Node → Node) (s : State) : (setNode i f s).pending = s.pending := rfl
@[simp] theorem setNode_hbm (i : Nat) (f : Node → Node) (s : State) : (setNode i f s).hbm = s.hbm := rfl
@[simp] theorem setNode_pwr (i : Nat) (f : Node → Node) (s : State) : (setNode i f s).pwr = s.pwr := rfl
@[simp] theorem setNode_fw (i : Nat) (f : Node → Node) (s : State) : (setNode i f s).fw = s.fw := rfl
@[simp] theorem setNode_time (i : Nat) (f : Node → Node) (s : State) : (setNode i f s).time = s.time := rfl
@[simp] theorem setNode_gates (i : Nat) (f : Node → Node) (s : State) : (setNode i f s).gates = s.gates := rfl
@[simp] theorem setNode_strobe (i : Nat) (f : Node → Node) (s : State) : (setNode i f s).strobe = s.strobe := rfl
@[simp] theorem setNode_fns (i : Nat) (f : Node → Node) (s : State) : (setNode i f s).fns = s.fns := rfl
@[simp] theorem setNode_ports (i : Nat) (f : Node → Node) (s : State) : (setNode i f s).ports = s.ports := rfl
@[simp] theorem setNode_sec (i : Nat) (f : Node → Node) (s : State) : (setNode i f s).sec = s.sec := rfl
@[simp] theorem setNode_lanes (i : Nat) (f : Node → Node) (s : State) : (setNode i f s).lanes = s.lanes := rfl
@[simp] theorem setNode_pkts (i : Nat) (f : Node → Node) (s : State) : (setNode i f s).pkts = s.pkts := rfl
@[simp] theorem setNode_nextPkt (i : Nat) (f : Node → Node) (s : State) : (setNode i f s).nextPkt = s.nextPkt := rfl
@[simp] theorem setNode_sets (i : Nat) (f : Node → Node) (s : State) : (setNode i f s).sets = s.sets := rfl
@[simp] theorem setNode_frags (i : Nat) (f : Node → Node) (s : State) : (setNode i f s).frags = s.frags := rfl
@[simp] theorem setNode_holdQ (i : Nat) (f : Node → Node) (s : State) : (setNode i f s).holdQ = s.holdQ := rfl
@[simp] theorem setNode_punts (i : Nat) (f : Node → Node) (s : State) : (setNode i f s).punts = s.punts := rfl
@[simp] theorem setNode_ctxs (i : Nat) (f : Node → Node) (s : State) : (setNode i f s).ctxs = s.ctxs := rfl
@[simp] theorem setNode_seqs (i : Nat) (f : Node → Node) (s : State) : (setNode i f s).seqs = s.seqs := rfl
@[simp] theorem setNode_learns (i : Nat) (f : Node → Node) (s : State) : (setNode i f s).learns = s.learns := rfl
@[simp] theorem setNode_reports (i : Nat) (f : Node → Node) (s : State) : (setNode i f s).reports = s.reports := rfl
@[simp] theorem setNode_ages (i : Nat) (f : Node → Node) (s : State) : (setNode i f s).ages = s.ages := rfl
@[simp] theorem setNode_cnts (i : Nat) (f : Node → Node) (s : State) : (setNode i f s).cnts = s.cnts := rfl
@[simp] theorem setNode_latches (i : Nat) (f : Node → Node) (s : State) : (setNode i f s).latches = s.latches := rfl
@[simp] theorem setNode_parity (i : Nat) (f : Node → Node) (s : State) : (setNode i f s).parity = s.parity := rfl
@[simp] theorem setNode_deliveries (i : Nat) (f : Node → Node) (s : State) : (setNode i f s).deliveries = s.deliveries := rfl
@[simp] theorem setNode_launchHeld (i : Nat) (f : Node → Node) (s : State) : (setNode i f s).launchHeld = s.launchHeld := rfl
@[simp] theorem setNode_turns (i : Nat) (f : Node → Node) (s : State) : (setNode i f s).turns = s.turns := rfl
@[simp] theorem setNode_ciph (i : Nat) (f : Node → Node) (s : State) : (setNode i f s).ciph = s.ciph := rfl
@[simp] theorem setNode_keys (i : Nat) (f : Node → Node) (s : State) : (setNode i f s).keys = s.keys := rfl
@[simp] theorem setNode_xport (i : Nat) (f : Node → Node) (s : State) : (setNode i f s).xport = s.xport := rfl
@[simp] theorem setNode_store (i : Nat) (f : Node → Node) (s : State) : (setNode i f s).store = s.store := rfl
@[simp] theorem setNode_kiln (i : Nat) (f : Node → Node) (s : State) : (setNode i f s).kiln = s.kiln := rfl
@[simp] theorem setNode_age (i : Nat) (f : Node → Node) (s : State) : (setNode i f s).age = s.age := rfl
@[simp] theorem setNode_fi (i : Nat) (f : Node → Node) (s : State) : (setNode i f s).fi = s.fi := rfl
@[simp] theorem setNode_peal (i : Nat) (f : Node → Node) (s : State) : (setNode i f s).peal = s.peal := rfl

@[simp] theorem setKeySlot_tick (i : Nat) (f : KeySlot → KeySlot) (s : State) : (setKeySlot i f s).tick = s.tick := rfl
@[simp] theorem setKeySlot_draws (i : Nat) (f : KeySlot → KeySlot) (s : State) : (setKeySlot i f s).draws = s.draws := rfl
@[simp] theorem setKeySlot_out (i : Nat) (f : KeySlot → KeySlot) (s : State) : (setKeySlot i f s).out = s.out := rfl
@[simp] theorem setKeySlot_pending (i : Nat) (f : KeySlot → KeySlot) (s : State) : (setKeySlot i f s).pending = s.pending := rfl
@[simp] theorem setKeySlot_hbm (i : Nat) (f : KeySlot → KeySlot) (s : State) : (setKeySlot i f s).hbm = s.hbm := rfl
@[simp] theorem setKeySlot_pwr (i : Nat) (f : KeySlot → KeySlot) (s : State) : (setKeySlot i f s).pwr = s.pwr := rfl
@[simp] theorem setKeySlot_fw (i : Nat) (f : KeySlot → KeySlot) (s : State) : (setKeySlot i f s).fw = s.fw := rfl
@[simp] theorem setKeySlot_time (i : Nat) (f : KeySlot → KeySlot) (s : State) : (setKeySlot i f s).time = s.time := rfl
@[simp] theorem setKeySlot_gates (i : Nat) (f : KeySlot → KeySlot) (s : State) : (setKeySlot i f s).gates = s.gates := rfl
@[simp] theorem setKeySlot_strobe (i : Nat) (f : KeySlot → KeySlot) (s : State) : (setKeySlot i f s).strobe = s.strobe := rfl
@[simp] theorem setKeySlot_fns (i : Nat) (f : KeySlot → KeySlot) (s : State) : (setKeySlot i f s).fns = s.fns := rfl
@[simp] theorem setKeySlot_ports (i : Nat) (f : KeySlot → KeySlot) (s : State) : (setKeySlot i f s).ports = s.ports := rfl
@[simp] theorem setKeySlot_sec (i : Nat) (f : KeySlot → KeySlot) (s : State) : (setKeySlot i f s).sec = s.sec := rfl
@[simp] theorem setKeySlot_lanes (i : Nat) (f : KeySlot → KeySlot) (s : State) : (setKeySlot i f s).lanes = s.lanes := rfl
@[simp] theorem setKeySlot_pkts (i : Nat) (f : KeySlot → KeySlot) (s : State) : (setKeySlot i f s).pkts = s.pkts := rfl
@[simp] theorem setKeySlot_nextPkt (i : Nat) (f : KeySlot → KeySlot) (s : State) : (setKeySlot i f s).nextPkt = s.nextPkt := rfl
@[simp] theorem setKeySlot_sets (i : Nat) (f : KeySlot → KeySlot) (s : State) : (setKeySlot i f s).sets = s.sets := rfl
@[simp] theorem setKeySlot_frags (i : Nat) (f : KeySlot → KeySlot) (s : State) : (setKeySlot i f s).frags = s.frags := rfl
@[simp] theorem setKeySlot_holdQ (i : Nat) (f : KeySlot → KeySlot) (s : State) : (setKeySlot i f s).holdQ = s.holdQ := rfl
@[simp] theorem setKeySlot_punts (i : Nat) (f : KeySlot → KeySlot) (s : State) : (setKeySlot i f s).punts = s.punts := rfl
@[simp] theorem setKeySlot_ctxs (i : Nat) (f : KeySlot → KeySlot) (s : State) : (setKeySlot i f s).ctxs = s.ctxs := rfl
@[simp] theorem setKeySlot_seqs (i : Nat) (f : KeySlot → KeySlot) (s : State) : (setKeySlot i f s).seqs = s.seqs := rfl
@[simp] theorem setKeySlot_learns (i : Nat) (f : KeySlot → KeySlot) (s : State) : (setKeySlot i f s).learns = s.learns := rfl
@[simp] theorem setKeySlot_reports (i : Nat) (f : KeySlot → KeySlot) (s : State) : (setKeySlot i f s).reports = s.reports := rfl
@[simp] theorem setKeySlot_ages (i : Nat) (f : KeySlot → KeySlot) (s : State) : (setKeySlot i f s).ages = s.ages := rfl
@[simp] theorem setKeySlot_tm (i : Nat) (f : KeySlot → KeySlot) (s : State) : (setKeySlot i f s).tm = s.tm := rfl
@[simp] theorem setKeySlot_cnts (i : Nat) (f : KeySlot → KeySlot) (s : State) : (setKeySlot i f s).cnts = s.cnts := rfl
@[simp] theorem setKeySlot_latches (i : Nat) (f : KeySlot → KeySlot) (s : State) : (setKeySlot i f s).latches = s.latches := rfl
@[simp] theorem setKeySlot_parity (i : Nat) (f : KeySlot → KeySlot) (s : State) : (setKeySlot i f s).parity = s.parity := rfl
@[simp] theorem setKeySlot_deliveries (i : Nat) (f : KeySlot → KeySlot) (s : State) : (setKeySlot i f s).deliveries = s.deliveries := rfl
@[simp] theorem setKeySlot_launchHeld (i : Nat) (f : KeySlot → KeySlot) (s : State) : (setKeySlot i f s).launchHeld = s.launchHeld := rfl
@[simp] theorem setKeySlot_turns (i : Nat) (f : KeySlot → KeySlot) (s : State) : (setKeySlot i f s).turns = s.turns := rfl
@[simp] theorem setKeySlot_ciph (i : Nat) (f : KeySlot → KeySlot) (s : State) : (setKeySlot i f s).ciph = s.ciph := rfl
@[simp] theorem setKeySlot_xport (i : Nat) (f : KeySlot → KeySlot) (s : State) : (setKeySlot i f s).xport = s.xport := rfl
@[simp] theorem setKeySlot_store (i : Nat) (f : KeySlot → KeySlot) (s : State) : (setKeySlot i f s).store = s.store := rfl
@[simp] theorem setKeySlot_kiln (i : Nat) (f : KeySlot → KeySlot) (s : State) : (setKeySlot i f s).kiln = s.kiln := rfl
@[simp] theorem setKeySlot_age (i : Nat) (f : KeySlot → KeySlot) (s : State) : (setKeySlot i f s).age = s.age := rfl
@[simp] theorem setKeySlot_fi (i : Nat) (f : KeySlot → KeySlot) (s : State) : (setKeySlot i f s).fi = s.fi := rfl
@[simp] theorem setKeySlot_peal (i : Nat) (f : KeySlot → KeySlot) (s : State) : (setKeySlot i f s).peal = s.peal := rfl

end Sys2Proof.Machine
end

