-- ==== Sys2Proof/Laws/Aside.lean ====
section
/-! SUPPORT. Records, replies, interrupts and messages to a host change only what leaves the block, the functions, the host ports
and the count of free values used; every other piece of state stays. -/
namespace Sys2Proof.Machine

@[simp] theorem core_emit (o : Output) (s : State) : core (emit o s) = core s := rfl
@[simp] theorem core_setFn (i : Nat) (f : Fn → Fn) (s : State) : core (setFn i f s) = core s := rfl
@[simp] theorem core_setPort (p : Nat) (f : PcPort → PcPort) (s : State) : core (setPort p f s) = core s := rfl
@[simp] theorem core_useDraw (s : State) : core (useDraw s) = core s := rfl
@[simp] theorem core_setSlot (i k : Nat) (f : QSlot → QSlot) (s : State) : core (setSlot i k f s) = core s := rfl
@[simp] theorem core_setRing (i : Nat) (b : Bool) (f : Ring → Ring) (s : State) : core (setRing i b f s) = core s := rfl
@[simp] theorem core_markDirty a0 a1 a2 (s : State) : core (markDirty a0 a1 a2 s) = core s := by
  unfold markDirty
  (try dsimp only)
  repeat' split
  all_goals simp

@[simp] theorem core_hostWrite a0 a1 a2 a3 a4 (s : State) : core (hostWrite a0 a1 a2 a3 a4 s) = core s := by
  unfold hostWrite
  (try dsimp only)
  repeat' split
  all_goals simp

@[simp] theorem core_setFnIntx a0 a1 (s : State) : core (setFnIntx a0 a1 s) = core s := by
  unfold setFnIntx
  (try dsimp only)
  repeat' split
  all_goals simp

@[simp] theorem core_raiseVector a0 a1 (s : State) : core (raiseVector a0 a1 s) = core s := by
  unfold raiseVector
  (try dsimp only)
  repeat' split
  all_goals simp

@[simp] theorem core_writeEvent a0 a1 (s : State) : core (writeEvent a0 a1 s) = core s := by
  unfold writeEvent
  (try dsimp only)
  repeat' split
  all_goals simp

@[simp] theorem core_deliverEvent a0 a1 (s : State) : core (deliverEvent a0 a1 s) = core s := by
  unfold deliverEvent
  (try dsimp only)
  repeat' split
  all_goals simp

@[simp] theorem core_flushHeld (pf n : Nat) (s : State) : core (flushHeld pf n s) = core s := by
  induction n generalizing s with
  | zero => rfl
  | succ n ih =>
    unfold flushHeld
    split
    · rfl
    · split
      · rw [ih, core_writeEvent, core_setFn]
      · rfl

@[simp] theorem core_flushEvents a0 (s : State) : core (flushEvents a0 s) = core s := by
  unfold flushEvents
  (try dsimp only)
  repeat' split
  all_goals simp

@[simp] theorem core_deliverTo (r : Nat) (l : List Nat) (s : State) : core (deliverTo r l s) = core s := by
  induction l generalizing s with
  | nil => rfl
  | cons a l ih => unfold deliverTo; rw [ih, core_deliverEvent]

@[simp] theorem core_postInst a0 a1 a2 a3 (s : State) : core (postInst a0 a1 a2 a3 s) = core s := by
  unfold postInst; simp

@[simp] theorem core_postAll a0 a1 a2 (s : State) : core (postAll a0 a1 a2 s) = core s := by
  unfold postAll; simp

@[simp] theorem core_postTo a0 a1 a2 a3 (s : State) : core (postTo a0 a1 a2 a3 s) = core s := by
  unfold postTo; simp

@[simp] theorem core_stopRing a0 a1 a2 (s : State) : core (stopRing a0 a1 a2 s) = core s := by
  unfold stopRing
  (try dsimp only)
  repeat' split
  all_goals simp

@[simp] theorem core_writeReply a0 a1 a2 (s : State) : core (writeReply a0 a1 a2 s) = core s := by
  unfold writeReply
  (try dsimp only)
  repeat' split
  all_goals simp

@[simp] theorem core_finishExec a0 a1 a2 a3 (s : State) : core (finishExec a0 a1 a2 a3 s) = core s := by
  unfold finishExec
  (try dsimp only)
  repeat' split
  all_goals simp

@[simp] theorem core_sendRead a0 a1 a2 (s : State) : core (sendRead a0 a1 a2 s) = core s := by
  unfold sendRead
  (try dsimp only)
  repeat' split
  all_goals simp

@[simp] theorem core_issueRead a0 a1 a2 a3 (s : State) : core (issueRead a0 a1 a2 a3 s) = core s := by
  unfold issueRead
  (try dsimp only)
  repeat' split
  all_goals simp

@[simp] theorem core_issueWaiting a0 (s : State) : core (issueWaiting a0 s) = core s := by
  unfold issueWaiting
  (try dsimp only)
  repeat' split
  all_goals simp

@[simp] theorem core_dropReqs a0 a1 (s : State) : core (dropReqs a0 a1 s) = core s := by
  unfold dropReqs; simp

/-! Field by field, for the operations that end most effects. -/

theorem tick_of_core {s t : State} (h : core t = core s) : t.tick = s.tick := by have := congrArg State.tick h; exact this
theorem pending_of_core {s t : State} (h : core t = core s) : t.pending = s.pending := by have := congrArg State.pending h; exact this
theorem hbm_of_core {s t : State} (h : core t = core s) : t.hbm = s.hbm := by have := congrArg State.hbm h; exact this
theorem pwr_of_core {s t : State} (h : core t = core s) : t.pwr = s.pwr := by have := congrArg State.pwr h; exact this
theorem fw_of_core {s t : State} (h : core t = core s) : t.fw = s.fw := by have := congrArg State.fw h; exact this
theorem time_of_core {s t : State} (h : core t = core s) : t.time = s.time := by have := congrArg State.time h; exact this
theorem gates_of_core {s t : State} (h : core t = core s) : t.gates = s.gates := by have := congrArg State.gates h; exact this
theorem strobe_of_core {s t : State} (h : core t = core s) : t.strobe = s.strobe := by have := congrArg State.strobe h; exact this
theorem sec_of_core {s t : State} (h : core t = core s) : t.sec = s.sec := by have := congrArg State.sec h; exact this
theorem lanes_of_core {s t : State} (h : core t = core s) : t.lanes = s.lanes := by have := congrArg State.lanes h; exact this
theorem pkts_of_core {s t : State} (h : core t = core s) : t.pkts = s.pkts := by have := congrArg State.pkts h; exact this
theorem nextPkt_of_core {s t : State} (h : core t = core s) : t.nextPkt = s.nextPkt := by have := congrArg State.nextPkt h; exact this
theorem sets_of_core {s t : State} (h : core t = core s) : t.sets = s.sets := by have := congrArg State.sets h; exact this
theorem frags_of_core {s t : State} (h : core t = core s) : t.frags = s.frags := by have := congrArg State.frags h; exact this
theorem holdQ_of_core {s t : State} (h : core t = core s) : t.holdQ = s.holdQ := by have := congrArg State.holdQ h; exact this
theorem punts_of_core {s t : State} (h : core t = core s) : t.punts = s.punts := by have := congrArg State.punts h; exact this
theorem ctxs_of_core {s t : State} (h : core t = core s) : t.ctxs = s.ctxs := by have := congrArg State.ctxs h; exact this
theorem seqs_of_core {s t : State} (h : core t = core s) : t.seqs = s.seqs := by have := congrArg State.seqs h; exact this
theorem learns_of_core {s t : State} (h : core t = core s) : t.learns = s.learns := by have := congrArg State.learns h; exact this
theorem reports_of_core {s t : State} (h : core t = core s) : t.reports = s.reports := by have := congrArg State.reports h; exact this
theorem ages_of_core {s t : State} (h : core t = core s) : t.ages = s.ages := by have := congrArg State.ages h; exact this
theorem tm_of_core {s t : State} (h : core t = core s) : t.tm = s.tm := by have := congrArg State.tm h; exact this
theorem cnts_of_core {s t : State} (h : core t = core s) : t.cnts = s.cnts := by have := congrArg State.cnts h; exact this
theorem latches_of_core {s t : State} (h : core t = core s) : t.latches = s.latches := by have := congrArg State.latches h; exact this
theorem parity_of_core {s t : State} (h : core t = core s) : t.parity = s.parity := by have := congrArg State.parity h; exact this
theorem deliveries_of_core {s t : State} (h : core t = core s) : t.deliveries = s.deliveries := by have := congrArg State.deliveries h; exact this
theorem launchHeld_of_core {s t : State} (h : core t = core s) : t.launchHeld = s.launchHeld := by have := congrArg State.launchHeld h; exact this
theorem turns_of_core {s t : State} (h : core t = core s) : t.turns = s.turns := by have := congrArg State.turns h; exact this
theorem ciph_of_core {s t : State} (h : core t = core s) : t.ciph = s.ciph := by have := congrArg State.ciph h; exact this
theorem keys_of_core {s t : State} (h : core t = core s) : t.keys = s.keys := by have := congrArg State.keys h; exact this
theorem xport_of_core {s t : State} (h : core t = core s) : t.xport = s.xport := by have := congrArg State.xport h; exact this
theorem store_of_core {s t : State} (h : core t = core s) : t.store = s.store := by have := congrArg State.store h; exact this
theorem kiln_of_core {s t : State} (h : core t = core s) : t.kiln = s.kiln := by have := congrArg State.kiln h; exact this
theorem age_of_core {s t : State} (h : core t = core s) : t.age = s.age := by have := congrArg State.age h; exact this
theorem fi_of_core {s t : State} (h : core t = core s) : t.fi = s.fi := by have := congrArg State.fi h; exact this
theorem peal_of_core {s t : State} (h : core t = core s) : t.peal = s.peal := by have := congrArg State.peal h; exact this
@[simp] theorem postInst_tick a0 a1 a2 a3 (s : State) : (postInst a0 a1 a2 a3 s).tick = s.tick := tick_of_core (core_postInst a0 a1 a2 a3 s)
@[simp] theorem postInst_pending a0 a1 a2 a3 (s : State) : (postInst a0 a1 a2 a3 s).pending = s.pending := pending_of_core (core_postInst a0 a1 a2 a3 s)
@[simp] theorem postInst_hbm a0 a1 a2 a3 (s : State) : (postInst a0 a1 a2 a3 s).hbm = s.hbm := hbm_of_core (core_postInst a0 a1 a2 a3 s)
@[simp] theorem postInst_pwr a0 a1 a2 a3 (s : State) : (postInst a0 a1 a2 a3 s).pwr = s.pwr := pwr_of_core (core_postInst a0 a1 a2 a3 s)
@[simp] theorem postInst_fw a0 a1 a2 a3 (s : State) : (postInst a0 a1 a2 a3 s).fw = s.fw := fw_of_core (core_postInst a0 a1 a2 a3 s)
@[simp] theorem postInst_time a0 a1 a2 a3 (s : State) : (postInst a0 a1 a2 a3 s).time = s.time := time_of_core (core_postInst a0 a1 a2 a3 s)
@[simp] theorem postInst_gates a0 a1 a2 a3 (s : State) : (postInst a0 a1 a2 a3 s).gates = s.gates := gates_of_core (core_postInst a0 a1 a2 a3 s)
@[simp] theorem postInst_strobe a0 a1 a2 a3 (s : State) : (postInst a0 a1 a2 a3 s).strobe = s.strobe := strobe_of_core (core_postInst a0 a1 a2 a3 s)
@[simp] theorem postInst_sec a0 a1 a2 a3 (s : State) : (postInst a0 a1 a2 a3 s).sec = s.sec := sec_of_core (core_postInst a0 a1 a2 a3 s)
@[simp] theorem postInst_lanes a0 a1 a2 a3 (s : State) : (postInst a0 a1 a2 a3 s).lanes = s.lanes := lanes_of_core (core_postInst a0 a1 a2 a3 s)
@[simp] theorem postInst_pkts a0 a1 a2 a3 (s : State) : (postInst a0 a1 a2 a3 s).pkts = s.pkts := pkts_of_core (core_postInst a0 a1 a2 a3 s)
@[simp] theorem postInst_nextPkt a0 a1 a2 a3 (s : State) : (postInst a0 a1 a2 a3 s).nextPkt = s.nextPkt := nextPkt_of_core (core_postInst a0 a1 a2 a3 s)
@[simp] theorem postInst_sets a0 a1 a2 a3 (s : State) : (postInst a0 a1 a2 a3 s).sets = s.sets := sets_of_core (core_postInst a0 a1 a2 a3 s)
@[simp] theorem postInst_frags a0 a1 a2 a3 (s : State) : (postInst a0 a1 a2 a3 s).frags = s.frags := frags_of_core (core_postInst a0 a1 a2 a3 s)
@[simp] theorem postInst_holdQ a0 a1 a2 a3 (s : State) : (postInst a0 a1 a2 a3 s).holdQ = s.holdQ := holdQ_of_core (core_postInst a0 a1 a2 a3 s)
@[simp] theorem postInst_punts a0 a1 a2 a3 (s : State) : (postInst a0 a1 a2 a3 s).punts = s.punts := punts_of_core (core_postInst a0 a1 a2 a3 s)
@[simp] theorem postInst_ctxs a0 a1 a2 a3 (s : State) : (postInst a0 a1 a2 a3 s).ctxs = s.ctxs := ctxs_of_core (core_postInst a0 a1 a2 a3 s)
@[simp] theorem postInst_seqs a0 a1 a2 a3 (s : State) : (postInst a0 a1 a2 a3 s).seqs = s.seqs := seqs_of_core (core_postInst a0 a1 a2 a3 s)
@[simp] theorem postInst_learns a0 a1 a2 a3 (s : State) : (postInst a0 a1 a2 a3 s).learns = s.learns := learns_of_core (core_postInst a0 a1 a2 a3 s)
@[simp] theorem postInst_reports a0 a1 a2 a3 (s : State) : (postInst a0 a1 a2 a3 s).reports = s.reports := reports_of_core (core_postInst a0 a1 a2 a3 s)
@[simp] theorem postInst_ages a0 a1 a2 a3 (s : State) : (postInst a0 a1 a2 a3 s).ages = s.ages := ages_of_core (core_postInst a0 a1 a2 a3 s)
@[simp] theorem postInst_tm a0 a1 a2 a3 (s : State) : (postInst a0 a1 a2 a3 s).tm = s.tm := tm_of_core (core_postInst a0 a1 a2 a3 s)
@[simp] theorem postInst_cnts a0 a1 a2 a3 (s : State) : (postInst a0 a1 a2 a3 s).cnts = s.cnts := cnts_of_core (core_postInst a0 a1 a2 a3 s)
@[simp] theorem postInst_latches a0 a1 a2 a3 (s : State) : (postInst a0 a1 a2 a3 s).latches = s.latches := latches_of_core (core_postInst a0 a1 a2 a3 s)
@[simp] theorem postInst_parity a0 a1 a2 a3 (s : State) : (postInst a0 a1 a2 a3 s).parity = s.parity := parity_of_core (core_postInst a0 a1 a2 a3 s)
@[simp] theorem postInst_deliveries a0 a1 a2 a3 (s : State) : (postInst a0 a1 a2 a3 s).deliveries = s.deliveries := deliveries_of_core (core_postInst a0 a1 a2 a3 s)
@[simp] theorem postInst_launchHeld a0 a1 a2 a3 (s : State) : (postInst a0 a1 a2 a3 s).launchHeld = s.launchHeld := launchHeld_of_core (core_postInst a0 a1 a2 a3 s)
@[simp] theorem postInst_turns a0 a1 a2 a3 (s : State) : (postInst a0 a1 a2 a3 s).turns = s.turns := turns_of_core (core_postInst a0 a1 a2 a3 s)
@[simp] theorem postInst_ciph a0 a1 a2 a3 (s : State) : (postInst a0 a1 a2 a3 s).ciph = s.ciph := ciph_of_core (core_postInst a0 a1 a2 a3 s)
@[simp] theorem postInst_keys a0 a1 a2 a3 (s : State) : (postInst a0 a1 a2 a3 s).keys = s.keys := keys_of_core (core_postInst a0 a1 a2 a3 s)
@[simp] theorem postInst_xport a0 a1 a2 a3 (s : State) : (postInst a0 a1 a2 a3 s).xport = s.xport := xport_of_core (core_postInst a0 a1 a2 a3 s)
@[simp] theorem postInst_store a0 a1 a2 a3 (s : State) : (postInst a0 a1 a2 a3 s).store = s.store := store_of_core (core_postInst a0 a1 a2 a3 s)
@[simp] theorem postInst_kiln a0 a1 a2 a3 (s : State) : (postInst a0 a1 a2 a3 s).kiln = s.kiln := kiln_of_core (core_postInst a0 a1 a2 a3 s)
@[simp] theorem postInst_age a0 a1 a2 a3 (s : State) : (postInst a0 a1 a2 a3 s).age = s.age := age_of_core (core_postInst a0 a1 a2 a3 s)
@[simp] theorem postInst_fi a0 a1 a2 a3 (s : State) : (postInst a0 a1 a2 a3 s).fi = s.fi := fi_of_core (core_postInst a0 a1 a2 a3 s)
@[simp] theorem postInst_peal a0 a1 a2 a3 (s : State) : (postInst a0 a1 a2 a3 s).peal = s.peal := peal_of_core (core_postInst a0 a1 a2 a3 s)
@[simp] theorem postAll_tick a0 a1 a2 (s : State) : (postAll a0 a1 a2 s).tick = s.tick := tick_of_core (core_postAll a0 a1 a2 s)
@[simp] theorem postAll_pending a0 a1 a2 (s : State) : (postAll a0 a1 a2 s).pending = s.pending := pending_of_core (core_postAll a0 a1 a2 s)
@[simp] theorem postAll_hbm a0 a1 a2 (s : State) : (postAll a0 a1 a2 s).hbm = s.hbm := hbm_of_core (core_postAll a0 a1 a2 s)
@[simp] theorem postAll_pwr a0 a1 a2 (s : State) : (postAll a0 a1 a2 s).pwr = s.pwr := pwr_of_core (core_postAll a0 a1 a2 s)
@[simp] theorem postAll_fw a0 a1 a2 (s : State) : (postAll a0 a1 a2 s).fw = s.fw := fw_of_core (core_postAll a0 a1 a2 s)
@[simp] theorem postAll_time a0 a1 a2 (s : State) : (postAll a0 a1 a2 s).time = s.time := time_of_core (core_postAll a0 a1 a2 s)
@[simp] theorem postAll_gates a0 a1 a2 (s : State) : (postAll a0 a1 a2 s).gates = s.gates := gates_of_core (core_postAll a0 a1 a2 s)
@[simp] theorem postAll_strobe a0 a1 a2 (s : State) : (postAll a0 a1 a2 s).strobe = s.strobe := strobe_of_core (core_postAll a0 a1 a2 s)
@[simp] theorem postAll_sec a0 a1 a2 (s : State) : (postAll a0 a1 a2 s).sec = s.sec := sec_of_core (core_postAll a0 a1 a2 s)
@[simp] theorem postAll_lanes a0 a1 a2 (s : State) : (postAll a0 a1 a2 s).lanes = s.lanes := lanes_of_core (core_postAll a0 a1 a2 s)
@[simp] theorem postAll_pkts a0 a1 a2 (s : State) : (postAll a0 a1 a2 s).pkts = s.pkts := pkts_of_core (core_postAll a0 a1 a2 s)
@[simp] theorem postAll_nextPkt a0 a1 a2 (s : State) : (postAll a0 a1 a2 s).nextPkt = s.nextPkt := nextPkt_of_core (core_postAll a0 a1 a2 s)
@[simp] theorem postAll_sets a0 a1 a2 (s : State) : (postAll a0 a1 a2 s).sets = s.sets := sets_of_core (core_postAll a0 a1 a2 s)
@[simp] theorem postAll_frags a0 a1 a2 (s : State) : (postAll a0 a1 a2 s).frags = s.frags := frags_of_core (core_postAll a0 a1 a2 s)
@[simp] theorem postAll_holdQ a0 a1 a2 (s : State) : (postAll a0 a1 a2 s).holdQ = s.holdQ := holdQ_of_core (core_postAll a0 a1 a2 s)
@[simp] theorem postAll_punts a0 a1 a2 (s : State) : (postAll a0 a1 a2 s).punts = s.punts := punts_of_core (core_postAll a0 a1 a2 s)
@[simp] theorem postAll_ctxs a0 a1 a2 (s : State) : (postAll a0 a1 a2 s).ctxs = s.ctxs := ctxs_of_core (core_postAll a0 a1 a2 s)
@[simp] theorem postAll_seqs a0 a1 a2 (s : State) : (postAll a0 a1 a2 s).seqs = s.seqs := seqs_of_core (core_postAll a0 a1 a2 s)
@[simp] theorem postAll_learns a0 a1 a2 (s : State) : (postAll a0 a1 a2 s).learns = s.learns := learns_of_core (core_postAll a0 a1 a2 s)
@[simp] theorem postAll_reports a0 a1 a2 (s : State) : (postAll a0 a1 a2 s).reports = s.reports := reports_of_core (core_postAll a0 a1 a2 s)
@[simp] theorem postAll_ages a0 a1 a2 (s : State) : (postAll a0 a1 a2 s).ages = s.ages := ages_of_core (core_postAll a0 a1 a2 s)
@[simp] theorem postAll_tm a0 a1 a2 (s : State) : (postAll a0 a1 a2 s).tm = s.tm := tm_of_core (core_postAll a0 a1 a2 s)
@[simp] theorem postAll_cnts a0 a1 a2 (s : State) : (postAll a0 a1 a2 s).cnts = s.cnts := cnts_of_core (core_postAll a0 a1 a2 s)
@[simp] theorem postAll_latches a0 a1 a2 (s : State) : (postAll a0 a1 a2 s).latches = s.latches := latches_of_core (core_postAll a0 a1 a2 s)
@[simp] theorem postAll_parity a0 a1 a2 (s : State) : (postAll a0 a1 a2 s).parity = s.parity := parity_of_core (core_postAll a0 a1 a2 s)
@[simp] theorem postAll_deliveries a0 a1 a2 (s : State) : (postAll a0 a1 a2 s).deliveries = s.deliveries := deliveries_of_core (core_postAll a0 a1 a2 s)
@[simp] theorem postAll_launchHeld a0 a1 a2 (s : State) : (postAll a0 a1 a2 s).launchHeld = s.launchHeld := launchHeld_of_core (core_postAll a0 a1 a2 s)
@[simp] theorem postAll_turns a0 a1 a2 (s : State) : (postAll a0 a1 a2 s).turns = s.turns := turns_of_core (core_postAll a0 a1 a2 s)
@[simp] theorem postAll_ciph a0 a1 a2 (s : State) : (postAll a0 a1 a2 s).ciph = s.ciph := ciph_of_core (core_postAll a0 a1 a2 s)
@[simp] theorem postAll_keys a0 a1 a2 (s : State) : (postAll a0 a1 a2 s).keys = s.keys := keys_of_core (core_postAll a0 a1 a2 s)
@[simp] theorem postAll_xport a0 a1 a2 (s : State) : (postAll a0 a1 a2 s).xport = s.xport := xport_of_core (core_postAll a0 a1 a2 s)
@[simp] theorem postAll_store a0 a1 a2 (s : State) : (postAll a0 a1 a2 s).store = s.store := store_of_core (core_postAll a0 a1 a2 s)
@[simp] theorem postAll_kiln a0 a1 a2 (s : State) : (postAll a0 a1 a2 s).kiln = s.kiln := kiln_of_core (core_postAll a0 a1 a2 s)
@[simp] theorem postAll_age a0 a1 a2 (s : State) : (postAll a0 a1 a2 s).age = s.age := age_of_core (core_postAll a0 a1 a2 s)
@[simp] theorem postAll_fi a0 a1 a2 (s : State) : (postAll a0 a1 a2 s).fi = s.fi := fi_of_core (core_postAll a0 a1 a2 s)
@[simp] theorem postAll_peal a0 a1 a2 (s : State) : (postAll a0 a1 a2 s).peal = s.peal := peal_of_core (core_postAll a0 a1 a2 s)
@[simp] theorem postTo_tick a0 a1 a2 a3 (s : State) : (postTo a0 a1 a2 a3 s).tick = s.tick := tick_of_core (core_postTo a0 a1 a2 a3 s)
@[simp] theorem postTo_pending a0 a1 a2 a3 (s : State) : (postTo a0 a1 a2 a3 s).pending = s.pending := pending_of_core (core_postTo a0 a1 a2 a3 s)
@[simp] theorem postTo_hbm a0 a1 a2 a3 (s : State) : (postTo a0 a1 a2 a3 s).hbm = s.hbm := hbm_of_core (core_postTo a0 a1 a2 a3 s)
@[simp] theorem postTo_pwr a0 a1 a2 a3 (s : State) : (postTo a0 a1 a2 a3 s).pwr = s.pwr := pwr_of_core (core_postTo a0 a1 a2 a3 s)
@[simp] theorem postTo_fw a0 a1 a2 a3 (s : State) : (postTo a0 a1 a2 a3 s).fw = s.fw := fw_of_core (core_postTo a0 a1 a2 a3 s)
@[simp] theorem postTo_time a0 a1 a2 a3 (s : State) : (postTo a0 a1 a2 a3 s).time = s.time := time_of_core (core_postTo a0 a1 a2 a3 s)
@[simp] theorem postTo_gates a0 a1 a2 a3 (s : State) : (postTo a0 a1 a2 a3 s).gates = s.gates := gates_of_core (core_postTo a0 a1 a2 a3 s)
@[simp] theorem postTo_strobe a0 a1 a2 a3 (s : State) : (postTo a0 a1 a2 a3 s).strobe = s.strobe := strobe_of_core (core_postTo a0 a1 a2 a3 s)
@[simp] theorem postTo_sec a0 a1 a2 a3 (s : State) : (postTo a0 a1 a2 a3 s).sec = s.sec := sec_of_core (core_postTo a0 a1 a2 a3 s)
@[simp] theorem postTo_lanes a0 a1 a2 a3 (s : State) : (postTo a0 a1 a2 a3 s).lanes = s.lanes := lanes_of_core (core_postTo a0 a1 a2 a3 s)
@[simp] theorem postTo_pkts a0 a1 a2 a3 (s : State) : (postTo a0 a1 a2 a3 s).pkts = s.pkts := pkts_of_core (core_postTo a0 a1 a2 a3 s)
@[simp] theorem postTo_nextPkt a0 a1 a2 a3 (s : State) : (postTo a0 a1 a2 a3 s).nextPkt = s.nextPkt := nextPkt_of_core (core_postTo a0 a1 a2 a3 s)
@[simp] theorem postTo_sets a0 a1 a2 a3 (s : State) : (postTo a0 a1 a2 a3 s).sets = s.sets := sets_of_core (core_postTo a0 a1 a2 a3 s)
@[simp] theorem postTo_frags a0 a1 a2 a3 (s : State) : (postTo a0 a1 a2 a3 s).frags = s.frags := frags_of_core (core_postTo a0 a1 a2 a3 s)
@[simp] theorem postTo_holdQ a0 a1 a2 a3 (s : State) : (postTo a0 a1 a2 a3 s).holdQ = s.holdQ := holdQ_of_core (core_postTo a0 a1 a2 a3 s)
@[simp] theorem postTo_punts a0 a1 a2 a3 (s : State) : (postTo a0 a1 a2 a3 s).punts = s.punts := punts_of_core (core_postTo a0 a1 a2 a3 s)
@[simp] theorem postTo_ctxs a0 a1 a2 a3 (s : State) : (postTo a0 a1 a2 a3 s).ctxs = s.ctxs := ctxs_of_core (core_postTo a0 a1 a2 a3 s)
@[simp] theorem postTo_seqs a0 a1 a2 a3 (s : State) : (postTo a0 a1 a2 a3 s).seqs = s.seqs := seqs_of_core (core_postTo a0 a1 a2 a3 s)
@[simp] theorem postTo_learns a0 a1 a2 a3 (s : State) : (postTo a0 a1 a2 a3 s).learns = s.learns := learns_of_core (core_postTo a0 a1 a2 a3 s)
@[simp] theorem postTo_reports a0 a1 a2 a3 (s : State) : (postTo a0 a1 a2 a3 s).reports = s.reports := reports_of_core (core_postTo a0 a1 a2 a3 s)
@[simp] theorem postTo_ages a0 a1 a2 a3 (s : State) : (postTo a0 a1 a2 a3 s).ages = s.ages := ages_of_core (core_postTo a0 a1 a2 a3 s)
@[simp] theorem postTo_tm a0 a1 a2 a3 (s : State) : (postTo a0 a1 a2 a3 s).tm = s.tm := tm_of_core (core_postTo a0 a1 a2 a3 s)
@[simp] theorem postTo_cnts a0 a1 a2 a3 (s : State) : (postTo a0 a1 a2 a3 s).cnts = s.cnts := cnts_of_core (core_postTo a0 a1 a2 a3 s)
@[simp] theorem postTo_latches a0 a1 a2 a3 (s : State) : (postTo a0 a1 a2 a3 s).latches = s.latches := latches_of_core (core_postTo a0 a1 a2 a3 s)
@[simp] theorem postTo_parity a0 a1 a2 a3 (s : State) : (postTo a0 a1 a2 a3 s).parity = s.parity := parity_of_core (core_postTo a0 a1 a2 a3 s)
@[simp] theorem postTo_deliveries a0 a1 a2 a3 (s : State) : (postTo a0 a1 a2 a3 s).deliveries = s.deliveries := deliveries_of_core (core_postTo a0 a1 a2 a3 s)
@[simp] theorem postTo_launchHeld a0 a1 a2 a3 (s : State) : (postTo a0 a1 a2 a3 s).launchHeld = s.launchHeld := launchHeld_of_core (core_postTo a0 a1 a2 a3 s)
@[simp] theorem postTo_turns a0 a1 a2 a3 (s : State) : (postTo a0 a1 a2 a3 s).turns = s.turns := turns_of_core (core_postTo a0 a1 a2 a3 s)
@[simp] theorem postTo_ciph a0 a1 a2 a3 (s : State) : (postTo a0 a1 a2 a3 s).ciph = s.ciph := ciph_of_core (core_postTo a0 a1 a2 a3 s)
@[simp] theorem postTo_keys a0 a1 a2 a3 (s : State) : (postTo a0 a1 a2 a3 s).keys = s.keys := keys_of_core (core_postTo a0 a1 a2 a3 s)
@[simp] theorem postTo_xport a0 a1 a2 a3 (s : State) : (postTo a0 a1 a2 a3 s).xport = s.xport := xport_of_core (core_postTo a0 a1 a2 a3 s)
@[simp] theorem postTo_store a0 a1 a2 a3 (s : State) : (postTo a0 a1 a2 a3 s).store = s.store := store_of_core (core_postTo a0 a1 a2 a3 s)
@[simp] theorem postTo_kiln a0 a1 a2 a3 (s : State) : (postTo a0 a1 a2 a3 s).kiln = s.kiln := kiln_of_core (core_postTo a0 a1 a2 a3 s)
@[simp] theorem postTo_age a0 a1 a2 a3 (s : State) : (postTo a0 a1 a2 a3 s).age = s.age := age_of_core (core_postTo a0 a1 a2 a3 s)
@[simp] theorem postTo_fi a0 a1 a2 a3 (s : State) : (postTo a0 a1 a2 a3 s).fi = s.fi := fi_of_core (core_postTo a0 a1 a2 a3 s)
@[simp] theorem postTo_peal a0 a1 a2 a3 (s : State) : (postTo a0 a1 a2 a3 s).peal = s.peal := peal_of_core (core_postTo a0 a1 a2 a3 s)
@[simp] theorem writeReply_tick a0 a1 a2 (s : State) : (writeReply a0 a1 a2 s).tick = s.tick := tick_of_core (core_writeReply a0 a1 a2 s)
@[simp] theorem writeReply_pending a0 a1 a2 (s : State) : (writeReply a0 a1 a2 s).pending = s.pending := pending_of_core (core_writeReply a0 a1 a2 s)
@[simp] theorem writeReply_hbm a0 a1 a2 (s : State) : (writeReply a0 a1 a2 s).hbm = s.hbm := hbm_of_core (core_writeReply a0 a1 a2 s)
@[simp] theorem writeReply_pwr a0 a1 a2 (s : State) : (writeReply a0 a1 a2 s).pwr = s.pwr := pwr_of_core (core_writeReply a0 a1 a2 s)
@[simp] theorem writeReply_fw a0 a1 a2 (s : State) : (writeReply a0 a1 a2 s).fw = s.fw := fw_of_core (core_writeReply a0 a1 a2 s)
@[simp] theorem writeReply_time a0 a1 a2 (s : State) : (writeReply a0 a1 a2 s).time = s.time := time_of_core (core_writeReply a0 a1 a2 s)
@[simp] theorem writeReply_gates a0 a1 a2 (s : State) : (writeReply a0 a1 a2 s).gates = s.gates := gates_of_core (core_writeReply a0 a1 a2 s)
@[simp] theorem writeReply_strobe a0 a1 a2 (s : State) : (writeReply a0 a1 a2 s).strobe = s.strobe := strobe_of_core (core_writeReply a0 a1 a2 s)
@[simp] theorem writeReply_sec a0 a1 a2 (s : State) : (writeReply a0 a1 a2 s).sec = s.sec := sec_of_core (core_writeReply a0 a1 a2 s)
@[simp] theorem writeReply_lanes a0 a1 a2 (s : State) : (writeReply a0 a1 a2 s).lanes = s.lanes := lanes_of_core (core_writeReply a0 a1 a2 s)
@[simp] theorem writeReply_pkts a0 a1 a2 (s : State) : (writeReply a0 a1 a2 s).pkts = s.pkts := pkts_of_core (core_writeReply a0 a1 a2 s)
@[simp] theorem writeReply_nextPkt a0 a1 a2 (s : State) : (writeReply a0 a1 a2 s).nextPkt = s.nextPkt := nextPkt_of_core (core_writeReply a0 a1 a2 s)
@[simp] theorem writeReply_sets a0 a1 a2 (s : State) : (writeReply a0 a1 a2 s).sets = s.sets := sets_of_core (core_writeReply a0 a1 a2 s)
@[simp] theorem writeReply_frags a0 a1 a2 (s : State) : (writeReply a0 a1 a2 s).frags = s.frags := frags_of_core (core_writeReply a0 a1 a2 s)
@[simp] theorem writeReply_holdQ a0 a1 a2 (s : State) : (writeReply a0 a1 a2 s).holdQ = s.holdQ := holdQ_of_core (core_writeReply a0 a1 a2 s)
@[simp] theorem writeReply_punts a0 a1 a2 (s : State) : (writeReply a0 a1 a2 s).punts = s.punts := punts_of_core (core_writeReply a0 a1 a2 s)
@[simp] theorem writeReply_ctxs a0 a1 a2 (s : State) : (writeReply a0 a1 a2 s).ctxs = s.ctxs := ctxs_of_core (core_writeReply a0 a1 a2 s)
@[simp] theorem writeReply_seqs a0 a1 a2 (s : State) : (writeReply a0 a1 a2 s).seqs = s.seqs := seqs_of_core (core_writeReply a0 a1 a2 s)
@[simp] theorem writeReply_learns a0 a1 a2 (s : State) : (writeReply a0 a1 a2 s).learns = s.learns := learns_of_core (core_writeReply a0 a1 a2 s)
@[simp] theorem writeReply_reports a0 a1 a2 (s : State) : (writeReply a0 a1 a2 s).reports = s.reports := reports_of_core (core_writeReply a0 a1 a2 s)
@[simp] theorem writeReply_ages a0 a1 a2 (s : State) : (writeReply a0 a1 a2 s).ages = s.ages := ages_of_core (core_writeReply a0 a1 a2 s)
@[simp] theorem writeReply_tm a0 a1 a2 (s : State) : (writeReply a0 a1 a2 s).tm = s.tm := tm_of_core (core_writeReply a0 a1 a2 s)
@[simp] theorem writeReply_cnts a0 a1 a2 (s : State) : (writeReply a0 a1 a2 s).cnts = s.cnts := cnts_of_core (core_writeReply a0 a1 a2 s)
@[simp] theorem writeReply_latches a0 a1 a2 (s : State) : (writeReply a0 a1 a2 s).latches = s.latches := latches_of_core (core_writeReply a0 a1 a2 s)
@[simp] theorem writeReply_parity a0 a1 a2 (s : State) : (writeReply a0 a1 a2 s).parity = s.parity := parity_of_core (core_writeReply a0 a1 a2 s)
@[simp] theorem writeReply_deliveries a0 a1 a2 (s : State) : (writeReply a0 a1 a2 s).deliveries = s.deliveries := deliveries_of_core (core_writeReply a0 a1 a2 s)
@[simp] theorem writeReply_launchHeld a0 a1 a2 (s : State) : (writeReply a0 a1 a2 s).launchHeld = s.launchHeld := launchHeld_of_core (core_writeReply a0 a1 a2 s)
@[simp] theorem writeReply_turns a0 a1 a2 (s : State) : (writeReply a0 a1 a2 s).turns = s.turns := turns_of_core (core_writeReply a0 a1 a2 s)
@[simp] theorem writeReply_ciph a0 a1 a2 (s : State) : (writeReply a0 a1 a2 s).ciph = s.ciph := ciph_of_core (core_writeReply a0 a1 a2 s)
@[simp] theorem writeReply_keys a0 a1 a2 (s : State) : (writeReply a0 a1 a2 s).keys = s.keys := keys_of_core (core_writeReply a0 a1 a2 s)
@[simp] theorem writeReply_xport a0 a1 a2 (s : State) : (writeReply a0 a1 a2 s).xport = s.xport := xport_of_core (core_writeReply a0 a1 a2 s)
@[simp] theorem writeReply_store a0 a1 a2 (s : State) : (writeReply a0 a1 a2 s).store = s.store := store_of_core (core_writeReply a0 a1 a2 s)
@[simp] theorem writeReply_kiln a0 a1 a2 (s : State) : (writeReply a0 a1 a2 s).kiln = s.kiln := kiln_of_core (core_writeReply a0 a1 a2 s)
@[simp] theorem writeReply_age a0 a1 a2 (s : State) : (writeReply a0 a1 a2 s).age = s.age := age_of_core (core_writeReply a0 a1 a2 s)
@[simp] theorem writeReply_fi a0 a1 a2 (s : State) : (writeReply a0 a1 a2 s).fi = s.fi := fi_of_core (core_writeReply a0 a1 a2 s)
@[simp] theorem writeReply_peal a0 a1 a2 (s : State) : (writeReply a0 a1 a2 s).peal = s.peal := peal_of_core (core_writeReply a0 a1 a2 s)
@[simp] theorem finishExec_tick a0 a1 a2 a3 (s : State) : (finishExec a0 a1 a2 a3 s).tick = s.tick := tick_of_core (core_finishExec a0 a1 a2 a3 s)
@[simp] theorem finishExec_pending a0 a1 a2 a3 (s : State) : (finishExec a0 a1 a2 a3 s).pending = s.pending := pending_of_core (core_finishExec a0 a1 a2 a3 s)
@[simp] theorem finishExec_hbm a0 a1 a2 a3 (s : State) : (finishExec a0 a1 a2 a3 s).hbm = s.hbm := hbm_of_core (core_finishExec a0 a1 a2 a3 s)
@[simp] theorem finishExec_pwr a0 a1 a2 a3 (s : State) : (finishExec a0 a1 a2 a3 s).pwr = s.pwr := pwr_of_core (core_finishExec a0 a1 a2 a3 s)
@[simp] theorem finishExec_fw a0 a1 a2 a3 (s : State) : (finishExec a0 a1 a2 a3 s).fw = s.fw := fw_of_core (core_finishExec a0 a1 a2 a3 s)
@[simp] theorem finishExec_time a0 a1 a2 a3 (s : State) : (finishExec a0 a1 a2 a3 s).time = s.time := time_of_core (core_finishExec a0 a1 a2 a3 s)
@[simp] theorem finishExec_gates a0 a1 a2 a3 (s : State) : (finishExec a0 a1 a2 a3 s).gates = s.gates := gates_of_core (core_finishExec a0 a1 a2 a3 s)
@[simp] theorem finishExec_strobe a0 a1 a2 a3 (s : State) : (finishExec a0 a1 a2 a3 s).strobe = s.strobe := strobe_of_core (core_finishExec a0 a1 a2 a3 s)
@[simp] theorem finishExec_sec a0 a1 a2 a3 (s : State) : (finishExec a0 a1 a2 a3 s).sec = s.sec := sec_of_core (core_finishExec a0 a1 a2 a3 s)
@[simp] theorem finishExec_lanes a0 a1 a2 a3 (s : State) : (finishExec a0 a1 a2 a3 s).lanes = s.lanes := lanes_of_core (core_finishExec a0 a1 a2 a3 s)
@[simp] theorem finishExec_pkts a0 a1 a2 a3 (s : State) : (finishExec a0 a1 a2 a3 s).pkts = s.pkts := pkts_of_core (core_finishExec a0 a1 a2 a3 s)
@[simp] theorem finishExec_nextPkt a0 a1 a2 a3 (s : State) : (finishExec a0 a1 a2 a3 s).nextPkt = s.nextPkt := nextPkt_of_core (core_finishExec a0 a1 a2 a3 s)
@[simp] theorem finishExec_sets a0 a1 a2 a3 (s : State) : (finishExec a0 a1 a2 a3 s).sets = s.sets := sets_of_core (core_finishExec a0 a1 a2 a3 s)
@[simp] theorem finishExec_frags a0 a1 a2 a3 (s : State) : (finishExec a0 a1 a2 a3 s).frags = s.frags := frags_of_core (core_finishExec a0 a1 a2 a3 s)
@[simp] theorem finishExec_holdQ a0 a1 a2 a3 (s : State) : (finishExec a0 a1 a2 a3 s).holdQ = s.holdQ := holdQ_of_core (core_finishExec a0 a1 a2 a3 s)
@[simp] theorem finishExec_punts a0 a1 a2 a3 (s : State) : (finishExec a0 a1 a2 a3 s).punts = s.punts := punts_of_core (core_finishExec a0 a1 a2 a3 s)
@[simp] theorem finishExec_ctxs a0 a1 a2 a3 (s : State) : (finishExec a0 a1 a2 a3 s).ctxs = s.ctxs := ctxs_of_core (core_finishExec a0 a1 a2 a3 s)
@[simp] theorem finishExec_seqs a0 a1 a2 a3 (s : State) : (finishExec a0 a1 a2 a3 s).seqs = s.seqs := seqs_of_core (core_finishExec a0 a1 a2 a3 s)
@[simp] theorem finishExec_learns a0 a1 a2 a3 (s : State) : (finishExec a0 a1 a2 a3 s).learns = s.learns := learns_of_core (core_finishExec a0 a1 a2 a3 s)
@[simp] theorem finishExec_reports a0 a1 a2 a3 (s : State) : (finishExec a0 a1 a2 a3 s).reports = s.reports := reports_of_core (core_finishExec a0 a1 a2 a3 s)
@[simp] theorem finishExec_ages a0 a1 a2 a3 (s : State) : (finishExec a0 a1 a2 a3 s).ages = s.ages := ages_of_core (core_finishExec a0 a1 a2 a3 s)
@[simp] theorem finishExec_tm a0 a1 a2 a3 (s : State) : (finishExec a0 a1 a2 a3 s).tm = s.tm := tm_of_core (core_finishExec a0 a1 a2 a3 s)
@[simp] theorem finishExec_cnts a0 a1 a2 a3 (s : State) : (finishExec a0 a1 a2 a3 s).cnts = s.cnts := cnts_of_core (core_finishExec a0 a1 a2 a3 s)
@[simp] theorem finishExec_latches a0 a1 a2 a3 (s : State) : (finishExec a0 a1 a2 a3 s).latches = s.latches := latches_of_core (core_finishExec a0 a1 a2 a3 s)
@[simp] theorem finishExec_parity a0 a1 a2 a3 (s : State) : (finishExec a0 a1 a2 a3 s).parity = s.parity := parity_of_core (core_finishExec a0 a1 a2 a3 s)
@[simp] theorem finishExec_deliveries a0 a1 a2 a3 (s : State) : (finishExec a0 a1 a2 a3 s).deliveries = s.deliveries := deliveries_of_core (core_finishExec a0 a1 a2 a3 s)
@[simp] theorem finishExec_launchHeld a0 a1 a2 a3 (s : State) : (finishExec a0 a1 a2 a3 s).launchHeld = s.launchHeld := launchHeld_of_core (core_finishExec a0 a1 a2 a3 s)
@[simp] theorem finishExec_turns a0 a1 a2 a3 (s : State) : (finishExec a0 a1 a2 a3 s).turns = s.turns := turns_of_core (core_finishExec a0 a1 a2 a3 s)
@[simp] theorem finishExec_ciph a0 a1 a2 a3 (s : State) : (finishExec a0 a1 a2 a3 s).ciph = s.ciph := ciph_of_core (core_finishExec a0 a1 a2 a3 s)
@[simp] theorem finishExec_keys a0 a1 a2 a3 (s : State) : (finishExec a0 a1 a2 a3 s).keys = s.keys := keys_of_core (core_finishExec a0 a1 a2 a3 s)
@[simp] theorem finishExec_xport a0 a1 a2 a3 (s : State) : (finishExec a0 a1 a2 a3 s).xport = s.xport := xport_of_core (core_finishExec a0 a1 a2 a3 s)
@[simp] theorem finishExec_store a0 a1 a2 a3 (s : State) : (finishExec a0 a1 a2 a3 s).store = s.store := store_of_core (core_finishExec a0 a1 a2 a3 s)
@[simp] theorem finishExec_kiln a0 a1 a2 a3 (s : State) : (finishExec a0 a1 a2 a3 s).kiln = s.kiln := kiln_of_core (core_finishExec a0 a1 a2 a3 s)
@[simp] theorem finishExec_age a0 a1 a2 a3 (s : State) : (finishExec a0 a1 a2 a3 s).age = s.age := age_of_core (core_finishExec a0 a1 a2 a3 s)
@[simp] theorem finishExec_fi a0 a1 a2 a3 (s : State) : (finishExec a0 a1 a2 a3 s).fi = s.fi := fi_of_core (core_finishExec a0 a1 a2 a3 s)
@[simp] theorem finishExec_peal a0 a1 a2 a3 (s : State) : (finishExec a0 a1 a2 a3 s).peal = s.peal := peal_of_core (core_finishExec a0 a1 a2 a3 s)
@[simp] theorem hostWrite_tick a0 a1 a2 a3 a4 (s : State) : (hostWrite a0 a1 a2 a3 a4 s).tick = s.tick := tick_of_core (core_hostWrite a0 a1 a2 a3 a4 s)
@[simp] theorem hostWrite_pending a0 a1 a2 a3 a4 (s : State) : (hostWrite a0 a1 a2 a3 a4 s).pending = s.pending := pending_of_core (core_hostWrite a0 a1 a2 a3 a4 s)
@[simp] theorem hostWrite_hbm a0 a1 a2 a3 a4 (s : State) : (hostWrite a0 a1 a2 a3 a4 s).hbm = s.hbm := hbm_of_core (core_hostWrite a0 a1 a2 a3 a4 s)
@[simp] theorem hostWrite_pwr a0 a1 a2 a3 a4 (s : State) : (hostWrite a0 a1 a2 a3 a4 s).pwr = s.pwr := pwr_of_core (core_hostWrite a0 a1 a2 a3 a4 s)
@[simp] theorem hostWrite_fw a0 a1 a2 a3 a4 (s : State) : (hostWrite a0 a1 a2 a3 a4 s).fw = s.fw := fw_of_core (core_hostWrite a0 a1 a2 a3 a4 s)
@[simp] theorem hostWrite_time a0 a1 a2 a3 a4 (s : State) : (hostWrite a0 a1 a2 a3 a4 s).time = s.time := time_of_core (core_hostWrite a0 a1 a2 a3 a4 s)
@[simp] theorem hostWrite_gates a0 a1 a2 a3 a4 (s : State) : (hostWrite a0 a1 a2 a3 a4 s).gates = s.gates := gates_of_core (core_hostWrite a0 a1 a2 a3 a4 s)
@[simp] theorem hostWrite_strobe a0 a1 a2 a3 a4 (s : State) : (hostWrite a0 a1 a2 a3 a4 s).strobe = s.strobe := strobe_of_core (core_hostWrite a0 a1 a2 a3 a4 s)
@[simp] theorem hostWrite_sec a0 a1 a2 a3 a4 (s : State) : (hostWrite a0 a1 a2 a3 a4 s).sec = s.sec := sec_of_core (core_hostWrite a0 a1 a2 a3 a4 s)
@[simp] theorem hostWrite_lanes a0 a1 a2 a3 a4 (s : State) : (hostWrite a0 a1 a2 a3 a4 s).lanes = s.lanes := lanes_of_core (core_hostWrite a0 a1 a2 a3 a4 s)
@[simp] theorem hostWrite_pkts a0 a1 a2 a3 a4 (s : State) : (hostWrite a0 a1 a2 a3 a4 s).pkts = s.pkts := pkts_of_core (core_hostWrite a0 a1 a2 a3 a4 s)
@[simp] theorem hostWrite_nextPkt a0 a1 a2 a3 a4 (s : State) : (hostWrite a0 a1 a2 a3 a4 s).nextPkt = s.nextPkt := nextPkt_of_core (core_hostWrite a0 a1 a2 a3 a4 s)
@[simp] theorem hostWrite_sets a0 a1 a2 a3 a4 (s : State) : (hostWrite a0 a1 a2 a3 a4 s).sets = s.sets := sets_of_core (core_hostWrite a0 a1 a2 a3 a4 s)
@[simp] theorem hostWrite_frags a0 a1 a2 a3 a4 (s : State) : (hostWrite a0 a1 a2 a3 a4 s).frags = s.frags := frags_of_core (core_hostWrite a0 a1 a2 a3 a4 s)
@[simp] theorem hostWrite_holdQ a0 a1 a2 a3 a4 (s : State) : (hostWrite a0 a1 a2 a3 a4 s).holdQ = s.holdQ := holdQ_of_core (core_hostWrite a0 a1 a2 a3 a4 s)
@[simp] theorem hostWrite_punts a0 a1 a2 a3 a4 (s : State) : (hostWrite a0 a1 a2 a3 a4 s).punts = s.punts := punts_of_core (core_hostWrite a0 a1 a2 a3 a4 s)
@[simp] theorem hostWrite_ctxs a0 a1 a2 a3 a4 (s : State) : (hostWrite a0 a1 a2 a3 a4 s).ctxs = s.ctxs := ctxs_of_core (core_hostWrite a0 a1 a2 a3 a4 s)
@[simp] theorem hostWrite_seqs a0 a1 a2 a3 a4 (s : State) : (hostWrite a0 a1 a2 a3 a4 s).seqs = s.seqs := seqs_of_core (core_hostWrite a0 a1 a2 a3 a4 s)
@[simp] theorem hostWrite_learns a0 a1 a2 a3 a4 (s : State) : (hostWrite a0 a1 a2 a3 a4 s).learns = s.learns := learns_of_core (core_hostWrite a0 a1 a2 a3 a4 s)
@[simp] theorem hostWrite_reports a0 a1 a2 a3 a4 (s : State) : (hostWrite a0 a1 a2 a3 a4 s).reports = s.reports := reports_of_core (core_hostWrite a0 a1 a2 a3 a4 s)
@[simp] theorem hostWrite_ages a0 a1 a2 a3 a4 (s : State) : (hostWrite a0 a1 a2 a3 a4 s).ages = s.ages := ages_of_core (core_hostWrite a0 a1 a2 a3 a4 s)
@[simp] theorem hostWrite_tm a0 a1 a2 a3 a4 (s : State) : (hostWrite a0 a1 a2 a3 a4 s).tm = s.tm := tm_of_core (core_hostWrite a0 a1 a2 a3 a4 s)
@[simp] theorem hostWrite_cnts a0 a1 a2 a3 a4 (s : State) : (hostWrite a0 a1 a2 a3 a4 s).cnts = s.cnts := cnts_of_core (core_hostWrite a0 a1 a2 a3 a4 s)
@[simp] theorem hostWrite_latches a0 a1 a2 a3 a4 (s : State) : (hostWrite a0 a1 a2 a3 a4 s).latches = s.latches := latches_of_core (core_hostWrite a0 a1 a2 a3 a4 s)
@[simp] theorem hostWrite_parity a0 a1 a2 a3 a4 (s : State) : (hostWrite a0 a1 a2 a3 a4 s).parity = s.parity := parity_of_core (core_hostWrite a0 a1 a2 a3 a4 s)
@[simp] theorem hostWrite_deliveries a0 a1 a2 a3 a4 (s : State) : (hostWrite a0 a1 a2 a3 a4 s).deliveries = s.deliveries := deliveries_of_core (core_hostWrite a0 a1 a2 a3 a4 s)
@[simp] theorem hostWrite_launchHeld a0 a1 a2 a3 a4 (s : State) : (hostWrite a0 a1 a2 a3 a4 s).launchHeld = s.launchHeld := launchHeld_of_core (core_hostWrite a0 a1 a2 a3 a4 s)
@[simp] theorem hostWrite_turns a0 a1 a2 a3 a4 (s : State) : (hostWrite a0 a1 a2 a3 a4 s).turns = s.turns := turns_of_core (core_hostWrite a0 a1 a2 a3 a4 s)
@[simp] theorem hostWrite_ciph a0 a1 a2 a3 a4 (s : State) : (hostWrite a0 a1 a2 a3 a4 s).ciph = s.ciph := ciph_of_core (core_hostWrite a0 a1 a2 a3 a4 s)
@[simp] theorem hostWrite_keys a0 a1 a2 a3 a4 (s : State) : (hostWrite a0 a1 a2 a3 a4 s).keys = s.keys := keys_of_core (core_hostWrite a0 a1 a2 a3 a4 s)
@[simp] theorem hostWrite_xport a0 a1 a2 a3 a4 (s : State) : (hostWrite a0 a1 a2 a3 a4 s).xport = s.xport := xport_of_core (core_hostWrite a0 a1 a2 a3 a4 s)
@[simp] theorem hostWrite_store a0 a1 a2 a3 a4 (s : State) : (hostWrite a0 a1 a2 a3 a4 s).store = s.store := store_of_core (core_hostWrite a0 a1 a2 a3 a4 s)
@[simp] theorem hostWrite_kiln a0 a1 a2 a3 a4 (s : State) : (hostWrite a0 a1 a2 a3 a4 s).kiln = s.kiln := kiln_of_core (core_hostWrite a0 a1 a2 a3 a4 s)
@[simp] theorem hostWrite_age a0 a1 a2 a3 a4 (s : State) : (hostWrite a0 a1 a2 a3 a4 s).age = s.age := age_of_core (core_hostWrite a0 a1 a2 a3 a4 s)
@[simp] theorem hostWrite_fi a0 a1 a2 a3 a4 (s : State) : (hostWrite a0 a1 a2 a3 a4 s).fi = s.fi := fi_of_core (core_hostWrite a0 a1 a2 a3 a4 s)
@[simp] theorem hostWrite_peal a0 a1 a2 a3 a4 (s : State) : (hostWrite a0 a1 a2 a3 a4 s).peal = s.peal := peal_of_core (core_hostWrite a0 a1 a2 a3 a4 s)
@[simp] theorem raiseVector_tick a0 a1 (s : State) : (raiseVector a0 a1 s).tick = s.tick := tick_of_core (core_raiseVector a0 a1 s)
@[simp] theorem raiseVector_pending a0 a1 (s : State) : (raiseVector a0 a1 s).pending = s.pending := pending_of_core (core_raiseVector a0 a1 s)
@[simp] theorem raiseVector_hbm a0 a1 (s : State) : (raiseVector a0 a1 s).hbm = s.hbm := hbm_of_core (core_raiseVector a0 a1 s)
@[simp] theorem raiseVector_pwr a0 a1 (s : State) : (raiseVector a0 a1 s).pwr = s.pwr := pwr_of_core (core_raiseVector a0 a1 s)
@[simp] theorem raiseVector_fw a0 a1 (s : State) : (raiseVector a0 a1 s).fw = s.fw := fw_of_core (core_raiseVector a0 a1 s)
@[simp] theorem raiseVector_time a0 a1 (s : State) : (raiseVector a0 a1 s).time = s.time := time_of_core (core_raiseVector a0 a1 s)
@[simp] theorem raiseVector_gates a0 a1 (s : State) : (raiseVector a0 a1 s).gates = s.gates := gates_of_core (core_raiseVector a0 a1 s)
@[simp] theorem raiseVector_strobe a0 a1 (s : State) : (raiseVector a0 a1 s).strobe = s.strobe := strobe_of_core (core_raiseVector a0 a1 s)
@[simp] theorem raiseVector_sec a0 a1 (s : State) : (raiseVector a0 a1 s).sec = s.sec := sec_of_core (core_raiseVector a0 a1 s)
@[simp] theorem raiseVector_lanes a0 a1 (s : State) : (raiseVector a0 a1 s).lanes = s.lanes := lanes_of_core (core_raiseVector a0 a1 s)
@[simp] theorem raiseVector_pkts a0 a1 (s : State) : (raiseVector a0 a1 s).pkts = s.pkts := pkts_of_core (core_raiseVector a0 a1 s)
@[simp] theorem raiseVector_nextPkt a0 a1 (s : State) : (raiseVector a0 a1 s).nextPkt = s.nextPkt := nextPkt_of_core (core_raiseVector a0 a1 s)
@[simp] theorem raiseVector_sets a0 a1 (s : State) : (raiseVector a0 a1 s).sets = s.sets := sets_of_core (core_raiseVector a0 a1 s)
@[simp] theorem raiseVector_frags a0 a1 (s : State) : (raiseVector a0 a1 s).frags = s.frags := frags_of_core (core_raiseVector a0 a1 s)
@[simp] theorem raiseVector_holdQ a0 a1 (s : State) : (raiseVector a0 a1 s).holdQ = s.holdQ := holdQ_of_core (core_raiseVector a0 a1 s)
@[simp] theorem raiseVector_punts a0 a1 (s : State) : (raiseVector a0 a1 s).punts = s.punts := punts_of_core (core_raiseVector a0 a1 s)
@[simp] theorem raiseVector_ctxs a0 a1 (s : State) : (raiseVector a0 a1 s).ctxs = s.ctxs := ctxs_of_core (core_raiseVector a0 a1 s)
@[simp] theorem raiseVector_seqs a0 a1 (s : State) : (raiseVector a0 a1 s).seqs = s.seqs := seqs_of_core (core_raiseVector a0 a1 s)
@[simp] theorem raiseVector_learns a0 a1 (s : State) : (raiseVector a0 a1 s).learns = s.learns := learns_of_core (core_raiseVector a0 a1 s)
@[simp] theorem raiseVector_reports a0 a1 (s : State) : (raiseVector a0 a1 s).reports = s.reports := reports_of_core (core_raiseVector a0 a1 s)
@[simp] theorem raiseVector_ages a0 a1 (s : State) : (raiseVector a0 a1 s).ages = s.ages := ages_of_core (core_raiseVector a0 a1 s)
@[simp] theorem raiseVector_tm a0 a1 (s : State) : (raiseVector a0 a1 s).tm = s.tm := tm_of_core (core_raiseVector a0 a1 s)
@[simp] theorem raiseVector_cnts a0 a1 (s : State) : (raiseVector a0 a1 s).cnts = s.cnts := cnts_of_core (core_raiseVector a0 a1 s)
@[simp] theorem raiseVector_latches a0 a1 (s : State) : (raiseVector a0 a1 s).latches = s.latches := latches_of_core (core_raiseVector a0 a1 s)
@[simp] theorem raiseVector_parity a0 a1 (s : State) : (raiseVector a0 a1 s).parity = s.parity := parity_of_core (core_raiseVector a0 a1 s)
@[simp] theorem raiseVector_deliveries a0 a1 (s : State) : (raiseVector a0 a1 s).deliveries = s.deliveries := deliveries_of_core (core_raiseVector a0 a1 s)
@[simp] theorem raiseVector_launchHeld a0 a1 (s : State) : (raiseVector a0 a1 s).launchHeld = s.launchHeld := launchHeld_of_core (core_raiseVector a0 a1 s)
@[simp] theorem raiseVector_turns a0 a1 (s : State) : (raiseVector a0 a1 s).turns = s.turns := turns_of_core (core_raiseVector a0 a1 s)
@[simp] theorem raiseVector_ciph a0 a1 (s : State) : (raiseVector a0 a1 s).ciph = s.ciph := ciph_of_core (core_raiseVector a0 a1 s)
@[simp] theorem raiseVector_keys a0 a1 (s : State) : (raiseVector a0 a1 s).keys = s.keys := keys_of_core (core_raiseVector a0 a1 s)
@[simp] theorem raiseVector_xport a0 a1 (s : State) : (raiseVector a0 a1 s).xport = s.xport := xport_of_core (core_raiseVector a0 a1 s)
@[simp] theorem raiseVector_store a0 a1 (s : State) : (raiseVector a0 a1 s).store = s.store := store_of_core (core_raiseVector a0 a1 s)
@[simp] theorem raiseVector_kiln a0 a1 (s : State) : (raiseVector a0 a1 s).kiln = s.kiln := kiln_of_core (core_raiseVector a0 a1 s)
@[simp] theorem raiseVector_age a0 a1 (s : State) : (raiseVector a0 a1 s).age = s.age := age_of_core (core_raiseVector a0 a1 s)
@[simp] theorem raiseVector_fi a0 a1 (s : State) : (raiseVector a0 a1 s).fi = s.fi := fi_of_core (core_raiseVector a0 a1 s)
@[simp] theorem raiseVector_peal a0 a1 (s : State) : (raiseVector a0 a1 s).peal = s.peal := peal_of_core (core_raiseVector a0 a1 s)
@[simp] theorem stopRing_tick a0 a1 a2 (s : State) : (stopRing a0 a1 a2 s).tick = s.tick := tick_of_core (core_stopRing a0 a1 a2 s)
@[simp] theorem stopRing_pending a0 a1 a2 (s : State) : (stopRing a0 a1 a2 s).pending = s.pending := pending_of_core (core_stopRing a0 a1 a2 s)
@[simp] theorem stopRing_hbm a0 a1 a2 (s : State) : (stopRing a0 a1 a2 s).hbm = s.hbm := hbm_of_core (core_stopRing a0 a1 a2 s)
@[simp] theorem stopRing_pwr a0 a1 a2 (s : State) : (stopRing a0 a1 a2 s).pwr = s.pwr := pwr_of_core (core_stopRing a0 a1 a2 s)
@[simp] theorem stopRing_fw a0 a1 a2 (s : State) : (stopRing a0 a1 a2 s).fw = s.fw := fw_of_core (core_stopRing a0 a1 a2 s)
@[simp] theorem stopRing_time a0 a1 a2 (s : State) : (stopRing a0 a1 a2 s).time = s.time := time_of_core (core_stopRing a0 a1 a2 s)
@[simp] theorem stopRing_gates a0 a1 a2 (s : State) : (stopRing a0 a1 a2 s).gates = s.gates := gates_of_core (core_stopRing a0 a1 a2 s)
@[simp] theorem stopRing_strobe a0 a1 a2 (s : State) : (stopRing a0 a1 a2 s).strobe = s.strobe := strobe_of_core (core_stopRing a0 a1 a2 s)
@[simp] theorem stopRing_sec a0 a1 a2 (s : State) : (stopRing a0 a1 a2 s).sec = s.sec := sec_of_core (core_stopRing a0 a1 a2 s)
@[simp] theorem stopRing_lanes a0 a1 a2 (s : State) : (stopRing a0 a1 a2 s).lanes = s.lanes := lanes_of_core (core_stopRing a0 a1 a2 s)
@[simp] theorem stopRing_pkts a0 a1 a2 (s : State) : (stopRing a0 a1 a2 s).pkts = s.pkts := pkts_of_core (core_stopRing a0 a1 a2 s)
@[simp] theorem stopRing_nextPkt a0 a1 a2 (s : State) : (stopRing a0 a1 a2 s).nextPkt = s.nextPkt := nextPkt_of_core (core_stopRing a0 a1 a2 s)
@[simp] theorem stopRing_sets a0 a1 a2 (s : State) : (stopRing a0 a1 a2 s).sets = s.sets := sets_of_core (core_stopRing a0 a1 a2 s)
@[simp] theorem stopRing_frags a0 a1 a2 (s : State) : (stopRing a0 a1 a2 s).frags = s.frags := frags_of_core (core_stopRing a0 a1 a2 s)
@[simp] theorem stopRing_holdQ a0 a1 a2 (s : State) : (stopRing a0 a1 a2 s).holdQ = s.holdQ := holdQ_of_core (core_stopRing a0 a1 a2 s)
@[simp] theorem stopRing_punts a0 a1 a2 (s : State) : (stopRing a0 a1 a2 s).punts = s.punts := punts_of_core (core_stopRing a0 a1 a2 s)
@[simp] theorem stopRing_ctxs a0 a1 a2 (s : State) : (stopRing a0 a1 a2 s).ctxs = s.ctxs := ctxs_of_core (core_stopRing a0 a1 a2 s)
@[simp] theorem stopRing_seqs a0 a1 a2 (s : State) : (stopRing a0 a1 a2 s).seqs = s.seqs := seqs_of_core (core_stopRing a0 a1 a2 s)
@[simp] theorem stopRing_learns a0 a1 a2 (s : State) : (stopRing a0 a1 a2 s).learns = s.learns := learns_of_core (core_stopRing a0 a1 a2 s)
@[simp] theorem stopRing_reports a0 a1 a2 (s : State) : (stopRing a0 a1 a2 s).reports = s.reports := reports_of_core (core_stopRing a0 a1 a2 s)
@[simp] theorem stopRing_ages a0 a1 a2 (s : State) : (stopRing a0 a1 a2 s).ages = s.ages := ages_of_core (core_stopRing a0 a1 a2 s)
@[simp] theorem stopRing_tm a0 a1 a2 (s : State) : (stopRing a0 a1 a2 s).tm = s.tm := tm_of_core (core_stopRing a0 a1 a2 s)
@[simp] theorem stopRing_cnts a0 a1 a2 (s : State) : (stopRing a0 a1 a2 s).cnts = s.cnts := cnts_of_core (core_stopRing a0 a1 a2 s)
@[simp] theorem stopRing_latches a0 a1 a2 (s : State) : (stopRing a0 a1 a2 s).latches = s.latches := latches_of_core (core_stopRing a0 a1 a2 s)
@[simp] theorem stopRing_parity a0 a1 a2 (s : State) : (stopRing a0 a1 a2 s).parity = s.parity := parity_of_core (core_stopRing a0 a1 a2 s)
@[simp] theorem stopRing_deliveries a0 a1 a2 (s : State) : (stopRing a0 a1 a2 s).deliveries = s.deliveries := deliveries_of_core (core_stopRing a0 a1 a2 s)
@[simp] theorem stopRing_launchHeld a0 a1 a2 (s : State) : (stopRing a0 a1 a2 s).launchHeld = s.launchHeld := launchHeld_of_core (core_stopRing a0 a1 a2 s)
@[simp] theorem stopRing_turns a0 a1 a2 (s : State) : (stopRing a0 a1 a2 s).turns = s.turns := turns_of_core (core_stopRing a0 a1 a2 s)
@[simp] theorem stopRing_ciph a0 a1 a2 (s : State) : (stopRing a0 a1 a2 s).ciph = s.ciph := ciph_of_core (core_stopRing a0 a1 a2 s)
@[simp] theorem stopRing_keys a0 a1 a2 (s : State) : (stopRing a0 a1 a2 s).keys = s.keys := keys_of_core (core_stopRing a0 a1 a2 s)
@[simp] theorem stopRing_xport a0 a1 a2 (s : State) : (stopRing a0 a1 a2 s).xport = s.xport := xport_of_core (core_stopRing a0 a1 a2 s)
@[simp] theorem stopRing_store a0 a1 a2 (s : State) : (stopRing a0 a1 a2 s).store = s.store := store_of_core (core_stopRing a0 a1 a2 s)
@[simp] theorem stopRing_kiln a0 a1 a2 (s : State) : (stopRing a0 a1 a2 s).kiln = s.kiln := kiln_of_core (core_stopRing a0 a1 a2 s)
@[simp] theorem stopRing_age a0 a1 a2 (s : State) : (stopRing a0 a1 a2 s).age = s.age := age_of_core (core_stopRing a0 a1 a2 s)
@[simp] theorem stopRing_fi a0 a1 a2 (s : State) : (stopRing a0 a1 a2 s).fi = s.fi := fi_of_core (core_stopRing a0 a1 a2 s)
@[simp] theorem stopRing_peal a0 a1 a2 (s : State) : (stopRing a0 a1 a2 s).peal = s.peal := peal_of_core (core_stopRing a0 a1 a2 s)
@[simp] theorem deliverEvent_tick a0 a1 (s : State) : (deliverEvent a0 a1 s).tick = s.tick := tick_of_core (core_deliverEvent a0 a1 s)
@[simp] theorem deliverEvent_pending a0 a1 (s : State) : (deliverEvent a0 a1 s).pending = s.pending := pending_of_core (core_deliverEvent a0 a1 s)
@[simp] theorem deliverEvent_hbm a0 a1 (s : State) : (deliverEvent a0 a1 s).hbm = s.hbm := hbm_of_core (core_deliverEvent a0 a1 s)
@[simp] theorem deliverEvent_pwr a0 a1 (s : State) : (deliverEvent a0 a1 s).pwr = s.pwr := pwr_of_core (core_deliverEvent a0 a1 s)
@[simp] theorem deliverEvent_fw a0 a1 (s : State) : (deliverEvent a0 a1 s).fw = s.fw := fw_of_core (core_deliverEvent a0 a1 s)
@[simp] theorem deliverEvent_time a0 a1 (s : State) : (deliverEvent a0 a1 s).time = s.time := time_of_core (core_deliverEvent a0 a1 s)
@[simp] theorem deliverEvent_gates a0 a1 (s : State) : (deliverEvent a0 a1 s).gates = s.gates := gates_of_core (core_deliverEvent a0 a1 s)
@[simp] theorem deliverEvent_strobe a0 a1 (s : State) : (deliverEvent a0 a1 s).strobe = s.strobe := strobe_of_core (core_deliverEvent a0 a1 s)
@[simp] theorem deliverEvent_sec a0 a1 (s : State) : (deliverEvent a0 a1 s).sec = s.sec := sec_of_core (core_deliverEvent a0 a1 s)
@[simp] theorem deliverEvent_lanes a0 a1 (s : State) : (deliverEvent a0 a1 s).lanes = s.lanes := lanes_of_core (core_deliverEvent a0 a1 s)
@[simp] theorem deliverEvent_pkts a0 a1 (s : State) : (deliverEvent a0 a1 s).pkts = s.pkts := pkts_of_core (core_deliverEvent a0 a1 s)
@[simp] theorem deliverEvent_nextPkt a0 a1 (s : State) : (deliverEvent a0 a1 s).nextPkt = s.nextPkt := nextPkt_of_core (core_deliverEvent a0 a1 s)
@[simp] theorem deliverEvent_sets a0 a1 (s : State) : (deliverEvent a0 a1 s).sets = s.sets := sets_of_core (core_deliverEvent a0 a1 s)
@[simp] theorem deliverEvent_frags a0 a1 (s : State) : (deliverEvent a0 a1 s).frags = s.frags := frags_of_core (core_deliverEvent a0 a1 s)
@[simp] theorem deliverEvent_holdQ a0 a1 (s : State) : (deliverEvent a0 a1 s).holdQ = s.holdQ := holdQ_of_core (core_deliverEvent a0 a1 s)
@[simp] theorem deliverEvent_punts a0 a1 (s : State) : (deliverEvent a0 a1 s).punts = s.punts := punts_of_core (core_deliverEvent a0 a1 s)
@[simp] theorem deliverEvent_ctxs a0 a1 (s : State) : (deliverEvent a0 a1 s).ctxs = s.ctxs := ctxs_of_core (core_deliverEvent a0 a1 s)
@[simp] theorem deliverEvent_seqs a0 a1 (s : State) : (deliverEvent a0 a1 s).seqs = s.seqs := seqs_of_core (core_deliverEvent a0 a1 s)
@[simp] theorem deliverEvent_learns a0 a1 (s : State) : (deliverEvent a0 a1 s).learns = s.learns := learns_of_core (core_deliverEvent a0 a1 s)
@[simp] theorem deliverEvent_reports a0 a1 (s : State) : (deliverEvent a0 a1 s).reports = s.reports := reports_of_core (core_deliverEvent a0 a1 s)
@[simp] theorem deliverEvent_ages a0 a1 (s : State) : (deliverEvent a0 a1 s).ages = s.ages := ages_of_core (core_deliverEvent a0 a1 s)
@[simp] theorem deliverEvent_tm a0 a1 (s : State) : (deliverEvent a0 a1 s).tm = s.tm := tm_of_core (core_deliverEvent a0 a1 s)
@[simp] theorem deliverEvent_cnts a0 a1 (s : State) : (deliverEvent a0 a1 s).cnts = s.cnts := cnts_of_core (core_deliverEvent a0 a1 s)
@[simp] theorem deliverEvent_latches a0 a1 (s : State) : (deliverEvent a0 a1 s).latches = s.latches := latches_of_core (core_deliverEvent a0 a1 s)
@[simp] theorem deliverEvent_parity a0 a1 (s : State) : (deliverEvent a0 a1 s).parity = s.parity := parity_of_core (core_deliverEvent a0 a1 s)
@[simp] theorem deliverEvent_deliveries a0 a1 (s : State) : (deliverEvent a0 a1 s).deliveries = s.deliveries := deliveries_of_core (core_deliverEvent a0 a1 s)
@[simp] theorem deliverEvent_launchHeld a0 a1 (s : State) : (deliverEvent a0 a1 s).launchHeld = s.launchHeld := launchHeld_of_core (core_deliverEvent a0 a1 s)
@[simp] theorem deliverEvent_turns a0 a1 (s : State) : (deliverEvent a0 a1 s).turns = s.turns := turns_of_core (core_deliverEvent a0 a1 s)
@[simp] theorem deliverEvent_ciph a0 a1 (s : State) : (deliverEvent a0 a1 s).ciph = s.ciph := ciph_of_core (core_deliverEvent a0 a1 s)
@[simp] theorem deliverEvent_keys a0 a1 (s : State) : (deliverEvent a0 a1 s).keys = s.keys := keys_of_core (core_deliverEvent a0 a1 s)
@[simp] theorem deliverEvent_xport a0 a1 (s : State) : (deliverEvent a0 a1 s).xport = s.xport := xport_of_core (core_deliverEvent a0 a1 s)
@[simp] theorem deliverEvent_store a0 a1 (s : State) : (deliverEvent a0 a1 s).store = s.store := store_of_core (core_deliverEvent a0 a1 s)
@[simp] theorem deliverEvent_kiln a0 a1 (s : State) : (deliverEvent a0 a1 s).kiln = s.kiln := kiln_of_core (core_deliverEvent a0 a1 s)
@[simp] theorem deliverEvent_age a0 a1 (s : State) : (deliverEvent a0 a1 s).age = s.age := age_of_core (core_deliverEvent a0 a1 s)
@[simp] theorem deliverEvent_fi a0 a1 (s : State) : (deliverEvent a0 a1 s).fi = s.fi := fi_of_core (core_deliverEvent a0 a1 s)
@[simp] theorem deliverEvent_peal a0 a1 (s : State) : (deliverEvent a0 a1 s).peal = s.peal := peal_of_core (core_deliverEvent a0 a1 s)
@[simp] theorem issueRead_tick a0 a1 a2 a3 (s : State) : (issueRead a0 a1 a2 a3 s).tick = s.tick := tick_of_core (core_issueRead a0 a1 a2 a3 s)
@[simp] theorem issueRead_pending a0 a1 a2 a3 (s : State) : (issueRead a0 a1 a2 a3 s).pending = s.pending := pending_of_core (core_issueRead a0 a1 a2 a3 s)
@[simp] theorem issueRead_hbm a0 a1 a2 a3 (s : State) : (issueRead a0 a1 a2 a3 s).hbm = s.hbm := hbm_of_core (core_issueRead a0 a1 a2 a3 s)
@[simp] theorem issueRead_pwr a0 a1 a2 a3 (s : State) : (issueRead a0 a1 a2 a3 s).pwr = s.pwr := pwr_of_core (core_issueRead a0 a1 a2 a3 s)
@[simp] theorem issueRead_fw a0 a1 a2 a3 (s : State) : (issueRead a0 a1 a2 a3 s).fw = s.fw := fw_of_core (core_issueRead a0 a1 a2 a3 s)
@[simp] theorem issueRead_time a0 a1 a2 a3 (s : State) : (issueRead a0 a1 a2 a3 s).time = s.time := time_of_core (core_issueRead a0 a1 a2 a3 s)
@[simp] theorem issueRead_gates a0 a1 a2 a3 (s : State) : (issueRead a0 a1 a2 a3 s).gates = s.gates := gates_of_core (core_issueRead a0 a1 a2 a3 s)
@[simp] theorem issueRead_strobe a0 a1 a2 a3 (s : State) : (issueRead a0 a1 a2 a3 s).strobe = s.strobe := strobe_of_core (core_issueRead a0 a1 a2 a3 s)
@[simp] theorem issueRead_sec a0 a1 a2 a3 (s : State) : (issueRead a0 a1 a2 a3 s).sec = s.sec := sec_of_core (core_issueRead a0 a1 a2 a3 s)
@[simp] theorem issueRead_lanes a0 a1 a2 a3 (s : State) : (issueRead a0 a1 a2 a3 s).lanes = s.lanes := lanes_of_core (core_issueRead a0 a1 a2 a3 s)
@[simp] theorem issueRead_pkts a0 a1 a2 a3 (s : State) : (issueRead a0 a1 a2 a3 s).pkts = s.pkts := pkts_of_core (core_issueRead a0 a1 a2 a3 s)
@[simp] theorem issueRead_nextPkt a0 a1 a2 a3 (s : State) : (issueRead a0 a1 a2 a3 s).nextPkt = s.nextPkt := nextPkt_of_core (core_issueRead a0 a1 a2 a3 s)
@[simp] theorem issueRead_sets a0 a1 a2 a3 (s : State) : (issueRead a0 a1 a2 a3 s).sets = s.sets := sets_of_core (core_issueRead a0 a1 a2 a3 s)
@[simp] theorem issueRead_frags a0 a1 a2 a3 (s : State) : (issueRead a0 a1 a2 a3 s).frags = s.frags := frags_of_core (core_issueRead a0 a1 a2 a3 s)
@[simp] theorem issueRead_holdQ a0 a1 a2 a3 (s : State) : (issueRead a0 a1 a2 a3 s).holdQ = s.holdQ := holdQ_of_core (core_issueRead a0 a1 a2 a3 s)
@[simp] theorem issueRead_punts a0 a1 a2 a3 (s : State) : (issueRead a0 a1 a2 a3 s).punts = s.punts := punts_of_core (core_issueRead a0 a1 a2 a3 s)
@[simp] theorem issueRead_ctxs a0 a1 a2 a3 (s : State) : (issueRead a0 a1 a2 a3 s).ctxs = s.ctxs := ctxs_of_core (core_issueRead a0 a1 a2 a3 s)
@[simp] theorem issueRead_seqs a0 a1 a2 a3 (s : State) : (issueRead a0 a1 a2 a3 s).seqs = s.seqs := seqs_of_core (core_issueRead a0 a1 a2 a3 s)
@[simp] theorem issueRead_learns a0 a1 a2 a3 (s : State) : (issueRead a0 a1 a2 a3 s).learns = s.learns := learns_of_core (core_issueRead a0 a1 a2 a3 s)
@[simp] theorem issueRead_reports a0 a1 a2 a3 (s : State) : (issueRead a0 a1 a2 a3 s).reports = s.reports := reports_of_core (core_issueRead a0 a1 a2 a3 s)
@[simp] theorem issueRead_ages a0 a1 a2 a3 (s : State) : (issueRead a0 a1 a2 a3 s).ages = s.ages := ages_of_core (core_issueRead a0 a1 a2 a3 s)
@[simp] theorem issueRead_tm a0 a1 a2 a3 (s : State) : (issueRead a0 a1 a2 a3 s).tm = s.tm := tm_of_core (core_issueRead a0 a1 a2 a3 s)
@[simp] theorem issueRead_cnts a0 a1 a2 a3 (s : State) : (issueRead a0 a1 a2 a3 s).cnts = s.cnts := cnts_of_core (core_issueRead a0 a1 a2 a3 s)
@[simp] theorem issueRead_latches a0 a1 a2 a3 (s : State) : (issueRead a0 a1 a2 a3 s).latches = s.latches := latches_of_core (core_issueRead a0 a1 a2 a3 s)
@[simp] theorem issueRead_parity a0 a1 a2 a3 (s : State) : (issueRead a0 a1 a2 a3 s).parity = s.parity := parity_of_core (core_issueRead a0 a1 a2 a3 s)
@[simp] theorem issueRead_deliveries a0 a1 a2 a3 (s : State) : (issueRead a0 a1 a2 a3 s).deliveries = s.deliveries := deliveries_of_core (core_issueRead a0 a1 a2 a3 s)
@[simp] theorem issueRead_launchHeld a0 a1 a2 a3 (s : State) : (issueRead a0 a1 a2 a3 s).launchHeld = s.launchHeld := launchHeld_of_core (core_issueRead a0 a1 a2 a3 s)
@[simp] theorem issueRead_turns a0 a1 a2 a3 (s : State) : (issueRead a0 a1 a2 a3 s).turns = s.turns := turns_of_core (core_issueRead a0 a1 a2 a3 s)
@[simp] theorem issueRead_ciph a0 a1 a2 a3 (s : State) : (issueRead a0 a1 a2 a3 s).ciph = s.ciph := ciph_of_core (core_issueRead a0 a1 a2 a3 s)
@[simp] theorem issueRead_keys a0 a1 a2 a3 (s : State) : (issueRead a0 a1 a2 a3 s).keys = s.keys := keys_of_core (core_issueRead a0 a1 a2 a3 s)
@[simp] theorem issueRead_xport a0 a1 a2 a3 (s : State) : (issueRead a0 a1 a2 a3 s).xport = s.xport := xport_of_core (core_issueRead a0 a1 a2 a3 s)
@[simp] theorem issueRead_store a0 a1 a2 a3 (s : State) : (issueRead a0 a1 a2 a3 s).store = s.store := store_of_core (core_issueRead a0 a1 a2 a3 s)
@[simp] theorem issueRead_kiln a0 a1 a2 a3 (s : State) : (issueRead a0 a1 a2 a3 s).kiln = s.kiln := kiln_of_core (core_issueRead a0 a1 a2 a3 s)
@[simp] theorem issueRead_age a0 a1 a2 a3 (s : State) : (issueRead a0 a1 a2 a3 s).age = s.age := age_of_core (core_issueRead a0 a1 a2 a3 s)
@[simp] theorem issueRead_fi a0 a1 a2 a3 (s : State) : (issueRead a0 a1 a2 a3 s).fi = s.fi := fi_of_core (core_issueRead a0 a1 a2 a3 s)
@[simp] theorem issueRead_peal a0 a1 a2 a3 (s : State) : (issueRead a0 a1 a2 a3 s).peal = s.peal := peal_of_core (core_issueRead a0 a1 a2 a3 s)

end Sys2Proof.Machine
end

