-- ==== Sys2Proof/Laws/Commands.lean ====
section
/-! SUPPORT. Once for every command of a ring: what carrying a packet through R117 comes to. -/
namespace Sys2Proof.Machine

theorem acceptHead_of_passes {op w secure permit c s} (h : Passes op w secure permit c s) :
    acceptHead w secure op permit c (taken c s) = none := by
  obtain ⟨-, h1, h2, h3, h4, h5, h6, -⟩ := h
  unfold acceptHead
  rw [h1, h2, h3, h4, h5, h6]
  rfl

/-- A live ring executes nothing, so no command of it waits for a buffer. -/
theorem resumed_of_live {s : State} {c : CmdPkt} (h : ringLive s c.fn c.sec = true) : resumed (ringOf s c.fn c.sec) c = none := by
  simp only [ringLive, Bool.and_eq_true, Option.isNone_iff_eq_none] at h
  simp only [resumed, h]

/-- A packet that passes reaches its own checks in the state `taken`. -/
theorem runCmd_passes {op w secure permit c s} (check onRefuse effect) (h : Passes op w secure permit c s) :
    runCmd op w secure permit check onRefuse effect c s = runBody (execOf c s) check onRefuse effect c (taken c s) := by
  have ha := acceptHead_of_passes h
  obtain ⟨⟨h1, h2, h3, h4, h5⟩, h6, h7, -, -, -, -, h9⟩ := h
  have h8 : ((ringOf s c.fn c.sec).seqValid && !after 16 c.seq (ringOf s c.fn c.sec).lastSeq.toNat) = false := by
    cases hv : (ringOf s c.fn c.sec).seqValid
    · rfl
    · simp [h5 hv]
  unfold runCmd
  subst h6
  simp only [h1, Bool.not_true, bne_self_eq_false, Bool.and_false, Bool.or_self, Bool.false_eq_true, ↓reduceIte, h2, h3, h8,
    gt_iff_lt, decide_eq_true_eq, Nat.not_lt.mpr h4, resumed_of_live h1, h9]
  simp only [taken, execOf] at ha ⊢
  rw [if_neg (by simp)]
  simp only [ha]

/-- What the rest of a command's execution comes to. -/
theorem runBody_eq (e check onRefuse effect) (c : CmdPkt) (s : State) :
    runBody e check onRefuse effect c s =
      match check c s with
      | some (st, d) => writeReply e st d (if c.isCheck then s else onRefuse c s)
      | none =>
        if c.isCheck then writeReply e stOk 0 s
        else match effect c s with
          | (t, some (st, d)) => writeReply e st d t
          | (t, none) => t := rfl

/-- A packet that runs and whose check refuses nothing has its effect. -/
theorem runCmd_runs {op w secure permit c s check onRefuse effect} (h : Runs op w secure permit c s)
    (hc : check c (taken c s) = none) :
    runCmd op w secure permit check onRefuse effect c s =
      match effect c (taken c s) with
      | (t, some (st, d)) => writeReply (execOf c s) st d t
      | (t, none) => t := by
  rw [runCmd_passes check onRefuse effect h.1, runBody_eq, hc, h.2]
  rfl

theorem runCmd_done {op w secure permit c s check onRefuse effect t r} (h : Runs op w secure permit c s)
    (hc : check c (taken c s) = none) (he : effect c (taken c s) = done t r) :
    runCmd op w secure permit check onRefuse effect c s = writeReply (execOf c s) stOk r t := by
  rw [runCmd_runs h hc, he]
  rfl

end Sys2Proof.Machine
end

