-- ==== Sys2Proof/Laws/Keep.lean ====
section
/-! SUPPORT. What nearly every operation leaves alone: the queue, HBM, device time, the life-cycle state, the least SVN and EPOCH. -/
set_option linter.unusedTactic false
set_option linter.unreachableTactic false
set_option linter.unnecessarySeqFocus false

namespace Sys2Proof.Machine

/-- The pieces of state that few operations write. -/
def frame (s : State) : List Instr × Hbm × DevTime × Nat × Nat × Nat :=
  (s.pending, s.hbm, s.time.now, s.sec.lc, s.sec.minSvn, s.sets.epoch)

/-- An outcome that goes on leaves the pieces of `frame` alone. -/
structure Keeps (s : State) (o : Host.Outcome State Fault Refusal) : Prop where
  elim : ∀ {t}, o = .next t → frame t = frame s

@[simp] theorem keeps_next (s t : State) : Keeps s (.next t) = (frame t = frame s) :=
  propext ⟨fun k => k.elim rfl, fun h => ⟨fun e => by cases e; exact h⟩⟩

theorem Keeps.of {s t : State} (h : frame t = frame s) : Keeps s (.next t) := keeps_next s t ▸ h

@[simp] theorem keeps_ite (c : Prop) [Decidable c] (s : State) (a b : Host.Outcome State Fault Refusal) :
    Keeps s (if c then a else b) = if c then Keeps s a else Keeps s b := by split <;> rfl

@[simp] theorem frame_ite (c : Prop) [Decidable c] (a b : State) :
    frame (if c then a else b) = if c then frame a else frame b := by split <;> rfl

@[simp] theorem frame_pair (s : State) :
    (s.pending, s.hbm, s.time.now, s.sec.lc, s.sec.minSvn, s.sets.epoch) = frame s := by unfold frame; exact Eq.trans rfl rfl

@[simp] theorem frame_mk xtick xdraws xout xpending xhbm xpwr xfw xtime xgates xstrobe xfns xports xsec xlanes xpkts xnextPkt xturns xsets xfrags xholdQ xpunts xctxs xseqs xlearns xreports xages xtm xcnts xlatches xparity xdeliveries xlaunchHeld xciph xkeys xxport xstore xkiln xage xfi xpeal :
    frame (State.mk xtick xdraws xout xpending xhbm xpwr xfw xtime xgates xstrobe xfns xports xsec xlanes xpkts xnextPkt xturns xsets xfrags xholdQ xpunts xctxs xseqs xlearns xreports xages xtm xcnts xlatches xparity xdeliveries xlaunchHeld xciph xkeys xxport xstore xkiln xage xfi xpeal) = (xpending, xhbm, xtime.now, xsec.lc, xsec.minSvn, xsets.epoch) := by
  unfold frame; exact Eq.trans rfl rfl

theorem frame_foldl {α : Type} (l : List α) (f : State → α → State) (h : ∀ s a, frame (f s a) = frame s) (s : State) :
    frame (l.foldl f s) = frame s := by
  induction l generalizing s with
  | nil => rfl
  | cons a l ih => rw [List.foldl_cons, ih, h]

@[simp] theorem fst_ite {α β : Type} (c : Prop) [Decidable c] (a b : α × β) :
    (if c then a else b).1 = if c then a.1 else b.1 := by split <;> rfl

end Sys2Proof.Machine
end

