-- ==== Sys2Proof/Laws/KeepOps.lean ====
section
/-! SUPPORT. What the operations of Machine/Ops.lean leave alone (Laws/Keep.lean). -/
namespace Sys2Proof.Machine

@[simp] theorem emit_frame : ∀ a0 s, frame (emit a0 s) = frame s := by
  intros; unfold emit; simp

@[simp] theorem setFn_frame : ∀ a0 a1 s, frame (setFn a0 a1 s) = frame s := by
  intros; unfold setFn; simp

@[simp] theorem setSlot_frame : ∀ a0 a1 a2 s, frame (setSlot a0 a1 a2 s) = frame s := by
  intros; unfold setSlot; simp

@[simp] theorem useDraw_frame : ∀ s, frame (useDraw s) = frame s := by
  intros; unfold useDraw; simp

@[simp] theorem markDirty_frame : ∀ a0 a1 a2 s, frame (markDirty a0 a1 a2 s) = frame s := by
  intros; unfold markDirty; (try dsimp only); (repeat' split) <;> simp

@[simp] theorem setPort_frame : ∀ a0 a1 s, frame (setPort a0 a1 s) = frame s := by
  intros; unfold setPort; simp

@[simp] theorem hostWrite_frame : ∀ a0 a1 a2 a3 a4 s, frame (hostWrite a0 a1 a2 a3 a4 s) = frame s := by
  intros; unfold hostWrite; simp

@[simp] theorem setFnIntx_frame : ∀ a0 a1 s, frame (setFnIntx a0 a1 s) = frame s := by
  intros; unfold setFnIntx; simp

@[simp] theorem raiseVector_frame : ∀ a0 a1 s, frame (raiseVector a0 a1 s) = frame s := by
  intros; unfold raiseVector; simp

@[simp] theorem writeEvent_frame : ∀ a0 a1 s, frame (writeEvent a0 a1 s) = frame s := by
  intros; unfold writeEvent; simp

@[simp] theorem deliverEvent_frame : ∀ a0 a1 s, frame (deliverEvent a0 a1 s) = frame s := by
  intros; unfold deliverEvent; simp

@[simp] theorem flushHeld_frame : ∀ a0 a1 s, frame (flushHeld a0 a1 s) = frame s := by
  intro a0 a1 s
  induction a1 generalizing a0 s with
  | zero => unfold flushHeld; (try dsimp only); repeat' (first | assumption | (simp; done) | (refine (frame_foldl _ _ (fun s a => ?_) _).trans ?_) | (refine (frame_admitThen _ _ _ _ _ (fun s => ?_)).trans ?_) | (refine (frame_completeStored _ _ _ (fun s => ?_)).trans ?_) | (refine (frame_pealRx _ _ _ _ _ (fun s => ?_)).trans ?_) | split | simp)
  | succ n ih => unfold flushHeld; (try dsimp only); repeat' (first | assumption | (simp [ih]; done) | (refine (frame_foldl _ _ (fun s a => ?_) _).trans ?_) | (refine (frame_admitThen _ _ _ _ _ (fun s => ?_)).trans ?_) | (refine (frame_completeStored _ _ _ (fun s => ?_)).trans ?_) | (refine (frame_pealRx _ _ _ _ _ (fun s => ?_)).trans ?_) | split | simp [ih])

@[simp] theorem flushEvents_frame : ∀ a0 s, frame (flushEvents a0 s) = frame s := by
  intros; unfold flushEvents; simp

@[simp] theorem deliverTo_frame : ∀ a0 a1 s, frame (deliverTo a0 a1 s) = frame s := by
  intro a0 a1 s
  induction a1 generalizing a0 s with
  | nil => unfold deliverTo; (try dsimp only); repeat' (first | assumption | (simp; done) | (refine (frame_foldl _ _ (fun s a => ?_) _).trans ?_) | (refine (frame_admitThen _ _ _ _ _ (fun s => ?_)).trans ?_) | (refine (frame_completeStored _ _ _ (fun s => ?_)).trans ?_) | (refine (frame_pealRx _ _ _ _ _ (fun s => ?_)).trans ?_) | split | simp)
  | cons b l ih => unfold deliverTo; (try dsimp only); repeat' (first | assumption | (simp [ih]; done) | (refine (frame_foldl _ _ (fun s a => ?_) _).trans ?_) | (refine (frame_admitThen _ _ _ _ _ (fun s => ?_)).trans ?_) | (refine (frame_completeStored _ _ _ (fun s => ?_)).trans ?_) | (refine (frame_pealRx _ _ _ _ _ (fun s => ?_)).trans ?_) | split | simp [ih])

@[simp] theorem postInst_frame : ∀ a0 a1 a2 a3 s, frame (postInst a0 a1 a2 a3 s) = frame s := by
  intros; unfold postInst; simp

@[simp] theorem postAll_frame : ∀ a0 a1 a2 s, frame (postAll a0 a1 a2 s) = frame s := by
  intros; unfold postAll; simp

@[simp] theorem postTo_frame : ∀ a0 a1 a2 a3 s, frame (postTo a0 a1 a2 a3 s) = frame s := by
  intros; unfold postTo; simp

@[simp] theorem setRing_frame : ∀ a0 a1 a2 s, frame (setRing a0 a1 a2 s) = frame s := by
  intros; unfold setRing; simp

@[simp] theorem stopRing_frame : ∀ a0 a1 a2 s, frame (stopRing a0 a1 a2 s) = frame s := by
  intros; unfold stopRing; simp

@[simp] theorem writeReply_frame : ∀ a0 a1 a2 s, frame (writeReply a0 a1 a2 s) = frame s := by
  intros; unfold writeReply; simp

@[simp] theorem finishExec_frame : ∀ a0 a1 a2 a3 s, frame (finishExec a0 a1 a2 a3 s) = frame s := by
  intros; unfold finishExec; (try dsimp only); (repeat' split) <;> simp

@[simp] theorem sendRead_frame : ∀ a0 a1 a2 s, frame (sendRead a0 a1 a2 s) = frame s := by
  intros; unfold sendRead; simp

@[simp] theorem issueRead_frame : ∀ a0 a1 a2 a3 s, frame (issueRead a0 a1 a2 a3 s) = frame s := by
  intros; unfold issueRead; (try dsimp only); (repeat' split) <;> simp

theorem frame_runBody (e check onR eff c s) (h : ∀ c s, frame (onR c s) = frame s)
    (g : ∀ c s, frame (eff c s).1 = frame s) : frame (runBody e check onR eff c s) = frame s := by
  unfold runBody
  repeat' split
  all_goals first | rfl | (simp [h]; done) | skip
  all_goals
    rename_i he
    have hg := congrArg (fun x => frame x.1) he
    simp only [g] at hg
    simpa using hg.symm

theorem frame_runCmd (op w so permit check onR eff c s) (h : ∀ c s, frame (onR c s) = frame s)
    (g : ∀ c s, frame (eff c s).1 = frame s) : frame (runCmd op w so permit check onR eff c s) = frame s := by
  unfold runCmd
  dsimp only
  repeat' split
  all_goals first | rfl | (rw [frame_runBody _ _ _ _ _ _ h g]; done) | (simp [frame_runBody _ _ _ _ _ _ h g]; done) | exact (issueRead_frame ..).trans rfl

@[simp] theorem done_fst (s r) : (done s r).1 = s := rfl

@[simp] theorem issueWaiting_frame : ∀ a0 s, frame (issueWaiting a0 s) = frame s := by
  intros; unfold issueWaiting; (try dsimp only); (repeat' split) <;> simp

@[simp] theorem dropReqs_frame : ∀ a0 a1 s, frame (dropReqs a0 a1 s) = frame s := by
  intros; unfold dropReqs; simp

@[simp] theorem quiet_frame : ∀ a0 s, frame (quiet a0 s) = frame s := by
  intros; unfold quiet; simp

@[simp] theorem done_frame : ∀ s a1, frame (done s a1).1 = frame s := by
  intros; unfold done; simp

end Sys2Proof.Machine
end

