-- ==== Sys2Proof/Laws/KeepGates.lean ====
section
/-! SUPPORT. What the operations of Machine/Gates.lean leave alone (Laws/Keep.lean). -/
namespace Sys2Proof.Machine

@[simp] theorem setGate_frame : ∀ a0 a1 s, frame (setGate a0 a1 s) = frame s := by
  intros; unfold setGate; simp

@[simp] theorem postStartAdvanced_frame : ∀ a0 a1 a2 a3 s, frame (postStartAdvanced a0 a1 a2 a3 s) = frame s := by
  intros; unfold postStartAdvanced; simp

end Sys2Proof.Machine
end

