-- ==== Sys2Proof/Laws/KeepOperands.lean ====
section
/-! SUPPORT. What the operations of Machine/Operands.lean leave alone (Laws/Keep.lean). -/
namespace Sys2Proof.Machine

@[simp] theorem updSet_frame : ∀ a0 a1 s, frame (updSet a0 a1 s) = frame s := by
  intros; unfold updSet; simp

end Sys2Proof.Machine
end

