-- ==== Sys2Proof/Laws/KeepFlags.lean ====
section
/-! SUPPORT. What the operations of Machine/Flags.lean leave alone (Laws/Keep.lean). -/
namespace Sys2Proof.Machine

@[simp] theorem countN_frame : ∀ a0 a1 a2 s, frame (countN a0 a1 a2 s) = frame s := by
  intros; unfold countN; simp

@[simp] theorem count_frame : ∀ a0 a1 s, frame (count a0 a1 s) = frame s := by
  intros; unfold count; simp

@[simp] theorem countBlock_frame : ∀ a0 a1 a2 s, frame (countBlock a0 a1 a2 s) = frame s := by
  intros; unfold countBlock; simp

@[simp] theorem setPkt_frame : ∀ a0 a1 s, frame (setPkt a0 a1 s) = frame s := by
  intros; unfold setPkt; simp

@[simp] theorem newPkt_frame : ∀ a0 s, frame (newPkt a0 s) = frame s := by
  intros; unfold newPkt; simp

@[simp] theorem setLane_frame : ∀ a0 a1 s, frame (setLane a0 a1 s) = frame s := by
  intros; unfold setLane; simp

@[simp] theorem notePeak_frame : ∀ a0 s, frame (notePeak a0 s) = frame s := by
  intros; unfold notePeak; simp

@[simp] theorem pfcNotify_frame : ∀ a0 s, frame (pfcNotify a0 s) = frame s := by
  intros; unfold pfcNotify; (try dsimp only); repeat' (first | assumption | (simp; done) | (refine (frame_foldl _ _ (fun s a => ?_) _).trans ?_) | (refine (frame_admitThen _ _ _ _ _ (fun s => ?_)).trans ?_) | (refine (frame_completeStored _ _ _ (fun s => ?_)).trans ?_) | (refine (frame_pealRx _ _ _ _ _ (fun s => ?_)).trans ?_) | split | simp)

@[simp] theorem evalXoff_frame : ∀ a0 s, frame (evalXoff a0 s) = frame s := by
  intros; unfold evalXoff; simp

@[simp] theorem evalOf_frame : ∀ a0 s, frame (evalOf a0 s) = frame s := by
  intros; unfold evalOf; (try dsimp only); (repeat' split) <;> simp

@[simp] theorem chargePkt_frame : ∀ a0 a1 s, frame (chargePkt a0 a1 s) = frame s := by
  intros; unfold chargePkt; (try dsimp only); (repeat' split) <;> simp

@[simp] theorem fragFate_frame : ∀ a0 a1 a2 s, frame (fragFate a0 a1 a2 s) = frame s := by
  intros; unfold fragFate; (try dsimp only); (repeat' split) <;> simp

@[simp] theorem endTx_frame : ∀ a0 a1 a2 a3 s, frame (endTx a0 a1 a2 a3 s) = frame s := by
  intros; unfold endTx; simp

@[simp] theorem txDone_frame : ∀ a0 s, frame (txDone a0 s) = frame s := by
  intros; unfold txDone; (try dsimp only); (repeat' split) <;> simp

@[simp] theorem removePkt_frame : ∀ a0 s, frame (removePkt a0 s) = frame s := by
  intros; unfold removePkt; simp

@[simp] theorem holdCells_frame : ∀ a0 s, frame (holdCells a0 s) = frame s := by
  intros; unfold holdCells; simp

@[simp] theorem freeHeld_frame : ∀ a0 s, frame (freeHeld a0 s) = frame s := by
  intros; unfold freeHeld; (try dsimp only); (repeat' split) <;> simp

@[simp] theorem dropPkt_frame : ∀ a0 s, frame (dropPkt a0 s) = frame s := by
  intros; unfold dropPkt; simp

@[simp] theorem losePkt_frame : ∀ a0 s, frame (losePkt a0 s) = frame s := by
  intros; unfold losePkt; simp

@[simp] theorem postLaneDown_frame : ∀ a0 s, frame (postLaneDown a0 s) = frame s := by
  intros; unfold postLaneDown; simp

@[simp] theorem postLane_frame : ∀ a0 a1 s, frame (postLane a0 a1 s) = frame s := by
  intros; unfold postLane; simp

@[simp] theorem noteExhausted_frame : ∀ a0 s, frame (noteExhausted a0 s) = frame s := by
  intros; unfold noteExhausted; simp

@[simp] theorem judgeHead_frame : ∀ a0 a1 a2 s, frame (judgeHead a0 a1 a2 s) = frame s := by
  intro a0 a1 a2 s
  induction a2 generalizing a0 a1 s with
  | zero => unfold judgeHead; (try dsimp only); repeat' (first | assumption | (simp; done) | (refine (frame_foldl _ _ (fun s a => ?_) _).trans ?_) | (refine (frame_admitThen _ _ _ _ _ (fun s => ?_)).trans ?_) | (refine (frame_completeStored _ _ _ (fun s => ?_)).trans ?_) | (refine (frame_pealRx _ _ _ _ _ (fun s => ?_)).trans ?_) | split | simp)
  | succ n ih => unfold judgeHead; (try dsimp only); repeat' (first | assumption | (simp [ih]; done) | (refine (frame_foldl _ _ (fun s a => ?_) _).trans ?_) | (refine (frame_admitThen _ _ _ _ _ (fun s => ?_)).trans ?_) | (refine (frame_completeStored _ _ _ (fun s => ?_)).trans ?_) | (refine (frame_pealRx _ _ _ _ _ (fun s => ?_)).trans ?_) | split | simp [ih])

@[simp] theorem judgeHeads_frame : ∀ a0 s, frame (judgeHeads a0 s) = frame s := by
  intros; unfold judgeHeads; (try dsimp only); repeat' (first | assumption | (simp; done) | (refine (frame_foldl _ _ (fun s a => ?_) _).trans ?_) | (refine (frame_admitThen _ _ _ _ _ (fun s => ?_)).trans ?_) | (refine (frame_completeStored _ _ _ (fun s => ?_)).trans ?_) | (refine (frame_pealRx _ _ _ _ _ (fun s => ?_)).trans ?_) | split | simp)

@[simp] theorem joinQueue_frame : ∀ a0 a1 a2 s, frame (joinQueue a0 a1 a2 s) = frame s := by
  intros; unfold joinQueue; simp

@[simp] theorem ecnMark_frame : ∀ a0 a1 a2 s, frame (ecnMark a0 a1 a2 s) = frame s := by
  intros; unfold ecnMark; simp

@[simp] theorem enqueue_frame : ∀ a0 a1 a2 s, frame (enqueue a0 a1 a2 s) = frame s := by
  intros; unfold enqueue; simp

@[simp] theorem flushFrame_frame : ∀ a0 a1 s, frame (flushFrame a0 a1 s) = frame s := by
  intros; unfold flushFrame; simp

@[simp] theorem moveQueue_frame : ∀ a0 a1 a2 a3 s, frame (moveQueue a0 a1 a2 a3 s) = frame s := by
  intro a0 a1 a2 a3 s
  induction a3 generalizing a0 a1 a2 s with
  | nil => unfold moveQueue; (try dsimp only); repeat' (first | assumption | (simp; done) | (refine (frame_foldl _ _ (fun s a => ?_) _).trans ?_) | (refine (frame_admitThen _ _ _ _ _ (fun s => ?_)).trans ?_) | (refine (frame_completeStored _ _ _ (fun s => ?_)).trans ?_) | (refine (frame_pealRx _ _ _ _ _ (fun s => ?_)).trans ?_) | split | simp)
  | cons b l ih => unfold moveQueue; (try dsimp only); repeat' (first | assumption | (simp [ih]; done) | (refine (frame_foldl _ _ (fun s a => ?_) _).trans ?_) | (refine (frame_admitThen _ _ _ _ _ (fun s => ?_)).trans ?_) | (refine (frame_completeStored _ _ _ (fun s => ?_)).trans ?_) | (refine (frame_pealRx _ _ _ _ _ (fun s => ?_)).trans ?_) | split | simp [ih])

@[simp] theorem moveCommitted_frame : ∀ a0 a1 a2 s, frame (moveCommitted a0 a1 a2 s) = frame s := by
  intro a0 a1 a2 s
  induction a2 generalizing a0 a1 s with
  | nil => unfold moveCommitted; (try dsimp only); repeat' (first | assumption | (simp; done) | (refine (frame_foldl _ _ (fun s a => ?_) _).trans ?_) | (refine (frame_admitThen _ _ _ _ _ (fun s => ?_)).trans ?_) | (refine (frame_completeStored _ _ _ (fun s => ?_)).trans ?_) | (refine (frame_pealRx _ _ _ _ _ (fun s => ?_)).trans ?_) | split | simp)
  | cons b l ih => unfold moveCommitted; (try dsimp only); repeat' (first | assumption | (simp [ih]; done) | (refine (frame_foldl _ _ (fun s a => ?_) _).trans ?_) | (refine (frame_admitThen _ _ _ _ _ (fun s => ?_)).trans ?_) | (refine (frame_completeStored _ _ _ (fun s => ?_)).trans ?_) | (refine (frame_pealRx _ _ _ _ _ (fun s => ?_)).trans ?_) | split | simp [ih])

@[simp] theorem substitute_frame : ∀ a0 s, frame (substitute a0 s) = frame s := by
  intros; unfold substitute; (try dsimp only); repeat' (first | assumption | (simp; done) | (refine (frame_foldl _ _ (fun s a => ?_) _).trans ?_) | (refine (frame_admitThen _ _ _ _ _ (fun s => ?_)).trans ?_) | (refine (frame_completeStored _ _ _ (fun s => ?_)).trans ?_) | (refine (frame_pealRx _ _ _ _ _ (fun s => ?_)).trans ?_) | split | simp)

@[simp] theorem truncate_frame : ∀ a0 s, frame (truncate a0 s) = frame s := by
  intros; unfold truncate; (try dsimp only); (repeat' split) <;> simp

@[simp] theorem freeStampEntry_frame : ∀ a0 s, frame (freeStampEntry a0 s) = frame s := by
  intros; unfold freeStampEntry; simp

@[simp] theorem lanesSquelch_frame : ∀ s, frame (lanesSquelch s) = frame s := by
  intros; unfold lanesSquelch; simp

@[simp] theorem chargePolicer_frame : ∀ a0 a1 a2 s, frame (chargePolicer a0 a1 a2 s).2 = frame s := by
  intros; unfold chargePolicer; simp

@[simp] theorem chargeShaper_frame : ∀ a0 a1 s, frame (chargeShaper a0 a1 s) = frame s := by
  intros; unfold chargeShaper; simp

end Sys2Proof.Machine
end

