-- ==== Sys2Proof/Laws/KeepKilnOps.lean ====
section
/-! SUPPORT. What the operations of Machine/KilnOps.lean leave alone (Laws/Keep.lean). -/
namespace Sys2Proof.Machine

@[simp] theorem setRot_frame : ∀ a0 a1 s, frame (setRot a0 a1 s) = frame s := by
  intros; unfold setRot; simp

@[simp] theorem kilnErr_frame : ∀ a0 a1 s, frame (kilnErr a0 a1 s) = frame s := by
  intros; unfold kilnErr; simp

@[simp] theorem queueTest_frame : ∀ a0 s, frame (queueTest a0 s) = frame s := by
  intros; unfold queueTest; simp

@[simp] theorem haltRot_frame : ∀ a0 s, frame (haltRot a0 s) = frame s := by
  intros; unfold haltRot; (try dsimp only); (repeat' split) <;> simp

@[simp] theorem kilnHalt_frame : ∀ s, frame (kilnHalt s) = frame s := by
  intros; unfold kilnHalt; (try dsimp only); repeat' (first | assumption | (simp; done) | (refine (frame_foldl _ _ (fun s a => ?_) _).trans ?_) | (refine (frame_admitThen _ _ _ _ _ (fun s => ?_)).trans ?_) | (refine (frame_completeStored _ _ _ (fun s => ?_)).trans ?_) | (refine (frame_pealRx _ _ _ _ _ (fun s => ?_)).trans ?_) | split | simp)

@[simp] theorem testStarts_frame : ∀ a0 s, frame (testStarts a0 s) = frame s := by
  intros; unfold testStarts; (try dsimp only); (repeat' split) <;> simp

@[simp] theorem wayEmptied_frame : ∀ a0 s, frame (wayEmptied a0 s) = frame s := by
  intros; unfold wayEmptied; simp

@[simp] theorem kilnStart_frame : ∀ s, frame (kilnStart s) = frame s := by
  intros; unfold kilnStart; simp

end Sys2Proof.Machine
end

