-- ==== Sys2Proof/Laws/KeepPipe1.lean ====
section
/-! SUPPORT. What the operations of Machine/Pipe1.lean leave alone (Laws/Keep.lean). -/
namespace Sys2Proof.Machine

@[simp] theorem sendReport_frame : ∀ a0 a1 a2 a3 a4 s, frame (sendReport a0 a1 a2 a3 a4 s) = frame s := by
  intros; unfold sendReport; simp

@[simp] theorem applyEffect_frame : ∀ a0 s, frame (applyEffect a0 s) = frame s := by
  intros; unfold applyEffect; (try dsimp only); (repeat' split) <;> simp

@[simp] theorem doEffect_frame : ∀ a0 a1 s, frame (doEffect a0 a1 s) = frame s := by
  intros; unfold doEffect; simp

@[simp] theorem commitEffects_frame : ∀ a0 s, frame (commitEffects a0 s) = frame s := by
  intros; unfold commitEffects; (try dsimp only); repeat' (first | assumption | (simp; done) | (refine (frame_foldl _ _ (fun s a => ?_) _).trans ?_) | (refine (frame_admitThen _ _ _ _ _ (fun s => ?_)).trans ?_) | (refine (frame_completeStored _ _ _ (fun s => ?_)).trans ?_) | (refine (frame_pealRx _ _ _ _ _ (fun s => ?_)).trans ?_) | split | simp)

@[simp] theorem undoFrame_frame : ∀ a0 s, frame (undoFrame a0 s) = frame s := by
  intros; unfold undoFrame; (try dsimp only); repeat' (first | assumption | (simp; done) | (refine (frame_foldl _ _ (fun s a => ?_) _).trans ?_) | (refine (frame_admitThen _ _ _ _ _ (fun s => ?_)).trans ?_) | (refine (frame_completeStored _ _ _ (fun s => ?_)).trans ?_) | (refine (frame_pealRx _ _ _ _ _ (fun s => ?_)).trans ?_) | split | simp)

@[simp] theorem puntPkt_frame : ∀ a0 a1 a2 a3 a4 s, frame (puntPkt a0 a1 a2 a3 a4 s) = frame s := by
  intros; unfold puntPkt; simp

@[simp] theorem postParity_frame : ∀ a0 a1 a2 a3 a4 a5 a6 s, frame (postParity a0 a1 a2 a3 a4 a5 a6 s) = frame s := by
  intros; unfold postParity; simp

@[simp] theorem freeFrag_frame : ∀ a0 s, frame (freeFrag a0 s) = frame s := by
  intros; unfold freeFrag; simp

@[simp] theorem dropCorrupt_frame : ∀ a0 s, frame (dropCorrupt a0 s) = frame s := by
  intro a0 s
  induction a0 generalizing s with
  | nil => unfold dropCorrupt; (try dsimp only); repeat' (first | assumption | (simp; done) | (refine (frame_foldl _ _ (fun s a => ?_) _).trans ?_) | (refine (frame_admitThen _ _ _ _ _ (fun s => ?_)).trans ?_) | (refine (frame_completeStored _ _ _ (fun s => ?_)).trans ?_) | (refine (frame_pealRx _ _ _ _ _ (fun s => ?_)).trans ?_) | split | simp)
  | cons b l ih => unfold dropCorrupt; (try dsimp only); repeat' (first | assumption | (simp [ih]; done) | (refine (frame_foldl _ _ (fun s a => ?_) _).trans ?_) | (refine (frame_admitThen _ _ _ _ _ (fun s => ?_)).trans ?_) | (refine (frame_completeStored _ _ _ (fun s => ?_)).trans ?_) | (refine (frame_pealRx _ _ _ _ _ (fun s => ?_)).trans ?_) | split | simp [ih])

@[simp] theorem seeFrag_frame : ∀ a0 a1 s, frame (seeFrag a0 a1 s) = frame s := by
  intros; unfold seeFrag; simp

@[simp] theorem fragDone_frame : ∀ a0 s, frame (fragDone a0 s) = frame s := by
  intros; unfold fragDone; (try dsimp only); (repeat' split) <;> simp

@[simp] theorem killRx_frame : ∀ a0 s, frame (killRx a0 s) = frame s := by
  intros; unfold killRx; (try dsimp only); (repeat' split) <;> simp

@[simp] theorem laneDown_frame : ∀ a0 a1 s, frame (laneDown a0 a1 s) = frame s := by
  intros; unfold laneDown; simp

@[simp] theorem laneRefFail_frame : ∀ a0 s, frame (laneRefFail a0 s) = frame s := by
  intros; unfold laneRefFail; simp

end Sys2Proof.Machine
end

