-- ==== Sys2Proof/Laws/KeepTm.lean ====
section
/-! SUPPORT. What the operations of Machine/Tm.lean leave alone (Laws/Keep.lean). -/
namespace Sys2Proof.Machine

@[simp] theorem setNode_frame : ∀ a0 a1 s, frame (setNode a0 a1 s) = frame s := by
  intros; unfold setNode; simp

@[simp] theorem placeNode_frame : ∀ a0 s, frame (placeNode a0 s) = frame s := by
  intros; unfold placeNode; simp

@[simp] theorem placeNodes_frame : ∀ a0 s, frame (placeNodes a0 s) = frame s := by
  intro a0 s
  induction a0 generalizing s with
  | nil => unfold placeNodes; (try dsimp only); repeat' (first | assumption | (simp; done) | (refine (frame_foldl _ _ (fun s a => ?_) _).trans ?_) | (refine (frame_admitThen _ _ _ _ _ (fun s => ?_)).trans ?_) | (refine (frame_completeStored _ _ _ (fun s => ?_)).trans ?_) | (refine (frame_pealRx _ _ _ _ _ (fun s => ?_)).trans ?_) | split | simp)
  | cons b l ih => unfold placeNodes; (try dsimp only); repeat' (first | assumption | (simp [ih]; done) | (refine (frame_foldl _ _ (fun s a => ?_) _).trans ?_) | (refine (frame_admitThen _ _ _ _ _ (fun s => ?_)).trans ?_) | (refine (frame_completeStored _ _ _ (fun s => ?_)).trans ?_) | (refine (frame_pealRx _ _ _ _ _ (fun s => ?_)).trans ?_) | split | simp [ih])

@[simp] theorem placePath_frame : ∀ a0 s, frame (placePath a0 s) = frame s := by
  intros; unfold placePath; simp

@[simp] theorem placeAll_frame : ∀ s, frame (placeAll s) = frame s := by
  intros; unfold placeAll; simp

@[simp] theorem dropLeafIf_frame : ∀ a0 a1 s, frame (dropLeafIf a0 a1 s) = frame s := by
  intros; unfold dropLeafIf; (try dsimp only); repeat' (first | assumption | (simp; done) | (refine (frame_foldl _ _ (fun s a => ?_) _).trans ?_) | (refine (frame_admitThen _ _ _ _ _ (fun s => ?_)).trans ?_) | (refine (frame_completeStored _ _ _ (fun s => ?_)).trans ?_) | (refine (frame_pealRx _ _ _ _ _ (fun s => ?_)).trans ?_) | split | simp)

@[simp] theorem dropLeaf_frame : ∀ a0 s, frame (dropLeaf a0 s) = frame s := by
  intros; unfold dropLeaf; simp

@[simp] theorem dropLeaves_frame : ∀ a0 s, frame (dropLeaves a0 s) = frame s := by
  intros; unfold dropLeaves; (try dsimp only); repeat' (first | assumption | (simp; done) | (refine (frame_foldl _ _ (fun s a => ?_) _).trans ?_) | (refine (frame_admitThen _ _ _ _ _ (fun s => ?_)).trans ?_) | (refine (frame_completeStored _ _ _ (fun s => ?_)).trans ?_) | (refine (frame_pealRx _ _ _ _ _ (fun s => ?_)).trans ?_) | split | simp)

@[simp] theorem joinLeaf_frame : ∀ a0 a1 s, frame (joinLeaf a0 a1 s) = frame s := by
  intros; unfold joinLeaf; simp

@[simp] theorem selectFrom_frame : ∀ a0 a1 s, frame (selectFrom a0 a1 s).2 = frame s := by
  intro a0 a1 s
  induction a0 generalizing a1 s with
  | zero => unfold selectFrom; (try dsimp only); repeat' (first | assumption | (simp; done) | (refine (frame_foldl _ _ (fun s a => ?_) _).trans ?_) | (refine (frame_admitThen _ _ _ _ _ (fun s => ?_)).trans ?_) | (refine (frame_completeStored _ _ _ (fun s => ?_)).trans ?_) | (refine (frame_pealRx _ _ _ _ _ (fun s => ?_)).trans ?_) | split | simp)
  | succ n ih => unfold selectFrom; (try dsimp only); repeat' (first | assumption | (simp [ih]; done) | (refine (frame_foldl _ _ (fun s a => ?_) _).trans ?_) | (refine (frame_admitThen _ _ _ _ _ (fun s => ?_)).trans ?_) | (refine (frame_completeStored _ _ _ (fun s => ?_)).trans ?_) | (refine (frame_pealRx _ _ _ _ _ (fun s => ?_)).trans ?_) | split | simp [ih])

@[simp] theorem chargeNode_frame : ∀ a0 a1 s, frame (chargeNode a0 a1 s) = frame s := by
  intros; unfold chargeNode; (try dsimp only); (repeat' split) <;> simp

@[simp] theorem chargePath_frame : ∀ a0 a1 s, frame (chargePath a0 a1 s) = frame s := by
  intro a0 a1 s
  induction a1 generalizing a0 s with
  | nil => unfold chargePath; (try dsimp only); repeat' (first | assumption | (simp; done) | (refine (frame_foldl _ _ (fun s a => ?_) _).trans ?_) | (refine (frame_admitThen _ _ _ _ _ (fun s => ?_)).trans ?_) | (refine (frame_completeStored _ _ _ (fun s => ?_)).trans ?_) | (refine (frame_pealRx _ _ _ _ _ (fun s => ?_)).trans ?_) | split | simp)
  | cons b l ih => unfold chargePath; (try dsimp only); repeat' (first | assumption | (simp [ih]; done) | (refine (frame_foldl _ _ (fun s a => ?_) _).trans ?_) | (refine (frame_admitThen _ _ _ _ _ (fun s => ?_)).trans ?_) | (refine (frame_completeStored _ _ _ (fun s => ?_)).trans ?_) | (refine (frame_pealRx _ _ _ _ _ (fun s => ?_)).trans ?_) | split | simp [ih])

@[simp] theorem consumeTx_frame : ∀ a0 s, frame (consumeTx a0 s) = frame s := by
  intros; unfold consumeTx; (try dsimp only); (repeat' split) <;> simp

@[simp] theorem takeSelected_frame : ∀ a0 a1 s, frame (takeSelected a0 a1 s) = frame s := by
  intros; unfold takeSelected; (try dsimp only); (repeat' split) <;> simp

@[simp] theorem refill_frame : ∀ s, frame (refill s) = frame s := by
  intros; unfold refill; simp

@[simp] theorem execBucketRefill_frame : ∀ s, Keeps s (execBucketRefill s) := by
  intros; unfold execBucketRefill; simp

end Sys2Proof.Machine
end

