-- ==== Sys2Proof/Laws/KeepCipherOps.lean ====
section
/-! SUPPORT. What the operations of Machine/CipherOps.lean leave alone (Laws/Keep.lean). -/
namespace Sys2Proof.Machine

@[simp] theorem setKeySlot_frame : ∀ a0 a1 s, frame (setKeySlot a0 a1 s) = frame s := by
  intros; unfold setKeySlot; simp

@[simp] theorem setKey_frame : ∀ a0 a1 s, frame (setKey a0 a1 s) = frame s := by
  intros; unfold setKey; simp

@[simp] theorem destroyKey_frame : ∀ a0 s, frame (destroyKey a0 s) = frame s := by
  intros; unfold destroyKey; simp

@[simp] theorem destroyDomainKeys_frame : ∀ a0 s, frame (destroyDomainKeys a0 s) = frame s := by
  intros; unfold destroyDomainKeys; (try dsimp only); repeat' (first | assumption | (simp; done) | (refine (frame_foldl _ _ (fun s a => ?_) _).trans ?_) | (refine (frame_admitThen _ _ _ _ _ (fun s => ?_)).trans ?_) | (refine (frame_completeStored _ _ _ (fun s => ?_)).trans ?_) | (refine (frame_pealRx _ _ _ _ _ (fun s => ?_)).trans ?_) | split | simp)

@[simp] theorem zeroiseKeys_frame : ∀ s, frame (zeroiseKeys s) = frame s := by
  intros; unfold zeroiseKeys; (try dsimp only); repeat' (first | assumption | (simp; done) | (refine (frame_foldl _ _ (fun s a => ?_) _).trans ?_) | (refine (frame_admitThen _ _ _ _ _ (fun s => ?_)).trans ?_) | (refine (frame_completeStored _ _ _ (fun s => ?_)).trans ?_) | (refine (frame_pealRx _ _ _ _ _ (fun s => ?_)).trans ?_) | split | simp)

@[simp] theorem holdBack_frame : ∀ a0 s, frame (holdBack a0 s) = frame s := by
  intros; unfold holdBack; simp

@[simp] theorem holdBackOf_frame : ∀ a0 s, frame (holdBackOf a0 s) = frame s := by
  intros; unfold holdBackOf; (try dsimp only); (repeat' split) <;> simp

@[simp] theorem cipherAsk_frame : ∀ a0 s, frame (cipherAsk a0 s) = frame s := by
  intros; unfold cipherAsk; simp

@[simp] theorem setOp_frame : ∀ a0 a1 s, frame (setOp a0 a1 s) = frame s := by
  intros; unfold setOp; simp

end Sys2Proof.Machine
end

