-- ==== Sys2Proof/Laws/KeepObjOps.lean ====
section
/-! SUPPORT. What the operations of Machine/ObjOps.lean leave alone (Laws/Keep.lean). -/
namespace Sys2Proof.Machine

@[simp] theorem setObj_frame : ∀ a0 a1 s, frame (setObj a0 a1 s) = frame s := by
  intros; unfold setObj; simp

@[simp] theorem dropFormed_frame : ∀ a0 s, frame (dropFormed a0 s) = frame s := by
  intros; unfold dropFormed; simp

@[simp] theorem abandonRecord_frame : ∀ a0 a1 s, frame (abandonRecord a0 a1 s) = frame s := by
  intros; unfold abandonRecord; (try dsimp only); (repeat' split) <;> simp

@[simp] theorem errObjectsOf_frame : ∀ a0 s, frame (errObjectsOf a0 s) = frame s := by
  intros; unfold errObjectsOf; (try dsimp only); repeat' (first | assumption | (simp; done) | (refine (frame_foldl _ _ (fun s a => ?_) _).trans ?_) | (refine (frame_admitThen _ _ _ _ _ (fun s => ?_)).trans ?_) | (refine (frame_completeStored _ _ _ (fun s => ?_)).trans ?_) | (refine (frame_pealRx _ _ _ _ _ (fun s => ?_)).trans ?_) | split | simp)

@[simp] theorem destroyObject_frame : ∀ a0 s, frame (destroyObject a0 s) = frame s := by
  intros; unfold destroyObject; simp

@[simp] theorem destroyObjectsOf_frame : ∀ a0 s, frame (destroyObjectsOf a0 s) = frame s := by
  intros; unfold destroyObjectsOf; (try dsimp only); repeat' (first | assumption | (simp; done) | (refine (frame_foldl _ _ (fun s a => ?_) _).trans ?_) | (refine (frame_admitThen _ _ _ _ _ (fun s => ?_)).trans ?_) | (refine (frame_completeStored _ _ _ (fun s => ?_)).trans ?_) | (refine (frame_pealRx _ _ _ _ _ (fun s => ?_)).trans ?_) | split | simp)

@[simp] theorem discardDelivery_frame : ∀ a0 s, frame (discardDelivery a0 s) = frame s := by
  intros; unfold discardDelivery; (try dsimp only); repeat' (first | assumption | (simp; done) | (refine (frame_foldl _ _ (fun s a => ?_) _).trans ?_) | (refine (frame_admitThen _ _ _ _ _ (fun s => ?_)).trans ?_) | (refine (frame_completeStored _ _ _ (fun s => ?_)).trans ?_) | (refine (frame_pealRx _ _ _ _ _ (fun s => ?_)).trans ?_) | split | simp)

end Sys2Proof.Machine
end

