-- ==== Sys2Proof/Laws/KeepHostOps.lean ====
section
/-! SUPPORT. What the operations of Machine/HostOps.lean leave alone (Laws/Keep.lean). -/
namespace Sys2Proof.Machine

@[simp] theorem kickTx_frame : ∀ a0 a1 s, frame (kickTx a0 a1 s) = frame s := by
  intros; unfold kickTx; simp

@[simp] theorem kickRx_frame : ∀ a0 a1 s, frame (kickRx a0 a1 s) = frame s := by
  intros; unfold kickRx; simp

@[simp] theorem kickFn_frame : ∀ a0 s, frame (kickFn a0 s) = frame s := by
  intros; unfold kickFn; (try dsimp only); repeat' (first | assumption | (simp; done) | (refine (frame_foldl _ _ (fun s a => ?_) _).trans ?_) | (refine (frame_admitThen _ _ _ _ _ (fun s => ?_)).trans ?_) | (refine (frame_completeStored _ _ _ (fun s => ?_)).trans ?_) | (refine (frame_pealRx _ _ _ _ _ (fun s => ?_)).trans ?_) | split | simp)

@[simp] theorem kickAll_frame : ∀ s, frame (kickAll s) = frame s := by
  intros; unfold kickAll; (try dsimp only); repeat' (first | assumption | (simp; done) | (refine (frame_foldl _ _ (fun s a => ?_) _).trans ?_) | (refine (frame_admitThen _ _ _ _ _ (fun s => ?_)).trans ?_) | (refine (frame_completeStored _ _ _ (fun s => ?_)).trans ?_) | (refine (frame_pealRx _ _ _ _ _ (fun s => ?_)).trans ?_) | split | simp)

@[simp] theorem stopQueue_frame : ∀ a0 a1 a2 s, frame (stopQueue a0 a1 a2 s) = frame s := by
  intros; unfold stopQueue; simp

@[simp] theorem actQueue_frame : ∀ a0 a1 s, frame (actQueue a0 a1 s) = frame s := by
  intros; unfold actQueue; simp

@[simp] theorem armQueue_frame : ∀ a0 a1 s, frame (armQueue a0 a1 s) = frame s := by
  intros; unfold armQueue; simp

@[simp] theorem writeQCtl_frame : ∀ a0 a1 a2 s, frame (writeQCtl a0 a1 a2 s) = frame s := by
  intros; unfold writeQCtl; simp

@[simp] theorem setTx_frame : ∀ a0 a1 a2 s, frame (setTx a0 a1 a2 s) = frame s := by
  intros; unfold setTx; simp

@[simp] theorem endMessage_frame : ∀ a0 a1 a2 s, frame (endMessage a0 a1 a2 s) = frame s := by
  intros; unfold endMessage; simp

@[simp] theorem fillChannel_frame : ∀ a0 a1 a2 s, frame (fillChannel a0 a1 a2 s) = frame s := by
  intros; unfold fillChannel; simp

@[simp] theorem postSecure_frame : ∀ a0 a1 s, frame (postSecure a0 a1 s) = frame s := by
  intros; unfold postSecure; simp

@[simp] theorem setAnswers_frame : ∀ a0 a1 s, frame (setAnswers a0 a1 s) = frame s := by
  intros; unfold setAnswers; simp

@[simp] theorem fillSecure_frame : ∀ a0 a1 s, frame (fillSecure a0 a1 s) = frame s := by
  intros; unfold fillSecure; simp

@[simp] theorem nextAnswer_frame : ∀ a0 s, frame (nextAnswer a0 s) = frame s := by
  intros; unfold nextAnswer; (try dsimp only); (repeat' split) <;> simp

@[simp] theorem sendNotice_frame : ∀ a0 a1 a2 s, frame (sendNotice a0 a1 a2 s) = frame s := by
  intros; unfold sendNotice; simp

@[simp] theorem discardUnread_frame : ∀ a0 a1 a2 s, frame (discardUnread a0 a1 a2 s) = frame s := by
  intro a0 a1 a2 s
  induction a2 generalizing a0 a1 s with
  | nil => unfold discardUnread; (try dsimp only); repeat' (first | assumption | (simp; done) | (refine (frame_foldl _ _ (fun s a => ?_) _).trans ?_) | (refine (frame_admitThen _ _ _ _ _ (fun s => ?_)).trans ?_) | (refine (frame_completeStored _ _ _ (fun s => ?_)).trans ?_) | (refine (frame_pealRx _ _ _ _ _ (fun s => ?_)).trans ?_) | split | simp)
  | cons b l ih => unfold discardUnread; (try dsimp only); repeat' (first | assumption | (simp [ih]; done) | (refine (frame_foldl _ _ (fun s a => ?_) _).trans ?_) | (refine (frame_admitThen _ _ _ _ _ (fun s => ?_)).trans ?_) | (refine (frame_completeStored _ _ _ (fun s => ?_)).trans ?_) | (refine (frame_pealRx _ _ _ _ _ (fun s => ?_)).trans ?_) | split | simp [ih])

@[simp] theorem resetMailbox_frame : ∀ a0 a1 s, frame (resetMailbox a0 a1 s) = frame s := by
  intros; unfold resetMailbox; (try dsimp only); (repeat' split) <;> simp

@[simp] theorem freeStamps_frame : ∀ a0 s, frame (freeStamps a0 s) = frame s := by
  intros; unfold freeStamps; (try dsimp only); repeat' (first | assumption | (simp; done) | (refine (frame_foldl _ _ (fun s a => ?_) _).trans ?_) | (refine (frame_admitThen _ _ _ _ _ (fun s => ?_)).trans ?_) | (refine (frame_completeStored _ _ _ (fun s => ?_)).trans ?_) | (refine (frame_pealRx _ _ _ _ _ (fun s => ?_)).trans ?_) | split | simp)

@[simp] theorem discardWork_frame : ∀ a0 s, frame (discardWork a0 s) = frame s := by
  intros; unfold discardWork; simp

@[simp] theorem stopAllQueues_frame : ∀ a0 a1 s, frame (stopAllQueues a0 a1 s) = frame s := by
  intros; unfold stopAllQueues; simp

@[simp] theorem forgetRings_frame : ∀ a0 s, frame (forgetRings a0 s) = frame s := by
  intros; unfold forgetRings; simp

@[simp] theorem stopLogging_frame : ∀ a0 s, frame (stopLogging a0 s) = frame s := by
  intros; unfold stopLogging; simp

@[simp] theorem finishRings_frame : ∀ a0 a1 a2 s, frame (finishRings a0 a1 a2 s) = frame s := by
  intros; unfold finishRings; (try dsimp only); repeat' (first | assumption | (simp; done) | (refine (frame_foldl _ _ (fun s a => ?_) _).trans ?_) | (refine (frame_admitThen _ _ _ _ _ (fun s => ?_)).trans ?_) | (refine (frame_completeStored _ _ _ (fun s => ?_)).trans ?_) | (refine (frame_pealRx _ _ _ _ _ (fun s => ?_)).trans ?_) | split | simp)

@[simp] theorem resetInstance_frame : ∀ a0 a1 s, frame (resetInstance a0 a1 s) = frame s := by
  intros; unfold resetInstance; simp

@[simp] theorem endReset_frame : ∀ a0 a1 s, frame (endReset a0 a1 s) = frame s := by
  intros; unfold endReset; simp

@[simp] theorem endPortSecurity_frame : ∀ a0 s, frame (endPortSecurity a0 s) = frame s := by
  intros; unfold endPortSecurity; simp

@[simp] theorem resetWhole_frame : ∀ a0 a1 s, frame (resetWhole a0 a1 s) = frame s := by
  intros; unfold resetWhole; simp

@[simp] theorem endVf_frame : ∀ a0 a1 s, frame (endVf a0 a1 s) = frame s := by
  intros; unfold endVf; simp

@[simp] theorem endVfs_frame : ∀ a0 a1 s, frame (endVfs a0 a1 s) = frame s := by
  intro a0 a1 s
  induction a1 generalizing a0 s with
  | nil => unfold endVfs; (try dsimp only); repeat' (first | assumption | (simp; done) | (refine (frame_foldl _ _ (fun s a => ?_) _).trans ?_) | (refine (frame_admitThen _ _ _ _ _ (fun s => ?_)).trans ?_) | (refine (frame_completeStored _ _ _ (fun s => ?_)).trans ?_) | (refine (frame_pealRx _ _ _ _ _ (fun s => ?_)).trans ?_) | split | simp)
  | cons b l ih => unfold endVfs; (try dsimp only); repeat' (first | assumption | (simp [ih]; done) | (refine (frame_foldl _ _ (fun s a => ?_) _).trans ?_) | (refine (frame_admitThen _ _ _ _ _ (fun s => ?_)).trans ?_) | (refine (frame_completeStored _ _ _ (fun s => ?_)).trans ?_) | (refine (frame_pealRx _ _ _ _ _ (fun s => ?_)).trans ?_) | split | simp [ih])

@[simp] theorem linkLoss_frame : ∀ a0 a1 s, frame (linkLoss a0 a1 s) = frame s := by
  intros; unfold linkLoss; simp

@[simp] theorem hostPortsReset_frame : ∀ s, frame (hostPortsReset s) = frame s := by
  intros; unfold hostPortsReset; simp

@[simp] theorem packetsLost_frame : ∀ s, frame (packetsLost s) = frame s := by
  intros; unfold packetsLost; simp

@[simp] theorem undoExec_frame : ∀ a0 s, frame (undoExec a0 s) = frame s := by
  intros; unfold undoExec; simp

@[simp] theorem undoAll_frame : ∀ s, frame (undoAll s) = frame s := by
  intros; unfold undoAll; (try dsimp only); repeat' (first | assumption | (simp; done) | (refine (frame_foldl _ _ (fun s a => ?_) _).trans ?_) | (refine (frame_admitThen _ _ _ _ _ (fun s => ?_)).trans ?_) | (refine (frame_completeStored _ _ _ (fun s => ?_)).trans ?_) | (refine (frame_pealRx _ _ _ _ _ (fun s => ?_)).trans ?_) | split | simp)

@[simp] theorem enterSafe_frame : ∀ s, frame (enterSafe s) = frame s := by
  intros; unfold enterSafe; simp

end Sys2Proof.Machine
end

