-- ==== Sys2Proof/Laws/KeepKilnPolicy.lean ====
section
/-! SUPPORT. What the operations of Machine/KilnPolicy.lean leave alone (Laws/Keep.lean). -/
namespace Sys2Proof.Machine

@[simp] theorem postKiln_frame : ∀ a0 a1 a2 a3 a4 s, frame (postKiln a0 a1 a2 a3 a4 s) = frame s := by
  intros; unfold postKiln; (try dsimp only); (repeat' split) <;> simp

@[simp] theorem postBankRetired_frame : ∀ a0 a1 s, frame (postBankRetired a0 a1 s) = frame s := by
  intros; unfold postBankRetired; simp

@[simp] theorem postBlockRetired_frame : ∀ a0 s, frame (postBlockRetired a0 s) = frame s := by
  intros; unfold postBlockRetired; simp

@[simp] theorem retireLogical_frame : ∀ a0 a1 s, frame (retireLogical a0 a1 s) = frame s := by
  intros; unfold retireLogical; simp

@[simp] theorem holdBy_frame : ∀ a0 a1 s, frame (holdBy a0 a1 s) = frame s := by
  intros; unfold holdBy; simp

@[simp] theorem lastingLogical_frame : ∀ a0 a1 a2 s, frame (lastingLogical a0 a1 a2 s) = frame s := by
  intros; unfold lastingLogical; simp

@[simp] theorem loseEngine_frame : ∀ a0 s, frame (loseEngine a0 s) = frame s := by
  intros; unfold loseEngine; (try dsimp only); repeat' (first | assumption | (simp; done) | (refine (frame_foldl _ _ (fun s a => ?_) _).trans ?_) | (refine (frame_admitThen _ _ _ _ _ (fun s => ?_)).trans ?_) | (refine (frame_completeStored _ _ _ (fun s => ?_)).trans ?_) | (refine (frame_pealRx _ _ _ _ _ (fun s => ?_)).trans ?_) | split | simp)

@[simp] theorem retireEffect_frame : ∀ a0 s, frame (retireEffect a0 s) = frame s := by
  intros; unfold retireEffect; (try dsimp only); repeat' (first | assumption | (simp; done) | (refine (frame_foldl _ _ (fun s a => ?_) _).trans ?_) | (refine (frame_admitThen _ _ _ _ _ (fun s => ?_)).trans ?_) | (refine (frame_completeStored _ _ _ (fun s => ?_)).trans ?_) | (refine (frame_pealRx _ _ _ _ _ (fun s => ?_)).trans ?_) | split | simp)

@[simp] theorem retireBlock_frame : ∀ a0 s, frame (retireBlock a0 s) = frame s := by
  intros; unfold retireBlock; simp

@[simp] theorem lastingBlock_frame : ∀ a0 a1 s, frame (lastingBlock a0 a1 s) = frame s := by
  intros; unfold lastingBlock; simp

@[simp] theorem mendBank_frame : ∀ a0 a1 a2 s, frame (mendBank a0 a1 a2 s) = frame s := by
  intros; unfold mendBank; simp

@[simp] theorem bankError_frame : ∀ a0 a1 a2 s, frame (bankError a0 a1 a2 s) = frame s := by
  intros; unfold bankError; (try dsimp only); (repeat' split) <;> simp

end Sys2Proof.Machine
end

