-- ==== Sys2Proof/Laws/KeepPipe2.lean ====
section
/-! SUPPORT. What the operations of Machine/Pipe2.lean leave alone (Laws/Keep.lean). -/
namespace Sys2Proof.Machine

theorem frame_admitThen (p b n go s) (h : ∀ s, frame (go s) = frame s) : frame (admitThen p b n go s) = frame s := by
  unfold admitThen; split <;> simp [h]

@[simp] theorem faultDrop_frame : ∀ a0 s, frame (faultDrop a0 s) = frame s := by
  intros; unfold faultDrop; simp

@[simp] theorem anotherPass_frame : ∀ a0 a1 s, frame (anotherPass a0 a1 s) = frame s := by
  intros; unfold anotherPass; simp

@[simp] theorem settle_frame : ∀ a0 s, frame (settle a0 s) = frame s := by
  intros; unfold settle; (try dsimp only); repeat' (first | assumption | (simp; done) | (refine (frame_foldl _ _ (fun s a => ?_) _).trans ?_) | (refine (frame_admitThen _ _ _ _ _ (fun s => ?_)).trans ?_) | (refine (frame_completeStored _ _ _ (fun s => ?_)).trans ?_) | (refine (frame_pealRx _ _ _ _ _ (fun s => ?_)).trans ?_) | split | simp)

@[simp] theorem askEsp_frame : ∀ a0 s, frame (askEsp a0 s) = frame s := by
  intros; unfold askEsp; (try dsimp only); (repeat' split) <;> simp

@[simp] theorem onward_frame : ∀ a0 s, frame (onward a0 s) = frame s := by
  intros; unfold onward; (try dsimp only); repeat' (first | assumption | (simp; done) | (refine (frame_foldl _ _ (fun s a => ?_) _).trans ?_) | (refine (frame_admitThen _ _ _ _ _ (fun s => ?_)).trans ?_) | (refine (frame_completeStored _ _ _ (fun s => ?_)).trans ?_) | (refine (frame_pealRx _ _ _ _ _ (fun s => ?_)).trans ?_) | split | simp)

@[simp] theorem recirculate_frame : ∀ a0 s, frame (recirculate a0 s) = frame s := by
  intros; unfold recirculate; simp

@[simp] theorem carryOut_frame : ∀ a0 s, frame (carryOut a0 s) = frame s := by
  intros; unfold carryOut; simp

@[simp] theorem endPass_frame : ∀ a0 s, frame (endPass a0 s) = frame s := by
  intros; unfold endPass; (try dsimp only); (repeat' split) <;> simp

@[simp] theorem passOver_frame : ∀ a0 s, frame (passOver a0 s) = frame s := by
  intros; unfold passOver; simp

@[simp] theorem rowError_frame : ∀ a0 a1 a2 a3 s, frame (rowError a0 a1 a2 a3 s) = frame s := by
  intros; unfold rowError; simp

@[simp] theorem rowErrors_frame : ∀ a0 a1 a2 s, frame (rowErrors a0 a1 a2 s) = frame s := by
  intro a0 a1 a2 s
  induction a2 generalizing a0 a1 s with
  | nil => unfold rowErrors; (try dsimp only); repeat' (first | assumption | (simp; done) | (refine (frame_foldl _ _ (fun s a => ?_) _).trans ?_) | (refine (frame_admitThen _ _ _ _ _ (fun s => ?_)).trans ?_) | (refine (frame_completeStored _ _ _ (fun s => ?_)).trans ?_) | (refine (frame_pealRx _ _ _ _ _ (fun s => ?_)).trans ?_) | split | simp)
  | cons b l ih => unfold rowErrors; (try dsimp only); repeat' (first | assumption | (simp [ih]; done) | (refine (frame_foldl _ _ (fun s a => ?_) _).trans ?_) | (refine (frame_admitThen _ _ _ _ _ (fun s => ?_)).trans ?_) | (refine (frame_completeStored _ _ _ (fun s => ?_)).trans ?_) | (refine (frame_pealRx _ _ _ _ _ (fun s => ?_)).trans ?_) | split | simp [ih])

@[simp] theorem countIn_frame : ∀ a0 a1 a2 a3 s, frame (countIn a0 a1 a2 a3 s) = frame s := by
  intros; unfold countIn; simp

@[simp] theorem useResult_frame : ∀ a0 a1 a2 a3 a4 a5 a6 s, frame (useResult a0 a1 a2 a3 a4 a5 a6 s) = frame s := by
  intros; unfold useResult; (try dsimp only); (repeat' split) <;> simp

@[simp] theorem lookUnit_frame : ∀ a0 a1 a2 a3 a4 s, frame (lookUnit a0 a1 a2 a3 a4 s) = frame s := by
  intros; unfold lookUnit; (try dsimp only); (repeat' split) <;> simp

@[simp] theorem waitTurn_frame : ∀ a0 s, frame (waitTurn a0 s) = frame s := by
  intros; unfold waitTurn; simp

@[simp] theorem issueHbm_frame : ∀ a0 a1 s, frame (issueHbm a0 a1 s) = frame s := by
  intros; unfold issueHbm; (try dsimp only); repeat' (first | assumption | (simp; done) | (refine (frame_foldl _ _ (fun s a => ?_) _).trans ?_) | (refine (frame_admitThen _ _ _ _ _ (fun s => ?_)).trans ?_) | (refine (frame_completeStored _ _ _ (fun s => ?_)).trans ?_) | (refine (frame_pealRx _ _ _ _ _ (fun s => ?_)).trans ?_) | split | simp)

@[simp] theorem parityPunt_frame : ∀ a0 a1 s, frame (parityPunt a0 a1 s) = frame s := by
  intros; unfold parityPunt; simp

@[simp] theorem runStages_frame : ∀ a0 a1 s, frame (runStages a0 a1 s) = frame s := by
  intro a0 a1 s
  induction a1 generalizing a0 s with
  | zero => unfold runStages; (try dsimp only); repeat' (first | assumption | (simp; done) | (refine (frame_foldl _ _ (fun s a => ?_) _).trans ?_) | (refine (frame_admitThen _ _ _ _ _ (fun s => ?_)).trans ?_) | (refine (frame_completeStored _ _ _ (fun s => ?_)).trans ?_) | (refine (frame_pealRx _ _ _ _ _ (fun s => ?_)).trans ?_) | split | simp)
  | succ n ih => unfold runStages; (try dsimp only); repeat' (first | assumption | (simp [ih]; done) | (refine (frame_foldl _ _ (fun s a => ?_) _).trans ?_) | (refine (frame_admitThen _ _ _ _ _ (fun s => ?_)).trans ?_) | (refine (frame_completeStored _ _ _ (fun s => ?_)).trans ?_) | (refine (frame_pealRx _ _ _ _ _ (fun s => ?_)).trans ?_) | split | simp [ih])

@[simp] theorem goOn_frame : ∀ a0 s, frame (goOn a0 s) = frame s := by
  intros; unfold goOn; simp

@[simp] theorem countSkew_frame : ∀ a0 s, frame (countSkew a0 s) = frame s := by
  intros; unfold countSkew; simp

@[simp] theorem enterStages_frame : ∀ a0 s, frame (enterStages a0 s) = frame s := by
  intros; unfold enterStages; simp

@[simp] theorem parseException_frame : ∀ a0 a1 a2 s, frame (parseException a0 a1 a2 s) = frame s := by
  intros; unfold parseException; simp

@[simp] theorem parseDropExit_frame : ∀ a0 a1 s, frame (parseDropExit a0 a1 s) = frame s := by
  intros; unfold parseDropExit; simp

@[simp] theorem forgetLast_frame : ∀ a0 s, frame (forgetLast a0 s) = frame s := by
  intros; unfold forgetLast; (try dsimp only); (repeat' split) <;> simp

@[simp] theorem parseTop_frame : ∀ a0 s, frame (parseTop a0 s) = frame s := by
  intros; unfold parseTop; simp

@[simp] theorem holdFrag_frame : ∀ a0 s, frame (holdFrag a0 s) = frame s := by
  intros; unfold holdFrag; simp

@[simp] theorem joinEpoch_frame : ∀ a0 a1 s, frame (joinEpoch a0 a1 s) = frame s := by
  intros; unfold joinEpoch; simp

@[simp] theorem meetFate_frame : ∀ a0 a1 a2 s, frame (meetFate a0 a1 a2 s) = frame s := by
  intros; unfold meetFate; simp

@[simp] theorem joinEntry_frame : ∀ a0 a1 s, frame (joinEntry a0 a1 s) = frame s := by
  intros; unfold joinEntry; simp

@[simp] theorem takeFate_frame : ∀ a0 a1 s, frame (takeFate a0 a1 s) = frame s := by
  intros; unfold takeFate; simp

@[simp] theorem fragStep_frame : ∀ a0 a1 s, frame (fragStep a0 a1 s).2 = frame s := by
  intros; unfold fragStep; (try dsimp only); (repeat' split) <;> simp

@[simp] theorem goNext_frame : ∀ a0 a1 a2 s, frame (goNext a0 a1 a2 s) = frame s := by
  intros; unfold goNext; simp

@[simp] theorem visitFragment_frame : ∀ a0 a1 a2 a3 a4 s, frame (visitFragment a0 a1 a2 a3 a4 s) = frame s := by
  intros; unfold visitFragment; (try dsimp only); (repeat' split) <;> simp

@[simp] theorem headerTaken_frame : ∀ a0 a1 a2 a3 a4 a5 s, frame (headerTaken a0 a1 a2 a3 a4 a5 s) = frame s := by
  intros; unfold headerTaken; simp

@[simp] theorem parseVisit_frame : ∀ a0 s, frame (parseVisit a0 s) = frame s := by
  intros; unfold parseVisit; (try dsimp only); repeat' (first | assumption | (simp; done) | (refine (frame_foldl _ _ (fun s a => ?_) _).trans ?_) | (refine (frame_admitThen _ _ _ _ _ (fun s => ?_)).trans ?_) | (refine (frame_completeStored _ _ _ (fun s => ?_)).trans ?_) | (refine (frame_pealRx _ _ _ _ _ (fun s => ?_)).trans ?_) | split | simp)

@[simp] theorem enterParser_frame : ∀ a0 s, frame (enterParser a0 s) = frame s := by
  intros; unfold enterParser; simp

end Sys2Proof.Machine
end

