-- ==== Sys2Proof/Laws/KeepPipeRows.lean ====
section
/-! SUPPORT. What the operations of Machine/PipeRows.lean leave alone (Laws/Keep.lean). -/
namespace Sys2Proof.Machine

theorem keeps_runInstr (op p eff s) (h : ∀ w s, frame (eff w s) = frame s) : Keeps s (runInstr op p eff s) := by
  unfold runInstr; split <;> simp [h]

@[simp] theorem strike_frame : ∀ a0 a1 s, frame (strike a0 a1 s) = frame s := by
  intros; unfold strike; simp

@[simp] theorem strikes_frame : ∀ a0 a1 s, frame (strikes a0 a1 s) = frame s := by
  intro a0 a1 s
  induction a1 generalizing a0 s with
  | nil => unfold strikes; (try dsimp only); repeat' (first | assumption | (simp; done) | (refine (frame_foldl _ _ (fun s a => ?_) _).trans ?_) | (refine (frame_admitThen _ _ _ _ _ (fun s => ?_)).trans ?_) | (refine (frame_completeStored _ _ _ (fun s => ?_)).trans ?_) | (refine (frame_pealRx _ _ _ _ _ (fun s => ?_)).trans ?_) | split | simp)
  | cons b l ih => unfold strikes; (try dsimp only); repeat' (first | assumption | (simp [ih]; done) | (refine (frame_foldl _ _ (fun s a => ?_) _).trans ?_) | (refine (frame_admitThen _ _ _ _ _ (fun s => ?_)).trans ?_) | (refine (frame_completeStored _ _ _ (fun s => ?_)).trans ?_) | (refine (frame_pealRx _ _ _ _ _ (fun s => ?_)).trans ?_) | split | simp [ih])

@[simp] theorem firstPass_frame : ∀ a0 s, frame (firstPass a0 s) = frame s := by
  intros; unfold firstPass; simp

@[simp] theorem laterPass_frame : ∀ a0 s, frame (laterPass a0 s) = frame s := by
  intros; unfold laterPass; (try dsimp only); (repeat' split) <;> simp

@[simp] theorem execPassStart_frame : ∀ a0 a1 s, Keeps s (execPassStart a0 a1 s) := by
  intros; unfold execPassStart; (try dsimp only); (repeat' split) <;> simp

@[simp] theorem execParseNodeVisit_frame : ∀ a0 s, Keeps s (execParseNodeVisit a0 s) := by
  intros; unfold execParseNodeVisit; simp

@[simp] theorem billTo_frame : ∀ a0 a1 s, frame (billTo a0 a1 s) = frame s := by
  intros; unfold billTo; (try dsimp only); (repeat' split) <;> simp

@[simp] theorem completeCut_frame : ∀ a0 s, frame (completeCut a0 s) = frame s := by
  intros; unfold completeCut; (try dsimp only); (repeat' split) <;> simp

@[simp] theorem expel_frame : ∀ a0 s, frame (expel a0 s) = frame s := by
  intros; unfold expel; (try dsimp only); (repeat' split) <;> simp

@[simp] theorem stomp_frame : ∀ a0 s, frame (stomp a0 s) = frame s := by
  intros; unfold stomp; (try dsimp only); (repeat' split) <;> simp

@[simp] theorem claimFails_frame : ∀ a0 a1 s, frame (claimFails a0 a1 s) = frame s := by
  intros; unfold claimFails; simp

@[simp] theorem storeToLane_frame : ∀ a0 a1 s, frame (storeToLane a0 a1 s) = frame s := by
  intros; unfold storeToLane; (try dsimp only); repeat' (first | assumption | (simp; done) | (refine (frame_foldl _ _ (fun s a => ?_) _).trans ?_) | (refine (frame_admitThen _ _ _ _ _ (fun s => ?_)).trans ?_) | (refine (frame_completeStored _ _ _ (fun s => ?_)).trans ?_) | (refine (frame_pealRx _ _ _ _ _ (fun s => ?_)).trans ?_) | split | simp)

theorem frame_completeStored (p go s) (h : ∀ s, frame (go s) = frame s) : frame (completeStored p go s) = frame s := by
  unfold completeStored; repeat' split
  all_goals simp [h]

@[simp] theorem carryVerdict_frame : ∀ a0 s, frame (carryVerdict a0 s) = frame s := by
  intros; unfold carryVerdict; (try dsimp only); repeat' (first | assumption | (simp; done) | (refine (frame_foldl _ _ (fun s a => ?_) _).trans ?_) | (refine (frame_admitThen _ _ _ _ _ (fun s => ?_)).trans ?_) | (refine (frame_completeStored _ _ _ (fun s => ?_)).trans ?_) | (refine (frame_pealRx _ _ _ _ _ (fun s => ?_)).trans ?_) | split | simp)

@[simp] theorem execFrameEndClaimTest_frame : ∀ a0 s, Keeps s (execFrameEndClaimTest a0 s) := by
  intros; unfold execFrameEndClaimTest; (try dsimp only); (repeat' split) <;> simp

@[simp] theorem execHbmLookupResult_frame : ∀ a0 a1 s, Keeps s (execHbmLookupResult a0 a1 s) := by
  intros; unfold execHbmLookupResult; simp

@[simp] theorem onPkt_frame : ∀ a0 a1 a2 s, frame (onPkt a0 a1 a2 s) = frame s := by
  intros; unfold onPkt; simp

@[simp] theorem actFault_frame : ∀ a0 s, frame (actFault a0 s) = frame s := by
  intros; unfold actFault; simp

@[simp] theorem execNop_frame : ∀ a0 s, Keeps s (execNop a0 s) := by
  intros; refine keeps_runInstr _ _ _ _ (fun w s => ?_) <;> (try dsimp only); repeat' (first | assumption | (simp; done) | (refine (frame_foldl _ _ (fun s a => ?_) _).trans ?_) | (refine (frame_admitThen _ _ _ _ _ (fun s => ?_)).trans ?_) | (refine (frame_completeStored _ _ _ (fun s => ?_)).trans ?_) | (refine (frame_pealRx _ _ _ _ _ (fun s => ?_)).trans ?_) | split | simp)

@[simp] theorem execSet_frame : ∀ a0 s, Keeps s (execSet a0 s) := by
  intros; refine keeps_runInstr _ _ _ _ (fun w s => ?_) <;> (try dsimp only); repeat' (first | assumption | (simp; done) | (refine (frame_foldl _ _ (fun s a => ?_) _).trans ?_) | (refine (frame_admitThen _ _ _ _ _ (fun s => ?_)).trans ?_) | (refine (frame_completeStored _ _ _ (fun s => ?_)).trans ?_) | (refine (frame_pealRx _ _ _ _ _ (fun s => ?_)).trans ?_) | split | simp)

@[simp] theorem execCopy_frame : ∀ a0 s, Keeps s (execCopy a0 s) := by
  intros; refine keeps_runInstr _ _ _ _ (fun w s => ?_) <;> (try dsimp only); repeat' (first | assumption | (simp; done) | (refine (frame_foldl _ _ (fun s a => ?_) _).trans ?_) | (refine (frame_admitThen _ _ _ _ _ (fun s => ?_)).trans ?_) | (refine (frame_completeStored _ _ _ (fun s => ?_)).trans ?_) | (refine (frame_pealRx _ _ _ _ _ (fun s => ?_)).trans ?_) | split | simp)

@[simp] theorem execData_frame : ∀ a0 s, Keeps s (execData a0 s) := by
  intros; refine keeps_runInstr _ _ _ _ (fun w s => ?_) <;> (try dsimp only); repeat' (first | assumption | (simp; done) | (refine (frame_foldl _ _ (fun s a => ?_) _).trans ?_) | (refine (frame_admitThen _ _ _ _ _ (fun s => ?_)).trans ?_) | (refine (frame_completeStored _ _ _ (fun s => ?_)).trans ?_) | (refine (frame_pealRx _ _ _ _ _ (fun s => ?_)).trans ?_) | split | simp)

@[simp] theorem execAdd_frame : ∀ a0 s, Keeps s (execAdd a0 s) := by
  intros; refine keeps_runInstr _ _ _ _ (fun w s => ?_) <;> (try dsimp only); repeat' (first | assumption | (simp; done) | (refine (frame_foldl _ _ (fun s a => ?_) _).trans ?_) | (refine (frame_admitThen _ _ _ _ _ (fun s => ?_)).trans ?_) | (refine (frame_completeStored _ _ _ (fun s => ?_)).trans ?_) | (refine (frame_pealRx _ _ _ _ _ (fun s => ?_)).trans ?_) | split | simp)

@[simp] theorem execAnd_frame : ∀ a0 s, Keeps s (execAnd a0 s) := by
  intros; refine keeps_runInstr _ _ _ _ (fun w s => ?_) <;> (try dsimp only); repeat' (first | assumption | (simp; done) | (refine (frame_foldl _ _ (fun s a => ?_) _).trans ?_) | (refine (frame_admitThen _ _ _ _ _ (fun s => ?_)).trans ?_) | (refine (frame_completeStored _ _ _ (fun s => ?_)).trans ?_) | (refine (frame_pealRx _ _ _ _ _ (fun s => ?_)).trans ?_) | split | simp)

@[simp] theorem execOr_frame : ∀ a0 s, Keeps s (execOr a0 s) := by
  intros; refine keeps_runInstr _ _ _ _ (fun w s => ?_) <;> (try dsimp only); repeat' (first | assumption | (simp; done) | (refine (frame_foldl _ _ (fun s a => ?_) _).trans ?_) | (refine (frame_admitThen _ _ _ _ _ (fun s => ?_)).trans ?_) | (refine (frame_completeStored _ _ _ (fun s => ?_)).trans ?_) | (refine (frame_pealRx _ _ _ _ _ (fun s => ?_)).trans ?_) | split | simp)

@[simp] theorem execXor_frame : ∀ a0 s, Keeps s (execXor a0 s) := by
  intros; refine keeps_runInstr _ _ _ _ (fun w s => ?_) <;> (try dsimp only); repeat' (first | assumption | (simp; done) | (refine (frame_foldl _ _ (fun s a => ?_) _).trans ?_) | (refine (frame_admitThen _ _ _ _ _ (fun s => ?_)).trans ?_) | (refine (frame_completeStored _ _ _ (fun s => ?_)).trans ?_) | (refine (frame_pealRx _ _ _ _ _ (fun s => ?_)).trans ?_) | split | simp)

@[simp] theorem execSetif_frame : ∀ a0 s, Keeps s (execSetif a0 s) := by
  intros; refine keeps_runInstr _ _ _ _ (fun w s => ?_) <;> (try dsimp only); repeat' (first | assumption | (simp; done) | (refine (frame_foldl _ _ (fun s a => ?_) _).trans ?_) | (refine (frame_admitThen _ _ _ _ _ (fun s => ?_)).trans ?_) | (refine (frame_completeStored _ _ _ (fun s => ?_)).trans ?_) | (refine (frame_pealRx _ _ _ _ _ (fun s => ?_)).trans ?_) | split | simp)

@[simp] theorem execCount_frame : ∀ a0 s, Keeps s (execCount a0 s) := by
  intros; refine keeps_runInstr _ _ _ _ (fun w s => ?_) <;> (try dsimp only); repeat' (first | assumption | (simp; done) | (refine (frame_foldl _ _ (fun s a => ?_) _).trans ?_) | (refine (frame_admitThen _ _ _ _ _ (fun s => ?_)).trans ?_) | (refine (frame_completeStored _ _ _ (fun s => ?_)).trans ?_) | (refine (frame_pealRx _ _ _ _ _ (fun s => ?_)).trans ?_) | split | simp)

@[simp] theorem execMeter_frame : ∀ a0 s, Keeps s (execMeter a0 s) := by
  intros; unfold execMeter; split
  · simp
  · refine keeps_runInstr _ _ _ _ (fun w s => ?_) <;> (try dsimp only); repeat' (first | assumption | (simp; done) | (refine (frame_foldl _ _ (fun s a => ?_) _).trans ?_) | (refine (frame_admitThen _ _ _ _ _ (fun s => ?_)).trans ?_) | (refine (frame_completeStored _ _ _ (fun s => ?_)).trans ?_) | (refine (frame_pealRx _ _ _ _ _ (fun s => ?_)).trans ?_) | split | simp)

@[simp] theorem execInval_frame : ∀ a0 s, Keeps s (execInval a0 s) := by
  intros; refine keeps_runInstr _ _ _ _ (fun w s => ?_) <;> (try dsimp only); repeat' (first | assumption | (simp; done) | (refine (frame_foldl _ _ (fun s a => ?_) _).trans ?_) | (refine (frame_admitThen _ _ _ _ _ (fun s => ?_)).trans ?_) | (refine (frame_completeStored _ _ _ (fun s => ?_)).trans ?_) | (refine (frame_pealRx _ _ _ _ _ (fun s => ?_)).trans ?_) | split | simp)

@[simp] theorem execEncap_frame : ∀ a0 s, Keeps s (execEncap a0 s) := by
  intros; refine keeps_runInstr _ _ _ _ (fun w s => ?_) <;> (try dsimp only); repeat' (first | assumption | (simp; done) | (refine (frame_foldl _ _ (fun s a => ?_) _).trans ?_) | (refine (frame_admitThen _ _ _ _ _ (fun s => ?_)).trans ?_) | (refine (frame_completeStored _ _ _ (fun s => ?_)).trans ?_) | (refine (frame_pealRx _ _ _ _ _ (fun s => ?_)).trans ?_) | split | simp)

@[simp] theorem execDecap_frame : ∀ a0 s, Keeps s (execDecap a0 s) := by
  intros; refine keeps_runInstr _ _ _ _ (fun w s => ?_) <;> (try dsimp only); repeat' (first | assumption | (simp; done) | (refine (frame_foldl _ _ (fun s a => ?_) _).trans ?_) | (refine (frame_admitThen _ _ _ _ _ (fun s => ?_)).trans ?_) | (refine (frame_completeStored _ _ _ (fun s => ?_)).trans ?_) | (refine (frame_pealRx _ _ _ _ _ (fun s => ?_)).trans ?_) | split | simp)

@[simp] theorem execWrite_frame : ∀ a0 s, Keeps s (execWrite a0 s) := by
  intros; refine keeps_runInstr _ _ _ _ (fun w s => ?_) <;> (try dsimp only); repeat' (first | assumption | (simp; done) | (refine (frame_foldl _ _ (fun s a => ?_) _).trans ?_) | (refine (frame_admitThen _ _ _ _ _ (fun s => ?_)).trans ?_) | (refine (frame_completeStored _ _ _ (fun s => ?_)).trans ?_) | (refine (frame_pealRx _ _ _ _ _ (fun s => ?_)).trans ?_) | split | simp)

@[simp] theorem execMplsPush_frame : ∀ a0 s, Keeps s (execMplsPush a0 s) := by
  intros; refine keeps_runInstr _ _ _ _ (fun w s => ?_) <;> (try dsimp only); repeat' (first | assumption | (simp; done) | (refine (frame_foldl _ _ (fun s a => ?_) _).trans ?_) | (refine (frame_admitThen _ _ _ _ _ (fun s => ?_)).trans ?_) | (refine (frame_completeStored _ _ _ (fun s => ?_)).trans ?_) | (refine (frame_pealRx _ _ _ _ _ (fun s => ?_)).trans ?_) | split | simp)

@[simp] theorem execL4adj_frame : ∀ a0 s, Keeps s (execL4adj a0 s) := by
  intros; refine keeps_runInstr _ _ _ _ (fun w s => ?_) <;> (try dsimp only); repeat' (first | assumption | (simp; done) | (refine (frame_foldl _ _ (fun s a => ?_) _).trans ?_) | (refine (frame_admitThen _ _ _ _ _ (fun s => ?_)).trans ?_) | (refine (frame_completeStored _ _ _ (fun s => ?_)).trans ?_) | (refine (frame_pealRx _ _ _ _ _ (fun s => ?_)).trans ?_) | split | simp)

@[simp] theorem execLearn_frame : ∀ a0 s, Keeps s (execLearn a0 s) := by
  intros; refine keeps_runInstr _ _ _ _ (fun w s => ?_) <;> (try dsimp only); repeat' (first | assumption | (simp; done) | (refine (frame_foldl _ _ (fun s a => ?_) _).trans ?_) | (refine (frame_admitThen _ _ _ _ _ (fun s => ?_)).trans ?_) | (refine (frame_completeStored _ _ _ (fun s => ?_)).trans ?_) | (refine (frame_pealRx _ _ _ _ _ (fun s => ?_)).trans ?_) | split | simp)

@[simp] theorem execFragrec_frame : ∀ a0 s, Keeps s (execFragrec a0 s) := by
  intros; refine keeps_runInstr _ _ _ _ (fun w s => ?_) <;> (try dsimp only); repeat' (first | assumption | (simp; done) | (refine (frame_foldl _ _ (fun s a => ?_) _).trans ?_) | (refine (frame_admitThen _ _ _ _ _ (fun s => ?_)).trans ?_) | (refine (frame_completeStored _ _ _ (fun s => ?_)).trans ?_) | (refine (frame_pealRx _ _ _ _ _ (fun s => ?_)).trans ?_) | split | simp)

@[simp] theorem execRecirc_frame : ∀ a0 s, Keeps s (execRecirc a0 s) := by
  intros; refine keeps_runInstr _ _ _ _ (fun w s => ?_) <;> (try dsimp only); repeat' (first | assumption | (simp; done) | (refine (frame_foldl _ _ (fun s a => ?_) _).trans ?_) | (refine (frame_admitThen _ _ _ _ _ (fun s => ?_)).trans ?_) | (refine (frame_completeStored _ _ _ (fun s => ?_)).trans ?_) | (refine (frame_pealRx _ _ _ _ _ (fun s => ?_)).trans ?_) | split | simp)

@[simp] theorem execPunt_frame : ∀ a0 s, Keeps s (execPunt a0 s) := by
  intros; refine keeps_runInstr _ _ _ _ (fun w s => ?_) <;> (try dsimp only); repeat' (first | assumption | (simp; done) | (refine (frame_foldl _ _ (fun s a => ?_) _).trans ?_) | (refine (frame_admitThen _ _ _ _ _ (fun s => ?_)).trans ?_) | (refine (frame_completeStored _ _ _ (fun s => ?_)).trans ?_) | (refine (frame_pealRx _ _ _ _ _ (fun s => ?_)).trans ?_) | split | simp)

@[simp] theorem execDrop_frame : ∀ a0 s, Keeps s (execDrop a0 s) := by
  intros; refine keeps_runInstr _ _ _ _ (fun w s => ?_) <;> (try dsimp only); repeat' (first | assumption | (simp; done) | (refine (frame_foldl _ _ (fun s a => ?_) _).trans ?_) | (refine (frame_admitThen _ _ _ _ _ (fun s => ?_)).trans ?_) | (refine (frame_completeStored _ _ _ (fun s => ?_)).trans ?_) | (refine (frame_pealRx _ _ _ _ _ (fun s => ?_)).trans ?_) | split | simp)

@[simp] theorem unhold_frame : ∀ a0 s, frame (unhold a0 s) = frame s := by
  intros; unfold unhold; simp

@[simp] theorem releaseHeld_frame : ∀ a0 a1 s, frame (releaseHeld a0 a1 s) = frame s := by
  intro a0 a1 s
  induction a1 generalizing a0 s with
  | nil => unfold releaseHeld; (try dsimp only); repeat' (first | assumption | (simp; done) | (refine (frame_foldl _ _ (fun s a => ?_) _).trans ?_) | (refine (frame_admitThen _ _ _ _ _ (fun s => ?_)).trans ?_) | (refine (frame_completeStored _ _ _ (fun s => ?_)).trans ?_) | (refine (frame_pealRx _ _ _ _ _ (fun s => ?_)).trans ?_) | split | simp)
  | cons b l ih => unfold releaseHeld; (try dsimp only); repeat' (first | assumption | (simp [ih]; done) | (refine (frame_foldl _ _ (fun s a => ?_) _).trans ?_) | (refine (frame_admitThen _ _ _ _ _ (fun s => ?_)).trans ?_) | (refine (frame_completeStored _ _ _ (fun s => ?_)).trans ?_) | (refine (frame_pealRx _ _ _ _ _ (fun s => ?_)).trans ?_) | split | simp [ih])

@[simp] theorem execFragmentDecided_frame : ∀ a0 s, Keeps s (execFragmentDecided a0 s) := by
  intros; unfold execFragmentDecided; simp

@[simp] theorem execFragmentHoldExpiry_frame : ∀ a0 s, Keeps s (execFragmentHoldExpiry a0 s) := by
  intros; unfold execFragmentHoldExpiry; simp

@[simp] theorem execFragmentLifetimeExpiry_frame : ∀ a0 s, Keeps s (execFragmentLifetimeExpiry a0 s) := by
  intros; unfold execFragmentLifetimeExpiry; simp

@[simp] theorem postLearn_frame : ∀ a0 a1 a2 s, frame (postLearn a0 a1 a2 s) = frame s := by
  intros; unfold postLearn; simp

@[simp] theorem learnStep_frame : ∀ a0 a1 s, frame (learnStep a0 a1 s) = frame s := by
  intros; unfold learnStep; (try dsimp only); repeat' (first | assumption | (simp; done) | (refine (frame_foldl _ _ (fun s a => ?_) _).trans ?_) | (refine (frame_admitThen _ _ _ _ _ (fun s => ?_)).trans ?_) | (refine (frame_completeStored _ _ _ (fun s => ?_)).trans ?_) | (refine (frame_pealRx _ _ _ _ _ (fun s => ?_)).trans ?_) | split | simp)

@[simp] theorem execLearnReport_frame : ∀ a0 s, Keeps s (execLearnReport a0 s) := by
  intros; unfold execLearnReport; (try dsimp only); (repeat' split) <;> simp

@[simp] theorem execAgeScanVisit_frame : ∀ a0 a1 a2 a3 s, Keeps s (execAgeScanVisit a0 a1 a2 a3 s) := by
  intros; unfold execAgeScanVisit; (try dsimp only); (repeat' split) <;> simp

end Sys2Proof.Machine
end

