-- ==== Sys2Proof/Laws/KeepLaneRows.lean ====
section
/-! SUPPORT. What the operations of Machine/LaneRows.lean leave alone (Laws/Keep.lean). -/
namespace Sys2Proof.Machine

@[simp] theorem openFrame_frame : ∀ a0 a1 a2 a3 s, frame (openFrame a0 a1 a2 a3 s) = frame s := by
  intros; unfold openFrame; simp

@[simp] theorem chargeCut_frame : ∀ a0 a1 s, frame (chargeCut a0 a1 s) = frame s := by
  intros; unfold chargeCut; simp

@[simp] theorem growFrame_frame : ∀ a0 a1 s, frame (growFrame a0 a1 s) = frame s := by
  intros; unfold growFrame; simp

@[simp] theorem faultFrame_frame : ∀ a0 s, frame (faultFrame a0 s) = frame s := by
  intros; unfold faultFrame; simp

@[simp] theorem takePause_frame : ∀ a0 s, frame (takePause a0 s) = frame s := by
  intros; unfold takePause; simp

@[simp] theorem takePfc_frame : ∀ a0 a1 a2 s, frame (takePfc a0 a1 a2 s) = frame s := by
  intros; unfold takePfc; simp

@[simp] theorem takeControl_frame : ∀ a0 a1 a2 s, frame (takeControl a0 a1 a2 s) = frame s := by
  intros; unfold takeControl; simp

@[simp] theorem takeWhole_frame : ∀ a0 a1 a2 a3 s, frame (takeWhole a0 a1 a2 a3 s) = frame s := by
  intros; unfold takeWhole; simp

@[simp] theorem setFi_frame : ∀ a0 a1 s, frame (setFi a0 a1 s) = frame s := by
  intros; unfold setFi; simp

@[simp] theorem fiDraw_frame : ∀ a0 s, frame (fiDraw a0 s).2 = frame s := by
  intros; unfold fiDraw; (try dsimp only); (repeat' split) <;> simp

@[simp] theorem fiRelease_frame : ∀ a0 s, frame (fiRelease a0 s) = frame s := by
  intros; unfold fiRelease; (try dsimp only); (repeat' split) <;> simp

@[simp] theorem fiEnd_frame : ∀ a0 s, frame (fiEnd a0 s) = frame s := by
  intros; unfold fiEnd; simp

@[simp] theorem endAllInjection_frame : ∀ s, frame (endAllInjection s) = frame s := by
  intros; unfold endAllInjection; (try dsimp only); repeat' (first | assumption | (simp; done) | (refine (frame_foldl _ _ (fun s a => ?_) _).trans ?_) | (refine (frame_admitThen _ _ _ _ _ (fun s => ?_)).trans ?_) | (refine (frame_completeStored _ _ _ (fun s => ?_)).trans ?_) | (refine (frame_pealRx _ _ _ _ _ (fun s => ?_)).trans ?_) | split | simp)

@[simp] theorem fiHold_frame : ∀ a0 a1 a2 a3 s, frame (fiHold a0 a1 a2 a3 s) = frame s := by
  intros; unfold fiHold; simp

@[simp] theorem macReceive_frame : ∀ a0 a1 a2 a3 a4 s, frame (macReceive a0 a1 a2 a3 a4 s) = frame s := by
  intros; unfold macReceive; (try dsimp only); (repeat' split) <;> simp

@[simp] theorem execLaneFrameReceived_frame : ∀ a0 a1 a2 a3 a4 a5 a6 s, Keeps s (execLaneFrameReceived a0 a1 a2 a3 a4 a5 a6 s) := by
  intros; unfold execLaneFrameReceived; (try dsimp only); repeat' (first | assumption | (simp; done) | (refine (frame_foldl _ _ (fun s a => ?_) _).trans ?_) | (refine (frame_admitThen _ _ _ _ _ (fun s => ?_)).trans ?_) | (refine (frame_completeStored _ _ _ (fun s => ?_)).trans ?_) | (refine (frame_pealRx _ _ _ _ _ (fun s => ?_)).trans ?_) | split | simp)

@[simp] theorem execPauseFrameReceived_frame : ∀ a0 s, Keeps s (execPauseFrameReceived a0 s) := by
  intros; unfold execPauseFrameReceived; simp

@[simp] theorem execPfcFrameReceived_frame : ∀ a0 a1 a2 s, Keeps s (execPfcFrameReceived a0 a1 a2 s) := by
  intros; unfold execPfcFrameReceived; simp

@[simp] theorem execPfcPauseExpiry_frame : ∀ a0 a1 s, Keeps s (execPfcPauseExpiry a0 a1 s) := by
  intros; unfold execPfcPauseExpiry; simp

@[simp] theorem execPfcXoffRepeat_frame : ∀ a0 a1 s, Keeps s (execPfcXoffRepeat a0 a1 s) := by
  intros; unfold execPfcXoffRepeat; simp

@[simp] theorem sprayTries_frame : ∀ a0 a1 a2 a3 s, frame (sprayTries a0 a1 a2 a3 s).2 = frame s := by
  intro a0 a1 a2 a3 s
  induction a3 generalizing a0 a1 a2 s with
  | zero => unfold sprayTries; (try dsimp only); repeat' (first | assumption | (simp; done) | (refine (frame_foldl _ _ (fun s a => ?_) _).trans ?_) | (refine (frame_admitThen _ _ _ _ _ (fun s => ?_)).trans ?_) | (refine (frame_completeStored _ _ _ (fun s => ?_)).trans ?_) | (refine (frame_pealRx _ _ _ _ _ (fun s => ?_)).trans ?_) | split | simp)
  | succ n ih => unfold sprayTries; (try dsimp only); repeat' (first | assumption | (simp [ih]; done) | (refine (frame_foldl _ _ (fun s a => ?_) _).trans ?_) | (refine (frame_admitThen _ _ _ _ _ (fun s => ?_)).trans ?_) | (refine (frame_completeStored _ _ _ (fun s => ?_)).trans ?_) | (refine (frame_pealRx _ _ _ _ _ (fun s => ?_)).trans ?_) | split | simp [ih])

@[simp] theorem execSpray_frame : ∀ a0 s, Keeps s (execSpray a0 s) := by
  intro a0 s
  unfold execSpray
  dsimp only
  split
  · simp
  · split
    · rename_i h
      have := congrArg (fun r => frame r.2) h
      simp only [sprayTries_frame] at this
      simp [this]
    · rename_i h
      have := congrArg (fun r => frame r.2) h
      simp only [sprayTries_frame] at this
      repeat' split
      all_goals simp [this]

@[simp] theorem execCutThroughThreshold_frame : ∀ a0 s, Keeps s (execCutThroughThreshold a0 s) := by
  intros; unfold execCutThroughThreshold; (try dsimp only); repeat' (first | assumption | (simp; done) | (refine (frame_foldl _ _ (fun s a => ?_) _).trans ?_) | (refine (frame_admitThen _ _ _ _ _ (fun s => ?_)).trans ?_) | (refine (frame_completeStored _ _ _ (fun s => ?_)).trans ?_) | (refine (frame_pealRx _ _ _ _ _ (fun s => ?_)).trans ?_) | split | simp)

@[simp] theorem takeStamp_frame : ∀ a0 a1 a2 s, frame (takeStamp a0 a1 a2 s) = frame s := by
  intros; unfold takeStamp; (try dsimp only); (repeat' split) <;> simp

@[simp] theorem sendMark_frame : ∀ a0 a1 s, frame (sendMark a0 a1 s) = frame s := by
  intros; unfold sendMark; (try dsimp only); (repeat' split) <;> simp

@[simp] theorem execLaneFrameBegin_frame : ∀ a0 a1 s, Keeps s (execLaneFrameBegin a0 a1 s) := by
  intros; unfold execLaneFrameBegin; (try dsimp only); (repeat' split) <;> simp

@[simp] theorem execLaneFrameEnd_frame : ∀ a0 s, Keeps s (execLaneFrameEnd a0 s) := by
  intros; unfold execLaneFrameEnd; (try dsimp only); (repeat' split) <;> simp

@[simp] theorem execLaunchTimeReached_frame : ∀ a0 a1 s, Keeps s (execLaunchTimeReached a0 a1 s) := by
  intros; unfold execLaunchTimeReached; (try dsimp only); (repeat' split) <;> simp

@[simp] theorem execLaneGoesDown_frame : ∀ a0 a1 s, Keeps s (execLaneGoesDown a0 a1 s) := by
  intros; unfold execLaneGoesDown; simp

@[simp] theorem execLaneLockHeld_frame : ∀ a0 s, Keeps s (execLaneLockHeld a0 s) := by
  intros; unfold execLaneLockHeld; simp

@[simp] theorem execChimeHeard_frame : ∀ a0 s, Keeps s (execChimeHeard a0 s) := by
  intros; unfold execChimeHeard; (try dsimp only); (repeat' split) <;> simp

@[simp] theorem execLaneWakeTimeout_frame : ∀ a0 s, Keeps s (execLaneWakeTimeout a0 s) := by
  intros; unfold execLaneWakeTimeout; (try dsimp only); (repeat' split) <;> simp

@[simp] theorem execLanePark_frame : ∀ a0 s, Keeps s (execLanePark a0 s) := by
  intros; refine Keeps.of (frame_runCmd _ _ _ _ _ _ _ _ _ (fun c s => ?_) (fun c s => ?_)) <;> beta_reduce <;> (try dsimp only); repeat' (first | assumption | (simp; done) | (refine (frame_foldl _ _ (fun s a => ?_) _).trans ?_) | (refine (frame_admitThen _ _ _ _ _ (fun s => ?_)).trans ?_) | (refine (frame_completeStored _ _ _ (fun s => ?_)).trans ?_) | (refine (frame_pealRx _ _ _ _ _ (fun s => ?_)).trans ?_) | split | simp)

@[simp] theorem execLaneWake_frame : ∀ a0 s, Keeps s (execLaneWake a0 s) := by
  intros; refine Keeps.of (frame_runCmd _ _ _ _ _ _ _ _ _ (fun c s => ?_) (fun c s => ?_)) <;> beta_reduce <;> (try dsimp only); repeat' (first | assumption | (simp; done) | (refine (frame_foldl _ _ (fun s a => ?_) _).trans ?_) | (refine (frame_admitThen _ _ _ _ _ (fun s => ?_)).trans ?_) | (refine (frame_completeStored _ _ _ (fun s => ?_)).trans ?_) | (refine (frame_pealRx _ _ _ _ _ (fun s => ?_)).trans ?_) | split | simp)

@[simp] theorem execSubstStatus_frame : ∀ a0 s, Keeps s (execSubstStatus a0 s) := by
  intros; refine Keeps.of (frame_runCmd _ _ _ _ _ _ _ _ _ (fun c s => ?_) (fun c s => ?_)) <;> beta_reduce <;> (try dsimp only); repeat' (first | assumption | (simp; done) | (refine (frame_foldl _ _ (fun s a => ?_) _).trans ?_) | (refine (frame_admitThen _ _ _ _ _ (fun s => ?_)).trans ?_) | (refine (frame_completeStored _ _ _ (fun s => ?_)).trans ?_) | (refine (frame_pealRx _ _ _ _ _ (fun s => ?_)).trans ?_) | split | simp)

@[simp] theorem laneRecords_frame : ∀ a0 a1 a2 a3 s, frame (laneRecords a0 a1 a2 a3 s) = frame s := by
  intro a0 a1 a2 a3 s
  induction a3 generalizing a0 a1 a2 s with
  | zero => unfold laneRecords; (try dsimp only); repeat' (first | assumption | (simp; done) | (refine (frame_foldl _ _ (fun s a => ?_) _).trans ?_) | (refine (frame_admitThen _ _ _ _ _ (fun s => ?_)).trans ?_) | (refine (frame_completeStored _ _ _ (fun s => ?_)).trans ?_) | (refine (frame_pealRx _ _ _ _ _ (fun s => ?_)).trans ?_) | split | simp)
  | succ n ih => unfold laneRecords; (try dsimp only); repeat' (first | assumption | (simp [ih]; done) | (refine (frame_foldl _ _ (fun s a => ?_) _).trans ?_) | (refine (frame_admitThen _ _ _ _ _ (fun s => ?_)).trans ?_) | (refine (frame_completeStored _ _ _ (fun s => ?_)).trans ?_) | (refine (frame_pealRx _ _ _ _ _ (fun s => ?_)).trans ?_) | split | simp [ih])

@[simp] theorem execLaneStatus_frame : ∀ a0 s, Keeps s (execLaneStatus a0 s) := by
  intros; refine Keeps.of (frame_runCmd _ _ _ _ _ _ _ _ _ (fun c s => ?_) (fun c s => ?_)) <;> beta_reduce <;> (try dsimp only); repeat' (first | assumption | (simp; done) | (refine (frame_foldl _ _ (fun s a => ?_) _).trans ?_) | (refine (frame_admitThen _ _ _ _ _ (fun s => ?_)).trans ?_) | (refine (frame_completeStored _ _ _ (fun s => ?_)).trans ?_) | (refine (frame_pealRx _ _ _ _ _ (fun s => ?_)).trans ?_) | split | simp)

@[simp] theorem setCtx_frame : ∀ a0 a1 s, frame (setCtx a0 a1 s) = frame s := by
  intros; unfold setCtx; simp

@[simp] theorem releaseFrame_frame : ∀ a0 s, frame (releaseFrame a0 s) = frame s := by
  intros; unfold releaseFrame; simp

@[simp] theorem releaseAll_frame : ∀ a0 s, frame (releaseAll a0 s) = frame s := by
  intro a0 s
  induction a0 generalizing s with
  | nil => unfold releaseAll; (try dsimp only); repeat' (first | assumption | (simp; done) | (refine (frame_foldl _ _ (fun s a => ?_) _).trans ?_) | (refine (frame_admitThen _ _ _ _ _ (fun s => ?_)).trans ?_) | (refine (frame_completeStored _ _ _ (fun s => ?_)).trans ?_) | (refine (frame_pealRx _ _ _ _ _ (fun s => ?_)).trans ?_) | split | simp)
  | cons b l ih => unfold releaseAll; (try dsimp only); repeat' (first | assumption | (simp [ih]; done) | (refine (frame_foldl _ _ (fun s a => ?_) _).trans ?_) | (refine (frame_admitThen _ _ _ _ _ (fun s => ?_)).trans ?_) | (refine (frame_completeStored _ _ _ (fun s => ?_)).trans ?_) | (refine (frame_pealRx _ _ _ _ _ (fun s => ?_)).trans ?_) | split | simp [ih])

@[simp] theorem postGap_frame : ∀ a0 s, frame (postGap a0 s) = frame s := by
  intros; unfold postGap; simp

@[simp] theorem addGaps_frame : ∀ a0 a1 s, frame (addGaps a0 a1 s) = frame s := by
  intros; unfold addGaps; simp

@[simp] theorem flushCtx_frame : ∀ a0 s, frame (flushCtx a0 s) = frame s := by
  intros; unfold flushCtx; simp

@[simp] theorem holdIn_frame : ∀ a0 a1 a2 a3 s, frame (holdIn a0 a1 a2 a3 s) = frame s := by
  intros; unfold holdIn; simp

@[simp] theorem placeFrame_frame : ∀ a0 a1 a2 a3 a4 s, frame (placeFrame a0 a1 a2 a3 a4 s) = frame s := by
  intro a0 a1 a2 a3 a4 s
  induction a4 generalizing a0 a1 a2 a3 s with
  | zero => unfold placeFrame; (try dsimp only); repeat' (first | assumption | (simp; done) | (refine (frame_foldl _ _ (fun s a => ?_) _).trans ?_) | (refine (frame_admitThen _ _ _ _ _ (fun s => ?_)).trans ?_) | (refine (frame_completeStored _ _ _ (fun s => ?_)).trans ?_) | (refine (frame_pealRx _ _ _ _ _ (fun s => ?_)).trans ?_) | split | simp)
  | succ n ih => unfold placeFrame; (try dsimp only); repeat' (first | assumption | (simp [ih]; done) | (refine (frame_foldl _ _ (fun s a => ?_) _).trans ?_) | (refine (frame_admitThen _ _ _ _ _ (fun s => ?_)).trans ?_) | (refine (frame_completeStored _ _ _ (fun s => ?_)).trans ?_) | (refine (frame_pealRx _ _ _ _ _ (fun s => ?_)).trans ?_) | split | simp [ih])

@[simp] theorem execReorderArrival_frame : ∀ a0 s, Keeps s (execReorderArrival a0 s) := by
  intros; unfold execReorderArrival; (try dsimp only); (repeat' split) <;> simp

@[simp] theorem execReorderTimeout_frame : ∀ a0 s, Keeps s (execReorderTimeout a0 s) := by
  intros; unfold execReorderTimeout; (try dsimp only); (repeat' split) <;> simp

@[simp] theorem execReorderIdleExpiry_frame : ∀ a0 s, Keeps s (execReorderIdleExpiry a0 s) := by
  intros; unfold execReorderIdleExpiry; simp

@[simp] theorem execReorderStats_frame : ∀ a0 s, Keeps s (execReorderStats a0 s) := by
  intros; refine Keeps.of (frame_runCmd _ _ _ _ _ _ _ _ _ (fun c s => ?_) (fun c s => ?_)) <;> beta_reduce <;> (try dsimp only); repeat' (first | assumption | (simp; done) | (refine (frame_foldl _ _ (fun s a => ?_) _).trans ?_) | (refine (frame_admitThen _ _ _ _ _ (fun s => ?_)).trans ?_) | (refine (frame_completeStored _ _ _ (fun s => ?_)).trans ?_) | (refine (frame_pealRx _ _ _ _ _ (fun s => ?_)).trans ?_) | split | simp)

end Sys2Proof.Machine
end

