-- ==== Sys2Proof/Laws/KeepSetOps.lean ====
section
/-! SUPPORT. What the operations of Machine/SetOps.lean leave alone (Laws/Keep.lean). -/
namespace Sys2Proof.Machine

@[simp] theorem writePunt_frame : ∀ a0 s, frame (writePunt a0 s) = frame s := by
  intros; unfold writePunt; simp

@[simp] theorem forwardPunt_frame : ∀ a0 s, frame (forwardPunt a0 s) = frame s := by
  intros; unfold forwardPunt; simp

@[simp] theorem flushPuntsN_frame : ∀ a0 s, frame (flushPuntsN a0 s) = frame s := by
  intro a0 s
  induction a0 generalizing s with
  | zero => unfold flushPuntsN; (try dsimp only); repeat' (first | assumption | (simp; done) | (refine (frame_foldl _ _ (fun s a => ?_) _).trans ?_) | (refine (frame_admitThen _ _ _ _ _ (fun s => ?_)).trans ?_) | (refine (frame_completeStored _ _ _ (fun s => ?_)).trans ?_) | (refine (frame_pealRx _ _ _ _ _ (fun s => ?_)).trans ?_) | split | simp)
  | succ n ih => unfold flushPuntsN; (try dsimp only); repeat' (first | assumption | (simp [ih]; done) | (refine (frame_foldl _ _ (fun s a => ?_) _).trans ?_) | (refine (frame_admitThen _ _ _ _ _ (fun s => ?_)).trans ?_) | (refine (frame_completeStored _ _ _ (fun s => ?_)).trans ?_) | (refine (frame_pealRx _ _ _ _ _ (fun s => ?_)).trans ?_) | split | simp [ih])

@[simp] theorem flushPunts_frame : ∀ s, frame (flushPunts s) = frame s := by
  intros; unfold flushPunts; simp

@[simp] theorem execPuntHandler_frame : ∀ a0 s, Keeps s (execPuntHandler a0 s) := by
  intros; unfold execPuntHandler; (try dsimp only); (repeat' split) <;> simp

@[simp] theorem setsCleared_frame : ∀ s, frame (setsCleared s) = frame s := by
  intros; unfold setsCleared; simp

@[simp] theorem postCancelled_frame : ∀ a0 a1 a2 s, frame (postCancelled a0 a1 a2 s) = frame s := by
  intros; unfold postCancelled; simp

@[simp] theorem setsEmptied_frame : ∀ s, frame (setsEmptied s) = frame s := by
  intros; unfold setsEmptied; (try dsimp only); (repeat' split) <;> simp

@[simp] theorem cacheInvalidate_frame : ∀ s, frame (cacheInvalidate s) = frame s := by
  intros; unfold cacheInvalidate; simp

@[simp] theorem zeroiseMemories_frame : ∀ s, frame (zeroiseMemories s) =
    (s.pending, {}, s.time.now, s.sec.lc, s.sec.minSvn, s.sets.epoch) := by
  intro s
  have h : frame (cacheInvalidate (packetsLost (setsCleared s))) = frame s := by simp
  unfold zeroiseMemories
  generalize cacheInvalidate (packetsLost (setsCleared s)) = t at *
  simp only [frame, Prod.mk.injEq] at h ⊢
  simp [h]

@[simp] theorem unplace_frame : ∀ a0 s, frame (unplace a0 s) = frame s := by
  intros; unfold unplace; (try dsimp only); (repeat' split) <;> simp

@[simp] theorem forgetOps_frame : ∀ a0 s, frame (forgetOps a0 s) = frame s := by
  intros; unfold forgetOps; simp

@[simp] theorem expunge_frame : ∀ a0 s, frame (expunge a0 s) = frame s := by
  intros; unfold expunge; simp

@[simp] theorem dropEpoch_frame : ∀ a0 s, frame (dropEpoch a0 s) = frame s := by
  intros; unfold dropEpoch; (try dsimp only); repeat' (first | assumption | (simp; done) | (refine (frame_foldl _ _ (fun s a => ?_) _).trans ?_) | (refine (frame_admitThen _ _ _ _ _ (fun s => ?_)).trans ?_) | (refine (frame_completeStored _ _ _ (fun s => ?_)).trans ?_) | (refine (frame_pealRx _ _ _ _ _ (fun s => ?_)).trans ?_) | split | simp)

@[simp] theorem endDrain_frame : ∀ a0 a1 a2 s, frame (endDrain a0 a1 a2 s) = frame s := by
  intros; unfold endDrain; simp

@[simp] theorem orphanPkts_frame : ∀ a0 a1 s, frame (orphanPkts a0 a1 s) = frame s := by
  intros; unfold orphanPkts; simp

@[simp] theorem fireFeatures_frame : ∀ a0 a1 s, frame (fireFeatures a0 a1 s).2 = frame s := by
  intros; unfold fireFeatures; (try dsimp only); repeat' (first | assumption | (simp; done) | (refine (frame_foldl _ _ (fun s a => ?_) _).trans ?_) | (refine (frame_admitThen _ _ _ _ _ (fun s => ?_)).trans ?_) | (refine (frame_completeStored _ _ _ (fun s => ?_)).trans ?_) | (refine (frame_pealRx _ _ _ _ _ (fun s => ?_)).trans ?_) | split | simp)

@[simp] theorem fireLanes_frame : ∀ a0 s, frame (fireLanes a0 s) = frame s := by
  intros; unfold fireLanes; (try dsimp only); repeat' (first | assumption | (simp; done) | (refine (frame_foldl _ _ (fun s a => ?_) _).trans ?_) | (refine (frame_admitThen _ _ _ _ _ (fun s => ?_)).trans ?_) | (refine (frame_completeStored _ _ _ (fun s => ?_)).trans ?_) | (refine (frame_pealRx _ _ _ _ _ (fun s => ?_)).trans ?_) | split | simp)

@[simp] theorem fireXoff_frame : ∀ a0 a1 s, frame (fireXoff a0 a1 s) = frame s := by
  intros; unfold fireXoff; (try dsimp only); repeat' (first | assumption | (simp; done) | (refine (frame_foldl _ _ (fun s a => ?_) _).trans ?_) | (refine (frame_admitThen _ _ _ _ _ (fun s => ?_)).trans ?_) | (refine (frame_completeStored _ _ _ (fun s => ?_)).trans ?_) | (refine (frame_pealRx _ _ _ _ _ (fun s => ?_)).trans ?_) | split | simp)

@[simp] theorem fireContexts_frame : ∀ a0 s, frame (fireContexts a0 s) = frame s := by
  intros; unfold fireContexts; (try dsimp only); repeat' (first | assumption | (simp; done) | (refine (frame_foldl _ _ (fun s a => ?_) _).trans ?_) | (refine (frame_admitThen _ _ _ _ _ (fun s => ?_)).trans ?_) | (refine (frame_completeStored _ _ _ (fun s => ?_)).trans ?_) | (refine (frame_pealRx _ _ _ _ _ (fun s => ?_)).trans ?_) | split | simp)

@[simp] theorem fireGates_frame : ∀ a0 s, frame (fireGates a0 s) = frame s := by
  intros; unfold fireGates; (try dsimp only); repeat' (first | assumption | (simp; done) | (refine (frame_foldl _ _ (fun s a => ?_) _).trans ?_) | (refine (frame_admitThen _ _ _ _ _ (fun s => ?_)).trans ?_) | (refine (frame_completeStored _ _ _ (fun s => ?_)).trans ?_) | (refine (frame_pealRx _ _ _ _ _ (fun s => ?_)).trans ?_) | split | simp)

@[simp] theorem fireSprays_frame : ∀ a0 a1 s, frame (fireSprays a0 a1 s) = frame s := by
  intros; unfold fireSprays; simp

@[simp] theorem fire_frame : ∀ a s, frame (fire a s) =
    (s.pending, s.hbm, s.time.now, s.sec.lc, s.sec.minSvn, a.target) := by
  intros; unfold fire; simp

@[simp] theorem withdraw_frame : ∀ a0 s, frame (withdraw a0 s) = frame s := by
  intros; unfold withdraw; (try dsimp only); (repeat' split) <;> simp

end Sys2Proof.Machine
end

