-- ==== Sys2Proof/Laws/KeepPower.lean ====
section
/-! SUPPORT. What the operations of Machine/Power.lean leave alone (Laws/Keep.lean). -/
namespace Sys2Proof.Machine

@[simp] theorem setRegion_frame : ∀ a0 a1 s, frame (setRegion a0 a1 s) = frame s := by
  intros; unfold setRegion; simp

@[simp] theorem judgeRegion_frame : ∀ s a1, frame (judgeRegion s a1) = frame s := by
  intros; unfold judgeRegion; simp

@[simp] theorem postThermalWarn_frame : ∀ a0 a1 s, frame (postThermalWarn a0 a1 s) = frame s := by
  intros; unfold postThermalWarn; simp

@[simp] theorem postRegionLimit_frame : ∀ a0 a1 s, frame (postRegionLimit a0 a1 s) = frame s := by
  intros; unfold postRegionLimit; simp

@[simp] theorem lasersOff_frame : ∀ s, frame (lasersOff s) = frame s := by
  intros; unfold lasersOff; simp

@[simp] theorem railsOff_frame : ∀ s, frame (railsOff s) = frame s := by
  intros; unfold railsOff; simp

@[simp] theorem endSessions_frame : ∀ s, frame (endSessions s) = frame s := by
  intros; unfold endSessions; simp

@[simp] theorem thermalTrip_frame : ∀ a0 a1 a2 s, frame (thermalTrip a0 a1 a2 s) = frame s := by
  intros; unfold thermalTrip; simp

@[simp] theorem fundamentalReset_frame : ∀ s, frame (fundamentalReset s) =
    (s.pending, {}, s.time.now, s.sec.lc, s.sec.minSvn, 0) := by
  intro s; rfl

theorem execPowerOnAo_frame : ∀ s t, execPowerOnAo s = .next t →
    frame t = (s.pending, {}, {}, s.sec.lc, s.sec.minSvn, 0) := by
  intro s t h; cases h; rfl

theorem execAdpPwrokRise_frame : ∀ a s t, execAdpPwrokRise a s = .next t →
    frame t = frame s ∨ frame t = (s.pending, {}, s.time.now, s.sec.lc, s.sec.minSvn, 0) := by
  intro a s t h
  unfold execAdpPwrokRise at h
  split at h
  · cases h; exact .inl rfl
  · cases h; right; exact fundamentalReset_frame s

@[simp] theorem execPwrPgRise_frame : ∀ a0 s, Keeps s (execPwrPgRise a0 s) := by
  intros; unfold execPwrPgRise; simp

@[simp] theorem execPwrSeqFail_frame : ∀ s, Keeps s (execPwrSeqFail s) := by
  intros; unfold execPwrSeqFail; simp

@[simp] theorem lockHeld_frame : ∀ s, frame (lockHeld s) = frame s := by
  intros; unfold lockHeld; simp

@[simp] theorem execRootPllLock_frame : ∀ s, Keeps s (execRootPllLock s) := by
  intros; unfold execRootPllLock; simp

@[simp] theorem writeRail_frame : ∀ a0 a1 s, frame (writeRail a0 a1 s) = frame s := by
  intros; unfold writeRail; simp

@[simp] theorem avsInit_frame : ∀ s, frame (avsInit s) = frame s := by
  intros; unfold avsInit; (try dsimp only); repeat' (first | assumption | (simp; done) | (refine (frame_foldl _ _ (fun s a => ?_) _).trans ?_) | (refine (frame_admitThen _ _ _ _ _ (fun s => ?_)).trans ?_) | (refine (frame_completeStored _ _ _ (fun s => ?_)).trans ?_) | (refine (frame_pealRx _ _ _ _ _ (fun s => ?_)).trans ?_) | split | simp)

@[simp] theorem takeImage_frame : ∀ a0 a1 a2 s, frame (takeImage a0 a1 a2 s) = frame s := by
  intros; unfold takeImage; simp

@[simp] theorem laserUpdate_frame : ∀ a0 s, frame (laserUpdate a0 s) = frame s := by
  intros; unfold laserUpdate; simp

@[simp] theorem monitorsReset_frame : ∀ s, frame (monitorsReset s) = frame s := by
  intros; unfold monitorsReset; simp

@[simp] theorem regionsReleased_frame : ∀ s, frame (regionsReleased s) = frame s := by
  intros; unfold regionsReleased; (try dsimp only); repeat' (first | assumption | (simp; done) | (refine (frame_foldl _ _ (fun s a => ?_) _).trans ?_) | (refine (frame_admitThen _ _ _ _ _ (fun s => ?_)).trans ?_) | (refine (frame_completeStored _ _ _ (fun s => ?_)).trans ?_) | (refine (frame_pealRx _ _ _ _ _ (fun s => ?_)).trans ?_) | split | simp)

@[simp] theorem releaseRegions_frame : ∀ s, frame (releaseRegions s) = frame s := by
  intros; unfold releaseRegions; (try dsimp only); repeat' (first | assumption | (simp; done) | (refine (frame_foldl _ _ (fun s a => ?_) _).trans ?_) | (refine (frame_admitThen _ _ _ _ _ (fun s => ?_)).trans ?_) | (refine (frame_completeStored _ _ _ (fun s => ?_)).trans ?_) | (refine (frame_pealRx _ _ _ _ _ (fun s => ?_)).trans ?_) | split | simp)

@[simp] theorem execFwBootCheck_frame : ∀ a0 a1 s, Keeps s (execFwBootCheck a0 a1 s) := by
  intros; unfold execFwBootCheck; (try dsimp only); (repeat' split) <;> simp

@[simp] theorem execFwRecoveryTimeout_frame : ∀ s, Keeps s (execFwRecoveryTimeout s) := by
  intros; unfold execFwRecoveryTimeout; simp

@[simp] theorem journalReply_frame : ∀ a0 a1 s, frame (journalReply a0 a1 s) = frame s := by
  intros; unfold journalReply; (try dsimp only); (repeat' split) <;> simp

@[simp] theorem flushAll_frame : ∀ s, frame (flushAll s) = frame s := by
  intros; unfold flushAll; simp

@[simp] theorem pfActive_frame : ∀ s, frame (pfActive s) = frame s := by
  intros; unfold pfActive; simp

@[simp] theorem svnCommit_frame : ∀ s, frame (svnCommit s) = (s.pending, s.hbm, s.time.now, s.sec.lc,
    if s.fw.commit then max s.sec.minSvn s.fw.svn else s.sec.minSvn, s.sets.epoch) := by
  intro s; unfold svnCommit; split <;> rfl

@[simp] theorem fwRuns_frame : ∀ a0 s, frame (fwRuns a0 s) = frame s := by
  intros; unfold fwRuns; (try dsimp only); repeat' (first | assumption | (simp; done) | (refine (frame_foldl _ _ (fun s a => ?_) _).trans ?_) | (refine (frame_admitThen _ _ _ _ _ (fun s => ?_)).trans ?_) | (refine (frame_completeStored _ _ _ (fun s => ?_)).trans ?_) | (refine (frame_pealRx _ _ _ _ _ (fun s => ?_)).trans ?_) | split | simp)

@[simp] theorem readyEvent_frame : ∀ s, frame (readyEvent s) = frame s := by
  intros; unfold readyEvent; (try dsimp only); repeat' (first | assumption | (simp; done) | (refine (frame_foldl _ _ (fun s a => ?_) _).trans ?_) | (refine (frame_admitThen _ _ _ _ _ (fun s => ?_)).trans ?_) | (refine (frame_completeStored _ _ _ (fun s => ?_)).trans ?_) | (refine (frame_pealRx _ _ _ _ _ (fun s => ?_)).trans ?_) | split | simp)

@[simp] theorem tripReport_frame : ∀ a0 s, frame (tripReport a0 s) = frame s := by
  intros; unfold tripReport; simp

theorem execFwReady_frame : ∀ s t, execFwReady s = .next t → frame t = frame s ∨
    frame t = (s.pending, s.hbm, s.time.now, s.sec.lc, max s.sec.minSvn s.fw.svn, s.sets.epoch) := by
  intro s t h
  unfold execFwReady at h
  split at h
  · cases h; exact .inl rfl
  · cases h
    simp only [tripReport_frame, flushPunts_frame, flushAll_frame, readyEvent_frame, fwRuns_frame, svnCommit_frame]
    split
    · exact .inr rfl
    · exact .inl rfl

@[simp] theorem execHeartbeatTimeout_frame : ∀ a0 s, Keeps s (execHeartbeatTimeout a0 s) := by
  intros; unfold execHeartbeatTimeout; simp

@[simp] theorem execPllLockLost_frame : ∀ s, Keeps s (execPllLockLost s) := by
  intros; unfold execPllLockLost; simp

@[simp] theorem execPllRelock_frame : ∀ s, Keeps s (execPllRelock s) := by
  intros; unfold execPllRelock; simp

@[simp] theorem execPwrPgLost_frame : ∀ a0 s, Keeps s (execPwrPgLost a0 s) := by
  intros; unfold execPwrPgLost; simp

@[simp] theorem execAdpPwrokFall_frame : ∀ s, Keeps s (execAdpPwrokFall s) := by
  intros; unfold execAdpPwrokFall; simp

@[simp] theorem execThermComparatorTrip_frame : ∀ a0 a1 s, Keeps s (execThermComparatorTrip a0 a1 s) := by
  intros; unfold execThermComparatorTrip; simp

@[simp] theorem execRegionMonitorSample_frame : ∀ a0 a1 a2 s, Keeps s (execRegionMonitorSample a0 a1 a2 s) := by
  intro a0 a1 a2 s
  unfold execRegionMonitorSample
  split
  · exact .of rfl
  · extract_lets s1 s2 s3
    have h1 : frame s1 = frame s := by simp [s1]
    have h2 : frame s2 = frame s1 := frame_foldl _ _ (fun s k => judgeRegion_frame s k) _
    have h3 : frame s3 = frame s2 := by simp only [s3]; split <;> simp
    split
    · simp [h1, h2, h3]
    · simp [h1, h2, h3]

@[simp] theorem execStretchStepRise_frame : ∀ a0 s, Keeps s (execStretchStepRise a0 s) := by
  intros; unfold execStretchStepRise; simp

@[simp] theorem execStretchStepFall_frame : ∀ a0 s, Keeps s (execStretchStepFall a0 s) := by
  intros; unfold execStretchStepFall; (try dsimp only); (repeat' split) <;> simp

@[simp] theorem execRegionLimitRepeat_frame : ∀ a0 s, Keeps s (execRegionLimitRepeat a0 s) := by
  intros; unfold execRegionLimitRepeat; simp

@[simp] theorem execAvsLimitRaise_frame : ∀ a0 s, Keeps s (execAvsLimitRaise a0 s) := by
  intros; unfold execAvsLimitRaise; (try dsimp only); (repeat' split) <;> simp

@[simp] theorem execPowerTotalSample_frame : ∀ a0 s, Keeps s (execPowerTotalSample a0 s) := by
  intros; unfold execPowerTotalSample; simp

@[simp] theorem execCapStepRise_frame : ∀ s, Keeps s (execCapStepRise s) := by
  intros; unfold execCapStepRise; simp

@[simp] theorem execCapStepFall_frame : ∀ s, Keeps s (execCapStepFall s) := by
  intros; unfold execCapStepFall; simp

@[simp] theorem execThermalStepRise_frame : ∀ a0 s, Keeps s (execThermalStepRise a0 s) := by
  intros; unfold execThermalStepRise; simp

@[simp] theorem execThermalStepFall_frame : ∀ a0 s, Keeps s (execThermalStepFall a0 s) := by
  intros; unfold execThermalStepFall; simp

@[simp] theorem avsFault_frame : ∀ a0 a1 a2 s, frame (avsFault a0 a1 a2 s) = frame s := by
  intros; unfold avsFault; simp

@[simp] theorem execAvsResponse_frame : ∀ a0 a1 a2 s, Keeps s (execAvsResponse a0 a1 a2 s) := by
  intros; unfold execAvsResponse; (try dsimp only); (repeat' split) <;> simp

@[simp] theorem execLaserMatedChange_frame : ∀ a0 a1 s, Keeps s (execLaserMatedChange a0 a1 s) := by
  intros; unfold execLaserMatedChange; simp

@[simp] theorem execLaserSourceFault_frame : ∀ a0 s, Keeps s (execLaserSourceFault a0 s) := by
  intros; unfold execLaserSourceFault; simp

@[simp] theorem execLaserFaultClear_frame : ∀ a0 s, Keeps s (execLaserFaultClear a0 s) := by
  intros; unfold execLaserFaultClear; simp

@[simp] theorem execLaneRefLost_frame : ∀ a0 s, Keeps s (execLaneRefLost a0 s) := by
  intros; unfold execLaneRefLost; (try dsimp only); repeat' (first | assumption | (simp; done) | (refine (frame_foldl _ _ (fun s a => ?_) _).trans ?_) | (refine (frame_admitThen _ _ _ _ _ (fun s => ?_)).trans ?_) | (refine (frame_completeStored _ _ _ (fun s => ?_)).trans ?_) | (refine (frame_pealRx _ _ _ _ _ (fun s => ?_)).trans ?_) | split | simp)

@[simp] theorem execLaneRefRestored_frame : ∀ a0 s, Keeps s (execLaneRefRestored a0 s) := by
  intros; unfold execLaneRefRestored; simp

@[simp] theorem execPwrStatus_frame : ∀ a0 s, Keeps s (execPwrStatus a0 s) := by
  intros; refine Keeps.of (frame_runCmd _ _ _ _ _ _ _ _ _ (fun c s => ?_) (fun c s => ?_)) <;> beta_reduce <;> (try dsimp only); repeat' (first | assumption | (simp; done) | (refine (frame_foldl _ _ (fun s a => ?_) _).trans ?_) | (refine (frame_admitThen _ _ _ _ _ (fun s => ?_)).trans ?_) | (refine (frame_completeStored _ _ _ (fun s => ?_)).trans ?_) | (refine (frame_pealRx _ _ _ _ _ (fun s => ?_)).trans ?_) | split | simp)

@[simp] theorem execPwrCap_frame : ∀ a0 s, Keeps s (execPwrCap a0 s) := by
  intros; refine Keeps.of (frame_runCmd _ _ _ _ _ _ _ _ _ (fun c s => ?_) (fun c s => ?_)) <;> beta_reduce <;> (try dsimp only); repeat' (first | assumption | (simp; done) | (refine (frame_foldl _ _ (fun s a => ?_) _).trans ?_) | (refine (frame_admitThen _ _ _ _ _ (fun s => ?_)).trans ?_) | (refine (frame_completeStored _ _ _ (fun s => ?_)).trans ?_) | (refine (frame_pealRx _ _ _ _ _ (fun s => ?_)).trans ?_) | split | simp)

@[simp] theorem execTelemCfg_frame : ∀ a0 s, Keeps s (execTelemCfg a0 s) := by
  intros; refine Keeps.of (frame_runCmd _ _ _ _ _ _ _ _ _ (fun c s => ?_) (fun c s => ?_)) <;> beta_reduce <;> (try dsimp only); repeat' (first | assumption | (simp; done) | (refine (frame_foldl _ _ (fun s a => ?_) _).trans ?_) | (refine (frame_admitThen _ _ _ _ _ (fun s => ?_)).trans ?_) | (refine (frame_completeStored _ _ _ (fun s => ?_)).trans ?_) | (refine (frame_pealRx _ _ _ _ _ (fun s => ?_)).trans ?_) | split | simp)

end Sys2Proof.Machine
end

