-- ==== Sys2Proof/Laws/KeepAdapterCmds.lean ====
section
/-! SUPPORT. What the operations of Machine/AdapterCmds.lean leave alone (Laws/Keep.lean). -/
namespace Sys2Proof.Machine

@[simp] theorem execAdapterInfo_frame : ∀ a0 s, Keeps s (execAdapterInfo a0 s) := by
  intros; refine Keeps.of (frame_runCmd _ _ _ _ _ _ _ _ _ (fun c s => ?_) (fun c s => ?_)) <;> beta_reduce <;> (try dsimp only); repeat' (first | assumption | (simp; done) | (refine (frame_foldl _ _ (fun s a => ?_) _).trans ?_) | (refine (frame_admitThen _ _ _ _ _ (fun s => ?_)).trans ?_) | (refine (frame_completeStored _ _ _ (fun s => ?_)).trans ?_) | (refine (frame_pealRx _ _ _ _ _ (fun s => ?_)).trans ?_) | split | simp)

@[simp] theorem execFwStatus_frame : ∀ a0 s, Keeps s (execFwStatus a0 s) := by
  intros; refine Keeps.of (frame_runCmd _ _ _ _ _ _ _ _ _ (fun c s => ?_) (fun c s => ?_)) <;> beta_reduce <;> (try dsimp only); repeat' (first | assumption | (simp; done) | (refine (frame_foldl _ _ (fun s a => ?_) _).trans ?_) | (refine (frame_admitThen _ _ _ _ _ (fun s => ?_)).trans ?_) | (refine (frame_completeStored _ _ _ (fun s => ?_)).trans ?_) | (refine (frame_pealRx _ _ _ _ _ (fun s => ?_)).trans ?_) | split | simp)

@[simp] theorem execFwUpdate_frame : ∀ a0 a1 s, Keeps s (execFwUpdate a0 a1 s) := by
  intros; refine Keeps.of (frame_runCmd _ _ _ _ _ _ _ _ _ (fun c s => ?_) (fun c s => ?_)) <;> beta_reduce <;> (try dsimp only); repeat' (first | assumption | (simp; done) | (refine (frame_foldl _ _ (fun s a => ?_) _).trans ?_) | (refine (frame_admitThen _ _ _ _ _ (fun s => ?_)).trans ?_) | (refine (frame_completeStored _ _ _ (fun s => ?_)).trans ?_) | (refine (frame_pealRx _ _ _ _ _ (fun s => ?_)).trans ?_) | split | simp)

@[simp] theorem execFwActivate_frame : ∀ a0 s, Keeps s (execFwActivate a0 s) := by
  intros; refine Keeps.of (frame_runCmd _ _ _ _ _ _ _ _ _ (fun c s => ?_) (fun c s => ?_)) <;> beta_reduce <;> (try dsimp only); repeat' (first | assumption | (simp; done) | (refine (frame_foldl _ _ (fun s a => ?_) _).trans ?_) | (refine (frame_admitThen _ _ _ _ _ (fun s => ?_)).trans ?_) | (refine (frame_completeStored _ _ _ (fun s => ?_)).trans ?_) | (refine (frame_pealRx _ _ _ _ _ (fun s => ?_)).trans ?_) | split | simp)

@[simp] theorem execEvtRingSet_frame : ∀ a0 s, Keeps s (execEvtRingSet a0 s) := by
  intros; refine Keeps.of (frame_runCmd _ _ _ _ _ _ _ _ _ (fun c s => ?_) (fun c s => ?_)) <;> beta_reduce <;> (try dsimp only); repeat' (first | assumption | (simp; done) | (refine (frame_foldl _ _ (fun s a => ?_) _).trans ?_) | (refine (frame_admitThen _ _ _ _ _ (fun s => ?_)).trans ?_) | (refine (frame_completeStored _ _ _ (fun s => ?_)).trans ?_) | (refine (frame_pealRx _ _ _ _ _ (fun s => ?_)).trans ?_) | split | simp)

@[simp] theorem execEvtSubscribe_frame : ∀ a0 s, Keeps s (execEvtSubscribe a0 s) := by
  intros; refine Keeps.of (frame_runCmd _ _ _ _ _ _ _ _ _ (fun c s => ?_) (fun c s => ?_)) <;> beta_reduce <;> (try dsimp only); repeat' (first | assumption | (simp; done) | (refine (frame_foldl _ _ (fun s a => ?_) _).trans ?_) | (refine (frame_admitThen _ _ _ _ _ (fun s => ?_)).trans ?_) | (refine (frame_completeStored _ _ _ (fun s => ?_)).trans ?_) | (refine (frame_pealRx _ _ _ _ _ (fun s => ?_)).trans ?_) | split | simp)

@[simp] theorem execPuntRingSet_frame : ∀ a0 s, Keeps s (execPuntRingSet a0 s) := by
  intros; refine Keeps.of (frame_runCmd _ _ _ _ _ _ _ _ _ (fun c s => ?_) (fun c s => ?_)) <;> beta_reduce <;> (try dsimp only); repeat' (first | assumption | (simp; done) | (refine (frame_foldl _ _ (fun s a => ?_) _).trans ?_) | (refine (frame_admitThen _ _ _ _ _ (fun s => ?_)).trans ?_) | (refine (frame_completeStored _ _ _ (fun s => ?_)).trans ?_) | (refine (frame_pealRx _ _ _ _ _ (fun s => ?_)).trans ?_) | split | simp)

end Sys2Proof.Machine
end

