-- ==== Sys2Proof/Laws/KeepAgeRows.lean ====
section
/-! SUPPORT. What the operations of Machine/AgeRows.lean leave alone (Laws/Keep.lean). -/
namespace Sys2Proof.Machine

@[simp] theorem setAge_frame : ∀ a0 a1 s, frame (setAge a0 a1 s) = frame s := by
  intros; unfold setAge; simp

@[simp] theorem execCrazingSample_frame : ∀ a0 a1 a2 a3 s, Keeps s (execCrazingSample a0 a1 a2 a3 s) := by
  intros; unfold execCrazingSample; (try dsimp only); (repeat' split) <;> simp

@[simp] theorem postEndOfLife_frame : ∀ a0 a1 s, frame (postEndOfLife a0 a1 s) = frame s := by
  intros; unfold postEndOfLife; simp

@[simp] theorem stepUp_frame : ∀ a0 s, frame (stepUp a0 s) = frame s := by
  intros; unfold stepUp; simp

theorem raiseNeighbours_frame : ∀ n k x, frame (raiseNeighbours n k x).1 = frame x.1 := by
  intro n
  induction n with
  | zero => intro k x; rfl
  | succ n ih =>
    intro k x
    unfold raiseNeighbours
    generalize neighbours k = l
    induction l generalizing x with
    | nil => rfl
    | cons b l il =>
      rw [List.foldl_cons, il]
      obtain ⟨s, ups, ok⟩ := x
      dsimp only
      split
      · split
        · rw [ih]; exact stepUp_frame _ _
        · rfl
      · rfl

@[simp] theorem raiseSteps_frame : ∀ a0 a1 s a3, frame (raiseSteps a0 a1 s a3) = frame s := by
  intro k n
  induction n with
  | zero => intro s u; rfl
  | succ n ih =>
    intro s u
    unfold raiseSteps
    split
    rename_i t ups ok h
    have hf := congrArg (fun r => frame r.1) h
    simp only [raiseNeighbours_frame, stepUp_frame] at hf
    split
    · rw [ih]; exact hf.symm
    · rfl

@[simp] theorem replan_frame : ∀ a0 a1 s, frame (replan a0 a1 s) = frame s := by
  intros; unfold replan; (try dsimp only); repeat' (first | assumption | (simp; done) | (refine (frame_foldl _ _ (fun s a => ?_) _).trans ?_) | (refine (frame_admitThen _ _ _ _ _ (fun s => ?_)).trans ?_) | (refine (frame_completeStored _ _ _ (fun s => ?_)).trans ?_) | (refine (frame_pealRx _ _ _ _ _ (fun s => ?_)).trans ?_) | split | simp)

@[simp] theorem execGuardbandReplan_frame : ∀ a0 s, Keeps s (execGuardbandReplan a0 s) := by
  intros; unfold execGuardbandReplan; (try dsimp only); (repeat' split) <;> simp

@[simp] theorem execMarginRead_frame : ∀ a0 s, Keeps s (execMarginRead a0 s) := by
  intros; refine Keeps.of (frame_runCmd _ _ _ _ _ _ _ _ _ (fun c s => ?_) (fun c s => ?_)) <;> beta_reduce <;> (try dsimp only); repeat' (first | assumption | (simp; done) | (refine (frame_foldl _ _ (fun s a => ?_) _).trans ?_) | (refine (frame_admitThen _ _ _ _ _ (fun s => ?_)).trans ?_) | (refine (frame_completeStored _ _ _ (fun s => ?_)).trans ?_) | (refine (frame_pealRx _ _ _ _ _ (fun s => ?_)).trans ?_) | split | simp)

end Sys2Proof.Machine
end

