-- ==== Sys2Proof/Laws/KeepXport1.lean ====
section
/-! SUPPORT. What the operations of Machine/Xport1.lean leave alone (Laws/Keep.lean). -/
namespace Sys2Proof.Machine

@[simp] theorem postEntry_frame : ∀ a0 a1 a2 s, frame (postEntry a0 a1 a2 s) = frame s := by
  intros; unfold postEntry; simp

@[simp] theorem reportWork_frame : ∀ a0 a1 s, frame (reportWork a0 a1 s) = frame s := by
  intro a0 a1 s
  induction a1 generalizing a0 s with
  | nil => unfold reportWork; (try dsimp only); repeat' (first | assumption | (simp; done) | (refine (frame_foldl _ _ (fun s a => ?_) _).trans ?_) | (refine (frame_admitThen _ _ _ _ _ (fun s => ?_)).trans ?_) | (refine (frame_completeStored _ _ _ (fun s => ?_)).trans ?_) | (refine (frame_pealRx _ _ _ _ _ (fun s => ?_)).trans ?_) | split | simp)
  | cons b l ih => unfold reportWork; (try dsimp only); repeat' (first | assumption | (simp [ih]; done) | (refine (frame_foldl _ _ (fun s a => ?_) _).trans ?_) | (refine (frame_admitThen _ _ _ _ _ (fun s => ?_)).trans ?_) | (refine (frame_completeStored _ _ _ (fun s => ?_)).trans ?_) | (refine (frame_pealRx _ _ _ _ _ (fun s => ?_)).trans ?_) | split | simp [ih])

@[simp] theorem settleWork_frame : ∀ a0 s, frame (settleWork a0 s) = frame s := by
  intros; unfold settleWork; simp

@[simp] theorem finishWork_frame : ∀ a0 a1 a2 s, frame (finishWork a0 a1 a2 s) = frame s := by
  intros; unfold finishWork; simp

@[simp] theorem errObject_frame : ∀ a0 s, frame (errObject a0 s) = frame s := by
  intros; unfold errObject; simp

@[simp] theorem failWork_frame : ∀ a0 a1 a2 a3 s, frame (failWork a0 a1 a2 a3 s) = frame s := by
  intros; unfold failWork; simp

@[simp] theorem errWith_frame : ∀ a0 a1 a2 s, frame (errWith a0 a1 a2 s) = frame s := by
  intros; unfold errWith; (try dsimp only); (repeat' split) <;> simp

@[simp] theorem formPacket_frame : ∀ a0 a1 a2 s, frame (formPacket a0 a1 a2 s) = frame s := by
  intros; unfold formPacket; simp

@[simp] theorem replyRoce_frame : ∀ a0 a1 a2 a3 a4 s, frame (replyRoce a0 a1 a2 a3 a4 s) = frame s := by
  intros; unfold replyRoce; simp

@[simp] theorem sendAck_frame : ∀ a0 a1 a2 s, frame (sendAck a0 a1 a2 s) = frame s := by
  intros; unfold sendAck; simp

@[simp] theorem streamOut_frame : ∀ a0 a1 s, frame (streamOut a0 a1 s) = frame s := by
  intros; unfold streamOut; simp

end Sys2Proof.Machine
end

