-- ==== Sys2Proof/Laws/KeepStoreOps.lean ====
section
/-! SUPPORT. What the operations of Machine/StoreOps.lean leave alone (Laws/Keep.lean). -/
namespace Sys2Proof.Machine

@[simp] theorem setSport_frame : ∀ a0 a1 s, frame (setSport a0 a1 s) = frame s := by
  intros; unfold setSport; simp

@[simp] theorem setCmd_frame : ∀ a0 a1 s, frame (setCmd a0 a1 s) = frame s := by
  intros; unfold setCmd; simp

@[simp] theorem sendPdu_frame : ∀ a0 a1 a2 a3 a4 s, frame (sendPdu a0 a1 a2 a3 a4 s) = frame s := by
  intros; unfold sendPdu; simp

@[simp] theorem serviceWork_frame : ∀ a0 a1 s, frame (serviceWork a0 a1 s) = frame s := by
  intros; unfold serviceWork; simp

@[simp] theorem respond_frame : ∀ a0 a1 a2 a3 a4 s, frame (respond a0 a1 a2 a3 a4 s) = frame s := by
  intros; unfold respond; (try dsimp only); (repeat' split) <;> simp

@[simp] theorem finishCmd_frame : ∀ a0 a1 a2 s, frame (finishCmd a0 a1 a2 s) = frame s := by
  intros; unfold finishCmd; simp

@[simp] theorem deliverData_frame : ∀ a0 a1 a2 a3 a4 s, frame (deliverData a0 a1 a2 a3 a4 s) = frame s := by
  intros; unfold deliverData; simp

@[simp] theorem deliverRead_frame : ∀ a0 s, frame (deliverRead a0 s) = frame s := by
  intros; unfold deliverRead; simp

@[simp] theorem invalidate_frame : ∀ a0 s, frame (invalidate a0 s) = frame s := by
  intros; unfold invalidate; simp

@[simp] theorem toDrive_frame : ∀ a0 s, frame (toDrive a0 s) = frame s := by
  intros; unfold toDrive; simp

@[simp] theorem askUnits_frame : ∀ a0 a1 s, frame (askUnits a0 a1 s) = frame s := by
  intros; unfold askUnits; (try dsimp only); repeat' (first | assumption | (simp; done) | (refine (frame_foldl _ _ (fun s a => ?_) _).trans ?_) | (refine (frame_admitThen _ _ _ _ _ (fun s => ?_)).trans ?_) | (refine (frame_completeStored _ _ _ (fun s => ?_)).trans ?_) | (refine (frame_pealRx _ _ _ _ _ (fun s => ?_)).trans ?_) | split | simp)

@[simp] theorem readInHand_frame : ∀ a0 s, frame (readInHand a0 s) = frame s := by
  intros; unfold readInHand; simp

@[simp] theorem deallocate_frame : ∀ a0 s, frame (deallocate a0 s) = frame s := by
  intros; unfold deallocate; simp

@[simp] theorem dataInHand_frame : ∀ a0 s, frame (dataInHand a0 s) = frame s := by
  intros; unfold dataInHand; simp

@[simp] theorem askR2t_frame : ∀ a0 s, frame (askR2t a0 s) = frame s := by
  intros; unfold askR2t; simp

@[simp] theorem writeData_frame : ∀ a0 a1 a2 s, frame (writeData a0 a1 a2 s) = frame s := by
  intros; unfold writeData; simp

@[simp] theorem askData_frame : ∀ a0 a1 a2 s, frame (askData a0 a1 a2 s) = frame s := by
  intros; unfold askData; simp

@[simp] theorem unitDone_frame : ∀ a0 a1 a2 a3 s, frame (unitDone a0 a1 a2 a3 s) = frame s := by
  intros; unfold unitDone; simp

@[simp] theorem newCmd_frame : ∀ a0 a1 a2 a3 a4 a5 s, frame (newCmd a0 a1 a2 a3 a4 a5 s).2 = frame s := by
  intros; unfold newCmd; simp

@[simp] theorem startRead_frame : ∀ a0 s, frame (startRead a0 s) = frame s := by
  intro id s
  unfold startRead
  extract_lets c n ls hits s1 bytes s2
  have h1 : frame s1 = frame s := frame_foldl _ _ (fun s _ => countBlock_frame _ _ _ s) _
  have h2 : frame s2 = frame s1 := by simp [s2]
  split <;> simp [h1, h2]

@[simp] theorem ioCommand_frame : ∀ a0 a1 a2 s, frame (ioCommand a0 a1 a2 s) = frame s := by
  intros; unfold ioCommand; (try dsimp only); repeat' (first | assumption | (simp; done) | (refine (frame_foldl _ _ (fun s a => ?_) _).trans ?_) | (refine (frame_admitThen _ _ _ _ _ (fun s => ?_)).trans ?_) | (refine (frame_completeStored _ _ _ (fun s => ?_)).trans ?_) | (refine (frame_pealRx _ _ _ _ _ (fun s => ?_)).trans ?_) | split | simp)

@[simp] theorem adminCommand_frame : ∀ a0 a1 a2 s, frame (adminCommand a0 a1 a2 s) = frame s := by
  intros; unfold adminCommand; simp

@[simp] theorem serveCommand_frame : ∀ a0 a1 a2 s, frame (serveCommand a0 a1 a2 s) = frame s := by
  intros; unfold serveCommand; (try dsimp only); (repeat' split) <;> simp

@[simp] theorem driveSlot_frame : ∀ a0 s, frame (driveSlot a0 s) = frame s := by
  intros; unfold driveSlot; simp

@[simp] theorem failPort_frame : ∀ a0 s, frame (failPort a0 s) = frame s := by
  intros; unfold failPort; (try dsimp only); repeat' (first | assumption | (simp; done) | (refine (frame_foldl _ _ (fun s a => ?_) _).trans ?_) | (refine (frame_admitThen _ _ _ _ _ (fun s => ?_)).trans ?_) | (refine (frame_completeStored _ _ _ (fun s => ?_)).trans ?_) | (refine (frame_pealRx _ _ _ _ _ (fun s => ?_)).trans ?_) | split | simp)

@[simp] theorem removeDrive_frame : ∀ a0 a1 s, frame (removeDrive a0 a1 s) = frame s := by
  intros; unfold removeDrive; (try dsimp only); repeat' (first | assumption | (simp; done) | (refine (frame_foldl _ _ (fun s a => ?_) _).trans ?_) | (refine (frame_admitThen _ _ _ _ _ (fun s => ?_)).trans ?_) | (refine (frame_completeStored _ _ _ (fun s => ?_)).trans ?_) | (refine (frame_pealRx _ _ _ _ _ (fun s => ?_)).trans ?_) | split | simp)

end Sys2Proof.Machine
end

