-- ==== Sys2Proof/Laws/KeepRoceOps.lean ====
section
/-! SUPPORT. What the operations of Machine/RoceOps.lean leave alone (Laws/Keep.lean). -/
namespace Sys2Proof.Machine

@[simp] theorem startWork_frame : ∀ a0 a1 s, frame (startWork a0 a1 s) = frame s := by
  intros; unfold startWork; simp

@[simp] theorem formRoce_frame : ∀ a0 s, frame (formRoce a0 s) = frame s := by
  intros; unfold formRoce; (try dsimp only); (repeat' split) <;> simp

@[simp] theorem progress_frame : ∀ a0 a1 s, frame (progress a0 a1 s) = frame s := by
  intros; unfold progress; simp

@[simp] theorem dropRequests_frame : ∀ a0 s, frame (dropRequests a0 s) = frame s := by
  intros; unfold dropRequests; simp

@[simp] theorem retransmit_frame : ∀ a0 a1 s, frame (retransmit a0 a1 s) = frame s := by
  intros; unfold retransmit; (try dsimp only); repeat' (first | assumption | (simp; done) | (refine (frame_foldl _ _ (fun s a => ?_) _).trans ?_) | (refine (frame_admitThen _ _ _ _ _ (fun s => ?_)).trans ?_) | (refine (frame_completeStored _ _ _ (fun s => ?_)).trans ?_) | (refine (frame_pealRx _ _ _ _ _ (fun s => ?_)).trans ?_) | split | simp)

@[simp] theorem acked_frame : ∀ a0 a1 s, frame (acked a0 a1 s) = frame s := by
  intros; unfold acked; (try dsimp only); (repeat' split) <;> simp

@[simp] theorem gotAck_frame : ∀ a0 a1 a2 s, frame (gotAck a0 a1 a2 s) = frame s := by
  intros; unfold gotAck; simp

@[simp] theorem responseWhole_frame : ∀ a0 a1 s, frame (responseWhole a0 a1 s) = frame s := by
  intros; unfold responseWhole; (try dsimp only); (repeat' split) <;> simp

@[simp] theorem responseData_frame : ∀ a0 a1 a2 a3 s, frame (responseData a0 a1 a2 a3 s) = frame s := by
  intros; unfold responseData; simp

@[simp] theorem gotResponse_frame : ∀ a0 a1 a2 s, frame (gotResponse a0 a1 a2 s) = frame s := by
  intros; unfold gotResponse; (try dsimp only); repeat' (first | assumption | (simp; done) | (refine (frame_foldl _ _ (fun s a => ?_) _).trans ?_) | (refine (frame_admitThen _ _ _ _ _ (fun s => ?_)).trans ?_) | (refine (frame_completeStored _ _ _ (fun s => ?_)).trans ?_) | (refine (frame_pealRx _ _ _ _ _ (fun s => ?_)).trans ?_) | split | simp)

@[simp] theorem refuseRequest_frame : ∀ a0 a1 a2 s, frame (refuseRequest a0 a1 a2 s) = frame s := by
  intros; unfold refuseRequest; simp

@[simp] theorem messageIn_frame : ∀ a0 a1 s, frame (messageIn a0 a1 s) = frame s := by
  intros; unfold messageIn; (try dsimp only); (repeat' split) <;> simp

@[simp] theorem answerRead_frame : ∀ a0 a1 a2 s, frame (answerRead a0 a1 a2 s) = frame s := by
  intros; unfold answerRead; (try dsimp only); repeat' (first | assumption | (simp; done) | (refine (frame_foldl _ _ (fun s a => ?_) _).trans ?_) | (refine (frame_admitThen _ _ _ _ _ (fun s => ?_)).trans ?_) | (refine (frame_completeStored _ _ _ (fun s => ?_)).trans ?_) | (refine (frame_pealRx _ _ _ _ _ (fun s => ?_)).trans ?_) | split | simp)

@[simp] theorem readAnswered_frame : ∀ a0 a1 s, frame (readAnswered a0 a1 s) = frame s := by
  intros; unfold readAnswered; (try dsimp only); (repeat' split) <;> simp

@[simp] theorem takeRead_frame : ∀ a0 a1 s, frame (takeRead a0 a1 s) = frame s := by
  intros; unfold takeRead; simp

@[simp] theorem executed_frame : ∀ a0 a1 a2 a3 s, frame (executed a0 a1 a2 a3 s) = frame s := by
  intros; unfold executed; simp

@[simp] theorem notReady_frame : ∀ a0 a1 s, frame (notReady a0 a1 s) = frame s := by
  intros; unfold notReady; simp

@[simp] theorem execSendIn_frame : ∀ a0 a1 a2 a3 a4 a5 a6 s, frame (execSendIn a0 a1 a2 a3 a4 a5 a6 s) = frame s := by
  intros; unfold execSendIn; simp

@[simp] theorem execWriteIn_frame : ∀ a0 a1 a2 a3 a4 a5 a6 s, frame (execWriteIn a0 a1 a2 a3 a4 a5 a6 s) = frame s := by
  intros; unfold execWriteIn; simp

@[simp] theorem execRequest_frame : ∀ a0 a1 a2 a3 a4 a5 s, frame (execRequest a0 a1 a2 a3 a4 a5 s) = frame s := by
  intros; unfold execRequest; simp

@[simp] theorem rcRequest_frame : ∀ a0 a1 a2 a3 a4 a5 s, frame (rcRequest a0 a1 a2 a3 a4 a5 s) = frame s := by
  intros; unfold rcRequest; (try dsimp only); (repeat' split) <;> simp

@[simp] theorem sendCnp_frame : ∀ a0 a1 s, frame (sendCnp a0 a1 s) = frame s := by
  intros; unfold sendCnp; simp

@[simp] theorem rocePacketIn_frame : ∀ a0 a1 a2 s, frame (rocePacketIn a0 a1 a2 s) = frame s := by
  intros; unfold rocePacketIn; simp

@[simp] theorem roceReadFailed_frame : ∀ a0 s, frame (roceReadFailed a0 s) = frame s := by
  intros; unfold roceReadFailed; (try dsimp only); (repeat' split) <;> simp

end Sys2Proof.Machine
end

