-- ==== Sys2Proof/Laws/KeepTcpOps.lean ====
section
/-! SUPPORT. What the operations of Machine/TcpOps.lean leave alone (Laws/Keep.lean). -/
namespace Sys2Proof.Machine

@[simp] theorem setTcp_frame : ∀ a0 a1 s, frame (setTcp a0 a1 s) = frame s := by
  intros; unfold setTcp; simp

@[simp] theorem oweAck_frame : ∀ a0 s, frame (oweAck a0 s) = frame s := by
  intros; unfold oweAck; simp

@[simp] theorem oweReset_frame : ∀ a0 s, frame (oweReset a0 s) = frame s := by
  intros; unfold oweReset; simp

@[simp] theorem sendSegment_frame : ∀ a0 a1 a2 s, frame (sendSegment a0 a1 a2 s) = frame s := by
  intros; unfold sendSegment; simp

@[simp] theorem formTcp_frame : ∀ a0 s, frame (formTcp a0 s) = frame s := by
  intros; unfold formTcp; simp

@[simp] theorem startTcpWork_frame : ∀ a0 s, frame (startTcpWork a0 s) = frame s := by
  intros; unfold startTcpWork; (try dsimp only); (repeat' split) <;> simp

@[simp] theorem sealNext_frame : ∀ a0 s, frame (sealNext a0 s) = frame s := by
  intros; unfold sealNext; (try dsimp only); (repeat' split) <;> simp

@[simp] theorem termReq_frame : ∀ a0 a1 a2 s, frame (termReq a0 a1 a2 s) = frame s := by
  intros; unfold termReq; simp

@[simp] theorem initiatorDone_frame : ∀ a0 a1 a2 a3 s, frame (initiatorDone a0 a1 a2 a3 s) = frame s := by
  intros; unfold initiatorDone; (try dsimp only); (repeat' split) <;> simp

@[simp] theorem serveH2c_frame : ∀ a0 s, frame (serveH2c a0 s) = frame s := by
  intros; unfold serveH2c; (try dsimp only); (repeat' split) <;> simp

@[simp] theorem h2cRead_frame : ∀ a0 a1 s, frame (h2cRead a0 a1 s) = frame s := by
  intros; unfold h2cRead; (try dsimp only); (repeat' split) <;> simp

@[simp] theorem placeC2h_frame : ∀ a0 a1 a2 a3 a4 s, frame (placeC2h a0 a1 a2 a3 a4 s) = frame s := by
  intros; unfold placeC2h; (try dsimp only); (repeat' split) <;> simp

@[simp] theorem actPdu_frame : ∀ a0 a1 a2 a3 a4 a5 s, frame (actPdu a0 a1 a2 a3 a4 a5 s) = frame s := by
  intros; unfold actPdu; (try dsimp only); (repeat' split) <;> simp

@[simp] theorem takePdus_frame : ∀ a0 a1 s, frame (takePdus a0 a1 s) = frame s := by
  intro a0 a1 s
  induction a1 generalizing a0 s with
  | zero => unfold takePdus; (try dsimp only); repeat' (first | assumption | (simp; done) | (refine (frame_foldl _ _ (fun s a => ?_) _).trans ?_) | (refine (frame_admitThen _ _ _ _ _ (fun s => ?_)).trans ?_) | (refine (frame_completeStored _ _ _ (fun s => ?_)).trans ?_) | (refine (frame_pealRx _ _ _ _ _ (fun s => ?_)).trans ?_) | split | simp)
  | succ n ih => unfold takePdus; (try dsimp only); repeat' (first | assumption | (simp [ih]; done) | (refine (frame_foldl _ _ (fun s a => ?_) _).trans ?_) | (refine (frame_admitThen _ _ _ _ _ (fun s => ?_)).trans ?_) | (refine (frame_completeStored _ _ _ (fun s => ?_)).trans ?_) | (refine (frame_pealRx _ _ _ _ _ (fun s => ?_)).trans ?_) | split | simp [ih])

@[simp] theorem recordEarly_frame : ∀ a0 s, frame (recordEarly a0 s) = frame s := by
  intros; unfold recordEarly; (try dsimp only); repeat' (first | assumption | (simp; done) | (refine (frame_foldl _ _ (fun s a => ?_) _).trans ?_) | (refine (frame_admitThen _ _ _ _ _ (fun s => ?_)).trans ?_) | (refine (frame_completeStored _ _ _ (fun s => ?_)).trans ?_) | (refine (frame_pealRx _ _ _ _ _ (fun s => ?_)).trans ?_) | split | simp)

@[simp] theorem fillRecord_frame : ∀ a0 s, frame (fillRecord a0 s) = frame s := by
  intros; unfold fillRecord; (try dsimp only); (repeat' split) <;> simp

@[simp] theorem openNext_frame : ∀ a0 s, frame (openNext a0 s) = frame s := by
  intros; unfold openNext; simp

@[simp] theorem recordFailed_frame : ∀ a0 a1 a2 s, frame (recordFailed a0 a1 a2 s) = frame s := by
  intros; unfold recordFailed; simp

@[simp] theorem recordOpened_frame : ∀ a0 a1 a2 s, frame (recordOpened a0 a1 a2 s) = frame s := by
  intros; unfold recordOpened; (try dsimp only); repeat' (first | assumption | (simp; done) | (refine (frame_foldl _ _ (fun s a => ?_) _).trans ?_) | (refine (frame_admitThen _ _ _ _ _ (fun s => ?_)).trans ?_) | (refine (frame_completeStored _ _ _ (fun s => ?_)).trans ?_) | (refine (frame_pealRx _ _ _ _ _ (fun s => ?_)).trans ?_) | split | simp)

@[simp] theorem recordSealed_frame : ∀ a0 a1 s, frame (recordSealed a0 a1 s) = frame s := by
  intros; unfold recordSealed; (try dsimp only); (repeat' split) <;> simp

@[simp] theorem recordRefused_frame : ∀ a0 a1 s, frame (recordRefused a0 a1 s) = frame s := by
  intros; unfold recordRefused; (try dsimp only); (repeat' split) <;> simp

@[simp] theorem streamIn_frame : ∀ a0 s, frame (streamIn a0 s) = frame s := by
  intros; unfold streamIn; simp

@[simp] theorem segmentIn_frame : ∀ a0 a1 a2 s, frame (segmentIn a0 a1 a2 s) = frame s := by
  intros; unfold segmentIn; simp

@[simp] theorem tcpTimeout_frame : ∀ a0 s, frame (tcpTimeout a0 s) = frame s := by
  intros; unfold tcpTimeout; simp

end Sys2Proof.Machine
end

