-- ==== Sys2Proof/Laws/KeepXportOps.lean ====
section
/-! SUPPORT. What the operations of Machine/XportOps.lean leave alone (Laws/Keep.lean). -/
namespace Sys2Proof.Machine

@[simp] theorem postWork_frame : ∀ a0 a1 a2 a3 a4 s, frame (postWork a0 a1 a2 a3 a4 s) = frame s := by
  intros; unfold postWork; simp

@[simp] theorem formReplies_frame : ∀ a0 a1 s, frame (formReplies a0 a1 s) = frame s := by
  intro a0 a1 s
  induction a1 generalizing a0 s with
  | nil => unfold formReplies; (try dsimp only); repeat' (first | assumption | (simp; done) | (refine (frame_foldl _ _ (fun s a => ?_) _).trans ?_) | (refine (frame_admitThen _ _ _ _ _ (fun s => ?_)).trans ?_) | (refine (frame_completeStored _ _ _ (fun s => ?_)).trans ?_) | (refine (frame_pealRx _ _ _ _ _ (fun s => ?_)).trans ?_) | split | simp)
  | cons b l ih => unfold formReplies; (try dsimp only); repeat' (first | assumption | (simp [ih]; done) | (refine (frame_foldl _ _ (fun s a => ?_) _).trans ?_) | (refine (frame_admitThen _ _ _ _ _ (fun s => ?_)).trans ?_) | (refine (frame_completeStored _ _ _ (fun s => ?_)).trans ?_) | (refine (frame_pealRx _ _ _ _ _ (fun s => ?_)).trans ?_) | split | simp [ih])

@[simp] theorem formData_frame : ∀ a0 s, frame (formData a0 s) = frame s := by
  intros; unfold formData; simp

@[simp] theorem pumpObj_frame : ∀ a0 s, frame (pumpObj a0 s) = frame s := by
  intros; unfold pumpObj; simp

@[simp] theorem objectReadDone_frame : ∀ a0 a1 s, frame (objectReadDone a0 a1 s) = frame s := by
  intros; unfold objectReadDone; simp

@[simp] theorem objectReadFailed_frame : ∀ a0 s, frame (objectReadFailed a0 s) = frame s := by
  intros; unfold objectReadFailed; simp

@[simp] theorem storeReadDone_frame : ∀ a0 a1 s, frame (storeReadDone a0 a1 s) = frame s := by
  intros; unfold storeReadDone; (try dsimp only); (repeat' split) <;> simp

end Sys2Proof.Machine
end

