-- ==== Sys2Proof/Laws/KeepCipherRows.lean ====
section
/-! SUPPORT. What the operations of Machine/CipherRows.lean leave alone (Laws/Keep.lean). -/
namespace Sys2Proof.Machine

@[simp] theorem cacheKey_frame : ∀ a0 s, frame (cacheKey a0 s) = frame s := by
  intros; unfold cacheKey; simp

@[simp] theorem execKeyReload_frame : ∀ a0 a1 s, Keeps s (execKeyReload a0 a1 s) := by
  intros; unfold execKeyReload; simp

@[simp] theorem execKeyDerive_frame : ∀ a0 s, Keeps s (execKeyDerive a0 s) := by
  intros; refine Keeps.of (frame_runCmd _ _ _ _ _ _ _ _ _ (fun c s => ?_) (fun c s => ?_)) <;> beta_reduce <;> (try dsimp only); repeat' (first | assumption | (simp; done) | (refine (frame_foldl _ _ (fun s a => ?_) _).trans ?_) | (refine (frame_admitThen _ _ _ _ _ (fun s => ?_)).trans ?_) | (refine (frame_completeStored _ _ _ (fun s => ?_)).trans ?_) | (refine (frame_pealRx _ _ _ _ _ (fun s => ?_)).trans ?_) | split | simp)

@[simp] theorem execKeyDestroy_frame : ∀ a0 s, Keeps s (execKeyDestroy a0 s) := by
  intros; refine Keeps.of (frame_runCmd _ _ _ _ _ _ _ _ _ (fun c s => ?_) (fun c s => ?_)) <;> beta_reduce <;> (try dsimp only); repeat' (first | assumption | (simp; done) | (refine (frame_foldl _ _ (fun s a => ?_) _).trans ?_) | (refine (frame_admitThen _ _ _ _ _ (fun s => ?_)).trans ?_) | (refine (frame_completeStored _ _ _ (fun s => ?_)).trans ?_) | (refine (frame_pealRx _ _ _ _ _ (fun s => ?_)).trans ?_) | split | simp)

@[simp] theorem execKeyQuery_frame : ∀ a0 s, Keeps s (execKeyQuery a0 s) := by
  intros; refine Keeps.of (frame_runCmd _ _ _ _ _ _ _ _ _ (fun c s => ?_) (fun c s => ?_)) <;> beta_reduce <;> (try dsimp only); repeat' (first | assumption | (simp; done) | (refine (frame_foldl _ _ (fun s a => ?_) _).trans ?_) | (refine (frame_admitThen _ _ _ _ _ (fun s => ?_)).trans ?_) | (refine (frame_completeStored _ _ _ (fun s => ?_)).trans ?_) | (refine (frame_pealRx _ _ _ _ _ (fun s => ?_)).trans ?_) | split | simp)

@[simp] theorem execCiphDummyRate_frame : ∀ a0 s, Keeps s (execCiphDummyRate a0 s) := by
  intros; refine Keeps.of (frame_runCmd _ _ _ _ _ _ _ _ _ (fun c s => ?_) (fun c s => ?_)) <;> beta_reduce <;> (try dsimp only); repeat' (first | assumption | (simp; done) | (refine (frame_foldl _ _ (fun s a => ?_) _).trans ?_) | (refine (frame_admitThen _ _ _ _ _ (fun s => ?_)).trans ?_) | (refine (frame_completeStored _ _ _ (fun s => ?_)).trans ?_) | (refine (frame_pealRx _ _ _ _ _ (fun s => ?_)).trans ?_) | split | simp)

@[simp] theorem noteRefusal_frame : ∀ a0 a1 s, frame (noteRefusal a0 a1 s) = frame s := by
  intros; unfold noteRefusal; simp

@[simp] theorem refuseOp_frame : ∀ a0 a1 s, frame (refuseOp a0 a1 s) = frame s := by
  intros; unfold refuseOp; (try dsimp only); (repeat' split) <;> simp

@[simp] theorem admitOp_frame : ∀ a0 s, frame (admitOp a0 s) = frame s := by
  intros; unfold admitOp; simp

@[simp] theorem unqueueOp_frame : ∀ a0 s, frame (unqueueOp a0 s) = frame s := by
  intros; unfold unqueueOp; simp

@[simp] theorem opBegins_frame : ∀ a0 s, frame (opBegins a0 s) = frame s := by
  intros; unfold opBegins; (try dsimp only); (repeat' split) <;> simp

@[simp] theorem rebind_frame : ∀ s, frame (rebind s) = frame s := by
  intros; unfold rebind; (try dsimp only); (repeat' split) <;> simp

@[simp] theorem execCipherDispatch_frame : ∀ s, Keeps s (execCipherDispatch s) := by
  intros; unfold execCipherDispatch; (try dsimp only); (repeat' split) <;> simp

@[simp] theorem execTagResult_frame : ∀ a0 s, Keeps s (execTagResult a0 s) := by
  intros; unfold execTagResult; simp

@[simp] theorem releasePacket_frame : ∀ a0 a1 s, frame (releasePacket a0 a1 s) = frame s := by
  intros; unfold releasePacket; simp

@[simp] theorem releaseOrphan_frame : ∀ a0 a1 a2 a3 a4 s, frame (releaseOrphan a0 a1 a2 a3 a4 s) = frame s := by
  intros; unfold releaseOrphan; (try dsimp only); repeat' (first | assumption | (simp; done) | (refine (frame_foldl _ _ (fun s a => ?_) _).trans ?_) | (refine (frame_admitThen _ _ _ _ _ (fun s => ?_)).trans ?_) | (refine (frame_completeStored _ _ _ (fun s => ?_)).trans ?_) | (refine (frame_pealRx _ _ _ _ _ (fun s => ?_)).trans ?_) | split | simp)

@[simp] theorem releaseRecord_frame : ∀ a0 a1 s, frame (releaseRecord a0 a1 s) = frame s := by
  intros; unfold releaseRecord; (try dsimp only); (repeat' split) <;> simp

@[simp] theorem releaseUnit_frame : ∀ a0 a1 a2 s, frame (releaseUnit a0 a1 a2 s) = frame s := by
  intros; unfold releaseUnit; simp

@[simp] theorem execCipherResultRelease_frame : ∀ a0 s, Keeps s (execCipherResultRelease a0 s) := by
  intros; unfold execCipherResultRelease; (try dsimp only); (repeat' split) <;> simp

end Sys2Proof.Machine
end

