-- ==== Sys2Proof/Laws/KeepFiRows.lean ====
section
/-! SUPPORT. What the operations of Machine/FiRows.lean leave alone (Laws/Keep.lean). -/
namespace Sys2Proof.Machine

@[simp] theorem execFiSet_frame : ∀ a0 s, Keeps s (execFiSet a0 s) := by
  intros; refine Keeps.of (frame_runCmd _ _ _ _ _ _ _ _ _ (fun c s => ?_) (fun c s => ?_)) <;> beta_reduce <;> (try dsimp only); repeat' (first | assumption | (simp; done) | (refine (frame_foldl _ _ (fun s a => ?_) _).trans ?_) | (refine (frame_admitThen _ _ _ _ _ (fun s => ?_)).trans ?_) | (refine (frame_completeStored _ _ _ (fun s => ?_)).trans ?_) | (refine (frame_pealRx _ _ _ _ _ (fun s => ?_)).trans ?_) | split | simp)

@[simp] theorem execFiClear_frame : ∀ a0 s, Keeps s (execFiClear a0 s) := by
  intros; refine Keeps.of (frame_runCmd _ _ _ _ _ _ _ _ _ (fun c s => ?_) (fun c s => ?_)) <;> beta_reduce <;> (try dsimp only); repeat' (first | assumption | (simp; done) | (refine (frame_foldl _ _ (fun s a => ?_) _).trans ?_) | (refine (frame_admitThen _ _ _ _ _ (fun s => ?_)).trans ?_) | (refine (frame_completeStored _ _ _ (fun s => ?_)).trans ?_) | (refine (frame_pealRx _ _ _ _ _ (fun s => ?_)).trans ?_) | split | simp)

@[simp] theorem execFiWindowOpen_frame : ∀ a0 s, Keeps s (execFiWindowOpen a0 s) := by
  intros; unfold execFiWindowOpen; simp

@[simp] theorem execFiWindowEnd_frame : ∀ a0 s, Keeps s (execFiWindowEnd a0 s) := by
  intros; unfold execFiWindowEnd; simp

@[simp] theorem execFiHoldRelease_frame : ∀ a0 s, Keeps s (execFiHoldRelease a0 s) := by
  intros; unfold execFiHoldRelease; (try dsimp only); (repeat' split) <;> simp

end Sys2Proof.Machine
end

