-- ==== Sys2Proof/Laws/KeepHostQueues.lean ====
section
/-! SUPPORT. What the operations of Machine/HostQueues.lean leave alone (Laws/Keep.lean). -/
namespace Sys2Proof.Machine

@[simp] theorem takeFetch_frame : ∀ a0 a1 s, frame (takeFetch a0 a1 s) = frame s := by
  intros; unfold takeFetch; simp

@[simp] theorem refuseLength_frame : ∀ a0 a1 a2 s, frame (refuseLength a0 a1 a2 s) = frame s := by
  intros; unfold refuseLength; simp

@[simp] theorem prefetchPacket_frame : ∀ a0 a1 a2 a3 s, frame (prefetchPacket a0 a1 a2 a3 s) = frame s := by
  intros; unfold prefetchPacket; simp

@[simp] theorem execDescriptorFetchComplete_frame : ∀ a0 a1 a2 a3 s, Keeps s (execDescriptorFetchComplete a0 a1 a2 a3 s) := by
  intros; unfold execDescriptorFetchComplete; (try dsimp only); (repeat' split) <;> simp

@[simp] theorem takeBuffer_frame : ∀ a0 a1 s, frame (takeBuffer a0 a1 s) = frame s := by
  intros; unfold takeBuffer; simp

@[simp] theorem writeInbound_frame : ∀ a0 a1 a2 a3 s, frame (writeInbound a0 a1 a2 a3 s) = frame s := by
  intros; unfold writeInbound; (try dsimp only); (repeat' split) <;> simp

@[simp] theorem execRxPacketWrite_frame : ∀ a0 a1 a2 s, Keeps s (execRxPacketWrite a0 a1 a2 s) := by
  intros; unfold execRxPacketWrite; (try dsimp only); (repeat' split) <;> simp

@[simp] theorem writeEntry_frame : ∀ a0 a1 a2 s, frame (writeEntry a0 a1 a2 s) = frame s := by
  intros; unfold writeEntry; (try dsimp only); (repeat' split) <;> simp

@[simp] theorem execCompletionEntryIssue_frame : ∀ a0 a1 s, Keeps s (execCompletionEntryIssue a0 a1 s) := by
  intros; unfold execCompletionEntryIssue; (try dsimp only); (repeat' split) <;> simp

end Sys2Proof.Machine
end

