-- ==== Sys2Proof/Laws/KeepRings.lean ====
section
/-! SUPPORT. What the operations of Machine/Rings.lean leave alone (Laws/Keep.lean). -/
namespace Sys2Proof.Machine

@[simp] theorem execCmdRingPi_frame : ∀ a0 a1 a2 s, Keeps s (execCmdRingPi a0 a1 a2 s) := by
  intros; unfold execCmdRingPi; simp

@[simp] theorem execCmdRingEnable_frame : ∀ a0 a1 a2 s, Keeps s (execCmdRingEnable a0 a1 a2 s) := by
  intros; unfold execCmdRingEnable; simp

@[simp] theorem execCmdRingDisable_frame : ∀ a0 a1 a2 s, Keeps s (execCmdRingDisable a0 a1 a2 s) := by
  intros; unfold execCmdRingDisable; simp

@[simp] theorem execCommandFetchError_frame : ∀ a0 a1 s, Keeps s (execCommandFetchError a0 a1 s) := by
  intros; unfold execCommandFetchError; simp

end Sys2Proof.Machine
end

