-- ==== Sys2Proof/Laws/KeepTrust.lean ====
section
/-! SUPPORT. What the operations of Machine/Trust.lean leave alone (Laws/Keep.lean). -/
namespace Sys2Proof.Machine

@[simp] theorem setSecPort_frame : ∀ a0 a1 s, frame (setSecPort a0 a1 s) = frame s := by
  intros; unfold setSecPort; simp

theorem takeRequest_frame {h type s ws t} (e : takeRequest h type s = some (ws, t)) : frame t = frame s := by
  unfold takeRequest at e
  split at e
  · cases e
  · split at e
    · cases e
    · cases e; simp

@[simp] theorem secResult_frame : ∀ a0 a1 a2 a3 s, frame (secResult a0 a1 a2 a3 s) = frame s := by
  intros; unfold secResult; simp

@[simp] theorem answer_frame : ∀ a0 a1 a2 s, frame (answer a0 a1 a2 s) = frame s := by
  intros; unfold answer; simp

@[simp] theorem readBuffer_frame : ∀ a0 a1 a2 a3 s, frame (readBuffer a0 a1 a2 a3 s) = frame s := by
  intros; unfold readBuffer; simp

@[simp] theorem secureReadFailed_frame : ∀ a0 s, frame (secureReadFailed a0 s) = frame s := by
  intros; unfold secureReadFailed; (try dsimp only); (repeat' split) <;> simp

@[simp] theorem execNonceReq_frame : ∀ a0 s, Keeps s (execNonceReq a0 s) := by
  intro a0 s
  unfold execNonceReq
  split
  · simp
  · rename_i h; have := takeRequest_frame h; repeat' split
    all_goals simp [this]

@[simp] theorem beginVerify_frame : ∀ a0 a1 a2 a3 s, frame (beginVerify a0 a1 a2 a3 s) = frame s := by
  intros; unfold beginVerify; simp

@[simp] theorem execAuth_frame : ∀ a0 a1 s, Keeps s (execAuth a0 a1 s) := by
  intro a0 a1 s
  unfold execAuth
  dsimp only
  split
  · simp
    try (split <;> simp)
  · split
    · simp
    · rename_i h; have := takeRequest_frame h; repeat' split
      all_goals simp [this]

@[simp] theorem execAuthVerified_frame : ∀ a0 s, Keeps s (execAuthVerified a0 s) := by
  intros; unfold execAuthVerified; (try dsimp only); (repeat' split) <;> simp

@[simp] theorem execClose_frame : ∀ a0 s, Keeps s (execClose a0 s) := by
  intro a0 s
  unfold execClose
  split
  · simp
  · rename_i h; have := takeRequest_frame h; repeat' split
    all_goals simp [this]

@[simp] theorem enterField_frame : ∀ s, frame (enterField s) = frame s := by
  intros; unfold enterField; simp

@[simp] theorem enterReturn_frame : ∀ s, frame (enterReturn s) = frame s := by
  intros; unfold enterReturn; simp

@[simp] theorem remeasure_frame : ∀ s, frame (remeasure s) = frame s := by
  intros; unfold remeasure; simp

theorem execLcAdvance_frame : ∀ a s t, execLcAdvance a s = .next t →
    frame t = frame s ∨ ∃ l, lcTarget s.sec.lc l = true ∧
      frame t = (s.pending, s.hbm, s.time.now, l, s.sec.minSvn, s.sets.epoch) := by
  intro a s t h
  unfold execLcAdvance at h
  split at h
  · cases h; exact .inl rfl
  · rename_i ws u hu
    have hf := takeRequest_frame hu
    have hl : u.sec.lc = s.sec.lc := congrArg (fun x => x.2.2.2.1) hf
    dsimp only at h
    split at h
    · cases h; left; simp [hf]
    · split at h
      · cases h; left; simp [hf]
      · rename_i hc
        right
        refine ⟨reqWord ws 1, ?_, ?_⟩
        · simp only [Bool.or_eq_true, Bool.not_eq_true', not_or, Bool.not_eq_false] at hc
          rw [← hl]; exact hc.2
        · simp only [frame, Prod.mk.injEq] at hf
          obtain ⟨h1, h2, h3, -, h5, h6⟩ := hf
          rw [← h1, ← h2, ← h3, ← h5, ← h6]
          cases h
          repeat' split
          all_goals simp

@[simp] theorem importRoot_frame : ∀ a0 a1 a2 s, frame (importRoot a0 a1 a2 s) = frame s := by
  intros; unfold importRoot; (try dsimp only); (repeat' split) <;> simp

@[simp] theorem execRootImport_frame : ∀ a0 a1 s, Keeps s (execRootImport a0 a1 s) := by
  intro a0 a1 s
  unfold execRootImport
  dsimp only
  split
  · simp
    try (split <;> simp)
  · split
    · simp
    · rename_i h; have := takeRequest_frame h; repeat' split
      all_goals simp [this]

@[simp] theorem execKemKeyGet_frame : ∀ a0 a1 s, Keeps s (execKemKeyGet a0 a1 s) := by
  intro a0 a1 s
  unfold execKemKeyGet
  split
  · simp
  · rename_i h; have := takeRequest_frame h; repeat' split
    all_goals simp [this]

@[simp] theorem execFuseProgram_frame : ∀ a0 s, Keeps s (execFuseProgram a0 s) := by
  intro a0 s
  unfold execFuseProgram
  split
  · simp
  · rename_i h; have := takeRequest_frame h; dsimp only; repeat' split
    all_goals simp [this]

@[simp] theorem slotsOff_frame : ∀ s, frame (slotsOff s) = frame s := by
  intros; unfold slotsOff; (try dsimp only); repeat' (first | assumption | (simp; done) | (refine (frame_foldl _ _ (fun s a => ?_) _).trans ?_) | (refine (frame_admitThen _ _ _ _ _ (fun s => ?_)).trans ?_) | (refine (frame_completeStored _ _ _ (fun s => ?_)).trans ?_) | (refine (frame_pealRx _ _ _ _ _ (fun s => ?_)).trans ?_) | split | simp)

theorem execScrapZeroise_frame : ∀ s t, execScrapZeroise s = .next t →
    frame t = frame s ∨ frame t = (s.pending, {}, s.time.now, s.sec.lc, s.sec.minSvn, s.sets.epoch) := by
  intro s t h
  unfold execScrapZeroise at h
  split at h
  · cases h; exact .inl rfl
  · right
    have hz := zeroiseMemories_frame (zeroiseKeys (slotsOff (enterSafe s)))
    have hk : frame (zeroiseKeys (slotsOff (enterSafe s))) = frame s := by simp
    dsimp only at h
    generalize zeroiseMemories (zeroiseKeys (slotsOff (enterSafe s))) = u at *
    generalize zeroiseKeys (slotsOff (enterSafe s)) = v at *
    cases h
    simp only [frame, Prod.mk.injEq] at hz hk ⊢
    simp [hz, hk]

@[simp] theorem execEntropyHealthFail_frame : ∀ s, Keeps s (execEntropyHealthFail s) := by
  intros; unfold execEntropyHealthFail; simp

@[simp] theorem execEntropyHealthRecover_frame : ∀ s, Keeps s (execEntropyHealthRecover s) := by
  intros; unfold execEntropyHealthRecover; simp

@[simp] theorem execEntropyReseed_frame : ∀ s, Keeps s (execEntropyReseed s) := by
  intros; unfold execEntropyReseed; simp

@[simp] theorem spdmError_frame : ∀ a0 a1 a2 s, frame (spdmError a0 a1 a2 s) = frame s := by
  intros; unfold spdmError; simp

@[simp] theorem spdmReply_frame : ∀ a0 a1 a2 a3 s, frame (spdmReply a0 a1 a2 a3 s) = frame s := by
  intros; unfold spdmReply; simp

@[simp] theorem execGetVersion_frame : ∀ a0 s, Keeps s (execGetVersion a0 s) := by
  intros; unfold execGetVersion; simp

@[simp] theorem execGetCapabilities_frame : ∀ a0 a1 s, Keeps s (execGetCapabilities a0 a1 s) := by
  intros; unfold execGetCapabilities; simp

@[simp] theorem execNegotiateAlgorithms_frame : ∀ a0 a1 a2 s, Keeps s (execNegotiateAlgorithms a0 a1 a2 s) := by
  intros; unfold execNegotiateAlgorithms; simp

@[simp] theorem execGetDigests_frame : ∀ a0 s, Keeps s (execGetDigests a0 s) := by
  intros; unfold execGetDigests; simp

@[simp] theorem execGetCertificate_frame : ∀ a0 a1 a2 a3 s, Keeps s (execGetCertificate a0 a1 a2 a3 s) := by
  intros; unfold execGetCertificate; simp

@[simp] theorem execChallenge_frame : ∀ a0 a1 a2 s, Keeps s (execChallenge a0 a1 a2 s) := by
  intros; unfold execChallenge; simp

@[simp] theorem execGetMeasurements_frame : ∀ a0 a1 a2 a3 s, Keeps s (execGetMeasurements a0 a1 a2 a3 s) := by
  intros; unfold execGetMeasurements; simp

end Sys2Proof.Machine
end

