-- ==== Sys2Proof/Laws/KeepHostRows.lean ====
section
/-! SUPPORT. What the operations of Machine/HostRows.lean leave alone (Laws/Keep.lean). -/
namespace Sys2Proof.Machine

@[simp] theorem execHostDbTx_frame : ∀ a0 a1 a2 s, Keeps s (execHostDbTx a0 a1 a2 s) := by
  intros; unfold execHostDbTx; simp

@[simp] theorem execHostDbRx_frame : ∀ a0 a1 a2 s, Keeps s (execHostDbRx a0 a1 a2 s) := by
  intros; unfold execHostDbRx; simp

@[simp] theorem execHostDbCq_frame : ∀ a0 a1 a2 s, Keeps s (execHostDbCq a0 a1 a2 s) := by
  intros; unfold execHostDbCq; simp

@[simp] theorem execHostQRingEnable_frame : ∀ a0 a1 a2 s, Keeps s (execHostQRingEnable a0 a1 a2 s) := by
  intros; unfold execHostQRingEnable; simp

@[simp] theorem execHostQRingDisable_frame : ∀ a0 a1 a2 s, Keeps s (execHostQRingDisable a0 a1 a2 s) := by
  intros; unfold execHostQRingDisable; simp

@[simp] theorem execHostEvtAck_frame : ∀ a0 a1 s, Keeps s (execHostEvtAck a0 a1 s) := by
  intros; unfold execHostEvtAck; simp

@[simp] theorem execHostPuntAck_frame : ∀ a0 a1 s, Keeps s (execHostPuntAck a0 a1 s) := by
  intros; unfold execHostPuntAck; simp

@[simp] theorem execHostIntxStsClear_frame : ∀ a0 a1 s, Keeps s (execHostIntxStsClear a0 a1 s) := by
  intros; unfold execHostIntxStsClear; simp

@[simp] theorem execMessagePost_frame : ∀ a0 a1 a2 s, Keeps s (execMessagePost a0 a1 a2 s) := by
  intros; unfold execMessagePost; (try dsimp only); (repeat' split) <;> simp

@[simp] theorem deliverAck_frame : ∀ a0 s, frame (deliverAck a0 s) = frame s := by
  intros; unfold deliverAck; simp

@[simp] theorem execMboxAck_frame : ∀ a0 a1 s, Keeps s (execMboxAck a0 a1 s) := by
  intros; unfold execMboxAck; simp

@[simp] theorem execMailboxTimeout_frame : ∀ a0 a1 s, Keeps s (execMailboxTimeout a0 a1 s) := by
  intros; unfold execMailboxTimeout; (try dsimp only); (repeat' split) <;> simp

@[simp] theorem execMboxDomainDownAccess_frame : ∀ a0 a1 s, Keeps s (execMboxDomainDownAccess a0 a1 s) := by
  intros; unfold execMboxDomainDownAccess; simp

@[simp] theorem execMboxNoticePost_frame : ∀ a0 s, Keeps s (execMboxNoticePost a0 s) := by
  intros; unfold execMboxNoticePost; (try dsimp only); (repeat' split) <;> simp

@[simp] theorem execBar0BadAccess_frame : ∀ a0 a1 s, Keeps s (execBar0BadAccess a0 a1 s) := by
  intros; unfold execBar0BadAccess; simp

theorem execBar2Request_frame : ∀ a b c s t, execBar2Request a b c s = .next t →
    frame t = frame s ∨ ∃ k bs, frame t =
      (s.pending, Memory.writeAll s.hbm k bs, s.time.now, s.sec.lc, s.sec.minSvn, s.sets.epoch) := by
  intro a b c s t h
  unfold execBar2Request at h
  dsimp only at h
  repeat' split at h
  all_goals first
    | (cases h; left; simp; done)
    | (cases h; right; exact ⟨_, _, rfl⟩)

@[simp] theorem cfgWrite_frame : ∀ a0 a1 a2 s, frame (cfgWrite a0 a1 a2 s) = frame s := by
  intros; unfold cfgWrite; simp

@[simp] theorem sendPending_frame : ∀ a0 s, frame (sendPending a0 s) = frame s := by
  intros; unfold sendPending; (try dsimp only); repeat' (first | assumption | (simp; done) | (refine (frame_foldl _ _ (fun s a => ?_) _).trans ?_) | (refine (frame_admitThen _ _ _ _ _ (fun s => ?_)).trans ?_) | (refine (frame_completeStored _ _ _ (fun s => ?_)).trans ?_) | (refine (frame_pealRx _ _ _ _ _ (fun s => ?_)).trans ?_) | split | simp)

@[simp] theorem execConfigRequest_frame : ∀ a0 a1 s, Keeps s (execConfigRequest a0 a1 s) := by
  intros; unfold execConfigRequest; (try dsimp only); (repeat' split) <;> simp

@[simp] theorem commandReadsLost_frame : ∀ a0 s, frame (commandReadsLost a0 s) = frame s := by
  intros; unfold commandReadsLost; simp

@[simp] theorem execBusMasterDisable_frame : ∀ a0 s, Keeps s (execBusMasterDisable a0 s) := by
  intros; unfold execBusMasterDisable; simp

@[simp] theorem execBusMasterEnable_frame : ∀ a0 s, Keeps s (execBusMasterEnable a0 s) := by
  intros; unfold execBusMasterEnable; simp

@[simp] theorem execFunctionLevelReset_frame : ∀ a0 s, Keeps s (execFunctionLevelReset a0 s) := by
  intros; unfold execFunctionLevelReset; simp

@[simp] theorem execFunctionLevelResetDone_frame : ∀ a0 s, Keeps s (execFunctionLevelResetDone a0 s) := by
  intros; unfold execFunctionLevelResetDone; simp

@[simp] theorem beginVfs_frame : ∀ a0 a1 a2 s, frame (beginVfs a0 a1 a2 s) = frame s := by
  intro a0 a1 a2 s
  induction a2 generalizing a0 a1 s with
  | zero => unfold beginVfs; (try dsimp only); repeat' (first | assumption | (simp; done) | (refine (frame_foldl _ _ (fun s a => ?_) _).trans ?_) | (refine (frame_admitThen _ _ _ _ _ (fun s => ?_)).trans ?_) | (refine (frame_completeStored _ _ _ (fun s => ?_)).trans ?_) | (refine (frame_pealRx _ _ _ _ _ (fun s => ?_)).trans ?_) | split | simp)
  | succ n ih => unfold beginVfs; (try dsimp only); repeat' (first | assumption | (simp [ih]; done) | (refine (frame_foldl _ _ (fun s a => ?_) _).trans ?_) | (refine (frame_admitThen _ _ _ _ _ (fun s => ?_)).trans ?_) | (refine (frame_completeStored _ _ _ (fun s => ?_)).trans ?_) | (refine (frame_pealRx _ _ _ _ _ (fun s => ?_)).trans ?_) | split | simp [ih])

@[simp] theorem execVfEnableChange_frame : ∀ a0 a1 a2 s, Keeps s (execVfEnableChange a0 a1 a2 s) := by
  intros; unfold execVfEnableChange; simp

@[simp] theorem execDevicePowerStateChange_frame : ∀ a0 a1 s, Keeps s (execDevicePowerStateChange a0 a1 s) := by
  intros; unfold execDevicePowerStateChange; simp

@[simp] theorem execMsixUnmask_frame : ∀ a0 a1 s, Keeps s (execMsixUnmask a0 a1 s) := by
  intros; unfold execMsixUnmask; simp

@[simp] theorem execHostLinkLoss_frame : ∀ a0 a1 s, Keeps s (execHostLinkLoss a0 a1 s) := by
  intros; unfold execHostLinkLoss; simp

@[simp] theorem execHostLinkUp_frame : ∀ a0 s, Keeps s (execHostLinkUp a0 s) := by
  intros; unfold execHostLinkUp; simp

@[simp] theorem stopObjectQueue_frame : ∀ a0 s, frame (stopObjectQueue a0 s) = frame s := by
  intros; unfold stopObjectQueue; (try dsimp only); (repeat' split) <;> simp

@[simp] theorem readFailed_frame : ∀ a0 s, frame (readFailed a0 s) = frame s := by
  intros; unfold readFailed; (try dsimp only); (repeat' split) <;> simp

@[simp] theorem execReadCompletion_frame : ∀ a0 a1 a2 a3 s, Keeps s (execReadCompletion a0 a1 a2 a3 s) := by
  intros; unfold execReadCompletion; (try dsimp only); (repeat' split) <;> simp

@[simp] theorem execCompletionTimeout_frame : ∀ a0 a1 a2 s, Keeps s (execCompletionTimeout a0 a1 a2 s) := by
  intros; unfold execCompletionTimeout; (try dsimp only); (repeat' split) <;> simp

@[simp] theorem execTagQuarantineEnd_frame : ∀ a0 a1 a2 s, Keeps s (execTagQuarantineEnd a0 a1 a2 s) := by
  intros; unfold execTagQuarantineEnd; simp

@[simp] theorem execHostSchedulerSelect_frame : ∀ a0 s, Keeps s (execHostSchedulerSelect a0 s) := by
  intro k s
  unfold execHostSchedulerSelect
  split
  · simp
  · extract_lets s1
    have h1 : frame s1 = frame s := frame_foldl _ _ (fun s n => pumpObj_frame n s) _
    split
    · simp [h1]
    · split
      · rename_i h
        have := congrArg (fun r => frame r.2) h
        simp only [selectFrom_frame] at this
        rw [keeps_next, ← this, h1]
      · rename_i h
        have := congrArg (fun r => frame r.2) h
        simp only [selectFrom_frame] at this
        split
        · rw [keeps_next, ← this, h1]
        · rw [keeps_next, takeSelected_frame, ← this, h1]

end Sys2Proof.Machine
end

