-- ==== Sys2Proof/Laws/KeepKilnRows.lean ====
section
/-! SUPPORT. What the operations of Machine/KilnRows.lean leave alone (Laws/Keep.lean). -/
namespace Sys2Proof.Machine

@[simp] theorem kilnResult_frame : ∀ a0 a1 s, frame (kilnResult a0 a1 s) = frame s := by
  intros; unfold kilnResult; simp

@[simp] theorem retirePhys_frame : ∀ a0 s, frame (retirePhys a0 s) = frame s := by
  intros; unfold retirePhys; simp

@[simp] theorem postSpareRetired_frame : ∀ a0 s, frame (postSpareRetired a0 s) = frame s := by
  intros; unfold postSpareRetired; simp

@[simp] theorem runResult_frame : ∀ a0 a1 s, frame (runResult a0 a1 s) = frame s := by
  intros; unfold runResult; simp

@[simp] theorem outAgain_frame : ∀ a0 s, frame (outAgain a0 s) = frame s := by
  intros; unfold outAgain; simp

@[simp] theorem rotationsReset_frame : ∀ s, frame (rotationsReset s) = frame s := by
  intros; unfold rotationsReset; (try dsimp only); repeat' (first | assumption | (simp; done) | (refine (frame_foldl _ _ (fun s a => ?_) _).trans ?_) | (refine (frame_admitThen _ _ _ _ _ (fun s => ?_)).trans ?_) | (refine (frame_completeStored _ _ _ (fun s => ?_)).trans ?_) | (refine (frame_pealRx _ _ _ _ _ (fun s => ?_)).trans ?_) | split | simp)

@[simp] theorem startUpFail_frame : ∀ a0 a1 s, frame (startUpFail a0 a1 s) = frame s := by
  intros; unfold startUpFail; (try dsimp only); (repeat' split) <;> simp

@[simp] theorem startUpPasses_frame : ∀ a0 s, frame (startUpPasses a0 s) = frame s := by
  intros; unfold startUpPasses; simp

theorem execStartUpTest_frame : ∀ l s t, execStartUpTest l s = .next t → frame t = frame s ∨ frame t =
    (s.pending, stacksOverwritten s.kiln.blocks s.hbm, s.time.now, s.sec.lc, s.sec.minSvn, s.sets.epoch) := by
  intro l s t h
  unfold execStartUpTest at h
  split at h
  · cases h; exact .inl rfl
  · right
    have h1 : frame (rotationsReset { s with hbm := stacksOverwritten s.kiln.blocks s.hbm }) =
        (s.pending, stacksOverwritten s.kiln.blocks s.hbm, s.time.now, s.sec.lc, s.sec.minSvn, s.sets.epoch) :=
      rotationsReset_frame _
    have hf (l : List (Nat × Nat × Nat)) (s : State) : frame (l.foldl (fun s f =>
        if s.kiln.blocks.contains f.1 || s.kiln.gone.contains f.1 then s else startUpFail f.1 f.2 s) s) = frame s := by
      refine frame_foldl _ _ (fun s f => ?_) _
      split
      · rfl
      · exact startUpFail_frame ..
    dsimp only at h
    split at h
    · cases h; rw [hf, startUpPasses_frame, h1]
    · cases h
      exact (frame_mk ..).trans (((hf _ _).trans (startUpPasses_frame _ _)).trans h1)

@[simp] theorem switchRot_frame : ∀ a0 s, frame (switchRot a0 s) = frame s := by
  intros; unfold switchRot; (try dsimp only); (repeat' split) <;> simp

@[simp] theorem beginMove_frame : ∀ a0 a1 a2 a3 s, frame (beginMove a0 a1 a2 a3 s) = frame s := by
  intros; unfold beginMove; simp

@[simp] theorem sparePassed_frame : ∀ a0 s, frame (sparePassed a0 s) = frame s := by
  intros; unfold sparePassed; simp

@[simp] theorem testSpare_frame : ∀ a0 a1 s, frame (testSpare a0 a1 s) = frame s := by
  intros; unfold testSpare; simp

@[simp] theorem rotStep_frame : ∀ a0 a1 a2 s, frame (rotStep a0 a1 a2 s) = frame s := by
  intros; unfold rotStep; (try dsimp only); (repeat' split) <;> simp

@[simp] theorem execKilnBankStep_frame : ∀ a0 s, Keeps s (execKilnBankStep a0 s) := by
  intros; unfold execKilnBankStep; simp

@[simp] theorem execKilnBufferStep_frame : ∀ s, Keeps s (execKilnBufferStep s) := by
  intros; unfold execKilnBufferStep; simp

@[simp] theorem execKilnBufferCopy_frame : ∀ s, Keeps s (execKilnBufferCopy s) := by
  intros; unfold execKilnBufferCopy; (try dsimp only); (repeat' split) <;> simp

@[simp] theorem execKilnCopyDone_frame : ∀ a0 s, Keeps s (execKilnCopyDone a0 s) := by
  intros; unfold execKilnCopyDone; (try dsimp only); (repeat' split) <;> simp

@[simp] theorem coreInstant_frame : ∀ s, frame (coreInstant s) = frame s := by
  intros; unfold coreInstant; simp

@[simp] theorem coreStops_frame : ∀ a0 s, frame (coreStops a0 s) = frame s := by
  intros; unfold coreStops; simp

@[simp] theorem execKilnCipherStep_frame : ∀ s, Keeps s (execKilnCipherStep s) := by
  intros; unfold execKilnCipherStep; (try dsimp only); repeat' (first | assumption | (simp; done) | (refine (frame_foldl _ _ (fun s a => ?_) _).trans ?_) | (refine (frame_admitThen _ _ _ _ _ (fun s => ?_)).trans ?_) | (refine (frame_completeStored _ _ _ (fun s => ?_)).trans ?_) | (refine (frame_pealRx _ _ _ _ _ (fun s => ?_)).trans ?_) | split | simp)

@[simp] theorem execKilnCoreDrained_frame : ∀ s, Keeps s (execKilnCoreDrained s) := by
  intros; unfold execKilnCoreDrained; (try dsimp only); (repeat' split) <;> simp

@[simp] theorem runSkipped_frame : ∀ a0 s, frame (runSkipped a0 s) = frame s := by
  intros; unfold runSkipped; (try dsimp only); (repeat' split) <;> simp

@[simp] theorem execKilnCipherDrainTimeout_frame : ∀ s, Keeps s (execKilnCipherDrainTimeout s) := by
  intros; unfold execKilnCipherDrainTimeout; (try dsimp only); (repeat' split) <;> simp

@[simp] theorem stopWay_frame : ∀ a0 a1 a2 s, frame (stopWay a0 a1 a2 s) = frame s := by
  intros; unfold stopWay; simp

@[simp] theorem execKilnFragWayStep_frame : ∀ a0 s, Keeps s (execKilnFragWayStep a0 s) := by
  intros; unfold execKilnFragWayStep; (try dsimp only); (repeat' split) <;> simp

@[simp] theorem execKilnWayDrainTimeout_frame : ∀ a0 s, Keeps s (execKilnWayDrainTimeout a0 s) := by
  intros; unfold execKilnWayDrainTimeout; (try dsimp only); repeat' (first | assumption | (simp; done) | (refine (frame_foldl _ _ (fun s a => ?_) _).trans ?_) | (refine (frame_admitThen _ _ _ _ _ (fun s => ?_)).trans ?_) | (refine (frame_completeStored _ _ _ (fun s => ?_)).trans ?_) | (refine (frame_pealRx _ _ _ _ _ (fun s => ?_)).trans ?_) | split | simp)

@[simp] theorem abandonRot_frame : ∀ a0 s, frame (abandonRot a0 s) = frame s := by
  intros; unfold abandonRot; (try dsimp only); (repeat' split) <;> simp

@[simp] theorem rotTest_frame : ∀ a0 a1 s, frame (rotTest a0 a1 s) = frame s := by
  intros; unfold rotTest; (try dsimp only); (repeat' split) <;> simp

@[simp] theorem beginTest_frame : ∀ a0 a1 s, frame (beginTest a0 a1 s) = frame s := by
  intros; unfold beginTest; (try dsimp only); (repeat' split) <;> simp

@[simp] theorem execTargetedTestStart_frame : ∀ a0 s, Keeps s (execTargetedTestStart a0 s) := by
  intros; unfold execTargetedTestStart; simp

@[simp] theorem spareDone_frame : ∀ a0 a1 s, frame (spareDone a0 a1 s) = frame s := by
  intros; unfold spareDone; (try dsimp only); (repeat' split) <;> simp

@[simp] theorem movedDone_frame : ∀ a0 a1 a2 s, frame (movedDone a0 a1 a2 s) = frame s := by
  intros; unfold movedDone; (try dsimp only); (repeat' split) <;> simp

@[simp] theorem blockFails_frame : ∀ a0 s, frame (blockFails a0 s) = frame s := by
  intros; unfold blockFails; simp

@[simp] theorem blockTested_frame : ∀ a0 a1 a2 s, frame (blockTested a0 a1 a2 s) = frame s := by
  intros; unfold blockTested; (try dsimp only); (repeat' split) <;> simp

@[simp] theorem execKilnTestDone_frame : ∀ a0 a1 s, Keeps s (execKilnTestDone a0 a1 s) := by
  intros; unfold execKilnTestDone; (try dsimp only); (repeat' split) <;> simp

@[simp] theorem execPatrolScrub_frame : ∀ a0 a1 s, Keeps s (execPatrolScrub a0 a1 s) := by
  intros; unfold execPatrolScrub; simp

@[simp] theorem execCipherCoreCheckError_frame : ∀ a0 s, Keeps s (execCipherCoreCheckError a0 s) := by
  intros; unfold execCipherCoreCheckError; (try dsimp only); repeat' (first | assumption | (simp; done) | (refine (frame_foldl _ _ (fun s a => ?_) _).trans ?_) | (refine (frame_admitThen _ _ _ _ _ (fun s => ?_)).trans ?_) | (refine (frame_completeStored _ _ _ (fun s => ?_)).trans ?_) | (refine (frame_pealRx _ _ _ _ _ (fun s => ?_)).trans ?_) | split | simp)

@[simp] theorem execKilnStatus_frame : ∀ a0 s, Keeps s (execKilnStatus a0 s) := by
  intros; refine Keeps.of (frame_runCmd _ _ _ _ _ _ _ _ _ (fun c s => ?_) (fun c s => ?_)) <;> beta_reduce <;> (try dsimp only); repeat' (first | assumption | (simp; done) | (refine (frame_foldl _ _ (fun s a => ?_) _).trans ?_) | (refine (frame_admitThen _ _ _ _ _ (fun s => ?_)).trans ?_) | (refine (frame_completeStored _ _ _ (fun s => ?_)).trans ?_) | (refine (frame_pealRx _ _ _ _ _ (fun s => ?_)).trans ?_) | split | simp)

@[simp] theorem execKilnSchedule_frame : ∀ a0 s, Keeps s (execKilnSchedule a0 s) := by
  intros; refine Keeps.of (frame_runCmd _ _ _ _ _ _ _ _ _ (fun c s => ?_) (fun c s => ?_)) <;> beta_reduce <;> (try dsimp only); repeat' (first | assumption | (simp; done) | (refine (frame_foldl _ _ (fun s a => ?_) _).trans ?_) | (refine (frame_admitThen _ _ _ _ _ (fun s => ?_)).trans ?_) | (refine (frame_completeStored _ _ _ (fun s => ?_)).trans ?_) | (refine (frame_pealRx _ _ _ _ _ (fun s => ?_)).trans ?_) | split | simp)

@[simp] theorem execKilnRun_frame : ∀ a0 s, Keeps s (execKilnRun a0 s) := by
  intros; refine Keeps.of (frame_runCmd _ _ _ _ _ _ _ _ _ (fun c s => ?_) (fun c s => ?_)) <;> beta_reduce <;> (try dsimp only); repeat' (first | assumption | (simp; done) | (refine (frame_foldl _ _ (fun s a => ?_) _).trans ?_) | (refine (frame_admitThen _ _ _ _ _ (fun s => ?_)).trans ?_) | (refine (frame_completeStored _ _ _ (fun s => ?_)).trans ?_) | (refine (frame_pealRx _ _ _ _ _ (fun s => ?_)).trans ?_) | split | simp)

@[simp] theorem endHold_frame : ∀ s, frame (endHold s) = frame s := by
  intro s
  unfold endHold
  generalize s.kiln.holds.filter (fun h => retires s h) = free
  dsimp only
  split
  · rfl
  · generalize hu : List.foldl _ _ free = u
    have h2 : frame u = frame s := by
      rw [← hu]
      refine (frame_foldl _ _ (fun s h => ?_) _).trans (frame_mk ..)
      split
      · exact retireLogical_frame ..
      · exact retireBlock_frame ..
    rw [← h2]
    repeat' split
    · rfl
    · rw [regionsReleased_frame, cacheInvalidate_frame, setsEmptied_frame]
      exact frame_mk ..
    · exact frame_mk ..

@[simp] theorem execFailPolicy_frame : ∀ a0 s, Keeps s (execFailPolicy a0 s) := by
  intros; refine Keeps.of (frame_runCmd _ _ _ _ _ _ _ _ _ (fun c s => ?_) (fun c s => ?_)) <;> beta_reduce <;> (try dsimp only); repeat' (first | assumption | (simp; done) | (refine (frame_foldl _ _ (fun s a => ?_) _).trans ?_) | (refine (frame_admitThen _ _ _ _ _ (fun s => ?_)).trans ?_) | (refine (frame_completeStored _ _ _ (fun s => ?_)).trans ?_) | (refine (frame_pealRx _ _ _ _ _ (fun s => ?_)).trans ?_) | split | simp)

end Sys2Proof.Machine
end

