-- ==== Sys2Proof/Laws/KeepPealRows.lean ====
section
/-! SUPPORT. What the operations of Machine/PealRows.lean leave alone (Laws/Keep.lean). -/
namespace Sys2Proof.Machine

@[simp] theorem setPeal_frame : ∀ a0 s, frame (setPeal a0 s) = frame s := by
  intros; unfold setPeal; simp

@[simp] theorem pealCnt_frame : ∀ a0 s, frame (pealCnt a0 s) = frame s := by
  intros; unfold pealCnt; simp

@[simp] theorem sendPeal_frame : ∀ a0 a1 a2 s, frame (sendPeal a0 a1 a2 s) = frame s := by
  intros; unfold sendPeal; simp

@[simp] theorem sendToken_frame : ∀ a0 a1 a2 a3 s, frame (sendToken a0 a1 a2 a3 s) = frame s := by
  intros; unfold sendToken; simp

@[simp] theorem passToken_frame : ∀ a0 s, frame (passToken a0 s) = frame s := by
  intros; unfold passToken; simp

@[simp] theorem visitFrame_frame : ∀ a0 a1 a2 s, frame (visitFrame a0 a1 a2 s) = frame s := by
  intros; unfold visitFrame; simp

@[simp] theorem pealStop_frame : ∀ s, frame (pealStop s) = frame s := by
  intros; unfold pealStop; simp

@[simp] theorem visitTail_frame : ∀ s, frame (visitTail s) = frame s := by
  intros; unfold visitTail; (try dsimp only); (repeat' split) <;> simp

@[simp] theorem visitSolicit_frame : ∀ s, frame (visitSolicit s) = frame s := by
  intros; unfold visitSolicit; simp

@[simp] theorem visit_frame : ∀ s, frame (visit s) = frame s := by
  intros; unfold visit; (try dsimp only); (repeat' split) <;> simp

@[simp] theorem holdToken_frame : ∀ s, frame (holdToken s) = frame s := by
  intros; unfold holdToken; simp

@[simp] theorem postJoined_frame : ∀ a0 s, frame (postJoined a0 s) = frame s := by
  intros; unfold postJoined; simp

@[simp] theorem becomeMember_frame : ∀ a0 s, frame (becomeMember a0 s) = frame s := by
  intros; unfold becomeMember; simp

@[simp] theorem startContend_frame : ∀ a0 a1 a2 s, frame (startContend a0 a1 a2 s) = frame s := by
  intros; unfold startContend; simp

@[simp] theorem restartContend_frame : ∀ s, frame (restartContend s) = frame s := by
  intros; unfold restartContend; (try dsimp only); (repeat' split) <;> simp

@[simp] theorem execPealContendSend_frame : ∀ a0 s, Keeps s (execPealContendSend a0 s) := by
  intros; unfold execPealContendSend; (try dsimp only); (repeat' split) <;> simp

@[simp] theorem execPealSilence_frame : ∀ s, Keeps s (execPealSilence s) := by
  intros; unfold execPealSilence; simp

@[simp] theorem execPealSuccessorWatch_frame : ∀ s, Keeps s (execPealSuccessorWatch s) := by
  intros; unfold execPealSuccessorWatch; (try dsimp only); (repeat' split) <;> simp

@[simp] theorem postTokenLost_frame : ∀ a0 s, frame (postTokenLost a0 s) = frame s := by
  intros; unfold postTokenLost; simp

@[simp] theorem execPealTokenTimeout_frame : ∀ s, Keeps s (execPealTokenTimeout s) := by
  intros; unfold execPealTokenTimeout; (try dsimp only); (repeat' split) <;> simp

@[simp] theorem execPealJoinWindowEnd_frame : ∀ s, Keeps s (execPealJoinWindowEnd s) := by
  intros; unfold execPealJoinWindowEnd; (try dsimp only); (repeat' split) <;> simp

@[simp] theorem duplicateId_frame : ∀ s, frame (duplicateId s) = frame s := by
  intros; unfold duplicateId; simp

theorem frame_pealRx (t b bad act s) (h : ∀ s, frame (act s) = frame s) : frame (pealRx t b bad act s) = frame s := by
  unfold pealRx; dsimp only; repeat' split
  all_goals simp [h]

@[simp] theorem execToken_frame : ∀ a0 a1 s, Keeps s (execToken a0 a1 s) := by
  intros; unfold execToken; (try dsimp only); repeat' (first | assumption | (simp; done) | (refine (frame_foldl _ _ (fun s a => ?_) _).trans ?_) | (refine (frame_admitThen _ _ _ _ _ (fun s => ?_)).trans ?_) | (refine (frame_completeStored _ _ _ (fun s => ?_)).trans ?_) | (refine (frame_pealRx _ _ _ _ _ (fun s => ?_)).trans ?_) | split | simp)

@[simp] theorem execSolicit_frame : ∀ a0 a1 s, Keeps s (execSolicit a0 a1 s) := by
  intros; unfold execSolicit; (try dsimp only); repeat' (first | assumption | (simp; done) | (refine (frame_foldl _ _ (fun s a => ?_) _).trans ?_) | (refine (frame_admitThen _ _ _ _ _ (fun s => ?_)).trans ?_) | (refine (frame_completeStored _ _ _ (fun s => ?_)).trans ?_) | (refine (frame_pealRx _ _ _ _ _ (fun s => ?_)).trans ?_) | split | simp)

@[simp] theorem execJoinReq_frame : ∀ a0 a1 s, Keeps s (execJoinReq a0 a1 s) := by
  intros; unfold execJoinReq; (try dsimp only); repeat' (first | assumption | (simp; done) | (refine (frame_foldl _ _ (fun s a => ?_) _).trans ?_) | (refine (frame_admitThen _ _ _ _ _ (fun s => ?_)).trans ?_) | (refine (frame_completeStored _ _ _ (fun s => ?_)).trans ?_) | (refine (frame_pealRx _ _ _ _ _ (fun s => ?_)).trans ?_) | split | simp)

@[simp] theorem execJoinAck_frame : ∀ a0 a1 s, Keeps s (execJoinAck a0 a1 s) := by
  intros; unfold execJoinAck; (try dsimp only); repeat' (first | assumption | (simp; done) | (refine (frame_foldl _ _ (fun s a => ?_) _).trans ?_) | (refine (frame_admitThen _ _ _ _ _ (fun s => ?_)).trans ?_) | (refine (frame_completeStored _ _ _ (fun s => ?_)).trans ?_) | (refine (frame_pealRx _ _ _ _ _ (fun s => ?_)).trans ?_) | split | simp)

@[simp] theorem execClaim_frame : ∀ a0 a1 s, Keeps s (execClaim a0 a1 s) := by
  intros; unfold execClaim; (try dsimp only); repeat' (first | assumption | (simp; done) | (refine (frame_foldl _ _ (fun s a => ?_) _).trans ?_) | (refine (frame_admitThen _ _ _ _ _ (fun s => ?_)).trans ?_) | (refine (frame_completeStored _ _ _ (fun s => ?_)).trans ?_) | (refine (frame_pealRx _ _ _ _ _ (fun s => ?_)).trans ?_) | split | simp)

@[simp] theorem execLeave_frame : ∀ a0 a1 s, Keeps s (execLeave a0 a1 s) := by
  intros; unfold execLeave; (try dsimp only); repeat' (first | assumption | (simp; done) | (refine (frame_foldl _ _ (fun s a => ?_) _).trans ?_) | (refine (frame_admitThen _ _ _ _ _ (fun s => ?_)).trans ?_) | (refine (frame_completeStored _ _ _ (fun s => ?_)).trans ?_) | (refine (frame_pealRx _ _ _ _ _ (fun s => ?_)).trans ?_) | split | simp)

@[simp] theorem execFireAnnounce_frame : ∀ a0 a1 s, Keeps s (execFireAnnounce a0 a1 s) := by
  intros; unfold execFireAnnounce; (try dsimp only); repeat' (first | assumption | (simp; done) | (refine (frame_foldl _ _ (fun s a => ?_) _).trans ?_) | (refine (frame_admitThen _ _ _ _ _ (fun s => ?_)).trans ?_) | (refine (frame_completeStored _ _ _ (fun s => ?_)).trans ?_) | (refine (frame_pealRx _ _ _ _ _ (fun s => ?_)).trans ?_) | split | simp)

@[simp] theorem execFireCancel_frame : ∀ a0 a1 s, Keeps s (execFireCancel a0 a1 s) := by
  intros; unfold execFireCancel; (try dsimp only); repeat' (first | assumption | (simp; done) | (refine (frame_foldl _ _ (fun s a => ?_) _).trans ?_) | (refine (frame_admitThen _ _ _ _ _ (fun s => ?_)).trans ?_) | (refine (frame_completeStored _ _ _ (fun s => ?_)).trans ?_) | (refine (frame_pealRx _ _ _ _ _ (fun s => ?_)).trans ?_) | split | simp)

@[simp] theorem execFireArmed_frame : ∀ a0 a1 s, Keeps s (execFireArmed a0 a1 s) := by
  intros; unfold execFireArmed; (try dsimp only); repeat' (first | assumption | (simp; done) | (refine (frame_foldl _ _ (fun s a => ?_) _).trans ?_) | (refine (frame_admitThen _ _ _ _ _ (fun s => ?_)).trans ?_) | (refine (frame_completeStored _ _ _ (fun s => ?_)).trans ?_) | (refine (frame_pealRx _ _ _ _ _ (fun s => ?_)).trans ?_) | split | simp)

@[simp] theorem execFireAnnounceLate_frame : ∀ s, Keeps s (execFireAnnounceLate s) := by
  intros; unfold execFireAnnounceLate; (try dsimp only); (repeat' split) <;> simp

@[simp] theorem execTime_frame : ∀ a0 a1 s, Keeps s (execTime a0 a1 s) := by
  intros; unfold execTime; (try dsimp only); repeat' (first | assumption | (simp; done) | (refine (frame_foldl _ _ (fun s a => ?_) _).trans ?_) | (refine (frame_admitThen _ _ _ _ _ (fun s => ?_)).trans ?_) | (refine (frame_completeStored _ _ _ (fun s => ?_)).trans ?_) | (refine (frame_pealRx _ _ _ _ _ (fun s => ?_)).trans ?_) | split | simp)

@[simp] theorem logFrame_frame : ∀ a0 a1 s, frame (logFrame a0 a1 s) = frame s := by
  intros; unfold logFrame; simp

@[simp] theorem execAlert_frame : ∀ a0 a1 s, Keeps s (execAlert a0 a1 s) := by
  intros; unfold execAlert; (try dsimp only); repeat' (first | assumption | (simp; done) | (refine (frame_foldl _ _ (fun s a => ?_) _).trans ?_) | (refine (frame_admitThen _ _ _ _ _ (fun s => ?_)).trans ?_) | (refine (frame_completeStored _ _ _ (fun s => ?_)).trans ?_) | (refine (frame_pealRx _ _ _ _ _ (fun s => ?_)).trans ?_) | split | simp)

@[simp] theorem execTelemetry_frame : ∀ a0 a1 s, Keeps s (execTelemetry a0 a1 s) := by
  intros; unfold execTelemetry; (try dsimp only); repeat' (first | assumption | (simp; done) | (refine (frame_foldl _ _ (fun s a => ?_) _).trans ?_) | (refine (frame_admitThen _ _ _ _ _ (fun s => ?_)).trans ?_) | (refine (frame_completeStored _ _ _ (fun s => ?_)).trans ?_) | (refine (frame_pealRx _ _ _ _ _ (fun s => ?_)).trans ?_) | split | simp)

@[simp] theorem telemRearm_frame : ∀ s, frame (telemRearm s) = frame s := by
  intros; unfold telemRearm; simp

@[simp] theorem execTelemetryPeriod_frame : ∀ s, Keeps s (execTelemetryPeriod s) := by
  intros; unfold execTelemetryPeriod; (try dsimp only); repeat' (first | assumption | (simp; done) | (refine (frame_foldl _ _ (fun s a => ?_) _).trans ?_) | (refine (frame_admitThen _ _ _ _ _ (fun s => ?_)).trans ?_) | (refine (frame_completeStored _ _ _ (fun s => ?_)).trans ?_) | (refine (frame_pealRx _ _ _ _ _ (fun s => ?_)).trans ?_) | split | simp)

@[simp] theorem execPealJoin_frame : ∀ a0 s, Keeps s (execPealJoin a0 s) := by
  intros; refine Keeps.of (frame_runCmd _ _ _ _ _ _ _ _ _ (fun c s => ?_) (fun c s => ?_)) <;> beta_reduce <;> (try dsimp only); repeat' (first | assumption | (simp; done) | (refine (frame_foldl _ _ (fun s a => ?_) _).trans ?_) | (refine (frame_admitThen _ _ _ _ _ (fun s => ?_)).trans ?_) | (refine (frame_completeStored _ _ _ (fun s => ?_)).trans ?_) | (refine (frame_pealRx _ _ _ _ _ (fun s => ?_)).trans ?_) | split | simp)

@[simp] theorem execPealLeave_frame : ∀ a0 s, Keeps s (execPealLeave a0 s) := by
  intros; refine Keeps.of (frame_runCmd _ _ _ _ _ _ _ _ _ (fun c s => ?_) (fun c s => ?_)) <;> beta_reduce <;> (try dsimp only); repeat' (first | assumption | (simp; done) | (refine (frame_foldl _ _ (fun s a => ?_) _).trans ?_) | (refine (frame_admitThen _ _ _ _ _ (fun s => ?_)).trans ?_) | (refine (frame_completeStored _ _ _ (fun s => ?_)).trans ?_) | (refine (frame_pealRx _ _ _ _ _ (fun s => ?_)).trans ?_) | split | simp)

@[simp] theorem execPealStatus_frame : ∀ a0 s, Keeps s (execPealStatus a0 s) := by
  intros; refine Keeps.of (frame_runCmd _ _ _ _ _ _ _ _ _ (fun c s => ?_) (fun c s => ?_)) <;> beta_reduce <;> (try dsimp only); repeat' (first | assumption | (simp; done) | (refine (frame_foldl _ _ (fun s a => ?_) _).trans ?_) | (refine (frame_admitThen _ _ _ _ _ (fun s => ?_)).trans ?_) | (refine (frame_completeStored _ _ _ (fun s => ?_)).trans ?_) | (refine (frame_pealRx _ _ _ _ _ (fun s => ?_)).trans ?_) | split | simp)

@[simp] theorem execPealSend_frame : ∀ a0 s, Keeps s (execPealSend a0 s) := by
  intros; refine Keeps.of (frame_runCmd _ _ _ _ _ _ _ _ _ (fun c s => ?_) (fun c s => ?_)) <;> beta_reduce <;> (try dsimp only); repeat' (first | assumption | (simp; done) | (refine (frame_foldl _ _ (fun s a => ?_) _).trans ?_) | (refine (frame_admitThen _ _ _ _ _ (fun s => ?_)).trans ?_) | (refine (frame_completeStored _ _ _ (fun s => ?_)).trans ?_) | (refine (frame_pealRx _ _ _ _ _ (fun s => ?_)).trans ?_) | split | simp)

@[simp] theorem execPealCfgWrite_frame : ∀ a0 s, Keeps s (execPealCfgWrite a0 s) := by
  intros; unfold execPealCfgWrite; simp

end Sys2Proof.Machine
end

