-- ==== Sys2Proof/Laws/KeepRegRows.lean ====
section
/-! SUPPORT. What the operations of Machine/RegRows.lean leave alone (Laws/Keep.lean). -/
namespace Sys2Proof.Machine

@[simp] theorem bar0Write_frame : ∀ a0 a1 a2 a3 s, frame (bar0Write a0 a1 a2 a3 s) = frame s := by
  intros; unfold bar0Write; simp

@[simp] theorem laneRegWrite_frame : ∀ a0 a1 s, frame (laneRegWrite a0 a1 s) = frame s := by
  intros; unfold laneRegWrite; simp

@[simp] theorem pealDelayWrite_frame : ∀ a0 a1 s, frame (pealDelayWrite a0 a1 s) = frame s := by
  intros; unfold pealDelayWrite; simp

@[simp] theorem bar0RegWrite_frame : ∀ a0 a1 s, frame (bar0RegWrite a0 a1 s) = frame s := by
  intros; unfold bar0RegWrite; simp

@[simp] theorem slotRegWrite_frame : ∀ a0 a1 s, frame (slotRegWrite a0 a1 s) = frame s := by
  intros; unfold slotRegWrite; simp

@[simp] theorem pealRegWrite_frame : ∀ a0 a1 s, frame (pealRegWrite a0 a1 s) = frame s := by
  intros; unfold pealRegWrite; simp

@[simp] theorem powerRegWrite_frame : ∀ a0 a1 s, frame (powerRegWrite a0 a1 s) = frame s := by
  intros; unfold powerRegWrite; simp

@[simp] theorem regWrite_frame : ∀ a0 a1 s, frame (regWrite a0 a1 s) = frame s := by
  intros; unfold regWrite; (try dsimp only); repeat' (first | assumption | (simp; done) | (refine (frame_foldl _ _ (fun s a => ?_) _).trans ?_) | (refine (frame_admitThen _ _ _ _ _ (fun s => ?_)).trans ?_) | (refine (frame_completeStored _ _ _ (fun s => ?_)).trans ?_) | (refine (frame_pealRx _ _ _ _ _ (fun s => ?_)).trans ?_) | split | simp)

@[simp] theorem execRegisterWrite_frame : ∀ a0 a1 s, Keeps s (execRegisterWrite a0 a1 s) := by
  intros; unfold execRegisterWrite; (try dsimp only); (repeat' split) <;> simp

@[simp] theorem execCounterLowRead_frame : ∀ a0 s, Keeps s (execCounterLowRead a0 s) := by
  intros; unfold execCounterLowRead; (try dsimp only); (repeat' split) <;> simp

@[simp] theorem execTmBufPeakReset_frame : ∀ a0 a1 s, Keeps s (execTmBufPeakReset a0 a1 s) := by
  intros; unfold execTmBufPeakReset; simp

end Sys2Proof.Machine
end

