-- ==== Sys2Proof/Laws/KeepStoreRows.lean ====
section
/-! SUPPORT. What the operations of Machine/StoreRows.lean leave alone (Laws/Keep.lean). -/
namespace Sys2Proof.Machine

@[simp] theorem execNsCreate_frame : ∀ a0 s, Keeps s (execNsCreate a0 s) := by
  intros; refine Keeps.of (frame_runCmd _ _ _ _ _ _ _ _ _ (fun c s => ?_) (fun c s => ?_)) <;> beta_reduce <;> (try dsimp only); repeat' (first | assumption | (simp; done) | (refine (frame_foldl _ _ (fun s a => ?_) _).trans ?_) | (refine (frame_admitThen _ _ _ _ _ (fun s => ?_)).trans ?_) | (refine (frame_completeStored _ _ _ (fun s => ?_)).trans ?_) | (refine (frame_pealRx _ _ _ _ _ (fun s => ?_)).trans ?_) | split | simp)

@[simp] theorem execNsDelete_frame : ∀ a0 s, Keeps s (execNsDelete a0 s) := by
  intros; refine Keeps.of (frame_runCmd _ _ _ _ _ _ _ _ _ (fun c s => ?_) (fun c s => ?_)) <;> beta_reduce <;> (try dsimp only); repeat' (first | assumption | (simp; done) | (refine (frame_foldl _ _ (fun s a => ?_) _).trans ?_) | (refine (frame_admitThen _ _ _ _ _ (fun s => ?_)).trans ?_) | (refine (frame_completeStored _ _ _ (fun s => ?_)).trans ?_) | (refine (frame_pealRx _ _ _ _ _ (fun s => ?_)).trans ?_) | split | simp)

@[simp] theorem execNvmeCommand_frame : ∀ a0 s, Keeps s (execNvmeCommand a0 s) := by
  intros; unfold execNvmeCommand; (try dsimp only); (repeat' split) <;> simp

@[simp] theorem execDriveCompletion_frame : ∀ a0 a1 a2 a3 s, Keeps s (execDriveCompletion a0 a1 a2 a3 s) := by
  intros; unfold execDriveCompletion; simp

@[simp] theorem execDriveCommandTimeout_frame : ∀ a0 s, Keeps s (execDriveCommandTimeout a0 s) := by
  intros; unfold execDriveCommandTimeout; simp

@[simp] theorem execStorageCacheFill_frame : ∀ a0 a1 s, Keeps s (execStorageCacheFill a0 a1 s) := by
  intros; unfold execStorageCacheFill; (try dsimp only); (repeat' split) <;> simp

@[simp] theorem execSlotCtl_frame : ∀ a0 s, Keeps s (execSlotCtl a0 s) := by
  intros; refine Keeps.of (frame_runCmd _ _ _ _ _ _ _ _ _ (fun c s => ?_) (fun c s => ?_)) <;> beta_reduce <;> (try dsimp only); repeat' (first | assumption | (simp; done) | (refine (frame_foldl _ _ (fun s a => ?_) _).trans ?_) | (refine (frame_admitThen _ _ _ _ _ (fun s => ?_)).trans ?_) | (refine (frame_completeStored _ _ _ (fun s => ?_)).trans ?_) | (refine (frame_pealRx _ _ _ _ _ (fun s => ?_)).trans ?_) | split | simp)

@[simp] theorem execDrivePresenceChange_frame : ∀ a0 a1 s, Keeps s (execDrivePresenceChange a0 a1 s) := by
  intros; unfold execDrivePresenceChange; simp

@[simp] theorem execAttentionButton_frame : ∀ a0 s, Keeps s (execAttentionButton a0 s) := by
  intros; unfold execAttentionButton; simp

@[simp] theorem execSlotPowerFault_frame : ∀ a0 s, Keeps s (execSlotPowerFault a0 s) := by
  intros; unfold execSlotPowerFault; simp

@[simp] theorem execDriveLinkDown_frame : ∀ a0 s, Keeps s (execDriveLinkDown a0 s) := by
  intros; unfold execDriveLinkDown; simp

@[simp] theorem execSlotPerstRelease_frame : ∀ a0 s, Keeps s (execSlotPerstRelease a0 s) := by
  intros; unfold execSlotPerstRelease; simp

@[simp] theorem execDriveLinkUp_frame : ∀ a0 s, Keeps s (execDriveLinkUp a0 s) := by
  intros; unfold execDriveLinkUp; simp

@[simp] theorem execSlotLinkDeadline_frame : ∀ a0 s, Keeps s (execSlotLinkDeadline a0 s) := by
  intros; unfold execSlotLinkDeadline; simp

@[simp] theorem execDriveControllerReady_frame : ∀ a0 a1 s, Keeps s (execDriveControllerReady a0 a1 s) := by
  intros; unfold execDriveControllerReady; simp

end Sys2Proof.Machine
end

