-- ==== Sys2Proof/Laws/KeepTimeRows.lean ====
section
/-! SUPPORT. What the operations of Machine/TimeRows.lean leave alone (Laws/Keep.lean). -/
namespace Sys2Proof.Machine

@[simp] theorem queueTime_frame : ∀ a0 s, frame (queueTime a0 s).1 = frame s := by
  intros; unfold queueTime; simp

@[simp] theorem execTimeGet_frame : ∀ a0 s, Keeps s (execTimeGet a0 s) := by
  intros; refine Keeps.of (frame_runCmd _ _ _ _ _ _ _ _ _ (fun c s => ?_) (fun c s => ?_)) <;> beta_reduce <;> (try dsimp only); repeat' (first | assumption | (simp; done) | (refine (frame_foldl _ _ (fun s a => ?_) _).trans ?_) | (refine (frame_admitThen _ _ _ _ _ (fun s => ?_)).trans ?_) | (refine (frame_completeStored _ _ _ (fun s => ?_)).trans ?_) | (refine (frame_pealRx _ _ _ _ _ (fun s => ?_)).trans ?_) | split | simp)

@[simp] theorem execTimeIncSet_frame : ∀ a0 s, Keeps s (execTimeIncSet a0 s) := by
  intros; refine Keeps.of (frame_runCmd _ _ _ _ _ _ _ _ _ (fun c s => ?_) (fun c s => ?_)) <;> beta_reduce <;> (try dsimp only); repeat' (first | assumption | (simp; done) | (refine (frame_foldl _ _ (fun s a => ?_) _).trans ?_) | (refine (frame_admitThen _ _ _ _ _ (fun s => ?_)).trans ?_) | (refine (frame_completeStored _ _ _ (fun s => ?_)).trans ?_) | (refine (frame_pealRx _ _ _ _ _ (fun s => ?_)).trans ?_) | split | simp)

@[simp] theorem postJumpRefused_frame : ∀ a0 s, frame (postJumpRefused a0 s) = frame s := by
  intros; unfold postJumpRefused; simp

@[simp] theorem execTimeAdjust_frame : ∀ a0 s, Keeps s (execTimeAdjust a0 s) := by
  intros; refine Keeps.of (frame_runCmd _ _ _ _ _ _ _ _ _ (fun c s => ?_) (fun c s => ?_)) <;> beta_reduce <;> (try dsimp only); repeat' (first | assumption | (simp; done) | (refine (frame_foldl _ _ (fun s a => ?_) _).trans ?_) | (refine (frame_admitThen _ _ _ _ _ (fun s => ?_)).trans ?_) | (refine (frame_completeStored _ _ _ (fun s => ?_)).trans ?_) | (refine (frame_pealRx _ _ _ _ _ (fun s => ?_)).trans ?_) | split | simp)

@[simp] theorem execTimeSet_frame : ∀ a0 s, Keeps s (execTimeSet a0 s) := by
  intros; refine Keeps.of (frame_runCmd _ _ _ _ _ _ _ _ _ (fun c s => ?_) (fun c s => ?_)) <;> beta_reduce <;> (try dsimp only); repeat' (first | assumption | (simp; done) | (refine (frame_foldl _ _ (fun s a => ?_) _).trans ?_) | (refine (frame_admitThen _ _ _ _ _ (fun s => ?_)).trans ?_) | (refine (frame_completeStored _ _ _ (fun s => ?_)).trans ?_) | (refine (frame_pealRx _ _ _ _ _ (fun s => ?_)).trans ?_) | split | simp)

@[simp] theorem execTimeJumpThr_frame : ∀ a0 s, Keeps s (execTimeJumpThr a0 s) := by
  intros; refine Keeps.of (frame_runCmd _ _ _ _ _ _ _ _ _ (fun c s => ?_) (fun c s => ?_)) <;> beta_reduce <;> (try dsimp only); repeat' (first | assumption | (simp; done) | (refine (frame_foldl _ _ (fun s a => ?_) _).trans ?_) | (refine (frame_admitThen _ _ _ _ _ (fun s => ?_)).trans ?_) | (refine (frame_completeStored _ _ _ (fun s => ?_)).trans ?_) | (refine (frame_pealRx _ _ _ _ _ (fun s => ?_)).trans ?_) | split | simp)

@[simp] theorem execTsCalSet_frame : ∀ a0 s, Keeps s (execTsCalSet a0 s) := by
  intros; refine Keeps.of (frame_runCmd _ _ _ _ _ _ _ _ _ (fun c s => ?_) (fun c s => ?_)) <;> beta_reduce <;> (try dsimp only); repeat' (first | assumption | (simp; done) | (refine (frame_foldl _ _ (fun s a => ?_) _).trans ?_) | (refine (frame_admitThen _ _ _ _ _ (fun s => ?_)).trans ?_) | (refine (frame_completeStored _ _ _ (fun s => ?_)).trans ?_) | (refine (frame_pealRx _ _ _ _ _ (fun s => ?_)).trans ?_) | split | simp)

@[simp] theorem execPpsCfg_frame : ∀ a0 s, Keeps s (execPpsCfg a0 s) := by
  intros; refine Keeps.of (frame_runCmd _ _ _ _ _ _ _ _ _ (fun c s => ?_) (fun c s => ?_)) <;> beta_reduce <;> (try dsimp only); repeat' (first | assumption | (simp; done) | (refine (frame_foldl _ _ (fun s a => ?_) _).trans ?_) | (refine (frame_admitThen _ _ _ _ _ (fun s => ?_)).trans ?_) | (refine (frame_completeStored _ _ _ (fun s => ?_)).trans ?_) | (refine (frame_pealRx _ _ _ _ _ (fun s => ?_)).trans ?_) | split | simp)

@[simp] theorem cipherClocks_frame : ∀ s, frame (cipherClocks s) = frame s := by
  intros; unfold cipherClocks; simp

theorem execCkTTick_frame : ∀ s t, execCkTTick s = .next t →
    frame t = frame s ∨ frame t = (s.pending, s.hbm, (timeAfterTick s.time).now, s.sec.lc, s.sec.minSvn, s.sets.epoch) := by
  intro s t h
  unfold execCkTTick at h
  split at h
  · cases h; exact .inl rfl
  · right
    dsimp only at h
    repeat' split at h
    all_goals (cases h; simp)

@[simp] theorem execTimeReplicaCheck_frame : ∀ a0 a1 s, Keeps s (execTimeReplicaCheck a0 a1 s) := by
  intros; unfold execTimeReplicaCheck; simp

@[simp] theorem execPpsRise_frame : ∀ s, Keeps s (execPpsRise s) := by
  intros; unfold execPpsRise; simp

@[simp] theorem execPpsFall_frame : ∀ s, Keeps s (execPpsFall s) := by
  intros; unfold execPpsFall; simp

@[simp] theorem execGateLoad_frame : ∀ a0 s, Keeps s (execGateLoad a0 s) := by
  intros; refine Keeps.of (frame_runCmd _ _ _ _ _ _ _ _ _ (fun c s => ?_) (fun c s => ?_)) <;> beta_reduce <;> (try dsimp only); repeat' (first | assumption | (simp; done) | (refine (frame_foldl _ _ (fun s a => ?_) _).trans ?_) | (refine (frame_admitThen _ _ _ _ _ (fun s => ?_)).trans ?_) | (refine (frame_completeStored _ _ _ (fun s => ?_)).trans ?_) | (refine (frame_pealRx _ _ _ _ _ (fun s => ?_)).trans ?_) | split | simp)

@[simp] theorem strobePulse_frame : ∀ s, frame (strobePulse s) = frame s := by
  intros; unfold strobePulse; (try dsimp only); repeat' (first | assumption | (simp; done) | (refine (frame_foldl _ _ (fun s a => ?_) _).trans ?_) | (refine (frame_admitThen _ _ _ _ _ (fun s => ?_)).trans ?_) | (refine (frame_completeStored _ _ _ (fun s => ?_)).trans ?_) | (refine (frame_pealRx _ _ _ _ _ (fun s => ?_)).trans ?_) | split | simp)

@[simp] theorem execGateListStart_frame : ∀ a0 s, Keeps s (execGateListStart a0 s) := by
  intros; unfold execGateListStart; (try dsimp only); (repeat' split) <;> simp

@[simp] theorem execGateStateChange_frame : ∀ a0 s, Keeps s (execGateStateChange a0 s) := by
  intros; unfold execGateStateChange; (try dsimp only); (repeat' split) <;> simp

end Sys2Proof.Machine
end

