-- ==== Sys2Proof/Laws/KeepXportRows.lean ====
section
/-! SUPPORT. What the operations of Machine/XportRows.lean leave alone (Laws/Keep.lean). -/
namespace Sys2Proof.Machine

@[simp] theorem execQpCreate_frame : ∀ a0 s, Keeps s (execQpCreate a0 s) := by
  intros; refine Keeps.of (frame_runCmd _ _ _ _ _ _ _ _ _ (fun c s => ?_) (fun c s => ?_)) <;> beta_reduce <;> (try dsimp only); repeat' (first | assumption | (simp; done) | (refine (frame_foldl _ _ (fun s a => ?_) _).trans ?_) | (refine (frame_admitThen _ _ _ _ _ (fun s => ?_)).trans ?_) | (refine (frame_completeStored _ _ _ (fun s => ?_)).trans ?_) | (refine (frame_pealRx _ _ _ _ _ (fun s => ?_)).trans ?_) | split | simp)

@[simp] theorem resetObject_frame : ∀ a0 s, frame (resetObject a0 s) = frame s := by
  intros; unfold resetObject; simp

@[simp] theorem enterState_frame : ∀ a0 a1 s, frame (enterState a0 a1 s) = frame s := by
  intros; unfold enterState; simp

@[simp] theorem execQpModify_frame : ∀ a0 s, Keeps s (execQpModify a0 s) := by
  intros; refine Keeps.of (frame_runCmd _ _ _ _ _ _ _ _ _ (fun c s => ?_) (fun c s => ?_)) <;> beta_reduce <;> (try dsimp only); repeat' (first | assumption | (simp; done) | (refine (frame_foldl _ _ (fun s a => ?_) _).trans ?_) | (refine (frame_admitThen _ _ _ _ _ (fun s => ?_)).trans ?_) | (refine (frame_completeStored _ _ _ (fun s => ?_)).trans ?_) | (refine (frame_pealRx _ _ _ _ _ (fun s => ?_)).trans ?_) | split | simp)

@[simp] theorem execQpDestroy_frame : ∀ a0 s, Keeps s (execQpDestroy a0 s) := by
  intros; refine Keeps.of (frame_runCmd _ _ _ _ _ _ _ _ _ (fun c s => ?_) (fun c s => ?_)) <;> beta_reduce <;> (try dsimp only); repeat' (first | assumption | (simp; done) | (refine (frame_foldl _ _ (fun s a => ?_) _).trans ?_) | (refine (frame_admitThen _ _ _ _ _ (fun s => ?_)).trans ?_) | (refine (frame_completeStored _ _ _ (fun s => ?_)).trans ?_) | (refine (frame_pealRx _ _ _ _ _ (fun s => ?_)).trans ?_) | split | simp)

@[simp] theorem execConnQuery_frame : ∀ a0 s, Keeps s (execConnQuery a0 s) := by
  intros; refine Keeps.of (frame_runCmd _ _ _ _ _ _ _ _ _ (fun c s => ?_) (fun c s => ?_)) <;> beta_reduce <;> (try dsimp only); repeat' (first | assumption | (simp; done) | (refine (frame_foldl _ _ (fun s a => ?_) _).trans ?_) | (refine (frame_admitThen _ _ _ _ _ (fun s => ?_)).trans ?_) | (refine (frame_completeStored _ _ _ (fun s => ?_)).trans ?_) | (refine (frame_pealRx _ _ _ _ _ (fun s => ?_)).trans ?_) | split | simp)

@[simp] theorem execTransportContextFetch_frame : ∀ a0 s, Keeps s (execTransportContextFetch a0 s) := by
  intros; unfold execTransportContextFetch; simp

@[simp] theorem execObjectNumberRelease_frame : ∀ a0 s, Keeps s (execObjectNumberRelease a0 s) := by
  intros; unfold execObjectNumberRelease; simp

@[simp] theorem takeEngine_frame : ∀ a0 s, frame (takeEngine a0 s) = frame s := by
  intros; unfold takeEngine; simp

@[simp] theorem wrongType_frame : ∀ a0 s, frame (wrongType a0 s) = frame s := by
  intros; unfold wrongType; simp

@[simp] theorem execRocePacketReceived_frame : ∀ a0 a1 a2 a3 s, Keeps s (execRocePacketReceived a0 a1 a2 a3 s) := by
  intros; unfold execRocePacketReceived; (try dsimp only); (repeat' split) <;> simp

@[simp] theorem execCnpReceived_frame : ∀ a0 a1 s, Keeps s (execCnpReceived a0 a1 s) := by
  intros; unfold execCnpReceived; (try dsimp only); (repeat' split) <;> simp

@[simp] theorem execTcpSegmentReceived_frame : ∀ a0 a1 a2 a3 s, Keeps s (execTcpSegmentReceived a0 a1 a2 a3 s) := by
  intros; unfold execTcpSegmentReceived; (try dsimp only); (repeat' split) <;> simp

@[simp] theorem execAckTimeout_frame : ∀ a0 s, Keeps s (execAckTimeout a0 s) := by
  intros; unfold execAckTimeout; (try dsimp only); (repeat' split) <;> simp

@[simp] theorem execRnrTimerExpiry_frame : ∀ a0 s, Keeps s (execRnrTimerExpiry a0 s) := by
  intros; unfold execRnrTimerExpiry; (try dsimp only); (repeat' split) <;> simp

@[simp] theorem execTcpRetransmitTimeout_frame : ∀ a0 s, Keeps s (execTcpRetransmitTimeout a0 s) := by
  intros; unfold execTcpRetransmitTimeout; (try dsimp only); (repeat' split) <;> simp

end Sys2Proof.Machine
end

