-- ==== Sys2Proof/Laws/Memory.lean ====
section
/-! SUPPORT. HBM as a canonical list of cells: every write keeps the form, and a read returns the last byte written there. -/
namespace Sys2Proof.Machine

theorem cellsWf_weaken {d : Nat → Byte} {lo hi : Nat} {m : List Host.Cell} (h : cellsWf d hi m = true) (l : lo ≤ hi) :
    cellsWf d lo m = true := by
  cases m with
  | nil => rfl
  | cons c m =>
    simp only [cellsWf, Bool.and_eq_true, decide_eq_true_eq] at h ⊢
    exact ⟨⟨by omega, h.1.2⟩, h.2⟩

theorem cellsWf_write {d : Nat → Byte} {lo : Nat} {m : List Host.Cell} {k : Nat} {b : Byte} (h : cellsWf d lo m = true) (l : lo ≤ k) :
    cellsWf d lo (cellWrite d m k b) = true := by
  induction m generalizing lo with
  | nil =>
    unfold cellWrite
    split
    · rfl
    · rename_i hb
      simp only [cellsWf, Bool.and_eq_true, decide_eq_true_eq, bne_iff_ne, ne_eq]
      exact ⟨⟨l, hb⟩, trivial⟩
  | cons c m ih =>
    obtain ⟨a, e⟩ := c
    have h' := h
    simp only [cellsWf, Bool.and_eq_true, decide_eq_true_eq] at h
    unfold cellWrite
    split
    · split
      · exact h'
      · rename_i hk hb
        simp only [cellsWf, Bool.and_eq_true, decide_eq_true_eq, bne_iff_ne, ne_eq]
        exact ⟨⟨l, hb⟩, ⟨by omega, by simpa using h.1.2⟩, h.2⟩
    · split
      · split
        · exact cellsWf_weaken h.2 (by omega)
        · rename_i hk e hb
          subst e
          simp only [cellsWf, Bool.and_eq_true, decide_eq_true_eq, bne_iff_ne, ne_eq]
          exact ⟨⟨l, hb⟩, h.2⟩
      · simp only [cellsWf, Bool.and_eq_true, decide_eq_true_eq]
        exact ⟨h.1, ih h.2 (by omega)⟩

/-- A write of one byte keeps the canonical form. -/
theorem Memory.wf_write {m : Hbm} {k : Nat} {b : Byte} (h : Memory.wf m = true) : Memory.wf (Memory.write m k b) = true :=
  cellsWf_write h (Nat.zero_le k)

/-- A write of several bytes keeps the canonical form. -/
theorem Memory.wf_writeAll {m : Hbm} {k : Nat} {bs : List Byte} (h : Memory.wf m = true) :
    Memory.wf (Memory.writeAll m k bs) = true := by
  induction bs generalizing m k with
  | nil => exact h
  | cons b bs ih => exact ih (Memory.wf_write h)

@[simp] theorem Memory.wf_empty : Memory.wf {} = true := rfl

theorem Hbm.rest_overwrite {n a : Nat} {m : Hbm} {l : List Host.Cell} (h : inTest n a = false) :
    Hbm.rest { cells := l, tests := m.tests.upd n (· + 1) } a = m.rest a := by
  unfold Hbm.rest
  by_cases e : n = a / (48 * 2 ^ 30)
  · rw [e] at h
    simp only [h, Bool.false_and]
    rfl
  · rw [SMap.get_upd_ne _ _ e]

theorem cellsWf_filter {d d' : Nat → Byte} {p : Host.Cell → Bool} (hd : ∀ c, p c = true → d' c.1 = d c.1) {lo : Nat}
    {m : List Host.Cell} (h : cellsWf d lo m = true) : cellsWf d' lo (m.filter p) = true := by
  induction m generalizing lo with
  | nil => rfl
  | cons c m ih =>
    obtain ⟨a, b⟩ := c
    simp only [cellsWf, Bool.and_eq_true, decide_eq_true_eq] at h
    by_cases e : p (a, b) = true
    · rw [List.filter_cons_of_pos e]
      simp only [cellsWf, Bool.and_eq_true, decide_eq_true_eq]
      exact ⟨⟨h.1.1, by rw [hd _ e]; exact h.1.2⟩, ih h.2⟩
    · rw [List.filter_cons_of_neg e]
      exact ih (cellsWf_weaken h.2 (by omega))

/-- A start-up test keeps the canonical form. -/
theorem Memory.wf_overwrite {m : Hbm} {n : Nat} (h : Memory.wf m = true) : Memory.wf (Memory.overwrite n m) = true :=
  cellsWf_filter (fun _ e => Hbm.rest_overwrite (by simpa using e)) h

theorem cellRead_of_lt {d : Nat → Byte} {lo : Nat} {m : List Host.Cell} {k : Nat} (h : cellsWf d lo m = true) (l : k < lo) :
    cellRead d m k = d k := by
  induction m generalizing lo with
  | nil => rfl
  | cons c m ih =>
    obtain ⟨a, e⟩ := c
    simp only [cellsWf, Bool.and_eq_true, decide_eq_true_eq] at h
    unfold cellRead
    rw [if_neg (by omega)]
    exact ih h.2 (by omega)

theorem cellRead_write {d : Nat → Byte} {lo : Nat} {m : List Host.Cell} (h : cellsWf d lo m = true) (k j : Nat) (b : Byte) :
    cellRead d (cellWrite d m k b) j = if j = k then b else cellRead d m j := by
  induction m generalizing lo with
  | nil =>
    unfold cellWrite
    split
    · rename_i hb
      split
      · rename_i e; rw [e, hb]; rfl
      · rfl
    · unfold cellRead
      by_cases e : k = j
      · rw [if_pos e, if_pos e.symm]
      · rw [if_neg e, if_neg (Ne.symm e)]; rfl
  | cons c m ih =>
    obtain ⟨a, e⟩ := c
    have h' := h
    simp only [cellsWf, Bool.and_eq_true, decide_eq_true_eq] at h
    unfold cellWrite
    split
    · split
      · rename_i hk hb
        split
        · rename_i e; rw [e, hb]; exact cellRead_of_lt (lo := a) (by
            simp only [cellsWf, Bool.and_eq_true, decide_eq_true_eq]; exact ⟨⟨Nat.le_refl a, h.1.2⟩, h.2⟩) hk
        · rfl
      · rename_i hk hb
        conv => lhs; unfold cellRead
        by_cases e : k = j
        · rw [if_pos e, if_pos e.symm]
        · rw [if_neg e, if_neg (Ne.symm e)]
    · split
      · rename_i hk e
        split
        · rename_i hb
          split
          · rename_i ej; rw [ej, hb]; exact cellRead_of_lt h.2 (by omega)
          · rename_i ej
            conv => rhs; unfold cellRead
            rw [if_neg (by omega)]
        · unfold cellRead
          by_cases ej : k = j
          · rw [if_pos ej, if_pos ej.symm]
          · rw [if_neg ej, if_neg (Ne.symm ej), if_neg (by omega)]
      · rename_i hk he
        unfold cellRead
        by_cases ea : a = j
        · rw [if_pos ea, if_pos ea, if_neg (by omega)]
        · rw [if_neg ea, if_neg ea]; exact ih h.2

/-- A read after a write of one byte: the byte written there, what was there before elsewhere. -/
theorem Memory.read_write {m : Hbm} (h : Memory.wf m = true) (k j : Nat) (b : Byte) :
    Memory.read (Memory.write m k b) j = if j = k then b else Memory.read m j := cellRead_write h k j b

/-- A write of several bytes leaves every other address as it was. -/
theorem Memory.read_writeAll_outside {m : Hbm} (h : Memory.wf m = true) {k j : Nat} {bs : List Byte}
    (o : j < k ∨ k + bs.length ≤ j) : Memory.read (Memory.writeAll m k bs) j = Memory.read m j := by
  induction bs generalizing m k with
  | nil => rfl
  | cons b bs ih =>
    unfold Memory.writeAll
    simp only [List.length_cons] at o
    rw [ih (Memory.wf_write h) (by omega), Memory.read_write h, if_neg (by omega)]

/-- A read inside a write of several bytes gives the byte written. -/
theorem Memory.read_writeAll_inside {m : Hbm} (h : Memory.wf m = true) {k i : Nat} {bs : List Byte} (l : i < bs.length) :
    Memory.read (Memory.writeAll m k bs) (k + i) = bs.getD i 0 := by
  induction bs generalizing m k i with
  | nil => simp at l
  | cons b bs ih =>
    unfold Memory.writeAll
    cases i with
    | zero =>
      rw [Memory.read_writeAll_outside (Memory.wf_write h) (by omega), Nat.add_zero, Memory.read_write h, if_pos rfl]
      rfl
    | succ i =>
      rw [Nat.add_comm i 1, ← Nat.add_assoc, ih (Memory.wf_write h) (by simpa using l)]
      simp [Nat.add_comm 1 i]

end Sys2Proof.Machine
end

