-- ==== Sys2Proof/Laws/Moves.lean ====
section
/-! SUPPORT. Once and for all: what a command can do to the queue, HBM, device time, the life-cycle state, the least SVN and EPOCH. -/
namespace Sys2Proof.Machine

/-- What a command that goes on from s to t does to the pieces of `frame`. -/
def Moves (i : Instr) (s t : State) : Prop :=
  match i with
  | .powerOnAo => frame t = (s.pending, {}, {}, s.sec.lc, s.sec.minSvn, 0)
  | .adpPwrokRise _ => frame t = frame s ∨ frame t = (s.pending, {}, s.time.now, s.sec.lc, s.sec.minSvn, 0)
  | .fwReady => frame t = frame s ∨
      frame t = (s.pending, s.hbm, s.time.now, s.sec.lc, max s.sec.minSvn s.fw.svn, s.sets.epoch)
  | .firingEffective => frame t = frame s ∨ ∃ a, s.sets.arm = some a ∧
      frame t = (s.pending, s.hbm, s.time.now, s.sec.lc, s.sec.minSvn, a.target)
  | .lcAdvance _ => frame t = frame s ∨ ∃ l, lcTarget s.sec.lc l = true ∧
      frame t = (s.pending, s.hbm, s.time.now, l, s.sec.minSvn, s.sets.epoch)
  | .startUpTest _ => frame t = frame s ∨ frame t =
      (s.pending, stacksOverwritten s.kiln.blocks s.hbm, s.time.now, s.sec.lc, s.sec.minSvn, s.sets.epoch)
  | .scrapZeroise => frame t = frame s ∨
      frame t = (s.pending, {}, s.time.now, s.sec.lc, s.sec.minSvn, s.sets.epoch)
  | .bar2Request _ _ _ => frame t = frame s ∨ ∃ k bs, frame t =
      (s.pending, Memory.writeAll s.hbm k bs, s.time.now, s.sec.lc, s.sec.minSvn, s.sets.epoch)
  | .ckTTick => frame t = frame s ∨
      frame t = (s.pending, s.hbm, (timeAfterTick s.time).now, s.sec.lc, s.sec.minSvn, s.sets.epoch)
  | _ => frame t = frame s

/-- Every command does to those pieces what `Moves` says, and nothing else. -/
theorem exec_moves : ∀ i s t, exec i s = .next t → Moves i s t := by
  intro i s t h
  cases i with
  | powerOnAo => exact execPowerOnAo_frame s t h
  | adpPwrokRise cool => exact execAdpPwrokRise_frame cool s t h
  | pwrSeqFail => exact (execPwrSeqFail_frame s).elim h
  | rootPllLock => exact (execRootPllLock_frame s).elim h
  | fwBootCheck img0 img1 => exact (execFwBootCheck_frame img0 img1 s).elim h
  | fwRecoveryTimeout => exact (execFwRecoveryTimeout_frame s).elim h
  | startUpTest failed => exact execStartUpTest_frame failed s t h
  | fwReady => exact execFwReady_frame s t h
  | heartbeatTimeout core => exact (execHeartbeatTimeout_frame core s).elim h
  | pllLockLost => exact (execPllLockLost_frame s).elim h
  | pllRelock => exact (execPllRelock_frame s).elim h
  | pwrPgLost n => exact (execPwrPgLost_frame n s).elim h
  | adpPwrokFall => exact (execAdpPwrokFall_frame s).elim h
  | thermComparatorTrip k tj => exact (execThermComparatorTrip_frame k tj s).elim h
  | regionMonitorSample k vdd tj => exact (execRegionMonitorSample_frame k vdd tj s).elim h
  | stretchStepRise k => exact (execStretchStepRise_frame k s).elim h
  | stretchStepFall k => exact (execStretchStepFall_frame k s).elim h
  | regionLimitRepeat k => exact (execRegionLimitRepeat_frame k s).elim h
  | avsLimitRaise k => exact (execAvsLimitRaise_frame k s).elim h
  | powerTotalSample total => exact (execPowerTotalSample_frame total s).elim h
  | capStepRise => exact (execCapStepRise_frame s).elim h
  | capStepFall => exact (execCapStepFall_frame s).elim h
  | thermalStepRise k => exact (execThermalStepRise_frame k s).elim h
  | thermalStepFall k => exact (execThermalStepFall_frame k s).elim h
  | avsResponse bus rail r => exact (execAvsResponse_frame bus rail r s).elim h
  | timeReplicaCheck k upset => exact (execTimeReplicaCheck_frame k upset s).elim h
  | cmdRingPi fn sec value => exact (execCmdRingPi_frame fn sec value s).elim h
  | cmdRingEnable fn sec value => exact (execCmdRingEnable_frame fn sec value s).elim h
  | cmdRingDisable fn sec value => exact (execCmdRingDisable_frame fn sec value s).elim h
  | commandFetchError fn sec => exact (execCommandFetchError_frame fn sec s).elim h
  | adapterInfo c => exact (execAdapterInfo_frame c s).elim h
  | fwStatus c => exact (execFwStatus_frame c s).elim h
  | fwUpdate c img => exact (execFwUpdate_frame c img s).elim h
  | fwActivate c => exact (execFwActivate_frame c s).elim h
  | evtRingSet c => exact (execEvtRingSet_frame c s).elim h
  | evtSubscribe c => exact (execEvtSubscribe_frame c s).elim h
  | puntRingSet c => exact (execPuntRingSet_frame c s).elim h
  | nodeIdSet c => exact (execNodeIdSet_frame c s).elim h
  | counterRead c => exact (execCounterRead_frame c s).elim h
  | instConfig c => exact (execInstConfig_frame c s).elim h
  | instQuiesce c => exact (execInstQuiesce_frame c s).elim h
  | instReset c => exact (execInstReset_frame c s).elim h
  | instRemove c => exact (execInstRemove_frame c s).elim h
  | queueRestart c => exact (execQueueRestart_frame c s).elim h
  | dirtyLogStart c => exact (execDirtyLogStart_frame c s).elim h
  | dirtyLogHarvest c => exact (execDirtyLogHarvest_frame c s).elim h
  | dirtyLogStop c => exact (execDirtyLogStop_frame c s).elim h
  | mboxStatus c => exact (execMboxStatus_frame c s).elim h
  | tblInsert c => exact (execTblInsert_frame c s).elim h
  | tblDelete c => exact (execTblDelete_frame c s).elim h
  | tblModify c => exact (execTblModify_frame c s).elim h
  | tblLookup c => exact (execTblLookup_frame c s).elim h
  | tblDump c => exact (execTblDump_frame c s).elim h
  | tblAgeCfg c => exact (execTblAgeCfg_frame c s).elim h
  | learnCfg c => exact (execLearnCfg_frame c s).elim h
  | setLoad c init => exact (execSetLoad_frame c init s).elim h
  | setFire c => exact (execSetFire_frame c s).elim h
  | setCancel c => exact (execSetCancel_frame c s).elim h
  | setStatus c => exact (execSetStatus_frame c s).elim h
  | featureEnable c => exact (execFeatureEnable_frame c s).elim h
  | timeGet c => exact (execTimeGet_frame c s).elim h
  | timeIncSet c => exact (execTimeIncSet_frame c s).elim h
  | timeAdjust c => exact (execTimeAdjust_frame c s).elim h
  | timeSet c => exact (execTimeSet_frame c s).elim h
  | timeJumpThr c => exact (execTimeJumpThr_frame c s).elim h
  | gateLoad c => exact (execGateLoad_frame c s).elim h
  | tsCalSet c => exact (execTsCalSet_frame c s).elim h
  | ppsCfg c => exact (execPpsCfg_frame c s).elim h
  | keyDerive c => exact (execKeyDerive_frame c s).elim h
  | keyDestroy c => exact (execKeyDestroy_frame c s).elim h
  | keyQuery c => exact (execKeyQuery_frame c s).elim h
  | ciphDummyRate c => exact (execCiphDummyRate_frame c s).elim h
  | laneStatus c => exact (execLaneStatus_frame c s).elim h
  | lanePark c => exact (execLanePark_frame c s).elim h
  | laneWake c => exact (execLaneWake_frame c s).elim h
  | substStatus c => exact (execSubstStatus_frame c s).elim h
  | reorderStats c => exact (execReorderStats_frame c s).elim h
  | qpCreate c => exact (execQpCreate_frame c s).elim h
  | qpModify c => exact (execQpModify_frame c s).elim h
  | qpDestroy c => exact (execQpDestroy_frame c s).elim h
  | nsCreate c => exact (execNsCreate_frame c s).elim h
  | nsDelete c => exact (execNsDelete_frame c s).elim h
  | slotCtl c => exact (execSlotCtl_frame c s).elim h
  | connQuery c => exact (execConnQuery_frame c s).elim h
  | kilnStatus c => exact (execKilnStatus_frame c s).elim h
  | kilnSchedule c => exact (execKilnSchedule_frame c s).elim h
  | kilnRun c => exact (execKilnRun_frame c s).elim h
  | failPolicy c => exact (execFailPolicy_frame c s).elim h
  | marginRead c => exact (execMarginRead_frame c s).elim h
  | fiSet c => exact (execFiSet_frame c s).elim h
  | fiClear c => exact (execFiClear_frame c s).elim h
  | pwrStatus c => exact (execPwrStatus_frame c s).elim h
  | pwrCap c => exact (execPwrCap_frame c s).elim h
  | telemCfg c => exact (execTelemCfg_frame c s).elim h
  | pealJoin c => exact (execPealJoin_frame c s).elim h
  | pealLeave c => exact (execPealLeave_frame c s).elim h
  | pealStatus c => exact (execPealStatus_frame c s).elim h
  | pealSend c => exact (execPealSend_frame c s).elim h
  | windowWrite c => exact (execWindowWrite_frame c s).elim h
  | windowCommit c => exact (execWindowCommit_frame c s).elim h
  | msixMap c => exact (execMsixMap_frame c s).elim h
  | queueRoCfg c => exact (execQueueRoCfg_frame c s).elim h
  | registerWrite r v => exact (execRegisterWrite_frame r v s).elim h
  | counterLowRead r => exact (execCounterLowRead_frame r s).elim h
  | tmBufPeakReset u v => exact (execTmBufPeakReset_frame u v s).elim h
  | pealCfgWrite v => exact (execPealCfgWrite_frame v s).elim h
  | hostEvtAck fn v => exact (execHostEvtAck_frame fn v s).elim h
  | hostPuntAck fn v => exact (execHostPuntAck_frame fn v s).elim h
  | hostDbTx fn slot v => exact (execHostDbTx_frame fn slot v s).elim h
  | hostDbRx fn slot v => exact (execHostDbRx_frame fn slot v s).elim h
  | hostDbCq fn slot v => exact (execHostDbCq_frame fn slot v s).elim h
  | hostQRingEnable fn slot v => exact (execHostQRingEnable_frame fn slot v s).elim h
  | hostQRingDisable fn slot v => exact (execHostQRingDisable_frame fn slot v s).elim h
  | hostIntxStsClear fn v => exact (execHostIntxStsClear_frame fn v s).elim h
  | messagePost fn sec v => exact (execMessagePost_frame fn sec v s).elim h
  | mboxAck fn sec => exact (execMboxAck_frame fn sec s).elim h
  | mailboxTimeout fn sec => exact (execMailboxTimeout_frame fn sec s).elim h
  | mboxDomainDownAccess fn write => exact (execMboxDomainDownAccess_frame fn write s).elim h
  | mboxNoticePost fn => exact (execMboxNoticePost_frame fn s).elim h
  | bar0BadAccess fn write => exact (execBar0BadAccess_frame fn write s).elim h
  | bar2Request port offset r => exact execBar2Request_frame port offset r s t h
  | configRequest fn r => exact (execConfigRequest_frame fn r s).elim h
  | busMasterDisable fn => exact (execBusMasterDisable_frame fn s).elim h
  | busMasterEnable fn => exact (execBusMasterEnable_frame fn s).elim h
  | functionLevelReset fn => exact (execFunctionLevelReset_frame fn s).elim h
  | vfEnableChange port enable numVfs => exact (execVfEnableChange_frame port enable numVfs s).elim h
  | devicePowerStateChange fn d3hot => exact (execDevicePowerStateChange_frame fn d3hot s).elim h
  | msixUnmask fn vector => exact (execMsixUnmask_frame fn vector s).elim h
  | hostLinkLoss port perst => exact (execHostLinkLoss_frame port perst s).elim h
  | hostLinkUp port => exact (execHostLinkUp_frame port s).elim h
  | readCompletion sp port tag e => exact (execReadCompletion_frame sp port tag e s).elim h
  | completionTimeout sp port tag => exact (execCompletionTimeout_frame sp port tag s).elim h
  | tagQuarantineEnd sp port tag => exact (execTagQuarantineEnd_frame sp port tag s).elim h
  | nonceReq port => exact (execNonceReq_frame port s).elim h
  | auth port buf => exact (execAuth_frame port buf s).elim h
  | authVerified port => exact (execAuthVerified_frame port s).elim h
  | close port => exact (execClose_frame port s).elim h
  | lcAdvance port => exact execLcAdvance_frame port s t h
  | rootImport port buf => exact (execRootImport_frame port buf s).elim h
  | kemKeyGet port ok => exact (execKemKeyGet_frame port ok s).elim h
  | fuseProgram port => exact (execFuseProgram_frame port s).elim h
  | scrapZeroise => exact execScrapZeroise_frame s t h
  | entropyHealthFail => exact (execEntropyHealthFail_frame s).elim h
  | entropyReseed => exact (execEntropyReseed_frame s).elim h
  | getVersion port => exact (execGetVersion_frame port s).elim h
  | getCapabilities port minor => exact (execGetCapabilities_frame port minor s).elim h
  | negotiateAlgorithms port sha3 mlDsa => exact (execNegotiateAlgorithms_frame port sha3 mlDsa s).elim h
  | getDigests port => exact (execGetDigests_frame port s).elim h
  | getCertificate port slot offset length => exact (execGetCertificate_frame port slot offset length s).elim h
  | challenge port slot nonce => exact (execChallenge_frame port slot nonce s).elim h
  | getMeasurements port index signed nonce => exact (execGetMeasurements_frame port index signed nonce s).elim h
  | firingEffective => exact execFiringEffective_frame s t h
  | straddleWindowClose => exact (execStraddleWindowClose_frame s).elim h
  | setDrainEnd => exact (execSetDrainEnd_frame s).elim h
  | drainLimitExpiry => exact (execDrainLimitExpiry_frame s).elim h
  | gateListStart port => exact (execGateListStart_frame port s).elim h
  | gateStateChange port => exact (execGateStateChange_frame port s).elim h
  | launchTimeReached lane cls => exact (execLaunchTimeReached_frame lane cls s).elim h
  | ppsRise => exact (execPpsRise_frame s).elim h
  | ppsFall => exact (execPpsFall_frame s).elim h
  | bucketRefill => exact (execBucketRefill_frame s).elim h
  | laneFrameReceived lane bytes more bad ui corr uncorr => exact (execLaneFrameReceived_frame lane bytes more bad ui corr uncorr s).elim h
  | cutThroughThreshold p => exact (execCutThroughThreshold_frame p s).elim h
  | pfcFrameReceived lane vector times => exact (execPfcFrameReceived_frame lane vector times s).elim h
  | pfcPauseExpiry lane cls => exact (execPfcPauseExpiry_frame lane cls s).elim h
  | pauseFrameReceived lane => exact (execPauseFrameReceived_frame lane s).elim h
  | pfcXoffRepeat port cls => exact (execPfcXoffRepeat_frame port cls s).elim h
  | passStart p upset => exact (execPassStart_frame p upset s).elim h
  | parseNodeVisit p => exact (execParseNodeVisit_frame p s).elim h
  | frameEndClaimTest p => exact (execFrameEndClaimTest_frame p s).elim h
  | hbmLookupResult p bad => exact (execHbmLookupResult_frame p bad s).elim h
  | nop p => exact (execNop_frame p s).elim h
  | set p => exact (execSet_frame p s).elim h
  | copy p => exact (execCopy_frame p s).elim h
  | data p => exact (execData_frame p s).elim h
  | add p => exact (execAdd_frame p s).elim h
  | and p => exact (execAnd_frame p s).elim h
  | or p => exact (execOr_frame p s).elim h
  | xor p => exact (execXor_frame p s).elim h
  | setif p => exact (execSetif_frame p s).elim h
  | count p => exact (execCount_frame p s).elim h
  | meter p => exact (execMeter_frame p s).elim h
  | inval p => exact (execInval_frame p s).elim h
  | encap p => exact (execEncap_frame p s).elim h
  | decap p => exact (execDecap_frame p s).elim h
  | write p => exact (execWrite_frame p s).elim h
  | mplsPush p => exact (execMplsPush_frame p s).elim h
  | l4adj p => exact (execL4adj_frame p s).elim h
  | learn p => exact (execLearn_frame p s).elim h
  | fragrec p => exact (execFragrec_frame p s).elim h
  | recirc p => exact (execRecirc_frame p s).elim h
  | punt p => exact (execPunt_frame p s).elim h
  | drop p => exact (execDrop_frame p s).elim h
  | fragmentDecided e => exact (execFragmentDecided_frame e s).elim h
  | fragmentHoldExpiry p => exact (execFragmentHoldExpiry_frame p s).elim h
  | fragmentLifetimeExpiry e => exact (execFragmentLifetimeExpiry_frame e s).elim h
  | spray p => exact (execSpray_frame p s).elim h
  | laneFrameBegin lane ui => exact (execLaneFrameBegin_frame lane ui s).elim h
  | laneFrameEnd lane => exact (execLaneFrameEnd_frame lane s).elim h
  | laneGoesDown lane cause => exact (execLaneGoesDown_frame lane cause s).elim h
  | laneLockHeld lane => exact (execLaneLockHeld_frame lane s).elim h
  | chimeHeard lane => exact (execChimeHeard_frame lane s).elim h
  | laneWakeTimeout lane => exact (execLaneWakeTimeout_frame lane s).elim h
  | laneRefLost k => exact (execLaneRefLost_frame k s).elim h
  | reorderArrival p => exact (execReorderArrival_frame p s).elim h
  | reorderTimeout key => exact (execReorderTimeout_frame key s).elim h
  | reorderIdleExpiry key => exact (execReorderIdleExpiry_frame key s).elim h
  | learnReport k => exact (execLearnReport_frame k s).elim h
  | ageScanVisit inst table handle touched => exact (execAgeScanVisit_frame inst table handle touched s).elim h
  | descriptorFetchComplete fn slot desc payload => exact (execDescriptorFetchComplete_frame fn slot desc payload s).elim h
  | hostSchedulerSelect k => exact (execHostSchedulerSelect_frame k s).elim h
  | rxPacketWrite fn slot buf => exact (execRxPacketWrite_frame fn slot buf s).elim h
  | completionEntryIssue fn slot => exact (execCompletionEntryIssue_frame fn slot s).elim h
  | cipherDispatch => exact (execCipherDispatch_frame s).elim h
  | keyReload idx bad => exact (execKeyReload_frame idx bad s).elim h
  | tagResult id => exact (execTagResult_frame id s).elim h
  | cipherResultRelease id => exact (execCipherResultRelease_frame id s).elim h
  | transportContextFetch onum => exact (execTransportContextFetch_frame onum s).elim h
  | rocePacketReceived p off icrcOk ce => exact (execRocePacketReceived_frame p off icrcOk ce s).elim h
  | cnpReceived p off => exact (execCnpReceived_frame p off s).elim h
  | ackTimeout onum => exact (execAckTimeout_frame onum s).elim h
  | tcpSegmentReceived p off csumOk ce => exact (execTcpSegmentReceived_frame p off csumOk ce s).elim h
  | tcpRetransmitTimeout onum => exact (execTcpRetransmitTimeout_frame onum s).elim h
  | objectNumberRelease onum => exact (execObjectNumberRelease_frame onum s).elim h
  | nvmeCommand onum => exact (execNvmeCommand_frame onum s).elim h
  | driveCompletion sp id status data => exact (execDriveCompletion_frame sp id status data s).elim h
  | driveCommandTimeout id => exact (execDriveCommandTimeout_frame id s).elim h
  | storageCacheFill line data => exact (execStorageCacheFill_frame line data s).elim h
  | drivePresenceChange sp present => exact (execDrivePresenceChange_frame sp present s).elim h
  | attentionButton sp => exact (execAttentionButton_frame sp s).elim h
  | slotPowerFault sp => exact (execSlotPowerFault_frame sp s).elim h
  | driveLinkDown sp => exact (execDriveLinkDown_frame sp s).elim h
  | slotPerstRelease sp => exact (execSlotPerstRelease_frame sp s).elim h
  | slotLinkDeadline sp => exact (execSlotLinkDeadline_frame sp s).elim h
  | driveControllerReady sp nss => exact (execDriveControllerReady_frame sp nss s).elim h
  | laserMatedChange k mated => exact (execLaserMatedChange_frame k mated s).elim h
  | laserSourceFault k => exact (execLaserSourceFault_frame k s).elim h
  | token bytes bad => exact (execToken_frame bytes bad s).elim h
  | solicit bytes bad => exact (execSolicit_frame bytes bad s).elim h
  | joinReq bytes bad => exact (execJoinReq_frame bytes bad s).elim h
  | joinAck bytes bad => exact (execJoinAck_frame bytes bad s).elim h
  | claim bytes bad => exact (execClaim_frame bytes bad s).elim h
  | leave bytes bad => exact (execLeave_frame bytes bad s).elim h
  | fireAnnounce bytes bad => exact (execFireAnnounce_frame bytes bad s).elim h
  | fireCancel bytes bad => exact (execFireCancel_frame bytes bad s).elim h
  | fireArmed bytes bad => exact (execFireArmed_frame bytes bad s).elim h
  | time bytes bad => exact (execTime_frame bytes bad s).elim h
  | alert bytes bad => exact (execAlert_frame bytes bad s).elim h
  | telemetry bytes bad => exact (execTelemetry_frame bytes bad s).elim h
  | pealContendSend clash => exact (execPealContendSend_frame clash s).elim h
  | pealSuccessorWatch => exact (execPealSuccessorWatch_frame s).elim h
  | pealTokenTimeout => exact (execPealTokenTimeout_frame s).elim h
  | pealJoinWindowEnd => exact (execPealJoinWindowEnd_frame s).elim h
  | pealSilence => exact (execPealSilence_frame s).elim h
  | telemetryPeriod => exact (execTelemetryPeriod_frame s).elim h
  | kilnBankStep k => exact (execKilnBankStep_frame k s).elim h
  | kilnBufferStep => exact (execKilnBufferStep_frame s).elim h
  | kilnBufferCopy => exact (execKilnBufferCopy_frame s).elim h
  | kilnCipherStep => exact (execKilnCipherStep_frame s).elim h
  | kilnCoreDrained => exact (execKilnCoreDrained_frame s).elim h
  | kilnCipherDrainTimeout => exact (execKilnCipherDrainTimeout_frame s).elim h
  | kilnFragWayStep k => exact (execKilnFragWayStep_frame k s).elim h
  | kilnWayDrainTimeout k => exact (execKilnWayDrainTimeout_frame k s).elim h
  | targetedTestStart slice => exact (execTargetedTestStart_frame slice s).elim h
  | kilnTestDone slice fail => exact (execKilnTestDone_frame slice fail s).elim h
  | patrolScrub corrected uncorrectable => exact (execPatrolScrub_frame corrected uncorrectable s).elim h
  | crazingSample k rings taps steps => exact (execCrazingSample_frame k rings taps steps s).elim h
  | guardbandReplan k => exact (execGuardbandReplan_frame k s).elim h
  | fiWindowOpen lane => exact (execFiWindowOpen_frame lane s).elim h
  | fiWindowEnd lane => exact (execFiWindowEnd_frame lane s).elim h
  | fiHoldRelease lane => exact (execFiHoldRelease_frame lane s).elim h
  | quiesceDrained iid => exact (execQuiesceDrained_frame iid s).elim h
  | quiesceTimeout iid => exact (execQuiesceTimeout_frame iid s).elim h
  | dirtyLogEntryWrite iid => exact (execDirtyLogEntryWrite_frame iid s).elim h
  | dirtyLogConsumerRead iid value => exact (execDirtyLogConsumerRead_frame iid value s).elim h
  | ckTTick => exact execCkTTick_frame s t h
  | pwrPgRise n => exact (execPwrPgRise_frame n s).elim h
  | laserFaultClear k => exact (execLaserFaultClear_frame k s).elim h
  | laneRefRestored k => exact (execLaneRefRestored_frame k s).elim h
  | driveLinkUp sp => exact (execDriveLinkUp_frame sp s).elim h
  | fireAnnounceLate => exact (execFireAnnounceLate_frame s).elim h
  | rnrTimerExpiry onum => exact (execRnrTimerExpiry_frame onum s).elim h
  | puntHandler k => exact (execPuntHandler_frame k s).elim h
  | cipherCoreCheckError core => exact (execCipherCoreCheckError_frame core s).elim h
  | entropyHealthRecover => exact (execEntropyHealthRecover_frame s).elim h
  | functionLevelResetDone fn => exact (execFunctionLevelResetDone_frame fn s).elim h
  | kilnCopyDone slice => exact (execKilnCopyDone_frame slice s).elim h

end Sys2Proof.Machine
end

