-- ==== Sys2Proof/Tests/Slice0.lean ====
section
/-! SUPPORT. Tests of single steps, and a witness for every hypothesis of a statement. -/
namespace Sys2Proof.Tests
open Sys2Proof Sys2Proof.Machine
set_option Elab.async false

/-! A small adapter: the firmware runs, host port 0 is up, and the physical function of HP[0] has both rings and an event ring. -/

/-- The physical function of HP[0]. -/
def pf0 : Fn :=
  { bme := true, memEn := true, cmd := { enable := true, log2 := 4, pi := 1 }, sec := { enable := true, log2 := 4, pi := 1 }
    evt := { set := true, log2 := 4 }, inst := { state := 1 } }

/-- The adapter in service. -/
def live : State :=
  { State.reset with
    pwr := { State.reset.pwr with stage := 11, ckLocked := true, safe := false, pwrok := true, released := true }
    fw := { accepted := true, ready := true }
    fns := [(0, pf0)], ports := [(0, { linkUp := true, perst := false })]
    sec := { State.reset.sec with ports := [(0, { session := 2 })] } }

/-- A command packet of the physical function of HP[0], its parameters from PARAM byte 0 on. -/
def cmd (op iid : Nat) (param : Nat := 0) (sec : Bool := false) : CmdPkt :=
  { fn := 0, sec := sec, hdr := BitVec.ofNat 128 (fld 15 0 op + fld 63 48 iid + fld 69 64 48), param := BitVec.ofNat 384 param, ind := none }

/-- The same with an INDIRECT buffer. -/
def cmdInd (op iid param : Nat) (bs : List Byte) (sec : Bool := false) : CmdPkt :=
  { cmd op iid param sec with hdr := BitVec.ofNat 128 (fld 15 0 op + fld 17 17 1 + fld 63 48 iid + fld 69 64 48), ind := some bs }

/-- A packet at the head of a ring of the adapter in service, as a check that the kernel can carry out. -/
def runsB (op : Nat) (w : Who) (secure : Bool) (c : CmdPkt) (s : State) : Bool :=
  ringLive s c.fn c.sec && c.h 95 70 == 0 && c.h 31 19 == 0 && decide (c.plen ≤ 48)
    && (!(ringOf s c.fn c.sec).seqValid || after 16 c.seq (ringOf s c.fn c.sec).lastSeq.toNat)
    && c.opcode == op && opcodeListed op && channelOk (taken c s) w secure op c && iidOk c.iid && !domainDown (taken c s) c.iid
    && !needsBuffer c && !c.isCheck

theorem runs_of {op w secure permit c s} (h : runsB op w secure c s = true) (hp : permit c (taken c s) = true) :
    Runs op w secure permit c s := by
  simp only [runsB, Bool.and_eq_true, beq_iff_eq, decide_eq_true_eq, Bool.or_eq_true, Bool.not_eq_true'] at h
  obtain ⟨⟨⟨⟨⟨⟨⟨⟨⟨⟨⟨h1, h2⟩, h3⟩, h4⟩, h5⟩, h6⟩, h7⟩, h8⟩, h9⟩, h10⟩, h11⟩, h12⟩ := h
  refine ⟨⟨⟨h1, h2, h3, h4, fun e => ?_⟩, h6, h7, h8, hp, h9, h10, h11⟩, h12⟩
  rcases h5 with h5 | h5
  · rw [h5] at e; cases e
  · exact h5

/-- A section of type `t` of instance `k`. -/
def section_ (t k : Nat) (d : List Byte) : Section := { type := t, inst := k, data := d }

/-- Zeros. -/
def zeros (n : Nat) : List Byte := List.replicate n 0

/-- A set: lanes 0 and 1 are logical ports of one lane each, with lane 1 the substitute of lane 0; PPS_OUT owns ball 0, the gate
strobe ball 1; pipeline 0 has an INDEX table 2 of 256 entries and three actions without instructions. -/
def aSet : SetSlot :=
  { valid := true, setId := 5, podGen := 9
    secs := [section_ 7 0xFF (zeros 7 ++ [0x20] ++ zeros 7 ++ [0x20]), section_ 6 0xFF [1, 0x80, 0, 0, 0, 0, 0, 0],
             section_ 0xB 0xFF ([0, 0, 1, 0, 0, 0, 0, 1] ++ [0, 0, 2, 0, 0, 1, 0, 1]),
             section_ 2 0 ([1] ++ zeros 63 ++ [2, 1, 0, 0, 1, 0, 0, 0, 1, 0, 0, 0, 0, 1] ++ zeros 50), section_ 4 0 ([3] ++ zeros 127)] }

/-- The adapter in service with that set active under epoch 0. -/
def inService : State := { live with sets := { live.sets with b := aSet, on := true } }

/-- The same with a firing armed at 20 µs. -/
def armed : State := { inService with sets := { inService.sets with a := aSet, arm := some { instant := { ns := 20000 }, target := 1 } } }
/-! Commands that are not well formed are refused, one for each check of WellFormed.lean. -/

/-- A packet of a function that is none; one on the secure channel of a virtual function; a buffer without INDIRECT. -/
theorem test_wf_packet : (cmd 0x0101 0).wf = true ∧ ({ cmd 0x0101 0 with fn := 0x1FFFF } : CmdPkt).wf = false ∧
    ({ cmd 0x0101 0 with fn := 1, sec := true } : CmdPkt).wf = false ∧ ({ cmd 0x0101 0 with ind := some [] } : CmdPkt).wf = false := by decide +kernel
theorem test_wf_slice : (Instr.targetedTestStart 272).wf = false ∧ (Instr.kilnCopyDone 8272).wf = false ∧ (Instr.targetedTestStart 271).wf = true ∧
    (Instr.kilnTestDone 0xB000 none).wf = false ∧ (Instr.kilnTestDone 0 (some (0, 16))).wf = false ∧ (Instr.startUpTest [(0xA010, 0, 0)]).wf = false := by decide +kernel
theorem test_wf_temperature : (Instr.thermComparatorTrip 0 256).wf = false ∧ (Instr.thermComparatorTrip 0 (-257)).wf = false ∧
    (Instr.regionMonitorSample 0 4096 0).wf = false ∧ (Instr.powerTotalSample 65536).wf = false ∧ (Instr.avsResponse false 0 (.readback 65536)).wf = false := by decide +kernel
theorem test_wf_time : (Instr.timeReplicaCheck 0 (some { ns := 1000000000 })).wf = false ∧ (Instr.timeReplicaCheck 0 (some {})).wf = true := by decide +kernel
theorem test_wf_image : (FwImage.wf default) = false ∧ (InitEntry.wf { (default : InitEntry) with inst := 16 }) = false ∧
    (SetInit.wf { metas := [(16, [])] }) = false ∧ (SetInit.wf {}) = true := by decide +kernel
theorem test_wf_registers : (Instr.registerWrite (.bar0 0 2) 0).wf = false ∧ (Instr.registerWrite (.internal (2 ^ 48)) 0).wf = false ∧
    (Instr.registerWrite (.bar0 0 65532) 0).wf = true ∧ (Instr.counterLowRead (.bar0 0 65536)).wf = false ∧ (Instr.configRequest 0 (.read 4096)).wf = false ∧
    (Instr.configRequest 0 (.write 2 0)).wf = false ∧ (Instr.bar2Request 0 (2 ^ 36) (.read 1)).wf = false ∧ (Instr.bar2Request 0 0 (.read 4097)).wf = false ∧
    (Instr.bar2Request 0 0 (.write (zeros 4097))).wf = false := by decide +kernel
theorem test_wf_queues : (Instr.hostDbTx 0 256 0).wf = false ∧ (Instr.hostDbTx 0x1FFFF 0 0).wf = false ∧ (Instr.msixUnmask 0 1024).wf = false ∧
    (Instr.completionTimeout 0 0 1024).wf = false ∧ (Instr.vfEnableChange 0 true 513).wf = false := by decide +kernel
theorem test_wf_messages : (Instr.getCertificate 0 8 0 0).wf = false ∧ (Instr.challenge 0 0 (zeros 31)).wf = false ∧
    (Instr.token (zeros 43) false).wf = false ∧ (Instr.keyReload 1048576 false).wf = false ∧ (Instr.ackTimeout 1048576).wf = false ∧
    (Instr.reorderTimeout 2097152).wf = false ∧ (Instr.fragmentDecided 65536).wf = false ∧ (Instr.crazingSample 0 (zeros 7 |>.map (·.toNat)) [] []).wf = false ∧
    (Instr.pfcFrameReceived 0 0 [0]).wf = false := by decide +kernel

/-! The spec's own worked examples. -/

/-- A tick across a second (under R81). -/
theorem test_tick_across_a_second : DevTime.tick { sec := 7, ns := 999999999, frac := 0xC0000000 } 0x0140000000 = { sec := 8, ns := 1, frac := 0 } := by decide +kernel
/-- Sequence numbers across the 24-bit wrap (under R85), and the tie of R84. -/
theorem test_wrap_numbers : after 24 3 16777214 = true ∧ after 24 16777200 16777214 = false ∧ after 24 (2 ^ 23) 0 = false := by decide +kernel
/-- A receive stamp that borrows back out of a second (under R94), its 8-byte form (R80), and the constant of R93. -/
theorem test_stamp : (DevTime.add { sec := 12, ns := 999999999, frac := 0xC0000000 } ((17 * 0x09EE009F : Nat) + calUnits (-1280512))) =
    { sec := 12, ns := 999999999, frac := 682444275 } ∧ bits 17 0 (DevTime.stamp { frac := 682444275 }) = 41653 ∧
    calUnits (-1280512) = -5370856604 := by decide +kernel
/-- A ring oscillator in PT_3 (under R97): 18.000 mV consumed, 42.000 mV left; and in the example under R601: 45.000 and 15.000 mV. -/
theorem test_ring_oscillator : consumed 50800 50292 28800 = 288 ∧ ringMargin 52000 (-20) 85 50292 28800 960 = 672 ∧
    consumed 50800 49530 28800 = 720 ∧ ringMargin 52000 (-20) 85 49530 28800 960 = 240 := by decide +kernel
/-- Replicas, SRAM sensors, the least margin and the forecast of the example under R601. -/
theorem test_replanning : replicaMargin 5 3072 = 300 ∧ sramMargin 11 = 352 ∧ lowestOf [(240, 0, 0), (300, 1, 0), (352, 2, 0)] = some (240, 0, 0) ∧
    forecastOf 960 560 (some 400) = 225 := by decide +kernel
/-- The offsets of LANE_STS[517] and of HOST_Q_STS of slot 2 of IID 0x3011 (under R672). -/
theorem test_addresses : regBlock 0xF00000000814 = 0 ∧ regOffset 0xF00000000814 / 4 = 517 ∧ regBlock 0xF0018614209C = 6 ∧
    fnOfIndex (regOffset 0xF0018614209C / 0x10000) = 0x3011 ∧ regOffset 0xF0018614209C % 0x10000 = 0x209C := by decide +kernel

/-! What power-on of AO leaves (R140, R344, R564, R573, R600, R612). -/

theorem test_reset : State.reset.time.now = {} ∧ State.reset.time.inc = 0x0140000000 ∧ State.reset.time.thr = 1000000 * 2 ^ 32 ∧
    State.reset.time.untrusted = false ∧ State.reset.sets.epoch = 0 ∧ State.reset.sets.on = false ∧ State.reset.sets.a.valid = false ∧
    State.reset.sets.b.valid = false ∧ kilnPeriod State.reset 0 = 10000 ∧ kilnPeriod State.reset 1 = 60000 ∧ kilnPeriod State.reset 2 = 1000 ∧
    kilnPeriod State.reset 3 = 10000 ∧ (State.reset.age.get 0).forecast = 0xFFFF ∧ State.reset.pending = [] := by decide +kernel

/-! The standards the spec names, on their published check values. -/

theorem test_crc : crc32c 0xFFFFFFFF (ascii "123456789") = 0xE3069283 ∧ fcs32 (ascii "123456789") = 0xCBF43926 := by decide +kernel
theorem test_aes : aesRounds (roundKeys (bytesBE 16 0x000102030405060708090a0b0c0d0e0f)) (bytesBE 16 0x00112233445566778899aabbccddeeff) =
    bytesBE 16 0x69c4e0d86a7b0430d8cdb78070b4c55a := by decide +kernel
/-! Witnesses for StepRunsTheFrontCommand. -/

theorem witness_step_front : ∃ s : State, s.pending = .ckTTick :: [] := ⟨{ State.reset with pending := [.ckTTick] }, rfl⟩

/-! Witnesses for EmptyQueueIdles. -/

theorem witness_idle : State.reset.pending = [] := rfl

/-! Witnesses for EveryStepTakesExactlyTheFrontCommand. -/

theorem witness_queue : step { State.reset with pending := [.laneRefRestored 0] } =
    .next { State.reset with pwr := { State.reset.pwr with lasers := [(0, { lref := true })] } } := rfl

/-! Witnesses for HbmKeepsItsCanonicalForm. -/

theorem witness_hbm : HbmCanonical State.reset ∧ step State.reset = .next State.reset := ⟨rfl, rfl⟩

/-! Witnesses for HbmReadsWhatWasWritten. -/

theorem witness_hbm_write : Memory.wf (Memory.writeAll {} 5 [1, 0, 2]) = true ∧
    Memory.read (Memory.writeAll {} 5 [1, 0, 2]) 7 = 2 ∧ Memory.read (Memory.writeAll {} 5 [1, 0, 2]) 8 = 0 := by decide +kernel

/-! Witnesses for LifeCycleMovesForwardOnly. -/

theorem witness_lc : step State.reset = .next State.reset := rfl

/-! Witnesses for MinimumSvnNeverDecreases. -/

theorem witness_svn : step { State.reset with pending := [.entropyHealthFail] } =
    .next { State.reset with sec := { State.reset.sec with entropyFail := true } } := rfl

/-! Witnesses for EpochMovesOnlyAtAFiringOrAReset. -/

theorem witness_epoch : step State.reset = .next State.reset := rfl

/-! Witnesses for DeviceTimeMovesOnlyAtATick. -/

theorem witness_time : step State.reset = .next State.reset := rfl

/-! Witnesses for PacketCommandsCarryWellFormedPackets. -/

theorem witness_packet : (Instr.timeGet default).wf = true ∧ (Instr.timeGet default).packet = some default := by decide

/-! Witnesses for DeviceTimeLayoutRoundTrips. -/

theorem witness_devtime : DevTime.valid { sec := 2 ^ 48 - 1, ns := 999999999, frac := 2 ^ 32 - 1 } = true := by decide +kernel

/-! Witnesses for AdapterCommandsReplyAndTakeEffect. -/

theorem witness_adapter_info : Runs 0x0101 .V false always (cmd 0x0101 0) live := runs_of (by decide +kernel) rfl
theorem witness_fw_status : Runs 0x0102 .V false always (cmd 0x0102 0) live := runs_of (by decide +kernel) rfl
theorem witness_fw_update : Runs 0x0103 .A true always (cmdInd 0x0103 0 (2 ^ 96) [] true) live ∧
    (cmdInd 0x0103 0 (2 ^ 96) [] true).p 12 1 = 1 ∧ live.fw.slot = 0 := ⟨runs_of (by decide +kernel) rfl, by decide +kernel, rfl⟩
theorem witness_fw_activate : Runs 0x0104 .A true always (cmd 0x0104 0 0 true) { live with fw := { live.fw with slot0 := some default } } ∧
    slotImage { live with fw := { live.fw with slot0 := some default } } ((cmd 0x0104 0 0 true).p 0 1) = some default :=
  ⟨runs_of (by decide +kernel) rfl, by decide +kernel⟩
theorem witness_node_id : Runs 0x0108 .A true always (cmd 0x0108 0 511 true) live ∧ (cmd 0x0108 0 511 true).p 0 2 = 511 ∧
    live.peal.member = false := ⟨runs_of (by decide +kernel) rfl, by decide +kernel, rfl⟩
theorem witness_counter_read : Runs 0x0109 .V false always (cmdInd 0x0109 0 (2 ^ 64 * 16 + 2 ^ 96 * 0xF900 + 2 ^ 128 * 10 + 2 ^ 160) []) live ∧
    (cmdInd 0x0109 0 (2 ^ 64 * 16 + 2 ^ 96 * 0xF900 + 2 ^ 128 * 10 + 2 ^ 160) []).p 16 4 + 1 = blockSize 0xF900 :=
  ⟨runs_of (by decide +kernel) rfl, by decide +kernel⟩

/-! Witnesses for EventAndPuntRingsAreSet. -/

theorem witness_evt_ring : Runs 0x0105 .P false always (cmd 0x0105 0 (2 ^ 64 * 4)) live ∧ (cmd 0x0105 0 (2 ^ 64 * 4)).p 8 1 = 4 ∧
    (fnOf live 0).evt.held = [] := ⟨runs_of (by decide +kernel) rfl, by decide +kernel, rfl⟩
theorem witness_evt_subscribe : Runs 0x0106 .P false always (cmd 0x0106 0 (2 ^ 16 * 3)) live ∧ (cmd 0x0106 0 (2 ^ 16 * 3)).p 2 1 = 3 :=
  ⟨runs_of (by decide +kernel) rfl, by decide +kernel⟩
theorem witness_punt_ring : Runs 0x0107 .A false always (cmd 0x0107 0 (2 ^ 64 * 12)) live ∧ (cmd 0x0107 0 (2 ^ 64 * 12)).p 8 1 = 12 ∧
    (fnOf live 0).punt.dropped = 0 := ⟨runs_of (by decide +kernel) rfl, by decide +kernel, rfl⟩

/-! Witnesses for InstanceCommandsMoveTheInstance. -/

/-- Virtual function 1 of HP[0], in a state of R508. -/
def vf1 (st : Nat) : State :=
  { live with fns := [(0, { pf0 with vfEnable := true, numVfs := 2 }), (1, { bme := true, inst := { state := st, qbase := 8, qcount := 2 } })] }
theorem witness_inst_config : Runs 0x0201 .P false always (cmd 0x0201 1 (2 ^ 16 * 256)) (vf1 1) ∧
    fnExists (taken (cmd 0x0201 1 (2 ^ 16 * 256)) (vf1 1)) 1 = true ∧ rangeTaken (taken (cmd 0x0201 1 (2 ^ 16 * 256)) (vf1 1)) 1 0 256 = false ∧
    (List.range 256).all (fun k => !leafClassOther (taken (cmd 0x0201 1 (2 ^ 16 * 256)) (vf1 1)) k 0) = true :=
  ⟨runs_of (by decide +kernel) rfl, by decide +kernel, by decide +kernel, by decide +kernel⟩
theorem witness_inst_quiesce : Runs 0x0202 .P false always (cmd 0x0202 1 100000) (vf1 3) ∧
    Runs 0x0202 .P false always (cmd 0x0202 1 1) (vf1 1) := ⟨runs_of (by decide +kernel) rfl, runs_of (by decide +kernel) rfl⟩
theorem witness_inst_reset : Runs 0x0203 .P false always (cmd 0x0203 1) (vf1 3) ∧
    resettable (cmd 0x0203 1) (taken (cmd 0x0203 1) (vf1 3)) = true := ⟨runs_of (by decide +kernel) rfl, by decide +kernel⟩
theorem witness_inst_remove : Runs 0x0204 .P false (fun c _ => !(isPf c.iid && iidOk c.iid) || (c.fn == 0 && c.iid != 0))
    (cmd 0x0204 1) (vf1 3) ∧ resettable (cmd 0x0204 1) (taken (cmd 0x0204 1) (vf1 3)) = true :=
  ⟨runs_of (by decide +kernel) (by decide +kernel), by decide +kernel⟩

/-! Witnesses for DirtyLogCommandsKeepTheLog. -/

/-- Virtual function 1 with a log. -/
def vfLog (d : DirtyLog) : State :=
  { live with fns := [(0, { pf0 with vfEnable := true, numVfs := 2 }), (1, { bme := true, inst := { state := 1, log := some d } })] }
theorem witness_log_start : Runs 0x0206 .P false always (cmd 0x0206 1 (2 ^ 64 * 24)) (vf1 1) ∧ (cmd 0x0206 1 (2 ^ 64 * 24)).p 8 1 = 24 ∧
    ((taken (cmd 0x0206 1 (2 ^ 64 * 24)) (vf1 1)).fns.filter fun p => p.2.inst.log.isSome).length < 64 :=
  ⟨runs_of (by decide +kernel) rfl, by decide +kernel, by decide +kernel⟩
theorem witness_log_harvest : Runs 0x0207 .P false always (cmdInd 0x0207 1 (2 ^ 64 * 16) []) (vfLog { producer := 1024, staged := [7, 9] }) ∧
    (fnOf (taken (cmdInd 0x0207 1 (2 ^ 64 * 16) []) (vfLog { producer := 1024, staged := [7, 9] })) 1).inst.log = some { producer := 1024, staged := [7, 9] } ∧
    DirtyLog.room { producer := 1024, staged := [7, 9] } = false := ⟨runs_of (by decide +kernel) rfl, by decide +kernel, by decide +kernel⟩
theorem witness_log_stop : Runs 0x0208 .P false always (cmd 0x0208 1) (vfLog {}) := runs_of (by decide +kernel) rfl
theorem witness_log_write : (fnOf (vfLog { staged := [7] }) 1).inst.log = some { staged := [7] } ∧
    DirtyLog.room { staged := [7] } = true := by decide +kernel
theorem witness_log_consumer : (fnOf (vfLog { producer := 1024, staged := [7] }) 1).inst.log = some { producer := 1024, staged := [7] } ∧
    DirtyLog.room { producer := 1024, staged := [7] } = false ∧
    DirtyLog.room { producer := 1024, staged := [7], consumer := 1 } = true := by decide +kernel

/-! Witnesses for QueueAndWindowCommandsWriteTheirRegisters. -/

/-- The physical function of HP[0] with two queue slots, of which slot 1 is stopped. -/
def queues (st : Nat) : State :=
  { live with fns := [(0, { pf0 with inst := { state := st, qcount := 2 }, slots := [(1, { txEn := true, stopped := true })] })] }
theorem witness_queue_restart : Runs 0x0205 .V false always (cmd 0x0205 0 1 true) { queues 2 with fw := live.fw } ∧
    slotExists (taken (cmd 0x0205 0 1 true) (queues 2)) 0 1 = true ∧ ((fnOf (taken (cmd 0x0205 0 1 true) (queues 2)) 0).slots.get 1).stopped = true :=
  ⟨runs_of (by decide +kernel) rfl, by decide +kernel, by decide +kernel⟩
theorem witness_mbox_status : Runs 0x0209 .V false always (cmd 0x0209 0 512) live ∧ chanExists 0 512 = true ∧
    Runs 0x0209 .V false always (cmd 0x0209 0 0x8000) live ∧ Runs 0x0209 .V false always (cmd 0x0209 0 0x8001) live ∧
    Runs 0x0209 .V false always (cmd 0x0209 0 0x4000) live ∧ isPf 0 = true :=
  ⟨runs_of (by decide +kernel) rfl, rfl, runs_of (by decide +kernel) rfl, runs_of (by decide +kernel) rfl, runs_of (by decide +kernel) rfl, rfl⟩
theorem witness_window_write : Runs 0x0D01 .P false always (cmd 0x0D01 0 (2 ^ 64 * 28 + 2 ^ 72 * 3 + 2 ^ 16 * 0x002FF0000000)) live ∧
    (cmd 0x0D01 0 (2 ^ 64 * 28 + 2 ^ 72 * 3 + 2 ^ 16 * 0x002FF0000000)).p 2 6 + 2 ^ 28 = 0x003000000000 :=
  ⟨runs_of (by decide +kernel) rfl, by decide +kernel⟩
theorem witness_window_commit : Runs 0x0D02 .P false always (cmd 0x0D02 0) live := runs_of (by decide +kernel) rfl
theorem witness_msix_map : Runs 0x0D03 .V false always (cmd 0x0D03 0 (1 + 2 ^ 16 * 1023)) (queues 1) ∧
    slotExists (taken (cmd 0x0D03 0 (1 + 2 ^ 16 * 1023)) (queues 1)) 0 1 = true ∧ vectorCount 0 = 1024 :=
  ⟨runs_of (by decide +kernel) rfl, by decide +kernel, rfl⟩
theorem witness_queue_ro : Runs 0x0D04 .V false always (cmd 0x0D04 0 2) (queues 1) ∧
    slotExists (taken (cmd 0x0D04 0 2) (queues 1)) 0 2 = false := ⟨runs_of (by decide +kernel) rfl, by decide +kernel⟩

/-! Witnesses for ATickAddsTheIncrementExactly. -/

theorem witness_tick : DevTime.valid { sec := 7, ns := 999999999, frac := 0xC0000000 } = true ∧
    DevTime.tick { sec := 7, ns := 999999999, frac := 0xC0000000 } 0x0140000000 = { sec := 8, ns := 1, frac := 0 } := by decide +kernel
theorem test_tick_wraps : DevTime.tick { sec := 2 ^ 48 - 1, ns := 999999999, frac := 2 ^ 32 - 1 } 1 = { sec := 0, ns := 0, frac := 0 } := by
  decide +kernel

/-! Witnesses for TimeCommandsActAtTheNextTick. -/

theorem witness_time_get : Runs 0x0501 .V false always (cmd 0x0501 0) live := runs_of (by decide +kernel) rfl
theorem witness_time_inc : Runs 0x0502 .A false always (cmd 0x0502 0 0x014051EB85) live ∧ (cmd 0x0502 0 0x014051EB85).p 0 8 = 0x014051EB85 :=
  ⟨runs_of (by decide +kernel) rfl, by decide +kernel⟩
theorem witness_time_adjust : Runs 0x0503 .A false always (cmd 0x0503 0 (1000000 * 2 ^ 32)) live ∧
    (cmd 0x0503 0 (1000000 * 2 ^ 32)).p 10 38 = 0 ∧ (toSigned 80 ((cmd 0x0503 0 (1000000 * 2 ^ 32)).p 0 10)).natAbs = live.time.thr :=
  ⟨runs_of (by decide +kernel) rfl, by decide +kernel, by decide +kernel⟩
theorem witness_time_set : Runs 0x0504 .A true always (cmd 0x0504 0 (2 ^ 32 * 999999999) true) live := runs_of (by decide +kernel) rfl
theorem witness_time_thr : Runs 0x0505 .A true always (cmd 0x0505 0 (1000 * 2 ^ 32) true) live := runs_of (by decide +kernel) rfl

/-! Witnesses for TheTickCarriesOutOneChange. -/

theorem witness_tick_plain : live.pwr.ckLocked = true ∧ live.time.queue = [] ∧ live.time.now.units ≤ (live.time.now.tick live.time.inc).units := by
  decide +kernel
theorem witness_tick_set : ({ live with time := { live.time with queue := [.set { sec := 5 } 0 true] } } : State).time.queue =
    [.set { sec := 5 } 0 true] := rfl
theorem witness_tick_unlocked : State.reset.pwr.ckLocked = false := rfl
theorem witness_replica : (some { ns := 3 } : Option DevTime).getD (live.time.replicas.getD 22 live.time.now) ≠ live.time.now ∧
    live.time.replicas.getD 22 live.time.now = live.time.now := by decide +kernel

/-! Witnesses for GatesAndPulsesFollowDeviceTime. -/

theorem witness_ts_cal : Runs 0x0507 .A false always (cmd 0x0507 0 (1023 + 2 ^ 16)) live ∧ (cmd 0x0507 0 (1023 + 2 ^ 16)).p 0 2 = 1023 :=
  ⟨runs_of (by decide +kernel) rfl, by decide +kernel⟩
theorem witness_pps_off : Runs 0x0508 .A false always (cmd 0x0508 0) live ∧ (cmd 0x0508 0).p 0 1 % 2 = 0 :=
  ⟨runs_of (by decide +kernel) rfl, by decide +kernel⟩
theorem witness_pps_rise : 0 < DevTime.diff { sec := 1 } { ns := 999999999 } ∧ ({ sec := 1 } : DevTime).sec ≠ ({ ns := 999999999 } : DevTime).sec := by
  decide +kernel
theorem witness_pps_fall : ({ live with time := { live.time with ppsHigh := true } } : State).time.ppsFallAt ≤ live.tick := by decide
theorem witness_gate_start : live.time.now.reached ({ cycle := 5 } : GateList).start = true := by decide +kernel
/-- A GATE_LOAD of one entry of 1 µs for the logical port of lane 1. -/
def gateLoad1 : CmdPkt := cmdInd 0x0506 0 (2 ^ 64 * 8 + 2 ^ 96 + 2 ^ 128 * (1000 * 2 ^ 32)) [0xFF, 0, 0, 0, 0xE8, 3, 0, 0]
theorem witness_gate_load : Runs 0x0506 .A false always gateLoad1 inService ∧ gateEntriesOk (gateLoad1.ind.getD []) = true ∧
    gateLoad1.p 12 2 = 1 ∧ isLogicalPort inService 1 = true ∧ 1 ≤ gateLoad1.p 16 8 ∧ gateLoad1.p 8 4 = 8 ∧ gateLoad1.p 40 8 = 0 :=
  ⟨runs_of (by decide +kernel) rfl, by decide +kernel, by decide +kernel, by decide +kernel, by decide +kernel, by decide +kernel, by decide +kernel⟩
theorem witness_pps_on : Runs 0x0508 .A false always (cmd 0x0508 0 (1 + 2 ^ 32 * 500000)) inService ∧ ownsBall inService 0 1 = true :=
  ⟨runs_of (by decide +kernel) rfl, by decide +kernel⟩

/-! Witnesses for TableCommandsWriteTheEntriesTheyName. -/

/-- A TBL_INSERT of key 3, action 1 into table 2 of pipeline 0 of the active set. -/
def insert3 : CmdPkt := cmdInd 0x0301 0 (2 ^ 64 * 14 + 2 ^ 112 * 2) (3 :: 1 :: List.replicate 12 0)
theorem witness_insert : Runs 0x0301 .A false always insert3 inService ∧
    (insertArgs (taken insert3 inService) insert3).isOk = true := ⟨runs_of (by decide +kernel) rfl, by decide +kernel⟩
/-- The same set with the entry. -/
def withEntry : State := updSet 0 (fun x => { x with entries := [(tKey 0 2 3, { key := [3], action := 1, data := List.replicate 12 0 })] }) inService
theorem witness_insert_present : Runs 0x0301 .A false always insert3 withEntry ∧
    ((insertArgs (taken insert3 withEntry) insert3).toOption.map fun x => x.1.find x.2.1) = some (some 3) ∧
    ((insertArgs (taken insert3 inService) insert3).toOption.map fun x => x.1.find x.2.1) = some none ∧
    ((insertArgs (taken insert3 inService) insert3).toOption.map fun x => TblRef.free inService x.1 x.2.1) = some (some 3) :=
  ⟨runs_of (by decide +kernel) rfl, by decide +kernel, by decide +kernel, by decide +kernel⟩
theorem witness_delete : Runs 0x0302 .A false always (cmd 0x0302 0 (2 ^ 16 * 2 + 2 ^ 32 * 3)) withEntry ∧
    (deleteArgs (taken (cmd 0x0302 0 (2 ^ 16 * 2 + 2 ^ 32 * 3)) withEntry) (cmd 0x0302 0 (2 ^ 16 * 2 + 2 ^ 32 * 3))).isOk = true :=
  ⟨runs_of (by decide +kernel) rfl, by decide +kernel⟩
theorem witness_modify : Runs 0x0303 .A false always (cmdInd 0x0303 0 (2 ^ 64 * 14 + 2 ^ 112 * 2) (3 :: 2 :: List.replicate 12 0)) withEntry :=
  runs_of (by decide +kernel) rfl
theorem witness_lookup : Runs 0x0304 .A false always (cmdInd 0x0304 0 (2 ^ 64 * 16 + 2 ^ 112 * 2) [3]) withEntry ∧
    (lookupArgs (taken (cmdInd 0x0304 0 (2 ^ 64 * 16 + 2 ^ 112 * 2) [3]) withEntry) (cmdInd 0x0304 0 (2 ^ 64 * 16 + 2 ^ 112 * 2) [3])).isOk = true :=
  ⟨runs_of (by decide +kernel) rfl, by decide +kernel⟩
theorem witness_dump : Runs 0x0305 .A false always (cmdInd 0x0305 0 (2 ^ 64 * 20 + 2 ^ 112 * 2 + 2 ^ 160 * 1024) []) withEntry ∧
    (dumpArgs (taken (cmdInd 0x0305 0 (2 ^ 64 * 20 + 2 ^ 112 * 2 + 2 ^ 160 * 1024) []) withEntry)
      (cmdInd 0x0305 0 (2 ^ 64 * 20 + 2 ^ 112 * 2 + 2 ^ 160 * 1024) [])).isOk = true :=
  ⟨runs_of (by decide +kernel) rfl, by decide +kernel⟩

/-! Witnesses for AgeingAndLearningAreConfigured. -/

theorem witness_age_cfg : Runs 0x0306 .A false always (cmd 0x0306 0 (2 ^ 8 * 2 + 2 ^ 32 * 3600000)) inService ∧
    (tableOf (activeSet inService) 0 2).isSome = true := ⟨runs_of (by decide +kernel) rfl, by decide +kernel⟩
theorem witness_learn_cfg : Runs 0x0307 .A false always (cmd 0x0307 0 (15 + 2 ^ 16 * 1024)) live ∧
    Runs 0x0307 .A false always (cmd 0x0307 0 16) live := ⟨runs_of (by decide +kernel) rfl, runs_of (by decide +kernel) rfl⟩
theorem witness_feature : Runs 0x0405 .A false always (cmd 0x0405 0 (2 + 2 ^ 16 + 2 ^ 32 + 2 ^ 48)) inService ∧
    featureOk 1 1 2 = true ∧ ownerFeature (activeSet inService) 1 1 = 2 ∧
    Runs 0x0405 .A false always (cmd 0x0405 0 (3 + 2 ^ 16 * 2 + 2 ^ 32 * 1023 + 2 ^ 48)) inService ∧ featureOk 2 1023 3 = true ∧
    ownerFeature (activeSet inService) 2 1023 ≠ 3 :=
  ⟨runs_of (by decide +kernel) rfl, rfl, by decide +kernel, runs_of (by decide +kernel) rfl, rfl, by decide +kernel⟩

/-! Witnesses for SetsAreLoadedArmedAndCancelled. -/

theorem witness_set_load : Runs 0x0401 .A false always (cmdInd 0x0401 0 0 []) live ∧ shadowState live = 0 :=
  ⟨runs_of (by decide +kernel) rfl, by decide +kernel⟩
theorem witness_set_load_busy : Runs 0x0401 .A false always (cmdInd 0x0401 0 0 []) { inService with sets := { inService.sets with drain := some 65535 } } ∧
    shadowState { inService with sets := { inService.sets with drain := some 65535 } } = 4 ∧
    Runs 0x0401 .A false always (cmdInd 0x0401 0 0 []) armed ∧ shadowState armed = 3 :=
  ⟨runs_of (by decide +kernel) rfl, by decide +kernel, runs_of (by decide +kernel) rfl, by decide +kernel⟩
/-- A SET_FIRE at 10 µs from now. -/
def fire10 : CmdPkt := cmd 0x0402 0 (2 ^ 32 * 10000)
theorem witness_set_fire : Runs 0x0402 .A false always fire10 { inService with sets := { inService.sets with a := aSet } } ∧
    (fireInstant fire10).valid = true ∧ fire10.p 0 16 = (fireInstant fire10).full ∧
    shadowState { inService with sets := { inService.sets with a := aSet } } = 2 ∧
    DevTime.diff (fireInstant fire10) live.time.now = 10000 * 2 ^ 32 :=
  ⟨runs_of (by decide +kernel) rfl, by decide +kernel, by decide +kernel, by decide +kernel, by decide +kernel⟩
/-- A pod-wide SET_FIRE at 50 ms from now. -/
def firePod : CmdPkt := cmd 0x0402 0 (2 ^ 32 * 50000000 + 2 ^ 128)
theorem witness_set_fire_pod : Runs 0x0402 .A false always firePod { inService with peal := { inService.peal with member := true } } ∧
    firePod.p 16 1 = 1 ∧ DevTime.diff (fireInstant firePod) live.time.now = 50000000 * 2 ^ 32 :=
  ⟨runs_of (by decide +kernel) rfl, by decide +kernel, by decide +kernel⟩
theorem witness_set_cancel : Runs 0x0403 .A false always (cmd 0x0403 0) live ∧ live.sets.arm = none ∧
    Runs 0x0403 .A false always (cmd 0x0403 0) armed ∧ armed.sets.arm ≠ none ∧ nearFiring armed = false :=
  ⟨runs_of (by decide +kernel) rfl, rfl, runs_of (by decide +kernel) rfl, by decide +kernel, by decide +kernel⟩
theorem witness_set_status : Runs 0x0404 .V false always (cmd 0x0404 0) inService ∧ inService.sets.epoch < 2 ^ 16 :=
  ⟨runs_of (by decide +kernel) rfl, by decide +kernel⟩

/-! Witnesses for AFiringMakesTheShadowActive. -/

theorem witness_firing : armed.sets.arm ≠ none ∧ armed.pwr.released = true ∧ armed.time.now.reached { ns := 0 } = true ∧
    armed.time.now.reached { ns := 20000 } = false := by decide +kernel
theorem witness_straddle : (20 : Nat) ≤ ({ live with tick := 20, sets := { live.sets with straddle := some 3, straddleBy := 20 } } : State).tick := by decide
theorem witness_drain : epochCount live 65535 = 0 ∧ epochCount { live with pkts := [(0, { counted := true, epoch := 4 })] } 4 = 1 := by decide +kernel

/-! Witnesses for ThePowerOnOrderRuns. -/

theorem witness_power_on : State.reset.pwr.pwrok = false ∧ State.reset.pwr.tripped = false := by decide
theorem witness_trip_lock : ({ live with pwr := { live.pwr with tripped := true, stage := 12 } } : State).pwr.stage = 12 := rfl
/-- A power-on in a stage. -/
def atStage (n : Nat) : State := { State.reset with fw := { accepted := true }, pwr := { State.reset.pwr with stage := n, en := 7#3, pwrok := true } }
theorem witness_pg_rise : (atStage 3).pwr.stage = (2 : Fin 3).val + 1 ∧ (atStage 3).pwr.en.getLsbD (2 : Fin 3).val = true ∧
    (atStage 1).pwr.stage = (0 : Fin 3).val + 1 := by decide
theorem witness_lock : (atStage 4).pwr.relock = false := rfl
theorem witness_boot : (atStage 6).fw.recovery = false ∧ (atStage 6).sec.lc = 1 := ⟨rfl, rfl⟩
theorem witness_recovery : ({ atStage 6 with fw := {}, tick := 800000000 } : State).fw.accepted = false := rfl
theorem witness_start_up : (atStage 9).kiln.holds = [] ∧ (atStage 9).fw.accepted = true ∧ (atStage 10).fw.ready = false := ⟨rfl, rfl, rfl⟩
theorem witness_heartbeat : live.fw.ready = true := rfl

/-! Witnesses for LossesLeadToTheSafeState. -/

theorem witness_lock_lost : live.pwr.ckLocked = true ∧ live.pwr.stage = 11 ∧ live.pwr.pwrok = true ∧ monitorRuns live 0 = true := by decide
theorem witness_relock : ({ atStage 4 with pwr := { (atStage 4).pwr with relock := true } } : State).pwr.stage = 4 := rfl
theorem witness_pg_lost : (atStage 11).pwr.en.getLsbD (2 : Fin 3).val = true := by decide

/-! Witnesses for RegionLimitsStretchAndCapsStep. -/

/-- A state whose region 0 is as given. -/
def withRegion (r : Region) (n : Nat) : State := { live with tick := n, pwr := { live.pwr with regions := [(0, r)] } }
theorem witness_rise : (regionOf (withRegion { limitV := true, monStep := 2, monAt := 0 } 8000) 0).monAt + 8000 ≤ 8000 ∧
    (regionOf (withRegion { limitT := true } 0) 0).monStep = 0 := by decide
theorem witness_fall : (regionOf (withRegion { calm := some 0, monStep := 3 } 80000) 0).calm = some 0 := by decide
theorem witness_repeat : (regionOf (withRegion { monStep := 3, repeatAt := 7 } 7) 0).repeatAt ≤ 7 := by decide
theorem witness_raise : (regionOf (withRegion { lowSince := some 0, setMv := 855 } 800000) 0).setMv + 5 = 860 := by decide
theorem witness_cap_rise : ({ live with tick := 8000000, pwr := { live.pwr with overCap := true } } : State).pwr.capAt + 8000000 ≤ 8000000 ∧
    (List.replicate 10 11521).sum > 720 * 160 ∧ (List.replicate 10 (10944)).sum * 100 ≤ 720 * 160 * 95 := by decide
theorem witness_thermal : (regionOf (withRegion { tj := 120, thermStep := 2 } 8000000) 0).thermStep < 3 ∧
    (regionOf (withRegion { tj := 114, thermStep := 1 } 80000000) 0).tj < 115 := by decide

/-! Witnesses for RailsLasersAndPowerCommands. -/

theorem witness_avs : live.pwr.avsTries.get 0 < 2 ∧ (regionOf (withRegion { setMv := 800 } 0) 0).setMv * 16 + 160 < 12961 := by decide
theorem witness_avs_faulted : (16 * bit (railOf 21).1 + (railOf 21).2) ∈ ({ live with pwr := { live.pwr with avsFaulted := [21] } } : State).pwr.avsFaulted := by decide
theorem witness_laser : (live.pwr.lasers.get 15).mated = false := by decide
theorem witness_pwr_status : Runs 0x0B01 .V false always (cmd 0x0B01 0) live ∧ live.pwr.cap < 2 ^ 16 := ⟨runs_of (by decide +kernel) rfl, by decide⟩
theorem witness_pwr_cap : Runs 0x0B02 .A false always (cmd 0x0B02 0 300) live ∧ Runs 0x0B02 .A false always (cmd 0x0B02 0 721) live :=
  ⟨runs_of (by decide +kernel) rfl, runs_of (by decide +kernel) rfl⟩
theorem witness_telem_cfg : Runs 0x0B03 .A false always (cmd 0x0B03 0 (60000 + 2 ^ 16)) live := runs_of (by decide +kernel) rfl

/-! Witnesses for RingRegistersDriveTheRing. -/

theorem witness_doorbell : bar0Open live 0 = true ∧ isPf 0 = true ∧ (ringOf live 0 false).enable = true ∧
    2 ^ (ringOf live 0 false).log2.toNat < ((17#32).extractLsb' 0 16 - (ringOf live 0 false).ci).toNat ∧
    ¬ 2 ^ (ringOf live 0 false).log2.toNat < ((16#32).extractLsb' 0 16 - (ringOf live 0 false).ci).toNat := by decide +kernel
theorem witness_ring_enable : bar0Open (setRing 0 false (fun _ => {}) live) 0 = true ∧ (0x8000000C#32).getLsbD 31 = true ∧
    (ringOf (setRing 0 false (fun _ => {}) live) 0 false).enable = false := by decide +kernel
theorem witness_ring_live : ringLive live 0 false = true ∧ ringLive live 0 true = true := by decide +kernel

/-! Witnesses for EveryCommandIsAnswered. -/

theorem witness_bad_plen : ringLive live 0 false = true ∧ 48 < (CmdPkt.plen { cmd 0x0101 0 with hdr := BitVec.ofNat 128 (fld 69 64 49 + 0x0101) }) := by decide +kernel
theorem witness_bad_seq : after 16 (cmd 0x0101 0).seq 0 = false ∧ opcodeListed 0x0110 = false := by decide +kernel
theorem witness_check : Passes 0x0101 .V false always { cmd 0x0101 0 with hdr := (cmd 0x0101 0).hdr ||| BitVec.ofNat 128 (2 ^ 18) } live ∧
    CmdPkt.isCheck { cmd 0x0101 0 with hdr := (cmd 0x0101 0).hdr ||| BitVec.ofNat 128 (2 ^ 18) } = true := by
  refine ⟨⟨⟨by decide +kernel, by decide +kernel, by decide +kernel, by decide +kernel, fun h => ?_⟩, by decide +kernel, by decide +kernel,
    by decide +kernel, rfl, by decide +kernel, by decide +kernel, by decide +kernel⟩, by decide +kernel⟩
  exact absurd h (by decide +kernel)
theorem witness_reply : (fnOf (taken (cmd 0x0101 0) live) 0).bme = true ∧ (ringOf (taken (cmd 0x0101 0) live) 0 false).exec ≠ none := by decide +kernel

/-! Witnesses for KeysAreDerivedCountedAndDestroyed. -/

/-- A KEY_DERIVE of an AES-128 GCM key of the adapter domain from root 0, label 1 byte, limits 16. -/
def derive1 : CmdPkt := cmd 0x0601 0 (2 ^ 8 + 2 ^ 16 * 16 + 2 ^ 64 * 16 + 2 ^ 120 * 0xFF + 2 ^ 128 * 65)
theorem witness_derive : Runs 0x0601 .P false (fun c s => (c.fn == 0 || c.p 15 1 == portOf c.fn) && s.sec.roots.has (bits 3 2 (c.p 0 1))) derive1 live ∧
    keyDeriveCheck derive1 (taken derive1 live) = none ∧ (deriveKey derive1).limitI = 16 ∧ (deriveKey derive1).limitB = 16 :=
  ⟨runs_of (by decide +kernel) (by decide +kernel), by decide +kernel, by decide +kernel, by decide +kernel⟩
/-- The adapter with that key live at index 0. -/
def keyed : State := { live with keys := { slots := [(0, { gen := 4095, key := some (deriveKey derive1) })] } }
theorem witness_destroy : Runs 0x0602 .P false always (cmd 0x0602 0 (4095 * 2 ^ 20)) keyed ∧ liveHandle keyed (4095 * 2 ^ 20) = some 0 ∧
    liveHandle keyed 0 = none := ⟨runs_of (by decide +kernel) rfl, by decide +kernel, by decide +kernel⟩
theorem witness_query : Runs 0x0603 .P false always (cmd 0x0603 0 (4095 * 2 ^ 20)) keyed := runs_of (by decide +kernel) rfl
theorem witness_dummy_rate : Runs 0x0604 .A true (fun c s => c.p 0 2 ≥ 0x0100 || s.sec.lc != 2 || s.sec.lowrate) (cmd 0x0604 0 0x2000 true) live :=
  runs_of (by decide +kernel) (by decide +kernel)
theorem witness_reload : (keySlot keyed 0).key = some (deriveKey derive1) ∧ 0 ∉ keyed.keys.cache := ⟨rfl, by decide⟩

/-! Witnesses for TheCipherComplexAdmitsWithinTheLimits. -/

/-- An operation of packet 0 under key 0, and the adapter with it waiting. -/
def sealOp : CipherOp := { req := .packet 0, len := 240 }
def sealing1 (n : Nat) : State :=
  { keyed with keys := { slots := [(0, { key := some { deriveKey derive1 with bcnt := n } })], cache := [0] }, ciph := { queue := [sealOp] } }
theorem witness_dispatch : nextOp (sealing1 1) (sealing1 1).ciph.queue [] = some sealOp ∧ pickCore (sealing1 1) = some 0 ∧ 1 + sealOp.blocks = 16 ∧
    refusal (sealing1 1) sealOp = none ∧ refusal (sealing1 2) sealOp = some 1 := by decide +kernel
/-- An opened operation bound to core 0. -/
def openOp : CipherOp := { id := 4, open_ := true, core := some 0, known := true }
theorem witness_release : ({ live with ciph := { bound := [openOp] } } : State).ciph.bound.find? (fun x => x.id == openOp.id) = some openOp ∧
    ({ live with ciph := { bound := [{ openOp with id := 3 }, openOp] } } : State).ciph.bound.find? (fun x => x.key == openOp.key && x.open_ == openOp.open_)
      = some { openOp with id := 3 } := by decide +kernel
theorem witness_core_check : live.kiln.blocks.contains (sliceId 2 79) = false ∧ live.kiln.core = none := by decide

/-! Witnesses for LanesMoveBetweenTheirStates. -/

/-- The adapter in service with lane 0 in a state, and its substitute, lane 1, ACTIVE. -/
def lane0 (l : Lane) : State := { inService with lanes := [(0, l), (1, { state := 3 })] }
theorem witness_lane_down : setActive (lane0 { state := 3 }) = true ∧ laneListed (activeSet (lane0 { state := 3 })) 0 = true ∧
    laneFec (activeSet (lane0 { state := 3 })) 0 = false := by decide +kernel
theorem witness_lock_held : laneLost (lane0 { state := 5 }) 0 = false ∧ (lane0 { state := 5 }).pwr.released = true ∧
    80000 ≤ { lane0 { state := 5 } with tick := 80000 }.tick := by decide
theorem witness_wake_timeout : (lane (lane0 { state := 5, wakeBy := some 0 }) 0).wakeBy = some 0 := by decide
theorem witness_park : Runs 0x0702 .A false always (cmd 0x0702 0) (lane0 { state := 3 }) ∧ (cmd 0x0702 0).p 0 2 = 0 ∧
    (substs (activeSet (lane0 { state := 3 })) 0).any (fun e => laneActive (lane0 { state := 3 }) e.2) = true ∧
    (substs (activeSet (lane0 { state := 3 })) 1).all (fun e => !laneActive (lane0 { state := 3 }) e.2) = true :=
  ⟨runs_of (by decide +kernel) rfl, by decide +kernel, by decide +kernel, by decide +kernel⟩
theorem witness_wake : Runs 0x0703 .A false always (cmd 0x0703 0 1023) live ∧ (cmd 0x0703 0 1023).p 0 2 = 1023 :=
  ⟨runs_of (by decide +kernel) rfl, by decide +kernel⟩
theorem witness_subst_status : Runs 0x0704 .A false always (cmd 0x0704 0 1023) live := runs_of (by decide +kernel) rfl
theorem witness_lane_status : Runs 0x0701 .A false always (cmdInd 0x0701 0 (2 ^ 64 * 1024 + 2 ^ 96 * 960 + 2 ^ 112 * 64) []) live ∧
    (cmdInd 0x0701 0 (2 ^ 64 * 1024 + 2 ^ 96 * 960 + 2 ^ 112 * 64) []).p 12 2 + (cmdInd 0x0701 0 (2 ^ 64 * 1024 + 2 ^ 96 * 960 + 2 ^ 112 * 64) []).p 14 2 = 1024 :=
  ⟨runs_of (by decide +kernel) rfl, by decide +kernel⟩

/-! Witnesses for FramesArriveAndLeaveOnLanes. -/

theorem witness_received : laneLost (lane0 { state := 3 }) 0 = false ∧ (lane (lane0 { state := 3 }) 0).rx = none ∧
    (fiOf (lane0 { state := 3 }) 0).armed = false ∧ setActive (lane0 { state := 3 }) = true ∧ (lane (lane0 {}) 0).state = 0 ∧
    setActive (lane0 {}) = true ∧ setActive live = false := by decide
/-- Lane 0 with a waiting frame of class 3. -/
def sending0 (x : Pkt) (l : Lane) : State := { lane0 { l with state := 3, queues := [(3, [0])] } with pkts := [(0, x)] }
theorem witness_begin : nextFrame (sending0 { src := 1 } {}) 0 = some (3, 0) ∧ nextFrame live 0 = none ∧ hasPkt (sending0 { src := 1 } {}) 0 = true := by
  decide +kernel
theorem witness_end : (pkt (sending0 { bytes := zeros 10 } { cur := some 0 }) 0).arriving = false := by decide
/-- The same with a launch time, its lane's timer given to TS_COMPARE. -/
def launching (d : DevTime) : State :=
  { sending0 { src := 1, tx := some { launch := some d } } {} with sets := { inService.sets with feats := [(2, 0, 3)] } }
theorem witness_launch : launchOn (launching { ns := 5 }) 0 = true ∧ (launching { ns := 5 }).time.now.reached { ns := 5 } = false ∧
    DevTime.diff { sec := 1 } (launching { sec := 1 }).time.now = 1000000000 * 2 ^ 32 ∧
    (1000000000 * 2 ^ 32 : Int) < DevTime.diff { sec := 1, frac := 1 } (launching { sec := 1 }).time.now := by decide +kernel

/-! Witnesses for PausesHoldTheirClasses. -/

/-- Lane 1 with priority 0 enabled for pauses. -/
def pfcSet : SetSlot := { valid := true, secs := [section_ 7 0xFF (zeros 8 ++ [0, 0, 0, 0, 0, 0, 8, 0x20])] }
def pfcState : State := { inService with sets := { inService.sets with b := pfcSet }, lanes := [(1, { state := 3, pause := [(0, 9)] })] }
theorem witness_pfc : laneHears pfcState 1 = true ∧ pfcLane pfcState 1 = true ∧ laneHears (lane0 { state := 1 }) 0 = false ∧ pfcEn (activeSet pfcState) 1 0 = true ∧ pfcEn (activeSet pfcState) 1 1 = false := by decide +kernel
theorem witness_pause_expiry : (0, 9) ∈ (lane pfcState 1).pause ∧ pcpMap (activeSet pfcState) 1 0 = 0 := by decide +kernel
theorem witness_xoff : SMap.has ({ live.tm with xoff := [(8, 0)] } : Tm).xoff (8 * (1 : Fin 1024).val + (0 : Fin 8).val) = true := by decide

/-! Witnesses for SprayingAndReorderKeepTheirOrder. -/

/-- A packet with path set 0 that waits to be sprayed, in a set whose path set 0 has the one lane 1. -/
def spraySet : SetSlot :=
  { aSet with secs := section_ 5 0xFF ([1, 0, 0, 0, 1, 0, 0, 0, 1, 0, 0, 0, 1, 0, 0, 0] ++ bytesOf 8 (2 ^ 41) ++ zeros 8 ++ bytesOf 8 (2 ^ 33) ++ zeros 8
    ++ bytesOf 2 1 ++ zeros 14 ++ bytesOf 16 (2 ^ 102 * 4 + 2 ^ 86 * 7 + 2 ^ 69)) :: aSet.secs }
def spraying (x : Pkt) : State :=
  { inService with sets := { inService.sets with b := spraySet }, lanes := [(1, { state := 3 })], pkts := [(0, x)] }
theorem witness_spray : (sprayTries 0 0 0 (pathLen (setFor (spraying {}) 0) 0) (spraying { place := .spray, arriving := true, transit := true })).1 = some 1 ∧
    (sprayTries 0 0 0 1 inService).1 = none := by decide +kernel
theorem witness_threshold : (pkt (spraying { place := .threshold 1, arriving := true }) 0).place = .threshold 1 ∧
    laneCt (activeSet (spraying { place := .threshold 1, arriving := true })) 1 = false := by decide +kernel
theorem witness_arrival : ctxFind (activeSet (spraying {})) 0 = some (2 ^ 102 * 4 + 2 ^ 86 * 7 + 2 ^ 69) ∧
    bits 106 102 (2 ^ 102 * 4 + 2 ^ 86 * 7 + 2 ^ 69) = 4 ∧ (15 + 2 ^ 24 - 0) % 2 ^ 24 < 2 ^ 4 ∧
    ctxFind (activeSet (spraying {})) 1 = none := by decide +kernel
theorem witness_reorder_timeout : (ctxOf { live with ctxs := [(7, { deadline := some 0 })] } 7).deadline = some 0 := by decide
theorem witness_reorder_idle : (ctxOf { live with tick := 800000000, ctxs := [(7, { started := true })] } 7).lastAt + 800000000 ≤ 800000000 := by decide
theorem witness_reorder_stats : Runs 0x0705 .A false always (cmd 0x0705 0) (spraying {}) ∧ Runs 0x0705 .A false always (cmd 0x0705 0 511) (spraying {}) :=
  ⟨runs_of (by decide +kernel) rfl, runs_of (by decide +kernel) rfl⟩

/-! Witnesses for ArithmeticInstructionsSetTheirField. -/

/-- A packet of the stages whose head instruction has the operation, with field bits 7 to 4 of C1, SRC C0 and an immediate. -/
def instrWord (op imm : Nat) : Nat := fld 63 58 op + fld 57 50 1 + fld 41 37 4 + fld 36 32 3 + fld 31 0 imm
def running (op imm : Nat) (x : Pkt := {}) : State :=
  { inService with pkts := [(0, { x with place := .stages, stage := 24, work := [{ word := instrWord op imm }], conts := [(0, 0x10), (1, 0xFFFFFFF5)] })] }
theorem witness_instructions : ([0x00, 0x01, 0x02, 0x03, 0x04, 0x05, 0x06, 0x07, 0x08].all fun op => (headWork (running op 0) 0 op).isSome) = true := by
  decide +kernel
theorem test_add_wraps : bits 7 4 ((setDst (instrWord 4 1) (fieldOf (instrWord 4 1) 1 { conts := [(1, 0xFFFFFFF5)] } + 1) { conts := [(1, 0xFFFFFFF5)] }).conts.get 1) = 0 := by
  decide +kernel

/-! Witnesses for PacketInstructionsChangeHeadersAndCounts. -/

theorem witness_packet_instructions : ([0x0A, 0x10, 0x11, 0x12, 0x13, 0x14, 0x15, 0x18, 0x19, 0x1A, 0x1B, 0x1C].all fun op => (headWork (running op 0) 0 op).isSome) = true := by
  decide +kernel
/-- The set with COUNTER table 7 of four entries and policer 0. -/
def countSet : SetSlot :=
  { valid := true, secs := [section_ 2 0 ([1] ++ zeros 63 ++ [7, 4, 0, 0, 1, 0, 0, 0, 1, 0, 0, 0, 4] ++ zeros 51)] }
theorem witness_count : (headWork (running 0x09 7) 0 0x09).isSome = true ∧ (tableOf countSet 0 7).isSome = true := by decide +kernel
theorem witness_instance : instValid { insts := [(0, (14, 20))] } 0 = true ∧ instValid { insts := [(0, (14, 20))], popped := [0] } 0 = false := by decide
theorem test_write_field : writeField [0x12, 0x34, 0x56] 0 4 8 0xAB = [0x1A, 0xB4, 0x56] := by decide +kernel
theorem test_rfc1624 : rfc1624 0xDD2F 0x5555 0x3285 = 0x0000 := by decide +kernel

/-! Witnesses for PassesParseAndEndFrames. -/

theorem witness_noset : pipeLost { live with pkts := [(0, {})] } 0 = false ∧ slotTaken { live with pkts := [(0, {})] } 0 0 = false ∧
    slotTaken { live with pkts := [(0, {}), (1, { src := 1 })] } 0 2 = true ∧ firstInParser { live with pkts := [(0, { place := .parser })] } 0 = true ∧
    firstWaiting { live with pkts := [(0, { place := .flowWait })] } 0 = true ∧ live.pwr.released = true ∧ setActive live = false := by decide
/-- A transit frame's bytes: an SFH of destination node 7 with the HOPS given. -/
def transitBytes (hops : Nat) : List Byte := zeros 12 ++ [0x88, 0xB5] ++ bytesBE 16 (fld 125 117 7 + fld 70 67 hops) ++ zeros 30
theorem witness_hops : hasSfh (transitBytes 0) = true ∧ bits 125 117 (sfh (transitBytes 0)) ≠ inService.peal.node ∧ bits 70 67 (sfh (transitBytes 0)) = 0 := by
  decide +kernel
/-- A parse graph of one node: 14 bytes, no instance, and then the exit ACCEPT. -/
def graph1 : List Byte := [1, 0, 0, 0, 0, 0, 0, 0, 0, 0, 0, 0] ++ zeros 52 ++ [1, 0xFF, 0, 0, 14, 0, 0, 0, 14, 0, 14, 0] ++ zeros 18 ++ [0xF0] ++ zeros 33
def parsing (x : Pkt) : State :=
  { inService with sets := { inService.sets with b := { aSet with secs := section_ 1 0 graph1 :: aSet.secs } }, pkts := [(0, x)] }
theorem witness_visit : (parsing {}).pkts.length = 1 ∧ pgNode (graphOf (parsing {}) {}) 0 ≠ 0 ∧ nb (pgNode (graphOf (parsing {}) {}) 0) 1 1 = 0xFF ∧
    bits 4 2 (nb (pgNode (graphOf (parsing {}) {}) 0) 0 1) = 0 ∧ 0 + nb (pgNode (graphOf (parsing {}) {}) 0) 4 1 = 14 ∧
    zeroMaskHit (pgNode (graphOf (parsing {}) {}) 0) (zeros 60) 0 = false ∧ headerLen (pgNode (graphOf (parsing {}) {}) 0) (zeros 60) 0 = 14 ∧
    rd (graphOf (parsing {}) {}) 8 1 = 0 := by decide +kernel
/-- A set whose pipeline 0 has an HBM_REF at stage 3, unit 0, to an empty HBM_HASH table 0xC0. -/
def hbmSet : SetSlot :=
  { valid := true, secs := [section_ 2 0 ([1] ++ zeros 63 ++ [9, 5, 3, 0, 4] ++ zeros 50 ++ [0xC0] ++ zeros 8),
                            section_ 2 0xFF ([1] ++ zeros 63 ++ [0xC0, 6, 0, 0, 4, 0, 1, 0, 0, 0, 0, 0, 8] ++ zeros 51)] }
theorem witness_hbm_lookup : ((tableAt hbmSet 0 3 0).map tKind) = some 5 ∧ tableAt hbmSet 0 3 1 = none ∧
    (tableOf hbmSet 0xFF ((tableAt hbmSet 0 3 0).map tHbmTable |>.getD 0)).isSome = true ∧
    ((tableOf hbmSet 0xFF 0xC0).map fun t => (lookup hbmSet [] 0xFF t [1, 2, 3, 4]).1) = some .miss := by decide +kernel

/-! Witnesses for FragmentsLearningAndAgeing. -/

theorem witness_frag : SMap.has ({ live with frags := [(5, { ready := true, life := 9 })] } : State).frags 5 = true ∧
    heldOf { live with frags := [(5, { ready := true, life := 9 })] } 0 [] = [] := by decide
theorem witness_hold : (pkt { live with tick := 6400, pkts := [(0, { place := .hold })] } 0).holdAt + 6400 ≤ 6400 := by decide
/-- A report of key 9 on port 1 and a filter that holds it. -/
def report9 : Report := { home := 2, key := 9, port := 1, hash := 2 }
def learning : State := { live with reports := [report9], learns := [(2, { entries := [(0, { key := 9, port := 1 })] })] }
theorem witness_learn : learning.reports.find? (fun r => r.home == (2 : Fin 16).val) = some report9 ∧ (learning.learns.get 2).enable = true ∧
    inWindow (learning.learns.get 2) ((learning.learns.get 2).entries.get 0) report9.time = true := by decide +kernel
/-- The set with an INDEX table 3 that ages, and an entry 4 of it. -/
def ageing (hit : Bool) : State :=
  { inService with ages := [(3, 1)], sets := { inService.sets with b :=
    { valid := true, secs := [section_ 2 0 ([1] ++ zeros 63 ++ [3, 1, 0, 0, 1, 0, 0, 1] ++ zeros 56)], entries := [(tKey 0 3 4, { hit := hit })] } } }
theorem witness_age : ((tableOf (activeSet (ageing true)) 0 3).map tAge) = some true ∧ (activeSet (ageing false)).entries.has (tKey 0 3 4) = true := by decide +kernel
theorem witness_punt : SMap.get ({ live with punts := [(15, [{}])] } : State).punts (15 : Fin 16).val = [{}] := rfl

/-! Witnesses for BucketsStayWithinTheirDepth. -/

theorem witness_refill : ({ live with tick := 64 } : State).tm.refillAt ≤ 64 ∧ live.tick < live.tm.refillAt := by decide
/-- A TM_TREE whose shaper 0 is VALID, with a depth of one byte. -/
def shaperSet : SetSlot := { valid := true, secs := [section_ 9 0xFF (zeros (tmShaperAt { secs := [section_ 9 0xFF (zeros 16)] }) ++ bytesOf 16 (2 ^ 39 + 2 ^ 48))] }
theorem witness_shaper : shaperValid shaperSet 0 = true ∧ shaperDepth shaperSet 0 = 65536 := by decide +kernel

/-! Witnesses for DoorbellsAndEnablesDriveTheQueue. -/

/-- Two queue slots of the physical function of HP[0]: slot 0 with all rings enabled, size 16, slot 1 as given. -/
def slots2 (q : QSlot) : State :=
  { live with fns := [(0, { pf0 with inst := { state := 1, qcount := 2 }, msixEn := true, msixPending := [3],
                                     slots := [(0, { txEn := true, rxEn := true, cqEn := true, log2Tx := 4, log2Rx := 4, log2Cq := 4 }), (1, q)] })] }
theorem witness_doorbell_acts : slotWritable (slots2 {}) 0 0 = true ∧ doorbellActs (slots2 {}) 0 0 = true ∧
    doorbellActs (slots2 { stopped := true }) 0 1 = false := by decide +kernel
theorem witness_doorbell_cq : ((fnOf (slots2 {}) 0).slots.get 0).cqEn = true ∧
    2 ^ ((fnOf (slots2 {}) 0).slots.get 0).log2Cq.toNat < (((fnOf (slots2 {}) 0).slots.get 0).cqPi - (0xFFEF#32).extractLsb' 0 16).toNat ∧
    (((fnOf (slots2 {}) 0).slots.get 0).cqPi - (0xFFF0#32).extractLsb' 0 16).toNat ≤ 2 ^ ((fnOf (slots2 {}) 0).slots.get 0).log2Cq.toNat ∧
    ((fnOf (slots2 {}) 0).slots.get 0).cqPi ≠ (0x8000FFF0#32).extractLsb' 0 16 ∧ (0x8000FFF0#32).getLsbD 31 = true ∧
    ((fnOf (slots2 {}) 0).slots.get 0).cqPi = (0x80000000#32).extractLsb' 0 16 := by decide +kernel
theorem witness_ring_enable2 : slotWritable (slots2 {}) 0 1 = true ∧ (0x80003000#32).extractLsb' 29 3 ≠ 0 ∧
    ((fnOf (slots2 {}) 0).slots.get 1).txEn = false ∧ ((0x80003000#32).extractLsb' 12 4).toNat < 4 := by decide +kernel
theorem witness_acks : isPf 0 = true ∧ bar0Open (slots2 {}) 0 = true ∧ (3 : Nat) < vectorCount 0 ∧ 3 ∈ (fnOf (slots2 {}) 0).msixPending ∧
    (fnOf (slots2 {}) 0).bme = true ∧ (fnOf (slots2 {}) 0).msixEn = true := by decide +kernel

/-! Witnesses for DescriptorsBuffersAndEntriesMove. -/

/-- Slot 0 with a descriptor and a buffer read, one entry waiting, and packet 0 delivered to it. -/
def moving : State :=
  { inService with
    fns := [(0, { pf0 with inst := { state := 1, qcount := 2 },
                           slots := [(0, { txEn := true, rxEn := true, cqEn := true, log2Tx := 4, log2Rx := 4, log2Cq := 4, txReady := true,
                                           rxReady := true, waiting := [{ bits := 7, rx := some 0 }] })] })]
    pkts := [(0, { src := 0, srcId := 3, bytes := zeros 64 })], nextPkt := 1, deliveries := [(0, [0])] }
/-- The same with a set of room for host port 0 and a VALID leaf of storage port 0, which packet 0 waits in and the tree offers. -/
def offered : State :=
  { moving with
    sets := { moving.sets with b := { aSet with secs := aSet.secs ++ [section_ 0xA 0xFF (zeros 64 ++ List.replicate 16 0xFF),
                                                                       section_ 9 0xFF (zeros 10304 ++ [0, 0, 0x20, 0, 0, 0, 0, 0])] } }
    tm := { moving.tm with leafQ := [(0x30000, [0])], nodes := [(0x30000, { deficit := 1 }), (0x40000, { active := [0x30000] })] } }
/-- The same with a set in which the leaf of host queue 0 is VALID. -/
def leafed : State :=
  { moving with sets := { moving.sets with
    b := { aSet with secs := aSet.secs ++ [section_ 9 0xFF (zeros 4 ++ [1] ++ zeros 10299 ++ bytesOf 16 (2 ^ 54))] } } }
theorem witness_descriptor : leafValid leafed (queueOf leafed 0 0) = true ∧ ((fnOf leafed 0).slots.get 0).txFetched = ((fnOf leafed 0).slots.get 0).txCi ∧
    (fnOf moving 0).slots.get 0 ≠ {} ∧ ((fnOf moving 0).slots.get 0).txReady = true ∧
    objectOfSq moving (queueOf moving 0 0) = none ∧ bits 383 352 (BitVec.ofNat 512 (2 ^ 352 * 13)).toNat = 13 ∧
    bits 15 0 (BitVec.ofNat 512 (2 ^ 352 * 13)).toNat = 0 := by decide +kernel
theorem witness_prefetch : prefetchRoom offered (portOf 0) ((9216 + 255) / 256) = true ∧ objectOfSq offered (queueOf offered 0 0) = none ∧
    ((fnOf offered 0).slots.get 0).txReady = true := by decide +kernel
theorem witness_select : setActive offered = true ∧ pipeLost offered 0 = false ∧ offered.pwr.released = true ∧ objectsOn offered 0 = [] ∧
    orphanLeaf offered 0 = none ∧ (selectFrom (2 ^ 36) (kRoot 0) offered).1 = some 0x30000 ∧ leafQueue offered 0x30000 = 0 :: [] ∧
    offered.pkts.has 0 = true := by decide +kernel
theorem witness_buffer : bits 63 32 (BitVec.ofNat 128 (2 ^ 32 * 64)).toNat = 64 ∧ moving.deliveries.get (queueOf moving 0 0) = 0 :: [] ∧
    (pkt moving 0).bytes.length = 64 ∧ (fnOf moving 0).bme = true := by decide +kernel
theorem witness_entry : ((fnOf moving 0).slots.get 0).waiting = { bits := 7, rx := some 0 } :: [] ∧
    (((fnOf moving 0).slots.get 0).cqPi - ((fnOf moving 0).slots.get 0).cqCi).toNat < 2 ^ ((fnOf moving 0).slots.get 0).log2Cq.toNat := by decide +kernel

/-! Witnesses for MessagesArePostedReadAndWithdrawn. -/

/-- The physical function and virtual function 1 of HP[0], each with its mailbox; the instance of the latter in state `st`. -/
def posting (st : Nat) : State :=
  { live with fns := [(0, { pf0 with vfEnable := true, numVfs := 2, notices := [[7]] }), (1, { inst := { state := st } })] }
theorem witness_post : bar0Open (posting 1) 0 = true ∧ (0x80010801#32).getLsbD 31 = true ∧ (fnOf (posting 1) 0).tx.go = false ∧ (fnOf (posting 1) 0).inst.state = 1 ∧
    mboxReceiver 0 ((0x80010801#32).extractLsb' 16 10).toNat = some 1 ∧ ((0x80010801#32).extractLsb' 8 5).toNat = 8 ∧ fnExists (posting 1) 1 = true ∧
    domainDown (posting 1) 1 = false ∧ (fnOf (posting 1) 0).tx.data.length = 16 ∧
    mboxReceiver 0 ((0x80000801#32).extractLsb' 16 10).toNat = none ∧
    domainDown { posting 1 with fns := [(0, { pf0 with vfEnable := true, numVfs := 2 }), (1, { d3hot := true, inst := { state := 1 } })] } 1 = true := by
  decide +kernel
theorem witness_mbox_ack : ((fnOf { live with fns := [(0, { pf0 with chans := [(0, { full := true, src := 3 })] })] } 0).chans.get
    (fnOf { live with fns := [(0, { pf0 with chans := [(0, { full := true, src := 3 })] })] } 0).rxSel.toNat).full = true := by decide +kernel
theorem witness_mbox_timeout : (fnOf { live with fns := [(0, { pf0 with tx := { go := true, dest := 512, expire := some 0, to_ := some 512 } })] } 0).tx.expire = some 0 ∧
    mboxReceiver 0 (512#10).toNat = some 512 := by decide +kernel
theorem witness_answers : bar0Open { live with fns := [(0, { pf0 with secChan := { full := true } })] } 0 = true := by decide +kernel
theorem witness_notice : (fnOf (posting 1) 0).notices = [7] :: [] ∧ ((fnOf (posting 1) 0).chans.get 0).full = false ∧ (posting 1).fw.ready = true := by
  decide +kernel
theorem witness_domain_down : fnExists { live with fns := [(0, { pf0 with d3hot := true })] } 0 = true ∧
    domainDown { live with fns := [(0, { pf0 with d3hot := true })] } 0 = true := by decide +kernel

/-! Witnesses for HostRequestsFunctionsAndLinks. -/

/-- The physical function of HP[0] with a readable and writable window of 4 KiB at 0 and virtual functions 1 and 2. -/
def windowed : State :=
  { live with fns := [(0, { pf0 with winActive := [(0, { log2 := 12, rd := true, wr := true })], vfEnable := true, numVfs := 2, msixEn := true,
                                     unmasked := [3], msixPending := [3], flr := none }), (2, { inst := { state := 1 } })] }
theorem witness_window : bar0Open windowed ((0 : Fin 8) * 4096) = true ∧ ((fnOf windowed 0).winActive.get (4095 / 2 ^ 28)).log2 = 12 ∧
    4095 % 2 ^ 28 + 1 ≤ 2 ^ 12 ∧ ¬ 4095 % 2 ^ 28 + 2 ≤ 2 ^ 12 := by decide +kernel
theorem witness_config : (windowed.ports.get (portOf 0)).linkUp = true ∧ fnExists windowed 0 = true ∧ fnExists windowed 3 = false ∧
    (fnOf windowed 0).flr = none ∧ windowed.fw.ready = true ∧ (fnOf windowed 0).bme = true := by decide +kernel
theorem witness_bme : fnExists windowed 2 = true ∧ (fnOf windowed 2).bme = false := by decide +kernel
theorem witness_flr_done : (fnOf { live with fns := [(0, { pf0 with flr := some 5, inst := { state := 4 } })] } 0).flr ≠ none := by decide +kernel
theorem witness_link : (windowed.ports.get (0 : Fin 8)).linkUp = true := by decide +kernel

/-! Witnesses for CompletionsTagsAndQuiescing. -/

/-- Two reads of the physical function of HP[0] outstanding, one of them to be discarded, and tag 9 quarantined. -/
def reading : State :=
  { moving with ports := [(0, { linkUp := true, perst := false, quar := [(9, 5)],
                                reqs := [{ tag := 1, fn := 0, kind := .txFetch 0, deadline := 0 }, { tag := 2, fn := 0, kind := .rxFetch 0, drop := true }] })] }
theorem witness_completion : (reading.ports.get (pcKey false (0 : Fin 16))).reqs.find? (fun r => r.tag == 1) =
      some { tag := 1, fn := 0, kind := .txFetch 0, deadline := 0 } ∧
    ((reading.ports.get (pcKey false (8 : Fin 16))).reqs.find? (fun r => r.tag == 2)).map (·.drop) = some true ∧
    (reading.ports.get (pcKey false (0 : Fin 16))).reqs.find? (fun r => r.tag == 9) = none ∧
    (9, 5) ∈ (reading.ports.get (pcKey false (0 : Fin 16))).quar ∧ reading.tick = 0 := by decide +kernel
theorem witness_no_tag : freeTag { reqs := List.replicate 4096 {} } = none := by
  unfold freeTag; exact if_pos (by rw [List.length_replicate])
theorem witness_tag_waited : freeTag { waits := [{ fn := 0, kind := .txFetch 0, addr := 64, len := 64 }], quar := [(0, 5)] } = some 1 := by decide
theorem witness_quiesce : (fnOf (vf1 2) 1).inst.state = 2 ∧
    drained { vf1 2 with fns := [(0, pf0), (1, { inst := { state := 2, quiesceAt := some 0, quiesceRings := [(0, false)] } })] } 1 = true := by
  decide +kernel

/-! Witnesses for RegistersAreReadAndWritten. -/

theorem witness_registers : bar0Open live 0 = true ∧ bar0Open { live with fns := [(0, { pf0 with cmd := {} })] } 0 = true := by decide +kernel

/-! Witnesses for TheTrustRegionAnswersItsRequests. -/

/-- Port 0 has posted a request to the trust region and holds a session. -/
def asking (sess : Nat) (ws : List Word) : State :=
  { live with sec := { live.sec with ports := [(0, { session := sess, request := some ws, nonce := some ([], 0) })] } }
/-- What the trust region takes is there. -/
theorem witness_nonce : (takeRequest (0 : Fin 8) 1 (asking 0 (0x01000000 :: List.replicate 7 0))).isSome = true ∧
    restZero (0x01000000 :: List.replicate 7 0) 1 = true ∧ (asking 0 []).sec.lc = 1 ∧ (asking 0 []).sec.entropyFail = false := by decide +kernel
theorem witness_auth : (takeRequest (0 : Fin 8) 2 (asking 0 [0x02000000, 0, 0, 2, 0, 0, 0, 0])).isSome = true ∧
    reqWord [0x02000000, 0, 0, 2, 0, 0, 0, 0] 3 = 2 := by decide +kernel
theorem witness_auth_verified : (secPort { live with sec := { live.sec with ports := [(0, { verifying := some (1, 0, []) })] } } (0 : Fin 8)).verifying =
    some (1, 0, []) := rfl
theorem witness_close : (takeRequest (0 : Fin 8) 3 (asking 2 (0x03000000 :: List.replicate 7 0))).isSome = true := by decide +kernel
theorem witness_lc_advance : (takeRequest (0 : Fin 8) 4 (asking 2 [0x04000000, 2, 0, 0, 0, 0, 0, 0])).isSome = true ∧ lcTarget 1 2 = true ∧ lcTarget 2 3 = true ∧
    lcTarget 3 4 = true ∧ lcTarget 1 3 = false := by decide +kernel
theorem witness_root : (takeRequest (0 : Fin 8) 5 (asking 2 [0x05000000, 0, 0, 3, 0, 0, 0, 0])).isSome = true := by decide +kernel
theorem witness_kem : (takeRequest (0 : Fin 8) 6 (asking 1 [0x06000000, 0, 1, 0, 0, 0, 0, 0])).isSome = true ∧ live.sec.roots.has 0 = true := by decide +kernel
theorem witness_fuse : (takeRequest (0 : Fin 8) 7 (asking 2 [0x07000000, 0x23, 1, 2, 3, 4, 5, 6, 7, 8])).isSome = true ∧ hashField 0x23 = true ∧
    (takeRequest (0 : Fin 8) 7 (asking 2 [0x07000000, 0x113, 0, 0, 0, 0, 0, 0, 0, 0])).isSome = true ∧ reqWord [0x07000000, 0x113] 1 = 256 + 0x13 ∧
    usableCount { live with sec := { live.sec with hashes := [(0x13, { written := true })] } } 0x13 = 1 := by decide +kernel
theorem witness_scrap : ({ live with sec := { live.sec with lc := 4 } } : State).sec.zeroised = false ∧ 6 ≤ live.pwr.stage := by decide

/-! Witnesses for AttestationFollowsItsOrder. -/

/-- A port at a point of its SPDM exchange. -/
def attesting (n : Nat) : State := { live with sec := { live.sec with ports := [(0, { spdm := n, spdmVersion := 0x12 })] } }
theorem witness_spdm : spdmServed (attesting 0) (0 : Fin 8) = true ∧ (secPort (attesting 3) (0 : Fin 8)).spdm = 3 ∧ spdmServed live (1 : Fin 8) = false := by
  decide +kernel

/-! Witnesses for TransportObjectsAreManaged. -/

/-- The physical function of HP[0] with queues 0 to 7 and one object. -/
def withObj (o : Obj) : State :=
  { live with fns := [(0, { pf0 with inst := { state := 1, qcount := 8 }, slots := [(2, { rxEn := true, rxPi := 4, log2Rx := 4 })] })]
              xport := { objs := [(16, o)], heldNums := [(17, 5)], cached := [16], inq := [0] } }
theorem witness_qp_create : Runs 0x0801 .P false always (cmd 0x0801 0 (0x000100000002 * 2 ^ 16)) (withObj {}) ∧
    qpCreateCheck (cmd 0x0801 0 (0x000100000002 * 2 ^ 16)) (taken (cmd 0x0801 0 (0x000100000002 * 2 ^ 16)) (withObj {})) = none ∧
    freeOnum (taken (cmd 0x0801 0 (0x000100000002 * 2 ^ 16)) (withObj {})) 0 = some 18 :=
  ⟨runs_of (by decide +kernel) rfl, by decide +kernel, by decide +kernel⟩
theorem witness_qp_modify : Runs 0x0802 .P false always (cmdInd 0x0802 0 (16 * 2 ^ 96 + 1 * 2 ^ 128 + 1 * 2 ^ 160) (zeros 64)) (withObj {}) ∧
    objectHere (withObj {}) (cmdInd 0x0802 0 (16 * 2 ^ 96 + 1 * 2 ^ 128 + 1 * 2 ^ 160) (zeros 64)) 16 = true ∧
    (1 &&& maskAllowed 0 = 1) ∧ transitionOk 0 0 1 = true ∧ transitionOk 0 0 2 = false ∧ attrsOk 1 (zeros 64) = true :=
  ⟨runs_of (by decide +kernel) rfl, by decide +kernel, by decide, by decide, by decide, by decide +kernel⟩
theorem witness_qp_destroy : Runs 0x0803 .P false always (cmd 0x0803 0 16) (withObj { state := 5 }) ∧
    objectHere (taken (cmd 0x0803 0 16) (withObj { state := 5 })) (cmd 0x0803 0 16) 16 = true := ⟨runs_of (by decide +kernel) rfl, by decide +kernel⟩
theorem witness_conn_query : Runs 0x0807 .P false always (cmd 0x0807 0 16) (withObj {}) := runs_of (by decide +kernel) rfl
theorem witness_context : hasObj { withObj {} with xport := { objs := [(16, {})] } } 16 = true := by decide +kernel

/-! Witnesses for TransportPacketsAndTimersAct. -/

/-- An IPv4 header before `n` bytes of a protocol. -/
def ip4 (proto : Byte) (n : Nat) : List Byte := [0x45, 0] ++ bytesBE 2 (20 + n) ++ zeros 4 ++ [64, proto] ++ zeros 10
/-- A RoCE v2 packet in IPv4 with its ICRC, from its base transport header on at byte 28. -/
def roceBytes (t : List Byte) : List Byte :=
  let b := ip4 17 (t.length + 12) ++ [0, 0, 0x12, 0xB7] ++ zeros 4 ++ t
  b ++ icrcOf b { at_ := 0, v6 := false, len := t.length + 12 } 28 t.length
/-- A TCP segment in IPv4 with its checksum, at byte 20. -/
def tcpBytes (g : List Byte) : List Byte :=
  let h : IpHdr := { at_ := 0, v6 := false, len := g.length }
  ip4 6 g.length ++ g.take 16 ++ bytesBE 2 (0xFFFF - tcpSum (ip4 6 g.length ++ g) h 20 g.length) ++ g.drop 18
/-- A RoCE v2 SEND ONLY at PSN 0 with 4 bytes, and a TCP segment of 3 bytes at sequence number 0. -/
def sendOnly : List Byte := [4] ++ zeros 7 ++ [0x80] ++ zeros 3 ++ [1, 2, 3, 4]
def segment3 (flags : Byte) : List Byte := zeros 12 ++ [0x50, flags] ++ zeros 6 ++ [7, 8, 9]
def arriving (o : Obj) (bs : List Byte) : State :=
  { withObj o with pkts := [(0, { bytes := bs, conts := [(0x8F, 16)] })] }
theorem witness_roce_turn : engineTurn (arriving { type := 0, state := 2, rq := 2 } (roceBytes sendOnly)) 0 = true ∧
    pktObject (arriving { type := 0, state := 2, rq := 2 } (roceBytes sendOnly)) 0 = 16 ∧ rd sendOnly 0 1 = 4 ∧
    buffersFree (arriving { type := 0, state := 2, rq := 2 } (roceBytes sendOnly)) { type := 0, state := 2, rq := 2 } = true ∧ sendOnly.length = 16 ∧
    psnGe 0 (2 ^ 24 - 1) = true := by decide +kernel
theorem witness_roce_in : (roceIn (roceBytes sendOnly) 28).map (fun g => (g.1, g.2.at_)) = some (sendOnly, 0) ∧ roceIn (zeros 48) 28 = none := by
  refine ⟨by decide +kernel, rfl⟩
theorem witness_roce_marked : marked { bytes := 0x45 :: 3 :: (roceBytes sendOnly).drop 2 } { at_ := 0, v6 := false, len := 28 } = true ∧
    marked { bytes := roceBytes sendOnly } { at_ := 0, v6 := false, len := 28 } = false := by decide +kernel
theorem witness_cnp : engineTurn (arriving { type := 0, state := 3 } (roceBytes ([0x81] ++ zeros 27))) 0 = true ∧
    (roceIn (roceBytes ([0x81] ++ zeros 27)) 28).map (fun g => rd g.1 0 1) = some 0x81 := by decide +kernel
theorem witness_tcp : engineTurn (arriving { type := 2, state := 3, a := { rxKey := 0xFFFFFFFF } } (tcpBytes (segment3 16))) 0 = true ∧
    (tcpIn (tcpBytes (segment3 16)) 20).map (fun g => (rd g.1 12 1, rd g.1 13 1, g.1.length)) = some (0x50, 16, 23) ∧
    (tcpIn (tcpBytes (segment3 4)) 20).map (fun g => rd g.1 13 1) = some 4 ∧ (tcpIn (zeros 43) 20).isNone = true := by decide +kernel
theorem witness_timers : (objOf (withObj { type := 2, state := 3, ackAt := some 0, rnrAt := some 0, tcp := { rtxAt := some 0 } }) 16).tcp.rtxAt = some 0 ∧
    hasObj (withObj {}) 16 = true := by decide +kernel

/-! Witnesses for NamespacesAndSlotsFollowTheirCommands. -/

/-- Storage port 0 with a drive, as given, and a namespace on it. -/
def storing (p : Sport) (cmds : SMap DriveCmd := []) : State :=
  { live with store := { ports := [(0, p)], nss := [(1, { count := 8 })], cmds := cmds } }
/-- The drive of a port in service: namespace 1 of 100 blocks of 512 bytes. -/
def drive1 : Sport := { present := true, powerOn := true, perst := false, linkUp := true, ready := true, drives := [(1, 100, 0)] }
theorem witness_ns_create : Runs 0x0804 .A false always (cmd 0x0804 0 (1 * 2 ^ 32 + 50 * 2 ^ 64 + 50 * 2 ^ 128 + 0xFFFFFFFF * 2 ^ 192)) (storing drive1) ∧
    nsCreateCheck (cmd 0x0804 0 (1 * 2 ^ 32 + 50 * 2 ^ 64 + 50 * 2 ^ 128 + 0xFFFFFFFF * 2 ^ 192))
      (taken (cmd 0x0804 0 (1 * 2 ^ 32 + 50 * 2 ^ 64 + 50 * 2 ^ 128 + 0xFFFFFFFF * 2 ^ 192)) (storing drive1)) = none ∧
    nsidFor (storing drive1) (cmd 0x0804 0 (1 * 2 ^ 32 + 50 * 2 ^ 64 + 50 * 2 ^ 128 + 0xFFFFFFFF * 2 ^ 192)) = some 2 :=
  ⟨runs_of (by decide +kernel) rfl, by decide +kernel, by decide +kernel⟩
theorem witness_ns_delete : Runs 0x0805 .A false always (cmd 0x0805 0 1) (storing {}) ∧ (storing {}).store.nss.has (nsKey 0 1) = true ∧
    (cmd 0x0805 0 1).p 0 4 = 1 := ⟨runs_of (by decide +kernel) rfl, by decide +kernel, by decide +kernel⟩
theorem witness_slot_ctl : Runs 0x0806 .A false always (cmd 0x0806 0 0x100) (storing { present := true }) ∧ (cmd 0x0806 0 0x100).p 1 1 = 1 ∧
    Runs 0x0806 .A false always (cmd 0x0806 0 0x2400) (storing drive1) ∧ bits 3 2 ((cmd 0x0806 0 0x2400).p 1 1) = 1 ∧
    (storing {}).kiln.blocks.contains (sliceId 10 0) = false :=
  ⟨runs_of (by decide +kernel) rfl, by decide +kernel, runs_of (by decide +kernel) rfl, by decide +kernel, by decide +kernel⟩
theorem witness_slot_events : (sport (storing drive1) (0 : Fin 16)).linkUp = true ∧ (sport (storing {}) (0 : Fin 16)).present = false ∧
    (sport { storing { powerOn := true, perst := true } with tick := 880000000 } (0 : Fin 16)).linkUp = false ∧
    (sport (storing { powerOn := true, perst := true, onAt := 1 }) (0 : Fin 16)).onAt = 1 := by decide +kernel

/-! Witnesses for StorageCommandsAreServed. -/

/-- A local submission queue with a read of block 7 of namespace 1, and a drive command of it. -/
def readCmd (lba : Byte) : List Byte := [2, 0, 9, 0, 1] ++ zeros 35 ++ [lba] ++ zeros 23
def serving (lba : Byte) : State :=
  { storing drive1 [(5, { id := 5, onum := 16, phase := 2, op := 2, blocks := 1, ns := 1 })] with
    xport := { objs := [(16, { type := 6, state := 3, work := [{ op := 9, data := readCmd lba, cid := 9 }] })], cached := [16] } }
theorem witness_nvme : (objOf (serving 7) 16).work.findIdx? (fun w => w.op == 9 && w.formed == 0 && w.fin.isNone) = some 0 ∧
    rd (readCmd 7) 0 1 = 2 ∧ rd (readCmd 7) 4 4 = 1 ∧ rd (readCmd 7) 40 8 + (rd (readCmd 7) 48 2 + 1) = 8 ∧ sportReady (serving 7) 0 = true ∧
    rd (readCmd 8) 40 8 + (rd (readCmd 8) 48 2 + 1) = 9 ∧ hasObj (serving 7) 16 = true ∧ ((serving 7).store.nss.get 1).count = 8 := by decide +kernel
theorem witness_drive_completion : (driveCmd (serving 7) 5).phase = 2 ∧ (serving 7).store.cmds.has 5 = true ∧ (driveCmd (serving 7) 5).sp = (0 : Fin 16).val ∧
    encrypted { serving 7 with store := { (serving 7).store with nss := [(1, { key := 0xFFFFFFFF })] } } (driveCmd (serving 7) 5) = false := by decide +kernel
theorem witness_fill : ({ live with store := { live.store with fills := [(3, true)] } } : State).store.fills.find? (fun f => f.1 == 3) = some (3, true) := rfl

/-! Witnesses for ThePealBusPassesItsToken. -/

/-- Node 2 of a bus, as given; and a frame of node 1 with a payload, from SRC on. -/
def onBus (p : Peal) : State := { live with peal := { p with node := 2, nodeValid := true, enabled := true } }
def frame (dst : Nat) (pl : List Byte) (type : Nat) : List Byte :=
  let b := bytesOf 2 1 ++ bytesOf 2 dst ++ [BitVec.ofNat 8 pl.length, 0] ++ pl
  b ++ bytesOf 4 (pealCrc type b)
theorem hears_of {type : Nat} {b : List Byte} {s : State}
    (h : (s.peal.enabled && frameValid type b && fSrc b != s.peal.node) = true) : hears type b s := by
  simp only [Bool.and_eq_true, bne_iff_ne, ne_eq] at h
  exact ⟨h.1.1, h.1.2, h.2⟩
theorem witness_token : hears 1 (frame 2 [0, 0] 1) (onBus { member := true, map := [1, 2] }) ∧ fDst (frame 2 [0, 0] 1) = 2 ∧
    hears 1 (frame 3 [0, 0] 1) (onBus {}) := ⟨hears_of (by decide +kernel), by decide +kernel, hears_of (by decide +kernel)⟩
theorem witness_solicit : hears 2 (frame 0x8000 [] 2) (onBus { joining := true }) := hears_of (by decide +kernel)
theorem witness_join_req : hears 3 (frame 2 [] 3) (onBus { window := some 0 }) ∧ forUs (frame 2 [] 3) (onBus {}) :=
  ⟨hears_of (by decide +kernel), .inr (by decide +kernel)⟩
theorem witness_join_ack : hears 4 (frame 0x8000 [2, 0] 4) (onBus { joining := true }) ∧ bits 8 0 (rd (frame 0x8000 [2, 0] 4) 6 2) = 2 :=
  ⟨hears_of (by decide +kernel), by decide +kernel⟩
theorem witness_claim : hears 5 (frame 0x8000 [] 5) (onBus {}) ∧ hears 6 (frame 0x8000 [] 6) (onBus { map := [1] }) :=
  ⟨hears_of (by decide +kernel), hears_of (by decide +kernel)⟩
theorem witness_peal_time : hears 0x20 (frame 0x8000 (zeros 16) 0x20) (onBus { timeSrcEn := true, timeSrc := 1 }) ∧ fSrc (frame 0x8000 (zeros 16) 0x20) = 1 :=
  ⟨hears_of (by decide +kernel), by decide +kernel⟩
theorem witness_alert : hears 0x21 (frame 0x8000 [1] 0x21) (onBus {}) ∧ hears 0x22 (frame 2 (zeros 32) 0x22) (onBus {}) ∧
    forUs (frame 0x8000 [1] 0x21) (onBus {}) ∧ hears 0x80 (frame 0x8000 [] 0x80) (onBus {}) :=
  ⟨hears_of (by decide +kernel), hears_of (by decide +kernel), .inl (by decide +kernel), hears_of (by decide +kernel)⟩
theorem witness_contend : (onBus { contend := some { type := 5, dst := bcast, attempt := 16 } }).peal.contend = some { type := 5, dst := bcast, attempt := 16 } ∧
    (onBus {}).peal.member = false := ⟨rfl, rfl⟩
theorem witness_watch : (onBus { watch := some (1, 1, 0) }).peal.watch = some (1, 1, 0) ∧ (onBus { watch := some (1, 2, 0) }).peal.watch = some (1, 2, 0) := ⟨rfl, rfl⟩
theorem witness_token_timeout : (onBus { tokenBy := some 0, member := true }).peal.tokenBy = some 0 ∧ (onBus { member := true }).tick = 0 ∧
    ({ onBus {} with tick := 1600000 } : State).peal.lastRx + 1600000 ≤ 1600000 := by decide
theorem witness_window_end : (onBus { window := some 0 }).peal.window = some 0 := rfl
theorem witness_silence : ({ onBus { joining := true } with tick := 1600000 } : State).peal.busy + 1600000 ≤ 1600000 := by decide

/-! Witnesses for PealCommandsAndFirings. -/

theorem witness_peal_join : Runs 0x0C01 .A false always (cmd 0x0C01 0) (onBus {}) ∧ Runs 0x0C01 .A false always (cmd 0x0C01 0) (onBus { member := true }) :=
  ⟨runs_of (by decide +kernel) rfl, runs_of (by decide +kernel) rfl⟩
theorem witness_peal_leave : Runs 0x0C02 .A false always (cmd 0x0C02 0) (onBus { joining := true }) := runs_of (by decide +kernel) rfl
theorem witness_peal_status : Runs 0x0C03 .A false always (cmd 0x0C03 0) (onBus {}) := runs_of (by decide +kernel) rfl
theorem witness_peal_send : Runs 0x0C04 .A false always (cmd 0x0C04 0 0x80000121) (onBus { member := true }) ∧ (cmd 0x0C04 0 0x80000121).p 0 1 = 0x21 ∧
    bits 14 9 ((cmd 0x0C04 0 0x80000121).p 2 2) = 0 := ⟨runs_of (by decide +kernel) rfl, by decide +kernel, by decide +kernel⟩
/-- The adapter with a READY shadow of POD_GEN 9, on the bus. -/
def announcing : State := { onBus { member := true } with sets := { inService.sets with a := aSet } }
/-- An announcement of instant 20 µs, target epoch 1, POD_GEN 9. -/
def announcement (type : Nat) : List Byte := frame 0x8000 (bytesOf 16 (20000 * 2 ^ 32) ++ [1, 0, 9, 0, 0, 0]) type
theorem witness_announce : hears 0x10 (announcement 0x10) announcing ∧ announceReason announcing (announcement 0x10) = none ∧
    announceReason { announcing with time := { announcing.time with now := { ns := 10001 } } } (announcement 0x10) = some 5 ∧
    shadowState announcing = 2 := ⟨hears_of (by decide +kernel), by decide +kernel, by decide +kernel, by decide +kernel⟩
theorem witness_cancel : hears 0x11 (announcement 0x11) announcing ∧ annInstant (announcement 0x11) = { ns := 20000 } ∧ annTarget (announcement 0x11) = 1 :=
  ⟨hears_of (by decide +kernel), by decide +kernel, by decide +kernel⟩
theorem witness_armed : hears 0x12 (frame 2 [1, 0, 9, 0, 0, 0, 0xFF] 0x12) announcing ∧ rd (frame 2 [1, 0, 9, 0, 0, 0, 0xFF] 0x12) 8 4 = (shadowSet announcing).podGen :=
  ⟨hears_of (by decide +kernel), by decide +kernel⟩
theorem witness_late : DevTime.diff { ns := 20000 } { ns := 10000 } = 10000 * 2 ^ 32 := by decide +kernel

/-! Witnesses for KilnCommandsFollowTheLifeCycle. -/

/-- The adapter in service, in RETURN. -/
def returned : State := { live with sec := { live.sec with lc := 3 } }
/-- The adapter held by core cluster 1 since start-up. -/
def heldBy1 : State := { live with fw := { live.fw with ready := false }, kiln := { holds := [5 * 4096 + 1] } }
theorem witness_kiln_status : Runs 0x0901 .V false always (cmd 0x0901 0) live ∧ kilnCurrent live = none ∧
    kilnCurrent { live with kiln := { live.kiln with core := some (3, true, false, 0) } } = some (8195, 3, false) :=
  ⟨runs_of (by decide +kernel) rfl, by decide +kernel, by decide +kernel⟩
theorem witness_kiln_schedule : Runs 0x0902 .A false always (cmd 0x0902 0 (2 + 100 * 2 ^ 32)) live ∧ (cmd 0x0902 0 (2 + 100 * 2 ^ 32)).p 4 4 = 100 ∧
    Runs 0x0902 .A false always (cmd 0x0902 0 (2 + 99 * 2 ^ 32)) live := ⟨runs_of (by decide +kernel) rfl, by decide +kernel, runs_of (by decide +kernel) rfl⟩
theorem witness_kiln_run : Runs 0x0903 .A true always (cmd 0x0903 0 8271 true) returned ∧ (cmd 0x0903 0 8271 true).p 0 2 = 2 * 4096 + 79 ∧
    Runs 0x0903 .A true always (cmd 0x0903 0 8272 true) returned ∧ sliceExists 8272 = false ∧ Runs 0x0903 .A true always (cmd 0x0903 0 0x7000 true) returned ∧
    sliceExists 0x7000 = true ∧ Runs 0x0903 .A true always (cmd 0x0903 0 0 true) { live with sec := { live.sec with lc := 2 } } :=
  ⟨runs_of (by decide +kernel) rfl, by decide +kernel, runs_of (by decide +kernel) rfl, by decide +kernel, runs_of (by decide +kernel) rfl,
    by decide +kernel, runs_of (by decide +kernel) rfl⟩
theorem witness_kiln_run_retired : Runs 0x0903 .A true always (cmd 0x0903 0 8192 true) { returned with kiln := { returned.kiln with blocks := [8192] } } ∧
    sliceExists 8192 = true := ⟨runs_of (by decide +kernel) rfl, by decide +kernel⟩
theorem witness_fail_policy : Runs 0x0904 .A true always (cmd 0x0904 0 (10 + 256) true) live ∧ (cmd 0x0904 0 (10 + 256) true).p 1 1 = 1 ∧
    Runs 0x0904 .A true always (cmd 0x0904 0 11 true) live := ⟨runs_of (by decide +kernel) rfl, by decide +kernel, runs_of (by decide +kernel) rfl⟩
theorem witness_hold_ends : Runs 0x0904 .A true always (cmd 0x0904 0 (5 + 256) true) heldBy1 ∧ (cmd 0x0904 0 (5 + 256) true).p 0 1 = 5 ∧
    (cmd 0x0904 0 (5 + 256) true).p 1 1 = 1 := ⟨runs_of (by decide +kernel) rfl, by decide +kernel, by decide +kernel⟩

/-! Witnesses for KilnStepsTestAndMoveUnits. -/

/-- The adapter in service 20 s after 0 s, with bank rotation 0 and Kiln as given. -/
def kilnAt (k : Kiln) (r : Rot := {}) : State :=
  { live with kiln := { k with banks := [(0, r)] }, time := { live.time with now := { sec := 20 } }, tick := 16000000000 }
theorem witness_bank_step : kilnDue (kilnAt {}) 0 0 0 = true ∧ kilnDue (kilnAt {} { last := 9 }) 0 0 9 = false ∧ ((kilnAt {}).kiln.banks.get 0).spare = some 16 := by
  decide +kernel
theorem witness_buffer_step : kilnDue { kilnAt {} with time := { live.time with now := { sec := 60 } } } 1 0 1 = true ∧
    (kilnAt {}).kiln.buf.spare = some 8 := by decide +kernel
theorem witness_spare_test : ((kilnAt {} { stage := 1 }).kiln.banks.get 0).stage = 1 ∧ (kilnAt {} { stage := 1 }).fw.ready = true ∧
    bankPlaced (kilnAt {}) 0 0 = false := by decide +kernel
theorem witness_copy : ((kilnAt {} { stage := 2, move := some { logical := 15, phys := 15 } }).kiln.banks.get 0).move = some { logical := 15, phys := 15 } := rfl
theorem witness_buffer_copy : (kilnAt { buf := { spare := some 8, stage := 2, move := some { logical := 7, phys := 7, copyAt := some 16000000000 } } }).kiln.buf.move =
    some { logical := 7, phys := 7, copyAt := some 16000000000 } := rfl
theorem witness_moved : ((kilnAt {} { stage := 3, spare := none, move := some { logical := 2, phys := 16, targeted := true } }).kiln.banks.get 0).stage = 3 := rfl
theorem witness_cipher_step : kilnDue (kilnAt {}) 2 0 0 = true ∧ coreUsable (kilnAt {}) 0 = true ∧ kilnDue (kilnAt { coreLast := 99 }) 2 0 99 = false := by decide +kernel
theorem witness_core_test : (kilnAt { core := some (79, true, false, 0) }).kiln.core = some (79, true, false, 0) ∧ retires (kilnAt {}) (8192 + 79) = true ∧
    retires (kilnAt { policy := [(2, false)] }) (8192 + 79) = false ∧ coreOps (kilnAt {}) 79 = [] := by decide +kernel
theorem witness_way_step : kilnDue (kilnAt {}) 3 0 0 = true ∧ wayUsable (kilnAt {}) 0 = true ∧ kilnDue (kilnAt { wayLast := [(0, 99)] }) 3 0 99 = false ∧
    (kilnAt { ways := [(0, (1, true, 0))] }).kiln.ways.has 0 = true := by decide +kernel
theorem witness_way_drain : wayLive { kilnAt { ways := [(0, (1, true, 0))] } with frags := [(5, {})] } 0 1 = [5] ∧
    wayLive (kilnAt { ways := [(0, (1, true, 0))] }) 0 1 = [] := by decide +kernel
theorem witness_targeted : targetedBusy (kilnAt { queue := [8192 + 5] }) (8192 + 5) = false ∧ targetedBusy (kilnAt { core := some (1, true, true, 0) }) 8192 = true ∧
    (kilnAt {}).kiln.queue = [] := by decide +kernel
/-- An active set whose TABLE_LAYOUT places a table in bank 0. -/
theorem witness_targeted_bank : ({} : Rot).logicalOf 16 3 = some 3 ∧ ∃ b, b < 16 ∧ bankPlaced inService 0 b = true := by decide +kernel

/-! Witnesses for MarginsAreSampledAndReplanned. -/

/-- The adapter in service with the record of region 23. -/
def aged (a : Age) : State := { live with age := [(23, a)] }
theorem witness_sample : (aged {}).fw.ready = true ∧ ((aged {}).age.get 23).sampleAt ≤ (aged {}).tick ∧
    (([1, 2] : List Nat).length, ([3, 4] : List Nat).length, ([5] : List Nat).length) = monitorCounts 23 ∧ ((aged { sampleAt := 1 }).age.get 23).sampleAt = 1 := by
  decide +kernel
theorem witness_replan : ((aged { planAt := 0 }).age.get 23).planAt ≤ (aged { planAt := 0 }).tick ∧ ((aged {}).age.get 23).planAt > (aged {}).tick ∧
    ((aged { planAt := 0 }).age.get 23).least = none := by decide +kernel
/-- The least margin of the interval may be at, 15 mV above or below any target. -/
theorem witness_targets : ∃ m1 m2 m3 : Int, (fuseTarget 0 : Int) ≤ m1 ∧ m1 < fuseTarget 0 + 240 ∧ (fuseTarget 0 : Int) + 240 ≤ m2 ∧ m3 < fuseTarget 0 :=
  ⟨fuseTarget 0, fuseTarget 0 + 240, fuseTarget 0 - 1, by omega⟩
theorem witness_raisable : raisable live 0 = true ∧ ∀ b ∈ neighbours 0, (regionOf live b).vdd = 0 := by decide +kernel
theorem witness_margin_read : Runs 0x0905 .A false always (cmd 0x0905 0 23) live ∧ Runs 0x0905 .A false always (cmd 0x0905 0 24) live :=
  ⟨runs_of (by decide +kernel) rfl, runs_of (by decide +kernel) rfl⟩

/-! Witnesses for InjectionIsArmedOpenedAndEnded. -/

/-- The parameters of an FI_SET for lane 1023: receive, half the frames dropped, window of 1 µs at 0 s, a delay of 100 ns. -/
def fiParam (reorder : Nat) : Nat := 1023 + 2 ^ 16 + 0x8000 * 2 ^ 32 + reorder * 2 ^ 64 + 100 * 2 ^ 80 + 2 ^ 224
theorem witness_fi_set : Runs 0x0A01 .A false always (cmd 0x0A01 0 (fiParam 0)) returned ∧ (cmd 0x0A01 0 (fiParam 0)).p 0 2 = 1023 ∧
    (cmd 0x0A01 0 (fiParam 0)).p 10 2 = 100 ∧ (cmd 0x0A01 0 (fiParam 0)).p 28 4 = 1 ∧ bits 61 32 ((cmd 0x0A01 0 (fiParam 0)).p 12 16) = 0 ∧
    (cmd 0x0A01 0 (fiParam 0)).p 32 16 = 0 ∧ Runs 0x0A01 .A false always (cmd 0x0A01 0 (fiParam 9)) returned ∧ setActive returned = false :=
  ⟨runs_of (by decide +kernel) rfl, by decide +kernel, by decide +kernel, by decide +kernel, by decide +kernel, by decide +kernel,
    runs_of (by decide +kernel) rfl, by decide +kernel⟩
theorem witness_fi_denied : Runs 0x0A01 .A false always (cmd 0x0A01 0 (fiParam 0)) { live with sec := { live.sec with lc := 2, fiField := false } } :=
  runs_of (by decide +kernel) rfl
theorem witness_fi_clear : Runs 0x0A02 .A false always (cmd 0x0A02 0 1023) live ∧ Runs 0x0A02 .A false always (cmd 0x0A02 0 1024) live ∧
    Runs 0x0A02 .A false always (cmd 0x0A02 0 1) { live with fi := [(1, { held := some ([], false, {}, 0) })] } :=
  ⟨runs_of (by decide +kernel) rfl, runs_of (by decide +kernel) rfl, runs_of (by decide +kernel) rfl⟩
theorem witness_fi_window : DevTime.diff ({ live with fi := [(1, { armed := true, duration := 1 })] } : State).time.now {} = 0 := by decide +kernel

end Sys2Proof.Tests
end

/-! Wide counters (R76, log 55). The clause of O48 on the read of an upper word fails in a state that latches one lower word twice,
and holds where the latches are listed in rising order, as after reset and after every read. -/
namespace Sys2Proof.Machine

/-- Keys stand in strictly rising order, as `SMap.put` keeps them. -/
def SMap.Rising {α : Type} (m : SMap α) : Prop := m.Pairwise fun p q => p.1 < q.1

theorem SMap.has_iff_exists_mem {α : Type} (m : SMap α) (k : Nat) : m.has k = true ↔ ∃ p ∈ m, p.1 = k := by
  induction m with
  | nil => simp [SMap.has]
  | cons c m ih => simp [SMap.has, ih]

theorem SMap.mem_of_mem_del {α : Type} {m : SMap α} {k : Nat} {p : Nat × α} (h : p ∈ m.del k) : p ∈ m := by
  induction m with
  | nil => exact h
  | cons c m ih =>
    unfold SMap.del at h
    split at h
    · exact List.mem_cons_of_mem _ h
    · exact List.mem_cons.2 ((List.mem_cons.1 h).imp_right ih)

theorem SMap.Rising.del {α : Type} {m : SMap α} (h : m.Rising) (k : Nat) : (m.del k).Rising := by
  induction m with
  | nil => exact h
  | cons c m ih =>
    obtain ⟨below, rising⟩ := List.pairwise_cons.1 h
    unfold SMap.del
    split
    · exact rising
    · exact List.pairwise_cons.2 ⟨fun p hp => below p (SMap.mem_of_mem_del hp), ih rising⟩

/-- A key struck from a map without duplicate keys is gone; of two entries with one key, `del` strikes the first only. -/
theorem SMap.Rising.has_del_same {α : Type} {m : SMap α} (h : m.Rising) (k : Nat) : (m.del k).has k = false := by
  induction m with
  | nil => rfl
  | cons c m ih =>
    obtain ⟨below, rising⟩ := List.pairwise_cons.1 h
    unfold SMap.del
    split
    · next e =>
      rw [Bool.eq_false_iff, Ne, SMap.has_iff_exists_mem]
      rintro ⟨p, hp, rfl⟩
      exact absurd e (below p hp).ne
    · next e => simp [SMap.has, e, ih rising]

theorem SMap.mem_put {α : Type} {m : SMap α} {k : Nat} {a : α} {p : Nat × α} (h : p ∈ m.put k a) : p = (k, a) ∨ p ∈ m := by
  induction m with
  | nil => exact .inl (List.mem_singleton.1 h)
  | cons c m ih =>
    unfold SMap.put at h
    split at h
    · exact List.mem_cons.1 h
    · split at h
      · exact (List.mem_cons.1 h).imp_right (List.mem_cons_of_mem _)
      · obtain rfl | hp := List.mem_cons.1 h
        · exact .inr List.mem_cons_self
        · exact (ih hp).imp_right (List.mem_cons_of_mem _)

theorem SMap.Rising.put {α : Type} {m : SMap α} (h : m.Rising) (k : Nat) (a : α) : (m.put k a).Rising := by
  induction m with
  | nil => exact List.pairwise_singleton ..
  | cons c m ih =>
    obtain ⟨below, rising⟩ := List.pairwise_cons.1 h
    unfold SMap.put
    split
    · next lt =>
      refine List.pairwise_cons.2 ⟨fun p hp => ?_, h⟩
      obtain rfl | hp := List.mem_cons.1 hp
      · exact lt
      · exact lt.trans (below p hp)
    · split
      · next e => exact List.pairwise_cons.2 ⟨fun p hp => e ▸ below p hp, rising⟩
      · refine List.pairwise_cons.2 ⟨fun p hp => ?_, ih rising⟩
        obtain rfl | hp := SMap.mem_put hp
        · show c.1 < k
          omega
        · exact below p hp

/-- The words of a lane's two frame counters (R668), receive at 0 and transmit at 8. -/
theorem wideLow_laneFrames {n o : Nat} (hn : n < 1024) (ho : o = 0 ∨ o = 8) :
    wideLow (0xF00000010000 + 128 * n + o) = true ∧ wideLow (0xF00000010000 + 128 * n + o + 4) = false := by
  simp only [wideLow, Bool.or_eq_true, Bool.or_eq_false_iff, Bool.and_eq_true, Bool.and_eq_false_iff, decide_eq_true_eq,
    decide_eq_false_iff_not, beq_iff_eq, beq_eq_false_iff_ne]
  omega

theorem exec_counterLowRead (r : RegPlace) (s : State) : exec (.counterLowRead r) s = execCounterLowRead r s := rfl

/-- The read of an upper word strikes the latch of its lower word, and does nothing else. -/
theorem exec_counterLowRead_upper {a : Nat} (low : wideLow a = true) (up : wideLow (a + 4) = false) (s : State) :
    exec (.counterLowRead (.internal (a + 4))) s = .next { s with latches := s.latches.del a } := by
  simp [exec_counterLowRead, execCounterLowRead, low, up]

theorem reset_latches_rising : State.reset.latches.Rising := List.Pairwise.nil

theorem exec_counterLowRead_rising {r : RegPlace} {s t : State} (h : s.latches.Rising) (e : exec (.counterLowRead r) s = .next t) :
    t.latches.Rising := by
  rw [exec_counterLowRead] at e
  cases r with
  | bar0 fn o => cases e; exact h
  | internal a =>
    unfold execCounterLowRead at e
    dsimp only at e
    split at e
    · cases e; exact h.put ..
    · split at e
      · cases e; exact h.del _
      · cases e; exact h

/-- The clause that O48 fails on, for a state that latches no word twice: the read of an upper word uses the latch up. -/
theorem upperRead_after_upper_of_rising {s : State} (h : s.latches.Rising) {n o : Nat} (hn : n < 1024) (ho : o = 0 ∨ o = 8) :
    ∃ t, exec (.counterLowRead (.internal (0xF00000010000 + 128 * n + o + 4))) s = .next t ∧
      upperRead t (0xF00000010000 + 128 * n + o + 4) = regRead t (0xF00000010000 + 128 * n + o + 4) ∧
      t = { s with latches := t.latches } := by
  obtain ⟨low, up⟩ := wideLow_laneFrames hn ho
  refine ⟨_, exec_counterLowRead_upper low up s, ?_, rfl⟩
  simp only [upperRead, Nat.add_sub_cancel, h.has_del_same, Bool.false_eq_true, if_false]

/-- Refutes O48: it speaks of every value of State, also of one whose sparse map `latches` lists a lower word twice. A read of the
upper word of LANE_RX_FRAMES[0] strikes the first of the two entries, and the next read of it returns the 1 of the second and not the
live word, 0. -/
theorem not_registersAreReadAndWritten : ¬ Obligations.RegistersAreReadAndWritten := by
  unfold Obligations.RegistersAreReadAndWritten
  rintro ⟨-, -, -, -, -, -, upperReadTwice, -⟩
  obtain ⟨t, read, live, -⟩ := upperReadTwice
    { State.reset with latches := [(0xF00000010000, 1), (0xF00000010000, 1)] } 0 (by decide) 0 (.inl rfl)
  obtain ⟨low, up⟩ := wideLow_laneFrames (n := 0) (by decide) (.inl rfl)
  rw [exec_counterLowRead_upper low up] at read
  cases read
  exact absurd live (by decide +kernel)

end Sys2Proof.Machine

/-! The losses of R45 to R47, R352, R640 to R647: the safe state discards packets, host links and commands in execution, and
leaves the sequencer, the firmware's record and the keys alone. -/
namespace Sys2Proof.Machine

/-- The pieces of state that the loss of packets and of host links leaves alone: sequencer and monitors, firmware, keys. -/
def steady (s : State) : Pwr × Fw × Keys := (s.pwr, s.fw, s.keys)

theorem steady_eq_iff {s t : State} : steady t = steady s ↔ t.pwr = s.pwr ∧ t.fw = s.fw ∧ t.keys = s.keys := by
  simp [steady]

theorem steady_of_core {s t : State} (h : core t = core s) : steady t = steady s :=
  steady_eq_iff.2 ⟨pwr_of_core h, fw_of_core h, keys_of_core h⟩

theorem steady_foldl {α : Type} {f : State → α → State} (h : ∀ s a, steady (f s a) = steady s) (l : List α) (s : State) :
    steady (l.foldl f s) = steady s := by
  induction l generalizing s with
  | nil => rfl
  | cons a l ih => rw [List.foldl_cons, ih, h]

/-! Packets, lanes and leaves. -/

@[simp] theorem steady_setFn (i : Nat) (f : Fn → Fn) (s : State) : steady (setFn i f s) = steady s := rfl
@[simp] theorem steady_setPort (p : Nat) (f : PcPort → PcPort) (s : State) : steady (setPort p f s) = steady s := rfl
@[simp] theorem steady_setLane (n : Nat) (f : Lane → Lane) (s : State) : steady (setLane n f s) = steady s := rfl
@[simp] theorem steady_setNode (n : Nat) (f : Node → Node) (s : State) : steady (setNode n f s) = steady s := rfl
@[simp] theorem steady_dropReqs (i : Nat) (sel : ReqKind → Bool) (s : State) : steady (dropReqs i sel s) = steady s := rfl
@[simp] theorem steady_deliverEvent (pf rec : Nat) (s : State) : steady (deliverEvent pf rec s) = steady s :=
  steady_of_core (core_deliverEvent ..)

@[simp] theorem steady_pfcNotify (port : Nat) (s : State) : steady (pfcNotify port s) = steady s :=
  steady_foldl (fun s n => by split <;> rfl) _ s

@[simp] theorem steady_evalXoff (pc : Nat) (s : State) : steady (evalXoff pc s) = steady s := by
  unfold evalXoff
  dsimp only
  split
  · rfl
  · split
    · exact steady_pfcNotify ..
    · split
      · exact steady_pfcNotify ..
      · rfl

@[simp] theorem steady_evalOf (x : Pkt) (s : State) : steady (evalOf x s) = steady s := by
  unfold evalOf
  split <;> simp

@[simp] theorem steady_txDone (x : Pkt) (s : State) : steady (txDone x s) = steady s := by
  unfold txDone
  dsimp only
  repeat' split
  all_goals rfl

@[simp] theorem steady_removePkt (p : Nat) (s : State) : steady (removePkt p s) = steady s := by
  simp only [removePkt, steady_evalOf, steady_txDone]
  rfl

@[simp] theorem steady_freeHeld (e : CplEntry) (s : State) : steady (freeHeld e s) = steady s := by
  unfold freeHeld
  split
  · exact steady_evalOf ..
  · rfl

@[simp] theorem steady_placeNode (n : Nat) (s : State) : steady (placeNode n s) = steady s := by
  unfold placeNode
  dsimp only
  repeat' split
  all_goals rfl

@[simp] theorem steady_placeNodes (l : List Nat) (s : State) : steady (placeNodes l s) = steady s := by
  induction l generalizing s with
  | nil => rfl
  | cons n l ih => rw [placeNodes, ih, steady_placeNode]

@[simp] theorem steady_placePath (n : Nat) (s : State) : steady (placePath n s) = steady s := by
  unfold placePath
  split <;> simp

@[simp] theorem steady_dropLeafIf (n : Nat) (f : Pkt → Bool) (s : State) : steady (dropLeafIf n f s) = steady s :=
  (steady_placePath ..).trans (steady_foldl (fun s p => steady_removePkt p s) _ _)

@[simp] theorem steady_dropLeaf (q : Nat) (s : State) : steady (dropLeaf q s) = steady s := steady_dropLeafIf ..

@[simp] theorem steady_dropLeaves (iid : Nat) (s : State) : steady (dropLeaves iid s) = steady s :=
  steady_foldl (fun s k => steady_dropLeaf (queueOf s iid k) s) _ s

@[simp] theorem steady_discardDelivery (iid : Nat) (s : State) : steady (discardDelivery iid s) = steady s :=
  steady_foldl (fun s p => steady_removePkt p s) _ _

@[simp] theorem steady_freeStamps (es : List CplEntry) (s : State) : steady (freeStamps es s) = steady s :=
  steady_foldl (fun s e => by rw [steady_freeHeld]; split <;> rfl) es s

/-! Transport objects. -/

@[simp] theorem steady_setObj (n : Nat) (f : Obj → Obj) (s : State) : steady (setObj n f s) = steady s := by
  unfold setObj
  split <;> rfl

@[simp] theorem steady_dropFormed (n : Nat) (s : State) : steady (dropFormed n s) = steady s := steady_dropLeafIf ..

@[simp] theorem steady_abandonRecord (silent : Bool) (n : Nat) (s : State) : steady (abandonRecord silent n s) = steady s := by
  unfold abandonRecord
  dsimp only
  repeat' split
  all_goals rfl

@[simp] theorem steady_errObjectsOf (iid : Nat) (s : State) : steady (errObjectsOf iid s) = steady s :=
  steady_foldl (fun s n => by simp) _ s

@[simp] theorem steady_destroyObject (n : Nat) (s : State) : steady (destroyObject n s) = steady s :=
  (steady_abandonRecord ..).trans (steady_dropFormed ..)

@[simp] theorem steady_destroyObjectsOf (iid : Nat) (s : State) : steady (destroyObjectsOf iid s) = steady s :=
  steady_foldl (fun s n => steady_destroyObject n s) _ s

/-! Mailboxes, rings and functions. -/

@[simp] theorem steady_raiseVector (i v : Nat) (s : State) : steady (raiseVector i v s) = steady s := steady_of_core (core_raiseVector ..)

@[simp] theorem steady_endMessage (iid : Nat) (sec : Bool) (r : Nat) (s : State) : steady (endMessage iid sec r s) = steady s := by
  unfold endMessage
  dsimp only
  split
  · exact steady_raiseVector ..
  · rfl

@[simp] theorem steady_fillChannel (iid chan : Nat) (c : MboxChan) (s : State) : steady (fillChannel iid chan c s) = steady s := by
  unfold fillChannel
  dsimp only
  split
  · exact steady_raiseVector ..
  · rfl

@[simp] theorem steady_sendNotice (iid type w : Nat) (s : State) : steady (sendNotice iid type w s) = steady s := by
  unfold sendNotice
  dsimp only
  split
  · exact steady_fillChannel ..
  · split <;> rfl

@[simp] theorem steady_discardUnread (iid cause : Nat) (l : List (Nat × MboxChan)) (s : State) :
    steady (discardUnread iid cause l s) = steady s := by
  induction l generalizing s with
  | nil => rfl
  | cons c l ih =>
    unfold discardUnread
    dsimp only
    split
    · rw [ih, steady_deliverEvent]
      split
      · rfl
      · exact steady_endMessage ..
    · exact ih s

@[simp] theorem steady_resetMailbox (iid cause : Nat) (s : State) : steady (resetMailbox iid cause s) = steady s := by
  refine Eq.trans ?_ (steady_discardUnread iid cause ((fnOf s iid).chans ++ [(0x4000, (fnOf s iid).secChan)]) s)
  unfold resetMailbox
  dsimp only
  repeat' split
  all_goals rfl

@[simp] theorem steady_finishRings (rs : List (Nat × Bool)) (st d : Nat) (s : State) : steady (finishRings rs st d s) = steady s :=
  steady_foldl (fun _ _ => steady_of_core (core_finishExec ..)) rs s

@[simp] theorem steady_forgetRings (iid : Nat) (s : State) : steady (forgetRings iid s) = steady s := rfl

@[simp] theorem steady_stopLogging (iid : Nat) (s : State) : steady (stopLogging iid s) = steady s := by
  unfold stopLogging
  split
  · exact steady_sendNotice ..
  · rfl

@[simp] theorem steady_discardWork (iid : Nat) (s : State) : steady (discardWork iid s) = steady s := by
  unfold discardWork
  dsimp only
  rw [steady_errObjectsOf]
  exact (steady_dropLeaves ..).trans (steady_freeStamps ..)

@[simp] theorem steady_resetInstance (iid cause : Nat) (s : State) : steady (resetInstance iid cause s) = steady s := by
  simp [resetInstance]

@[simp] theorem steady_endReset (iid cause : Nat) (s : State) : steady (endReset iid cause s) = steady s := steady_sendNotice ..

@[simp] theorem steady_resetWhole (iid cause : Nat) (s : State) : steady (resetWhole iid cause s) = steady s := by
  have h : steady (setFn iid resetFunction (resetInstance iid cause (discardWork iid s))) = steady s := by simp
  unfold resetWhole
  dsimp only
  split <;> exact h

@[simp] theorem steady_endVfs (cause : Nat) (l : List Nat) (s : State) : steady (endVfs cause l s) = steady s := by
  induction l generalizing s with
  | nil => rfl
  | cons v l ih => simp [endVfs, ih, endVf]

@[simp] theorem steady_linkLoss (h : Nat) (perst : Bool) (s : State) : steady (linkLoss h perst s) = steady s := by
  unfold linkLoss
  dsimp only
  rw [steady_deliverEvent]
  split <;> simp

@[simp] theorem steady_hostPortsReset (s : State) : steady (hostPortsReset s) = steady s :=
  steady_foldl (fun s h => by split <;> simp) _ s

/-! The safe state. -/

@[simp] theorem steady_setRot (i : Nat) (f : Rot → Rot) (s : State) : steady (setRot i f s) = steady s := by
  unfold setRot
  split <;> rfl

@[simp] theorem steady_haltRot (i : Nat) (s : State) : steady (haltRot i s) = steady s := by
  unfold haltRot
  dsimp only
  split
  · exact steady_setRot ..
  · split <;> exact steady_setRot ..

@[simp] theorem steady_kilnHalt (s : State) : steady (kilnHalt s) = steady s :=
  (steady_haltRot ..).trans (steady_foldl (fun s k => steady_haltRot (17 * k) s) _ s)

@[simp] theorem steady_undoExec (e : Exec) (s : State) : steady (undoExec e s) = steady s := by
  unfold undoExec
  dsimp only
  split <;> rfl

@[simp] theorem steady_undoAll (s : State) : steady (undoAll s) = steady s :=
  steady_foldl (fun s f => steady_foldl (fun s c => by
    split
    · split <;> simp
    · rfl) _ s) _ s

/-- A piece of a map to which `mapAll` applied an `f` that leaves the reset value alone. -/
theorem SMap.get_mapAll {α : Type} [Inhabited α] {f : Nat → α → α} (hf : ∀ k, f k default = default) (m : SMap α) (k : Nat) :
    (m.mapAll f).get k = f k (m.get k) := by
  induction m with
  | nil => exact (hf k).symm
  | cons c m ih =>
    obtain ⟨j, a⟩ := c
    simp only [SMap.mapAll, List.map_cons, SMap.get] at ih ⊢
    split
    · next e => rw [e]
    · exact ih

@[simp] theorem steady_lanesSquelch (s : State) : steady (lanesSquelch s) = steady s := rfl
@[simp] theorem steady_packetsLost (s : State) : steady (packetsLost s) = steady s := rfl

/-- The laser sources with every enable withdrawn (R653). -/
def darkLasers (m : SMap Laser) : SMap Laser := m.mapAll fun _ l => { l with en := false }

@[simp] theorem darkLasers_en (m : SMap Laser) (k : Nat) : ((darkLasers m).get k).en = false := by
  unfold darkLasers
  rw [SMap.get_mapAll fun _ => rfl]

/-- What entering the safe state makes of the pieces that link and packet loss leave alone (R45, R653). -/
theorem enterSafe_steady (s : State) :
    (enterSafe s).pwr = { s.pwr with
      safe := true, hxReleased := false, hxReady := false, released := false, lasers := darkLasers s.pwr.lasers } ∧
    (enterSafe s).fw = { s.fw with ready := false } ∧ (enterSafe s).keys = s.keys := by
  have h := steady_undoAll { s with fw := { s.fw with ready := false } }
  rw [← steady_kilnHalt, ← steady_lanesSquelch, ← steady_hostPortsReset, ← steady_packetsLost] at h
  unfold enterSafe
  dsimp only
  generalize packetsLost _ = u at h ⊢
  obtain ⟨hp, hf, hk⟩ := steady_eq_iff.1 h
  simp only [hp, hf, hk, darkLasers, and_self]

@[simp] theorem enterSafe_pwr (s : State) : (enterSafe s).pwr = { s.pwr with
    safe := true, hxReleased := false, hxReady := false, released := false, lasers := darkLasers s.pwr.lasers } :=
  (enterSafe_steady s).1
@[simp] theorem enterSafe_fw (s : State) : (enterSafe s).fw = { s.fw with ready := false } := (enterSafe_steady s).2.1
@[simp] theorem enterSafe_keys (s : State) : (enterSafe s).keys = s.keys := (enterSafe_steady s).2.2

/-- No packet and no fragment record outlives the entry into the safe state (R45). -/
theorem enterSafe_pkts_frags (s : State) : (enterSafe s).pkts = [] ∧ (enterSafe s).frags = [] := by
  unfold enterSafe
  dsimp only
  exact ⟨rfl, rfl⟩

/-! Lasers, sessions and rails. -/

@[simp] theorem lasersOff_pwr (s : State) : (lasersOff s).pwr = { s.pwr with lasers := darkLasers s.pwr.lasers } := rfl
@[simp] theorem railsOff_pwr (s : State) : (railsOff s).pwr = { s.pwr with en := 0 } := rfl
@[simp] theorem endSessions_pwr (s : State) : (endSessions s).pwr = s.pwr := rfl
@[simp] theorem endSessions_fw (s : State) : (endSessions s).fw = s.fw := rfl
@[simp] theorem endSessions_keys (s : State) : (endSessions s).keys = s.keys := rfl
@[simp] theorem endSessions_pkts (s : State) : (endSessions s).pkts = s.pkts := rfl
@[simp] theorem endSessions_frags (s : State) : (endSessions s).frags = s.frags := rfl

@[simp] theorem endSessions_session (s : State) (p : Nat) : ((endSessions s).sec.ports.get p).session = 0 := by
  simp only [endSessions]
  rw [SMap.get_mapAll fun _ => rfl]

/-! Loss of lock and relock (R45, R46, R352). -/

/-- The state at a loss of lock in service, before the event is posted (R45, R47, R621). -/
def lockLostInService (s : State) : State :=
  let u := endSessions (enterSafe (useDraw s))
  { u with
    pwr := { u.pwr with
      relock := true, stage := 4, ckLocked := false, lossOfLock := true, refValid := drawn 1 s == 1, unlocked := true }
    fw := { u.fw with cause := 0 } }

theorem exec_pllLockLost_inService {s : State} (lock : s.pwr.ckLocked = true) (lo : 9 ≤ s.pwr.stage) (hi : s.pwr.stage ≤ 11) :
    exec .pllLockLost s = .next (postAll 0x0B05 23 0 (lockLostInService s)) := by
  show execPllLockLost s = _
  simp [execPllLockLost, lock, lo, hi, lockLostInService]

theorem execPllLockLost_keeps {s t : State} (e : exec .pllLockLost s = .next t) :
    t.hbm = s.hbm ∧ t.time.now = s.time.now ∧ t.sets.epoch = s.sets.epoch := by
  have h : frame t = frame s := (execPllLockLost_frame s).elim e
  simp only [frame, Prod.mk.injEq] at h
  obtain ⟨-, hbm, now, -, -, epoch⟩ := h
  exact ⟨hbm, now, epoch⟩

/-- Laser enables that follow their conditions (R653) write the lasers alone. -/
theorem foldl_laserUpdate_eq (l : List Nat) (s : State) : ∃ m, l.foldl (fun s k => laserUpdate k s) s =
    { s with pwr := { s.pwr with lasers := m } } := by
  induction l generalizing s with
  | nil => exact ⟨_, rfl⟩
  | cons k l ih =>
    obtain ⟨m, e⟩ := ih (laserUpdate k s)
    exact ⟨m, e⟩

/-- The release of the regions writes the sequencer alone, and leaves what it does not release (R638 step 8). -/
theorem regionsReleased_eq (s : State) : ∃ m r, regionsReleased s = { s with pwr := { s.pwr with
    capStep := 0, regions := r, stage := 9, released := true, hxReleased := true, hxReady := true, lasers := m } } := by
  obtain ⟨m, e⟩ := foldl_laserUpdate_eq (List.range 16) { s with pwr := { (monitorsReset s).pwr with
    stage := 9, released := true, hxReleased := true, hxReady := true } }
  exact ⟨m, _, e⟩

theorem lockHeld_core (s : State) : core (lockHeld s) = core { s with
    pwr := { s.pwr with ckLocked := true, refValid := true, unlocked := false, lockTick := s.tick }
    time := { s.time with
      untrusted := s.time.untrusted || s.pwr.unlocked, ppsHigh := s.time.ppsHigh && !s.pwr.unlocked } } := by
  cases h : s.pwr.unlocked <;> simp [lockHeld, h]

theorem setsEmptied_core (s : State) : core (setsEmptied s) = core (setsCleared s) := by
  unfold setsEmptied
  dsimp only
  split
  · exact core_postAll ..
  · rfl

theorem exec_pllRelock {s : State} (stage : s.pwr.stage = 4) (relock : s.pwr.relock = true) :
    exec .pllRelock s = .next (regionsReleased (cacheInvalidate (setsEmptied (lockHeld s)))) := by
  show execPllRelock s = _
  simp [execPllRelock, stage, relock]

/-! Loss of a power group, fall of ADP_PWROK, hardware trip (R640 to R647). -/

theorem exec_pwrPgLost {s : State} {n : Fin 3} (reached : n.val + 1 < s.pwr.stage) (on : s.pwr.stage ≤ 11)
    (en : s.pwr.en.getLsbD n.val = true) : ∃ t, exec (.pwrPgLost n) s = .next t ∧
      t.pwr = { s.pwr with
        pg := s.pwr.pg &&& ~~~(1#3 <<< n.val), safe := true, hxReleased := false, hxReady := false, released := false
        lasers := darkLasers (darkLasers s.pwr.lasers), en := 0, failCause := 4, stage := 13 } := by
  refine ⟨_, show execPwrPgLost n s = _ by simp only [execPwrPgLost, reached, on, en, decide_true, Bool.and_self, if_true]; rfl, ?_⟩
  simp

theorem exec_adpPwrokFall {s : State} (ok : s.pwr.pwrok = true) : ∃ t, exec .adpPwrokFall s = .next t ∧
    t.pwr = { s.pwr with
      safe := true, hxReleased := false, hxReady := false, released := false
      lasers := darkLasers (darkLasers s.pwr.lasers), en := 0, pwrok := false, fellAt := t.pwr.fellAt
      stage := if s.pwr.stage = 12 ∨ s.pwr.stage = 13 then s.pwr.stage else 0 } := by
  refine ⟨_, show execAdpPwrokFall s = _ by simp only [execAdpPwrokFall, ok, if_true]; rfl, ?_⟩
  simp

@[simp] theorem thermalTrip_pwr (hw : Bool) (k : Nat) (tj : Int) (s : State) : (thermalTrip hw k tj s).pwr = { s.pwr with
    safe := true, hxReleased := false, hxReady := false, released := false
    lasers := darkLasers (darkLasers s.pwr.lasers), en := 0
    tripped := true, tripHw := hw, tripRegion := k, tripTj := tj, tripOut := true, stage := 12 } := by
  simp [thermalTrip]

theorem exec_thermComparatorTrip {s : State} (k : Fin 24) {tj : Int} (hot : 135 ≤ tj) (stage : s.pwr.stage ≠ 12) :
    exec (.thermComparatorTrip k tj) s = .next (thermalTrip true k.val tj s) := by
  show execThermComparatorTrip k tj s = _
  simp [execThermComparatorTrip, hot, stage]

/-- Settles O27: each loss is one equation for the state it leads to, and entering the safe state leaves the sequencer, the firmware's
record and the keys to be read off it. -/
theorem lossesLeadToTheSafeState : Obligations.LossesLeadToTheSafeState := by
  refine ⟨fun s lock lo hi => ?lockLost, fun s stage relock => ?relock, fun s n reached on en => ?group,
    fun s ok => ?pwrok, fun s k tj hot stage => ?trip⟩
  case lockLost =>
    have e := exec_pllLockLost_inService lock lo hi
    obtain ⟨hbm, now, epoch⟩ := execPllLockLost_keeps e
    have gone := enterSafe_pkts_frags (useDraw s)
    refine ⟨_, e, ?_⟩
    rw [hbm, now, epoch]
    simp [lockLostInService, gone]
  case relock =>
    obtain ⟨m, r, released⟩ := regionsReleased_eq (cacheInvalidate (setsEmptied (lockHeld s)))
    have emptied := setsEmptied_core (lockHeld s)
    have held := lockHeld_core s
    refine ⟨_, (exec_pllRelock stage relock).trans (congrArg _ released), ?_⟩
    simp [cacheInvalidate, setsCleared, pwr_of_core emptied, time_of_core emptied, sets_of_core emptied, pkts_of_core emptied,
      hbm_of_core emptied, keys_of_core emptied, store_of_core emptied, pwr_of_core held, time_of_core held, sets_of_core held,
      pkts_of_core held, hbm_of_core held, keys_of_core held, store_of_core held]
  case group =>
    obtain ⟨t, e, pwr⟩ := exec_pwrPgLost reached on en
    exact ⟨t, e, by simp [pwr]⟩
  case pwrok =>
    obtain ⟨t, e, pwr⟩ := exec_adpPwrokFall ok
    refine ⟨t, e, ?_⟩
    rw [pwr]
    simp
  case trip => exact ⟨_, exec_thermComparatorTrip k hot stage, by simp⟩

end Sys2Proof.Machine

/-! Region monitors and limits (R55 to R62, R634, R645, R646). -/
namespace Sys2Proof.Machine

@[simp] theorem regionOf_setRegion_same (k : Nat) (f : Region → Region) (s : State) : regionOf (setRegion k f s) k = f (regionOf s k) :=
  SMap.get_upd_same ..

theorem regionOf_setRegion_ne {k j : Nat} (f : Region → Region) (s : State) (h : k ≠ j) :
    regionOf (setRegion k f s) j = regionOf s j := SMap.get_upd_ne _ _ h

theorem regionOf_congr {s t : State} (h : t.pwr = s.pwr) (k : Nat) : regionOf t k = regionOf s k := by rw [regionOf, h, regionOf]

/-- Two states that agree but for the host side agree on what is left once the sequencer is set aside too. -/
theorem core_withPwr_congr {s t : State} (h : core t = core s) (p : Pwr) : core { t with pwr := p } = core { s with pwr := p } :=
  congrArg (fun u : State => { u with pwr := p }) h

@[simp] theorem core_postThermalWarn (k : Nat) (cap : Bool) (s : State) : core (postThermalWarn k cap s) = core s := core_postAll ..
@[simp] theorem core_postRegionLimit (k : Nat) (rep : Bool) (s : State) : core (postRegionLimit k rep s) = core s := core_postAll ..
@[simp] theorem postThermalWarn_pwr (k : Nat) (cap : Bool) (s : State) : (postThermalWarn k cap s).pwr = s.pwr := postAll_pwr ..
@[simp] theorem postRegionLimit_pwr (k : Nat) (rep : Bool) (s : State) : (postRegionLimit k rep s).pwr = s.pwr := postAll_pwr ..

/-! ## A sample and the judgement of the region and its neighbours (R55, R57) -/

/-- What a sample stores of a region (R55, R647). -/
def Region.reading (r : Region) : Bool × Nat × Int × Nat := (r.sampled, r.vdd, r.tj, r.hot)

theorem Region.reading_eq_iff {r : Region} {b : Bool} {v h : Nat} {c : Int} :
    r.reading = (b, v, c, h) ↔ r.sampled = b ∧ r.vdd = v ∧ r.tj = c ∧ r.hot = h := by
  simp [Region.reading]

/-- Every region's reading is the same in both states. -/
def SameReadings (s t : State) : Prop := ∀ k, (regionOf t k).reading = (regionOf s k).reading

theorem SameReadings.trans {s t u : State} (h : SameReadings s t) (g : SameReadings t u) : SameReadings s u := fun k => (g k).trans (h k)

theorem sameReadings_setRegion {f : Region → Region} (hf : ∀ r, (f r).reading = r.reading) (k : Nat) (s : State) :
    SameReadings s (setRegion k f s) := by
  intro j
  obtain rfl | h := eq_or_ne k j
  · rw [regionOf_setRegion_same, hf]
  · rw [regionOf_setRegion_ne f s h]

theorem sameReadings_judgeRegion (s : State) (k : Nat) : SameReadings s (judgeRegion s k) := by
  refine sameReadings_setRegion ?_ k s
  exact fun _ => rfl

theorem SameReadings.sampled {s t : State} (h : SameReadings s t) (k : Nat) : (regionOf t k).sampled = (regionOf s k).sampled :=
  congrArg (·.1) (h k)
theorem SameReadings.vdd {s t : State} (h : SameReadings s t) (k : Nat) : (regionOf t k).vdd = (regionOf s k).vdd :=
  congrArg (·.2.1) (h k)
theorem SameReadings.tj {s t : State} (h : SameReadings s t) (k : Nat) : (regionOf t k).tj = (regionOf s k).tj :=
  congrArg (·.2.2.1) (h k)

theorem SameReadings.sampledNb {s t : State} (h : SameReadings s t) (k : Nat) : sampledNb t k = sampledNb s k := by
  simp only [Machine.sampledNb, h.sampled]

theorem SameReadings.overV {s t : State} (h : SameReadings s t) (k : Nat) : overV t k = overV s k := by
  simp only [Machine.overV, h.sampledNb, h.vdd]

theorem SameReadings.overT {s t : State} (h : SameReadings s t) (k : Nat) : overT t k = overT s k := by
  simp only [Machine.overT, h.sampledNb, h.tj]

/-- The limit flags of a region say what the readings say (R57). -/
def Judged (s : State) (k : Nat) : Prop :=
  ((regionOf s k).limitV = true ↔ overV s k ≠ []) ∧ ((regionOf s k).limitT = true ↔ overT s k ≠ [])

theorem Judged.of_same {s t : State} {k : Nat} (h : Judged s k) (same : SameReadings s t)
    (v : (regionOf t k).limitV = (regionOf s k).limitV) (r : (regionOf t k).limitT = (regionOf s k).limitT) : Judged t k := by
  rwa [Judged, v, r, same.overV, same.overT]

theorem judged_judgeRegion (s : State) (k : Nat) : Judged (judgeRegion s k) k := by
  have same := sameReadings_judgeRegion s k
  rw [Judged, same.overV, same.overT, judgeRegion, regionOf_setRegion_same]
  simp

theorem Judged.judgeRegion {s : State} {k : Nat} (h : Judged s k) (j : Nat) : Judged (judgeRegion s j) k := by
  obtain rfl | ne := eq_or_ne j k
  · exact judged_judgeRegion s j
  · have e : regionOf (Machine.judgeRegion s j) k = regionOf s k := regionOf_setRegion_ne _ s ne
    exact h.of_same (sameReadings_judgeRegion s j) (by rw [e]) (by rw [e])

theorem Judged.foldl_judgeRegion {s : State} {k : Nat} (h : Judged s k) (l : List Nat) : Judged (l.foldl Machine.judgeRegion s) k := by
  induction l generalizing s with
  | nil => exact h
  | cons j l ih => exact ih (h.judgeRegion j)

theorem sameReadings_foldl_judgeRegion (l : List Nat) (s : State) : SameReadings s (l.foldl judgeRegion s) := by
  induction l generalizing s with
  | nil => exact fun _ => rfl
  | cons j l ih => exact (sameReadings_judgeRegion s j).trans (ih _)

theorem foldl_judgeRegion_eq (l : List Nat) (s : State) :
    l.foldl judgeRegion s = { s with pwr := { s.pwr with regions := (l.foldl judgeRegion s).pwr.regions } } := by
  induction l generalizing s with
  | nil => rfl
  | cons j l ih => exact ih (judgeRegion s j)

/-- A sample is stored, and the region and its neighbours are judged (R55, R57). -/
def sampleJudged (k vdd : Nat) (tj : Int) (s : State) : State :=
  (k :: neighbours k).foldl judgeRegion (setRegion k (fun r => { r with
    sampled := true, vdd := vdd % 4096, tj := satSigned 9 tj, hot := if 128 ≤ tj then r.hot + 1 else 0 }) s)

theorem sampleJudged_eq (k vdd : Nat) (tj : Int) (s : State) : sampleJudged k vdd tj s =
    { s with pwr := { s.pwr with regions := (sampleJudged k vdd tj s).pwr.regions } } := foldl_judgeRegion_eq ..

theorem reading_sampleJudged (k vdd : Nat) (tj : Int) (s : State) : (regionOf (sampleJudged k vdd tj s) k).reading =
    (true, vdd % 4096, satSigned 9 tj, if 128 ≤ tj then (regionOf s k).hot + 1 else 0) := by
  rw [sampleJudged, sameReadings_foldl_judgeRegion, regionOf_setRegion_same, Region.reading]

theorem judged_sampleJudged (k vdd : Nat) (tj : Int) (s : State) : Judged (sampleJudged k vdd tj s) k :=
  (judged_judgeRegion _ k).foldl_judgeRegion (neighbours k)

/-- THERMAL_WARN of a sample of 118 °C or more, once a second (R664). -/
def warnIfHot (k : Nat) (tj : Int) (s : State) : State :=
  if 118 ≤ tj && (regionOf s k).warnAt ≤ s.tick then
    postThermalWarn k false (setRegion k (fun r => { r with warnAt := s.tick + secT 1 }) s)
  else s

theorem warnIfHot_of_cool {tj : Int} (h : tj < 118) (k : Nat) (s : State) : warnIfHot k tj s = s := by
  simp [warnIfHot, Int.not_le.2 h]

/-- A warning moves nothing of the region but when the next is due. -/
theorem regionOf_warnIfHot (k : Nat) (tj : Int) (s : State) (j : Nat) :
    ∃ n, regionOf (warnIfHot k tj s) j = { regionOf s j with warnAt := n } := by
  unfold warnIfHot
  split
  · rw [regionOf_congr (postThermalWarn_pwr ..)]
    obtain rfl | h := eq_or_ne k j
    · exact ⟨_, regionOf_setRegion_same ..⟩
    · exact ⟨_, regionOf_setRegion_ne _ s h⟩
  · exact ⟨_, rfl⟩

theorem core_warnIfHot (k : Nat) (tj : Int) (s : State) (p : Pwr) :
    core { warnIfHot k tj s with pwr := p } = core { s with pwr := p } := by
  unfold warnIfHot
  split
  · exact core_withPwr_congr (core_postThermalWarn ..) p
  · rfl

theorem exec_regionMonitorSample {s : State} {k : Fin 24} {vdd : Nat} {tj : Int} (lock : s.pwr.ckLocked = true)
    (runs : monitorRuns s k = true) (cool : (regionOf (warnIfHot k tj (sampleJudged k vdd tj s)) k).hot < 100) :
    exec (.regionMonitorSample k vdd tj) s = .next (warnIfHot k tj (sampleJudged k vdd tj s)) := by
  show execRegionMonitorSample k vdd tj s = _
  unfold execRegionMonitorSample
  rw [if_neg (by simp [lock, runs])]
  have stays : ¬ (decide ((regionOf (warnIfHot k tj (sampleJudged k vdd tj s)) k).hot ≥ 100)
      && (warnIfHot k tj (sampleJudged k vdd tj s)).pwr.stage != 12) = true := by simp [Nat.not_le.2 cool]
  exact if_neg stays

/-- A sample that is not the hundredth in a row of 128 °C or more trips nothing (R55, R647). -/
theorem exec_regionMonitorSample_noTrip {s : State} {k : Fin 24} (vdd : Nat) {tj : Int} (lock : s.pwr.ckLocked = true)
    (runs : monitorRuns s k = true) (cool : tj < 128 ∨ (regionOf s k).hot < 99) :
    exec (.regionMonitorSample k vdd tj) s = .next (warnIfHot k tj (sampleJudged k vdd tj s)) := by
  apply exec_regionMonitorSample lock runs
  obtain ⟨n, e⟩ := regionOf_warnIfHot k tj (sampleJudged k vdd tj s) k
  obtain ⟨-, -, -, hot⟩ := Region.reading_eq_iff.1 (reading_sampleJudged k vdd tj s)
  rw [e]
  show (regionOf (sampleJudged k vdd tj s) k).hot < 100
  rw [hot]
  split <;> omega

/-! ## The stretch step, its event and the raised supply (R58 to R62, R634) -/

/-- A region whose monitor step rises at a tick (R58, R60, R62). -/
def Region.stretched (now : Nat) (r : Region) : Region :=
  { r with
    monStep := r.monStep + 1, monAt := now, repeatAt := now + msT 1
    lowSince := if r.limitV && r.monStep == 2 then some now else r.lowSince }

/-- The bit of a region in PWR_REGION_LIMIT_STS is set (R56). -/
def noteLimit (k : Nat) (s : State) : State := { s with pwr := { s.pwr with limitSts := s.pwr.limitSts ||| (1#24 <<< k) } }

theorem exec_stretchStepRise {s : State} {k : Fin 24} (limit : (regionOf s k).limitV = true ∨ (regionOf s k).limitT = true)
    (below : (regionOf s k).monStep < 3) (due : (regionOf s k).monStep = 0 ∨ (regionOf s k).monAt + 8000 ≤ s.tick) :
    exec (.stretchStepRise k) s =
      if (regionOf s k).monStep = 0 then
        .next (postRegionLimit k false (noteLimit k (setRegion k (Region.stretched s.tick) s)))
      else .next (setRegion k (Region.stretched s.tick) s) := by
  have rises : (((regionOf s k).limitV || (regionOf s k).limitT) && (regionOf s k).monStep < 3
      && ((regionOf s k).monStep == 0 || decide ((regionOf s k).monAt + usT 10 ≤ s.tick))) = true := by
    replace due : (regionOf s k).monStep = 0 ∨ (regionOf s k).monAt + usT 10 ≤ s.tick := due
    simp [limit, below, due]
  show execStretchStepRise k s = _
  unfold execStretchStepRise
  refine (if_pos rises).trans ?_
  simp only [beq_iff_eq]
  rfl

theorem writeRail_eq {s : State} {k mv : Nat} (avs : k < 22) (lo : 740 ≤ mv) (hi : mv ≤ 860)
    (sound : 16 * bit (railOf k).1 + (railOf k).2 ∉ s.pwr.avsFaulted) :
    writeRail k mv s = emit (.avs (railOf k).1 (railOf k).2 mv) (setRegion k (fun r => { r with setMv := mv }) s) := by
  have clamp : max 740 (min 860 mv) = mv := by omega
  simp only [writeRail, clamp]
  exact if_neg (by simp [sound, avs])

theorem sameReadings_warnIfHot (k : Nat) (tj : Int) (s : State) : SameReadings s (warnIfHot k tj s) := by
  intro j
  obtain ⟨n, e⟩ := regionOf_warnIfHot k tj s j
  rw [e]
  rfl

theorem Judged.warnIfHot {s : State} {k : Nat} (h : Judged s k) (j : Nat) (tj : Int) : Judged (warnIfHot j tj s) k := by
  obtain ⟨n, e⟩ := regionOf_warnIfHot j tj s k
  exact h.of_same (sameReadings_warnIfHot j tj s) (by rw [e]) (by rw [e])

theorem exec_stretchStepFall {s : State} {k : Fin 24} {since : Nat} (calm : (regionOf s k).calm = some since)
    (above : 0 < (regionOf s k).monStep) (calmed : since + 80000 ≤ s.tick) (due : (regionOf s k).monAt + 80000 ≤ s.tick) :
    exec (.stretchStepFall k) s =
      .next (setRegion k (fun r => { r with monStep := r.monStep - 1, monAt := s.tick, lowSince := none }) s) := by
  show execStretchStepFall k s = _
  simp [execStretchStepFall, calm, above, calmed, due, usT]

theorem exec_regionLimitRepeat {s : State} {k : Fin 24} (step : (regionOf s k).monStep = 3) (due : (regionOf s k).repeatAt ≤ s.tick) :
    exec (.regionLimitRepeat k) s =
      .next (postRegionLimit k true (setRegion k (fun r => { r with repeatAt := s.tick + 800000 }) s)) := by
  show execRegionLimitRepeat k s = _
  simp [execRegionLimitRepeat, step, due, msT]

theorem exec_avsLimitRaise {s : State} {k : Fin 24} {since : Nat} (avs : k.val < 22) (low : (regionOf s k).lowSince = some since)
    (long : since + 800000 ≤ s.tick) (lo : 740 ≤ (regionOf s k).setMv) (hi : (regionOf s k).setMv + 5 ≤ 860)
    (sound : 16 * bit (railOf k).1 + (railOf k).2 ∉ s.pwr.avsFaulted) :
    exec (.avsLimitRaise k) s = .next (emit (.avs (railOf k).1 (railOf k).2 ((regionOf s k).setMv + 5))
      (setRegion k (fun r => { r with setMv := (regionOf s k).setMv + 5 }) s)) := by
  show execAvsLimitRaise k s = _
  simp only [execAvsLimitRaise, low]
  rw [if_pos (by simp [long, hi, msT]), writeRail_eq avs (by omega) hi sound]

/-! ## Power totals, cap and thermal steps (R645, R646) -/

theorem exec_powerTotalSample (s : State) (total : Nat) {ts : List Nat} (h : ts = (total % 2 ^ 16 :: s.pwr.totals).take 10) :
    exec (.powerTotalSample total) s = .next { s with pwr := { s.pwr with
      totals := ts, overCap := decide (ts.length = 10 ∧ s.pwr.cap * 160 < ts.sum)
      underCap := decide (ts.length = 10 ∧ ts.sum * 100 ≤ s.pwr.cap * 160 * 95) } } := by
  show execPowerTotalSample total s = _
  rw [execPowerTotalSample, ← h]
  simp only [Bool.decide_and]
  rfl

/-- The cap step has risen at this tick (R646). -/
def capRaised (s : State) : State := { s with pwr := { s.pwr with capStep := s.pwr.capStep + 1, capAt := s.tick } }

theorem exec_capStepRise {s : State} (exceeds : s.pwr.overCap = true) (due : s.pwr.capAt + 8000000 ≤ s.tick) (below : s.pwr.capStep < 3) :
    exec .capStepRise s = if s.pwr.capStep = 0 then
      .next (postThermalWarn (hottest (capRaised s)) true
        { capRaised s with pwr := { (capRaised s).pwr with capWarnAt := s.tick + secT 1 } })
      else .next (capRaised s) := by
  show execCapStepRise s = _
  unfold execCapStepRise
  refine (if_pos (by simp [exceeds, due, below, msT])).trans ?_
  simp only [beq_iff_eq]
  rfl

theorem exec_capStepFall {s : State} (under : s.pwr.underCap = true) (above : 0 < s.pwr.capStep)
    (due : s.pwr.capAt + 80000000 ≤ s.tick) :
    exec .capStepFall s = .next { s with pwr := { s.pwr with capStep := s.pwr.capStep - 1, capAt := s.tick } } := by
  show execCapStepFall s = _
  simp [execCapStepFall, under, above, due, msT]

theorem exec_thermalStepRise {s : State} {k : Fin 24} (hx : k.val < 20) (below : (regionOf s k).thermStep < 3)
    (due : (regionOf s k).thermAt + 8000000 ≤ s.tick) :
    exec (.thermalStepRise k) s = if 120 ≤ (regionOf s k).tj then
      .next (setRegion k (fun r => { r with thermStep := r.thermStep + 1, thermAt := s.tick }) s) else .next s := by
  show execThermalStepRise k s = _
  simp [execThermalStepRise, hx, below, due, msT]

theorem exec_thermalStepFall {s : State} {k : Fin 24} (hx : k.val < 20) (above : 0 < (regionOf s k).thermStep)
    (due : (regionOf s k).thermAt + 80000000 ≤ s.tick) :
    exec (.thermalStepFall k) s = if (regionOf s k).tj < 115 then
      .next (setRegion k (fun r => { r with thermStep := r.thermStep - 1, thermAt := s.tick }) s) else .next s := by
  show execThermalStepFall k s = _
  simp [execThermalStepFall, hx, above, due, msT]

/-- Settles O28: a sample moves readings, and the judgement that follows moves none; each step, repeat and total is one equation. -/
theorem regionLimitsStretchAndCapsStep : Obligations.RegionLimitsStretchAndCapsStep := by
  refine ⟨fun s k vdd tj lock runs cool => ?sample, fun s k limit below due => ?rise,
    fun s k since calm above calmed due => exec_stretchStepFall calm above calmed due,
    fun s k step due => exec_regionLimitRepeat step due, fun s k since avs low long lo hi sound => ?raise,
    fun s total ts h => exec_powerTotalSample s total h, fun s exceeds due below => ?cap,
    fun s under above due => exec_capStepFall under above due, fun s k hx below due => exec_thermalStepRise hx below due,
    fun s k hx above due => exec_thermalStepFall hx above due⟩
  case sample =>
    obtain ⟨sampled, v, t, hot⟩ := Region.reading_eq_iff.1
      ((sameReadings_warnIfHot k tj _ k).trans (reading_sampleJudged k vdd tj s))
    obtain ⟨overV, overT⟩ := (judged_sampleJudged k vdd tj s).warnIfHot k tj
    refine ⟨_, exec_regionMonitorSample_noTrip vdd lock runs cool, sampled, v, t, hot, overV, overT, ?_, fun calm => ?_⟩
    · rw [core_warnIfHot, sampleJudged_eq]
    · rw [warnIfHot_of_cool calm]
      exact sampleJudged_eq ..
  case rise =>
    rw [exec_stretchStepRise limit below due]
    by_cases first : (regionOf s k).monStep = 0
    · rw [if_pos first]
      have region : regionOf (postRegionLimit k false (noteLimit k (setRegion k (Region.stretched s.tick) s))) k =
          (regionOf s k).stretched s.tick := by
        rw [regionOf_congr (postRegionLimit_pwr ..)]
        exact regionOf_setRegion_same ..
      refine ⟨_, rfl, by rw [region]; rfl, by rw [region]; rfl, fun _ => ?_, core_withPwr_congr (core_postRegionLimit ..) _⟩
      simp [noteLimit]
    · rw [if_neg first]
      exact ⟨_, rfl, by rw [regionOf_setRegion_same]; rfl, by rw [regionOf_setRegion_same]; rfl, fun h => absurd h first, rfl⟩
  case raise =>
    refine ⟨_, exec_avsLimitRaise avs low long lo hi sound, ?_, rfl, rfl⟩
    rw [regionOf_congr (emit_pwr ..), regionOf_setRegion_same]
  case cap =>
    rw [exec_capStepRise exceeds due below]
    split
    · exact ⟨_, rfl, by simp [capRaised], by simp [capRaised], core_withPwr_congr (core_postThermalWarn ..) _⟩
    · exact ⟨_, rfl, rfl, rfl, rfl⟩

end Sys2Proof.Machine

/-! Device time (R78 to R83, R344 to R354): its layout, its tick, and what may change it. -/
namespace Sys2Proof.Machine

theorem now_of_frame {t : State} {p h now l m e} (f : frame t = (p, h, now, l, m, e)) : t.time.now = now :=
  congrArg (fun x => x.2.2.1) f

/-- Of the commands, the tick alone moves device time, and power-on of AO clears it (R81, R344). -/
theorem Moves.now {i : Instr} {s t : State} (h : Moves i s t) :
    t.time.now = s.time.now ∨ i = .ckTTick ∨ (i = .powerOnAo ∧ t.time.now = {}) := by
  unfold Moves at h
  split at h
  case h_1 => exact .inr (.inr ⟨rfl, now_of_frame h⟩)
  case h_2 | h_3 | h_6 | h_7 => exact .inl (h.elim now_of_frame now_of_frame)
  case h_4 | h_5 | h_8 => exact .inl (h.elim now_of_frame fun ⟨_, _, f⟩ => now_of_frame f)
  case h_9 => exact .inr (.inl rfl)
  case h_10 => exact .inl (now_of_frame h)

/-- Settles O10: a step that goes on has done what its front command can do to device time, and no more. -/
theorem deviceTimeMovesOnlyAtATick : Obligations.DeviceTimeMovesOnlyAtATick := by
  intro s t h
  unfold step at h
  split at h
  case h_1 =>
    cases h
    exact .inl rfl
  case h_2 c rest front =>
    rw [front]
    exact (exec_moves _ _ _ h).now.imp_right (.imp (congrArg some) (.imp_left (congrArg some)))

/-! The layouts (R79, R80). -/

theorem DevTime.valid_iff {t : DevTime} : t.valid = true ↔ t.sec < 2 ^ 48 ∧ t.ns < 1000000000 ∧ t.frac < 2 ^ 32 := by
  simp [DevTime.valid, and_assoc]

theorem DevTime.full_of_valid {t : DevTime} (h : t.valid = true) : t.full = t.sec * 2 ^ 80 + t.ns * 2 ^ 32 + t.frac := by
  obtain ⟨sec, ns, frac⟩ := DevTime.valid_iff.1 h
  simp only [DevTime.full, fld, Nat.shiftLeft_eq]
  omega

theorem DevTime.stamp_of_valid {t : DevTime} (h : t.valid = true) :
    t.stamp = t.sec % 65536 * 2 ^ 48 + t.ns * 2 ^ 18 + t.frac / 2 ^ 14 := by
  obtain ⟨-, ns, frac⟩ := DevTime.valid_iff.1 h
  simp only [DevTime.stamp, fld, bits, Nat.shiftLeft_eq, Nat.shiftRight_eq_div_pow]
  omega

/-- The fields of the 16-byte layout of a device time in its range. -/
theorem DevTime.bits_full {t : DevTime} (h : t.valid = true) :
    bits 127 80 t.full = t.sec ∧ bits 79 62 t.full = 0 ∧ bits 61 32 t.full = t.ns ∧ bits 31 0 t.full = t.frac := by
  obtain ⟨sec, ns, frac⟩ := DevTime.valid_iff.1 h
  simp only [DevTime.full_of_valid h, bits, Nat.shiftRight_eq_div_pow]
  omega

theorem DevTime.bits_stamp {t : DevTime} (h : t.valid = true) :
    bits 63 48 t.stamp = t.sec % 65536 ∧ bits 47 18 t.stamp = t.ns ∧ bits 17 0 t.stamp = t.frac / 2 ^ 14 := by
  obtain ⟨-, ns, frac⟩ := DevTime.valid_iff.1 h
  simp only [DevTime.stamp_of_valid h, bits, Nat.shiftRight_eq_div_pow]
  omega

/-- Settles O12: both layouts are sums of fields that do not overlap, so each field is read back. -/
theorem deviceTimeLayoutRoundTrips : Obligations.DeviceTimeLayoutRoundTrips := by
  intro t h
  obtain ⟨sec, reserved, ns, frac⟩ := DevTime.bits_full h
  obtain ⟨stampSec, stampNs, stampFrac⟩ := DevTime.bits_stamp h
  refine ⟨by rw [DevTime.ofFull, sec, ns, frac], reserved, ?_, sec, ns, frac, stampSec, stampNs, stampFrac, ?_⟩
  · obtain ⟨_, _, _⟩ := DevTime.valid_iff.1 h
    rw [DevTime.full_of_valid h]
    omega
  · obtain ⟨_, _, _⟩ := DevTime.valid_iff.1 h
    rw [DevTime.stamp_of_valid h]
    omega

/-! The tick (R81). -/

theorem DevTime.tick_valid {t : DevTime} {inc : Nat} (h : t.valid = true) (small : inc < 256 * 2 ^ 32) : (t.tick inc).valid = true := by
  obtain ⟨sec, ns, frac⟩ := DevTime.valid_iff.1 h
  rw [DevTime.valid_iff]
  unfold DevTime.tick
  dsimp only
  split <;> dsimp only <;> omega

theorem DevTime.tick_frac (t : DevTime) (inc : Nat) : (t.tick inc).frac = (t.frac + inc % 2 ^ 32) % 2 ^ 32 := by
  unfold DevTime.tick
  dsimp only
  split <;> rfl

theorem DevTime.tick_units {t : DevTime} {inc : Nat} (h : t.valid = true) (small : inc < 256 * 2 ^ 32) :
    (t.tick inc).units = (t.units + inc) % (2 ^ 48 * 1000000000 * 2 ^ 32) := by
  obtain ⟨sec, ns, frac⟩ := DevTime.valid_iff.1 h
  unfold DevTime.tick
  dsimp only
  split <;> simp only [DevTime.units] <;> omega

/-- What the tick makes of the state before the ring of its command is answered. -/
def ticked (s : State) : State :=
  let u := cipherClocks { s with tick := s.tick + 1, time := timeAfterTick s.time }
  if (timeAfterTick s.time).now.units < s.time.now.units then kilnStart u else u

theorem cipherClocks_eq (s : State) : ∃ x, cipherClocks s = { s with ciph := x } := by
  unfold cipherClocks
  split
  · exact ⟨_, rfl⟩
  · exact ⟨_, rfl⟩

theorem ticked_eq (s : State) : ∃ x k, ticked s = { s with tick := s.tick + 1, time := timeAfterTick s.time, ciph := x, kiln := k } := by
  obtain ⟨x, clocks⟩ := cipherClocks_eq { s with tick := s.tick + 1, time := timeAfterTick s.time }
  unfold ticked
  rw [clocks]
  dsimp only
  split
  · exact ⟨_, _, rfl⟩
  · exact ⟨_, _, rfl⟩

/-- Device time stands still while the root PLL is unlocked (R45). -/
theorem exec_ckTTick_unlocked {s : State} (lock : s.pwr.ckLocked = false) : exec .ckTTick s = .next s := by
  show execCkTTick s = _
  simp [execCkTTick, lock]

theorem exec_ckTTick_of_nothing_queued {s : State} (lock : s.pwr.ckLocked = true) (nothing : tickRing s.time = none) :
    exec .ckTTick s = .next (ticked s) := by
  show execCkTTick s = _
  simp only [execCkTTick, lock, nothing, Bool.not_true, Bool.false_eq_true, if_false]
  rfl

/-- The ring whose change the tick carries out is answered, or its journal keeps the effect (R136, R347). -/
theorem exec_ckTTick_of_ring {s : State} {f : Nat} {c : Bool} (lock : s.pwr.ckLocked = true) (ring : tickRing s.time = some (f, c)) :
    exec .ckTTick s = if (ticked s).fw.ready then .next (finishExec f c stOk 0 (ticked s))
      else .next (setRing f c (fun r => { r with exec := r.exec.map fun e => { e with committed := true } }) (ticked s)) := by
  show execCkTTick s = _
  simp only [execCkTTick, lock, ring, Bool.not_true, Bool.false_eq_true, if_false]
  rfl

/-- Answering a ring is seen by its host alone. -/
theorem exec_ckTTick_core {s : State} (lock : s.pwr.ckLocked = true) : ∃ t, exec .ckTTick s = .next t ∧ core t = core (ticked s) := by
  cases ring : tickRing s.time with
  | none => exact ⟨_, exec_ckTTick_of_nothing_queued lock ring, rfl⟩
  | some r =>
    rw [exec_ckTTick_of_ring lock ring]
    split
    · exact ⟨_, rfl, core_finishExec ..⟩
    · exact ⟨_, rfl, core_setRing ..⟩

/-- Whether or not a ring waits for it, the tick leaves the counter, device time and the sets as `ticked` has them (R81, R346). -/
theorem exec_ckTTick_locked {s : State} (lock : s.pwr.ckLocked = true) :
    ∃ t, exec .ckTTick s = .next t ∧ t.tick = s.tick + 1 ∧ t.time = timeAfterTick s.time ∧ t.sets = s.sets := by
  obtain ⟨x, k, after⟩ := ticked_eq s
  obtain ⟨t, e, same⟩ := exec_ckTTick_core lock
  rw [after] at same
  exact ⟨t, e, tick_of_core same, time_of_core same, (sets_of_core same).trans rfl⟩

/-- Settles O18: the parts of a sum of valid parts carry once at most, and a tick with nothing queued so moves every counter. -/
theorem aTickAddsTheIncrementExactly : Obligations.ATickAddsTheIncrementExactly := by
  refine fun t inc valid small => ⟨DevTime.tick_valid valid small, DevTime.tick_units valid small, DevTime.tick_frac t inc,
    fun s lock idle => ?_⟩
  obtain ⟨u, e, -, time, -⟩ := exec_ckTTick_locked lock
  refine ⟨u, e, ?_⟩
  rw [time, timeAfterTick, idle]
  exact ⟨rfl, rfl⟩

/-- With nothing queued, and no wrap of device time, a tick is the addition of INC and the clocks of the cipher cores. -/
theorem ticked_of_nothing_queued {s : State} (idle : s.time.queue = []) (ahead : s.time.now.units ≤ (s.time.now.tick s.time.inc).units) :
    ticked s = cipherClocks { s with
      tick := s.tick + 1
      time := { s.time with now := s.time.now.tick s.time.inc, prev := s.time.now,
                            replicas := s.time.replicas.map fun x => x.tick s.time.inc
                            cal := s.time.calNext.foldl (fun m e => m.put e.1 e.2) s.time.cal, calNext := [] } } := by
  simp only [ticked, timeAfterTick, idle]
  exact if_neg ahead.not_gt

/-- Settles O20: the tick's equations, by whether a change is at the front of the queue. -/
theorem theTickCarriesOutOneChange : Obligations.TheTickCarriesOutOneChange := by
  refine ⟨fun s lock idle ahead => ?idle, cipherClocks_eq, fun s x rest lock queue => ?change, fun s lock => exec_ckTTick_unlocked lock,
    fun s k u differs => ?reload, fun s k agrees => ?agrees⟩
  case idle =>
    rw [exec_ckTTick_of_nothing_queued lock (by rw [tickRing, idle]), ticked_of_nothing_queued idle ahead]
  case change =>
    obtain ⟨t, e, tick, time, sets⟩ := exec_ckTTick_locked lock
    refine ⟨t, e, tick, ?_⟩
    rw [time, timeAfterTick, queue]
    cases x with
    | inc => exact ⟨rfl, rfl, sets, rfl, rfl, rfl, rfl⟩
    | step => exact ⟨rfl, rfl, sets, rfl, rfl, rfl, rfl⟩
    | set => exact ⟨rfl, rfl, sets, rfl, rfl, rfl, rfl⟩
  case reload =>
    show execTimeReplicaCheck k u s = _
    exact if_neg (mt beq_iff_eq.1 differs)
  case agrees =>
    show execTimeReplicaCheck k none s = _
    exact if_pos (beq_iff_eq.2 agrees)

end Sys2Proof.Machine

/-! Token buckets (R86 to R90, R324, R326). -/
namespace Sys2Proof.Machine

/-- Placing in the active lists writes the nodes of the scheduler alone (R316, R319). -/
theorem placeNode_eq (n : Nat) (s : State) : ∃ v, placeNode n s = { s with tm := { s.tm with nodes := v } } := by
  unfold placeNode
  dsimp only
  repeat' split
  all_goals exact ⟨_, rfl⟩

theorem placeNodes_eq (l : List Nat) (s : State) : ∃ v, placeNodes l s = { s with tm := { s.tm with nodes := v } } := by
  induction l generalizing s with
  | nil => exact ⟨_, rfl⟩
  | cons n l ih =>
    obtain ⟨v, placed⟩ := placeNode_eq n s
    obtain ⟨w, rest⟩ := ih (placeNode n s)
    exact ⟨w, by rw [placeNodes, rest, placed]⟩

theorem placeAll_eq (s : State) : ∃ v, placeAll s = { s with tm := { s.tm with nodes := v } } := by
  unfold placeAll
  dsimp only
  split
  · exact ⟨_, rfl⟩
  · exact placeNodes_eq ..

theorem SMap.mem_mapAll {α : Type} {m : SMap α} {k : Nat} {a : α} (f : Nat → α → α) (h : (k, a) ∈ m) : (k, f k a) ∈ m.mapAll f :=
  List.mem_map.2 ⟨_, h, rfl⟩

theorem SMap.exists_of_mem_mapAll {α : Type} {m : SMap α} {f : Nat → α → α} {e : Nat × α} (h : e ∈ m.mapAll f) :
    ∃ a, e.2 = f e.1 a := by
  obtain ⟨d, -, rfl⟩ := List.mem_map.1 h
  exact ⟨d.2, rfl⟩

theorem exec_bucketRefill_early {s : State} (early : s.tick < s.tm.refillAt) : exec .bucketRefill s = .next s := by
  show execBucketRefill s = _
  rw [execBucketRefill, if_pos early]

/-- A shaper's tokens after one refill under set `x`: the credit of the rate, cut to the depth (R88). -/
def refilledShaper (x : SetSlot) (i : Nat) (k : Int) : Int := min (shaperDepth x i) (k + credit (bits 127 80 (shaperEntry x i)))

/-- A policer's committed and peak tokens after one refill under set `x` (R88, R326). -/
def refilledPolicer (x : SetSlot) (i : Nat) (t : Nat × Nat) : Nat × Nat :=
  (min (bits 159 128 (policerEntry x i) * 65536) (t.1 + credit (bits 255 208 (policerEntry x i))),
    min (bits 127 96 (policerEntry x i) * 65536) (t.2 + credit (bits 207 160 (policerEntry x i))))

/-- A refill that is due writes the buckets, and its placing the nodes; the queues of the leaves stay (R87, R88). -/
theorem exec_bucketRefill_due {s : State} (due : s.tm.refillAt ≤ s.tick) : ∃ v, exec .bucketRefill s =
    .next { s with tm := { s.tm with
      refillAt := s.tm.refillAt + 64, nodes := v
      shapers := s.tm.shapers.mapAll (refilledShaper (activeSet s))
      policers := s.tm.policers.mapAll (refilledPolicer (activeSet s)) } } := by
  obtain ⟨v, placed⟩ := placeAll_eq (refill { s with tm := { s.tm with refillAt := s.tm.refillAt + 64 } })
  refine ⟨v, ?_⟩
  show execBucketRefill s = _
  rw [execBucketRefill, if_neg due.not_gt, placed]
  rfl

/-- The colours of R326, each with what it takes. -/
theorem colourCharge_cases (aware : Bool) (pre tc tp b : Nat) :
    (colourCharge aware pre tc tp b = (2, tc, tp) ∧ ((aware = true ∧ pre = 2) ∨ tp < b)) ∨
    (colourCharge aware pre tc tp b = (1, tc, tp - b) ∧ b ≤ tp ∧ ¬ (aware = true ∧ pre = 2) ∧ ((aware = true ∧ pre = 1) ∨ tc < b)) ∨
    (colourCharge aware pre tc tp b = (0, tc - b, tp - b) ∧ b ≤ tp ∧ b ≤ tc ∧ ¬ (aware = true ∧ (pre = 1 ∨ pre = 2))) := by
  simp only [colourCharge, Bool.and_eq_true, Bool.or_eq_true, beq_iff_eq, decide_eq_true_eq]
  by_cases red : aware = true ∧ pre = 2
  · exact .inl ⟨if_pos red, .inl red⟩
  by_cases peak : tp < b
  · exact .inl ⟨by rw [if_neg red, if_pos peak], .inr peak⟩
  by_cases yellow : (aware = true ∧ pre = 1) ∨ tc < b
  · exact .inr (.inl ⟨by rw [if_neg red, if_neg peak, if_pos yellow], not_lt.1 peak, red, yellow⟩)
  · obtain ⟨pale, committed⟩ := not_or.1 yellow
    refine .inr (.inr ⟨by rw [if_neg red, if_neg peak, if_neg yellow], not_lt.1 peak, not_lt.1 committed, ?_⟩)
    rintro ⟨on, one | two⟩
    · exact pale ⟨on, one⟩
    · exact red ⟨on, two⟩

/-- Settles O42: a refill cuts each bucket to its depth where it stands, and the placing after it writes no bucket. -/
theorem bucketsStayWithinTheirDepth : Obligations.BucketsStayWithinTheirDepth := by
  refine ⟨fun s due => ?refill, fun s early => exec_bucketRefill_early early, colourCharge_cases, fun s i valid => ?shaper⟩
  case refill =>
    obtain ⟨v, e⟩ := exec_bucketRefill_due due
    refine ⟨_, e, rfl, rfl, ?_, ?_, fun i c p listed => ?_, rfl, rfl⟩
    · intro e listed
      obtain ⟨k, after⟩ := SMap.exists_of_mem_mapAll listed
      exact after ▸ min_le_left ..
    · intro e listed
      obtain ⟨t, after⟩ := SMap.exists_of_mem_mapAll listed
      exact after ▸ ⟨min_le_left .., min_le_left ..⟩
    · exact SMap.mem_mapAll (refilledPolicer (activeSet s)) listed
  case shaper => simp [shaperOk, valid]

end Sys2Proof.Machine

/-! The cipher complex: admission within the limits, tag results, release in order, and a core that fails its check (R99, R389 to
R396, R413, R583). -/
namespace Sys2Proof.Machine

/-! Keys and the counts of their use. -/

theorem keySlot_congr {s t : State} (h : t.keys = s.keys) (j : Nat) : keySlot t j = keySlot s j := by rw [keySlot, h, keySlot]

theorem slotKey_congr {s t : State} (h : t.keys = s.keys) (j : Nat) : slotKey t j = slotKey s j := by
  rw [slotKey, keySlot_congr h, slotKey]

@[simp] theorem keySlot_setKeySlot_same (i : Nat) (f : KeySlot → KeySlot) (s : State) : keySlot (setKeySlot i f s) i = f (keySlot s i) :=
  SMap.get_upd_same ..

theorem keySlot_setKeySlot_ne {i j : Nat} (f : KeySlot → KeySlot) (s : State) (h : i ≠ j) : keySlot (setKeySlot i f s) j = keySlot s j :=
  SMap.get_upd_ne _ _ h

theorem keySlot_setKey_ne {i j : Nat} (f : Key → Key) (s : State) (h : i ≠ j) : keySlot (setKey i f s) j = keySlot s j :=
  keySlot_setKeySlot_ne _ _ h

theorem slotKey_of_key {s : State} {i : Nat} {k : Key} (h : (keySlot s i).key = some k) : slotKey s i = k := by simp [slotKey, h]

theorem setKey_congr {f g : Key → Key} {s : State} {i : Nat} {k : Key} (key : (keySlot s i).key = some k) (h : f k = g k) :
    setKey i f s = setKey i g s := by
  have same : { keySlot s i with key := (keySlot s i).key.map f } = { keySlot s i with key := (keySlot s i).key.map g } := by
    rw [key, Option.map_some, Option.map_some, h]
  unfold setKey setKeySlot SMap.upd
  exact congrArg (fun e => { s with keys := { s.keys with slots := s.keys.slots.put i e } }) same

theorem slotKey_setKey_same {s : State} {i : Nat} {k : Key} (f : Key → Key) (h : (keySlot s i).key = some k) :
    slotKey (setKey i f s) i = f k :=
  slotKey_of_key (by simp [setKey, h])

/-- Invocations and blocks of a key index (R99). -/
def counts (s : State) (j : Nat) : Nat × Nat := ((slotKey s j).icnt, (slotKey s j).bcnt)

theorem counts_congr {s t : State} (h : t.keys = s.keys) (j : Nat) : counts t j = counts s j := by
  simp [counts, slotKey_congr h]

theorem counts_setKeySlot {f : KeySlot → KeySlot} (h : ∀ e, (f e).key = e.key) (i j : Nat) (s : State) :
    counts (setKeySlot i f s) j = counts s j := by
  by_cases e : i = j
  · subst e
    simp [counts, slotKey, h]
  · simp [counts, slotKey, keySlot_setKeySlot_ne _ _ e]

theorem counts_setKey {f : Key → Key} (h : ∀ k, (f k).icnt = k.icnt ∧ (f k).bcnt = k.bcnt) (i j : Nat) (s : State) :
    counts (setKey i f s) j = counts s j := by
  by_cases e : i = j
  · subst e
    cases live : (keySlot s i).key with
    | none => simp [counts, slotKey, setKey, live]
    | some k =>
      simp only [counts, slotKey_setKey_same f live, slotKey_of_key live, h]
  · simp [counts, slotKey, keySlot_setKey_ne _ _ e]

/-! What does not reach the complex: holding pipelines back, and the end of a packet. -/

theorem holdBack_eq (k : Nat) (s : State) : ∃ v h, holdBack k s =
    { s with tm := { s.tm with nodes := v }, ciph := { s.ciph with heldBack := h } } := by
  unfold holdBack
  dsimp only
  split
  · obtain ⟨v, placed⟩ := placeAll_eq { s with ciph := { s.ciph with heldBack := k :: s.ciph.heldBack } }
    exact ⟨v, _, placed⟩
  · split
    · obtain ⟨v, placed⟩ := placeAll_eq { s with ciph := { s.ciph with heldBack := s.ciph.heldBack.filter (· != k) } }
      exact ⟨v, _, placed⟩
    · exact ⟨_, _, rfl⟩

theorem holdBackOf_eq (o : CipherOp) (s : State) : ∃ v h, holdBackOf o s =
    { s with tm := { s.tm with nodes := v }, ciph := { s.ciph with heldBack := h } } := by
  unfold holdBackOf
  split
  · exact holdBack_eq ..
  · exact ⟨_, _, rfl⟩

/-- The cipher complex and its keys: what the life of packets and of objects leaves alone. -/
def complex (s : State) : Ciph × Keys := (s.ciph, s.keys)

theorem complex_eq_iff {s t : State} : complex t = complex s ↔ t.ciph = s.ciph ∧ t.keys = s.keys := Prod.mk.injEq .. ▸ Iff.rfl

theorem complex_of_core {s t : State} (h : core t = core s) : complex t = complex s :=
  complex_eq_iff.2 ⟨ciph_of_core h, keys_of_core h⟩

theorem complex_foldl {α : Type} {f : State → α → State} (h : ∀ s a, complex (f s a) = complex s) (l : List α) (s : State) :
    complex (l.foldl f s) = complex s := by
  induction l generalizing s with
  | nil => rfl
  | cons a l ih => rw [List.foldl_cons, ih, h]

@[simp] theorem holdBackOf_bound (o : CipherOp) (s : State) : (holdBackOf o s).ciph.bound = s.ciph.bound := by
  obtain ⟨v, h, e⟩ := holdBackOf_eq o s
  rw [e]

@[simp] theorem holdBackOf_keys (o : CipherOp) (s : State) : (holdBackOf o s).keys = s.keys := by
  obtain ⟨v, h, e⟩ := holdBackOf_eq o s
  rw [e]

@[simp] theorem complex_pfcNotify (port : Nat) (s : State) : complex (pfcNotify port s) = complex s :=
  complex_foldl (fun s n => by split <;> rfl) _ s

@[simp] theorem complex_evalXoff (pc : Nat) (s : State) : complex (evalXoff pc s) = complex s := by
  unfold evalXoff
  dsimp only
  split
  · rfl
  · split
    · exact complex_pfcNotify ..
    · split
      · exact complex_pfcNotify ..
      · rfl

@[simp] theorem complex_evalOf (x : Pkt) (s : State) : complex (evalOf x s) = complex s := by
  unfold evalOf
  split <;> simp

@[simp] theorem complex_txDone (x : Pkt) (s : State) : complex (txDone x s) = complex s := by
  unfold txDone
  dsimp only
  repeat' split
  all_goals rfl

@[simp] theorem complex_fragFate (x : Pkt) (fate reason : Nat) (s : State) : complex (fragFate x fate reason s) = complex s := by
  unfold fragFate
  repeat' split
  all_goals rfl

@[simp] theorem complex_dropPkt (p : Nat) (s : State) : complex (dropPkt p s) = complex s := by
  rw [dropPkt, removePkt, complex_evalOf, complex_txDone]
  exact complex_fragFate ..

@[simp] theorem complex_setPkt (p : Nat) (f : Pkt → Pkt) (s : State) : complex (setPkt p f s) = complex s := by
  unfold setPkt
  split <;> rfl

@[simp] theorem complex_setObj (n : Nat) (f : Obj → Obj) (s : State) : complex (setObj n f s) = complex s := by
  unfold setObj
  split <;> rfl

@[simp] theorem complex_recordEarly (n : Nat) (s : State) : complex (recordEarly n s) = complex s := by
  unfold recordEarly
  dsimp only
  split
  · split
    · rfl
    · exact (complex_setObj ..).trans (complex_foldl (fun _ _ => complex_of_core (core_hostWrite ..)) _ s)
  · rfl

@[simp] theorem complex_opBegins (o : CipherOp) (s : State) : complex (opBegins o s) = complex s := by
  unfold opBegins
  split
  · exact complex_setPkt ..
  · split <;> simp
  · rfl

/-! The core that takes an operation (R389). -/

/-- Of a core and the best so far, the one with the smaller weight; the earlier of two equals. -/
def lighter (f : Nat → Nat) (b : Option Nat) (c : Nat) : Option Nat :=
  match b with
  | none => some c
  | some d => if f c < f d then some c else b

/-- Over rising numbers the fold ends with the smallest weight, and of equal ones with the lowest number. -/
theorem foldl_lighter (f : Nat → Nat) {a : Nat} {l : List Nat} (rising : (a :: l).Pairwise (· < ·)) :
    ∃ c ∈ a :: l, l.foldl (lighter f) (some a) = some c ∧ ∀ d ∈ a :: l, f c < f d ∨ (f c = f d ∧ c ≤ d) := by
  induction l generalizing a with
  | nil => exact ⟨a, by simp⟩
  | cons b l ih =>
    obtain ⟨above, rest⟩ := List.pairwise_cons.1 rising
    have ab : a < b := above b List.mem_cons_self
    by_cases less : f b < f a
    · obtain ⟨c, mem, e, least⟩ := ih rest
      refine ⟨c, List.mem_cons_of_mem _ mem, by rw [List.foldl_cons, lighter, if_pos less, e], fun d hd => ?_⟩
      obtain rfl | hd := List.mem_cons.1 hd
      · have := least b List.mem_cons_self
        omega
      · exact least d hd
    · have shorter : (a :: l).Pairwise (· < ·) := rising.sublist (by simp)
      obtain ⟨c, mem, e, least⟩ := ih shorter
      have first := least a List.mem_cons_self
      refine ⟨c, (List.mem_cons.1 mem).elim (· ▸ List.mem_cons_self) fun h => by simp [h],
        by rw [List.foldl_cons, lighter, if_neg less, e], fun d hd => ?_⟩
      obtain rfl | hd := List.mem_cons.1 hd
      · exact first
      · obtain rfl | hd := List.mem_cons.1 hd
        · omega
        · exact least d (List.mem_cons_of_mem _ hd)

/-- The cores that can take an operation, in rising order. -/
def freeCores (s : State) : List Nat := (List.range 80).filter fun c => coreUsable s c && (coreOps s c).length < 64

theorem mem_freeCores {s : State} {c : Nat} : c ∈ freeCores s ↔ c < 80 ∧ coreUsable s c = true ∧ (coreOps s c).length < 64 := by
  simp [freeCores]

theorem pickCore_eq (s : State) : pickCore s = (freeCores s).foldl (lighter (coreBlocks s)) none := rfl

theorem pickCore_least {s : State} {c : Nat} (h : pickCore s = some c) :
    c ∈ freeCores s ∧ ∀ d ∈ freeCores s, coreBlocks s c < coreBlocks s d ∨ (coreBlocks s c = coreBlocks s d ∧ c ≤ d) := by
  have rising : (freeCores s).Pairwise (· < ·) := List.pairwise_lt_range.filter _
  rw [pickCore_eq] at h
  cases cores : freeCores s with
  | nil =>
    rw [cores] at h
    cases h
  | cons a l =>
    rw [cores] at h rising
    obtain ⟨b, mem, e, least⟩ := foldl_lighter (coreBlocks s) rising
    cases e.symm.trans h
    exact ⟨mem, least⟩

/-! Admission (R99, R413). -/

theorem refusal_eq_none {s : State} {o : CipherOp} {k : Key} (key : (keySlot s o.key).key = some k) (index : o.key < 2 ^ 20)
    (mode : k.xts = o.xts) (sound : k.fault = false) (invocations : k.icnt + 1 ≤ k.limitI) (blocks : k.bcnt + o.blocks ≤ k.limitB) :
    refusal s o = none := by
  simp only [refusal, key, mode, sound, bne_self_eq_false, Bool.or_false, decide_eq_true_eq, Bool.false_eq_true, if_false]
  rw [if_neg (by omega), if_neg (by omega), if_neg (by omega)]

/-- With counts `i` and `b` a key is near one of its limits (R100). -/
def Key.nears (k : Key) (i b : Nat) : Bool := i ≥ k.limitI - k.limitI / 16 || b ≥ k.limitB - k.limitB / 16

/-- The key with one more invocation and `n` more blocks (R99, R100). -/
def Key.counted (k : Key) (n : Nat) : Key :=
  { k with icnt := k.icnt + 1, bcnt := k.bcnt + n, near := k.near || k.nears (k.icnt + 1) (k.bcnt + n) }

/-- An admission is the counts and, of what the host does not see, nothing else (R99, R100). -/
theorem core_admitOp {o : CipherOp} {s : State} {k : Key} (key : (keySlot s o.key).key = some k) :
    core (admitOp o s) = core (setKey o.key (fun _ => k.counted o.blocks) s) := by
  unfold admitOp
  rw [slotKey_of_key key]
  dsimp only
  rw [setKey_congr (g := fun _ => k.counted o.blocks) key (by simp [Key.counted, Key.nears, Bool.or_assoc])]
  split
  · exact core_postAll ..
  · rfl

theorem admitOp_ciph {o : CipherOp} {s : State} {k : Key} (key : (keySlot s o.key).key = some k) : (admitOp o s).ciph = s.ciph :=
  (ciph_of_core (core_admitOp key)).trans rfl

theorem slotKey_admitOp {o : CipherOp} {s : State} {k : Key} (key : (keySlot s o.key).key = some k) :
    slotKey (admitOp o s) o.key = k.counted o.blocks := by
  rw [slotKey_congr (keys_of_core (core_admitOp key)), slotKey_setKey_same _ key]

theorem keySlot_admitOp_ne {o : CipherOp} {s : State} {k : Key} (key : (keySlot s o.key).key = some k) {j : Nat} (h : j ≠ o.key) :
    keySlot (admitOp o s) j = keySlot s j := by
  rw [keySlot_congr (keys_of_core (core_admitOp key)), keySlot_setKey_ne _ _ h.symm]

/-- A refusal has been counted at its key, KEY_EXHAUSTED not yet posted (R413). -/
def refusalNoted (o : CipherOp) (cause : Nat) (s : State) : State :=
  let u := countBlock 0xFD03 cause (16 * o.blocks) s
  setKeySlot (refusedIndex o) (fun e => { e with refused := satAdd 15 e.refused 1 })
    (if cause < 2 then setKey (refusedIndex o) (fun k => { k with exhausted := true }) u else u)

theorem refusalNoted_ciph (o : CipherOp) (cause : Nat) (s : State) : (refusalNoted o cause s).ciph = s.ciph := by
  unfold refusalNoted
  dsimp only
  split <;> rfl

theorem counts_refusalNoted (o : CipherOp) (cause j : Nat) (s : State) : counts (refusalNoted o cause s) j = counts s j := by
  refine (counts_setKeySlot (fun _ => by rfl) ..).trans ?_
  split
  · exact (counts_setKey (fun _ => ⟨by rfl, by rfl⟩) ..).trans (counts_congr rfl j)
  · exact counts_congr rfl j

/-- Posting KEY_EXHAUSTED takes the refusals off the slot, and leaves the complex and every count (R413, R414). -/
theorem noteRefusal_keeps (o : CipherOp) (cause : Nat) (s : State) :
    (noteRefusal o cause s).ciph = s.ciph ∧ ∀ j, counts (noteRefusal o cause s) j = counts s j := by
  have e : noteRefusal o cause s = refusalNoted o cause s ∨ ∃ r n, core (noteRefusal o cause s) =
      core (setKeySlot (refusedIndex o) (fun e => { e with refused := r, nextPost := n }) (refusalNoted o cause s)) := by
    unfold noteRefusal refusalNoted
    dsimp only
    generalize setKeySlot (refusedIndex o) _ _ = u
    split
    · exact .inl rfl
    · exact .inr ⟨_, _, core_postAll ..⟩
  obtain e | ⟨r, n, e⟩ := e
  · exact ⟨by rw [e, refusalNoted_ciph], fun j => by rw [e, counts_refusalNoted]⟩
  · refine ⟨?_, fun j => ?_⟩
    · rw [ciph_of_core e, setKeySlot_ciph, refusalNoted_ciph]
    · rw [counts_congr (keys_of_core e), counts_setKeySlot fun _ => by rfl, counts_refusalNoted]

/-! Dispatch (R389, R390). -/

theorem not_any_unbound {s : State} (h : s.ciph.bound.all (fun q => q.core.isSome) = true) :
    ¬ s.ciph.bound.any (fun o => o.core.isNone) = true := by
  rw [Bool.not_eq_true, List.any_eq_false]
  intro q mem
  have isSome := List.all_eq_true.1 h q mem
  simpa [Option.isSome_iff_ne_none] using isSome

/-- An admitted operation, of the state after its admission, as it is bound to core `c`. -/
def boundOp (o : CipherOp) (c : Nat) (u : State) : CipherOp :=
  { o with mat := keyOut u (slotKey u o.key), icnt := (slotKey u o.key).icnt, core := some c, left := arrivedBlocks u o }

/-- The oldest operation has been admitted and bound to core `c`, and has begun (R390, R416). -/
def dispatched (o : CipherOp) (c : Nat) (s : State) : State :=
  let u := admitOp o s
  opBegins (boundOp o c u) { u with ciph := { u.ciph with
    queue := u.ciph.queue.filter fun q => q.id != o.id, bound := u.ciph.bound ++ [boundOp o c u] } }

theorem dispatched_ciph {s : State} {o : CipherOp} {k : Key} (key : (keySlot s o.key).key = some k) (c : Nat) :
    (dispatched o c s).ciph = { s.ciph with
      queue := s.ciph.queue.filter fun q => q.id != o.id, bound := s.ciph.bound ++ [boundOp o c (admitOp o s)] } := by
  rw [← admitOp_ciph key]
  exact (complex_eq_iff.1 (complex_opBegins ..)).1

theorem dispatched_keys (o : CipherOp) (c : Nat) (s : State) : (dispatched o c s).keys = (admitOp o s).keys :=
  (complex_eq_iff.1 (complex_opBegins ..)).2.trans rfl

theorem exec_cipherDispatch_admits {s : State} {o : CipherOp} {c : Nat} (bound : s.ciph.bound.all (fun q => q.core.isSome) = true)
    (next : nextOp s s.ciph.queue [] = some o) (pick : pickCore s = some c)
    (fresh : ∀ p, o.req = .packet p → o.open_ = true → replayed (slotKey s o.key) (packetEsn s (pkt s p) o.key) = false)
    (admitted : refusal s o = none) :
    exec .cipherDispatch s = .next (dispatched o c s) := by
  show execCipherDispatch s = _
  unfold execCipherDispatch
  rw [if_neg (not_any_unbound bound), next, pick]
  dsimp only
  rw [if_neg, admitted]
  · rfl
  · split
    · next p req =>
      rw [admitted]
      cases opened : o.open_ with
      | false => simp
      | true => simp [fresh p req opened]
    · simp

theorem exec_cipherDispatch_refuses {s : State} {o : CipherOp} {c cause : Nat} (bound : s.ciph.bound.all (fun q => q.core.isSome) = true)
    (next : nextOp s s.ciph.queue [] = some o) (pick : pickCore s = some c) (refused : refusal s o = some cause) :
    exec .cipherDispatch s = .next (refuseOp o cause (unqueueOp o s)) := by
  show execCipherDispatch s = _
  unfold execCipherDispatch
  rw [if_neg (not_any_unbound bound), next, pick]
  dsimp only
  rw [if_neg, refused]
  split
  · simp [refused]
  · simp

theorem unqueueOp_bound (o : CipherOp) (s : State) : (unqueueOp o s).ciph.bound = s.ciph.bound := holdBackOf_bound ..

theorem unqueueOp_keys (o : CipherOp) (s : State) : (unqueueOp o s).keys = s.keys := holdBackOf_keys ..

/-- The refusal of a packet's operation binds nothing, and leaves every count (R413). -/
theorem refuseOp_packet {o : CipherOp} {p : Nat} (req : o.req = .packet p) (cause : Nat) (s : State) :
    (refuseOp o cause s).ciph = s.ciph ∧ ∀ j, counts (refuseOp o cause s) j = counts s j := by
  obtain ⟨ciph, same⟩ := noteRefusal_keeps o cause s
  have dropped : refuseOp o cause s = dropPkt p (noteRefusal o cause s) := by rw [refuseOp, req]
  obtain ⟨dropCiph, dropKeys⟩ := complex_eq_iff.1 (complex_dropPkt p (noteRefusal o cause s))
  rw [dropped]
  exact ⟨dropCiph.trans ciph, fun j => (counts_congr dropKeys j).trans (same j)⟩

/-! Tag results and releases (R391, R396). -/

/-- An operation at TAG_RESULT: an opened one whose bytes have all arrived has its comparison. -/
def tagKnown (s : State) (o : CipherOp) : CipherOp :=
  if o.open_ && !o.xts && !o.known && o.whole (opRecord s o) then { o with known := true, good := tagGood s o, left := 0 } else o

theorem tagKnown_id (s : State) (o : CipherOp) : (tagKnown s o).id = o.id := by
  unfold tagKnown
  split <;> rfl

theorem exec_tagResult (id : Nat) (s : State) : exec (.tagResult id) s = .next (setOp id (tagKnown s) s) := rfl

theorem setOp_ids {f : CipherOp → CipherOp} (h : ∀ o, (f o).id = o.id) (id : Nat) (s : State) :
    (setOp id f s).ciph.bound.map (·.id) = s.ciph.bound.map (·.id) := by
  simp only [setOp, List.map_map]
  refine List.map_congr_left fun o _ => ?_
  simp only [Function.comp]
  split
  · exact h o
  · rfl

theorem mem_setOp {s : State} {o : CipherOp} (f : CipherOp → CipherOp) (h : o ∈ s.ciph.bound) : f o ∈ (setOp o.id f s).ciph.bound :=
  List.mem_map.2 ⟨o, h, by simp⟩

theorem exec_cipherResultRelease_waits {s : State} {o q : CipherOp} (found : s.ciph.bound.find? (fun x => x.id == o.id) = some o)
    (first : s.ciph.bound.find? (fun x => x.key == o.key && x.open_ == o.open_) = some q)
    (waits : q.id ≠ o.id ∨ (o.open_ = true ∧ o.xts = false ∧ o.known = false)) : exec (.cipherResultRelease o.id) s = .next s := by
  show execCipherResultRelease o.id s = _
  unfold execCipherResultRelease
  rw [found]
  refine if_pos ?_
  rw [first]
  obtain other | ⟨opened, gcm, unknown⟩ := waits
  · simp [other]
  · simp [opened, gcm, unknown]

/-- The operation has left the complex, and its core has counted it (R391, R423). -/
def opReleased (o : CipherOp) (s : State) : State :=
  holdBackOf o (countBlock 0xFD00 (o.core.getD 0) (16 * o.blocks)
    { s with ciph := { s.ciph with bound := s.ciph.bound.filter fun q => q.id != o.id } })

theorem opReleased_bound (o : CipherOp) (s : State) : (opReleased o s).ciph.bound = s.ciph.bound.filter fun q => q.id != o.id :=
  holdBackOf_bound ..

theorem opReleased_keys (o : CipherOp) (s : State) : (opReleased o s).keys = s.keys := holdBackOf_keys ..

theorem exec_cipherResultRelease_packet {s : State} {o : CipherOp} {p : Nat}
    (first : s.ciph.bound.find? (fun x => x.key == o.key && x.open_ == o.open_) = some o)
    (found : s.ciph.bound.find? (fun x => x.id == o.id) = some o) (bound : o.core.isSome = true) (known : o.known = true)
    (req : o.req = .packet p) : exec (.cipherResultRelease o.id) s = .next (releasePacket p o (opReleased o s)) := by
  show execCipherResultRelease o.id s = _
  unfold execCipherResultRelease
  rw [found]
  refine (if_neg ?_).trans ?_
  · rw [first]
    simp [known, Option.isSome_iff_ne_none.1 bound]
  · rw [req]
    rfl

theorem releasePacket_wrongTag {o : CipherOp} (opened : o.open_ = true) (wrong : o.good = false) (p : Nat) (s : State) :
    releasePacket p o s = dropPkt p (countBlock 0xFD02 (pkt s p).pipe o.len s) := by
  simp [releasePacket, opened, wrong]

/-! A core that fails its check (R583). -/

theorem coreUsable_congr {s t : State} (h : t.kiln = s.kiln) (n : Nat) : coreUsable t n = coreUsable s n := by
  rw [coreUsable, h, coreUsable]

theorem coreOps_eq_nil {s : State} {n : Nat} : coreOps s n = [] ↔ ∀ o ∈ s.ciph.bound, o.core ≠ some n := by
  simp [coreOps, List.filter_eq_nil_iff]

/-- From s to t operations have gone from core to core, none to core `n`, which holds none. -/
structure Rebinds (n : Nat) (s t : State) : Prop where
  only : t = { s with ciph := { s.ciph with bound := t.ciph.bound } }
  ids : t.ciph.bound.map (·.id) = s.ciph.bound.map (·.id)
  empty : coreOps t n = []

theorem Rebinds.kiln {n : Nat} {s t : State} (h : Rebinds n s t) : t.kiln = s.kiln := (congrArg State.kiln h.only).trans rfl

theorem Rebinds.trans {n : Nat} {s t u : State} (a : Rebinds n s t) (b : Rebinds n t u) : Rebinds n s u where
  only := by
    have tu := b.only
    rw [a.only] at tu
    exact tu
  ids := b.ids.trans a.ids
  empty := b.empty

theorem rebinds_rebind {n : Nat} {s : State} (unusable : coreUsable s n = false) (empty : coreOps s n = []) : Rebinds n s (rebind s) := by
  unfold rebind
  split
  · next o c _ pick =>
    obtain ⟨free, -⟩ := pickCore_least pick
    obtain ⟨-, usable, -⟩ := mem_freeCores.1 free
    have other : c ≠ n := by
      rintro rfl
      exact Bool.false_ne_true (unusable.symm.trans usable)
    refine ⟨rfl, ?_, coreOps_eq_nil.2 fun q mem => ?_⟩
    · rw [List.map_map]
      exact List.map_congr_left fun q _ => by simp only [Function.comp]; split <;> rfl
    · obtain ⟨r, was, rfl⟩ := List.mem_map.1 mem
      split
      · exact fun e => other (Option.some.inj e)
      · exact coreOps_eq_nil.1 empty r was
  · exact ⟨rfl, rfl, empty⟩

theorem rebinds_foldl {n : Nat} {s : State} (unusable : coreUsable s n = false) (empty : coreOps s n = []) (l : List Nat) :
    Rebinds n s (l.foldl (fun s _ => rebind s) s) := by
  induction l generalizing s with
  | nil => exact ⟨rfl, rfl, empty⟩
  | cons a l ih =>
    have once := rebinds_rebind unusable empty
    exact once.trans (ih ((coreUsable_congr once.kiln n).trans unusable) once.empty)

/-- A core queued for its test is not usable (R580, R583). -/
theorem coreUsable_queueTest {s : State} (n : Fin 80) (sound : s.kiln.blocks.contains (sliceId 2 n) = false) (idle : s.kiln.core = none) :
    coreUsable (queueTest (sliceId 2 n) s) n = false := by
  have notUnder : underTargeted s (sliceId 2 n) = false := by
    have cls : sliceId 2 n / 4096 = 2 := by
      have := n.isLt
      simp only [sliceId]
      omega
    rw [underTargeted, cls]
    simp [idle]
  unfold queueTest
  rw [notUnder, sound]
  by_cases queued : s.kiln.queue.contains (sliceId 2 n) = true
  · simp [coreUsable, List.contains_iff_mem.1 queued]
  · simp [coreUsable, List.contains_iff_mem.not.1 queued]

/-- The failing core is counted and queued for its test, and its operations have left it (R582, R583). -/
def coreLeft (n : Nat) (s : State) : State :=
  let u := queueTest (sliceId 2 n) (kilnErr 6 1 s)
  { u with ciph := { u.ciph with bound := u.ciph.bound.map fun o => if o.core == some n then { o with core := none } else o } }

theorem exec_cipherCoreCheckError {s : State} {n : Fin 80} (sound : s.kiln.blocks.contains (sliceId 2 n) = false) (idle : s.kiln.core = none) :
    exec (.cipherCoreCheckError n) s =
      .next ((List.range (coreOps s n).length).foldl (fun s _ => rebind s) (coreLeft n s)) := by
  show execCipherCoreCheckError n s = _
  unfold execCipherCoreCheckError
  rw [idle]
  refine (if_neg ?_).trans rfl
  rw [sound]
  exact Bool.false_ne_true

theorem queueTest_eq (slice : Nat) (s : State) : ∃ k, queueTest slice s = { s with kiln := k } := by
  unfold queueTest
  split
  · exact ⟨_, rfl⟩
  · exact ⟨_, rfl⟩

/-- Nothing leaves the complex when the operations leave a core. -/
theorem coreLeft_eq (n : Nat) (s : State) : ∃ k b, coreLeft n s = { s with ciph := { s.ciph with bound := b }, kiln := k } ∧
    b.map (·.id) = s.ciph.bound.map (·.id) := by
  obtain ⟨k, queued⟩ := queueTest_eq (sliceId 2 n) (kilnErr 6 1 s)
  refine ⟨k, _, by rw [coreLeft, queued]; rfl, ?_⟩
  rw [List.map_map]
  exact List.map_congr_left fun q _ => by simp only [Function.comp]; split <;> rfl

theorem coreOps_coreLeft (n : Nat) (s : State) : coreOps (coreLeft n s) n = [] := by
  refine coreOps_eq_nil.2 fun q mem => ?_
  obtain ⟨r, -, rfl⟩ := List.mem_map.1 mem
  split
  · exact nofun
  · next other => exact fun e => other (beq_iff_eq.2 e)

/-- Settles O33: each outcome of a dispatch, of a release and of a failed check is one equation, and the rest of its effect does not
reach the complex or the keys. -/
theorem theCipherComplexAdmitsWithinTheLimits : Obligations.TheCipherComplexAdmitsWithinTheLimits := by
  refine ⟨fun s o c k bound next pick fresh key index mode sound invocations blocks => ?admits, fun s c pick => ?picks,
    fun s o c cause p bound next pick req refused => ?refuses, fun s id => ?tag,
    fun s o q found first waits => exec_cipherResultRelease_waits found first waits,
    fun s o p found first bound opened known wrong req => ?wrongTag, fun s n sound idle => ?check⟩
  case admits =>
    have admitted := refusal_eq_none key index mode sound invocations blocks
    have ciph := dispatched_ciph key c
    have counted : slotKey (dispatched o c s) o.key = k.counted o.blocks :=
      (slotKey_congr (dispatched_keys o c s) o.key).trans (slotKey_admitOp key)
    refine ⟨_, boundOp o c (admitOp o s), exec_cipherDispatch_admits bound next pick fresh admitted, ?_⟩
    rw [counted, ciph]
    refine ⟨rfl, rfl, invocations, blocks, fun j other => ?_, rfl, rfl, rfl, ?_, fun q mem => ?_⟩
    · exact (keySlot_congr (dispatched_keys o c s) j).trans (keySlot_admitOp_ne key other)
    · exact congrArg Key.icnt (slotKey_admitOp key)
    · simpa using (List.mem_filter.1 mem).2
  case picks =>
    obtain ⟨free, least⟩ := pickCore_least pick
    obtain ⟨lt, usable, room⟩ := mem_freeCores.1 free
    exact ⟨lt, usable, room, fun d dlt dusable droom => least d (mem_freeCores.2 ⟨dlt, dusable, droom⟩)⟩
  case refuses =>
    obtain ⟨ciph, same⟩ := refuseOp_packet req cause (unqueueOp o s)
    refine ⟨_, exec_cipherDispatch_refuses bound next pick refused, by rw [ciph, unqueueOp_bound], fun j => ?_⟩
    exact Prod.mk.inj ((same j).trans (counts_congr (unqueueOp_keys o s) j))
  case tag =>
    refine ⟨_, exec_tagResult id s, rfl, setOp_ids (tagKnown_id s) id s, ?_⟩
    rintro o mem rfl opened gcm unknown whole
    have known : tagKnown s o = { o with known := true, good := tagGood s o, left := 0 } :=
      if_pos (by simp [opened, gcm, unknown, whole])
    exact known ▸ mem_setOp (tagKnown s) mem
  case wrongTag =>
    obtain ⟨ciph, keys⟩ := complex_eq_iff.1 (complex_dropPkt p (countBlock 0xFD02 (pkt (opReleased o s) p).pipe o.len (opReleased o s)))
    refine ⟨_, exec_cipherResultRelease_packet first found bound known req, ?_⟩
    rw [releasePacket_wrongTag opened wrong, ciph, keys]
    refine ⟨opReleased_keys o s, fun q mem => ?_⟩
    have mem : q ∈ s.ciph.bound.filter fun q => q.id != o.id := opReleased_bound o s ▸ mem
    simpa using (List.mem_filter.1 mem).2
  case check =>
    obtain ⟨k, b, left, ids⟩ := coreLeft_eq n s
    have unusable : coreUsable (coreLeft n s) n = false := coreUsable_queueTest n sound idle
    have rebinds := rebinds_foldl unusable (coreOps_coreLeft n s) (List.range (coreOps s n).length)
    refine ⟨_, exec_cipherCoreCheckError sound idle, ?_⟩
    generalize (List.range (coreOps s n).length).foldl (fun s _ => rebind s) (coreLeft n s) = t at rebinds ⊢
    refine ⟨(coreUsable_congr rebinds.kiln n).trans unusable, rebinds.empty, rebinds.ids.trans (by rw [left]; exact ids), ?_⟩
    have only := rebinds.only
    have kiln := rebinds.kiln
    rw [left] at only kiln
    rw [kiln]
    exact only

end Sys2Proof.Machine

/-! Command rings (R103 to R109). Events, host writes and interrupts write no ring, so a stop leaves in its ring what it set there. -/
namespace Sys2Proof.Machine

/-- What an update of a function leaves of every function, it leaves of each one in the state. -/
theorem fnOf_setFn_keeps {α : Type} {g : Fn → α} {f : Fn → Fn} (h : ∀ x, g (f x) = g x) (i j : Nat) (s : State) :
    g (fnOf (setFn i f s) j) = g (fnOf s j) := by
  by_cases e : i = j
  · rw [← e, fnOf_setFn_same, h]
  · rw [fnOf_setFn_ne f s e]

/-- The ring of a function, or of its secure channel, as a piece of the function. -/
def Fn.ring (sec : Bool) (f : Fn) : Ring := if sec then f.sec else f.cmd

theorem ringOf_eq (s : State) (i : Nat) (sec : Bool) : ringOf s i sec = (fnOf s i).ring sec := rfl

theorem ringOf_setFn {f : Fn → Fn} (h : ∀ sec x, (f x).ring sec = x.ring sec) (i j : Nat) (sec : Bool) (s : State) :
    ringOf (setFn i f s) j sec = ringOf s j sec := fnOf_setFn_keeps (h sec) i j s

@[simp] theorem ringOf_setRing_same (i : Nat) (sec : Bool) (g : Ring → Ring) (s : State) :
    ringOf (setRing i sec g s) i sec = g (ringOf s i sec) := by
  rw [ringOf_eq, setRing, fnOf_setFn_same]
  cases sec <;> rfl

@[simp] theorem ringOf_emit (o : Output) (s : State) (j : Nat) (sec : Bool) : ringOf (emit o s) j sec = ringOf s j sec := rfl
@[simp] theorem ringOf_setPort (p : Nat) (f : PcPort → PcPort) (s : State) (j : Nat) (sec : Bool) :
    ringOf (setPort p f s) j sec = ringOf s j sec := rfl

@[simp] theorem ringOf_hostWrite (i addr len data : Nat) (ro : Bool) (s : State) (j : Nat) (sec : Bool) :
    ringOf (hostWrite i addr len data ro s) j sec = ringOf s j sec := by
  unfold hostWrite markDirty
  split
  · split
    · exact ringOf_emit ..
    · exact ringOf_setFn (fun _ _ => by rfl) ..
  · exact ringOf_setPort ..

theorem ringOf_setFnIntx {f : Fn → Fn} (h : ∀ sec x, (f x).ring sec = x.ring sec) (i j : Nat) (sec : Bool) (s : State) :
    ringOf (setFnIntx i f s) j sec = ringOf s j sec := by
  unfold setFnIntx
  dsimp only
  split
  · exact ringOf_setFn h ..
  · exact (ringOf_emit ..).trans (ringOf_setFn h ..)

@[simp] theorem ringOf_raiseVector (i v : Nat) (s : State) (j : Nat) (sec : Bool) :
    ringOf (raiseVector i v s) j sec = ringOf s j sec := by
  unfold raiseVector
  dsimp only
  split
  · exact ringOf_setFn (fun _ _ => by rfl) ..
  split
  · split
    · exact ringOf_setFnIntx (fun _ _ => by rfl) ..
    · rfl
  split
  · rfl
  split
  · rfl
  · exact ringOf_setFn (fun _ _ => by rfl) ..

@[simp] theorem ringOf_writeEvent (pf rec : Nat) (s : State) (j : Nat) (sec : Bool) :
    ringOf (writeEvent pf rec s) j sec = ringOf s j sec :=
  calc ringOf (writeEvent pf rec s) j sec
    _ = ringOf (setFn pf _ _) j sec := ringOf_raiseVector ..
    _ = ringOf (hostWrite pf _ 16 _ false (hostWrite pf _ 16 _ false s)) j sec := ringOf_setFn (fun _ _ => by rfl) ..
    _ = ringOf s j sec := by rw [ringOf_hostWrite, ringOf_hostWrite]

@[simp] theorem ringOf_deliverEvent (pf rec : Nat) (s : State) (j : Nat) (sec : Bool) :
    ringOf (deliverEvent pf rec s) j sec = ringOf s j sec := by
  unfold deliverEvent
  dsimp only
  split
  · exact ringOf_writeEvent ..
  split
  · exact ringOf_setFn (fun _ _ => by rfl) ..
  split <;> exact ringOf_setFn (fun _ _ => by rfl) ..

/-- R108: a stop sets ERR, its code and the stopped mark, and no other register of the ring. -/
theorem ringOf_stopRing_same (i : Nat) (sec : Bool) (code : Nat) (s : State) : ringOf (stopRing i sec code s) i sec =
    { ringOf s i sec with err := true, errCode := BitVec.ofNat 4 code, stopped := true } :=
  (ringOf_deliverEvent ..).trans (ringOf_setRing_same ..)

theorem ringLive_eq_false_of_stopped {s : State} {i : Nat} {sec : Bool} (h : (ringOf s i sec).stopped = true) :
    ringLive s i sec = false := by
  simp [ringLive, h]

/-- R106, R108: a doorbell sets PI, and stops a running ring that it puts more than its size ahead of CI. -/
theorem exec_cmdRingPi {s : State} {fn : Nat} {sec : Bool} (v : Word) (reached : bar0Open s fn = true)
    (pf : sec = true → isPf fn = true) : exec (.cmdRingPi fn sec v) s =
      if (ringOf s fn sec).enable = true ∧ (ringOf s fn sec).stopped = false ∧
          2 ^ (ringOf s fn sec).log2.toNat < (v.extractLsb' 0 16 - (ringOf s fn sec).ci).toNat then
        .next (stopRing fn sec 1 (setRing fn sec (fun r => { r with pi := v.extractLsb' 0 16 }) s))
      else .next (setRing fn sec (fun r => { r with pi := v.extractLsb' 0 16 }) s) := by
  show execCmdRingPi fn sec v s = _
  unfold execCmdRingPi
  rw [if_neg (by simpa [reached] using pf)]
  simp only [ringOf_setRing_same, Bool.and_eq_true, Bool.not_eq_true', decide_eq_true_eq, gt_iff_lt, and_assoc]

/-- The ring that ENABLE with register value `v` starts (R103, R105). -/
def ringEnabled (fn : Nat) (sec : Bool) (v : Word) (s : State) : State :=
  setRing fn sec (fun r => { r with
    enable := true, vector := v.extractLsb' 16 11, log2 := v.extractLsb' 0 4, pi := 0, ci := 0, seqValid := false, stopped := false }) s

theorem badLog2_iff (n : BitVec 4) : badLog2 n = true ↔ n.toNat < 4 ∨ 12 < n.toNat := by
  simp [badLog2]

theorem exec_cmdRingEnable {s : State} {fn : Nat} {sec : Bool} {v : Word} (reached : bar0Open s fn = true)
    (pf : sec = true → isPf fn = true) (set : v.getLsbD 31 = true) (off : (ringOf s fn sec).enable = false) :
    exec (.cmdRingEnable fn sec v) s =
      if badLog2 (v.extractLsb' 0 4) = true then .next (stopRing fn sec 3 (ringEnabled fn sec v s))
      else .next (ringEnabled fn sec v s) := by
  show execCmdRingEnable fn sec v s = _
  unfold execCmdRingEnable
  rw [if_neg (by simpa [reached, set, off] using pf)]
  simp only [ringOf_setRing_same]
  rfl

theorem exec_cmdRingDisable {s : State} {fn : Nat} {sec : Bool} {v : Word} (reached : bar0Open s fn = true)
    (pf : sec = true → isPf fn = true) (clear : v.getLsbD 31 = false) : exec (.cmdRingDisable fn sec v) s =
      if (ringOf s fn sec).enable = true then .next (setRing fn sec (fun r => { r with enable := false }) s)
      else .next (setRing fn sec (fun r => { r with vector := v.extractLsb' 16 11, log2 := v.extractLsb' 0 4 }) s) := by
  show execCmdRingDisable fn sec v s = _
  unfold execCmdRingDisable
  rw [clear, if_neg (by simpa [reached] using pf)]

/-- Settles O30: each register write is one equation, and what a stop leaves in its ring is read off it. -/
theorem ringRegistersDriveTheRing : Obligations.RingRegistersDriveTheRing := by
  refine ⟨fun s fn sec v reached pf => exec_cmdRingPi v reached pf, fun s fn sec v reached pf set off => ?enable,
    fun s fn sec v reached pf clear => exec_cmdRingDisable reached pf clear, fun s fn sec live => if_pos live,
    fun s fn sec code lt => ?stop⟩
  case enable =>
    rw [exec_cmdRingEnable reached pf set off, ← badLog2_iff]
    split
    · next bad =>
      refine ⟨_, rfl, ?_⟩
      rw [ringOf_stopRing_same, core_stopRing, ringEnabled, ringOf_setRing_same, core_setRing]
      exact ⟨rfl, rfl, rfl, rfl, rfl, rfl, iff_of_true rfl bad, rfl⟩
    · next good =>
      refine ⟨_, rfl, ?_⟩
      rw [ringEnabled, ringOf_setRing_same, core_setRing]
      exact ⟨rfl, rfl, rfl, rfl, rfl, rfl, iff_of_false nofun good, rfl⟩
  case stop =>
    have ring := ringOf_stopRing_same fn sec code s
    refine ⟨?_, ?_, ?_, ?_, ringLive_eq_false_of_stopped ?_, core_stopRing ..⟩ <;> rw [ring]
    exact Nat.mod_eq_of_lt lt

end Sys2Proof.Machine

/-! Event and punt rings (R120 to R128). -/
namespace Sys2Proof.Machine

/-- What a function has beside its rings, an update of a ring leaves. -/
theorem fnOf_setRing_keeps {α : Type} {g : Fn → α}
    (h : ∀ (f : Fn) (r : Ring), g { f with cmd := r } = g f ∧ g { f with sec := r } = g f)
    (i : Nat) (sec : Bool) (r : Ring → Ring) (s : State) (j : Nat) : g (fnOf (setRing i sec r s) j) = g (fnOf s j) := by
  refine fnOf_setFn_keeps (fun x => ?_) i j s
  cases sec
  · exact (h x _).1
  · exact (h x _).2

/-- Taking a command from its ring writes that ring alone. -/
theorem fnOf_taken {α : Type} {g : Fn → α}
    (h : ∀ (f : Fn) (r : Ring), g { f with cmd := r } = g f ∧ g { f with sec := r } = g f)
    (c : CmdPkt) (s : State) (j : Nat) : g (fnOf (taken c s) j) = g (fnOf s j) :=
  (fnOf_setRing_keeps h ..).trans (fnOf_setRing_keeps h ..)

theorem evt_taken (c : CmdPkt) (s : State) (j : Nat) : (fnOf (taken c s) j).evt = (fnOf s j).evt :=
  fnOf_taken (g := Fn.evt) (fun _ _ => ⟨rfl, rfl⟩) c s j

theorem punt_taken (c : CmdPkt) (s : State) (j : Nat) : (fnOf (taken c s) j).punt = (fnOf s j).punt :=
  fnOf_taken (g := Fn.punt) (fun _ _ => ⟨rfl, rfl⟩) c s j

theorem flushHeld_of_nothing_held {s : State} {pf : Nat} (held : (fnOf s pf).evt.held = []) (n : Nat) : flushHeld pf n s = s := by
  cases n with
  | zero => rfl
  | succ n => simp [flushHeld, held]

/-- Nothing held and nothing dropped: a ring that has room writes nothing (R123, R124). -/
theorem flushEvents_of_nothing_held {s : State} {pf : Nat} (held : (fnOf s pf).evt.held = []) (dropped : (fnOf s pf).evt.dropped = 0) :
    flushEvents pf s = s := by
  simp [flushEvents, flushHeld_of_nothing_held held, dropped]

theorem flushPuntsN_of_nothing_held {s : State} (held : (fnOf s 0).punt.held = []) (n : Nat) : flushPuntsN n s = s := by
  cases n with
  | zero => rfl
  | succ n => simp [flushPuntsN, held]

theorem flushPunts_of_nothing_held {s : State} (held : (fnOf s 0).punt.held = []) (dropped : (fnOf s 0).punt.dropped = 0) :
    flushPunts s = s := by
  simp [flushPunts, flushPuntsN_of_nothing_held held, dropped]

theorem ringParams_eq_none {c : CmdPkt} (lo : 4 ≤ c.p 8 1) (hi : c.p 8 1 ≤ 12) : ringParams c = none := by
  simp [ringParams, firstOf, Nat.not_lt.2 lo, Nat.not_lt.2 hi]

/-- A record ring is set up as a command's PARAM says (R124). -/
def RecRing.setUp (c : CmdPkt) (r : RecRing) : RecRing :=
  { r with
    set := true, base := BitVec.ofNat 64 (c.p 0 8), log2 := BitVec.ofNat 4 (c.p 8 1), vector := BitVec.ofNat 16 (c.p 10 2)
    pi := 0, ack := 0 }

theorem exec_evtRingSet {c : CmdPkt} {s : State} (runs : Runs 0x0105 .P false always c s) (lo : 4 ≤ c.p 8 1) (hi : c.p 8 1 ≤ 12)
    (held : (fnOf s (pfOf c.iid)).evt.held = []) (dropped : (fnOf s (pfOf c.iid)).evt.dropped = 0) :
    exec (.evtRingSet c) s = repliesOk c s (setFn (pfOf c.iid) (fun f => { f with evt := f.evt.setUp c }) (taken c s)) 0 := by
  have ring := evt_taken c s (pfOf c.iid)
  refine congrArg Host.Outcome.next (runCmd_done runs (ringParams_eq_none lo hi) (congrArg (done · 0) ?_))
  refine flushEvents_of_nothing_held ?_ ?_
  · rw [fnOf_setFn_same]; exact (congrArg RecRing.held ring).trans held
  · rw [fnOf_setFn_same]; exact (congrArg RecRing.dropped ring).trans dropped

theorem exec_evtSubscribe {c : CmdPkt} {s : State} (runs : Runs 0x0106 .P false always c s) (floor : c.p 2 1 ≤ 3) :
    exec (.evtSubscribe c) s = repliesOk c s
      (setFn (pfOf c.iid) (fun f => { f with evt := { f.evt with mask := BitVec.ofNat 16 (c.p 0 2), floor := c.p 2 1 } }) (taken c s))
      (fld 15 0 (fnOf s (pfOf c.iid)).evt.mask.toNat) := by
  have accepted : firstOf [(decide (c.p 2 1 > 3), stBadParam)] = none := by simp [firstOf, Nat.not_lt.2 floor]
  rw [← evt_taken c s (pfOf c.iid)]
  exact congrArg Host.Outcome.next (runCmd_done runs accepted rfl)

theorem exec_puntRingSet {c : CmdPkt} {s : State} (runs : Runs 0x0107 .A false always c s) (lo : 4 ≤ c.p 8 1) (hi : c.p 8 1 ≤ 12)
    (held : (fnOf s 0).punt.held = []) (dropped : (fnOf s 0).punt.dropped = 0) :
    exec (.puntRingSet c) s = repliesOk c s (setFn 0 (fun f => { f with punt := f.punt.setUp c }) (taken c s)) 0 := by
  have ring := punt_taken c s 0
  refine congrArg Host.Outcome.next (runCmd_done runs (ringParams_eq_none lo hi) (congrArg (done · 0) ?_))
  refine flushPunts_of_nothing_held ?_ ?_
  · rw [fnOf_setFn_same]; exact (congrArg RecRing.held ring).trans held
  · rw [fnOf_setFn_same]; exact (congrArg RecRing.dropped ring).trans dropped

/-- Settles O14: each command writes the registers of its record ring, and with nothing held or dropped no record follows. -/
theorem eventAndPuntRingsAreSet : Obligations.EventAndPuntRingsAreSet :=
  ⟨fun _ _ runs lo hi held dropped => exec_evtRingSet runs lo hi held dropped, fun _ _ runs floor => exec_evtSubscribe runs floor,
    fun _ _ runs lo hi held dropped => exec_puntRingSet runs lo hi held dropped⟩

end Sys2Proof.Machine

/-! The adapter's own commands (R120, R129 to R136, R293, R555): taking the command leaves what they read, and halting the firmware
leaves all but Kiln. -/
namespace Sys2Proof.Machine

theorem runCmd_refuses {op w secure permit c s check effect st} (h : Runs op w secure permit c s)
    (hc : check c (taken c s) = some (st, 0)) :
    runCmd op w secure permit check quiet effect c s = writeReply (execOf c s) st 0 (taken c s) := by
  rw [runCmd_passes check quiet effect h.1, runBody_eq, hc, h.2]
  rfl

/-- A command whose effect brings no reply leaves its effect. -/
theorem runCmd_unanswered {op w secure permit c s check onRefuse effect t} (h : Runs op w secure permit c s)
    (hc : check c (taken c s) = none) (he : effect c (taken c s) = (t, none)) :
    runCmd op w secure permit check onRefuse effect c s = t := by
  rw [runCmd_runs h hc, he]

theorem exec_adapterInfo {c : CmdPkt} {s : State} (runs : Runs 0x0101 .V false always c s) :
    exec (.adapterInfo c) s = repliesOk c s (taken c s)
      (fld 7 0 0xB0 + fld 63 32 s.fw.version + fld 95 64 s.fw.svn + fld 98 96 s.sec.lc + fld 120 112 s.peal.node) :=
  congrArg Host.Outcome.next (runCmd_done runs rfl rfl)

theorem exec_fwStatus {c : CmdPkt} {s : State} (runs : Runs 0x0102 .V false always c s) :
    exec (.fwStatus c) s = repliesOk c s (taken c s) (fld 0 0 s.fw.slot + fld 15 8 s.fw.boot0 + fld 23 16 s.fw.boot1 + fld 31 24 1) :=
  congrArg Host.Outcome.next (runCmd_done runs rfl rfl)

/-! Images (R129, R130). -/

/-- R130 reads the trusted keys and the minimum SVN, and no more of the state. -/
theorem bootCheck_congr {s t : State} (h : t.sec = s.sec) (img : Option FwImage) : bootCheck t img = bootCheck s img := by
  unfold bootCheck keyTrusted
  rw [h]

/-- What a command finds of an image once it is taken is what stood before it. -/
theorem failed_taken_iff (c : CmdPkt) (s : State) (img : Option FwImage) :
    (bootCheck (taken c s) img != 1) = true ↔ bootCheck s img ≠ 1 := by
  rw [bne_iff_ne, bootCheck_congr (s := s) (t := taken c s) rfl]

/-- A FW_UPDATE of a slot that is not the running one is left to the check of its image. -/
theorem fwUpdate_check {c : CmdPkt} {s : State} (slot : c.p 12 1 ≤ 1) (buffer : c.indirect = true)
    (idle : s.fw.accepted = true → c.p 12 1 ≠ s.fw.slot) (failed : Bool) :
    firstOf [(decide (c.p 12 1 > 1) || !c.indirect, stBadParam), (s.fw.accepted && c.p 12 1 == s.fw.slot, stBadState),
      (failed, stSigFail)] = if failed = true then some (stSigFail, 0) else none := by
  have running : (s.fw.accepted && c.p 12 1 == s.fw.slot) = false := by simpa using idle
  simp [firstOf, Nat.not_lt.2 slot, buffer, running]

/-- R134: the image stands in its slot, and has gone out to the flash. -/
def imageStored (n : Nat) (img : FwImage) (s : State) : State :=
  { s with
    fw := if n = 0 then { s.fw with slot0 := some img } else { s.fw with slot1 := some img }
    out := s.out ++ [.flash (n * 0x1000000) (img.signed ++ img.signature ++ List.replicate 51 0 ++ img.payload)] }

theorem imageStored_eq (n : Nat) (img : FwImage) (s : State) :
    { emit (.flash (n * 0x1000000) (img.signed ++ img.signature ++ List.replicate 51 0 ++ img.payload)) s with
      fw := if (n == 0) = true then { s.fw with slot0 := some img } else { s.fw with slot1 := some img } } = imageStored n img s := by
  simp only [beq_iff_eq]
  rfl

theorem exec_fwUpdate {c : CmdPkt} {s : State} {img : FwImage} (runs : Runs 0x0103 .A true always c s) (slot : c.p 12 1 ≤ 1)
    (buffer : c.indirect = true) (idle : s.fw.accepted = true → c.p 12 1 ≠ s.fw.slot) :
    exec (.fwUpdate c img) s = if bootCheck s (some img) = 1 then
        repliesOk c s (imageStored (c.p 12 1) img (taken c s)) (fld 0 0 (c.p 12 1) + fld 63 32 img.svn)
      else refusesWith c s stSigFail := by
  have check := fwUpdate_check slot buffer idle (bootCheck (taken c s) (some img) != 1)
  split
  · next good =>
    have passed := check.trans (if_neg ((failed_taken_iff ..).not.2 (not_not.2 good)))
    refine congrArg Host.Outcome.next (runCmd_done runs passed ?_)
    rw [← imageStored_eq]
    rfl
  · next bad => exact congrArg Host.Outcome.next (runCmd_refuses runs (check.trans (if_pos ((failed_taken_iff ..).2 bad))))

/-! FW_ACTIVATE (R134, R595). -/

/-- A state but for Kiln. -/
def withoutKiln (s : State) : State := { s with kiln := {} }

theorem withoutKiln_setRot (i : Nat) (f : Rot → Rot) (s : State) : withoutKiln (setRot i f s) = withoutKiln s := by
  unfold setRot
  split <;> rfl

theorem withoutKiln_haltRot (i : Nat) (s : State) : withoutKiln (haltRot i s) = withoutKiln s := by
  unfold haltRot
  dsimp only
  split
  · exact withoutKiln_setRot ..
  · split <;> exact withoutKiln_setRot ..

theorem withoutKiln_haltRots (l : List Nat) (s : State) :
    withoutKiln (l.foldl (fun s k => haltRot (17 * k) s) s) = withoutKiln s := by
  induction l generalizing s with
  | nil => rfl
  | cons k l ih => rw [List.foldl_cons, ih, withoutKiln_haltRot]

theorem eq_of_withoutKiln {s t : State} (h : withoutKiln t = withoutKiln s) : t = { s with kiln := t.kiln } :=
  congrArg (fun u : State => { u with kiln := t.kiln }) h

/-- R595: a firmware halt writes nothing but Kiln. -/
theorem kilnHalt_eq (s : State) : kilnHalt s = { s with kiln := (kilnHalt s).kiln } :=
  eq_of_withoutKiln ((withoutKiln_haltRot ..).trans (withoutKiln_haltRots ..))

/-- R134, R136: the image of slot PARAM 0 runs next, and the journal of the command's ring holds its effect. -/
def activated (c : CmdPkt) (img : FwImage) (s : State) : State :=
  setRing c.fn c.sec (fun r => { r with
      exec := r.exec.map fun e => { e with committed := true, rdata := BitVec.ofNat 128 (fld 31 0 img.version) } })
    { takeImage (c.p 0 1) 1 img (kilnHalt s) with
      fw := { (takeImage (c.p 0 1) 1 img (kilnHalt s)).fw with commit := c.p 1 1 % 2 == 1 } }

theorem fwActivate_check {c : CmdPkt} (slot : c.p 0 1 ≤ 1) (failed : Bool) :
    firstOf [(decide (c.p 0 1 > 1), stBadParam), (failed, stSigFail)] = if failed = true then some (stSigFail, 0) else none := by
  simp [firstOf, Nat.not_lt.2 slot]

theorem exec_fwActivate_refuses {c : CmdPkt} {s : State} {img : FwImage} (runs : Runs 0x0104 .A true always c s) (slot : c.p 0 1 ≤ 1)
    (image : slotImage s (c.p 0 1) = some img) (bad : bootCheck s (some img) ≠ 1) :
    exec (.fwActivate c) s = refusesWith c s stSigFail := by
  have held : slotImage (taken c s) (c.p 0 1) = some img := image
  have failed := (failed_taken_iff c s (slotImage (taken c s) (c.p 0 1))).2 (held ▸ bad)
  exact congrArg Host.Outcome.next (runCmd_refuses runs ((fwActivate_check slot _).trans (if_pos failed)))

theorem exec_fwActivate {c : CmdPkt} {s : State} {img : FwImage} (runs : Runs 0x0104 .A true always c s) (slot : c.p 0 1 ≤ 1)
    (image : slotImage s (c.p 0 1) = some img) (serving : s.fw.recovery = false) (good : bootCheck s (some img) = 1) :
    exec (.fwActivate c) s = .next (activated c img (taken c s)) := by
  have held : slotImage (taken c s) (c.p 0 1) = some img := image
  have passed := (failed_taken_iff c s (slotImage (taken c s) (c.p 0 1))).not.2 (not_not.2 (held ▸ good))
  have serving : (taken c s).fw.recovery = false := serving
  refine congrArg Host.Outcome.next (runCmd_unanswered runs ((fwActivate_check slot _).trans (if_neg passed)) ?_)
  simp only [held, serving]
  rfl

theorem activated_keeps (c : CmdPkt) (img : FwImage) (s : State) :
    (activated c img s).out = s.out ∧ (activated c img s).sets = s.sets ∧ (activated c img s).pkts = s.pkts := by
  unfold activated
  rw [kilnHalt_eq]
  exact ⟨rfl, rfl, rfl⟩

theorem activated_fw (c : CmdPkt) (img : FwImage) (s : State) : (activated c img s).fw =
    { s.fw with slot := c.p 0 1, version := img.version, svn := img.svn, accepted := true, ready := false, recovery := false,
                cause := 1, commit := c.p 1 1 % 2 == 1 } := by
  unfold activated
  rw [kilnHalt_eq]
  rfl

theorem activated_sec (c : CmdPkt) (img : FwImage) (s : State) :
    (activated c img s).sec = { s.sec with meas := s.sec.meas.put 1 img.measure } := by
  unfold activated
  rw [kilnHalt_eq]
  rfl

theorem ringOf_taken (c : CmdPkt) (s : State) : ringOf (taken c s) c.fn c.sec =
    { ringOf s c.fn c.sec with exec := some (execOf c s), lastSeq := BitVec.ofNat 16 c.seq, seqValid := true } := by
  rw [taken, ringOf_setRing_same, ringOf_setRing_same]

theorem ringOf_activated (c : CmdPkt) (img : FwImage) (s : State) : ringOf (activated c img s) c.fn c.sec =
    { ringOf s c.fn c.sec with exec := (ringOf s c.fn c.sec).exec.map fun e =>
        { e with committed := true, rdata := BitVec.ofNat 128 (fld 31 0 img.version) } } := by
  rw [activated, ringOf_setRing_same, kilnHalt_eq]
  rfl

theorem exec_nodeIdSet {c : CmdPkt} {s : State} (runs : Runs 0x0108 .A true always c s) (node : c.p 0 2 ≤ 511)
    (alone : s.peal.member = false) (still : s.peal.joining = false) : exec (.nodeIdSet c) s = repliesOk c s
      { taken c s with peal := { s.peal with node := c.p 0 2, nodeValid := true, dupId := false } } 0 := by
  have accepted : firstOf [(decide (c.p 0 2 > 511), stBadParam), (s.peal.member || s.peal.joining, stBadState)] = none := by
    simp [firstOf, Nat.not_lt.2 node, alone, still]
  exact congrArg Host.Outcome.next (runCmd_done runs accepted rfl)

/-! COUNTER_READ of a block that is no table (R293). -/

theorem length_bytesOf (n x : Nat) : (bytesOf n x).length = n := by
  induction n generalizing x with
  | zero => rfl
  | succ n ih => rw [bytesOf, List.length_cons, ih]

/-- The records of a block, from an index on (R292). -/
def blockRecords (s : State) (b first n : Nat) : List Byte := (List.range n).flatMap fun i => ctrRecord (blockCtr s b (first + i))

theorem length_blockRecords (s : State) (b first n : Nat) : (blockRecords s b first n).length = 16 * n := by
  simp [blockRecords, ctrRecord, length_bytesOf, List.length_flatMap, Nat.mul_comm]

theorem counterBlock_of_size {c : CmdPkt} (block : blockSize (c.p 12 2) ≠ 0) (s : State) :
    counterBlock s c = .ok (blockSize (c.p 12 2), blockCtr s (c.p 12 2)) := if_pos (bne_iff_ne.2 block)

theorem exec_counterRead {c : CmdPkt} {s : State} (runs : Runs 0x0109 .V false always c s) (buffer : c.indirect = true)
    (nonempty : 1 ≤ c.p 20 2) (few : c.p 20 2 ≤ 64) (set : c.p 14 1 ≤ 1) (room : 16 * c.p 20 2 ≤ c.p 8 4)
    (block : blockSize (c.p 12 2) ≠ 0) (last : c.p 16 4 + c.p 20 2 ≤ blockSize (c.p 12 2)) :
    exec (.counterRead c) s = repliesOk c s
      (hostWrite c.fn (c.p 0 8) (16 * c.p 20 2) (ofBytes (blockRecords s (c.p 12 2) (c.p 16 4) (c.p 20 2))) false (taken c s))
      (fld 63 32 (c.p 20 2)) := by
  have found := counterBlock_of_size block (taken c s)
  refine congrArg Host.Outcome.next (runCmd_done runs ?accepted ?written)
  case accepted =>
    simp [found, refuseOf, buffer, Nat.not_lt.2 few, Nat.not_lt.2 set, Nat.not_lt.2 room, Nat.not_lt.2 last, Nat.ne_of_gt nonempty]
  case written =>
    rw [← length_blockRecords s (c.p 12 2) (c.p 16 4) (c.p 20 2)]
    simp only [found]
    rfl

/-- Settles O13: each command is one equation, from the check that lets it pass and the effect it then has. -/
theorem adapterCommandsReplyAndTakeEffect : Obligations.AdapterCommandsReplyAndTakeEffect := by
  refine ⟨fun c s => exec_adapterInfo, fun c s => exec_fwStatus, fun c s img runs slot buffer idle => exec_fwUpdate runs slot buffer idle,
    fun c s img runs slot image serving => ⟨exec_fwActivate_refuses runs slot image, fun good => ?activates⟩,
    fun c s runs node alone still => exec_nodeIdSet runs node alone still,
    fun c s runs buffer nonempty few set room block last => exec_counterRead runs buffer nonempty few set room block last⟩
  obtain ⟨out, sets, pkts⟩ := activated_keeps c img (taken c s)
  refine ⟨_, exec_fwActivate runs slot image serving good, ?_, activated_sec c img (taken c s), out, sets, pkts, ?_⟩
  · rw [activated_fw, ← serving]
    rfl
  · rw [ringOf_activated, ringOf_taken]
    rfl

end Sys2Proof.Machine

/-! EPOCH moves at a firing or a reset alone (R140, R160, R344). -/
namespace Sys2Proof.Machine

theorem epoch_of_frame {t : State} {p h now l m e} (f : frame t = (p, h, now, l, m, e)) : t.sets.epoch = e :=
  congrArg (fun x => x.2.2.2.2.2) f

/-- Of the commands, an armed firing's taking effect sets EPOCH to its target, and the two resets set it to 0 (R140, R160, R344). -/
theorem Moves.epoch {i : Instr} {s t : State} (h : Moves i s t) : t.sets.epoch = s.sets.epoch ∨
    (i = .firingEffective ∧ ∃ a, s.sets.arm = some a ∧ t.sets.epoch = a.target) ∨
    ((i = .powerOnAo ∨ ∃ cool, i = .adpPwrokRise cool) ∧ t.sets.epoch = 0) := by
  unfold Moves at h
  split at h
  case h_1 => exact .inr (.inr ⟨.inl rfl, epoch_of_frame h⟩)
  case h_2 cool => exact h.imp epoch_of_frame fun f => .inr ⟨.inr ⟨cool, rfl⟩, epoch_of_frame f⟩
  case h_3 | h_6 | h_7 | h_9 => exact .inl (h.elim epoch_of_frame epoch_of_frame)
  case h_4 => exact h.imp epoch_of_frame fun ⟨a, armed, f⟩ => .inl ⟨rfl, a, armed, epoch_of_frame f⟩
  case h_5 => exact .inl (h.elim epoch_of_frame fun ⟨_, _, f⟩ => epoch_of_frame f)
  case h_8 => exact .inl (h.elim epoch_of_frame fun ⟨_, _, f⟩ => epoch_of_frame f)
  case h_10 => exact .inl (epoch_of_frame h)

/-- Settles O9: a step that goes on has done what its front command can do to EPOCH, and no more. -/
theorem epochMovesOnlyAtAFiringOrAReset : Obligations.EpochMovesOnlyAtAFiringOrAReset := by
  intro s t h
  unfold step at h
  split at h
  case h_1 =>
    cases h
    exact .inl rfl
  case h_2 c rest front =>
    rw [front]
    obtain kept | ⟨rfl, fired⟩ | ⟨rfl | ⟨cool, rfl⟩, zero⟩ := (exec_moves _ _ _ h).epoch
    · exact .inl kept
    · exact .inr (.inl ⟨rfl, fired⟩)
    · exact .inr (.inr ⟨.inl rfl, zero⟩)
    · exact .inr (.inr ⟨.inr ⟨cool, rfl⟩, zero⟩)

end Sys2Proof.Machine

/-! The table commands (R157, R158, R302 to R304): each is its check, then a write of the entry that its key names. -/
namespace Sys2Proof.Machine

/-- A command that its check refuses answers the check's status and RDATA. -/
theorem runCmd_refuses_rdata {op w secure permit c s check effect st d} (h : Runs op w secure permit c s)
    (hc : check c (taken c s) = some (st, d)) :
    runCmd op w secure permit check quiet effect c s = writeReply (execOf c s) st d (taken c s) := by
  rw [runCmd_passes check quiet effect h.1, runBody_eq, hc, h.2]
  rfl

@[simp] theorem core_taken (c : CmdPkt) (s : State) : core (taken c s) = core s := rfl

/-! Finding a key that has been inserted (R276, R303). -/

theorem tKey_inj {inst table h j : Nat} : tKey inst table h = tKey inst table j ↔ h = j := Nat.add_left_cancel_iff

/-- Among places that `p` singles out, the first that `p` accepts is the one singled out. -/
theorem find?_eq_some_of_iff {p : Nat → Bool} {h : Nat} {l : List Nat} (mem : h ∈ l) (iff : ∀ j ∈ l, p j = true ↔ j = h) :
    l.find? p = some h := by
  obtain ⟨j, found⟩ := Option.isSome_iff_exists.1 (List.find?_isSome.2 ⟨h, mem, (iff h mem).2 rfl⟩)
  rw [found, (iff j (List.mem_of_find?_eq_some found)).1 (List.find?_some found)]

/-- An entry put at an empty slot of a key's probe sequence is found there, where the key was not found before. -/
theorem TblRef.find_put {s : State} {r : TblRef} {k : TblKey} {h : Nat} {e : TEntry} (table : r.table = tId r.desc)
    (absent : r.find k = none) (empty : TblRef.free s r k = some h) (key : e.key = k.key) :
    TblRef.find { r with set := { r.set with entries := r.set.entries.put (tKey r.inst r.table h) e } } k = some h := by
  have mem : h ∈ k.seq := List.mem_of_mem_filter (List.mem_of_find?_eq_some empty)
  refine find?_eq_some_of_iff mem fun j listed => ?_
  have old := List.find?_eq_none.1 absent j listed
  rw [table, SMap.has_put, SMap.get_put]
  by_cases same : h = j
  · simp [same, key]
  · have other : ¬ tKey r.inst (tId r.desc) h = tKey r.inst (tId r.desc) j := mt tKey_inj.1 same
    simpa [other, Ne.symm same] using old

/-! The five commands. -/

theorem exec_tblInsert {c : CmdPkt} {s : State} (runs : Runs 0x0301 .A false always c s) :
    exec (.tblInsert c) s = match insertArgs (taken c s) c with
      | .error st => refusesWith c s st
      | .ok (r, k, a, d) => match r.find k, TblRef.free (taken c s) r k with
        | some h, _ => .next (writeReply (execOf c s) stBadState (fld 63 32 h) (taken c s))
        | none, none => .next (writeReply (execOf c s) stTableFull (fullRdata r k) (taken c s))
        | none, some h => repliesOk c s (writeTbl r h (some { hit := true, action := a, key := k.key, data := d }) (taken c s)) (fld 63 32 h) := by
  cases args : insertArgs (taken c s) c with
  | error st => exact congrArg Host.Outcome.next (runCmd_refuses runs (by simp only [args, refuseOf]))
  | ok x =>
    obtain ⟨r, k, a, d⟩ := x
    dsimp only
    cases present : r.find k with
    | some h => exact congrArg Host.Outcome.next (runCmd_refuses_rdata runs (by simp only [args, refuseOf, present]))
    | none =>
      cases empty : TblRef.free (taken c s) r k with
      | none => exact congrArg Host.Outcome.next (runCmd_refuses_rdata runs (by simp [args, refuseOf, present, empty]))
      | some h =>
        exact congrArg Host.Outcome.next (runCmd_done runs (by simp [args, refuseOf, present, empty]) (by simp only [args, empty]))

theorem exec_tblDelete {c : CmdPkt} {s : State} (runs : Runs 0x0302 .A false always c s) :
    exec (.tblDelete c) s = match deleteArgs (taken c s) c with
      | .error st => refusesWith c s st
      | .ok (r, k) => match r.find k with
        | none => refusesWith c s stNotFound
        | some h => repliesOk c s (writeTbl r h none (taken c s)) 0 := by
  cases args : deleteArgs (taken c s) c with
  | error st => exact congrArg Host.Outcome.next (runCmd_refuses runs (by simp only [args, refuseOf]))
  | ok x =>
    obtain ⟨r, k⟩ := x
    dsimp only
    cases present : r.find k with
    | none => exact congrArg Host.Outcome.next (runCmd_refuses runs (by simp [args, refuseOf, present]))
    | some h => exact congrArg Host.Outcome.next (runCmd_done runs (by simp [args, refuseOf, present]) (by simp only [args, present]))

theorem exec_tblModify {c : CmdPkt} {s : State} (runs : Runs 0x0303 .A false always c s) :
    exec (.tblModify c) s = match insertArgs (taken c s) c with
      | .error st => refusesWith c s st
      | .ok (r, k, a, d) => match r.find k with
        | none => refusesWith c s stNotFound
        | some h => repliesOk c s (writeTbl r h (some { r.set.entries.get (tKey r.inst r.table h) with
                                                   hit := true, action := a, data := d }) (taken c s)) 0 := by
  cases args : insertArgs (taken c s) c with
  | error st => exact congrArg Host.Outcome.next (runCmd_refuses runs (by simp only [args, refuseOf]))
  | ok x =>
    obtain ⟨r, k, a, d⟩ := x
    dsimp only
    cases present : r.find k with
    | none => exact congrArg Host.Outcome.next (runCmd_refuses runs (by simp [args, refuseOf, present]))
    | some h => exact congrArg Host.Outcome.next (runCmd_done runs (by simp [args, refuseOf, present]) (by simp only [args, present]))

theorem exec_tblLookup_refuses {c : CmdPkt} {s : State} {st : Nat} (runs : Runs 0x0304 .A false always c s)
    (args : lookupArgs (taken c s) c = .error st) : exec (.tblLookup c) s = refusesWith c s st :=
  congrArg Host.Outcome.next (runCmd_refuses runs (by simp only [args, refuseOf]))

theorem exec_tblDump_refuses {c : CmdPkt} {s : State} {st : Nat} (runs : Runs 0x0305 .A false always c s)
    (args : dumpArgs (taken c s) c = .error st) : exec (.tblDump c) s = refusesWith c s st :=
  congrArg Host.Outcome.next (runCmd_refuses runs (by simp only [args, refuseOf]))

/-- The bytes of the entry at a place of a table (R280). -/
def TblRef.bytesAt (r : TblRef) (h : Nat) : List Byte := entryBytes r.desc (r.set.entries.get (tKey r.inst r.table h))

theorem exec_tblLookup {c : CmdPkt} {s : State} {r : TblRef} {k : TblKey} (runs : Runs 0x0304 .A false always c s)
    (args : lookupArgs (taken c s) c = .ok (r, k)) :
    ∃ t, core t = core s ∧ exec (.tblLookup c) s = match r.find k with
      | none => repliesOk c s (taken c s) 0
      | some h => repliesOk c s t (fld 32 32 1 + fld 95 64 h) := by
  have accepted : (refuseOf (lookupArgs (taken c s) c) fun _ => none) = none := by rw [args]; rfl
  cases present : r.find k with
  | none => exact ⟨_, core_taken c s, congrArg Host.Outcome.next (runCmd_done runs accepted (by simp only [args, present]))⟩
  | some h =>
    exact ⟨hostWrite c.fn (c.p 0 8) (r.bytesAt h).length (ofBytes (r.bytesAt h)) false (taken c s),
      (core_hostWrite ..).trans (core_taken c s), congrArg Host.Outcome.next (runCmd_done runs accepted (by simp only [args, present]; rfl))⟩

/-- The bytes of the first `n` entries that TBL_DUMP writes, each after its handle (R304). -/
def TblRef.dump (r : TblRef) (first n : Nat) : List Byte :=
  ((r.handles first (2 ^ 32)).take n).flatMap fun h => bytesOf 4 h ++ r.bytesAt h

/-- The bytes of TBL_DUMP go to its buffer where there are any (R304). -/
def dumped (c : CmdPkt) (bs : List Byte) (s : State) : State :=
  if bs.isEmpty then s else hostWrite c.fn (c.p 0 8) bs.length (ofBytes bs) false s

theorem core_dumped (c : CmdPkt) (bs : List Byte) (s : State) : core (dumped c bs s) = core s := by
  unfold dumped
  split
  · rfl
  · exact core_hostWrite ..

theorem exec_tblDump {c : CmdPkt} {s : State} {r : TblRef} (runs : Runs 0x0305 .A false always c s)
    (args : dumpArgs (taken c s) c = .ok r) :
    ∃ t, core t = core s ∧ exec (.tblDump c) s = repliesOk c s t
      (fld 47 32 (min (min (c.p 20 2) (c.p 8 4 / (4 + entryWidth r.desc))) (r.handles (c.p 16 4) (2 ^ 32)).length)
        + fld 95 64 (((r.handles (c.p 16 4) (2 ^ 32)).drop (min (c.p 20 2) (c.p 8 4 / (4 + entryWidth r.desc)))).headD 0xFFFFFFFF)) := by
  have accepted : (refuseOf (dumpArgs (taken c s) c) fun _ => none) = none := by rw [args]; rfl
  refine ⟨dumped c (r.dump (c.p 16 4) (min (c.p 20 2) (c.p 8 4 / (4 + entryWidth r.desc)))) (taken c s),
    (core_dumped ..).trans (core_taken c s), congrArg Host.Outcome.next (runCmd_done runs accepted ?_)⟩
  simp only [args]
  rfl

/-- Settles O22: each command by what its arguments name, and an inserted key by the slot it was put in. -/
theorem tableCommandsWriteTheEntriesTheyName : Obligations.TableCommandsWriteTheEntriesTheyName :=
  ⟨fun _ _ runs => exec_tblInsert runs, fun _ _ _ _ _ table absent empty key => TblRef.find_put table absent empty key,
    fun _ _ runs => exec_tblDelete runs, fun _ _ runs => exec_tblModify runs, fun _ _ _ runs args => exec_tblLookup_refuses runs args,
    fun _ _ _ runs args => exec_tblDump_refuses runs args, fun _ _ _ _ runs args => exec_tblLookup runs args,
    fun _ _ _ runs args => exec_tblDump runs args⟩

end Sys2Proof.Machine

/-! Loading, arming and withdrawing (R139 to R163): the set of one parity changes alone, and a withdrawal writes the arm alone. -/
namespace Sys2Proof.Machine

/-! The sets by parity (R139). -/

/-- A change of the set of an epoch's parity writes the sets alone, and of them neither EPOCH nor whether one is active. -/
theorem updSet_eq (e : Nat) (f : SetSlot → SetSlot) (s : State) :
    ∃ a b, updSet e f s = { s with sets := { s.sets with a := a, b := b } } := by
  unfold updSet
  split
  · exact ⟨_, _, rfl⟩
  · exact ⟨_, _, rfl⟩

theorem setFor_updSet_same {e j : Nat} (f : SetSlot → SetSlot) (s : State) (h : j % 2 = e % 2) :
    setFor (updSet e f s) j = f (setFor s j) := by
  unfold updSet setFor
  rw [h]
  split <;> rfl

theorem setFor_updSet_other {e j : Nat} (f : SetSlot → SetSlot) (s : State) (h : j % 2 ≠ e % 2) :
    setFor (updSet e f s) j = setFor s j := by
  unfold updSet setFor
  by_cases odd : e % 2 = 1
  · have even : j % 2 ≠ 1 := fun eq => h (eq.trans odd.symm)
    simp [odd, even]
  · have odd' : j % 2 = 1 := by omega
    simp [odd, odd']

/-! SET_LOAD (R146, R148). -/

/-- An image that passes R146 has its initial entries placed. -/
theorem placeInits_of_loadCheck {s : State} {b : List Byte} {i : SetInit} (passes : loadCheck s b i = none) :
    ∃ x, placeInits (imageSet b i) i = some x := by
  cases placed : placeInits (imageSet b i) i with
  | some x => exact ⟨x, rfl⟩
  | none =>
    simp [loadCheck, placed, ite_eq_iff] at passes

/-- What SET_LOAD refuses, of a packet with its buffer. -/
theorem setLoad_check {c : CmdPkt} (buffer : c.indirect = true) (s : State) (load : Refuse) :
    (if (!c.indirect) = true then some (stBadParam, 0)
      else if (shadowState s == 1 || shadowState s == 4) = true then some (stBusy, 0)
      else if (shadowState s == 3) = true then some (stBadState, 0) else load) =
    if shadowState s = 1 ∨ shadowState s = 4 then some (stBusy, 0) else if shadowState s = 3 then some (stBadState, 0) else load := by
  simp [buffer]

theorem exec_setLoad_busy {c : CmdPkt} {s : State} (i : SetInit) (runs : Runs 0x0401 .A false always c s) (buffer : c.indirect = true)
    (busy : shadowState s = 1 ∨ shadowState s = 4) : exec (.setLoad c i) s = refusesWith c s stBusy :=
  congrArg Host.Outcome.next (runCmd_refuses runs ((setLoad_check buffer (taken c s) _).trans (if_pos busy)))

theorem exec_setLoad_armed {c : CmdPkt} {s : State} (i : SetInit) (runs : Runs 0x0401 .A false always c s) (buffer : c.indirect = true)
    (armed : shadowState s = 3) : exec (.setLoad c i) s = refusesWith c s stBadState := by
  have idle : ¬ (shadowState s = 1 ∨ shadowState s = 4) := by omega
  exact congrArg Host.Outcome.next
    (runCmd_refuses runs ((setLoad_check buffer (taken c s) _).trans ((if_neg idle).trans (if_pos armed))))

/-- Of a shadow that accepts a load, R146 alone decides. -/
theorem setLoad_check_of_open {c : CmdPkt} {s : State} (buffer : c.indirect = true) (free : shadowState s = 0 ∨ shadowState s = 2)
    (load : Refuse) : (if (!c.indirect) = true then some (stBadParam, 0)
      else if (shadowState s == 1 || shadowState s == 4) = true then some (stBusy, 0)
      else if (shadowState s == 3) = true then some (stBadState, 0) else load) = load := by
  rw [setLoad_check buffer, if_neg (by omega), if_neg (by omega)]

theorem exec_setLoad_refused {c : CmdPkt} {s : State} {i : SetInit} {st d : Nat} (runs : Runs 0x0401 .A false always c s)
    (buffer : c.indirect = true) (free : shadowState s = 0 ∨ shadowState s = 2)
    (fails : loadCheck (taken c s) (c.ind.getD []) i = some (st, d)) :
    exec (.setLoad c i) s = .next (writeReply (execOf c s) st d (taken c s)) :=
  congrArg Host.Outcome.next (runCmd_refuses_rdata runs ((setLoad_check_of_open buffer free _).trans fails))

/-- R148: the shadow is `x`, and its measurement stands at index 3. -/
def loaded (x : SetSlot) (s : State) : State :=
  let u := updSet (s.sets.epoch + 1) (fun _ => x) s
  { u with sec := { u.sec with meas := u.sec.meas.put 3 x.measure } }

theorem exec_setLoad {c : CmdPkt} {s : State} {i : SetInit} {x : SetSlot} (runs : Runs 0x0401 .A false always c s)
    (buffer : c.indirect = true) (free : shadowState s = 0 ∨ shadowState s = 2)
    (passes : loadCheck (taken c s) (c.ind.getD []) i = none) (placed : placeInits (imageSet (c.ind.getD []) i) i = some x) :
    exec (.setLoad c i) s = repliesOk c s (loaded x (taken c s)) (fld 31 0 x.setId + fld 127 64 x.measure.toNat) := by
  refine congrArg Host.Outcome.next (runCmd_done runs ((setLoad_check_of_open buffer free _).trans passes) ?_)
  simp only [placed, Option.getD_some]
  rfl

theorem loaded_spec (x : SetSlot) (s : State) :
    shadowSet (loaded x s) = x ∧ activeSet (loaded x s) = activeSet s ∧ (loaded x s).sets.epoch = s.sets.epoch ∧
      (loaded x s).sets.on = s.sets.on ∧
      loaded x s = { s with sets := (loaded x s).sets, sec := { s.sec with meas := s.sec.meas.put 3 x.measure } } := by
  obtain ⟨a, b, upd⟩ := updSet_eq (s.sets.epoch + 1) (fun _ => x) s
  have epoch : (loaded x s).sets.epoch = s.sets.epoch := by rw [loaded, upd]
  have sets (e : Nat) : setFor (loaded x s) e = setFor (updSet (s.sets.epoch + 1) (fun _ => x) s) e := rfl
  refine ⟨?_, ?_, epoch, by rw [loaded, upd], by rw [loaded, upd]⟩
  · rw [shadowSet, epoch, sets, setFor_updSet_same _ _ rfl]
  · rw [activeSet, epoch, sets, setFor_updSet_other _ _ (by omega), activeSet]

/-! SET_FIRE (R159, R165). -/

/-- The firing of SET_FIRE is armed, and announced where it is the pod's (R159, R165). -/
def fireArmedBy (c : CmdPkt) (s : State) : State :=
  let target := (s.sets.epoch + 1) % 65536
  let u := { s with sets := { s.sets with arm := some { instant := fireInstant c, target := target, pod := c.p 16 1 == 1,
                                                        initiator := c.p 16 1 == 1 } } }
  if c.p 16 1 = 1 then { u with peal := { s.peal with
    announce := some (firePayload (fireInstant c) target (shadowSet s).podGen), fireMap := [(s.peal.node, 1)] } } else u

theorem fireArmedBy_eq (c : CmdPkt) (s : State) : ∃ q, fireArmedBy c s = { s with
    sets := { s.sets with arm := some { instant := fireInstant c, target := (s.sets.epoch + 1) % 65536, pod := c.p 16 1 == 1,
                                        initiator := c.p 16 1 == 1 } }
    peal := q } ∧ (c.p 16 1 = 0 → q = s.peal) := by
  unfold fireArmedBy
  dsimp only
  split
  · next pod => exact ⟨_, rfl, fun alone => absurd (pod.symm.trans alone) (by decide)⟩
  · exact ⟨_, rfl, fun _ => rfl⟩

theorem exec_setFire {c : CmdPkt} {s : State} (runs : Runs 0x0402 .A false always c s) (valid : (fireInstant c).valid = true)
    (layout : c.p 0 16 = (fireInstant c).full) (flag : c.p 16 1 ≤ 1) (ready : shadowState s = 2)
    (near : (10000 * 2 ^ 32 : Int) ≤ DevTime.diff (fireInstant c) s.time.now)
    (far : DevTime.diff (fireInstant c) s.time.now ≤ (1000000000000 * 2 ^ 32 : Int)) (trusted : s.time.untrusted = false)
    (pod : c.p 16 1 = 1 → s.peal.member = true ∧ (shadowSet s).podGen ≠ 0 ∧
      (50000000 * 2 ^ 32 : Int) ≤ DevTime.diff (fireInstant c) s.time.now) :
    exec (.setFire c) s = repliesOk c s (fireArmedBy c (taken c s)) (fld 31 16 ((s.sets.epoch + 1) % 65536)) := by
  refine congrArg Host.Outcome.next (runCmd_done runs ?accepted ?armed)
  case accepted =>
    have ready : shadowState (taken c s) = 2 := ready
    have time : (taken c s).time = s.time := rfl
    have peal : (taken c s).peal = s.peal := rfl
    have shadow : shadowSet (taken c s) = shadowSet s := rfl
    have early : ¬ DevTime.diff (fireInstant c) s.time.now < (nsU 10000 : Int) := not_lt.2 near
    have late : ¬ DevTime.diff (fireInstant c) s.time.now > (nsU 1000000000000 : Int) := not_lt.2 far
    have whole : (c.p 16 1 == 1 && (!s.peal.member || (shadowSet s).podGen == 0 ||
        decide (DevTime.diff (fireInstant c) s.time.now < (nsU 50000000 : Int)))) = false := by
      by_cases flagged : c.p 16 1 = 1
      · obtain ⟨member, gen, ahead⟩ := pod flagged
        have ahead : ¬ DevTime.diff (fireInstant c) s.time.now < (nsU 50000000 : Int) := not_lt.2 ahead
        simp [flagged, member, gen, ahead]
      · simp [flagged]
    simp [valid, ← layout, flag, ready, time, peal, shadow, early, late, trusted, whole]
  case armed =>
    simp only [fireArmedBy, beq_iff_eq]
    rfl

/-! SET_CANCEL (R163). -/

/-- A state but for its sets and the peal bus. -/
theorem core_withSetsPeal_congr {s t : State} (h : core t = core s) (x : Sets) (q : Peal) :
    core { t with sets := x, peal := q } = core { s with sets := x, peal := q } :=
  congrArg (fun u : State => { u with sets := x, peal := q }) h

theorem withdraw_spec (reason : Nat) (s : State) : core (withdraw reason s) = core { s with sets := { s.sets with arm := none } } := by
  unfold withdraw
  split
  · next none => rw [← none]
  · exact core_postAll ..

theorem withdraw_sets (reason : Nat) (s : State) : (withdraw reason s).sets = { s.sets with arm := none } :=
  sets_of_core (withdraw_spec reason s)

theorem exec_setCancel_refuses {c : CmdPkt} {s : State} (runs : Runs 0x0403 .A false always c s)
    (late : s.sets.arm = none ∨ nearFiring s = true) : exec (.setCancel c) s = refusesWith c s stBadState := by
  have refused : ((taken c s).sets.arm.isNone || nearFiring (taken c s)) = true := by
    obtain none | near := late
    · exact Bool.or_eq_true_iff.2 (.inl (Option.isNone_iff_eq_none.2 none))
    · exact Bool.or_eq_true_iff.2 (.inr near)
  exact congrArg Host.Outcome.next (runCmd_refuses runs (if_pos refused))

/-- The peal bus at a SET_CANCEL: the initiator of a pod's firing queues FIRE_CANCEL (R563). -/
def cancelNotice (a : Arm) (s : State) : Peal :=
  if a.pod && a.initiator then { s.peal with
    announce := none, cancel := some (firePayload a.instant a.target (shadowSet s).podGen) } else s.peal

theorem exec_setCancel {c : CmdPkt} {s : State} (runs : Runs 0x0403 .A false always c s) (armed : s.sets.arm ≠ none)
    (time : nearFiring s = false) : ∃ q, exec (.setCancel c) s = repliesOk c s (withdraw 0 { taken c s with peal := q }) 0 := by
  have accepted : ((taken c s).sets.arm.isNone || nearFiring (taken c s)) = false :=
    Bool.or_eq_false_iff.2 ⟨Option.isNone_eq_false_iff.2 (Option.isSome_iff_ne_none.2 armed), time⟩
  obtain ⟨a, arm⟩ := Option.ne_none_iff_exists'.1 armed
  have arm : (taken c s).sets.arm = some a := arm
  refine ⟨cancelNotice a (taken c s), congrArg Host.Outcome.next (runCmd_done runs (if_neg (Bool.not_eq_true _ ▸ accepted)) ?_)⟩
  simp only [arm, cancelNotice]
  split <;> rfl

/-! SET_STATUS (R172). -/

theorem shadowState_lt (s : State) : shadowState s < 8 := by
  unfold shadowState
  dsimp only
  repeat' split
  all_goals decide

/-- The fields of SET_STATUS's RDATA do not overlap (R172). -/
theorem setStatus_fields {e st : Nat} (epoch : e < 2 ^ 16) (state : st < 8) (old active shadow : Nat) (on even : Bool) {r : Nat}
    (h : r = fld 127 96 old + fld 95 64 active + fld 63 32 shadow + fld 31 16 e + fld 4 2 st + fld 1 1 (bit on) + fld 0 0 (bit even)) :
    bits 31 16 r = e ∧ bits 4 2 r = st ∧ bits 1 1 r = bit on ∧ bits 15 5 r = 0 := by
  have bound (b : Bool) : bit b < 2 := by cases b <;> decide
  have on := bound on
  have even := bound even
  simp only [fld, bits, Nat.shiftLeft_eq, Nat.shiftRight_eq_div_pow] at h ⊢
  omega

theorem exec_setStatus {c : CmdPkt} {s : State} (runs : Runs 0x0404 .V false always c s) (epoch : s.sets.epoch < 2 ^ 16) :
    ∃ r, exec (.setStatus c) s = repliesOk c s (taken c s) r ∧ bits 31 16 r = s.sets.epoch ∧ bits 4 2 r = shadowState s ∧
      bits 1 1 r = bit s.sets.on ∧ bits 15 5 r = 0 := by
  refine ⟨_, congrArg Host.Outcome.next (runCmd_done runs rfl rfl), ?_⟩
  exact setStatus_fields epoch (shadowState_lt s) _ _ _ _ _ rfl

/-- Settles O24: each command by its check, and what it leaves by the one piece of the sets that it writes. -/
theorem setsAreLoadedArmedAndCancelled : Obligations.SetsAreLoadedArmedAndCancelled := by
  refine ⟨fun c i s runs buffer => ⟨exec_setLoad_busy i runs buffer, exec_setLoad_armed i runs buffer, fun free => ?load⟩,
    fun c s runs valid layout flag ready near far trusted pod => ?fire,
    fun c s runs => ⟨exec_setCancel_refuses runs, fun armed time => ?cancel⟩, fun c s runs epoch => exec_setStatus runs epoch⟩
  case load =>
    cases check : loadCheck (taken c s) (c.ind.getD []) i with
    | some r => exact exec_setLoad_refused runs buffer free check
    | none =>
      obtain ⟨x, placed⟩ := placeInits_of_loadCheck check
      obtain ⟨shadow, active, epoch, on, rest⟩ := loaded_spec x (taken c s)
      exact ⟨_, x, exec_setLoad runs buffer free check placed, placed, shadow, active, epoch, on, rest⟩
  case fire =>
    obtain ⟨q, armed, alone⟩ := fireArmedBy_eq c (taken c s)
    refine ⟨_, exec_setFire runs valid layout flag ready near far trusted pod, ?_⟩
    rw [armed]
    exact ⟨rfl, rfl, alone⟩
  case cancel =>
    obtain ⟨q, withdrawn⟩ := exec_setCancel runs armed time
    exact ⟨_, withdrawn, withdraw_sets .., core_withSetsPeal_congr (withdraw_spec ..) _ _⟩

end Sys2Proof.Machine

/-! The drain of an old epoch (R169 to R171). The clause of O25 on the drain limit fails in a state whose fragment table lists one
entry twice, and holds where the entries are listed in rising order, as `SMap.put` keeps them. -/
namespace Sys2Proof.Machine

/-! What the end of a packet writes, operation by operation. -/

theorem foldl_lanes_eq {f : State → Nat → State} (step : ∀ s n, ∃ l, f s n = { s with lanes := l }) (ns : List Nat) (s : State) :
    ∃ l, ns.foldl f s = { s with lanes := l } := by
  induction ns generalizing s with
  | nil => exact ⟨_, rfl⟩
  | cons n ns ih =>
    obtain ⟨l, one⟩ := step s n
    obtain ⟨m, rest⟩ := ih (f s n)
    exact ⟨m, by rw [List.foldl_cons, rest, one]⟩

theorem pfcNotify_eq (port : Nat) (s : State) : ∃ l, pfcNotify port s = { s with lanes := l } := by
  refine foldl_lanes_eq (fun s n => ?_) _ s
  split
  · exact ⟨_, rfl⟩
  · exact ⟨_, rfl⟩

theorem evalXoff_eq (pc : Nat) (s : State) : ∃ x l, evalXoff pc s = { s with tm := { s.tm with xoff := x }, lanes := l } := by
  have notified (x : SMap Nat) : ∃ l, pfcNotify (pc / 8) { s with tm := { s.tm with xoff := x } } =
      { s with tm := { s.tm with xoff := x }, lanes := l } := pfcNotify_eq ..
  unfold evalXoff
  dsimp only
  split
  · exact ⟨_, _, rfl⟩
  · split
    · exact ⟨_, notified _⟩
    · split
      · exact ⟨_, notified _⟩
      · exact ⟨_, _, rfl⟩

theorem evalOf_eq (x : Pkt) (s : State) : ∃ v l, evalOf x s = { s with tm := { s.tm with xoff := v }, lanes := l } := by
  unfold evalOf
  split
  · exact evalXoff_eq ..
  · exact ⟨_, _, rfl⟩

theorem txDone_eq (x : Pkt) (s : State) : ∃ f q l, txDone x s = { s with fns := f, ports := q, lanes := l } := by
  unfold txDone
  dsimp only
  repeat' split
  all_goals exact ⟨_, _, _, rfl⟩

/-- A packet that leaves is struck from the packets, and its leaving reaches the queues, ports, lanes and flow control alone (R169). -/
theorem removePkt_eq (p : Nat) (s : State) : ∃ f q l v, removePkt p s =
    { s with pkts := s.pkts.del p, fns := f, ports := q, lanes := l, tm := { s.tm with xoff := v } } := by
  obtain ⟨f, q, l, done⟩ := txDone_eq (pkt s p) { s with pkts := s.pkts.del p }
  obtain ⟨v, m, judged⟩ := evalOf_eq (pkt s p) { s with pkts := s.pkts.del p, fns := f, ports := q, lanes := l }
  exact ⟨f, q, m, v, by rw [removePkt, done, judged]⟩

/-! What the end of an epoch's packets and fragment entries leaves of the sets and of the fragment table. -/

/-- The sets and the fragment table. -/
def setsFrags (s : State) : Sets × SMap FragEntry := (s.sets, s.frags)

theorem setsFrags_of_core {s t : State} (h : core t = core s) : setsFrags t = setsFrags s :=
  congrArg₂ Prod.mk (sets_of_core h) (frags_of_core h)

@[simp] theorem setsFrags_unplace (p : Nat) (s : State) : setsFrags (unplace p s) = setsFrags s := by
  unfold unplace
  dsimp only
  split <;> rfl

@[simp] theorem setsFrags_removePkt (p : Nat) (s : State) : setsFrags (removePkt p s) = setsFrags s := by
  obtain ⟨f, q, l, v, e⟩ := removePkt_eq p s
  rw [e]
  rfl

@[simp] theorem setsFrags_holdBack (k : Nat) (s : State) : setsFrags (holdBack k s) = setsFrags s := by
  obtain ⟨v, h, e⟩ := holdBack_eq k s
  rw [e]
  rfl

@[simp] theorem setsFrags_expunge (p : Nat) (s : State) : setsFrags (expunge p s) = setsFrags s := by
  simp only [expunge, setsFrags_holdBack, setsFrags_removePkt]
  exact setsFrags_unplace ..

theorem setsFrags_foldl_expunge (l : List Nat) (s : State) :
    setsFrags (l.foldl (fun s p => if hasPkt s p then expunge p s else s) s) = setsFrags s := by
  induction l generalizing s with
  | nil => rfl
  | cons p l ih =>
    rw [List.foldl_cons, ih]
    split
    · exact setsFrags_expunge ..
    · rfl

@[simp] theorem setsFrags_wayEmptied (k : Nat) (s : State) : setsFrags (wayEmptied k s) = setsFrags s := by
  unfold wayEmptied testStarts
  dsimp only
  split
  · split
    · rfl
    · exact (setsFrags_of_core (core_finishExec ..)).trans rfl
  · rfl

/-- An entry that is freed is struck from the fragment table (R259). -/
theorem setsFrags_freeFrag (e : Nat) (s : State) : setsFrags (freeFrag e s) = (s.sets, s.frags.del e) :=
  (setsFrags_wayEmptied (e / 4096) { s with frags := s.frags.del e }).trans rfl

theorem setsFrags_foldl_freeFrag (l : List (Nat × FragEntry)) (s : State) :
    setsFrags (l.foldl (fun s f => freeFrag f.1 s) s) = (s.sets, l.foldl (fun m f => m.del f.1) s.frags) := by
  induction l generalizing s with
  | nil => rfl
  | cons f l ih =>
    obtain ⟨sets, frags⟩ := Prod.mk.inj (setsFrags_freeFrag f.1 s)
    rw [List.foldl_cons, ih, sets, frags, List.foldl_cons]

/-- The fragment table without the keys of the entries of an epoch. -/
def fragsWithout (e : Nat) (m : SMap FragEntry) : SMap FragEntry := (m.filter fun f => f.2.epoch == e).foldl (fun m f => m.del f.1) m

theorem setsFrags_dropEpoch (e : Nat) (s : State) : setsFrags (dropEpoch e s) = (s.sets, fragsWithout e s.frags) := by
  obtain ⟨sets, frags⟩ := Prod.mk.inj (setsFrags_foldl_expunge (epochPkts s e) s)
  unfold dropEpoch
  dsimp only
  rw [setsFrags_foldl_freeFrag, sets, frags, fragsWithout]

/-- Striking keys from a map without duplicate keys leaves no entry of any of them. -/
theorem SMap.Rising.foldl_del {α : Type} {m : SMap α} (h : m.Rising) (l : List (Nat × α)) :
    ∀ p ∈ l.foldl (fun m f => m.del f.1) m, p ∈ m ∧ ∀ f ∈ l, f.1 ≠ p.1 := by
  induction l generalizing m with
  | nil => exact fun p hp => ⟨hp, nofun⟩
  | cons f l ih =>
    intro p hp
    obtain ⟨left, others⟩ := ih (h.del f.1) p hp
    have struck : f.1 ≠ p.1 := fun same =>
      absurd ((SMap.has_iff_exists_mem (m.del f.1) f.1).2 ⟨p, left, same.symm⟩) (by simp [h.has_del_same])
    exact ⟨SMap.mem_of_mem_del left, List.forall_mem_cons.2 ⟨struck, others⟩⟩

theorem fragsWithout_of_rising {m : SMap FragEntry} (h : m.Rising) (e : Nat) : ∀ f ∈ fragsWithout e m, f.2.epoch ≠ e := by
  intro f hf old
  obtain ⟨listed, struck⟩ := h.foldl_del _ f hf
  exact struck f (List.mem_filter.2 ⟨listed, beq_iff_eq.2 old⟩) rfl

/-! DRAIN_LIMIT_EXPIRY (R171). -/

theorem setsFrags_endDrain (e n : Nat) (limit : Bool) (s : State) :
    setsFrags (endDrain e n limit s) = ({ s.sets with drain := none }, s.frags) := setsFrags_of_core (core_postAll ..)

theorem exec_drainLimitExpiry {s : State} {e : Nat} (drain : s.sets.drain = some e) (left : epochCount s e ≠ 0)
    (due : s.sets.drainBy ≤ s.tick) : ∃ t, exec .drainLimitExpiry s = .next t ∧
      setsFrags t = ({ s.sets with drain := none }, fragsWithout e s.frags) := by
  obtain ⟨sets, frags⟩ := Prod.mk.inj (setsFrags_dropEpoch e s)
  refine ⟨endDrain e (epochPkts s e).length true (dropEpoch e s), ?_, by rw [setsFrags_endDrain, sets, frags]⟩
  show execDrainLimitExpiry s = _
  simp [execDrainLimitExpiry, drain, left, Nat.not_lt.2 due]

/-- The clause that O25 fails on, for a fragment table that lists no entry twice: at the limit the old epoch's entries are freed. -/
theorem drainLimitExpiry_frees_of_rising {s : State} {e : Nat} (rising : s.frags.Rising) (drain : s.sets.drain = some e)
    (left : epochCount s e ≠ 0) (due : s.sets.drainBy ≤ s.tick) : ∃ t, exec .drainLimitExpiry s = .next t ∧
      t.sets = { s.sets with drain := none } ∧ ∀ f ∈ t.frags, f.2.epoch ≠ e := by
  obtain ⟨t, expires, after⟩ := exec_drainLimitExpiry drain left due
  obtain ⟨sets, frags⟩ := Prod.mk.inj after
  exact ⟨t, expires, sets, frags ▸ fragsWithout_of_rising rising e⟩

/-- Epoch 0 drains, and the fragment table lists entry 0 twice: under epoch 1, and after that under epoch 0. -/
def entryListedTwice : State :=
  { State.reset with frags := [(0, { epoch := 1 }), (0, { epoch := 0 })], sets := { drain := some 0 } }

/-- Refutes O25: it speaks of every value of State, also of one whose fragment table lists an entry twice. At the drain limit the
first of the two is struck, which is of epoch 1, and the one of the draining epoch 0 stays. -/
theorem not_aFiringMakesTheShadowActive : ¬ Obligations.AFiringMakesTheShadowActive := by
  unfold Obligations.AFiringMakesTheShadowActive
  rintro ⟨-, -, -, -, limit⟩
  have left : epochCount entryListedTwice 0 ≠ 0 := by decide +kernel
  obtain ⟨t, expires, -, freed⟩ := limit entryListedTwice 0 rfl left (Nat.zero_le _)
  obtain ⟨u, runs, after⟩ := exec_drainLimitExpiry (s := entryListedTwice) rfl left (Nat.zero_le _)
  cases expires.symm.trans runs
  have stays : t.frags = [(0, { epoch := 0 })] := (Prod.mk.inj after).2
  exact freed (0, { epoch := 0 }) (stays ▸ List.mem_singleton_self _) rfl

end Sys2Proof.Machine

/-! The end of a lookup (R278). The clause of O40 on a miss names no packet that is in the adapter, and holds of those alone. -/
namespace Sys2Proof.Machine

@[simp] theorem pkt_setPkt_same {s : State} {p : Nat} (here : hasPkt s p = true) (f : Pkt → Pkt) : pkt (setPkt p f s) p = f (pkt s p) := by
  have listed : s.pkts.has p = true := here
  rw [setPkt, if_pos listed]
  exact SMap.get_upd_same ..

theorem hasPkt_setPkt {s : State} {p : Nat} (here : hasPkt s p = true) (f : Pkt → Pkt) : hasPkt (setPkt p f s) p = true := by
  have listed : s.pkts.has p = true := here
  rw [setPkt, if_pos listed]
  simp [hasPkt, SMap.upd, SMap.has_put]

/-- A packet that is not in the adapter does not change. -/
theorem setPkt_of_gone {s : State} {p : Nat} (gone : hasPkt s p = false) (f : Pkt → Pkt) : setPkt p f s = s := by
  have unlisted : s.pkts.has p = false := gone
  rw [setPkt, unlisted]
  rfl

/-- A miss leaves its table and KEY_HASH, and puts the miss action last of what is to be run (R278). -/
theorem useResult_miss (p d t inst stage hash : Nat) (s : State) : useResult p d t inst stage .miss hash s =
    setPkt p (fun x => { x with
      work := x.work ++ actionWork (setFor s (pkt s p).epoch) x.pipe (tMiss d) stage (tMissData d) true })
      (setPkt p (fun x => { x with lastTable := tId d, lastHash := hash }) s) := rfl

/-- The clause that O40 fails on, for a packet that is in the adapter. -/
theorem pkt_useResult_miss {s : State} {p : Nat} (here : hasPkt s p = true) (d t inst stage hash : Nat) :
    (pkt (useResult p d t inst stage .miss hash s) p).lastTable = tId d ∧
      (pkt (useResult p d t inst stage .miss hash s) p).lastHash = hash ∧
      (pkt (useResult p d t inst stage .miss hash s) p).work = (pkt s p).work ++
        actionWork (setFor s (pkt s p).epoch) (pkt s p).pipe (tMiss d) stage (tMissData d) true := by
  rw [useResult_miss, pkt_setPkt_same (hasPkt_setPkt here _), pkt_setPkt_same here]
  exact ⟨rfl, rfl, rfl⟩

theorem useResult_miss_of_gone {s : State} {p : Nat} (gone : hasPkt s p = false) (d t inst stage hash : Nat) :
    useResult p d t inst stage .miss hash s = s := by
  rw [useResult_miss, setPkt_of_gone gone, setPkt_of_gone gone]

/-- Refutes O40: its clause on a miss speaks of every packet number, also of one that no packet in the adapter has. After reset a
lookup of packet 0 in table 1 changes nothing, and the LAST_TABLE that is read for packet 0 stays 0. -/
theorem not_passesParseAndEndFrames : ¬ Obligations.PassesParseAndEndFrames := by
  unfold Obligations.PassesParseAndEndFrames
  rintro ⟨-, -, -, -, -, -, -, -, -, -, -, -, -, -, miss⟩
  obtain ⟨table, -, -⟩ := miss State.reset 0 1 0 0 0 0
  rw [useResult_miss_of_gone rfl] at table
  exact absurd table (by decide +kernel)

end Sys2Proof.Machine

/-! Announced firings (R165, R166, R173). The clause of O56 on FIRE_ANNOUNCE arms for a POD_GEN of 0, which the adapter refuses with
GEN_MISMATCH. -/
namespace Sys2Proof.Machine

/-! A contender that waits again draws its wait anew, and keeps the rest (R546). -/

theorem restartContend_sets (s : State) : (restartContend s).sets = s.sets := by unfold restartContend; split <;> rfl
theorem restartContend_time (s : State) : (restartContend s).time = s.time := by unfold restartContend; split <;> rfl
theorem restartContend_node (s : State) : (restartContend s).peal.node = s.peal.node := by unfold restartContend; split <;> rfl

/-- A valid frame of another node, for this node or for all, is observed and then acted on; observing it changes neither the sets nor
the time (R540, R547). -/
theorem pealRx_heard {type : Nat} {b : List Byte} {s : State} (h : hears type b s) (us : forUs b s) (act : State → State) :
    ∃ u, pealRx type b false act s = act u ∧ u.sets = s.sets ∧ u.time = s.time := by
  obtain ⟨enabled, valid, other⟩ := h
  have addressed (u : State) (node : u.peal.node = s.peal.node) : (fDst b / 2 ^ 15 == 1 || fDst b == u.peal.node) = true := by
    simpa [forUs, node] using us
  unfold pealRx
  rw [if_neg (by simp [enabled])]
  dsimp only
  rw [if_neg (by simp [valid]), if_neg (by simp [setPeal, other])]
  refine ⟨_, if_pos (addressed _ ?_), restartContend_sets _, restartContend_time _⟩
  exact restartContend_node _

/-- A peer arms itself for an announced firing exactly where its shadow is READY with the announced POD_GEN, which is not 0, the target
has the parity of its EPOCH + 1, and 10 µs are left (R166, R173). -/
theorem announceReason_eq_none_iff {s : State} {b : List Byte} : announceReason s b = none ↔
    shadowState s = 2 ∧ annGen b ≠ 0 ∧ (shadowSet s).podGen = annGen b ∧ annTarget b % 2 = (s.sets.epoch + 1) % 2 ∧
      10000 * 2 ^ 32 ≤ DevTime.diff (annInstant b) s.time.now := by
  have late : DevTime.diff (annInstant b) s.time.now < (nsU 10000 : Int) ↔ ¬ 10000 * 2 ^ 32 ≤ DevTime.diff (annInstant b) s.time.now :=
    not_le.symm
  simp [announceReason, late, ite_eq_iff, and_assoc]

/-- The reason why a peer does not arm itself rests on its sets and its time alone. -/
theorem announceReason_congr {s u : State} {b : List Byte} (sets : u.sets = s.sets) (time : u.time = s.time) :
    announceReason u b = announceReason s b := by
  simp [announceReason, shadowState, shadowSet, setFor, sets, time]

/-- A FIRE_ANNOUNCE that is heard is answered as `announceReason` says of the state that it reached (R166). -/
theorem exec_fireAnnounce {s : State} {b : List Byte} (h : hears 0x10 b s) (us : forUs b s) :
    ∃ t, exec (.fireAnnounce b false) s = .next t ∧ t.sets.arm =
      if announceReason s b = none then some { instant := annInstant b, target := annTarget b, pod := true } else s.sets.arm := by
  obtain ⟨u, heard, sets, time⟩ := pealRx_heard h us _
  refine ⟨_, congrArg Host.Outcome.next heard, ?_⟩
  dsimp only
  rw [announceReason_congr sets time, ← sets]
  cases announceReason s b with
  | none => dsimp only; split <;> rfl
  | some c => dsimp only; split <;> simp [postCancelled, setPeal]

/-- A FIRE_ANNOUNCE of node 1 to every node: the firing at 1 s of epoch 1, with POD_GEN 0. -/
def zeroGenAnnouncement : List Byte :=
  let body := bytesOf 2 1 ++ bytesOf 2 bcast ++ [22, 0] ++ firePayload { sec := 1 } 1 0
  body ++ bytesOf 4 (pealCrc 0x10 body)

/-- Node 2 on the bus at time 0, its shadow READY with a set of POD_GEN 0. -/
def readyWithZeroGen : State :=
  { State.reset with peal := { enabled := true, node := 2 }, sets := { a := { valid := true } } }

theorem zeroGenAnnouncement_heard : hears 0x10 zeroGenAnnouncement readyWithZeroGen :=
  ⟨rfl, by decide +kernel, by decide +kernel⟩

/-- Refutes O56: a FIRE_ANNOUNCE with POD_GEN 0 that meets a READY shadow of POD_GEN 0 is refused with GEN_MISMATCH (R173), where its
clause, which does not ask for a nonzero POD_GEN, says that the node arms itself. -/
theorem not_pealCommandsAndFirings : ¬ Obligations.PealCommandsAndFirings := by
  unfold Obligations.PealCommandsAndFirings
  rintro ⟨-, -, -, -, -, announce, -⟩
  have us : forUs zeroGenAnnouncement readyWithZeroGen := .inl (by decide +kernel)
  have noGen : annGen zeroGenAnnouncement = 0 := by decide +kernel
  have refused : announceReason readyWithZeroGen zeroGenAnnouncement ≠ none := by
    rw [Ne, announceReason_eq_none_iff]
    exact fun ⟨_, nonzero, _⟩ => nonzero noGen
  obtain ⟨t, step, -, -, -, arms, -⟩ := announce _ _ zeroGenAnnouncement_heard us
  obtain ⟨t', step', unarmed⟩ := exec_fireAnnounce zeroGenAnnouncement_heard us
  obtain rfl : t = t' := by simpa using step.symm.trans step'
  have armed := arms ⟨by decide +kernel, by decide +kernel, by decide +kernel, by decide +kernel⟩
  rw [if_neg refused, armed] at unarmed
  cases unarmed

end Sys2Proof.Machine

/-! Priority-flow-control frames (R219, R220). The clause of O36 on a time of 0 fails for a lane that lists one priority's pause twice,
and holds where the pauses are listed in rising order, as `SMap.put` keeps them. -/
namespace Sys2Proof.Machine

/-! What counting and striking leave. -/

theorem cntGet_countN_same (c : Cnt) (i k : Nat) (s : State) : cntGet (countN c i k s) c i =
    if c.shape.2 then satAdd c.shape.1 (cntGet s c i) k else wrapAdd c.shape.1 (cntGet s c i) k := by
  simp [cntGet, countN]

theorem cntGet_countN_of_ne {c d : Cnt} {i j : Nat} (k : Nat) (s : State) (other : d ≠ c ∨ j ≠ i) :
    cntGet (countN c i k s) d j = cntGet s d j := by
  have first : (c == d && i == j) = false := by
    rcases other with h | h <;> simp [h.symm]
  have kept (e : Cnt × Nat × Nat) : decide ((!(e.1 == c && e.2.1 == i)) = true ∧ (e.1 == d && e.2.1 == j) = true) =
      (e.1 == d && e.2.1 == j) := by
    by_cases h : (e.1 == d && e.2.1 == j) = true
    · obtain ⟨rfl, rfl⟩ : e.1 = d ∧ e.2.1 = j := by simpa using h
      rcases other with h | h <;> simp [h]
    · simp [Bool.eq_false_iff.2 h]
  simp only [cntGet, countN, List.find?_cons, first, List.find?_filter, kept]

theorem SMap.get_del_ne {α : Type} [Inhabited α] (m : SMap α) {k j : Nat} (h : k ≠ j) : (m.del k).get j = m.get j := by
  induction m with
  | nil => rfl
  | cons c m ih =>
    unfold SMap.del
    split
    · next e => simp [SMap.get, e, h]
    · simp only [SMap.get, ih]

theorem SMap.has_del_ne {α : Type} (m : SMap α) {k j : Nat} (h : k ≠ j) : (m.del k).has j = m.has j := by
  induction m with
  | nil => rfl
  | cons c m ih =>
    unfold SMap.del
    split
    · next e => simp [SMap.has, e, h]
    · simp only [SMap.has, ih]

/-! The pauses that a frame leaves of a lane's pauses. -/

/-- A pause of each priority of a list, ended at once where its time is 0 (R220). -/
def pausesAfter (s : State) (ts ps : List Nat) (m : SMap Nat) : SMap Nat :=
  ps.foldl (fun m p => if ts.getD p 0 == 0 then m.del p else m.put p (pauseEnd s (ts.getD p 0 % 65536))) m

theorem pausesAfter_cons (s : State) (ts : List Nat) (q : Nat) (ps : List Nat) (m : SMap Nat) : pausesAfter s ts (q :: ps) m =
    pausesAfter s ts ps (if ts.getD q 0 == 0 then m.del q else m.put q (pauseEnd s (ts.getD q 0 % 65536))) := rfl

theorem pausesAfter_of_notMem (s : State) (ts : List Nat) {ps : List Nat} {p : Nat} (unnamed : p ∉ ps) (m : SMap Nat) :
    (pausesAfter s ts ps m).get p = m.get p ∧ (pausesAfter s ts ps m).has p = m.has p := by
  induction ps generalizing m with
  | nil => exact ⟨rfl, rfl⟩
  | cons q ps ih =>
    obtain ⟨ne, unnamed⟩ := not_or.1 (List.mem_cons.not.1 unnamed)
    obtain ⟨get, has⟩ := ih unnamed (if ts.getD q 0 == 0 then m.del q else m.put q (pauseEnd s (ts.getD q 0 % 65536)))
    rw [pausesAfter_cons, get, has]
    split
    · exact ⟨m.get_del_ne (Ne.symm ne), m.has_del_ne (Ne.symm ne)⟩
    · exact ⟨m.get_put_ne _ (Ne.symm ne), by simp [SMap.has_put, Ne.symm ne]⟩

theorem pausesAfter_get (s : State) {ts ps : List Nat} {p : Nat} (named : p ∈ ps) (time : ts.getD p 0 ≠ 0) (m : SMap Nat) :
    (pausesAfter s ts ps m).get p = pauseEnd s (ts.getD p 0 % 65536) := by
  induction ps generalizing m with
  | nil => exact absurd named List.not_mem_nil
  | cons q ps ih =>
    rw [pausesAfter_cons]
    by_cases later : p ∈ ps
    · exact ih later _
    · obtain rfl : p = q := (List.mem_cons.1 named).resolve_right later
      rw [(pausesAfter_of_notMem s ts later _).1, if_neg (by simpa using time), SMap.get_put_same]

theorem pausesAfter_has_of_rising (s : State) {ts ps : List Nat} {p : Nat} (named : p ∈ ps) (time : ts.getD p 0 = 0) {m : SMap Nat}
    (rising : m.Rising) : (pausesAfter s ts ps m).has p = false := by
  induction ps generalizing m with
  | nil => exact absurd named List.not_mem_nil
  | cons q ps ih =>
    rw [pausesAfter_cons]
    by_cases later : p ∈ ps
    · exact ih later (by split; exacts [rising.del q, rising.put q _])
    · obtain rfl : p = q := (List.mem_cons.1 named).resolve_right later
      rw [(pausesAfter_of_notMem s ts later _).2, if_pos (by simpa using time), rising.has_del_same]

/-! PFC_FRAME_RECEIVED. -/

/-- The priorities that a frame names and that a lane has enabled. -/
def pfcNamed (s : State) (n : Nat) (v : BitVec 8) : List Nat := (List.range 8).filter fun p => v.getLsbD p && pfcEn (activeSet s) n p

theorem mem_pfcNamed {s : State} {n p : Nat} {v : BitVec 8} :
    p ∈ pfcNamed s n v ↔ p < 8 ∧ v.getLsbD p = true ∧ pfcEn (activeSet s) n p = true := by simp [pfcNamed]

theorem exec_pfcFrameReceived {s : State} {n : Fin 1024} {v : BitVec 8} (ts : List Nat) (hears : laneHears s n = true)
    (here : pfcLane s n = true) (named : pfcNamed s n v ≠ []) : exec (.pfcFrameReceived n v ts) s =
      .next (setLane n (fun l => { l with pause := pausesAfter s ts (pfcNamed s n v) l.pause })
        (count .lanePfcRx n (count .laneRxFrames n s))) := by
  show execPfcFrameReceived n v ts s = _
  rw [execPfcFrameReceived, hears, here, Bool.and_self, if_pos rfl]
  exact congrArg Host.Outcome.next (if_neg (by simpa [pfcNamed] using named))

/-- The clause that O36 fails on, for a lane that lists no priority's pause twice. -/
theorem pfcFrameReceived_of_rising {s : State} {n : Fin 1024} {v : BitVec 8} (ts : List Nat) (hears : laneHears s n = true)
    (here : pfcLane s n = true) (rising : (lane s n).pause.Rising) {p : Nat} (lt : p < 8) (bit : v.getLsbD p = true)
    (enabled : pfcEn (activeSet s) n p = true) (zero : ts.getD p 0 = 0) :
    ∃ t, exec (.pfcFrameReceived n v ts) s = .next t ∧ (lane t n).pause.has p = false := by
  have named : p ∈ pfcNamed s n v := mem_pfcNamed.2 ⟨lt, bit, enabled⟩
  refine ⟨_, exec_pfcFrameReceived ts hears here (List.ne_nil_of_mem named), ?_⟩
  rw [lane, setLane, SMap.get_upd_same]
  exact pausesAfter_has_of_rising s named zero rising

/-- Lane 1 is ACTIVE, has priority 0 enabled for pauses, and lists the pause of that priority twice. -/
def pauseListedTwice : State :=
  { State.reset with
    pwr := { ckLocked := true, released := true }
    sets := { on := true, b := { secs := [{ type := 7, inst := 0xFF, data := List.replicate 14 0 ++ [8, 0] }] } }
    lanes := [(1, { state := 3, pause := [(0, 9), (0, 9)] })] }

/-- Refutes O36: it speaks of every value of State, also of one whose lane lists a priority's pause twice. A frame that names
priority 0 with a time of 0 strikes the first of the two, and the priority is listed as paused still. -/
theorem not_pausesHoldTheirClasses : ¬ Obligations.PausesHoldTheirClasses := by
  unfold Obligations.PausesHoldTheirClasses
  rintro ⟨received, -⟩
  have hears : laneHears pauseListedTwice (1 : Fin 1024) = true := by decide +kernel
  have here : pfcLane pauseListedTwice (1 : Fin 1024) = true := by decide +kernel
  have enabled : pfcEn (activeSet pauseListedTwice) (1 : Fin 1024) 0 = true := by decide +kernel
  obtain ⟨heard, -⟩ := received pauseListedTwice 1 1#8 [] hears here
  obtain ⟨t, takes, -, -, pauses⟩ := heard ⟨0, by decide, rfl, enabled⟩
  have resumed := (pauses 0 (by decide)).2.1 ⟨rfl, enabled⟩ rfl
  rw [exec_pfcFrameReceived [] hears here (List.ne_nil_of_mem (mem_pfcNamed.2 ⟨by decide, rfl, enabled⟩))] at takes
  cases takes
  exact absurd resumed (by decide +kernel)

end Sys2Proof.Machine

/-! Lanes (R36, R176, R200): what the end of a packet, the move of a queue and the loss of a frame leave of each lane. -/
namespace Sys2Proof.Machine

theorem setPkt_eq (p : Nat) (f : Pkt → Pkt) (s : State) : ∃ m, setPkt p f s = { s with pkts := m } := by
  unfold setPkt
  split <;> exact ⟨_, rfl⟩

@[simp] theorem setPkt_lanes (p : Nat) (f : Pkt → Pkt) (s : State) : (setPkt p f s).lanes = s.lanes := by
  obtain ⟨m, e⟩ := setPkt_eq p f s
  rw [e]

@[simp] theorem count_lanes (c : Cnt) (i : Nat) (s : State) : (count c i s).lanes = s.lanes := rfl

theorem fragFate_eq (x : Pkt) (fate reason : Nat) (s : State) : ∃ m, fragFate x fate reason s = { s with frags := m } := by
  unfold fragFate
  split
  · exact ⟨_, rfl⟩
  · split <;> exact ⟨_, rfl⟩

@[simp] theorem fragFate_lanes (x : Pkt) (fate reason : Nat) (s : State) : (fragFate x fate reason s).lanes = s.lanes := by
  obtain ⟨m, e⟩ := fragFate_eq x fate reason s
  rw [e]

/-! ## A lane without what flow control and stamps write of it -/

/-- A lane without the flow-control frame that waits on it and its stamp entries. -/
def Lane.bare (l : Lane) : Lane := { l with pfc := none, stamps := 0 }

/-- Every lane, so. -/
def bareLanes (s : State) : Nat → Lane := fun n => (lane s n).bare

theorem bareLanes_of_lanes {s t : State} (h : t.lanes = s.lanes) : bareLanes t = bareLanes s := by
  unfold bareLanes lane
  rw [h]

@[simp] theorem lane_setLane_same (n : Nat) (f : Lane → Lane) (s : State) : lane (setLane n f s) n = f (lane s n) := SMap.get_upd_same ..

theorem bareLanes_setLane (n : Nat) (f : Lane → Lane) (s : State) :
    bareLanes (setLane n f s) = Function.update (bareLanes s) n (f (lane s n)).bare := by
  funext j
  by_cases e : n = j
  · rw [← e, Function.update_self, bareLanes, lane_setLane_same]
  · rw [Function.update_of_ne (Ne.symm e), bareLanes, lane, setLane, SMap.get_upd_ne _ _ e]
    rfl

theorem bareLanes_setLane_pfc (n : Nat) (f : Lane → Option (List Nat)) (s : State) :
    bareLanes (setLane n (fun l => { l with pfc := f l }) s) = bareLanes s :=
  (bareLanes_setLane ..).trans (Function.update_eq_self n (bareLanes s))

theorem bareLanes_setLane_stamps (n : Nat) (f : Lane → Nat) (s : State) :
    bareLanes (setLane n (fun l => { l with stamps := f l }) s) = bareLanes s :=
  (bareLanes_setLane ..).trans (Function.update_eq_self n (bareLanes s))

@[simp] theorem bareLanes_emit (o : Output) (s : State) : bareLanes (emit o s) = bareLanes s := rfl
@[simp] theorem bareLanes_count (c : Cnt) (i : Nat) (s : State) : bareLanes (count c i s) = bareLanes s := rfl
@[simp] theorem bareLanes_setPkt (p : Nat) (f : Pkt → Pkt) (s : State) : bareLanes (setPkt p f s) = bareLanes s :=
  bareLanes_of_lanes (setPkt_lanes ..)
@[simp] theorem bareLanes_fragFate (x : Pkt) (fate reason : Nat) (s : State) : bareLanes (fragFate x fate reason s) = bareLanes s :=
  bareLanes_of_lanes (fragFate_lanes ..)
@[simp] theorem bareLanes_postAll (code region data : Nat) (s : State) : bareLanes (postAll code region data s) = bareLanes s :=
  bareLanes_of_lanes (postAll_lanes ..)

@[simp] theorem bareLanes_pfcNotify (port : Nat) (s : State) : bareLanes (pfcNotify port s) = bareLanes s := by
  unfold pfcNotify
  induction portLanes (activeSet s) port generalizing s with
  | nil => rfl
  | cons n ns ih =>
    rw [List.foldl_cons]
    refine (ih _).trans ?_
    split
    · exact bareLanes_setLane_pfc ..
    · rfl

@[simp] theorem bareLanes_evalXoff (pc : Nat) (s : State) : bareLanes (evalXoff pc s) = bareLanes s := by
  unfold evalXoff
  dsimp only
  split
  · rfl
  · split
    · exact bareLanes_pfcNotify ..
    · split
      · exact bareLanes_pfcNotify ..
      · rfl

@[simp] theorem bareLanes_evalOf (x : Pkt) (s : State) : bareLanes (evalOf x s) = bareLanes s := by
  unfold evalOf
  split
  · exact bareLanes_evalXoff ..
  · rfl

@[simp] theorem bareLanes_txDone (x : Pkt) (s : State) : bareLanes (txDone x s) = bareLanes s := by
  unfold txDone
  dsimp only
  split
  · rfl
  · split
    · rfl
    · split
      · rw [bareLanes_setLane_stamps]
        split <;> rfl
      · split <;> rfl

@[simp] theorem bareLanes_removePkt (p : Nat) (s : State) : bareLanes (removePkt p s) = bareLanes s := by
  rw [removePkt, bareLanes_evalOf, bareLanes_txDone]
  rfl

@[simp] theorem bareLanes_dropPkt (p : Nat) (s : State) : bareLanes (dropPkt p s) = bareLanes s := by
  rw [dropPkt, bareLanes_removePkt, bareLanes_fragFate]

@[simp] theorem bareLanes_losePkt (p : Nat) (s : State) : bareLanes (losePkt p s) = bareLanes s := by
  unfold losePkt
  dsimp only
  split <;> simp

@[simp] theorem bareLanes_flushFrame (n p : Nat) (s : State) : bareLanes (flushFrame n p s) = bareLanes s := by
  simp [flushFrame]

/-! ## Queues -/

/-- Of every lane but `n`, and of all but the queues of `n`, `t` has what `s` has. -/
def Requeues (n : Nat) (s t : State) : Prop :=
  ∃ q, bareLanes t = Function.update (bareLanes s) n { bareLanes s n with queues := q }

theorem Requeues.of_bare {n : Nat} {s t : State} (h : bareLanes t = bareLanes s) : Requeues n s t :=
  ⟨_, h.trans (Function.update_eq_self n (bareLanes s)).symm⟩

theorem Requeues.trans {n : Nat} {s t u : State} (h : Requeues n s t) (g : Requeues n t u) : Requeues n s u := by
  obtain ⟨q, h⟩ := h
  obtain ⟨r, g⟩ := g
  exact ⟨r, by rw [g, h, Function.update_idem, Function.update_self]⟩

theorem Requeues.other {n j : Nat} {s t : State} (h : Requeues n s t) (ne : j ≠ n) : bareLanes t j = bareLanes s j := by
  obtain ⟨q, h⟩ := h
  rw [h, Function.update_of_ne ne]

theorem Requeues.same {n : Nat} {s t : State} (h : Requeues n s t) : ∃ q, bareLanes t n = { bareLanes s n with queues := q } := by
  obtain ⟨q, h⟩ := h
  exact ⟨q, by rw [h, Function.update_self]⟩

theorem requeues_setLane (n : Nat) (f : Lane → SMap (List Nat)) (s : State) :
    Requeues n s (setLane n (fun l => { l with queues := f l }) s) := ⟨_, bareLanes_setLane ..⟩

theorem requeues_judgeHead (n c k : Nat) (s : State) : Requeues n s (judgeHead n c k s) := by
  induction k generalizing s with
  | zero => exact .of_bare rfl
  | succ k ih =>
    unfold judgeHead
    split
    · exact .of_bare rfl
    · split
      · exact .of_bare rfl
      · split
        · exact .of_bare rfl
        · split
          · exact .of_bare (bareLanes_setPkt ..)
          · split
            · refine ((requeues_setLane n (fun l => l.queues.upd c (·.drop 1)) s).trans (.of_bare ?_)).trans (ih _)
              rw [bareLanes_dropPkt, bareLanes_count]
            · split
              · exact .of_bare (bareLanes_setPkt ..)
              · exact .of_bare (bareLanes_setPkt ..)

theorem requeues_judgeHeads (n : Nat) (s : State) : Requeues n s (judgeHeads n s) := by
  unfold judgeHeads
  induction List.range 8 generalizing s with
  | nil => exact .of_bare rfl
  | cons c cs ih => exact (requeues_judgeHead n c _ s).trans (ih _)

theorem requeues_enqueue (p n c : Nat) (s : State) : Requeues n s (enqueue p n c s) := by
  have marked : Requeues n s (ecnMark p n c s) := by
    unfold ecnMark
    dsimp only
    split
    · exact .of_bare (bareLanes_setPkt ..)
    · exact .of_bare rfl
  refine (marked.trans (requeues_setLane n (fun l => l.queues.upd c (· ++ [p])) _)).trans (.trans ?_ (requeues_judgeHead n c 1 _))
  exact .of_bare (bareLanes_setPkt ..)

/-! ## Substitution (R200) -/

section
variable {n : Nat} {sub : Option Nat} (other : sub ≠ some n)
include other

theorem bareLanes_moveQueue (c : Nat) (ps : List Nat) (s : State) : bareLanes (moveQueue n sub c ps s) n = bareLanes s n := by
  induction ps generalizing s with
  | nil => rfl
  | cons p ps ih =>
    unfold moveQueue
    cases sub with
    | none => exact (ih _).trans (congrFun (bareLanes_flushFrame ..) n)
    | some m => exact (ih _).trans ((requeues_enqueue p m c s).other fun e => other (e ▸ rfl))

theorem bareLanes_moveQueues (qs : SMap (List Nat)) (s : State) :
    bareLanes (qs.foldl (fun s q => moveQueue n sub q.1 q.2 s) s) n = bareLanes s n := by
  induction qs generalizing s with
  | nil => rfl
  | cons q qs ih => exact (ih _).trans (bareLanes_moveQueue other ..)

omit other in
theorem bareLanes_moveCommitted (ps : List Nat) (s : State) : bareLanes (moveCommitted n sub ps s) = bareLanes s := by
  induction ps generalizing s with
  | nil => rfl
  | cons p ps ih =>
    unfold moveCommitted
    cases sub with
    | none => exact (ih _).trans (bareLanes_flushFrame ..)
    | some m => exact (ih _).trans (bareLanes_setPkt ..)
end

/-- A lane that is not ACTIVE is no substitute of itself. -/
theorem substitute_ne {n : Nat} {s : State} (down : laneActive s n = false) (l : List (Nat × Nat)) :
    (l.find? fun e => laneActive s e.2).map (·.2) ≠ some n := by
  intro found
  obtain ⟨e, first, rfl⟩ := Option.map_eq_some_iff.1 found
  exact absurd (List.find?_some first) (by simp [down])

/-- Substitution leaves the queues of the lane empty, and all else of it. -/
theorem bareLanes_substitute {n : Nat} {s : State} (down : laneActive s n = false) :
    bareLanes (substitute n s) n = { bareLanes s n with queues := [] } := by
  have emptied : bareLanes (setLane n (fun l => { l with queues := [] }) s) n = { bareLanes s n with queues := [] } := by
    rw [bareLanes_setLane, Function.update_self]
    rfl
  have down' : laneActive (setLane n (fun l => { l with queues := [] }) s) n = false := by
    rw [laneActive, lane_setLane_same]
    exact down
  unfold substitute
  dsimp only
  rw [bareLanes_moveCommitted, bareLanes_moveQueues (substitute_ne down' _), emptied]

/-! ## The frame that a lane sends, and the one that it receives (R36, R175) -/

theorem bareLanes_truncate (n : Nat) (s : State) : bareLanes (truncate n s) n = { bareLanes s n with cur := none } := by
  unfold truncate
  split
  · next idle =>
    show _ = { (lane s n).bare with cur := none }
    rw [← idle]
    rfl
  · rw [bareLanes_losePkt, bareLanes_count, bareLanes_emit, bareLanes_setLane, Function.update_self]
    rfl

@[simp] theorem updSet_lanes (e : Nat) (f : SetSlot → SetSlot) (s : State) : (updSet e f s).lanes = s.lanes := by
  obtain ⟨a, b, h⟩ := updSet_eq e f s
  rw [h]

theorem applyEffect_lanes (e : Effect) (s : State) : (applyEffect e s).lanes = s.lanes := by
  cases e with
  | count => exact updSet_lanes ..
  | hit => exact updSet_lanes ..
  | learn => rfl
  | pipeCount => rfl

theorem commitEffects_lanes (p : Nat) (s : State) : (commitEffects p s).lanes = s.lanes := by
  unfold commitEffects
  dsimp only
  refine Eq.trans ?_ (setPkt_lanes p (fun x => { x with effects := [], refunds := [] }) s)
  generalize setPkt p _ s = u
  induction (pkt s p).effects generalizing u with
  | nil => rfl
  | cons e es ih => exact (ih _).trans (applyEffect_lanes ..)

/-- A policer charge of a discarded frame is returned. -/
def chargeReturned (s : State) (r : Nat × Nat × Nat) : State :=
  let t := policerTokens s r.1
  { s with tm := { s.tm with policers := s.tm.policers.put r.1 (t.1 + r.2.1, t.2 + r.2.2) } }

theorem foldl_chargeReturned_eq (l : List (Nat × Nat × Nat)) (s : State) : ∃ t, l.foldl chargeReturned s = { s with tm := t } := by
  induction l generalizing s with
  | nil => exact ⟨_, rfl⟩
  | cons r l ih => exact ih (chargeReturned s r)

theorem undoFrame_eq (p : Nat) (s : State) : ∃ t m, undoFrame p s = { s with tm := t, pkts := m } := by
  obtain ⟨t, returned⟩ := foldl_chargeReturned_eq (pkt s p).refunds s
  obtain ⟨m, e⟩ := setPkt_eq p (fun x => { x with effects := [], refunds := [] }) { s with tm := t }
  exact ⟨t, m, (congrArg (setPkt p fun x => { x with effects := [], refunds := [] }) returned).trans e⟩

theorem undoFrame_lanes (p : Nat) (s : State) : (undoFrame p s).lanes = s.lanes := by
  obtain ⟨t, m, e⟩ := undoFrame_eq p s
  rw [e]

/-- What lane `m` sends ends: of lane `n` that writes the queues and the frame that it sends, if anything. -/
theorem bareLanes_setLane_sent (m n : Nat) (f : Lane → Option Nat) (g : Lane → SMap (List Nat)) (s : State) :
    ∃ c q, bareLanes (setLane m (fun l => { l with cur := f l, queues := g l }) s) n = { bareLanes s n with cur := c, queues := q } := by
  rw [bareLanes_setLane]
  by_cases e : n = m
  · rw [e, Function.update_self]
    exact ⟨_, _, rfl⟩
  · rw [Function.update_of_ne e]
    exact ⟨_, _, rfl⟩

/-- A lane whose receiver breaks receives no frame; a frame that cut-through sends on may end with it. -/
theorem bareLanes_killRx (n : Nat) (s : State) :
    ∃ c q, bareLanes (killRx n s) n = { bareLanes s n with rx := none, cur := c, queues := q } := by
  have ended {u : State} (h : ∃ c q, bareLanes u n = { bareLanes (setLane n (fun l => { l with rx := none }) s) n with cur := c, queues := q }) :
      ∃ c q, bareLanes u n = { bareLanes s n with rx := none, cur := c, queues := q } := by
    obtain ⟨c, q, h⟩ := h
    rw [bareLanes_setLane, Function.update_self] at h
    exact ⟨c, q, h⟩
  unfold killRx
  split
  · next idle => exact ⟨_, _, by rw [← idle]; rfl⟩
  · dsimp only
    split
    · exact ended ⟨_, _, rfl⟩
    · split
      · rw [bareLanes_removePkt]
        obtain ⟨c, q, h⟩ := bareLanes_setLane_sent _ n (fun _ => none) Lane.queues _
        exact ended ⟨c, q, h.trans (by rw [bareLanes_emit, bareLanes_count, bareLanes_of_lanes (commitEffects_lanes ..)])⟩
      · split
        · rw [bareLanes_removePkt, bareLanes_count]
          obtain ⟨c, q, h⟩ := bareLanes_setLane_sent _ n Lane.cur _ _
          exact ended ⟨c, q, h.trans (by rw [bareLanes_of_lanes (commitEffects_lanes ..)])⟩
        · rw [bareLanes_removePkt, bareLanes_of_lanes (undoFrame_lanes ..)]
          exact ended ⟨_, _, rfl⟩
      · rw [bareLanes_removePkt, bareLanes_of_lanes (undoFrame_lanes ..)]
        exact ended ⟨_, _, rfl⟩

end Sys2Proof.Machine

/-! Lanes that go down, return, park and wake (R176, R177, R222 to R225), and what the lane commands reply (R205, R228). -/
namespace Sys2Proof.Machine

/-! ## The sections of the sets, which no end of a frame writes -/

/-- Whether a set is active, EPOCH, and the sections of both sets. -/
def setSections (s : State) : Bool × Nat × List Section × List Section := (s.sets.on, s.sets.epoch, s.sets.a.secs, s.sets.b.secs)

theorem setSections_of_sets {s t : State} (h : t.sets = s.sets) : setSections t = setSections s := by rw [setSections, h, setSections]

theorem setSections_updSet {f : SetSlot → SetSlot} (h : ∀ x, (f x).secs = x.secs) (e : Nat) (s : State) :
    setSections (updSet e f s) = setSections s := by
  unfold updSet
  split <;> simp [setSections, h]

theorem setSections_setPkt (p : Nat) (f : Pkt → Pkt) (s : State) : setSections (setPkt p f s) = setSections s := by
  obtain ⟨m, e⟩ := setPkt_eq p f s
  rw [e]
  rfl

theorem setSections_removePkt (p : Nat) (s : State) : setSections (removePkt p s) = setSections s := by
  obtain ⟨f, q, l, v, e⟩ := removePkt_eq p s
  rw [e]
  rfl

theorem setSections_applyEffect (e : Effect) (s : State) : setSections (applyEffect e s) = setSections s := by
  cases e with
  | count => exact setSections_updSet (by intro; rfl) ..
  | hit => exact setSections_updSet (by intro; split <;> rfl) ..
  | learn => rfl
  | pipeCount => rfl

theorem setSections_commitEffects (p : Nat) (s : State) : setSections (commitEffects p s) = setSections s := by
  unfold commitEffects
  dsimp only
  refine Eq.trans ?_ (setSections_setPkt p (fun x => { x with effects := [], refunds := [] }) s)
  generalize setPkt p _ s = u
  induction (pkt s p).effects generalizing u with
  | nil => rfl
  | cons e es ih => exact (ih _).trans (setSections_applyEffect ..)

theorem setSections_undoFrame (p : Nat) (s : State) : setSections (undoFrame p s) = setSections s := by
  obtain ⟨t, m, e⟩ := undoFrame_eq p s
  rw [e]
  rfl

theorem setSections_killRx (n : Nat) (s : State) : setSections (killRx n s) = setSections s := by
  unfold killRx
  split
  · rfl
  · dsimp only
    split
    · rfl
    · split
      · exact (setSections_removePkt ..).trans (setSections_commitEffects ..)
      · split
        · exact (setSections_removePkt ..).trans (setSections_commitEffects ..)
        · exact (setSections_removePkt ..).trans (setSections_undoFrame ..)
      · exact (setSections_removePkt ..).trans (setSections_undoFrame ..)

theorem setActive_of_sections {s t : State} (h : setSections t = setSections s) : setActive t = setActive s := congrArg Prod.fst h

theorem laneListed_of_sections {s t : State} (h : setSections t = setSections s) (n : Nat) :
    laneListed (activeSet t) n = laneListed (activeSet s) n := by
  simp only [setSections, Prod.mk.injEq] at h
  obtain ⟨-, epoch, a, b⟩ := h
  have secs : (activeSet t).secs = (activeSet s).secs := by
    unfold activeSet setFor
    rw [epoch]
    split
    · exact a
    · exact b
  have data : secData (activeSet t) 7 0xFF = secData (activeSet s) 7 0xFF := by rw [secData, secs, secData]
  have group : laneGroup (activeSet t) n = laneGroup (activeSet s) n := by rw [laneGroup, portEntry, data, laneGroup, portEntry]
  rw [laneListed, group, laneListed]

/-! ## LANE_GOES_DOWN -/

/-- A lane whose lock breaks at a tick, by a cause of REASON `reason` (R176, log 92). -/
def Lane.broken (reason tick : Nat) (l : Lane) : Lane :=
  { l with
    held := false, brokenAt := tick, ctl := []
    blockLock := (l.blockLock || reason == 3 || reason == 4) && reason != 1, hiBer := (l.hiBer || reason == 2) && reason != 1 }

/-- The lock of a lane breaks, and the frame that it receives ends. -/
def lockBroken (n reason : Nat) (s : State) : State := killRx n (setLane n (Lane.broken reason s.tick) s)

theorem bareLanes_lockBroken (n reason : Nat) (s : State) : ∃ c q, bareLanes (lockBroken n reason s) n =
    { (bareLanes s n).broken reason s.tick with rx := none, cur := c, queues := q } := by
  obtain ⟨c, q, h⟩ := bareLanes_killRx n (setLane n (Lane.broken reason s.tick) s)
  rw [bareLanes_setLane, Function.update_self] at h
  exact ⟨c, q, h⟩

theorem listed_lockBroken (n reason : Nat) (s : State) :
    (setActive (lockBroken n reason s) && laneListed (activeSet (lockBroken n reason s)) n) = (setActive s && laneListed (activeSet s) n) := by
  have kept : setSections (lockBroken n reason s) = setSections s := setSections_killRx ..
  rw [setActive_of_sections kept, laneListed_of_sections kept]

/-- A lane that carries no frames only loses its lock. -/
theorem laneDown_idle {n : Nat} {s : State} (idle : setActive s = false ∨ laneListed (activeSet s) n = false ∨ (lane s n).state = 0 ∨
    (lane s n).state = 1 ∨ (lane s n).state = 4 ∨ (lane s n).state = 5) (reason : Nat) : laneDown n reason s = lockBroken n reason s := by
  refine if_pos ?_
  show (!(setActive (lockBroken n reason s) && laneListed (activeSet (lockBroken n reason s)) n) || _ || _ || _ || _) = true
  rw [listed_lockBroken]
  rcases idle with h | h | h | h | h | h <;> simp [h]

theorem laneActive_eq_bare (s : State) (n : Nat) : laneActive s n = ((bareLanes s n).state == 3) := rfl

/-- A lane becomes DOWN: it hears no pause, and what it sends ends with remote fault (R176). -/
def silenced (n reason : Nat) (s : State) : State :=
  emit (.laneSignal n false) (truncate n (setLane n (fun l => { l with state := 1, reason := reason, pause := [], unusable := true }) s))

theorem bareLanes_silenced (n reason : Nat) (s : State) : bareLanes (silenced n reason s) n =
    { bareLanes s n with state := 1, reason := reason, pause := [], unusable := true, cur := none } := by
  rw [silenced, bareLanes_emit, bareLanes_truncate, bareLanes_setLane, Function.update_self]
  rfl

section
variable {n : Nat} {s : State} (active : setActive s = true) (listed : laneListed (activeSet s) n = true)
  (carries : (lane s n).state = 2 ∨ (lane s n).state = 3)
include active listed carries

/-- The events of a lane that goes down leave the lanes as its substitution has left them. -/
theorem laneDown_lanes (reason : Nat) : (laneDown n reason s).lanes = (substitute n (silenced n reason (lockBroken n reason s))).lanes := by
  have goes : (!(setActive (lockBroken n reason s) && laneListed (activeSet (lockBroken n reason s)) n) || (lane s n).state == 0 ||
      (lane s n).state == 4 || (lane s n).state == 1 || (lane s n).state == 5) = false := by
    rw [listed_lockBroken]
    rcases carries with h | h <;> simp [active, listed, h]
  refine (congrArg State.lanes (if_neg (Bool.eq_false_iff.1 goes))).trans ?_
  split
  · exact (postAll_lanes ..).trans (postAll_lanes ..)
  · exact postAll_lanes ..

/-- A lane of the active set that carries frames is DOWN, sends nothing and has nothing to send. -/
theorem bareLanes_laneDown (reason : Nat) : bareLanes (laneDown n reason s) n =
    { (bareLanes s n).broken reason s.tick with
      state := 1, reason := reason, pause := [], unusable := true, rx := none, cur := none, queues := [] } := by
  have silent := bareLanes_silenced n reason (lockBroken n reason s)
  have down : laneActive (silenced n reason (lockBroken n reason s)) n = false := by rw [laneActive_eq_bare, silent]; rfl
  obtain ⟨c, q, broken⟩ := bareLanes_lockBroken n reason s
  rw [bareLanes_of_lanes (laneDown_lanes active listed carries reason), bareLanes_substitute down, silent, broken]

end

theorem exec_laneGoesDown {s : State} {n : Fin 1024} {cause : DownCause} (fec : cause = .fecLockLost → laneFec (activeSet s) n = true) :
    exec (.laneGoesDown n cause) s = .next (laneDown n (downCode cause) s) := by
  refine if_neg ?_
  simpa using fec

theorem exec_laneGoesDown_withoutFec {s : State} {n : Fin 1024} (plain : laneFec (activeSet s) n = false) :
    exec (.laneGoesDown n .fecLockLost) s = .next s := if_pos (by rw [plain]; rfl)

/-! ## LANE_LOCK_HELD, CHIME_HEARD, LANE_WAKE_TIMEOUT -/

theorem core_withLanes_congr {s t : State} (h : core t = core s) (m : SMap Lane) : core { t with lanes := m } = core { s with lanes := m } :=
  congrArg (fun u : State => { u with lanes := m }) h

@[simp] theorem lane_emit (o : Output) (s : State) (n : Nat) : lane (emit o s) n = lane s n := rfl

theorem lane_postLane (code m : Nat) (s : State) (n : Nat) : lane (postLane code m s) n = lane s n :=
  congrArg (SMap.get · n) (postAll_lanes ..)

theorem lane_postLaneDown (m : Nat) (s : State) (n : Nat) : lane (postLaneDown m s) n = lane s n :=
  congrArg (SMap.get · n) (postAll_lanes ..)

section
variable {s : State} {n : Fin 1024}

/-- The receiver of a lane is up (R177): the lane is not PARKED, its clock is locked and its tile released. -/
def lockCounts (s : State) (n : Nat) : Prop :=
  (lane s n).state ≠ 4 ∧ s.pwr.ckLocked = true ∧ s.pwr.released = true ∧ laneLost s n = false

theorem exec_laneLockHeld (counts : lockCounts s n) : exec (.laneLockHeld n) s = .next
    (if s.tick < (lane s n).brokenAt + 80000 then setLane n (fun l => { l with blockLock := true, hiBer := false }) s
    else if (lane s n).state = 1 ∨ (lane s n).state = 5 then
      postLane 0x0702 n (setLane n (fun l => { l with
        state := if setActive s && laneListed (activeSet s) n then 2 else 0, wakeBy := none })
        (setLane n (fun l => { l with blockLock := true, hiBer := false, held := true }) s))
    else setLane n (fun l => { l with blockLock := true, hiBer := false, held := true }) s) := by
  obtain ⟨parked, clock, released, here⟩ := counts
  have up : ((lane s n).state == 4 || !s.pwr.ckLocked || !s.pwr.released || laneLost s n) = false := by
    simp [parked, clock, released, here]
  refine (if_neg (Bool.eq_false_iff.1 up)).trans ?_
  by_cases early : s.tick < (lane s n).brokenAt + 80000
  · rw [if_pos early]
    exact if_pos early
  · rw [if_neg early]
    refine (if_neg early).trans ?_
    by_cases waits : (lane s n).state = 1 ∨ (lane s n).state = 5
    · rw [if_pos waits]
      exact if_pos (by simpa using waits)
    · rw [if_neg waits]
      exact if_neg (by simpa using waits)

theorem exec_laneLockHeld_uncounted (idle : (lane s n).state = 4 ∨ s.pwr.ckLocked = false ∨ s.pwr.released = false ∨ laneLost s n = true) :
    exec (.laneLockHeld n) s = .next s := by
  refine if_pos ?_
  rcases idle with h | h | h | h <;> simp [h]

/-- A lane that is DOWN or WAKING returns: LINKED in the active set, else UNUSED (R177). -/
theorem exec_laneLockHeld_returns (counts : lockCounts s n) (waits : (lane s n).state = 1 ∨ (lane s n).state = 5)
    (long : (lane s n).brokenAt + 80000 ≤ s.tick) : ∃ t, exec (.laneLockHeld n) s = .next t ∧
      (lane t n).state = (if setActive s && laneListed (activeSet s) n then 2 else 0) ∧
      (lane t n).blockLock = true ∧ (lane t n).held = true ∧ (lane t n).wakeBy = none ∧ core { t with lanes := s.lanes } = core s := by
  refine ⟨_, exec_laneLockHeld counts, ?_⟩
  rw [if_neg (Nat.not_lt.2 long), if_pos waits, lane_postLane, lane_setLane_same, lane_setLane_same]
  exact ⟨rfl, rfl, rfl, rfl, core_withLanes_congr (core_postAll ..) _⟩

theorem exec_chimeHeard (parked : (lane s n).state = 4) : ∃ t, exec (.chimeHeard n) s = .next t ∧ (lane t n).chime = true ∧
    (lane t n).state = 4 ∧ core { t with lanes := s.lanes } = core s := by
  have heard : exec (.chimeHeard n) s = if (lane s n).chimeNext ≤ s.tick then
      .next (postLane 0x0703 n (setLane n (fun l => { l with chimeNext := s.tick + msT 100 }) (setLane n (fun l => { l with chime := true }) s)))
      else .next (setLane n (fun l => { l with chime := true }) s) := if_neg (by simp [parked])
  rw [heard]
  split
  · refine ⟨_, rfl, ?_⟩
    rw [lane_postLane, lane_setLane_same, lane_setLane_same]
    exact ⟨rfl, parked, core_withLanes_congr (core_postAll ..) _⟩
  · refine ⟨_, rfl, ?_⟩
    rw [lane_setLane_same]
    exact ⟨rfl, parked, rfl⟩

theorem exec_chimeHeard_unparked (awake : (lane s n).state ≠ 4) : exec (.chimeHeard n) s = .next s := if_pos (by simpa using awake)

theorem exec_laneWakeTimeout {d : Nat} (wakes : (lane s n).wakeBy = some d) : exec (.laneWakeTimeout n) s =
    if s.tick < d then .next s else .next (postLaneDown n (emit (.laneSignal n false)
      (setLane n (fun l => { l with state := 1, reason := 7, wakeBy := none, unusable := true }) s))) := by
  show execLaneWakeTimeout n s = _
  simp only [execLaneWakeTimeout, wakes]

theorem exec_laneWakeTimeout_due {d : Nat} (wakes : (lane s n).wakeBy = some d) (due : d ≤ s.tick) :
    ∃ t, exec (.laneWakeTimeout n) s = .next t ∧ (lane t n).state = 1 ∧ (lane t n).reason = 7 ∧ (lane t n).wakeBy = none ∧
      core { t with lanes := s.lanes } = core s := by
  refine ⟨_, (exec_laneWakeTimeout wakes).trans (if_neg (Nat.not_lt.2 due)), ?_⟩
  have down : lane (postLaneDown n (emit (.laneSignal n false) (setLane n (fun l => { l with
      state := 1, reason := 7, wakeBy := none, unusable := true }) s))) n = { lane s n with
      state := 1, reason := 7, wakeBy := none, unusable := true } := by rw [lane_postLaneDown, lane_emit, lane_setLane_same]
  rw [down]
  exact ⟨rfl, rfl, rfl, core_withLanes_congr (core_postAll ..) _⟩

end

/-! ## LANE_PARK (R224) -/

/-- A lane as it is parked. -/
def Lane.park (l : Lane) : Lane :=
  { l with state := 4, reason := 6, held := false, blockLock := false, hiBer := false, pause := [], pfc := none, unusable := true, ctl := [] }

/-- A lane is parked, and substituted. -/
def parkLane (n : Nat) (s : State) : State :=
  postLaneDown n (substitute n (emit (.laneSignal n false) (killRx n (setLane n Lane.park s))))

theorem bareLanes_parkLane (n : Nat) (s : State) : ∃ c, bareLanes (parkLane n s) n =
    { (bareLanes s n).park with rx := none, cur := c, queues := [] } := by
  obtain ⟨c, q, killed⟩ := bareLanes_killRx n (setLane n Lane.park s)
  rw [bareLanes_setLane, Function.update_self] at killed
  have down : laneActive (emit (.laneSignal n false) (killRx n (setLane n Lane.park s))) n = false := by
    rw [laneActive_eq_bare, bareLanes_emit, killed]
    rfl
  exact ⟨c, by rw [parkLane, postLaneDown, bareLanes_postAll, bareLanes_substitute down, bareLanes_emit, killed]; rfl⟩

/-- What LANE_PARK refuses. -/
def parkRefusal (s : State) (n : Nat) : Refuse :=
  if n ≥ 1024 then some (stBadParam, 0)
  else if (lane s n).state == 4 || (lane s n).state == 5 then some (stBadState, 0)
  else if (lane s n).state == 3 && (substNow s n).isNone && ((substs (activeSet s) n).all fun e => !laneActive s e.2) then
    some (stBadState, 0x0705)
  else none

theorem exec_lanePark (c : CmdPkt) (s : State) : exec (.lanePark c) s = .next (runCmd 0x0702 .A false always
    (fun c s => parkRefusal s (c.p 0 2)) quiet (fun c s => done (parkLane (c.p 0 2) s) 0) c s) := rfl

section
variable {c : CmdPkt} {s : State} (runs : Runs 0x0702 .A false always c s)
include runs

theorem exec_lanePark_badParam (range : 1024 ≤ c.p 0 2) : exec (.lanePark c) s = refusesWith c s stBadParam :=
  congrArg Host.Outcome.next (runCmd_refuses runs (if_pos range))

theorem exec_lanePark_notUp (range : c.p 0 2 < 1024) (state : (lane s (c.p 0 2)).state = 4 ∨ (lane s (c.p 0 2)).state = 5) :
    exec (.lanePark c) s = refusesWith c s stBadState := by
  refine congrArg Host.Outcome.next (runCmd_refuses runs ((if_neg (Nat.not_le.2 range)).trans (if_pos ?_)))
  rcases state with h | h <;> simp [show lane (taken c s) = lane s from rfl, h]

theorem exec_lanePark_noSubstitute (range : c.p 0 2 < 1024) (state : (lane s (c.p 0 2)).state = 3)
    (alone : ∀ e ∈ substs (activeSet s) (c.p 0 2), laneActive s e.2 = false) :
    exec (.lanePark c) s = .next (writeReply (execOf c s) stBadState 0x0705 (taken c s)) := by
  have refused : parkRefusal s (c.p 0 2) = some (stBadState, 0x0705) := by
    have unsubstituted : substNow s (c.p 0 2) = none := if_pos (by simp [laneActive, state])
    have noneUp : ((substs (activeSet s) (c.p 0 2)).all fun e => !laneActive s e.2) = true :=
      List.all_eq_true.2 fun e listed => by rw [alone e listed]; rfl
    simp [parkRefusal, Nat.not_le.2 range, state, unsubstituted, noneUp]
  exact congrArg Host.Outcome.next (runCmd_refuses_rdata runs refused)

theorem exec_lanePark_parks (range : c.p 0 2 < 1024) (may : (lane s (c.p 0 2)).state < 3 ∨
    ((lane s (c.p 0 2)).state = 3 ∧ ∃ e ∈ substs (activeSet s) (c.p 0 2), laneActive s e.2 = true)) :
    exec (.lanePark c) s = repliesOk c s (parkLane (c.p 0 2) (taken c s)) 0 := by
  have accepted : parkRefusal s (c.p 0 2) = none := by
    rcases may with low | ⟨state, e, listed, up⟩
    · have other : (lane s (c.p 0 2)).state ≠ 4 ∧ (lane s (c.p 0 2)).state ≠ 5 ∧ (lane s (c.p 0 2)).state ≠ 3 := by omega
      simp [parkRefusal, Nat.not_le.2 range, other]
    · have oneUp : ((substs (activeSet s) (c.p 0 2)).all fun e => !laneActive s e.2) = false := List.all_eq_false.2 ⟨e, listed, by simp [up]⟩
      simp [parkRefusal, Nat.not_le.2 range, state, oneUp]
  exact congrArg Host.Outcome.next (runCmd_done runs accepted rfl)

theorem exec_lanePark_leaves (range : c.p 0 2 < 1024) (may : (lane s (c.p 0 2)).state < 3 ∨
    ((lane s (c.p 0 2)).state = 3 ∧ ∃ e ∈ substs (activeSet s) (c.p 0 2), laneActive s e.2 = true)) :
    ∃ t, exec (.lanePark c) s = repliesOk c s t 0 ∧ (lane t (c.p 0 2)).state = 4 ∧ (lane t (c.p 0 2)).reason = 6 ∧
      (lane t (c.p 0 2)).queues = [] ∧ (lane t (c.p 0 2)).pause = [] ∧ (lane t (c.p 0 2)).rx = none ∧
      (lane t (c.p 0 2)).chime = (lane s (c.p 0 2)).chime := by
  obtain ⟨_, parked⟩ := bareLanes_parkLane (c.p 0 2) (taken c s)
  have chime := congrArg Lane.chime parked
  exact ⟨_, exec_lanePark_parks runs range may, congrArg Lane.state parked, congrArg Lane.reason parked, congrArg Lane.queues parked,
    congrArg Lane.pause parked, congrArg Lane.rx parked, chime⟩

end

/-! ## LANE_WAKE, SUBST_STATUS (R205, R225) -/

theorem exec_laneWake {c : CmdPkt} {s : State} (runs : Runs 0x0703 .A false always c s) :
    exec (.laneWake c) s = if 1024 ≤ c.p 0 2 then refusesWith c s stBadParam else if (lane s (c.p 0 2)).state = 4 then
        repliesOk c s (emit (.laneSignal (c.p 0 2) true)
          (setLane (c.p 0 2) (fun l => { l with state := 5, wakeBy := some (s.tick + 8000000), brokenAt := s.tick }) (taken c s))) 0
      else refusesWith c s stBadState := by
  have same : lane (taken c s) = lane s := rfl
  split
  · next range => exact congrArg Host.Outcome.next (runCmd_refuses runs (by simp [firstOf, range]))
  · next range =>
    split
    · next state => exact congrArg Host.Outcome.next (runCmd_done runs (by simp [firstOf, range, same, state]) rfl)
    · next state => exact congrArg Host.Outcome.next (runCmd_refuses runs (by simp [firstOf, range, same, state]))

theorem exec_substStatus {c : CmdPkt} {s : State} (runs : Runs 0x0704 .A false always c s) :
    exec (.substStatus c) s = if 1024 ≤ c.p 0 2 then refusesWith c s stBadParam else repliesOk c s (taken c s)
      (fld 31 29 (lane s (c.p 0 2)).state + fld 28 26 ((substNow s (c.p 0 2)).getD (0, 0)).1 + fld 25 16 ((substNow s (c.p 0 2)).getD (0, 0)).2 +
        fld 15 13 (if setActive s then ((substs (activeSet s) (c.p 0 2)).filter fun e => laneActive s e.2).length else 0)) := by
  split
  · next range => exact congrArg Host.Outcome.next (runCmd_refuses runs (by simp [laneParam, firstOf, range]))
  · next range => exact congrArg Host.Outcome.next (runCmd_done runs (by simp [laneParam, firstOf, range]) rfl)

/-! ## LANE_STATUS (R228) -/

/-- The status record of a lane. -/
def laneRecord (s : State) (n : Nat) : Nat :=
  fld 127 96 (laneSts s n) + fld 95 64 (cntGet s .laneFecCorr n) + fld 63 32 (cntGet s .laneFecUncorr n) + fld 31 0 (cntGet s .laneRxBad n)

/-- A record reads what a host write leaves alone. -/
theorem laneRecord_of_core {s t : State} (h : core t = core s) (n : Nat) : laneRecord t n = laneRecord s n := by
  have same := congrArg (laneRecord · n) h
  exact same

theorem markDirty_out (iid addr len : Nat) (s : State) : (markDirty iid addr len s).out = s.out := by
  unfold markDirty
  split <;> rfl

theorem bme_markDirty (iid addr len : Nat) (s : State) (j : Nat) : (fnOf (markDirty iid addr len s) j).bme = (fnOf s j).bme := by
  unfold markDirty
  split
  · rfl
  · exact fnOf_setFn_keeps (g := Fn.bme) (by intro; rfl) ..

theorem hostWrite_of_master {s : State} {iid : Nat} (master : (fnOf s iid).bme = true) (addr len data : Nat) (ro : Bool) :
    (hostWrite iid addr len data ro s).out = s.out ++ [.dma iid addr len data ro] ∧ (fnOf (hostWrite iid addr len data ro s) iid).bme = true := by
  rw [hostWrite, if_pos master]
  exact ⟨markDirty_out .., (bme_markDirty ..).trans master⟩

theorem core_laneRecords (fn addr n k : Nat) (s : State) : core (laneRecords fn addr n k s) = core s := by
  induction k generalizing addr n s with
  | zero => rfl
  | succ k ih => exact (ih ..).trans (core_hostWrite ..)

theorem laneRecords_out {fn : Nat} {s : State} (master : (fnOf s fn).bme = true) (addr n k : Nat) : (laneRecords fn addr n k s).out =
    s.out ++ (List.range k).map fun i => .dma fn (addr + 16 * i) 16 (laneRecord s (n + i)) false := by
  induction k generalizing addr n s with
  | zero => simp [laneRecords]
  | succ k ih =>
    obtain ⟨out, still⟩ := hostWrite_of_master master addr 16 (laneRecord s n) false
    have rest := ih still (addr + 16) (n + 1)
    have same (i : Nat) : laneRecord (hostWrite fn addr 16 (laneRecord s n) false s) i = laneRecord s i :=
      laneRecord_of_core (core_hostWrite ..) i
    simp only [out, same] at rest
    rw [List.range_succ_eq_map, List.map_cons, List.map_map]
    refine rest.trans ?_
    simp [Function.comp_def, Nat.add_assoc, Nat.mul_add, Nat.add_comm 16, Nat.add_comm 1]

theorem exec_laneStatus {c : CmdPkt} {s : State} (runs : Runs 0x0701 .A false always c s) :
    if c.indirect = true ∧ 1 ≤ c.p 14 2 ∧ c.p 14 2 ≤ 64 ∧ c.p 12 2 + c.p 14 2 ≤ 1024 ∧ 16 * c.p 14 2 ≤ c.p 8 4 then
      ∃ t, exec (.laneStatus c) s = repliesOk c s t (fld 63 32 (c.p 14 2)) ∧ core t = core s ∧
        t.out = s.out ++ (List.range (c.p 14 2)).map fun i => .dma c.fn (c.p 0 8 + 16 * i) 16
          (fld 127 96 (laneSts s (c.p 12 2 + i)) + fld 95 64 (cntGet s .laneFecCorr (c.p 12 2 + i)) +
            fld 63 32 (cntGet s .laneFecUncorr (c.p 12 2 + i)) + fld 31 0 (cntGet s .laneRxBad (c.p 12 2 + i))) false
    else exec (.laneStatus c) s = refusesWith c s stBadParam := by
  have bad : (!c.indirect || c.p 14 2 == 0 || decide (c.p 14 2 > 64) || decide (c.p 12 2 + c.p 14 2 > 1024) ||
      decide (c.p 8 4 < 16 * c.p 14 2)) = true ↔
        ¬ (c.indirect = true ∧ 1 ≤ c.p 14 2 ∧ c.p 14 2 ≤ 64 ∧ c.p 12 2 + c.p 14 2 ≤ 1024 ∧ 16 * c.p 14 2 ≤ c.p 8 4) := by
    cases c.indirect
    · simp
    · simp
      omega
  split
  · next good =>
    have master : (fnOf (taken c s) c.fn).bme = true := by
      refine (fnOf_taken (g := Fn.bme) (fun _ _ => ⟨rfl, rfl⟩) c s c.fn).trans ?_
      have live := runs.1.1.1
      simp only [ringLive, Bool.and_eq_true] at live
      simp [live]
    exact ⟨_, congrArg Host.Outcome.next (runCmd_done runs (if_neg (bad.not.2 (not_not.2 good))) rfl),
      (core_laneRecords ..).trans (core_taken c s), laneRecords_out master ..⟩
  · next wrong => exact congrArg Host.Outcome.next (runCmd_refuses runs (if_pos (bad.2 wrong)))

/-- Settles O34: a lane goes down with its queues and pauses, whatever the end of its frames does elsewhere; each other row writes its
lane, and each command is its check and its reply. -/
theorem lanesMoveBetweenTheirStates : Obligations.LanesMoveBetweenTheirStates := by
  unfold Obligations.LanesMoveBetweenTheirStates
  refine ⟨?down, ?idle, fun _ _ => exec_laneGoesDown_withoutFec, ?returns, ?early, fun _ _ => exec_laneLockHeld_uncounted,
    fun _ _ => exec_chimeHeard_unparked, fun _ _ _ wakes early => (exec_laneWakeTimeout wakes).trans (if_pos early),
    fun _ _ => exec_chimeHeard, fun _ _ _ => exec_laneWakeTimeout_due,
    fun _ _ runs range => ⟨exec_lanePark_notUp runs range, exec_lanePark_noSubstitute runs range, exec_lanePark_leaves runs range⟩,
    fun _ _ => exec_lanePark_badParam, fun _ _ => exec_laneWake, fun _ _ => exec_substStatus, fun _ _ => exec_laneStatus⟩
  case down =>
    intro s n cause active listed carries fec
    have down := bareLanes_laneDown active listed carries (downCode cause)
    exact ⟨_, exec_laneGoesDown fec, congrArg Lane.state down, congrArg Lane.reason down, congrArg Lane.queues down,
      congrArg Lane.cur down, congrArg Lane.pause down, congrArg Lane.rx down, congrArg Lane.brokenAt down, congrArg Lane.held down⟩
  case idle =>
    intro s n cause idle fec
    obtain ⟨_, _, broken⟩ := bareLanes_lockBroken n (downCode cause) s
    have state := congrArg Lane.state broken
    refine ⟨_, exec_laneGoesDown fec, ?_⟩
    rw [laneDown_idle idle]
    exact ⟨state, congrArg Lane.held broken, congrArg Lane.brokenAt broken, congrArg Lane.rx broken⟩
  case returns =>
    intro s n waits clock released here long
    exact exec_laneLockHeld_returns ⟨by omega, clock, released, here⟩ waits long
  case early =>
    intro s n parked clock released here early
    exact (exec_laneLockHeld ⟨parked, clock, released, here⟩).trans (congrArg Host.Outcome.next (if_pos early))

end Sys2Proof.Machine

/-! Frames on lanes: what a lane delivers (R174, R175, R221), what it sends next and to the end (R185), launch times (R367, R368). -/
namespace Sys2Proof.Machine

/-! ## A frame received (R174, R175) -/

/-- The codewords that RS-FEC has corrected, or could not, are counted. -/
def fecCounted (n corr uncorr : Nat) (s : State) : State := countN .laneFecUncorr n uncorr (countN .laneFecCorr n corr s)

theorem cntGet_fecCounted {c : Cnt} (h : c ≠ .laneFecCorr ∧ c ≠ .laneFecUncorr) (n corr uncorr : Nat) (s : State) (i : Nat) :
    cntGet (fecCounted n corr uncorr s) c i = cntGet s c i :=
  (cntGet_countN_of_ne _ _ (.inl h.2)).trans (cntGet_countN_of_ne _ _ (.inl h.1))

section
variable {s : State} {n : Fin 1024} {bs : List Byte} {bad : Bool} (ui : Fin 33) (corr uncorr : Nat)

/-- A lane that does not deliver frames takes nothing (R176, R179); nor does one that a set does not list, once one is active. -/
theorem exec_laneFrameReceived_unheard (more : Bool) (deaf : laneHears s n = false ∨ ((lane s n).state = 0 ∧ setActive s = true ∧
    (lane s n).rx = none ∧ (lane s n).ctl = [] ∧ (fiOf s n).fate = .none)) :
    exec (.laneFrameReceived n bs more bad ui corr uncorr) s = .next s := by
  cases hears : laneHears s n
  · exact if_pos (by rw [hears]; rfl)
  · obtain ⟨unused, active, rx, ctl, fate⟩ := deaf.resolve_left (by simp [hears])
    exact (if_neg (by simp [hears])).trans (if_pos (by simp [unused, active, rx, ctl, fate]))

section
variable (hears : laneHears s n = true) (used : (lane s n).state = 0 → setActive s = false) (rx : (lane s n).rx = none)
  (armed : (fiOf s n).armed = false) (fate : (fiOf s n).fate = .none) (ctl : (lane s n).ctl = [])
include hears used rx armed fate ctl

/-- Without injection, a whole frame on a lane that delivers frames reaches its MAC, with the stamp of its first bit. -/
theorem exec_laneFrameReceived_whole : exec (.laneFrameReceived n bs false bad ui corr uncorr) s =
    .next (macReceive n (laneStamp s n ui true) bs false bad (fecCounted n corr uncorr s)) := by
  have same : fiOf (fecCounted n corr uncorr s) n = fiOf s n := rfl
  have plain : fiSubject (fecCounted n corr uncorr s) n true = false := by simp [fiSubject, same, armed]
  have taken : ((lane s n).state == 0 && setActive s) = false := by simpa using used
  show execLaneFrameReceived n bs false bad ui corr uncorr s = _
  have stamp : laneStamp (fecCounted n corr uncorr s) n ui true = laneStamp s n ui true := rfl
  rw [fecCounted] at plain stamp
  simp [execLaneFrameReceived, fecCounted, hears, rx, ctl, fate, taken, plain, stamp]

end

end

section
variable {s : State} {n : Nat} {bs : List Byte} (rx : (lane s n).rx = none) (ctl : (lane s n).ctl = [])
include rx ctl

theorem macReceive_control (control : isPause bs = true ∨ (isPfc bs = true ∧ pfcLane s n = true)) (stamp : DevTime) (bad : Bool) :
    macReceive n stamp bs false bad s = takeControl n bs bad (setLane n (fun l => { l with ctl := [] }) s) := by
  have frame : (isPause bs || isPfc bs && pfcLane s n) = true := by simpa using control
  simp [macReceive, rx, ctl, frame]

theorem macReceive_whole (pause : isPause bs = false) (pfc : isPfc bs = true → pfcLane s n = false) (stamp : DevTime) (bad : Bool) :
    macReceive n stamp bs false bad s = takeWhole n stamp bs bad s := by
  have frame : (isPfc bs && pfcLane s n) = false := by simpa using pfc
  simp [macReceive, rx, ctl, pause, frame]

end

/-- What a lane does with a whole frame that is no MAC control frame: it waits in the arrival store, or only a counter counts it. -/
theorem takeWhole_spec (n : Nat) (stamp : DevTime) (bs : List Byte) (bad : Bool) (s : State) :
    if 60 ≤ bs.length ∧ bs.length ≤ 9212 ∧ bad = false ∧ setActive s = true then
      (takeWhole n stamp bs bad s).nextPkt = s.nextPkt + 1 ∧ (takeWhole n stamp bs bad s).pkts = s.pkts.put s.nextPkt
        { srcId := n, bytes := bs, raw := bs, stamp := stamp, pipe := n / 64 } ∧
      cntGet (takeWhole n stamp bs bad s) .laneRxFrames n = (cntGet s .laneRxFrames n + 1) % 2 ^ 48
    else (takeWhole n stamp bs bad s).nextPkt = s.nextPkt ∧ (takeWhole n stamp bs bad s).pkts = s.pkts ∧
      (bs.length < 60 ∨ 9212 < bs.length →
        cntGet (takeWhole n stamp bs bad s) .laneRxSize n = min (2 ^ 32 - 1) (cntGet s .laneRxSize n + 1)) ∧
      (60 ≤ bs.length → bs.length ≤ 9212 → bad = true →
        cntGet (takeWhole n stamp bs bad s) .laneRxBad n = min (2 ^ 32 - 1) (cntGet s .laneRxBad n + 1)) := by
  by_cases size : 60 ≤ bs.length ∧ bs.length ≤ 9212
  · have fits : (decide (bs.length + 4 < 64) || decide (bs.length + 4 > 9216)) = false := by simp; omega
    cases bad with
    | true =>
      rw [if_neg (by simp), takeWhole, fits]
      exact ⟨rfl, rfl, fun odd => by omega, fun _ _ _ => cntGet_countN_same ..⟩
    | false =>
      cases active : setActive s with
      | true =>
        have opened : takeWhole n stamp bs false s = openFrame n stamp bs false (count .laneRxFrames n s) := by
          simp [takeWhole, fits, active]
        rw [if_pos ⟨size.1, size.2, rfl, rfl⟩, opened]
        exact ⟨rfl, rfl, cntGet_countN_same ..⟩
      | false =>
        have dropped : takeWhole n stamp bs false s = count .nosetDrop (n / 64) (count .laneRxFrames n s) := by
          simp [takeWhole, fits, active]
        rw [if_neg (by simp), dropped]
        exact ⟨rfl, rfl, fun odd => by omega, fun _ _ => nofun⟩
  · have odd : (decide (bs.length + 4 < 64) || decide (bs.length + 4 > 9216)) = true := by simp; omega
    rw [if_neg (fun h => size ⟨h.1, h.2.1⟩), takeWhole, odd]
    exact ⟨rfl, rfl, fun _ => cntGet_countN_same .., fun lo hi => absurd ⟨lo, hi⟩ size⟩

/-! ## The lane's choice (R185, R220) -/

theorem not_paused_of_mayBegin {s : State} {n c p : Nat} (h : mayBegin s n c p = true) : paused s n c = false := by
  simp only [mayBegin, classFree, Bool.and_eq_true, Bool.not_eq_true'] at h
  exact h.1.1.2.1

/-- The head frames of a lane's class queues, the highest class first. -/
def laneHeads (s : State) (n : Nat) : List (Nat × Nat) :=
  [7, 6, 5, 4, 3, 2, 1, 0].filterMap fun c => ((lane s n).queues.get c).head?.map fun p => (c, p)

theorem mem_laneHeads {s : State} {n c p : Nat} : (c, p) ∈ laneHeads s n ↔ c < 8 ∧ ((lane s n).queues.get c).head? = some p := by
  have classes : c ∈ [7, 6, 5, 4, 3, 2, 1, 0] ↔ c < 8 := by simp; omega
  simp only [laneHeads, List.mem_filterMap, Option.map_eq_some_iff, Prod.mk.injEq, ← classes]
  constructor
  · rintro ⟨_, listed, _, head, rfl, rfl⟩
    exact ⟨listed, head⟩
  · rintro ⟨listed, head⟩
    exact ⟨c, listed, p, head, rfl, rfl⟩

theorem laneHeads_falling (s : State) (n : Nat) : (laneHeads s n).Pairwise fun e f => f.1 < e.1 := by
  have classes : [7, 6, 5, 4, 3, 2, 1, 0].Pairwise fun c d : Nat => d < c := by decide
  refine classes.filterMap _ fun c d lt e he f hf => ?_
  obtain ⟨_, -, rfl⟩ := Option.map_eq_some_iff.1 he
  obtain ⟨_, -, rfl⟩ := Option.map_eq_some_iff.1 hf
  exact lt

/-- The frame that a lane begins next is the head of the highest class whose head may begin. -/
theorem nextFrame_spec {s : State} {n c p : Nat} (next : nextFrame s n = some (c, p)) :
    c < 8 ∧ ((lane s n).queues.get c).head? = some p ∧ mayBegin s n c p = true ∧
      ∀ d q, c < d → d < 8 → ((lane s n).queues.get d).head? = some q → mayBegin s n d q = false := by
  obtain ⟨may, before, later, split, refused⟩ := List.find?_eq_some_iff_append.1 next
  have heads : laneHeads s n = before ++ (c, p) :: later := split
  obtain ⟨class_lt, head⟩ := mem_laneHeads.1 (heads ▸ List.mem_append_right before List.mem_cons_self)
  refine ⟨class_lt, head, may, fun d q higher lt head' => ?_⟩
  obtain ⟨below, -⟩ := List.pairwise_cons.1 (List.pairwise_append.1 (heads ▸ laneHeads_falling s n)).2.1
  have listed : (d, q) ∈ before ++ (c, p) :: later := heads ▸ mem_laneHeads.2 ⟨lt, head'⟩
  rcases List.mem_append.1 listed with first | rest
  · simpa using refused _ first
  · rcases List.mem_cons.1 rest with same | after
    · exact absurd (congrArg Prod.fst same) (Nat.ne_of_gt higher)
    · exact absurd (below _ after) (Nat.not_lt.2 (Nat.le_of_lt higher))

/-! ## Launch times (R367, R368) -/

theorem nsU_second : ((nsU 1000000000 : Nat) : Int) = 1000000000 * 2 ^ 32 := by norm_num [nsU]

section
variable {s : State} {n k p : Nat} {d : DevTime} (head : ((lane s n).queues.get k).head? = some p)
  (launch : (pkt s p).tx.bind (·.launch) = some d) (fresh : (pkt s p).judged = false) (on : launchOn s n = true) (j : Nat)
include head launch fresh on

/-- A head frame with a launch time, judged: dropped more than 1 s ahead, else late or held. -/
theorem judgeHead_launch : judgeHead n k (j + 1) s = if (1000000000 * 2 ^ 32 : Int) < DevTime.diff d s.time.now then
      judgeHead n k j (dropPkt p (count .laneLaunchBad n (setLane n (fun l => { l with queues := l.queues.upd k (·.drop 1) }) s)))
    else if s.time.now.reached d then count .laneLaunchLate n (setPkt p (fun x => { x with judged := true }) s)
    else { setPkt p (fun x => { x with judged := true }) s with launchHeld := p :: s.launchHeld.filter (· != p) } := by
  rw [judgeHead]
  simp only [head, launch, fresh, on, Bool.false_eq_true, Bool.not_true, if_false, decide_eq_true_eq, nsU_second]

end

/-- No frame that waits on a lane has a launch time. -/
def NoLaunch (s : State) (n : Nat) : Prop := ∀ k q, q ∈ (lane s n).queues.get k → (pkt s q).tx.bind (·.launch) = none

theorem NoLaunch.judgeHead_eq {s : State} {n : Nat} (h : NoLaunch s n) (k j : Nat) : judgeHead n k j s = s := by
  cases j with
  | zero => rfl
  | succ j =>
    unfold judgeHead
    split
    · rfl
    · next p head => rw [h k p (List.mem_of_head? head)]

theorem NoLaunch.judgeHeads_eq {s : State} {n : Nat} (h : NoLaunch s n) : judgeHeads n s = s := by
  unfold judgeHeads
  induction List.range 8 with
  | nil => rfl
  | cons c cs ih => rw [List.foldl_cons, h.judgeHead_eq, ih]

/-- LAUNCH_TIME_REACHED ends the hold of a head whose time has come. -/
theorem exec_launchTimeReached (s : State) (n : Fin 1024) (k : Fin 8) : exec (.launchTimeReached n k) s = .next
    (match ((lane (judgeHeads n s) n).queues.get k).head? with
      | none => judgeHeads n s
      | some p => match (pkt (judgeHeads n s) p).tx.bind (·.launch) with
        | none => judgeHeads n s
        | some d => if (judgeHeads n s).time.now.reached d = true then
            { judgeHeads n s with launchHeld := (judgeHeads n s).launchHeld.filter (· ≠ p) } else judgeHeads n s) := by
  show execLaunchTimeReached n k s = _
  unfold execLaunchTimeReached
  dsimp only
  generalize judgeHeads n s = u
  cases head : ((lane u n).queues.get k).head? with
  | none => rfl
  | some p =>
    have others : (fun q => decide (q ≠ p)) = (· != p) := by
      funext q
      rw [decide_not]
      rfl
    dsimp only
    cases launch : (pkt u p).tx.bind (·.launch) with
    | none => rfl
    | some d => rw [others]

/-! ## LANE_FRAME_BEGIN (R185) -/

theorem pkt_setPkt_keeps {α : Type} {g : Pkt → α} {f : Pkt → Pkt} (h : ∀ x, g (f x) = g x) (p : Nat) (s : State) (q : Nat) :
    g (pkt (setPkt p f s) q) = g (pkt s q) := by
  unfold setPkt
  split
  · by_cases e : p = q
    · rw [← e]
      exact (congrArg g (SMap.get_upd_same ..)).trans (h _)
    · exact congrArg g (SMap.get_upd_ne _ _ e)
  · rfl

/-- The lanes and where each packet stands. -/
def standing (s : State) : (Nat → Lane) × (Nat → Place) := (bareLanes s, fun q => (pkt s q).place)

theorem standing_of_fields {s t : State} (lanes : t.lanes = s.lanes) (pkts : t.pkts = s.pkts) : standing t = standing s := by
  have places : (fun q => (pkt t q).place) = fun q => (pkt s q).place := by
    unfold pkt
    rw [pkts]
  exact congrArg₂ Prod.mk (bareLanes_of_lanes lanes) places

theorem standing_setPkt {f : Pkt → Pkt} (h : ∀ x, (f x).place = x.place) (p : Nat) (s : State) : standing (setPkt p f s) = standing s :=
  congrArg₂ Prod.mk (bareLanes_setPkt ..) (funext (pkt_setPkt_keeps h p s))

theorem standing_sendMark (p len : Nat) (s : State) : standing (sendMark p len s) = standing s := by
  unfold sendMark
  split
  · exact (standing_of_fields rfl rfl).trans (standing_setPkt (by intro; rfl) ..)
  · rfl

theorem standing_takeStamp (n ui p : Nat) (s : State) : standing (takeStamp n ui p s) = standing s := by
  unfold takeStamp
  split
  · split
    · rfl
    · split
      · exact (standing_of_fields rfl rfl).trans (standing_setPkt (by intro; rfl) ..)
      · refine (standing_setPkt (by intro; rfl) ..).trans ?_
        exact congrArg₂ Prod.mk (bareLanes_setLane_stamps ..) rfl
  · rfl

theorem fiDraw_eq (n : Nat) (s : State) : ∃ d f, (fiDraw n s).2 = { s with draws := d, fi := f } := by
  unfold fiDraw
  dsimp only
  repeat' split
  all_goals exact ⟨_, _, rfl⟩

theorem standing_injected (n : Nat) (subject : Bool) (s : State) :
    standing (if subject then fiDraw n s else (.none, s)).2 = standing s := by
  obtain ⟨d, f, e⟩ := fiDraw_eq n s
  split
  · rw [e]
    rfl
  · rfl

theorem standing_chargeShaper (i n : Nat) (s : State) : standing (chargeShaper i n s) = standing s := by
  unfold chargeShaper
  split <;> rfl

/-- The head frame of a class leaves its queue, and the lane sends it. -/
def headTaken (n c p : Nat) (s : State) : State :=
  let u := setPkt p (fun x => { x with place := .onLane n, billed := begunLength (pkt s p) })
    (setLane n (fun l => { l with queues := l.queues.upd c (·.drop 1), cur := some p }) s)
  { u with launchHeld := u.launchHeld.filter (· != p) }

theorem bareLanes_headTaken (n c p : Nat) (s : State) : bareLanes (headTaken n c p s) n =
    { bareLanes s n with queues := (bareLanes s n).queues.upd c (·.drop 1), cur := some p } := by
  refine (congrFun (bareLanes_setPkt ..) n).trans ?_
  rw [bareLanes_setLane, Function.update_self]
  rfl

theorem NoLaunch.headTaken {s : State} {n : Nat} (h : NoLaunch s n) (c p : Nat) : NoLaunch (headTaken n c p s) n := by
  intro k q waits
  have queues : (lane (Machine.headTaken n c p s) n).queues = (lane s n).queues.upd c (·.drop 1) := congrArg Lane.queues (bareLanes_headTaken ..)
  have tx : (pkt (Machine.headTaken n c p s) q).tx = (pkt s q).tx := pkt_setPkt_keeps (g := Pkt.tx) (by intro; rfl) ..
  rw [tx]
  refine h k q ?_
  rw [queues, SMap.upd, SMap.get_put] at waits
  split at waits
  · next e => exact e ▸ List.mem_of_mem_drop waits
  · exact waits

/-- A frame that begins is marked and stamped, is subject to injection, and is charged: `pc` its port-class, `len` the bytes charged. -/
def begun (n ui pc len p : Nat) (s : State) : State :=
  let s := takeStamp n ui p (sendMark p len s)
  let r := if fiSubject s n false then fiDraw n s else (.none, s)
  chargeShaper pc (len + 20) (countBlock 0xFE07 pc len (if r.1 == .none then r.2 else setFi n (fun f => { f with txFate := r.1 }) r.2))

theorem standing_begun (n ui pc len p : Nat) (s : State) : standing (begun n ui pc len p s) = standing s := by
  have stamped : standing (takeStamp n ui p (sendMark p len s)) = standing s := (standing_takeStamp ..).trans (standing_sendMark ..)
  unfold begun
  generalize takeStamp n ui p (sendMark p len s) = u at stamped ⊢
  have drawn := standing_injected n (fiSubject u n false) u
  dsimp only
  generalize (if fiSubject u n false then fiDraw n u else (.none, u)) = r at drawn ⊢
  refine (standing_chargeShaper ..).trans (Eq.trans ?_ (drawn.trans stamped))
  split <;> rfl

@[simp] theorem lane_count (c : Cnt) (i : Nat) (s : State) (n : Nat) : lane (count c i s) n = lane s n := rfl

/-- A lane begins frames: it is ACTIVE or LINKED in the active set, its clock runs, and it sends nothing. -/
def readyToSend (s : State) (n : Nat) : Prop :=
  setActive s = true ∧ (lane s n).cur = none ∧ ((lane s n).state = 2 ∨ (lane s n).state = 3) ∧ s.pwr.ckLocked = true ∧ s.pwr.released = true

section
variable {s : State} {n : Fin 1024} (ui : Fin 33)

theorem exec_laneFrameBegin_idle (idle : setActive s = false ∨ (lane s n).cur ≠ none ∨ ((lane s n).state ≠ 2 ∧ (lane s n).state ≠ 3) ∨
    s.pwr.ckLocked = false ∨ s.pwr.released = false) : exec (.laneFrameBegin n ui) s = .next s := by
  refine if_pos ?_
  rcases idle with h | h | h | h | h
  · simp [h]
  · simp [Option.isSome_iff_ne_none.2 h]
  · simp [h]
  · simp [h]
  · simp [h]

variable (ready : readyToSend s n)
include ready

theorem sendGate_open : (!setActive s || (lane s n).cur.isSome || ((lane s n).state != 2 && (lane s n).state != 3) || !s.pwr.ckLocked ||
    !s.pwr.released) ≠ true := by
  obtain ⟨active, idle, state, clock, released⟩ := ready
  rcases state with h | h <;> simp [active, idle, h, clock, released]

/-- A pause frame that waits goes first. -/
theorem exec_laneFrameBegin_pause {ts : List Nat} (waits : (lane s n).pfc = some ts) : exec (.laneFrameBegin n ui) s =
    .next (count .lanePfcTx n (emit (.pfc n (pfcFrame n ts)) (setLane n (fun l => { l with pfc := none }) s))) := by
  refine (if_neg (sendGate_open ready)).trans ?_
  rw [waits]

variable (noPause : (lane s n).pfc = none)
include noPause

theorem exec_laneFrameBegin_nothing (nothing : nextFrame (judgeHeads n s) n = none) :
    exec (.laneFrameBegin n ui) s = .next (judgeHeads n s) := by
  refine (if_neg (sendGate_open ready)).trans ?_
  rw [noPause]
  dsimp only
  rw [nothing]

/-- The lane begins the frame that R185 chooses; what follows leaves lanes and places alone. -/
theorem exec_laneFrameBegin_frame {c p : Nat} (next : nextFrame (judgeHeads n s) n = some (c, p)) :
    ∃ t, exec (.laneFrameBegin n ui) s = .next t ∧ standing t = standing (judgeHeads n (headTaken n c p (judgeHeads n s))) := by
  refine ⟨begun n ui (8 * portOfLane (activeSet (judgeHeads n s)) n + c) (begunLength (pkt (judgeHeads n s) p)) p
    (judgeHeads n (headTaken n c p (judgeHeads n s))), ?_, standing_begun ..⟩
  refine (if_neg (sendGate_open ready)).trans ?_
  rw [noPause]
  dsimp only
  rw [next]
  rfl

/-- The frame that begins is the lane's, whatever the frames behind it are; without launch times there, it has left its queue, and
the rest of the queue stands. -/
theorem exec_laneFrameBegin_sends {c p : Nat} (next : nextFrame (judgeHeads n s) n = some (c, p)) :
    ∃ t, exec (.laneFrameBegin n ui) s = .next t ∧ (lane t n).cur = some p ∧
      (NoLaunch s n → (lane t n).queues.get c = ((lane s n).queues.get c).drop 1 ∧ (hasPkt s p = true → (pkt t p).place = .onLane n)) := by
  obtain ⟨t, begins, stands⟩ := exec_laneFrameBegin_frame ui ready noPause next
  obtain ⟨lanes, places⟩ := Prod.mk.inj stands
  obtain ⟨q, judged⟩ := (requeues_judgeHeads n (headTaken n c p (judgeHeads n s))).same
  refine ⟨t, begins, ?_, fun plain => ?_⟩
  · have cur := congrArg Lane.cur (((congrFun lanes n).trans judged).trans (by rw [bareLanes_headTaken]))
    exact cur
  · rw [plain.judgeHeads_eq, (plain.headTaken c p).judgeHeads_eq] at lanes places
    have queues := congrArg Lane.queues ((congrFun lanes n).trans (bareLanes_headTaken ..))
    refine ⟨(congrArg (SMap.get · c) queues).trans (SMap.get_upd_same ..), fun here => ?_⟩
    refine (congrFun places p).trans ?_
    exact congrArg Pkt.place (pkt_setPkt_same (s := setLane n _ s) here _)

end

/-! ## LANE_FRAME_END -/

section
variable {s : State} {n : Fin 1024}

theorem exec_laneFrameEnd_idle (idle : (lane s n).cur = none ∨ ∃ p, (lane s n).cur = some p ∧ (pkt s p).arriving = true) :
    exec (.laneFrameEnd n) s = .next s := by
  show execLaneFrameEnd n s = _
  unfold execLaneFrameEnd
  rcases idle with idle | ⟨p, sends, arriving⟩
  · simp only [idle]
  · simp only [sends, arriving, if_true]

/-- A frame's bytes as they are sent: padded, and with their FCS. -/
def sentBytes (x : Pkt) : List Byte :=
  (x.bytes ++ List.replicate (60 - x.bytes.length) 0) ++ bytesOf 4 (fcs32 (x.bytes ++ List.replicate (60 - x.bytes.length) 0))

variable {p : Nat} (sends : (lane s n).cur = some p) (whole : (pkt s p).arriving = false) (fate : (fiOf s n).txFate = .none)
include sends whole fate

/-- Without injection, a frame that is sent to its end leaves the adapter. -/
theorem exec_laneFrameEnd : exec (.laneFrameEnd n) s = .next (removePkt p (count .laneTxFrames n
    (emit (.laneFrame n (sentBytes (pkt s p))) (setLane n (fun l => { l with cur := none }) s)))) := by
  have plain : (fiOf (setLane n (fun l => { l with cur := none }) s) n).txFate = .none := fate
  show execLaneFrameEnd n s = _
  unfold execLaneFrameEnd
  simp only [sends, whole, plain, sentBytes, Bool.false_eq_true, if_false, beq_self_eq_true, if_true]

theorem exec_laneFrameEnd_leaves : ∃ t, exec (.laneFrameEnd n) s = .next t ∧ (lane t n).cur = none ∧ t.pkts = s.pkts.del p ∧
    t.out = s.out ++ [.laneFrame n (sentBytes (pkt s p))] ∧ cntGet t .laneTxFrames n = (cntGet s .laneTxFrames n + 1) % 2 ^ 48 := by
  refine ⟨_, exec_laneFrameEnd sends whole fate, ?_, ?_⟩
  · have idle := congrArg Lane.cur (congrFun (bareLanes_removePkt p (count .laneTxFrames n
      (emit (.laneFrame n (sentBytes (pkt s p))) (setLane n (fun l => { l with cur := none }) s)))) n)
    rw [bareLanes_count, bareLanes_emit, bareLanes_setLane, Function.update_self] at idle
    exact idle
  · obtain ⟨f, q, l, v, e⟩ := removePkt_eq p (count .laneTxFrames n
      (emit (.laneFrame n (sentBytes (pkt s p))) (setLane n (fun l => { l with cur := none }) s)))
    rw [e]
    exact ⟨rfl, rfl, cntGet_countN_same ..⟩

end

/-- Settles O35: what arrives reaches its lane's MAC whole, the lane's choice is the first of its heads that may begin, and the end of
a frame writes what the end of any packet writes. -/
theorem framesArriveAndLeaveOnLanes : Obligations.FramesArriveAndLeaveOnLanes := by
  unfold Obligations.FramesArriveAndLeaveOnLanes
  refine ⟨?received, ?control, ?unheard, ?pause, ?frame, fun _ _ _ _ => nextFrame_spec, fun _ _ _ _ => not_paused_of_mayBegin, ?nothing,
    fun _ _ ui => exec_laneFrameBegin_idle ui, fun _ _ => exec_laneFrameEnd_idle, fun _ _ _ => exec_laneFrameEnd_leaves, ?judged, ?reached⟩
  case received =>
    intro s n bs bad ui corr uncorr state rx clock released here armed fate ctl pause pfc
    have hears : laneHears s n = true := by
      rcases state with ⟨h, -⟩ | h | h <;> simp [laneHears, h, clock, released, here]
    have used : (lane s n).state = 0 → setActive s = false := by
      rcases state with ⟨-, h⟩ | h | h
      · exact fun _ => h
      · exact fun zero => absurd (h.symm.trans zero) (by decide)
      · exact fun zero => absurd (h.symm.trans zero) (by decide)
    have taken := (exec_laneFrameReceived_whole (bs := bs) (bad := bad) ui corr uncorr hears used rx armed fate ctl).trans
      (congrArg Host.Outcome.next (macReceive_whole (s := fecCounted n corr uncorr s) rx ctl pause pfc (laneStamp s n ui true) bad))
    refine ⟨_, taken, ?_⟩
    have spec := takeWhole_spec n (laneStamp s n ui true) bs bad (fecCounted n corr uncorr s)
    rw [cntGet_fecCounted (by decide), cntGet_fecCounted (by decide), cntGet_fecCounted (by decide)] at spec
    exact spec
  case control =>
    intro s n bs bad ui corr uncorr hears used rx armed fate ctl control
    exact (exec_laneFrameReceived_whole ui corr uncorr hears used rx armed fate ctl).trans
      (congrArg Host.Outcome.next (macReceive_control (s := fecCounted n corr uncorr s) rx ctl control _ bad))
  case unheard => exact fun s n bs more bad ui corr uncorr => exec_laneFrameReceived_unheard ui corr uncorr more
  case pause =>
    intro s n ui ts active idle state clock released waits
    refine ⟨_, exec_laneFrameBegin_pause ui ⟨active, idle, state, clock, released⟩ waits, rfl, ?_, ?_⟩
    · rw [lane_count, lane_emit, lane_setLane_same]
    · rw [lane_count, lane_emit, lane_setLane_same]
      exact idle
  case frame =>
    intro s n ui c p active idle state clock released noPause next
    exact exec_laneFrameBegin_sends ui ⟨active, idle, state, clock, released⟩ noPause next
  case nothing =>
    intro s n ui active idle state clock released noPause nothing
    exact exec_laneFrameBegin_nothing ui ⟨active, idle, state, clock, released⟩ noPause nothing
  case judged =>
    intro s n k j p d head launch fresh on
    have judged := judgeHead_launch head launch fresh on j
    refine ⟨fun far => judged.trans (if_pos far), fun near ahead => ?_, fun near reached => ?_⟩
    · rw [if_neg (Int.not_lt.2 near), ahead] at judged
      rw [judged]
      exact ⟨List.mem_cons_self, rfl⟩
    · rw [if_neg (Int.not_lt.2 near), reached] at judged
      exact judged
  case reached =>
    intro s n k
    have ends := exec_launchTimeReached s n k
    generalize judgeHeads n s = u at ends ⊢
    exact ends

end Sys2Proof.Machine

/-! Fragment entries and held fragments (R255 to R259). -/
namespace Sys2Proof.Machine

/-! ## FRAGMENT_DECIDED -/

/-- An entry that still waits for data, within its lifetime, is not freed (R259). -/
theorem fragDone_of_unfinished {s : State} {e : Nat} (total : (s.frags.get e).total = none)
    (young : s.tick < (s.frags.get e).made + (s.frags.get e).life) : fragDone e s = s := by
  unfold fragDone
  dsimp only
  split
  · rfl
  · rw [total]
    exact if_neg (Nat.not_le.2 young)

/-- A ready entry is decided; with no fragment held, none is released (R257). -/
theorem exec_fragmentDecided_unheld {s : State} {e : Nat} (listed : s.frags.has e = true) (undecided : (s.frags.get e).decided = false)
    (ready : (s.frags.get e).ready = true) (unheld : heldOf s (e / 4096) (s.frags.get e).key = []) : exec (.fragmentDecided e) s =
      .next (fragDone e { s with frags := s.frags.put e { s.frags.get e with decided := true } }) := by
  show execFragmentDecided e s = _
  have unheld (m : SMap FragEntry) : heldOf { s with frags := m } (e / 4096) (s.frags.get e).key = [] := unheld
  simp only [execFragmentDecided, listed, undecided, ready, unheld, SMap.upd]
  rfl

theorem exec_fragmentDecided_idle {s : State} {e : Nat}
    (idle : s.frags.has e = false ∨ (s.frags.get e).decided = true ∨ (s.frags.get e).ready = false) :
    exec (.fragmentDecided e) s = .next s :=
  if_pos (by rcases idle with h | h | h <;> simp [h])

/-! ## FRAGMENT_LIFETIME_EXPIRY -/

theorem exec_fragmentLifetimeExpiry_idle {s : State} {e : Nat} (idle : s.frags.has e = false ∨ (s.frags.get e).decided = false ∨
    s.tick < (s.frags.get e).made + (s.frags.get e).life) : exec (.fragmentLifetimeExpiry e) s = .next s :=
  if_neg (by rcases idle with h | h | h <;> simp [h])

theorem exec_fragmentLifetimeExpiry_frees {s : State} {e : Nat} (listed : s.frags.has e = true) (decided : (s.frags.get e).decided = true)
    (old : (s.frags.get e).made + (s.frags.get e).life ≤ s.tick) : exec (.fragmentLifetimeExpiry e) s = .next (freeFrag e s) :=
  if_pos (by simp [listed, decided, old])

@[simp] theorem wayEmptied_pkts (k : Nat) (s : State) : (wayEmptied k s).pkts = s.pkts := by
  unfold wayEmptied testStarts
  dsimp only
  split
  · split
    · rfl
    · exact (pkts_of_core (core_finishExec ..)).trans rfl
  · rfl

theorem freeFrag_frags (e : Nat) (s : State) : (freeFrag e s).frags = s.frags.del e := congrArg Prod.snd (setsFrags_freeFrag e s)

/-- A decided entry holds no fragment back, so its end touches no packet but the one that settled it (R257). -/
theorem freeFrag_pkts_of_decided {s : State} {e : Nat} (decided : (s.frags.get e).decided = true) :
    (freeFrag e s).pkts = s.pkts.mapAll fun _ x => if x.fragOwn = some e then { x with fragOwn := none } else x := by
  simp [freeFrag, decided]

/-! ## FRAGMENT_HOLD_EXPIRY -/

/-- A fragment leaves the hold queue of its pipeline; beside that, its charge and flow control change. -/
theorem unhold_eq (p : Nat) (s : State) : ∃ m v l, unhold p s =
    { s with holdQ := s.holdQ.upd (pkt s p).pipe (·.filter (· != p)), pkts := m, lanes := l, tm := { s.tm with xoff := v } } := by
  obtain ⟨m, charged⟩ := setPkt_eq p (fun x => { x with charge := if x.src == 0 then {} else { x.charge with use := some 1 } })
    { s with holdQ := s.holdQ.upd (pkt s p).pipe (·.filter (· != p)) }
  obtain ⟨v, l, judged⟩ := evalOf_eq (pkt s p)
    { s with holdQ := s.holdQ.upd (pkt s p).pipe (·.filter (· != p)), pkts := m }
  exact ⟨m, v, l, by rw [unhold, charged, judged]⟩

/-- A punt counts nothing but the records that it drops (R127), and leaves the hold queues alone. -/
theorem puntPkt_spec (p reason stage node off : Nat) (s : State) : (puntPkt p reason stage node off s).holdQ = s.holdQ ∧
    ∀ c i, c ≠ .puntDrop → cntGet (puntPkt p reason stage node off s) c i = cntGet s c i := by
  unfold puntPkt
  dsimp only
  obtain ⟨f, q, l, v, removed⟩ := removePkt_eq p (fragFate (pkt s p) 2 reason _)
  rw [removed]
  obtain ⟨m, fated⟩ := fragFate_eq (pkt s p) 2 reason _
  rw [fated]
  split
  · exact ⟨rfl, fun _ _ _ => rfl⟩
  · exact ⟨rfl, fun _ _ other => cntGet_countN_of_ne 1 s (.inl other)⟩

/-- A held fragment whose key has no entry is counted, leaves its hold queue and is punted (R255, R256). -/
def orphaned (p : Nat) (s : State) : State :=
  puntPkt p 0x0312 26 (pkt s p).fragNode (pkt s p).fragEnd (unhold p (count .fragOrphan (pkt s p).pipe s))

theorem exec_fragmentHoldExpiry {s : State} {p : Nat} (here : hasPkt s p = true) (held : (pkt s p).place = .hold)
    (orphan : (s.frags.any fun f => f.1 / 4096 == (pkt s p).pipe && f.2.key == (pkt s p).fragKey) = false)
    (due : (pkt s p).holdAt + 6400 ≤ s.tick) : exec (.fragmentHoldExpiry p) s = .next (orphaned p s) := by
  show execFragmentHoldExpiry p s = _
  unfold execFragmentHoldExpiry
  dsimp only
  rw [here, held, orphan]
  exact if_neg (by simpa using due)

theorem orphaned_spec (p : Nat) (s : State) :
    cntGet (orphaned p s) .fragOrphan (pkt s p).pipe = min (2 ^ 32 - 1) (cntGet s .fragOrphan (pkt s p).pipe + 1) ∧
      p ∉ (orphaned p s).holdQ.get (pkt s p).pipe := by
  obtain ⟨m, v, l, left⟩ := unhold_eq p (count .fragOrphan (pkt s p).pipe s)
  obtain ⟨queues, counts⟩ := puntPkt_spec p 0x0312 26 (pkt s p).fragNode (pkt s p).fragEnd
    (unhold p (count .fragOrphan (pkt s p).pipe s))
  rw [orphaned, queues, counts _ _ (by decide), left]
  refine ⟨cntGet_countN_same .fragOrphan _ 1 s, fun queued => ?_⟩
  have queue : (s.holdQ.upd (pkt s p).pipe (·.filter (· != p))).get (pkt s p).pipe = (s.holdQ.get (pkt s p).pipe).filter (· != p) :=
    SMap.get_upd_same ..
  obtain ⟨-, other⟩ := List.mem_filter.1 (queue ▸ queued)
  exact absurd other (by simp)

end Sys2Proof.Machine

/-! Learn reports (R298, R299). -/
namespace Sys2Proof.Machine

theorem exec_learnReport {s : State} {k : Fin 16} {r : Report} (first : s.reports.find? (fun r => r.home == k.val) = some r) :
    exec (.learnReport k) s = .next (if (s.learns.get k).enable then learnStep k r { s with reports := s.reports.erase r }
      else { s with reports := s.reports.erase r }) := by
  show execLearnReport k s = _
  rw [execLearnReport, first]

/-- The ways of a set of a learn filter. -/
def learnWays (set : Nat) : List Nat := [4 * set, 4 * set + 1, 4 * set + 2, 4 * set + 3]

theorem mem_learnWays {w set : Nat} : w ∈ learnWays set ↔ w / 4 = set := by
  simp only [learnWays, List.mem_cons, List.not_mem_nil, or_false]
  omega

/-- A way holds a key. -/
def learnHit (es : SMap LEntry) (key w : Nat) : Bool := es.has w && (es.get w).key == key

theorem learnHit_iff {es : SMap LEntry} {key w : Nat} : learnHit es key w = true ↔ es.has w = true ∧ (es.get w).key = key := by
  simp [learnHit]

/-- The filter of a pipeline with the entries given. -/
def setLearned (k : Nat) (es : SMap LEntry) (s : State) : State :=
  { s with learns := s.learns.put k { s.learns.get k with entries := es } }

theorem SMap.mem_of_has {α : Type} [Inhabited α] {m : SMap α} {k : Nat} (h : m.has k = true) : (k, m.get k) ∈ m := by
  induction m with
  | nil => exact absurd h (by simp [SMap.has])
  | cons c m ih =>
    obtain ⟨j, a⟩ := c
    by_cases e : j = k
    · subst e
      simp [SMap.get]
    · have later : SMap.has m k = true := by simpa [SMap.has, e] using h
      simpa [SMap.get, e, Ne.symm e] using ih later

section
variable {s : State} {k : Nat} {r : Report} (whole : ∀ e ∈ (s.learns.get k).entries, e.2.corrupt = false)
include whole

/-- No way that is read fails its parity. -/
theorem no_corrupt_way (ws : List Nat) :
    (ws.filter fun w => (s.learns.get k).entries.has w && ((s.learns.get k).entries.get w).corrupt) = [] := by
  refine List.filter_eq_nil_iff.2 fun w _ => ?_
  cases listed : (s.learns.get k).entries.has w
  · simp
  · simpa using whole _ (SMap.mem_of_has listed)

/-- A new key takes its way with the time of the sighting, and LEARN_NEW is posted (R298). -/
theorem learnStep_new (new : (learnWays (r.hash / 16 % 1024)).find? (learnHit (s.learns.get k).entries r.key) = none) :
    ∃ u : State, learnStep k r s = postLearn 0x0301 r 0 u ∧ (u.learns.get k).entries = (s.learns.get k).entries.put
      (learnWay (s.learns.get k).entries (r.hash / 16 % 1024)) { key := r.key, port := r.port, first := r.time } := by
  unfold learnWays learnHit at new
  unfold learnStep
  dsimp only
  rw [no_corrupt_way whole]
  simp only [List.foldl_nil, new]
  exact ⟨_, rfl, by rw [SMap.get_put_same]⟩

/-- A key that is seen again on its port within the window is suppressed and counted (R298). -/
theorem learnStep_seen {w : Nat} (seen : (learnWays (r.hash / 16 % 1024)).find? (learnHit (s.learns.get k).entries r.key) = some w)
    (port : ((s.learns.get k).entries.get w).port = r.port)
    (recent : inWindow (s.learns.get k) ((s.learns.get k).entries.get w) r.time = true) :
    learnStep k r s = count .learnSuppress k (setLearned k (s.learns.get k).entries s) := by
  unfold learnWays learnHit at seen
  unfold learnStep
  dsimp only
  rw [no_corrupt_way whole]
  simp only [List.foldl_nil, seen, recent, port, beq_self_eq_true, if_true]
  rfl

end

@[simp] theorem setLearned_get (k : Nat) (es : SMap LEntry) (s : State) : ((setLearned k es s).learns.get k).entries = es := by
  simp [setLearned]

@[simp] theorem core_postLearn (code : Nat) (r : Report) (old : Nat) (s : State) : core (postLearn code r old s) = core s :=
  core_deliverTo ..

end Sys2Proof.Machine

/-! The ageing scan (R300, R301). -/
namespace Sys2Proof.Machine

/-- A listed entry of an ageing table of the active set is due for a visit of the scanner. -/
structure AgeDue (s : State) (inst table h d : Nat) : Prop where
  active : setActive s = true
  released : s.pwr.released = true
  layout : tableOf (activeSet s) inst table = some d
  ages : tAge d = true
  period : s.ages.get (inst * 256 + table) ≠ 0
  listed : (activeSet s).entries.has (tKey inst table h) = true
  due : ((activeSet s).entries.get (tKey inst table h)).visited = 0 ∨
    ((activeSet s).entries.get (tKey inst table h)).visited + msT (s.ages.get (inst * 256 + table)) ≤ s.tick

theorem exec_ageScanVisit_idle {s : State} {inst table h : Nat} (touched : Bool) (idle : setActive s = false ∨ s.pwr.released = false ∨
    tableOf (activeSet s) inst table = none ∨ s.ages.get (inst * 256 + table) = 0 ∨
    (activeSet s).entries.has (tKey inst table h) = false) : exec (.ageScanVisit inst table h touched) s = .next s := by
  show execAgeScanVisit inst table h touched s = _
  unfold execAgeScanVisit
  dsimp only
  split
  · rfl
  · next d layout =>
    refine if_pos ?_
    rcases idle with h | h | h | h | h
    case inr.inr.inl => exact absurd (h.symm.trans layout) nofun
    all_goals simp [h]

/-- An entry as a visit leaves it that does not delete it: HIT is what fell between its read and its write. -/
def visitedEntry (s : State) (inst table h : Nat) (touched : Bool) : TEntry :=
  { (activeSet s).entries.get (tKey inst table h) with hit := touched, visited := s.tick }

/-- A visit of an entry that is due (R300, R301). -/
theorem exec_ageScanVisit {s : State} {inst table h d : Nat} (due : AgeDue s inst table h d) (touched : Bool) :
    exec (.ageScanVisit inst table h touched) s =
      if (((activeSet s).entries.get (tKey inst table h)).hit || touched) = true then
        .next (updSet s.sets.epoch (fun x => { x with entries := x.entries.put (tKey inst table h) (visitedEntry s inst table h touched) }) s)
      else .next (postAll 0x0304 (if inst < 16 then inst else 16) (fld 255 224 h + fld 223 216 table + fld 215 208 inst)
        (updSet s.sets.epoch (fun x => clearBad inst d h { x with entries := x.entries.del (tKey inst table h) }) s)) := by
  obtain ⟨active, released, layout, ages, period, listed, due⟩ := due
  show execAgeScanVisit inst table h touched s = _
  unfold execAgeScanVisit
  dsimp only
  rw [layout]
  refine if_neg ?_
  have visit : ¬ (((activeSet s).entries.get (tKey inst table h)).visited ≠ 0 ∧
      s.tick < ((activeSet s).entries.get (tKey inst table h)).visited + msT (s.ages.get (inst * 256 + table))) := by omega
  simpa [active, released, ages, period, listed] using visit

/-- Nothing but the sets changes with a change of a set. -/
theorem updSet_withSets (e : Nat) (f : SetSlot → SetSlot) (s : State) : { updSet e f s with sets := s.sets } = s := by
  obtain ⟨a, b, h⟩ := updSet_eq e f s
  rw [h]

theorem activeSet_updSet (f : SetSlot → SetSlot) (s : State) : activeSet (updSet s.sets.epoch f s) = f (activeSet s) := by
  have epoch : (updSet s.sets.epoch f s).sets.epoch = s.sets.epoch := by
    obtain ⟨a, b, h⟩ := updSet_eq s.sets.epoch f s
    rw [h]
  rw [activeSet, epoch, setFor_updSet_same f s rfl, activeSet]

theorem activeSet_of_core {s t : State} (h : core t = core s) : activeSet t = activeSet s := by
  rw [activeSet, activeSet, setFor, setFor, sets_of_core h]

/-- A state but for its sets. -/
theorem core_withSets_congr {s t : State} (h : core t = core s) (x : Sets) : core { t with sets := x } = core { s with sets := x } :=
  congrArg (fun u : State => { u with sets := x }) h

end Sys2Proof.Machine

/-! Punt records handled by a control core (R127). -/
namespace Sys2Proof.Machine

@[simp] theorem core_writePunt (rec_ : Nat) (s : State) : core (writePunt rec_ s) = core s := by
  simp only [writePunt, core_raiseVector, core_setFn, core_hostWrite]

/-- A forwarded record goes to the host, or waits or is counted in its ring: the rest of the adapter does not see it (R124). -/
@[simp] theorem core_forwardPunt (rec_ : Nat) (s : State) : core (forwardPunt rec_ s) = core s := by
  unfold forwardPunt
  dsimp only
  split
  · exact core_writePunt ..
  · split <;> exact core_setFn ..

/-- A state but for its punt queues. -/
theorem core_withPunts_congr {s t : State} (h : core t = core s) (m : SMap (List Punt)) :
    core { t with punts := m } = core { s with punts := m } :=
  congrArg (fun u : State => { u with punts := m }) h

theorem exec_puntHandler_idle {s : State} {k : Fin 16} (idle : s.punts.get k = [] ∨ s.fw.ready = false) :
    exec (.puntHandler k) s = .next s := by
  show execPuntHandler k s = _
  unfold execPuntHandler
  split
  · rfl
  · next r rest queue =>
    exact if_pos (by simpa [queue] using idle)

/-- The oldest record of a pipeline leaves its queue, whether or not a handler forwards it. -/
theorem exec_puntHandler {s : State} {k : Fin 16} {r : Punt} {rest : List Punt} (queue : s.punts.get k = r :: rest)
    (ready : s.fw.ready = true) :
    ∃ t, exec (.puntHandler k) s = .next t ∧ core t = core { s with punts := s.punts.put k rest } := by
  show ∃ t, execPuntHandler k s = .next t ∧ _
  rw [execPuntHandler, queue]
  dsimp only
  rw [ready]
  split
  · contradiction
  · split
    · refine ⟨_, rfl, ?_⟩
      split
      · exact core_forwardPunt ..
      · rfl
    · exact ⟨_, rfl, core_forwardPunt ..⟩

/-- Settles O41: each command is one equation, and what it counts, frees or learns is read off it. -/
theorem fragmentsLearningAndAgeing : Obligations.FragmentsLearningAndAgeing := by
  unfold Obligations.FragmentsLearningAndAgeing
  refine ⟨?decided, fun _ _ => exec_fragmentDecided_idle, fun _ _ => exec_fragmentLifetimeExpiry_idle, ?orphan, ?expires, ?disabled,
    ?learned, fun _ _ _ _ touched => exec_ageScanVisit_idle touched, ?visited, fun _ _ => exec_puntHandler_idle, ?handled⟩
  case decided =>
    intro s e listed undecided ready unheld total young
    exact (exec_fragmentDecided_unheld listed undecided ready unheld).trans
      (congrArg Host.Outcome.next (fragDone_of_unfinished (by simpa using total) (by simpa using young)))
  case orphan =>
    intro s p here held orphan due
    exact ⟨_, exec_fragmentHoldExpiry here held orphan due, orphaned_spec p s⟩
  case expires =>
    intro s e listed decided old
    exact ⟨_, exec_fragmentLifetimeExpiry_frees listed decided old, freeFrag_frags e s, freeFrag_pkts_of_decided decided⟩
  case disabled =>
    intro s k r first off
    rw [exec_learnReport first, off]
    rfl
  case learned =>
    intro s k r first on whole
    refine ⟨_, (exec_learnReport first).trans (congrArg Host.Outcome.next (if_pos on)), fun absent => ?_, fun present => ?_⟩
    · have new : (learnWays (r.hash / 16 % 1024)).find? (learnHit (s.learns.get k).entries r.key) = none :=
        List.find?_eq_none.2 fun w way hit => by
          obtain ⟨listed, same⟩ := learnHit_iff.1 hit
          exact absent w (mem_learnWays.1 way) listed same
      obtain ⟨u, step, learned⟩ := learnStep_new (s := { s with reports := s.reports.erase r }) whole new
      rw [step, learns_of_core (core_postLearn ..), learned, SMap.get_put_same]
    · rintro ⟨v, inSet, listed⟩
      obtain ⟨same, -, -⟩ := present v inSet listed
      obtain ⟨w, seen⟩ := Option.isSome_iff_exists.1
        (List.find?_isSome.2 ⟨v, mem_learnWays.2 inSet, learnHit_iff.2 ⟨listed, same⟩⟩)
      obtain ⟨here, -⟩ := learnHit_iff.1 (List.find?_some seen)
      obtain ⟨-, port, recent⟩ := present w (mem_learnWays.1 (List.mem_of_find?_eq_some seen)) here
      rw [learnStep_seen (s := { s with reports := s.reports.erase r }) whole seen port recent]
      exact ⟨cntGet_countN_same .learnSuppress k 1 s, setLearned_get .., rfl⟩
  case visited =>
    intro s inst table h touched d active released layout ages period listed due
    have visit := exec_ageScanVisit (h := h) ⟨active, released, layout, ages, period, listed, by rw [msT]; omega⟩ touched
    by_cases kept : (((activeSet s).entries.get (tKey inst table h)).hit || touched) = true
    · rw [if_pos kept] at visit
      refine ⟨_, visit, congrArg core (updSet_withSets ..), fun _ => ?_, fun cold untouched => absurd kept (by simp [cold, untouched])⟩
      rw [activeSet_updSet, SMap.get_put_same]
      exact ⟨rfl, rfl, rfl⟩
    · rw [if_neg kept] at visit
      refine ⟨_, visit, ?_, fun hot => absurd (by simpa using hot) kept, fun _ _ => ?_⟩
      · exact (core_withSets_congr (core_postAll ..) s.sets).trans (congrArg core (updSet_withSets ..))
      · rw [activeSet_of_core (core_postAll ..), activeSet_updSet]
        rfl
  case handled =>
    intro s k r rest queue ready
    obtain ⟨t, runs, left⟩ := exec_puntHandler queue ready
    refine ⟨t, runs, ?_, core_withPunts_congr left s.punts⟩
    rw [punts_of_core left]
    exact SMap.get_put_same ..

end Sys2Proof.Machine

/-! Fields of numbers and of headers (R102, R232, R285): what replacing one leaves in it and around it. -/
namespace Sys2Proof.Machine

/-- A number with the `w` bits from bit `lo` on replaced, as its parts above, in and below them. -/
theorem replaced_eq (lo w v x : Nat) : x - x / 2 ^ lo % 2 ^ w * 2 ^ lo + v % 2 ^ w * 2 ^ lo =
    2 ^ lo * (2 ^ w * (x / 2 ^ lo / 2 ^ w) + v % 2 ^ w) + x % 2 ^ lo := by
  have low := Nat.div_add_mod x (2 ^ lo)
  have high := Nat.div_add_mod (x / 2 ^ lo) (2 ^ w)
  have parts : x = 2 ^ lo * (2 ^ w * (x / 2 ^ lo / 2 ^ w)) + x / 2 ^ lo % 2 ^ w * 2 ^ lo + x % 2 ^ lo := by
    rw [Nat.mul_comm (_ % _), ← Nat.mul_add, high, low]
  rw [Nat.mul_add, Nat.mul_comm (2 ^ lo) (v % 2 ^ w)]
  omega

theorem replaced_field (lo w v x : Nat) :
    (2 ^ lo * (2 ^ w * (x / 2 ^ lo / 2 ^ w) + v % 2 ^ w) + x % 2 ^ lo) / 2 ^ lo % 2 ^ w = v % 2 ^ w := by
  rw [Nat.mul_add_div (Nat.two_pow_pos lo), Nat.div_eq_of_lt (Nat.mod_lt _ (Nat.two_pow_pos lo)), Nat.add_zero, Nat.mul_add_mod,
    Nat.mod_mod]

theorem setFld_eq (hi lo v x : Nat) : setFld hi lo v x =
    2 ^ lo * (2 ^ (hi + 1 - lo) * (x / 2 ^ lo / 2 ^ (hi + 1 - lo)) + v % 2 ^ (hi + 1 - lo)) + x % 2 ^ lo := by
  rw [setFld, bits, fld, Nat.shiftRight_eq_div_pow, Nat.shiftLeft_eq, replaced_eq]

@[simp] theorem bits_setFld (hi lo v x : Nat) : bits hi lo (setFld hi lo v x) = v % 2 ^ (hi + 1 - lo) := by
  rw [bits, Nat.shiftRight_eq_div_pow, setFld_eq, replaced_field]

theorem testBit_setFld_of_outside {hi lo b : Nat} (v x : Nat) (outside : b < lo ∨ hi < b) :
    (setFld hi lo v x).testBit b = x.testBit b := by
  rw [setFld_eq, Nat.testBit_two_pow_mul_add _ (Nat.mod_lt _ (Nat.two_pow_pos lo))]
  split
  · next below => simp [Nat.testBit_mod_two_pow, below]
  · next above =>
    rw [Nat.testBit_two_pow_mul_add _ (Nat.mod_lt _ (Nat.two_pow_pos _)), if_neg (by omega), Nat.testBit_div_two_pow,
      Nat.testBit_div_two_pow]
    congr 1
    omega

theorem testBit_bits (hi lo x i : Nat) : (bits hi lo x).testBit i = (decide (i < hi + 1 - lo) && x.testBit (lo + i)) := by
  rw [bits, Nat.testBit_mod_two_pow, Nat.testBit_shiftRight]

/-- A field below the one that is replaced keeps its value. -/
theorem bits_setFld_of_below {hi lo hi' lo' : Nat} (below : hi < lo') (v x : Nat) : bits hi lo (setFld hi' lo' v x) = bits hi lo x := by
  refine Nat.eq_of_testBit_eq fun i => ?_
  rw [testBit_bits, testBit_bits]
  by_cases inside : i < hi + 1 - lo
  · rw [testBit_setFld_of_outside v x (Or.inl (by omega))]
  · simp [inside]

/-- The low `w` bits of a sum with a signed 32-bit value are those of the sum with its bits (R71). -/
theorem ofSigned_add_toSigned {w : Nat} (narrow : w ≤ 32) (a b : Nat) : ofSigned 32 (a + toSigned 32 b) % 2 ^ w = (a + b) % 2 ^ w := by
  have whole : ofSigned 32 (a + toSigned 32 b) = (a + b) % 2 ^ 32 := by
    unfold ofSigned toSigned
    split <;> omega
  rw [whole, Nat.mod_mod_of_dvd _ (Nat.pow_dvd_pow 2 narrow)]

/-! Fields of a header (R232). -/

@[simp] theorem length_bytesBE (n x : Nat) : (bytesBE n x).length = n := by simp [bytesBE, length_bytesOf]

theorem ofBytesBE_concat (bs : List Byte) (b : Byte) : ofBytesBE (bs ++ [b]) = ofBytesBE bs * 256 + b.toNat := by
  simp [ofBytesBE]

theorem ofBytesBE_bytesBE (n x : Nat) : ofBytesBE (bytesBE n x) = x % 256 ^ n := by
  induction n generalizing x with
  | zero => simp [bytesBE, bytesOf, ofBytesBE, Nat.mod_one]
  | succ n ih =>
    have last : bytesBE (n + 1) x = bytesBE n (x / 256) ++ [BitVec.ofNat 8 x] := by simp [bytesBE, bytesOf]
    rw [last, ofBytesBE_concat, ih, BitVec.toNat_ofNat, Nat.pow_succ' (n := n), Nat.mod_mul]
    omega

/-- A field that lies within the low `m` bits is read from them alone. -/
theorem mod_div_mod_two_pow {k w m : Nat} (inside : k + w ≤ m) (x : Nat) : x % 2 ^ m / 2 ^ k % 2 ^ w = x / 2 ^ k % 2 ^ w := by
  refine Nat.eq_of_testBit_eq fun i => ?_
  simp only [Nat.testBit_mod_two_pow, Nat.testBit_div_two_pow]
  by_cases low : i < w
  · rw [decide_eq_true (show i + k < m by omega), Bool.true_and]
  · simp [low]

section
variable {bs : List Byte} {off b w : Nat} (inside : 8 * off + b + w ≤ 8 * bs.length)
include inside

theorem length_writeField (v : Nat) : (writeField bs off b w v).length = bs.length := by
  simp only [writeField, List.length_append, List.length_take, List.length_drop, length_bytesBE]
  omega

theorem hdrField_writeField (v : Nat) : hdrField (writeField bs off b w v) off b w = v % 2 ^ w := by
  have start : (bs.take (off + b / 8)).length = off + b / 8 := by rw [List.length_take]; omega
  unfold hdrField writeField
  dsimp only
  rw [List.append_assoc, List.drop_append_of_le_length start.ge, List.drop_of_length_le start.le, List.nil_append,
    List.take_append_of_le_length (length_bytesBE ..).ge, List.take_of_length_le (length_bytesBE ..).le, ofBytesBE_bytesBE, replaced_eq,
    show 256 = 2 ^ 8 from rfl, ← Nat.pow_mul, mod_div_mod_two_pow (by omega), replaced_field]

end

end Sys2Proof.Machine


/-! Ageing, learning and features (R152, R299, R301). -/
namespace Sys2Proof.Machine

/-- TBL_AGE_CFG accepts a table of the active set that can age, with P 0 or from its least period to 3,600,000 ms (R301). -/
theorem ageArgs_eq_none {s : State} {c : CmdPkt} {d : Nat} (inst : c.p 0 1 ≤ 15 ∨ c.p 0 1 = 0xFF) (zero : c.p 2 2 = 0)
    (rest : c.p 8 40 = 0) (longest : c.p 4 4 ≤ 3600000) (active : setActive s = true)
    (table : tableOf (activeSet s) (c.p 0 1) (c.p 1 1) = some d) (counter : tKind d ≠ 4) (ref : tKind d ≠ 5)
    (least : c.p 4 4 = 0 ∨ tRows d * (if tKind d == 6 then 8 else 40) ≤ c.p 4 4 * 1000000) : ageArgs s c = none := by
  have named : ¬ (c.p 0 1 > 15 ∧ c.p 0 1 ≠ 0xFF) := by omega
  have long : ¬ (c.p 4 4 ≠ 0 ∧ c.p 4 4 * 1000000 < tRows d * (if tKind d == 6 then 8 else 40)) := by omega
  have words : ¬ ((((c.p 0 1 > 15 && c.p 0 1 != 0xFF) || c.p 2 2 != 0 || c.p 8 40 != 0 || c.p 4 4 > 3600000) : Bool) = true) := by
    simpa [zero, rest, longest] using named
  have period : ¬ ((tKind d == 4 || tKind d == 5 ||
      (c.p 4 4 != 0 && decide (c.p 4 4 * 1000000 < tRows d * (if tKind d == 6 then 8 else 40)))) = true) := by
    simpa [counter, ref] using long
  unfold ageArgs
  dsimp only
  rw [if_neg words, if_pos active, table]
  exact if_neg period

theorem exec_learnCfg {c : CmdPkt} {s : State} (runs : Runs 0x0307 .A false always c s) (zero : c.p 1 1 = 0) (flag : c.p 4 1 ≤ 1)
    (rest : c.p 5 43 = 0) : exec (.learnCfg c) s =
      if c.p 0 1 ≤ 15 ∧ 1 ≤ c.p 2 2 ∧ c.p 2 2 ≤ 1024 then
        repliesOk c s { taken c s with
          learns := s.learns.put (c.p 0 1)
            { window := c.p 2 2, enable := c.p 4 1 == 1, entries := if c.p 4 1 = 1 then (s.learns.get (c.p 0 1)).entries else [] } } 0
      else refusesWith c s stBadParam := by
  split
  · next range =>
    obtain ⟨pipe, short, long⟩ := range
    refine congrArg Host.Outcome.next (runCmd_done runs ?_ ?_)
    · simp [firstOf, zero, flag, rest, pipe, long, Nat.one_le_iff_ne_zero.1 short]
    · simp only [beq_iff_eq]
      rfl
  · next outside =>
    have out : (decide (c.p 0 1 > 15) || c.p 1 1 != 0 || c.p 2 2 == 0 || decide (c.p 2 2 > 1024) || decide (c.p 4 1 > 1) ||
        c.p 5 43 != 0) = true := by
      simp only [Bool.or_eq_true, decide_eq_true_eq, bne_iff_ne, beq_iff_eq]
      omega
    exact congrArg Host.Outcome.next (runCmd_refuses runs (by rw [firstOf, out]; rfl))

/-- The enabled features with one of a resource switched on or off. -/
def featsWith (r : Nat × Nat × Nat) (on : Bool) (l : List (Nat × Nat × Nat)) : List (Nat × Nat × Nat) :=
  if on then r :: l.filter (· != r) else l.filter (· != r)

theorem contains_featsWith_same (r : Nat × Nat × Nat) (on : Bool) (l : List (Nat × Nat × Nat)) :
    (featsWith r on l).contains r = on := by
  cases on <;> simp [featsWith]

theorem contains_featsWith_of_ne {q r : Nat × Nat × Nat} (other : q ≠ r) (on : Bool) (l : List (Nat × Nat × Nat)) :
    (featsWith r on l).contains q = l.contains q := by
  cases on <;> simp [featsWith, other]

/-- FEATURE_ENABLE's feature is switched, and a ball that is switched off loses its strobe (R152). -/
def featSwitched (c : CmdPkt) (s : State) : State :=
  let r := (c.p 2 1, c.p 4 2, c.p 0 2)
  let u := { s with sets := { s.sets with feats := featsWith r (c.p 6 1 == 1) s.sets.feats } }
  if c.p 6 1 == 0 && r.1 == 1 then { u with strobe := s.strobe.del r.2.1 } else u

theorem featSwitched_eq (c : CmdPkt) (s : State) : ∃ st, featSwitched c s = { s with
    sets := { s.sets with feats := featsWith (c.p 2 1, c.p 4 2, c.p 0 2) (c.p 6 1 == 1) s.sets.feats }, strobe := st } := by
  unfold featSwitched
  dsimp only
  split <;> exact ⟨_, rfl⟩

theorem exec_featureEnable {c : CmdPkt} {s : State} (runs : Runs 0x0405 .A false always c s) : exec (.featureEnable c) s =
    if featureOk (c.p 2 1) (c.p 4 2) (c.p 0 2) = false ∨ 1 < c.p 6 1 then refusesWith c s stBadParam
    else if setActive s = true ∧ ownerFeature (activeSet s) (c.p 2 1) (c.p 4 2) = c.p 0 2 then
      repliesOk c s (featSwitched c (taken c s)) 0
    else refusesWith c s stConflict := by
  have active : setActive (taken c s) = setActive s := rfl
  have sets : activeSet (taken c s) = activeSet s := rfl
  split
  · next unsuited => exact congrArg Host.Outcome.next (runCmd_refuses runs (by simp [unsuited]))
  · next suited =>
    split
    · next owned => exact congrArg Host.Outcome.next (runCmd_done runs (by simp [suited, active, sets, owned]) rfl)
    · next disowned => exact congrArg Host.Outcome.next (runCmd_refuses runs (by simp [suited, active, sets]; simpa using disowned))

/-- Settles O23: each command by its check, and the features by what switching one leaves of the list. -/
theorem ageingAndLearningAreConfigured : Obligations.AgeingAndLearningAreConfigured := by
  unfold Obligations.AgeingAndLearningAreConfigured
  refine ⟨?ages, fun c s => exec_learnCfg, ?features⟩
  case ages =>
    intro c s d runs inst zero rest longest active table counter ref least
    exact congrArg Host.Outcome.next
      (runCmd_done runs (ageArgs_eq_none (s := taken c s) inst zero rest longest active table counter ref least) rfl)
  case features =>
    intro c s runs
    rw [exec_featureEnable runs]
    split
    · rfl
    · split
      · obtain ⟨st, switched⟩ := featSwitched_eq c (taken c s)
        refine ⟨featSwitched c (taken c s), rfl, by rw [switched], ?_, fun k i f other => ?_⟩
        · rw [switched]
          simp only [featOn, contains_featsWith_same, beq_iff_eq]
        · rw [switched]
          exact contains_featsWith_of_ne other ..
      · rfl

end Sys2Proof.Machine

/-! Action instructions (R285, R286): the head instruction is taken from the packet's work, and what it does to the field of its
destination. -/
namespace Sys2Proof.Machine

/-- A packet with one instruction less to run. -/
def Pkt.headless (x : Pkt) : Pkt := { x with work := x.work.drop 1 }

/-- The head instruction of a packet is taken. -/
def instrTaken (p : Nat) (s : State) : State := setPkt p Pkt.headless s

theorem instrTaken_eq (p : Nat) (s : State) : ∃ m, instrTaken p s = { s with pkts := m } := setPkt_eq ..

theorem hasPkt_of_head {s : State} {p op : Nat} {w : Work} (head : headWork s p op = some w) : hasPkt s p = true := by
  unfold headWork at head
  split at head
  · split at head
    · next listed => exact (Bool.and_eq_true_iff.1 (Bool.and_eq_true_iff.1 listed).1).1
    · cases head
  · cases head

theorem runInstr_of_head {s : State} {p op : Nat} {w : Work} (head : headWork s p op = some w) (eff : Work → State → State) :
    runInstr op p eff s = .next (goOn p (eff w (instrTaken p s))) := by
  rw [runInstr, head]
  rfl

section
variable {s : State} {p : Nat} (here : hasPkt s p = true)
include here

theorem hasPkt_instrTaken : hasPkt (instrTaken p s) p = true := hasPkt_setPkt here _

theorem pkt_instrTaken : pkt (instrTaken p s) p = (pkt s p).headless := pkt_setPkt_same here _

/-- The packet after an effect on it alone. -/
theorem pkt_setPkt_instrTaken (f : Pkt → Pkt) : pkt (setPkt p f (instrTaken p s)) p = f (pkt s p).headless := by
  rw [pkt_setPkt_same (hasPkt_instrTaken here), pkt_instrTaken here]

theorem tookInstr_instrTaken : tookInstr p s (instrTaken p s) := by
  obtain ⟨m, e⟩ := instrTaken_eq p s
  refine ⟨by rw [e], ?_⟩
  rw [pkt_instrTaken here]
  exact ⟨rfl, rfl⟩

/-- An effect on the packet alone that keeps its bytes and its work takes the instruction and no more. -/
theorem tookInstr_setPkt {f : Pkt → Pkt} (bytes : (f (pkt s p).headless).bytes = (pkt s p).bytes)
    (work : (f (pkt s p).headless).work = (pkt s p).work.drop 1) : tookInstr p s (setPkt p f (instrTaken p s)) := by
  obtain ⟨m, taken⟩ := instrTaken_eq p s
  obtain ⟨n, changed⟩ := setPkt_eq p f { s with pkts := m }
  refine ⟨by rw [taken, changed], ?_⟩
  rw [pkt_setPkt_instrTaken here]
  exact ⟨bytes, work⟩

/-- A write of the destination's field by `v` is one by whatever agrees with `v` in the field's width. -/
theorem setsField_setPkt {w : Work} {f : Pkt → Pkt} {v a : Nat} (sets : f (pkt s p).headless = setDst w.word v (pkt s p).headless)
    (value : v % 2 ^ wWidth w.word = a % 2 ^ wWidth w.word) : setsField p w a s (setPkt p f (instrTaken p s)) := by
  have width : wLsb w.word + wWidth w.word - 1 + 1 - wLsb w.word = wWidth w.word := by simp only [wWidth]; omega
  refine ⟨tookInstr_setPkt here (by rw [sets]; rfl) (by rw [sets]; rfl), ?_⟩
  rw [pkt_setPkt_instrTaken here, sets]
  refine ⟨?_, fun b outside => ?_, fun c other => SMap.get_put_ne _ _ other.symm⟩
  · simp only [fieldOf, setDst, SMap.get_put_same, bits_setFld, width, value]
  · simp only [setDst, SMap.get_put_same]
    exact testBit_setFld_of_outside _ _ (by omega)

end

/-- An instruction that writes the field of its destination. -/
theorem runInstr_setsField {s : State} {p op : Nat} {w : Work} (head : headWork s p op = some w) {g : Work → Pkt → Nat} {a : Nat}
    (value : g w (pkt s p).headless % 2 ^ wWidth w.word = a % 2 ^ wWidth w.word) :
    ∃ u, runInstr op p (onPkt p fun w x => setDst w.word (g w x) x) s = .next (goOn p u) ∧ setsField p w a s u :=
  ⟨_, runInstr_of_head head _, setsField_setPkt (hasPkt_of_head head) rfl value⟩

theorem wWidth_le (w : Nat) : wWidth w ≤ 32 := by simp only [wWidth, bits]; omega

/-- SETIF's bit number and value are the two fields of its immediate. -/
theorem wImm_parts (w : Nat) : wImm w / 2 ^ 27 = bits 31 27 (wImm w) ∧ wImm w % 2 ^ 27 = bits 26 0 (wImm w) := by
  simp only [wImm, bits, Nat.shiftRight_eq_div_pow]
  omega

/-- SETIF's effect on the packet. -/
def setIf (w : Nat) (x : Pkt) : Pkt :=
  if (x.conts.get (wSrc w)).testBit (bits 31 27 (wImm w)) then setDst w (bits 26 0 (wImm w)) x else x

theorem exec_setif {s : State} {p : Nat} {w : Work} (head : headWork s p 0x08 = some w) : ∃ u, exec (.setif p) s = .next (goOn p u) ∧
    if ((pkt s p).conts.get (wSrc w.word)).testBit (bits 31 27 (wImm w.word)) then setsField p w (bits 26 0 (wImm w.word)) s u
    else tookInstr p s u ∧ (pkt u p).conts = (pkt s p).conts := by
  have here := hasPkt_of_head head
  have runs : exec (.setif p) s = .next (goOn p (setPkt p (setIf w.word) (instrTaken p s))) := by
    obtain ⟨bit, value⟩ := wImm_parts w.word
    refine (runInstr_of_head head _).trans ?_
    simp only [onPkt, bit, value]
    rfl
  refine ⟨_, runs, ?_⟩
  split
  · next one => exact setsField_setPkt here (if_pos one) rfl
  · next zero =>
    have kept : setIf w.word (pkt s p).headless = (pkt s p).headless := if_neg zero
    exact ⟨tookInstr_setPkt here (by rw [kept]; rfl) (by rw [kept]; rfl), by rw [pkt_setPkt_instrTaken here, kept]; rfl⟩

/-- Settles O38: each instruction writes the field of its destination, SETIF where its bit of SRC is 1. -/
theorem arithmeticInstructionsSetTheirField : Obligations.ArithmeticInstructionsSetTheirField := by
  unfold Obligations.ArithmeticInstructionsSetTheirField
  refine ⟨?nop, ?set, ?copy, ?data, ?add, ?and, ?or, ?xor, fun _ _ _ => exec_setif⟩
  case nop =>
    intro s p w head
    have here := hasPkt_of_head head
    exact ⟨_, runInstr_of_head head fun _ s => s, tookInstr_instrTaken here, by rw [pkt_instrTaken here]; rfl⟩
  case set => exact fun _ _ _ head => runInstr_setsField head rfl
  case copy => exact fun _ _ _ head => runInstr_setsField head rfl
  case data => exact fun _ _ _ head => runInstr_setsField head rfl
  case add => exact fun _ _ _ head => runInstr_setsField head (ofSigned_add_toSigned (wWidth_le _) _ _).symm
  case and => exact fun _ _ _ head => runInstr_setsField head rfl
  case or => exact fun _ _ _ head => runInstr_setsField head rfl
  case xor => exact fun _ _ _ head => runInstr_setsField head rfl

end Sys2Proof.Machine

/-! The counters of lanes and pipelines (R227, R262, R305): no loss of packets, of host links or of Kiln's units counts in them, and so
neither does a row read with a parity error (R294), whatever it leads to. -/
namespace Sys2Proof.Machine

theorem foldl_cnts {α : Type} {f : State → α → State} (h : ∀ s a, (f s a).cnts = s.cnts) (l : List α) (s : State) :
    (l.foldl f s).cnts = s.cnts := by
  induction l generalizing s with
  | nil => rfl
  | cons a l ih => rw [List.foldl_cons, ih, h]

/-! Packets and leaves. -/

@[simp] theorem evalOf_cnts (x : Pkt) (s : State) : (evalOf x s).cnts = s.cnts := by
  obtain ⟨v, l, e⟩ := evalOf_eq x s
  rw [e]

@[simp] theorem removePkt_cnts (p : Nat) (s : State) : (removePkt p s).cnts = s.cnts := by
  obtain ⟨f, q, l, v, e⟩ := removePkt_eq p s
  rw [e]

@[simp] theorem freeStamps_cnts (es : List CplEntry) (s : State) : (freeStamps es s).cnts = s.cnts := by
  refine foldl_cnts (fun s e => ?_) es s
  unfold freeHeld
  split
  · refine (evalOf_cnts ..).trans ?_
    split <;> rfl
  · split <;> rfl

@[simp] theorem placePath_cnts (n : Nat) (s : State) : (placePath n s).cnts = s.cnts := by
  unfold placePath
  split
  · obtain ⟨v, e⟩ := placeNodes_eq (nodePath (activeSet s) n) s
    rw [e]
  · rfl

@[simp] theorem dropLeafIf_cnts (n : Nat) (f : Pkt → Bool) (s : State) : (dropLeafIf n f s).cnts = s.cnts :=
  (placePath_cnts ..).trans (foldl_cnts (fun s p => removePkt_cnts p s) _ _)

@[simp] theorem dropLeaves_cnts (iid : Nat) (s : State) : (dropLeaves iid s).cnts = s.cnts :=
  foldl_cnts (fun _ _ => dropLeafIf_cnts ..) _ s

@[simp] theorem discardDelivery_cnts (iid : Nat) (s : State) : (discardDelivery iid s).cnts = s.cnts :=
  foldl_cnts (fun s p => removePkt_cnts p s) _ _

/-! Transport objects. -/

@[simp] theorem abandonRecord_cnts (silent : Bool) (n : Nat) (s : State) : (abandonRecord silent n s).cnts = s.cnts := by
  unfold abandonRecord
  dsimp only
  repeat' split
  all_goals rfl

@[simp] theorem dropFormed_cnts (n : Nat) (s : State) : (dropFormed n s).cnts = s.cnts := dropLeafIf_cnts ..

@[simp] theorem setObj_cnts (n : Nat) (f : Obj → Obj) (s : State) : (setObj n f s).cnts = s.cnts := by
  unfold setObj
  split <;> rfl

@[simp] theorem errObjectsOf_cnts (iid : Nat) (s : State) : (errObjectsOf iid s).cnts = s.cnts :=
  foldl_cnts (fun s n => by simp) _ s

@[simp] theorem destroyObject_cnts (n : Nat) (s : State) : (destroyObject n s).cnts = s.cnts :=
  (abandonRecord_cnts ..).trans (dropFormed_cnts ..)

@[simp] theorem destroyObjectsOf_cnts (iid : Nat) (s : State) : (destroyObjectsOf iid s).cnts = s.cnts :=
  foldl_cnts (fun s n => destroyObject_cnts n s) _ s

/-! Mailboxes, functions and host links. -/

@[simp] theorem endMessage_cnts (iid : Nat) (sec : Bool) (r : Nat) (s : State) : (endMessage iid sec r s).cnts = s.cnts := by
  unfold endMessage
  dsimp only
  split
  · exact raiseVector_cnts ..
  · rfl

@[simp] theorem sendNotice_cnts (iid type w : Nat) (s : State) : (sendNotice iid type w s).cnts = s.cnts := by
  unfold sendNotice fillChannel
  dsimp only
  repeat' split
  · exact raiseVector_cnts ..
  all_goals rfl

@[simp] theorem discardUnread_cnts (iid cause : Nat) (l : List (Nat × MboxChan)) (s : State) :
    (discardUnread iid cause l s).cnts = s.cnts := by
  induction l generalizing s with
  | nil => rfl
  | cons c l ih =>
    unfold discardUnread
    dsimp only
    split
    · rw [ih, deliverEvent_cnts]
      split
      · rfl
      · exact endMessage_cnts ..
    · exact ih s

@[simp] theorem resetMailbox_cnts (iid cause : Nat) (s : State) : (resetMailbox iid cause s).cnts = s.cnts := by
  refine Eq.trans ?_ (discardUnread_cnts iid cause ((fnOf s iid).chans ++ [(0x4000, (fnOf s iid).secChan)]) s)
  unfold resetMailbox
  dsimp only
  repeat' split
  all_goals rfl

@[simp] theorem resetInstance_cnts (iid cause : Nat) (s : State) : (resetInstance iid cause s).cnts = s.cnts := by
  have finished (rs : List (Nat × Bool)) (st d : Nat) (s : State) : (finishRings rs st d s).cnts = s.cnts :=
    foldl_cnts (fun _ _ => finishExec_cnts ..) rs s
  have stopped (s : State) : (stopLogging iid s).cnts = s.cnts := by
    unfold stopLogging
    split
    · exact sendNotice_cnts ..
    · rfl
  have forgotten : (forgetRings iid s).cnts = s.cnts := rfl
  have dropped (s : State) : (dropReqs iid (fun _ => true) s).cnts = s.cnts := rfl
  simp [resetInstance, finished, stopped, forgotten, dropped]

@[simp] theorem discardWork_cnts (iid : Nat) (s : State) : (discardWork iid s).cnts = s.cnts := by
  unfold discardWork
  dsimp only
  rw [errObjectsOf_cnts]
  exact (dropLeaves_cnts ..).trans (freeStamps_cnts ..)

@[simp] theorem resetWhole_cnts (iid cause : Nat) (s : State) : (resetWhole iid cause s).cnts = s.cnts := by
  have reset : (setFn iid resetFunction (resetInstance iid cause (discardWork iid s))).cnts = s.cnts := by simp
  unfold resetWhole
  dsimp only
  split <;> exact reset

@[simp] theorem endReset_cnts (iid cause : Nat) (s : State) : (endReset iid cause s).cnts = s.cnts := sendNotice_cnts ..

@[simp] theorem endVfs_cnts (cause : Nat) (l : List Nat) (s : State) : (endVfs cause l s).cnts = s.cnts := by
  induction l generalizing s with
  | nil => rfl
  | cons v l ih => simp [endVfs, ih, endVf]

@[simp] theorem linkLoss_cnts (h : Nat) (perst : Bool) (s : State) : (linkLoss h perst s).cnts = s.cnts := by
  have forgotten : (forgetRings (h * 4096) s).cnts = s.cnts := rfl
  unfold linkLoss
  dsimp only
  rw [deliverEvent_cnts]
  split <;> simp [forgotten]

/-! The safe state and Kiln's policy (R45, R585 to R588). -/

@[simp] theorem kilnHalt_cnts (s : State) : (kilnHalt s).cnts = s.cnts := by rw [kilnHalt_eq]

@[simp] theorem undoAll_cnts (s : State) : (undoAll s).cnts = s.cnts := by
  refine foldl_cnts (fun s f => foldl_cnts (fun s c => ?_) _ s) _ s
  unfold undoExec
  dsimp only
  repeat' split
  all_goals rfl

@[simp] theorem hostPortsReset_cnts (s : State) : (hostPortsReset s).cnts = s.cnts :=
  foldl_cnts (fun s h => by split <;> simp) _ s

@[simp] theorem lanesSquelch_cnts (s : State) : (lanesSquelch s).cnts = s.cnts := rfl
@[simp] theorem packetsLost_cnts (s : State) : (packetsLost s).cnts = s.cnts := rfl

@[simp] theorem enterSafe_cnts (s : State) : (enterSafe s).cnts = s.cnts := by simp [enterSafe]

@[simp] theorem setRot_cnts (i : Nat) (f : Rot → Rot) (s : State) : (setRot i f s).cnts = s.cnts := by
  rw [eq_of_withoutKiln (withoutKiln_setRot i f s)]

@[simp] theorem queueTest_cnts (slice : Nat) (s : State) : (queueTest slice s).cnts = s.cnts := by
  obtain ⟨k, e⟩ := queueTest_eq slice s
  rw [e]

@[simp] theorem lastingLogical_cnts (slice b : Nat) (service : Bool) (s : State) : (lastingLogical slice b service s).cnts = s.cnts := by
  unfold lastingLogical
  split
  · exact (postAll_cnts ..).trans (setRot_cnts ..)
  · simp [holdBy]

@[simp] theorem bankError_cnts (k b row : Nat) (s : State) : (bankError k b row s).cnts = s.cnts := by
  have counted : (kilnErr 0 1 s).cnts = s.cnts := rfl
  have mended (s : State) : (mendBank k b (some row) s).cnts = s.cnts := rfl
  unfold bankError
  dsimp only
  repeat' split
  all_goals simp [counted, mended]

theorem postParity_cnts (table inst bank row words hbm phys : Nat) (s : State) :
    (postParity table inst bank row words hbm phys s).cnts = s.cnts := by
  unfold postParity
  dsimp only
  split
  · exact postAll_cnts ..
  · rfl

/-- A row read with a parity error counts in no counter of the pipelines (R294). -/
theorem rowError_cnts (inst d r words : Nat) (s : State) : (rowError inst d r words s).cnts = s.cnts := by
  unfold rowError
  dsimp only
  split
  · exact postParity_cnts ..
  · split
    · rfl
    · exact (bankError_cnts ..).trans (postParity_cnts ..)

end Sys2Proof.Machine

/-! Instructions on counters, policers, headers and the disposition (R286, R287, R297, R328). -/
namespace Sys2Proof.Machine

@[simp] theorem instrTaken_sets (p : Nat) (s : State) : (instrTaken p s).sets = s.sets := by
  obtain ⟨m, e⟩ := instrTaken_eq p s
  rw [e]
@[simp] theorem setPkt_tm (p : Nat) (f : Pkt → Pkt) (s : State) : (setPkt p f s).tm = s.tm := by
  obtain ⟨m, e⟩ := setPkt_eq p f s
  rw [e]
@[simp] theorem instrTaken_tm (p : Nat) (s : State) : (instrTaken p s).tm = s.tm := setPkt_tm ..
@[simp] theorem instrTaken_cnts (p : Nat) (s : State) : (instrTaken p s).cnts = s.cnts := by
  obtain ⟨m, e⟩ := instrTaken_eq p s
  rw [e]
@[simp] theorem instrTaken_time (p : Nat) (s : State) : (instrTaken p s).time = s.time := by
  obtain ⟨m, e⟩ := instrTaken_eq p s
  rw [e]
@[simp] theorem instrTaken_reports (p : Nat) (s : State) : (instrTaken p s).reports = s.reports := by
  obtain ⟨m, e⟩ := instrTaken_eq p s
  rw [e]
@[simp] theorem setFor_instrTaken (p e : Nat) (s : State) : setFor (instrTaken p s) e = setFor s e := by
  rw [setFor, instrTaken_sets, setFor]

@[simp] theorem Pkt.headless_epoch (x : Pkt) : x.headless.epoch = x.epoch := rfl
@[simp] theorem Pkt.headless_pipe (x : Pkt) : x.headless.pipe = x.pipe := rfl
@[simp] theorem Pkt.headless_arriving (x : Pkt) : x.headless.arriving = x.arriving := rfl
@[simp] theorem Pkt.headless_raw (x : Pkt) : x.headless.raw = x.raw := rfl
@[simp] theorem Pkt.headless_conts (x : Pkt) : x.headless.conts = x.conts := rfl
@[simp] theorem Pkt.headless_insts (x : Pkt) : x.headless.insts = x.insts := rfl
@[simp] theorem fieldOf_headless (w c : Nat) (x : Pkt) : fieldOf w c x.headless = fieldOf w c x := rfl
@[simp] theorem instValid_headless (x : Pkt) (i : Nat) : instValid x.headless i = instValid x i := rfl
@[simp] theorem md_headless (x : Pkt) (i : Nat) : md x.headless i = md x i := rfl

@[simp] theorem updSet_cnts (e : Nat) (f : SetSlot → SetSlot) (s : State) : (updSet e f s).cnts = s.cnts := by
  obtain ⟨a, b, h⟩ := updSet_eq e f s
  rw [h]

theorem cntGet_of_cnts {s t : State} (h : t.cnts = s.cnts) (c : Cnt) (i : Nat) : cntGet t c i = cntGet s c i := by
  rw [cntGet, h, cntGet]

/-! ## An instruction without effect (R286) -/

/-- Of a packet whose frame has ended, an instruction without effect is taken and counts an action fault. -/
theorem actFault_instrTaken {s : State} {p : Nat} (here : hasPkt s p = true) (ended : (pkt s p).arriving = false) :
    (actFault p (instrTaken p s)).sets = s.sets ∧ (actFault p (instrTaken p s)).tm = s.tm ∧
      pkt (actFault p (instrTaken p s)) p = (pkt s p).headless ∧
      cntGet (actFault p (instrTaken p s)) .actionFault (pkt s p).pipe = min (2 ^ 32 - 1) (cntGet s .actionFault (pkt s p).pipe + 1) := by
  have counted : actFault p (instrTaken p s) = count .actionFault (pkt s p).pipe (instrTaken p s) := by
    simp [actFault, doEffect, pkt_instrTaken here, ended, applyEffect, pipeCnt]
  rw [counted]
  refine ⟨instrTaken_sets .., instrTaken_tm .., pkt_instrTaken here, (cntGet_countN_same ..).trans ?_⟩
  rw [cntGet_of_cnts (instrTaken_cnts p s)]
  rfl

/-! ## COUNT (R286, R295) -/

section
variable {s : State} {p : Nat} {w : Work}

theorem exec_count_listed {d : Nat} (head : headWork s p 0x09 = some w)
    (listed : tableOf (setFor s (pkt s p).epoch) (pkt s p).pipe (wImm w.word % 256) = some d) :
    exec (.count p) s = .next (goOn p
      (if wImm w.word / 256 + fieldOf w.word (wSrc w.word) (pkt s p) < tEntries d then
        countIn p (wImm w.word % 256) d (wImm w.word / 256 + fieldOf w.word (wSrc w.word) (pkt s p)) (instrTaken p s)
      else actFault p (instrTaken p s))) := by
  show execCount p s = _
  rw [execCount, runInstr_of_head head]
  simp only [pkt_instrTaken (hasPkt_of_head head), setFor_instrTaken, Pkt.headless_epoch, Pkt.headless_pipe, fieldOf_headless, listed]

theorem exec_count_unlisted (head : headWork s p 0x09 = some w)
    (unlisted : tableOf (setFor s (pkt s p).epoch) (pkt s p).pipe (wImm w.word % 256) = none) :
    exec (.count p) s = .next (goOn p (actFault p (instrTaken p s))) := by
  show execCount p s = _
  rw [execCount, runInstr_of_head head]
  simp only [pkt_instrTaken (hasPkt_of_head head), setFor_instrTaken, Pkt.headless_epoch, Pkt.headless_pipe, unlisted]

/-- What a packet counts in an entry whose words are whole. -/
theorem countIn_whole {table d i : Nat}
    (whole : entryWords d i (rowBad (setFor s (pkt s p).epoch) (pkt s p).pipe d (i / tPerRow d)) = 0) :
    countIn p table d i s = doEffect p (.count (pkt s p).epoch (pkt s p).pipe table i (pkt s p).raw.length) s := by
  unfold countIn
  dsimp only
  rw [if_pos (beq_iff_eq.2 whole)]

theorem countIn_instrTaken (here : hasPkt s p = true) {table d i : Nat}
    (whole : entryWords d i (rowBad (setFor s (pkt s p).epoch) (pkt s p).pipe d (i / tPerRow d)) = 0) :
    countIn p table d i (instrTaken p s) =
      doEffect p (.count (pkt s p).epoch (pkt s p).pipe table i (pkt s p).raw.length) (instrTaken p s) := by
  rw [countIn_whole (by simpa [pkt_instrTaken here] using whole)]
  simp [pkt_instrTaken here]

theorem doEffect_count_cnts (epoch pipe table i n : Nat) : (doEffect p (.count epoch pipe table i n) s).cnts = s.cnts := by
  unfold doEffect
  split
  · obtain ⟨m, e⟩ := setPkt_eq p _ s
    rw [e]
  · exact updSet_cnts ..

/-- No counter of the pipelines moves with an entry of a COUNTER table, also where it is read with a parity error. -/
theorem countIn_cnts (table d i : Nat) : (countIn p table d i s).cnts = s.cnts := by
  unfold countIn
  dsimp only
  rw [doEffect_count_cnts]
  split
  · rfl
  · exact (rowError_cnts ..).trans (updSet_cnts ..)

end

end Sys2Proof.Machine

/-! The effects of the metering, header and disposition instructions on the packet (R286, R287, R328), and O39. -/
namespace Sys2Proof.Machine

/-! ## METER (R328) -/

/-- A packet with the colour of policer `i`; while its frame arrives it keeps what it was charged, committed and peak. -/
def metered (i colour committed peak : Nat) (x : Pkt) : Pkt :=
  { x with
    conts := x.conts.put 0x93 (setFld 1 0 colour (md x 19))
    refunds := if x.arriving then x.refunds ++ [(i, committed, peak)] else x.refunds }

/-- A packet's length is charged to policer `i`, and the packet takes the colour. -/
def policed (i p : Nat) (s : State) : State :=
  let charge := chargePolicer i (pkt s p).raw.length (bits 1 0 (md (pkt s p) 19)) s
  setPkt p (metered i charge.1 ((policerTokens s i).1 - (policerTokens charge.2 i).1)
    ((policerTokens s i).2 - (policerTokens charge.2 i).2)) charge.2

theorem colourCharge_lt (aware : Bool) (pre tc tp b : Nat) : (colourCharge aware pre tc tp b).1 < 4 := by
  unfold colourCharge
  repeat' split
  all_goals simp

theorem policed_tm (i p : Nat) (s : State) :
    (policed i p s).tm = (chargePolicer i (pkt s p).raw.length (bits 1 0 (md (pkt s p) 19)) s).2.tm := by
  unfold policed
  exact setPkt_tm ..

theorem bits_md_policed {s : State} {p : Nat} (here : hasPkt s p = true) (i : Nat) :
    bits 1 0 (md (pkt (policed i p s) p) 19) = (chargePolicer i (pkt s p).raw.length (bits 1 0 (md (pkt s p) 19)) s).1 := by
  have there : hasPkt (chargePolicer i (pkt s p).raw.length (bits 1 0 (md (pkt s p) 19)) s).2 p = true := here
  unfold policed
  dsimp only
  rw [pkt_setPkt_same there]
  simp only [metered, md, SMap.get_put_same, bits_setFld]
  exact Nat.mod_eq_of_lt (colourCharge_lt ..)

theorem chargePolicer_instrTaken (i n pre p : Nat) (s : State) :
    (chargePolicer i n pre (instrTaken p s)).1 = (chargePolicer i n pre s).1 ∧
      (chargePolicer i n pre (instrTaken p s)).2.tm = (chargePolicer i n pre s).2.tm := by
  obtain ⟨m, e⟩ := instrTaken_eq p s
  rw [e]
  exact ⟨rfl, rfl⟩

theorem policerOk_instrTaken (i p : Nat) (s : State) : policerOk (instrTaken p s) i = policerOk s i := by
  obtain ⟨m, e⟩ := instrTaken_eq p s
  rw [e]
  rfl

section
variable {s : State} {p : Nat} {w : Work}

theorem exec_meter_waits (arriving : (pkt s p).arriving = true) (untested : (pkt s p).untested = false) : exec (.meter p) s = .next s := by
  show execMeter p s = _
  simp [execMeter, arriving, untested]

/-- The check of a policer's index, as METER makes it. -/
theorem ite_unpoliced {α : Type} (valid : Bool) (i n : Nat) (fault effect : α) :
    (if (decide (i ≥ n) || !valid) = true then fault else effect) = if i < n ∧ valid = true then effect else fault := by
  by_cases range : i < n
  · cases valid <;> simp [range, not_le.2 range]
  · cases valid <;> simp [range, not_lt.1 range]

theorem exec_meter (head : headWork s p 0x0A = some w) (whole : (pkt s p).arriving = true → (pkt s p).untested = true) :
    exec (.meter p) s = .next (goOn p
      (if wImm w.word + fieldOf w.word (wSrc w.word) (pkt s p) < 262144 ∧
          policerOk s (wImm w.word + fieldOf w.word (wSrc w.word) (pkt s p)) = true then
        policed (wImm w.word + fieldOf w.word (wSrc w.word) (pkt s p)) p (instrTaken p s)
      else actFault p (instrTaken p s))) := by
  have ready : ((pkt s p).arriving && !(pkt s p).untested) = false := by
    cases arriving : (pkt s p).arriving
    · rfl
    · rw [whole arriving]; rfl
  show execMeter p s = _
  rw [execMeter, ready, runInstr_of_head head]
  simp only [pkt_instrTaken (hasPkt_of_head head), fieldOf_headless, policerOk_instrTaken, Bool.false_eq_true, if_false]
  rw [ite_unpoliced, policed, pkt_instrTaken (hasPkt_of_head head)]
  rfl

/-! ## INVAL, DECAP, insertions and writes (R287) -/

/-- INVAL's effect on the packet. -/
def invalidated (a : Nat) (x : Pkt) : Pkt := if instValid x a then { x with popped := x.popped ++ [a] } else x

theorem instValid_invalidated (a i : Nat) (x : Pkt) : instValid (invalidated a x) i = (instValid x i && i != a) := by
  unfold invalidated
  by_cases same : i = a
  · subst same
    split
    · simp [instValid]
    · next invalid => simpa using invalid
  · split <;> simp [instValid, same]

theorem invalidated_eq (a : Nat) (x : Pkt) : ∃ l, invalidated a x = { x with popped := l } := by
  unfold invalidated
  split <;> exact ⟨_, rfl⟩

/-- ENCAP's and MPLS_PUSH's effect on the packet. -/
def inserted (i : Insert) (x : Pkt) : Pkt := { x with inserts := x.inserts ++ [i] }

/-- WRITE's effect on the packet whose header begins at byte `off`. -/
def written (off w : Nat) (x : Pkt) : Pkt :=
  { x with
    bytes := writeField x.bytes off (bits 17 6 (wImm w)) (wWidth w) (fieldOf w (wSrc w) x)
    dirty := if x.dirty.contains (wImm w % 64) then x.dirty else wImm w % 64 :: x.dirty }

/-- L4ADJ's effect on the packet whose header begins at byte `off`. -/
def checksumAdjusted (off w : Nat) (x : Pkt) : Pkt :=
  { x with
    bytes := writeField x.bytes off (bits 17 6 (wImm w)) 16
      (rfc1624 (hdrField x.bytes off (bits 17 6 (wImm w)) 16) (x.conts.get (wSrc w)) (x.conts.get (wDst w))) }

/-- The check of a header and of a field's place in it, as an action makes it. -/
theorem ite_refused {α : Type} (valid : Bool) (n m : Nat) (fault effect : α) :
    (if (!valid || decide (n > m)) = true then fault else effect) = if valid = true ∧ n ≤ m then effect else fault := by
  by_cases fits : n ≤ m
  · cases valid <;> simp [fits]
  · cases valid <;> simp [fits, not_le.1 fits]

theorem exec_decap (head : headWork s p 0x12 = some w) : exec (.decap p) s = .next (goOn p
    (if instValid (pkt s p) (wImm w.word % 64) then setPkt p (decapAt (wImm w.word % 64)) (instrTaken p s)
    else actFault p (instrTaken p s))) := by
  show execDecap p s = _
  rw [execDecap, runInstr_of_head head]
  simp only [pkt_instrTaken (hasPkt_of_head head), instValid_headless]

theorem exec_write (head : headWork s p 0x13 = some w) : exec (.write p) s = .next (goOn p
    (if instValid (pkt s p) (wImm w.word % 64) = true ∧
        bits 17 6 (wImm w.word) + wWidth w.word ≤ 8 * ((pkt s p).insts.get (wImm w.word % 64)).2 then
      setPkt p (written ((pkt s p).insts.get (wImm w.word % 64)).1 w.word) (instrTaken p s)
    else actFault p (instrTaken p s))) := by
  show execWrite p s = _
  rw [execWrite, runInstr_of_head head]
  simp only [pkt_instrTaken (hasPkt_of_head head), instValid_headless, Pkt.headless_insts]
  rw [ite_refused]
  rfl

theorem exec_l4adj (head : headWork s p 0x15 = some w) : exec (.l4adj p) s = .next (goOn p
    (if instValid (pkt s p) (wImm w.word % 64) = true ∧
        bits 17 6 (wImm w.word) + 16 ≤ 8 * ((pkt s p).insts.get (wImm w.word % 64)).2 then
      setPkt p (checksumAdjusted ((pkt s p).insts.get (wImm w.word % 64)).1 w.word) (instrTaken p s)
    else actFault p (instrTaken p s))) := by
  show execL4adj p s = _
  rw [execL4adj, runInstr_of_head head]
  simp only [pkt_instrTaken (hasPkt_of_head head), instValid_headless, Pkt.headless_insts]
  rw [ite_refused]
  rfl

end

end Sys2Proof.Machine

/-! Insertions, learn reports and the disposition, and O39 (R265, R286, R287, R297). -/
namespace Sys2Proof.Machine

section
variable {s : State} {p : Nat} {w : Work}

theorem exec_encap (head : headWork s p 0x11 = some w) : exec (.encap p) s = .next (goOn p
    (if wImm w.word / 256 % 256 = 0xFF ∨ instValid (pkt s p) (wImm w.word / 256 % 256) = true then
      setPkt p (inserted (templateInsert (ap (setFor s (pkt s p).epoch) (pkt s p).pipe) (wImm w.word % 256)
        (wImm w.word / 256 % 256) (pkt s p))) (instrTaken p s)
    else actFault p (instrTaken p s))) := by
  show execEncap p s = _
  rw [execEncap, runInstr_of_head head]
  simp only [pkt_instrTaken (hasPkt_of_head head), instValid_headless, setFor_instrTaken]
  by_cases anchor : wImm w.word / 256 % 256 = 0xFF ∨ instValid (pkt s p) (wImm w.word / 256 % 256) = true
  · rw [if_pos anchor, if_neg (by rcases anchor with h | h <;> simp [h])]
    rfl
  · rw [if_neg anchor, if_pos (by simpa using anchor)]

theorem exec_mplsPush (head : headWork s p 0x14 = some w) : exec (.mplsPush p) s = .next (goOn p
    (if instValid (pkt s p) (wImm w.word % 64) = true then
      setPkt p (fun x => inserted { anchor := wImm w.word % 64, bytes := bytesBE 4 (x.conts.get (wSrc w.word)) } x) (instrTaken p s)
    else actFault p (instrTaken p s))) := by
  show execMplsPush p s = _
  rw [execMplsPush, runInstr_of_head head]
  simp only [pkt_instrTaken (hasPkt_of_head head), instValid_headless]
  cases instValid (pkt s p) (wImm w.word % 64) <;> rfl

theorem exec_learn (head : headWork s p 0x18 = some w) (ended : (pkt s p).arriving = false) :
    exec (.learn p) s = .next (goOn p (sendReport
      ((pkt s p).conts.get (wSrc w.word) * 2 ^ 32 + (pkt s p).conts.get (wSrc w.word + 1)) (bits 15 0 (md (pkt s p) 17))
      (wImm w.word % 256) (pkt s p).pipe s.time.now (instrTaken p s))) := by
  show execLearn p s = _
  rw [execLearn, runInstr_of_head head]
  simp only [doEffect, pkt_instrTaken (hasPkt_of_head head), Pkt.headless_arriving, ended, instrTaken_time]
  rfl

/-- DECAP, WRITE, MPLS_PUSH and L4ADJ on an invalid header have no effect (R287). -/
theorem exec_invalid {a : Nat} (head : (a = 0x12 ∧ headWork s p 0x12 = some w) ∨ (a = 0x13 ∧ headWork s p 0x13 = some w) ∨
      (a = 0x14 ∧ headWork s p 0x14 = some w) ∨ (a = 0x15 ∧ headWork s p 0x15 = some w))
    (invalid : instValid (pkt s p) (wImm w.word % 64) = false) :
    exec (if a = 0x12 then .decap p else if a = 0x13 then .write p else if a = 0x14 then .mplsPush p else .l4adj p) s =
      .next (goOn p (actFault p (instrTaken p s))) ∧ hasPkt s p = true := by
  have invalid : ¬ instValid (pkt s p) (wImm w.word % 64) = true := by simp [invalid]
  rcases head with ⟨rfl, head⟩ | ⟨rfl, head⟩ | ⟨rfl, head⟩ | ⟨rfl, head⟩
  · exact ⟨(exec_decap head).trans (by rw [if_neg invalid]), hasPkt_of_head head⟩
  · exact ⟨(exec_write head).trans (by rw [if_neg fun valid => invalid valid.1]), hasPkt_of_head head⟩
  · exact ⟨(exec_mplsPush head).trans (by rw [if_neg invalid]), hasPkt_of_head head⟩
  · exact ⟨(exec_l4adj head).trans (by rw [if_neg fun valid => invalid valid.1]), hasPkt_of_head head⟩

end

theorem disp_setDisp (d : Nat) (x : Pkt) : disp (setDisp d x) = d % 2 ^ 4 := by
  simp only [disp, md, setDisp, SMap.get_put_same, bits_setFld]

/-- RECIRC's effect on the packet. -/
def recircSet (w : Work) (x : Pkt) : Pkt :=
  { setDisp 7 x with conts := (setDisp 7 x).conts.put 0x94 (wImm w.word % 2 ^ 18) }

theorem exec_recirc {s : State} {p : Nat} {w : Work} (head : headWork s p 0x1A = some w) :
    exec (.recirc p) s = .next (goOn p (setPkt p (recircSet w) (instrTaken p s))) := by
  show execRecirc p s = _
  rw [execRecirc, runInstr_of_head head]
  rfl

theorem recircSet_leaves (w : Work) (x : Pkt) : disp (recircSet w x) = 7 ∧ md (recircSet w x) 20 = bits 17 0 (wImm w.word) := by
  refine ⟨?_, SMap.get_put_same ..⟩
  have kept : md (recircSet w x) 14 = md (setDisp 7 x) 14 := SMap.get_put_ne _ _ (by decide)
  rw [disp, kept]
  exact disp_setDisp ..

/-- PUNT's effect on the packet. -/
def puntSet (w : Work) (x : Pkt) : Pkt :=
  { setDisp 6 x with why := if w.miss then 1 else 0, conts := (setDisp 6 x).conts.put 0x8E (setFld 15 8 w.stage (md (setDisp 6 x) 14)) }

theorem exec_punt {s : State} {p : Nat} {w : Work} (head : headWork s p 0x1B = some w) :
    exec (.punt p) s = .next (goOn p (setPkt p (puntSet w) (instrTaken p s))) := by
  show execPunt p s = _
  rw [execPunt, runInstr_of_head head]
  rfl

theorem puntSet_leaves {w : Work} (stage : w.stage < 256) (x : Pkt) :
    disp (puntSet w x) = 6 ∧ bits 15 8 (md (puntSet w x) 14) = w.stage := by
  have wrote : md (puntSet w x) 14 = setFld 15 8 w.stage (md (setDisp 6 x) 14) := SMap.get_put_same ..
  rw [disp, wrote, bits_setFld_of_below (by decide), bits_setFld]
  exact ⟨disp_setDisp .., Nat.mod_eq_of_lt stage⟩

/-! ## Each instruction's clause -/

section
variable {s : State} {p : Nat} {w : Work}

theorem count_ended {d : Nat} (head : headWork s p 0x09 = some w)
    (listed : tableOf (setFor s (pkt s p).epoch) (pkt s p).pipe (wImm w.word % 256) = some d) (ended : (pkt s p).arriving = false) :
    ∃ u, exec (.count p) s = .next (goOn p u) ∧
      if wImm w.word / 256 + fieldOf w.word (wSrc w.word) (pkt s p) < tEntries d then
        (entryWords d (wImm w.word / 256 + fieldOf w.word (wSrc w.word) (pkt s p)) (rowBad (setFor s (pkt s p).epoch) (pkt s p).pipe d
            ((wImm w.word / 256 + fieldOf w.word (wSrc w.word) (pkt s p)) / tPerRow d)) = 0 →
          (setFor u (pkt s p).epoch).counters = (setFor s (pkt s p).epoch).counters.upd
            (tKey (pkt s p).pipe (wImm w.word % 256) (wImm w.word / 256 + fieldOf w.word (wSrc w.word) (pkt s p)))
            (fun c => c.count (pkt s p).raw.length)) ∧
        cntGet u .actionFault (pkt s p).pipe = cntGet s .actionFault (pkt s p).pipe
      else u.sets = s.sets ∧ cntGet u .actionFault (pkt s p).pipe = min (2 ^ 32 - 1) (cntGet s .actionFault (pkt s p).pipe + 1) := by
  have here := hasPkt_of_head head
  refine ⟨_, exec_count_listed head listed, ?_⟩
  split
  · refine ⟨fun whole => ?_, cntGet_of_cnts ((countIn_cnts ..).trans (instrTaken_cnts ..)) _ _⟩
    have now : ¬ (pkt (instrTaken p s) p).arriving = true := by simp [pkt_instrTaken here, ended]
    rw [countIn_instrTaken here whole, doEffect, if_neg now, applyEffect, setFor_updSet_same _ _ rfl, setFor_instrTaken]
  · obtain ⟨sets, -, -, faults⟩ := actFault_instrTaken here ended
    exact ⟨sets, faults⟩

theorem count_arriving {d : Nat} (head : headWork s p 0x09 = some w)
    (listed : tableOf (setFor s (pkt s p).epoch) (pkt s p).pipe (wImm w.word % 256) = some d) (arriving : (pkt s p).arriving = true)
    (inside : wImm w.word / 256 + fieldOf w.word (wSrc w.word) (pkt s p) < tEntries d)
    (whole : entryWords d (wImm w.word / 256 + fieldOf w.word (wSrc w.word) (pkt s p)) (rowBad (setFor s (pkt s p).epoch) (pkt s p).pipe d
      ((wImm w.word / 256 + fieldOf w.word (wSrc w.word) (pkt s p)) / tPerRow d)) = 0) :
    ∃ u, exec (.count p) s = .next (goOn p u) ∧ tookInstr p s u ∧ (pkt u p).effects = (pkt s p).effects ++
      [.count (pkt s p).epoch (pkt s p).pipe (wImm w.word % 256) (wImm w.word / 256 + fieldOf w.word (wSrc w.word) (pkt s p))
        (pkt s p).raw.length] := by
  have here := hasPkt_of_head head
  have later : (pkt (instrTaken p s) p).arriving = true := by simp [pkt_instrTaken here, arriving]
  refine ⟨_, exec_count_listed head listed, ?_⟩
  rw [if_pos inside, countIn_instrTaken here whole, doEffect, if_pos later]
  exact ⟨tookInstr_setPkt here rfl rfl, by rw [pkt_setPkt_instrTaken here]; rfl⟩

theorem encap_ended (head : headWork s p 0x11 = some w) (ended : (pkt s p).arriving = false) :
    ∃ u, exec (.encap p) s = .next (goOn p u) ∧ (pkt u p).bytes = (pkt s p).bytes ∧ (pkt u p).insts = (pkt s p).insts ∧
      if wImm w.word / 256 % 256 = 0xFF ∨ instValid (pkt s p) (wImm w.word / 256 % 256) = true then
        tookInstr p s u ∧ (pkt u p).inserts = (pkt s p).inserts ++
          [templateInsert (ap (setFor s (pkt s p).epoch) (pkt s p).pipe) (wImm w.word % 256) (wImm w.word / 256 % 256) (pkt s p)]
      else (pkt u p).inserts = (pkt s p).inserts ∧
        cntGet u .actionFault (pkt s p).pipe = min (2 ^ 32 - 1) (cntGet s .actionFault (pkt s p).pipe + 1) := by
  have here := hasPkt_of_head head
  refine ⟨_, exec_encap head, ?_⟩
  split
  · rw [pkt_setPkt_instrTaken here]
    exact ⟨rfl, rfl, tookInstr_setPkt here rfl rfl, rfl⟩
  · obtain ⟨-, -, left, faults⟩ := actFault_instrTaken here ended
    rw [left]
    exact ⟨rfl, rfl, rfl, faults⟩

theorem inval_invalidates (head : headWork s p 0x10 = some w) :
    ∃ u, exec (.inval p) s = .next (goOn p u) ∧ tookInstr p s u ∧ instValid (pkt u p) (wImm w.word % 64) = false ∧
      ∀ i, i ≠ wImm w.word % 64 → instValid (pkt u p) i = instValid (pkt s p) i := by
  have here := hasPkt_of_head head
  have runs : exec (.inval p) s = .next (goOn p (setPkt p (invalidated (wImm w.word % 64)) (instrTaken p s))) := by
    show execInval p s = _
    rw [execInval, runInstr_of_head head]
    rfl
  obtain ⟨l, e⟩ := invalidated_eq (wImm w.word % 64) (pkt s p).headless
  refine ⟨_, runs, tookInstr_setPkt here (by rw [e]; rfl) (by rw [e]; rfl), ?_⟩
  rw [pkt_setPkt_instrTaken here]
  exact ⟨by simp [instValid_invalidated], fun i other => by simp [instValid_invalidated, other]⟩

theorem decap_valid (head : headWork s p 0x12 = some w) (valid : instValid (pkt s p) (wImm w.word % 64) = true) :
    ∃ u, exec (.decap p) s = .next (goOn p u) ∧ tookInstr p s u ∧
      (pkt u p).cut = max (pkt s p).cut ((pkt s p).insts.get (wImm w.word % 64)).1 ∧
      (∀ i ∈ (pkt u p).inserts, i.anchor ≠ 0xFF ∧ ((pkt s p).insts.get (wImm w.word % 64)).1 < ((pkt s p).insts.get i.anchor).1) ∧
      ∀ e ∈ (pkt s p).insts, e.1 ≠ wImm w.word % 64 → e.2.1 + e.2.2 ≤ ((pkt s p).insts.get (wImm w.word % 64)).1 →
        instValid (pkt u p) e.1 = false := by
  have here := hasPkt_of_head head
  refine ⟨_, (exec_decap head).trans (by rw [if_pos valid]), tookInstr_setPkt here rfl rfl, ?_⟩
  rw [pkt_setPkt_instrTaken here]
  refine ⟨rfl, fun i kept => ?_, fun e listed other before => ?_⟩
  · simpa using (List.mem_filter.1 kept).2
  · have popped : e.1 ∈ (decapAt (wImm w.word % 64) (pkt s p).headless).popped :=
      List.mem_append_right _ (List.mem_map_of_mem (List.mem_filter.2 ⟨listed, by simp [other, before]⟩))
    simp [instValid, popped]

theorem write_valid (head : headWork s p 0x13 = some w) (valid : instValid (pkt s p) (wImm w.word % 64) = true)
    (fits : bits 17 6 (wImm w.word) + wWidth w.word ≤ 8 * ((pkt s p).insts.get (wImm w.word % 64)).2) :
    ∃ u, exec (.write p) s = .next (goOn p u) ∧ (pkt u p).conts = (pkt s p).conts ∧
      (pkt u p).bytes = writeField (pkt s p).bytes ((pkt s p).insts.get (wImm w.word % 64)).1 (bits 17 6 (wImm w.word)) (wWidth w.word)
        (fieldOf w.word (wSrc w.word) (pkt s p)) ∧ u = { s with pkts := u.pkts } := by
  have here := hasPkt_of_head head
  refine ⟨_, (exec_write head).trans (by rw [if_pos ⟨valid, fits⟩]), ?_⟩
  rw [pkt_setPkt_instrTaken here]
  obtain ⟨m, taken⟩ := instrTaken_eq p s
  obtain ⟨n, wrote⟩ := setPkt_eq p (written ((pkt s p).insts.get (wImm w.word % 64)).1 w.word) { s with pkts := m }
  exact ⟨rfl, rfl, by rw [taken, wrote]⟩

end

/-- Settles O39: each instruction is one equation, and what it writes and counts is read off it. -/
theorem packetInstructionsChangeHeadersAndCounts : Obligations.PacketInstructionsChangeHeadersAndCounts := by
  unfold Obligations.PacketInstructionsChangeHeadersAndCounts
  refine ⟨fun _ _ _ _ => count_ended, fun _ _ _ _ => count_arriving, ?unlisted, ?unpoliced, ?invalid, ?policed,
    fun _ _ => exec_meter_waits, fun _ _ _ => inval_invalidates, fun _ _ _ => encap_ended, fun _ _ _ => decap_valid,
    fun _ _ _ => write_valid, ?field, ?push, ?adjust, ?learn, ?record, ?recirc, ?punt, ?drop⟩
  case unlisted =>
    intro s p w head unlisted ended
    obtain ⟨sets, -, -, faults⟩ := actFault_instrTaken (hasPkt_of_head head) ended
    exact ⟨_, exec_count_unlisted head unlisted, sets, faults⟩
  case unpoliced =>
    intro s p w head ended invalid
    obtain ⟨-, tm, -, faults⟩ := actFault_instrTaken (hasPkt_of_head head) ended
    have refused : ¬ (wImm w.word + fieldOf w.word (wSrc w.word) (pkt s p) < 262144 ∧
        policerOk s (wImm w.word + fieldOf w.word (wSrc w.word) (pkt s p)) = true) := by
      rintro ⟨range, valid⟩
      rcases invalid with beyond | unset
      · omega
      · exact absurd valid (by simp [unset])
    have whole : (pkt s p).arriving = true → (pkt s p).untested = true := fun arriving => absurd arriving (by simp [ended])
    exact ⟨_, (exec_meter head whole).trans (by rw [if_neg refused]), tm, faults⟩
  case invalid =>
    intro s p w a head invalid ended
    obtain ⟨runs, here⟩ := exec_invalid head invalid
    obtain ⟨-, -, left, faults⟩ := actFault_instrTaken here ended
    refine ⟨_, runs, ?_⟩
    rw [left]
    exact ⟨rfl, rfl, rfl, rfl, faults⟩
  case policed =>
    intro s p w head range valid whole
    have here := hasPkt_of_head head
    obtain ⟨colour, tm⟩ := chargePolicer_instrTaken (wImm w.word + fieldOf w.word (wSrc w.word) (pkt s p)) (pkt s p).raw.length
      (bits 1 0 (md (pkt s p) 19)) p s
    refine ⟨_, (exec_meter head whole).trans (by rw [if_pos ⟨range, valid⟩]), ?_, ?_⟩
    · rw [policed_tm, pkt_instrTaken here]
      exact tm
    · rw [bits_md_policed (hasPkt_instrTaken here), pkt_instrTaken here]
      exact colour
  case field =>
    intro bs off b w v _ _ inside
    exact ⟨length_writeField inside v, hdrField_writeField inside v⟩
  case push =>
    intro s p w head valid
    have here := hasPkt_of_head head
    exact ⟨_, (exec_mplsPush head).trans (by rw [if_pos valid]), tookInstr_setPkt here rfl rfl, by rw [pkt_setPkt_instrTaken here]; rfl⟩
  case adjust =>
    intro s p w head valid fits
    refine ⟨_, (exec_l4adj head).trans (by rw [if_pos ⟨valid, fits⟩]), ?_⟩
    rw [pkt_setPkt_instrTaken (hasPkt_of_head head)]
    exact ⟨rfl, rfl⟩
  case learn =>
    intro s p w head ended
    exact ⟨_, exec_learn head ended, _, congrArg (· ++ _) (instrTaken_reports p s), rfl, rfl, rfl, Nat.mod_lt _ (by decide), rfl, rfl⟩
  case record =>
    intro s p w head
    have here := hasPkt_of_head head
    exact ⟨_, runInstr_of_head head _, tookInstr_setPkt here rfl rfl, congrArg Pkt.fragRec (pkt_setPkt_instrTaken here _)⟩
  case recirc =>
    intro s p w head
    have here := hasPkt_of_head head
    refine ⟨_, exec_recirc head, tookInstr_setPkt here ?bytes ?work, ?_⟩
    case bytes => simp only [recircSet, setDisp, Pkt.headless]
    case work => simp only [recircSet, setDisp, Pkt.headless]
    rw [pkt_setPkt_instrTaken here]
    exact recircSet_leaves ..
  case punt =>
    intro s p w head stage
    have here := hasPkt_of_head head
    refine ⟨_, exec_punt head, tookInstr_setPkt here ?bytes ?work, ?_⟩
    case bytes => simp only [puntSet, setDisp, Pkt.headless]
    case work => simp only [puntSet, setDisp, Pkt.headless]
    rw [pkt_setPkt_instrTaken here]
    exact puntSet_leaves stage _
  case drop =>
    intro s p w head
    have here := hasPkt_of_head head
    refine ⟨setPkt p (setDisp 5) (instrTaken p s), runInstr_of_head head _, tookInstr_setPkt here rfl rfl, ?_⟩
    rw [pkt_setPkt_instrTaken here]
    exact disp_setDisp ..

end Sys2Proof.Machine

/-! The commands of device time and of its calibration (R345 to R351, R360): each has one range to check. -/
namespace Sys2Proof.Machine

/-- A command that its check refuses leaves what goes with the refusal, and answers the check's status and RDATA. -/
theorem runCmd_refuses_leaving {op w secure permit c s check onRefuse effect st d} (h : Runs op w secure permit c s)
    (hc : check c (taken c s) = some (st, d)) :
    runCmd op w secure permit check onRefuse effect c s = writeReply (execOf c s) st d (onRefuse c (taken c s)) := by
  rw [runCmd_passes check onRefuse effect h.1, runBody_eq, hc, h.2]
  rfl

/-- A command with one check is refused with that check's status outside its range, and has its outcome within it. -/
theorem runCmd_ranged {op w secure permit c s check effect o} {range : Prop} [Decidable range] {bad : Bool} {st : Nat}
    (runs : Runs op w secure permit c s) (checked : check c (taken c s) = firstOf [(bad, st)]) (ranges : bad = true ↔ ¬ range)
    (within : check c (taken c s) = none → Host.Outcome.next (runCmd op w secure permit check quiet effect c s) = o) :
    .next (runCmd op w secure permit check quiet effect c s) = if range then o else refusesWith c s st := by
  split
  · next inside => exact within (checked.trans (if_neg (ranges.not.2 (not_not.2 inside))))
  · next outside => exact congrArg Host.Outcome.next (runCmd_refuses runs (checked.trans (if_pos (ranges.2 outside))))

theorem exec_timeGet {c : CmdPkt} {s : State} (runs : Runs 0x0501 .V false always c s) :
    exec (.timeGet c) s = repliesOk c s (taken c s) s.time.now.full :=
  congrArg Host.Outcome.next (runCmd_done runs rfl rfl)

theorem exec_timeIncSet {c : CmdPkt} {s : State} (runs : Runs 0x0502 .A false always c s) :
    exec (.timeIncSet c) s = if 0x013FAE147B ≤ c.p 0 8 ∧ c.p 0 8 ≤ 0x014051EB85 then
        .next { taken c s with time := { s.time with queue := s.time.queue ++ [.inc (c.p 0 8) c.fn c.sec] } }
      else refusesWith c s stBadParam :=
  runCmd_ranged runs rfl (by simp only [Bool.or_eq_true, decide_eq_true_eq]; omega)
    fun accepted => congrArg Host.Outcome.next (runCmd_unanswered runs accepted rfl)

theorem exec_timeSet {c : CmdPkt} {s : State} (runs : Runs 0x0504 .A true always c s) :
    exec (.timeSet c) s = if bits 79 62 (c.p 0 16) = 0 ∧ bits 61 32 (c.p 0 16) < 1000000000 then
        .next { taken c s with time := { s.time with queue := s.time.queue ++ [.set (DevTime.ofFull (c.p 0 16)) c.fn c.sec] } }
      else refusesWith c s stBadParam :=
  runCmd_ranged runs rfl (by simp only [Bool.or_eq_true, bne_iff_ne, decide_eq_true_eq]; omega)
    fun accepted => congrArg Host.Outcome.next (runCmd_unanswered runs accepted rfl)

theorem exec_timeJumpThr {c : CmdPkt} {s : State} (runs : Runs 0x0505 .A true always c s) :
    exec (.timeJumpThr c) s = if 1000 * 2 ^ 32 ≤ c.p 0 10 ∧ c.p 0 10 ≤ 1000000000 * 2 ^ 32 then
        repliesOk c s { taken c s with time := { s.time with thr := c.p 0 10 } } 0
      else refusesWith c s stBadParam :=
  runCmd_ranged runs rfl (by simp only [Bool.or_eq_true, decide_eq_true_eq]; unfold nsU; omega)
    fun accepted => congrArg Host.Outcome.next (runCmd_done runs accepted rfl)

theorem exec_tsCalSet {c : CmdPkt} {s : State} (runs : Runs 0x0507 .A false always c s) :
    exec (.tsCalSet c) s = if c.p 0 2 < 1024 ∧ c.p 2 1 ≤ 1 then repliesOk c s { taken c s with
        time := { s.time with calNext := s.time.calNext.put (2 * c.p 0 2 + c.p 2 1) (toSigned 32 (c.p 4 4)) } } 0
      else refusesWith c s stBadParam :=
  runCmd_ranged runs rfl (by simp only [Bool.or_eq_true, decide_eq_true_eq]; omega)
    fun accepted => congrArg Host.Outcome.next (runCmd_done runs accepted rfl)

/-! TIME_ADJUST (R349, R386): its three checks in order, of which the jump threshold's alone brings an event. -/

theorem exec_timeAdjust_of_reserved {c : CmdPkt} {s : State} (runs : Runs 0x0503 .A false always c s) (reserved : c.p 10 38 ≠ 0) :
    exec (.timeAdjust c) s = refusesWith c s stBadParam := by
  refine congrArg Host.Outcome.next ((runCmd_refuses_leaving runs (if_pos (bne_iff_ne.2 reserved))).trans ?_)
  simp [reserved]

theorem exec_timeAdjust_beyond {c : CmdPkt} {s : State} (runs : Runs 0x0503 .A false always c s) (zero : c.p 10 38 = 0)
    (beyond : s.time.thr < c.offset.natAbs) :
    exec (.timeAdjust c) s = .next (writeReply (execOf c s) stDenied 0x0501 (postJumpRefused c (taken c s))) := by
  have beyond : beyondThreshold c (taken c s) = true := decide_eq_true beyond
  refine congrArg Host.Outcome.next ((runCmd_refuses_leaving (st := stDenied) (d := 0x0501) runs ?_).trans ?_)
  · simp [zero, beyond]
  · simp [zero, beyond]

theorem exec_timeAdjust_within {c : CmdPkt} {s : State} (runs : Runs 0x0503 .A false always c s) (zero : c.p 10 38 = 0)
    (near : c.offset.natAbs ≤ s.time.thr) :
    exec (.timeAdjust c) s = if beforeZero s.time c.offset = true then refusesWith c s stBadParam
      else .next { taken c s with time := { s.time with queue := s.time.queue ++ [.step c.offset c.fn c.sec] } } := by
  have near : beyondThreshold c (taken c s) = false := decide_eq_false near.not_gt
  have time : (taken c s).time = s.time := rfl
  split
  · next negative =>
    refine congrArg Host.Outcome.next ((runCmd_refuses_leaving (st := stBadParam) (d := 0) runs ?_).trans ?_)
    · simp [zero, near, time, negative]
    · simp [near]
  · next positive => exact congrArg Host.Outcome.next (runCmd_unanswered runs (by simp [zero, near, time, positive]) rfl)

/-- Settles O19: each command by its check, and TIME_ADJUST by its three. -/
theorem timeCommandsActAtTheNextTick : Obligations.TimeCommandsActAtTheNextTick := by
  unfold Obligations.TimeCommandsActAtTheNextTick
  refine ⟨fun _ _ => exec_timeGet, fun _ _ => exec_timeIncSet, ?adjust, fun _ _ => exec_timeSet, fun _ _ => exec_timeJumpThr⟩
  rintro c s _ runs rfl
  split
  · next reserved => exact exec_timeAdjust_of_reserved runs reserved
  next zero =>
  have zero := not_not.1 zero
  split
  · next beyond => exact exec_timeAdjust_beyond runs zero beyond
  · next near =>
    rw [exec_timeAdjust_within runs zero (not_lt.1 near)]
    simp only [beforeZero, decide_eq_true_eq]
    rfl

end Sys2Proof.Machine

/-! Pulses and gate lists (R370 to R382). -/
namespace Sys2Proof.Machine

/-! The pulse per second (R370, R371). -/

theorem exec_ppsCfg_off {c : CmdPkt} {s : State} (runs : Runs 0x0508 .A false always c s) (off : c.p 0 1 % 2 = 0) :
    exec (.ppsCfg c) s = repliesOk c s { taken c s with time := { s.time with ppsOn := false, ppsHigh := false } } 0 :=
  congrArg Host.Outcome.next (runCmd_done runs (by simp only [off]; rfl) (by simp only [off]; rfl))

theorem exec_ppsCfg_on {c : CmdPkt} {s : State} (runs : Runs 0x0508 .A false always c s) (on : c.p 0 1 % 2 = 1) :
    exec (.ppsCfg c) s =
      if c.p 4 4 < 1 ∨ 500000 < c.p 4 4 then refusesWith c s stBadParam
      else if ownsBall s 0 1 = true then
        repliesOk c s { taken c s with time := { s.time with ppsOn := true, ppsWidth := c.p 4 4 } } 0
      else refusesWith c s stConflict := by
  have ball : ownsBall (taken c s) 0 1 = ownsBall s 0 1 := rfl
  have flagged := beq_iff_eq.2 on
  split
  · next outside =>
    have outside : (decide (c.p 4 4 < 1) || decide (c.p 4 4 > 500000)) = true := by simpa using outside
    exact congrArg Host.Outcome.next (runCmd_refuses runs ((if_pos flagged).trans (if_pos outside)))
  next within =>
  have within : (decide (c.p 4 4 < 1) || decide (c.p 4 4 > 500000)) = false := by simpa using within
  split
  · next owned =>
    exact congrArg Host.Outcome.next (runCmd_done runs (by simp only [flagged, firstOf, within, ball, owned]; rfl) (if_pos flagged))
  · next foreign =>
    exact congrArg Host.Outcome.next (runCmd_refuses runs (by simp only [flagged, firstOf, within, ball, foreign]; rfl))

theorem exec_ppsRise {s : State} (on : s.time.ppsOn = true) (trusted : s.time.untrusted = false)
    (forwards : 0 < DevTime.diff s.time.now s.time.prev) (second : s.time.now.sec ≠ s.time.prev.sec) :
    exec .ppsRise s = .next { s with time := { s.time with
      ppsHigh := true, ppsFallAt := s.tick + 800 * s.time.ppsWidth, prev := s.time.now } } := by
  show execPpsRise s = _
  simp [execPpsRise, on, trusted, forwards, second, usT, Nat.mul_comm]

theorem exec_ppsFall {s : State} (high : s.time.ppsHigh = true) (passed : s.time.ppsFallAt ≤ s.tick) :
    exec .ppsFall s = .next { s with time := { s.time with ppsHigh := false } } := by
  show execPpsFall s = _
  simp [execPpsFall, high, passed]

/-! The advanced start (R378, R382). -/

/-- N is the least number of cycles that brings the start to 2 µs from now. -/
theorem startCycles_le_iff {base now : DevTime} {cycle : Nat} (positive : 0 < cycle) (k : Nat) :
    startCycles base now cycle ≤ k ↔ now.units + 2000 * 2 ^ 32 ≤ base.units + k * cycle := by
  unfold startCycles nsU
  dsimp only
  split
  · next early =>
    have early : (now.units : Int) - base.units + (2000 * 2 ^ 32 : Nat) ≤ 0 := by simpa [positive.ne'] using early
    omega
  · rw [← Nat.ceilDiv_eq_add_pred_div, ceilDiv_le_iff_le_mul positive, Nat.mul_comm k]
    omega

theorem startGate_least (base : DevTime) (l : GateList) (now : DevTime) (positive : 0 < l.cycle) :
    now.units + 2000 * 2 ^ 32 ≤ base.units + (startGate base l now).2 * l.cycle ∧
    ∀ k, k < (startGate base l now).2 → base.units + k * l.cycle < now.units + 2000 * 2 ^ 32 :=
  ⟨(startCycles_le_iff positive _).1 le_rfl, fun k fewer => not_le.1 (mt (startCycles_le_iff positive k).2 fewer.not_ge)⟩

/-! GATE_LOAD (R379, R380). -/

@[simp] theorem core_postStartAdvanced (p n : Nat) (start : DevTime) (firing : Bool) (s : State) :
    core (postStartAdvanced p n start firing s) = core s := by
  unfold postStartAdvanced
  split
  · rfl
  · exact core_postAll ..

/-- The event of an advanced start leaves the gates as the load set them, and the rest but for the host side. -/
theorem loadedGate_spec (c : CmdPkt) (s : State) (p n : Nat) (start : DevTime) (f : Gate → Gate) :
    (postStartAdvanced p n start false (setGate p f (taken c s))).gates = s.gates.put p (f (s.gates.get p)) ∧
    core { postStartAdvanced p n start false (setGate p f (taken c s)) with gates := s.gates } = core s :=
  have same := core_postStartAdvanced p n start false (setGate p f (taken c s))
  ⟨gates_of_core same, congrArg (fun u : State => { u with gates := s.gates }) same⟩

/-- GATE_LOAD accepts entries in their layout with a cycle and a base in range, for a port whose set is active (R373, R374, R379). -/
theorem gateLoad_check {c : CmdPkt} {s : State} (buffer : c.indirect = true) (len : c.p 8 4 = (c.ind.getD []).length)
    (whole : (c.ind.getD []).length % 8 = 0) (short : (c.ind.getD []).length ≤ 2048) (entries : gateEntriesOk (c.ind.getD []) = true)
    (flag : c.p 14 1 ≤ 1) (zero : c.p 15 1 = 0) (rest : c.p 40 8 = 0) (cycle : 1 ≤ c.p 16 8) (second : c.p 16 8 ≤ 1000000000 * 2 ^ 32)
    (reserved : bits 79 62 (c.p 24 16) = 0) (ns : bits 61 32 (c.p 24 16) < 1000000000) (active : setActive s = true)
    (port : isLogicalPort s (c.p 12 2) = true) (strobe : c.p 14 1 = 1 → strobeTaken s (c.p 12 2) = false) :
    firstOf [(!c.indirect || c.p 8 4 != (c.ind.getD []).length || (c.ind.getD []).length % 8 != 0 || (c.ind.getD []).length > 2048
          || !gateEntriesOk (c.ind.getD []) || c.p 14 1 > 1 || c.p 15 1 != 0 || c.p 40 8 != 0 || !cycleOk (c.p 16 8)
          || bits 79 62 (c.p 24 16) != 0 || bits 61 32 (c.p 24 16) ≥ 1000000000, stBadParam),
        (!setActive s, stBadState), (!isLogicalPort s (c.p 12 2), stBadParam),
        (c.p 14 1 == 1 && strobeTaken s (c.p 12 2), stConflict)] = none := by
  have cycle : cycleOk (c.p 16 8) = true := by
    simp only [cycleOk, Bool.and_eq_true, decide_eq_true_eq]
    exact ⟨cycle, second⟩
  have strobe : (c.p 14 1 == 1 && strobeTaken s (c.p 12 2)) = false := by simpa using strobe
  simp [firstOf, buffer, len, whole, short, entries, flag, cycle, zero, rest, reserved, ns, active, port, strobe]

/-! The start of a pending list and the edges of a running one (R376, R378), with the strobe's pulse (R372). -/

theorem strobePulse_eq (s : State) : ∃ st, strobePulse s = { s with strobe := st } := by
  unfold strobePulse
  generalize List.range 8 = balls
  induction balls generalizing s with
  | nil => exact ⟨_, rfl⟩
  | cons b balls ih =>
    rw [List.foldl_cons]
    split
    · exact ih _
    · exact ih _

theorem exec_gateListStart {s : State} {p : Fin 1024} {l : GateList} (pending : (s.gates.get p.val).pend = some l)
    (reached : s.time.now.reached l.start = true) :
    ∃ st, exec (.gateListStart p) s = .next { s with
      gates := s.gates.put p.val { run := some l, pend := none, gates := gateState (some l) s.time.now }, strobe := st } := by
  have started : setGate p.val (fun g => startPending g s.time.now) s =
      { s with gates := s.gates.put p.val { run := some l, pend := none, gates := gateState (some l) s.time.now } } := by
    simp only [setGate, SMap.upd, startPending, pending, reached, if_true]
  show ∃ st, execGateListStart p s = _
  simp only [execGateListStart, pending, reached, if_true, started]
  split
  · exact (strobePulse_eq _).imp fun st pulse => by rw [pulse]
  · exact ⟨_, rfl⟩

theorem exec_gateStateChange (s : State) (p : Fin 1024) :
    ∃ st, exec (.gateStateChange p) s = .next { s with
      gates := s.gates.put p.val { s.gates.get p.val with gates := gateState (s.gates.get p.val).run s.time.now }, strobe := st } := by
  show ∃ st, execGateStateChange p s = _
  unfold execGateStateChange
  dsimp only
  split
  · split
    · exact (strobePulse_eq _).imp fun st pulse => by rw [pulse]; rfl
    · exact ⟨_, rfl⟩
  · exact ⟨_, rfl⟩

/-- Settles O21: each command and row is one equation, and N is the least by what a ceiling is. -/
theorem gatesAndPulsesFollowDeviceTime : Obligations.GatesAndPulsesFollowDeviceTime := by
  unfold Obligations.GatesAndPulsesFollowDeviceTime
  refine ⟨?load, fun base l now positive => ⟨rfl, startGate_least base l now positive⟩, fun _ _ => exec_tsCalSet, ?pps,
    fun _ => exec_ppsRise, fun _ => exec_ppsFall, ?start, ?state⟩
  case load =>
    intro c s l n runs buffer len whole short entries flag zero rest cycle second reserved ns active port strobe made
    obtain ⟨rfl, rfl⟩ := Prod.mk.inj made
    exact ⟨_, congrArg Host.Outcome.next (runCmd_done runs (gateLoad_check (s := taken c s) buffer len whole short entries flag zero
      rest cycle second reserved ns active port strobe) rfl), loadedGate_spec ..⟩
  case pps =>
    intro c s runs
    split
    · next off => exact exec_ppsCfg_off runs off
    · next on => exact exec_ppsCfg_on runs (Nat.mod_two_ne_zero.1 on)
  case start =>
    intro s p l pending reached
    obtain ⟨st, runs⟩ := exec_gateListStart pending reached
    exact ⟨_, runs, rfl, rfl⟩
  case state =>
    intro s p
    obtain ⟨st, runs⟩ := exec_gateStateChange s p
    exact ⟨_, runs, rfl, rfl⟩

end Sys2Proof.Machine

/-! The keys of the cipher complex: their derivation, destruction and query, the dummy-round rate, and reloads (R399, R402 to R410). -/
namespace Sys2Proof.Machine

/-! The cache and the store (R405, R407, R409). -/

/-- Caching a key puts it in the cache, whether by a free entry or a drawn one, and leaves the key store. -/
theorem cacheKey_eq (i : Nat) (s : State) :
    ∃ cache draws, cacheKey i s = { s with keys := { s.keys with cache := cache }, draws := draws } ∧ i ∈ cache := by
  unfold cacheKey
  dsimp only
  split
  · next cached => exact ⟨s.keys.cache, s.draws, rfl, List.contains_iff_mem.1 cached⟩
  · split
    · exact ⟨_, s.draws, rfl, by simp⟩
    · exact ⟨_, _, rfl, by simp⟩

@[simp] theorem keySlot_cacheKey (i : Nat) (s : State) (j : Nat) : keySlot (cacheKey i s) j = keySlot s j := by
  obtain ⟨_, _, same, _⟩ := cacheKey_eq i s
  rw [same, keySlot, keySlot]

theorem liveHandle_eq_some {s : State} {h i : Nat} (live : liveHandle s h = some i) : h % 2 ^ 20 = i := by
  unfold liveHandle at live
  dsimp only at live
  split at live
  · exact Option.some.inj live
  · cases live

theorem liveHandle_of_no_key {s : State} {h : Nat} (gone : (keySlot s (h % 2 ^ 20)).key = none) : liveHandle s h = none := by
  rw [liveHandle, gone, Option.isSome_none, Bool.and_false, Bool.false_and]
  rfl

/-- The slot of a destroyed key holds no key, and its GEN has advanced (R405, R409). -/
theorem keySlot_destroyKey_same (i : Nat) (s : State) :
    keySlot (destroyKey i s) i = { gen := ((keySlot s i).gen + 1) % 4096, held := some s.keys.firings } :=
  keySlot_setKeySlot_same i (fun e => { gen := (e.gen + 1) % 4096, held := some s.keys.firings }) s

theorem keySlot_destroyKey_ne {i j : Nat} (s : State) (other : j ≠ i) : keySlot (destroyKey i s) j = keySlot s j :=
  keySlot_setKeySlot_ne (fun e => { gen := (e.gen + 1) % 4096, held := some s.keys.firings }) s other.symm

theorem notMem_cache_destroyKey (i : Nat) (s : State) : i ∉ (destroyKey i s).keys.cache := by simp [destroyKey]

/-! KEY_DERIVE (R402 to R404). -/

/-- A derivation that passes its checks finds a free index. -/
theorem freeKeyIndex_of_accepted {c : CmdPkt} {s : State} (accepted : keyDeriveCheck c s = none) : ∃ i, freeKeyIndex s = some i := by
  unfold keyDeriveCheck at accepted
  dsimp only at accepted
  split at accepted
  · cases accepted
  · split at accepted
    · cases accepted
    · split at accepted
      · cases accepted
      · next free => exact Option.isSome_iff_exists.1 (by simpa [Option.isSome_iff_ne_none] using free)

/-- The state that KEY_DERIVE leaves: the key at an index, and in the cache. -/
def withKey (i : Nat) (k : Key) (s : State) : State := cacheKey i (setKeySlot i (fun e => { e with key := some k }) s)

/-- A key placed at an index is there, with the GEN in force, and cached; the other indices, and all but the keys, are as they
were. -/
theorem withKey_spec (i : Nat) (k : Key) (s : State) :
    keySlot (withKey i k s) i = { keySlot s i with key := some k } ∧ (∀ j, j ≠ i → keySlot (withKey i k s) j = keySlot s j) ∧
      i ∈ (withKey i k s).keys.cache ∧ core { withKey i k s with keys := s.keys } = core s := by
  obtain ⟨cache, draws, same, cached⟩ := cacheKey_eq i (setKeySlot i (fun e => { e with key := some k }) s)
  refine ⟨(keySlot_cacheKey ..).trans (keySlot_setKeySlot_same ..),
    fun j other => (keySlot_cacheKey ..).trans (keySlot_setKeySlot_ne _ _ other.symm), ?_⟩
  rw [withKey, same]
  exact ⟨cached, rfl⟩

theorem handleOf_withKey (i : Nat) (k : Key) (s : State) : handleOf (withKey i k s) i = handleOf s i := by
  rw [handleOf, (withKey_spec i k s).1, handleOf]

theorem exec_keyDerive_accepted {c : CmdPkt} {s : State} {i : Nat}
    (runs : Runs 0x0601 .P false (fun c s => (c.fn == 0 || c.p 15 1 == portOf c.fn) && s.sec.roots.has (bits 3 2 (c.p 0 1))) c s)
    (accepted : keyDeriveCheck c (taken c s) = none) (free : freeKeyIndex s = some i) :
    exec (.keyDerive c) s = repliesOk c s (withKey i (deriveKey c) (taken c s)) (fld 63 32 (handleOf s i) +
      fld 95 64 (ofBytes ((kmac ((deriveKey c).keyOf (keyOut s (deriveKey c))) [] 32 "SX7100-KCV").take 4))) := by
  have free : freeKeyIndex (taken c s) = some i := free
  have handle : handleOf (withKey i (deriveKey c) (taken c s)) i = handleOf s i := handleOf_withKey ..
  refine congrArg Host.Outcome.next (runCmd_done runs accepted ?_)
  simp only [free, Option.getD_some]
  rw [← handle, Nat.add_comm]
  rfl

/-! The commands that name a key by its handle (R408 to R410). -/

theorem cmdKey_taken (c : CmdPkt) (s : State) : cmdKey c (taken c s) = liveHandle s (c.p 0 4) := rfl

/-- A command on a key is refused for PARAM bytes past the handle, for a handle that names no live key, and with `st` where `bad` holds
of the key that it names; else it has its outcome. -/
theorem runCmd_onKey {op w secure permit c s check effect st} {bad : Nat → Bool} {badNamed : Bool}
    {o : Nat → Host.Outcome State Fault Refusal} (runs : Runs op w secure permit c s)
    (checked : check c (taken c s) =
      firstOf [(c.p 4 44 != 0, stBadParam), ((cmdKey c (taken c s)).isNone, stNotFound), (badNamed, st)])
    (bads : ∀ i, liveHandle s (c.p 0 4) = some i → badNamed = bad i)
    (sound : ∀ i, liveHandle s (c.p 0 4) = some i → check c (taken c s) = none →
      Host.Outcome.next (runCmd op w secure permit check quiet effect c s) = o i) :
    .next (runCmd op w secure permit check quiet effect c s) =
      if c.p 4 44 ≠ 0 then refusesWith c s stBadParam else match liveHandle s (c.p 0 4) with
        | none => refusesWith c s stNotFound
        | some i => if bad i = true then refusesWith c s st else o i := by
  rw [cmdKey_taken] at checked
  split
  · next reserved => exact congrArg Host.Outcome.next (runCmd_refuses runs (checked.trans (by simp [firstOf, reserved])))
  next zero =>
  cases named : liveHandle s (c.p 0 4) with
  | none => exact congrArg Host.Outcome.next (runCmd_refuses runs (checked.trans (by simp [firstOf, zero, named])))
  | some i =>
    dsimp only
    rw [bads i named] at checked
    split
    · next holds => exact congrArg Host.Outcome.next (runCmd_refuses runs (checked.trans (by simp [firstOf, zero, named, holds])))
    · next fails => exact sound i named (checked.trans (by simp [firstOf, zero, named, fails]))

theorem exec_keyDestroy {c : CmdPkt} {s : State} (runs : Runs 0x0602 .P false always c s) :
    exec (.keyDestroy c) s = if c.p 4 44 ≠ 0 then refusesWith c s stBadParam else match liveHandle s (c.p 0 4) with
      | none => refusesWith c s stNotFound
      | some i => if s.ciph.bound.any (fun o => o.key == i) = true then refusesWith c s stBusy
          else repliesOk c s (destroyKey i (taken c s)) 0 :=
  runCmd_onKey (bad := fun i => s.ciph.bound.any fun o => o.key == i) runs rfl
    (fun i named => by simp only [cmdKey_taken, named, Option.some_beq_some]; rfl)
    fun i named accepted => congrArg Host.Outcome.next (runCmd_done runs accepted (by simp only [cmdKey_taken, named]))

theorem exec_keyQuery {c : CmdPkt} {s : State} (runs : Runs 0x0603 .P false always c s) :
    exec (.keyQuery c) s = if c.p 4 44 ≠ 0 then refusesWith c s stBadParam else match liveHandle s (c.p 0 4) with
      | none => refusesWith c s stNotFound
      | some i => if (slotKey s i).fault = true then refusesWith c s stHwFault else repliesOk c s (taken c s) (keySummary (slotKey s i)) :=
  runCmd_onKey (bad := fun i => (slotKey s i).fault) runs rfl
    (fun i named => by simp only [cmdKey_taken, named, Option.getD_some]; rfl)
    fun i named accepted => congrArg Host.Outcome.next (runCmd_done runs accepted (by
      simp only [cmdKey_taken, named, Option.getD_some]; rfl))

/-! CIPH_DUMMY_RATE (R399) and KEY_RELOAD (R407, R408). -/

theorem exec_ciphDummyRate {c : CmdPkt} {s : State}
    (runs : Runs 0x0604 .A true (fun c s => c.p 0 2 ≥ 0x0100 || s.sec.lc != 2 || s.sec.lowrate) c s) :
    exec (.ciphDummyRate c) s = if c.p 0 2 ≤ 0x2000 ∧ c.p 2 46 = 0 then
        repliesOk c s { taken c s with ciph := { s.ciph with rate := c.p 0 2 } } (fld 47 32 s.ciph.rate)
      else refusesWith c s stBadParam :=
  runCmd_ranged runs rfl (by simp only [Bool.or_eq_true, decide_eq_true_eq, bne_iff_ne]; omega)
    fun accepted => congrArg Host.Outcome.next (runCmd_done runs accepted rfl)

theorem exec_keyReload {s : State} {i : Nat} {k : Key} (live : (keySlot s i).key = some k) (uncached : i ∉ s.keys.cache) (bad : Bool) :
    exec (.keyReload i bad) s = .next (if bad = true then setKey i (fun k => { k with fault := true }) s else cacheKey i s) := by
  show execKeyReload i bad s = _
  cases bad <;> simp [execKeyReload, live, uncached]

/-- Settles O32: each command is its checks and its reply; caching a key leaves the store, and destroying one empties its slot but
for the next GEN. -/
theorem keysAreDerivedCountedAndDestroyed : Obligations.KeysAreDerivedCountedAndDestroyed := by
  unfold Obligations.KeysAreDerivedCountedAndDestroyed
  refine ⟨?derive, fun _ _ => exec_keyDestroy, ?destroyed, fun _ _ => exec_keyQuery, fun _ _ => exec_ciphDummyRate, ?reload⟩
  case derive =>
    intro c s runs
    split
    · next refused => exact congrArg Host.Outcome.next (runCmd_refuses_rdata runs refused)
    · next accepted =>
      obtain ⟨i, free⟩ := freeKeyIndex_of_accepted accepted
      obtain ⟨slot, others, cached, rest⟩ := withKey_spec i (deriveKey c) (taken c s)
      exact ⟨_, i, exec_keyDerive_accepted runs accepted free, free, congrArg KeySlot.key slot, others, cached, rest⟩
  case destroyed =>
    intro s i h live
    have slot := keySlot_destroyKey_same i s
    have gone : (keySlot (destroyKey i s) i).key = none := congrArg KeySlot.key slot
    exact ⟨gone, congrArg KeySlot.gen slot, notMem_cache_destroyKey i s,
      liveHandle_of_no_key (liveHandle_eq_some live ▸ gone), fun _ => keySlot_destroyKey_ne s⟩
  case reload =>
    intro s i k live uncached
    obtain ⟨cache, draws, same, cached⟩ := cacheKey_eq i s
    refine ⟨⟨cacheKey i s, exec_keyReload live uncached false, ?_⟩,
      _, exec_keyReload live uncached true, by simp [setKey, live], rfl⟩
    rw [same]
    exact ⟨cached, rfl, rfl⟩

end Sys2Proof.Machine

/-! Transport objects (R431). The clause of O51 on QP_DESTROY fails in a state that lists an object's number twice, and holds where the
objects are listed in rising order, as `SMap.put` keeps them. -/
namespace Sys2Proof.Machine

/-- Two replies of one command to the same end leave the same, the host side apart. -/
theorem core_of_repliesOk {c : CmdPkt} {s t u : State} {r : Nat} (h : repliesOk c s t r = repliesOk c s u r) : core t = core u := by
  have replied := congrArg core (Host.Outcome.next.inj h)
  simpa using replied

/-! What the packets and the record of an object leave of the transport engines. -/

/-- The transport engines and the tick. -/
def xportTick (s : State) : Xport × Nat := (s.xport, s.tick)

@[simp] theorem xportTick_removePkt (p : Nat) (s : State) : xportTick (removePkt p s) = xportTick s := by
  obtain ⟨f, q, l, v, e⟩ := removePkt_eq p s
  rw [e]
  rfl

@[simp] theorem xportTick_placePath (n : Nat) (s : State) : xportTick (placePath n s) = xportTick s := by
  unfold placePath
  split
  · obtain ⟨v, e⟩ := placeNodes_eq (nodePath (activeSet s) n) s
    rw [e]
    rfl
  · rfl

theorem xportTick_foldl_removePkt (ps : List Nat) (s : State) : xportTick (ps.foldl (fun s p => removePkt p s) s) = xportTick s := by
  induction ps generalizing s with
  | nil => rfl
  | cons p ps ih => rw [List.foldl_cons, ih, xportTick_removePkt]

@[simp] theorem xportTick_dropFormed (n : Nat) (s : State) : xportTick (dropFormed n s) = xportTick s :=
  (xportTick_placePath ..).trans (xportTick_foldl_removePkt ..)

@[simp] theorem xportTick_abandonRecord (silent : Bool) (n : Nat) (s : State) : xportTick (abandonRecord silent n s) = xportTick s := by
  unfold abandonRecord
  split
  · rfl
  · dsimp only
    split <;> rfl

/-- A destroyed object is struck from the objects, its context from the caches, and its number is held for 2 s (R431). -/
theorem destroyObject_xport (n : Nat) (s : State) : (destroyObject n s).xport = { s.xport with
    objs := s.xport.objs.del n, cached := s.xport.cached.filter (· != n), heldNums := s.xport.heldNums ++ [(n, s.tick + 1600000000)] } := by
  obtain ⟨xport, tick⟩ := Prod.mk.inj ((xportTick_abandonRecord false n (dropFormed n s)).trans (xportTick_dropFormed n s))
  unfold destroyObject
  dsimp only
  rw [xport, tick]
  rfl

/-! QP_DESTROY. -/

theorem exec_qpDestroy {c : CmdPkt} {s : State} (runs : Runs 0x0803 .P false always c s) (zero : c.p 4 44 = 0)
    (here : objectHere (taken c s) c (c.p 0 4) = true) (idle : (objOf s (c.p 0 4)).state = 0 ∨ (objOf s (c.p 0 4)).state = 5) :
    exec (.qpDestroy c) s = repliesOk c s (destroyObject (c.p 0 4) (taken c s)) 0 := by
  have same : objOf (taken c s) (c.p 0 4) = objOf s (c.p 0 4) := rfl
  refine congrArg Host.Outcome.next (runCmd_done runs ?_ rfl)
  rcases idle with idle | idle <;> simp [firstOf, zero, here, same, idle]

/-- The clause that O51 fails on, for objects that list no number twice. -/
theorem qpDestroy_of_rising {c : CmdPkt} {s : State} (rising : s.xport.objs.Rising) (runs : Runs 0x0803 .P false always c s)
    (zero : c.p 4 44 = 0) (here : objectHere (taken c s) c (c.p 0 4) = true)
    (idle : (objOf s (c.p 0 4)).state = 0 ∨ (objOf s (c.p 0 4)).state = 5) :
    ∃ t, exec (.qpDestroy c) s = repliesOk c s t 0 ∧ hasObj t (c.p 0 4) = false ∧
      (c.p 0 4, s.tick + 1600000000) ∈ t.xport.heldNums ∧ ∀ m, m ≠ c.p 0 4 → objOf t m = objOf s m := by
  have left := destroyObject_xport (c.p 0 4) (taken c s)
  refine ⟨_, exec_qpDestroy runs zero here idle, ?_, ?_, fun m other => ?_⟩
  · rw [hasObj, left]
    exact rising.has_del_same _
  · rw [left]
    exact List.mem_append_right _ (List.mem_singleton_self _)
  · rw [objOf, left]
    exact SMap.get_del_ne _ other.symm

/-- Host port 0 is up, and the ring of its physical function holds a command. -/
def ringWaiting : State :=
  { State.reset with
    fw := { ready := true }
    fns := [(0, { bme := true, cmd := { enable := true, log2 := 4, pi := 1 }, inst := { state := 1 } })]
    ports := [(0, { linkUp := true, perst := false })] }

/-- A command of that function with an opcode and the parameters from PARAM byte 0 on. -/
def commandOf (op param : Nat) : CmdPkt :=
  { fn := 0, sec := false, hdr := BitVec.ofNat 128 (op + 48 * 2 ^ 64), param := BitVec.ofNat 384 param, ind := none }

/-- Object 16, in RESET, is listed twice. -/
def objectListedTwice : State := { ringWaiting with xport := { objs := [(16, {}), (16, {})] } }

theorem objectListedTwice_runs : Runs 0x0803 .P false always (commandOf 0x0803 16) objectListedTwice := by
  refine ⟨⟨⟨?_, ?_, ?_, ?_, ?_⟩, ?_, ?_, ?_, ?_, ?_, ?_, ?_⟩, ?_⟩ <;> decide +kernel

/-- Refutes O51: it speaks of every value of State, also of one whose objects list a number twice. QP_DESTROY of object 16 strikes the
first of the two, and object 16 is there still. -/
theorem not_transportObjectsAreManaged : ¬ Obligations.TransportObjectsAreManaged := by
  unfold Obligations.TransportObjectsAreManaged
  rintro ⟨-, -, -, -, destroy, -⟩
  have zero : (commandOf 0x0803 16).p 4 44 = 0 := by decide +kernel
  have here : objectHere (taken (commandOf 0x0803 16) objectListedTwice) (commandOf 0x0803 16) ((commandOf 0x0803 16).p 0 4) = true := by
    decide +kernel
  have idle : (objOf objectListedTwice ((commandOf 0x0803 16).p 0 4)).state = 0 := by decide +kernel
  obtain ⟨t, destroyed, gone, -⟩ := (destroy _ _ objectListedTwice_runs zero here).1 (.inl idle)
  have same := core_of_repliesOk (destroyed.symm.trans (exec_qpDestroy objectListedTwice_runs zero here (.inl idle)))
  rw [hasObj, xport_of_core same, destroyObject_xport] at gone
  exact absurd gone (by decide +kernel)

end Sys2Proof.Machine

/-! Packets at the transport engines (R427, R433). A clause of O52 by which a packet leaves fails in a state that lists the packet
twice. Those on objects of another kind and on a wrong ICRC are proved here of packets in rising order, as `SMap.put` keeps them. -/
namespace Sys2Proof.Machine

/-- A packet that leaves its engine is struck from the packets and from those handed to the engines; its leaving reaches the queues,
ports, lanes and flow control beside. -/
theorem takeEngine_eq (p : Nat) (s : State) : ∃ f q l v, takeEngine p s = { s with
    pkts := s.pkts.del p, xport := { s.xport with inq := s.xport.inq.filter (· != p) }
    fns := f, ports := q, lanes := l, tm := { s.tm with xoff := v } } := removePkt_eq p _

@[simp] theorem takeEngine_pkts (p : Nat) (s : State) : (takeEngine p s).pkts = s.pkts.del p := by
  obtain ⟨f, q, l, v, e⟩ := takeEngine_eq p s
  rw [e]

@[simp] theorem takeEngine_objs (p : Nat) (s : State) : (takeEngine p s).xport.objs = s.xport.objs := by
  obtain ⟨f, q, l, v, e⟩ := takeEngine_eq p s
  rw [e]

@[simp] theorem takeEngine_blocks (p : Nat) (s : State) : (takeEngine p s).tm.blocks = s.tm.blocks := by
  obtain ⟨f, q, l, v, e⟩ := takeEngine_eq p s
  rw [e]

theorem wrongType_blocks (p : Nat) (s : State) : ((wrongType p s).tm.blocks.get (0xFC00 * 2 ^ 20 + pktObject s p / 262144)).pk =
    ((s.tm.blocks.get (0xFC00 * 2 ^ 20 + pktObject s p / 262144)).pk + 1) % 2 ^ 64 := by
  rw [wrongType, countBlock, SMap.get_upd_same, takeEngine_blocks]
  rfl

/-! The rows of a packet, by what makes it leave. -/

section
variable {s : State} {p off : Nat} {a b : Bool} (turn : engineTurn s p = true)
include turn

/-- A packet at its turn reaches the row of RoCE v2 while its object awaits no read of the host (R433). -/
theorem roceRow_reached (read : ∀ r ∈ (objOf s (pktObject s p)).reads, r.result ≠ none) :
    (!engineTurn s p || (objOf s (pktObject s p)).reads.any fun r => r.result.isNone) = false := by
  simpa [turn, Option.isSome_iff_ne_none] using read

theorem exec_rocePacketReceived_wrongType (read : ∀ r ∈ (objOf s (pktObject s p)).reads, r.result ≠ none)
    (here : hasObj s (pktObject s p) = true) (kind : isRoce (objOf s (pktObject s p)).type = false) :
    exec (.rocePacketReceived p off a b) s = .next (wrongType p s) := by
  show execRocePacketReceived p off a b s = _
  simp only [execRocePacketReceived, roceRow_reached turn read, here, kind]
  rfl

theorem exec_rocePacketReceived_badIcrc (read : ∀ r ∈ (objOf s (pktObject s p)).reads, r.result ≠ none)
    (kind : hasObj s (pktObject s p) = true → isRoce (objOf s (pktObject s p)).type = true) (bad : roceIn (pkt s p).bytes off = none) :
    exec (.rocePacketReceived p off a b) s = .next (takeEngine p s) := by
  have kind : (hasObj s (pktObject s p) && !isRoce (objOf s (pktObject s p)).type) = false := by simpa using kind
  show execRocePacketReceived p off a b s = _
  simp only [execRocePacketReceived, roceRow_reached turn read, kind, bad]
  rfl

theorem exec_cnpReceived_wrongType (here : hasObj s (pktObject s p) = true)
    (kind : isRoce (objOf s (pktObject s p)).type = false) : exec (.cnpReceived p off) s = .next (wrongType p s) := by
  show execCnpReceived p off s = _
  simp only [execCnpReceived, turn, here, kind]
  rfl

theorem exec_tcpSegmentReceived_wrongType (here : hasObj s (pktObject s p) = true)
    (kind : isTcp (objOf s (pktObject s p)).type = false) : exec (.tcpSegmentReceived p off a b) s = .next (wrongType p s) := by
  show execTcpSegmentReceived p off a b s = _
  simp only [execTcpSegmentReceived, turn, here, kind]
  rfl

/-! Clauses that O52 fails on, for packets that list no number twice: a packet for an object of another kind (R427), and one whose ICRC
is wrong (R433). -/

variable (rising : s.pkts.Rising)
include rising

theorem roceOfOtherKind_of_rising (here : hasObj s (pktObject s p) = true) (kind : isRoce (objOf s (pktObject s p)).type = false)
    (read : ∀ r ∈ (objOf s (pktObject s p)).reads, r.result ≠ none) :
    ∃ t, exec (.rocePacketReceived p off a b) s = .next t ∧ exec (.cnpReceived p off) s = .next t ∧ t.pkts.has p = false ∧
      t.xport.objs = s.xport.objs ∧ (t.tm.blocks.get (0xFC00 * 2 ^ 20 + pktObject s p / 262144)).pk =
        ((s.tm.blocks.get (0xFC00 * 2 ^ 20 + pktObject s p / 262144)).pk + 1) % 2 ^ 64 :=
  ⟨_, exec_rocePacketReceived_wrongType turn read here kind, exec_cnpReceived_wrongType turn here kind,
    (congrArg (SMap.has · p) (takeEngine_pkts p s)).trans (rising.has_del_same p), takeEngine_objs p s, wrongType_blocks p s⟩

theorem tcpOfOtherKind_of_rising (here : hasObj s (pktObject s p) = true) (kind : isTcp (objOf s (pktObject s p)).type = false) :
    ∃ t, exec (.tcpSegmentReceived p off a b) s = .next t ∧ t.pkts.has p = false ∧ t.xport.objs = s.xport.objs ∧
      (t.tm.blocks.get (0xFC00 * 2 ^ 20 + pktObject s p / 262144)).pk =
        ((s.tm.blocks.get (0xFC00 * 2 ^ 20 + pktObject s p / 262144)).pk + 1) % 2 ^ 64 :=
  ⟨_, exec_tcpSegmentReceived_wrongType turn here kind,
    (congrArg (SMap.has · p) (takeEngine_pkts p s)).trans (rising.has_del_same p), takeEngine_objs p s, wrongType_blocks p s⟩

theorem badIcrc_of_rising (read : ∀ r ∈ (objOf s (pktObject s p)).reads, r.result ≠ none)
    (kind : hasObj s (pktObject s p) = true → isRoce (objOf s (pktObject s p)).type = true) (bad : roceIn (pkt s p).bytes off = none) :
    ∃ t, exec (.rocePacketReceived p off a b) s = .next t ∧ t.pkts.has p = false ∧ t.xport.objs = s.xport.objs :=
  ⟨_, exec_rocePacketReceived_badIcrc turn read kind bad, by rw [takeEngine_pkts, rising.has_del_same], takeEngine_objs p s⟩

end

/-- Packet 0, of no bytes, has been handed to an engine, and is listed twice. -/
def packetListedTwice : State := { State.reset with pkts := [(0, {}), (0, {})], xport := { inq := [0] } }

/-- Refutes O52: it speaks of every value of State, also of one that lists a packet twice. Packet 0, which is no RoCE v2 packet with its
ICRC, is to leave: the first of the two is struck, and packet 0 is there still. -/
theorem not_transportPacketsAndTimersAct : ¬ Obligations.TransportPacketsAndTimersAct := by
  unfold Obligations.TransportPacketsAndTimersAct
  rintro ⟨-, -, -, roce, -⟩
  have turn : engineTurn packetListedTwice 0 = true := by decide +kernel
  have bad : roceIn (pkt packetListedTwice 0).bytes 0 = none := by decide +kernel
  obtain ⟨t, leaves, gone, -⟩ := (roce packetListedTwice 0 0 true false _ _ rfl rfl turn (List.forall_mem_nil _) nofun).1 bad
  cases leaves.symm.trans (exec_rocePacketReceived_badIcrc turn (List.forall_mem_nil _) nofun bad)
  rw [takeEngine_pkts] at gone
  exact absurd gone (by decide +kernel)

end Sys2Proof.Machine

/-! Namespaces (R446). The clause of O53 on NS_DELETE fails in a state that lists a namespace twice, and holds where the namespaces are
listed in rising order, as `SMap.put` keeps them. -/
namespace Sys2Proof.Machine

/-- The first and the last cached line of a namespace's range (R449). -/
def firstLine (n : Ns) : Nat := lineKey n.sp n.driveNsid (n.start * lbaSize n.lbaf / 4096)
def lastLine (n : Ns) : Nat := lineKey n.sp n.driveNsid (((n.start + n.count) * lbaSize n.lbaf - 1) / 4096)

/-- The namespace of a key is struck, and the lines of its range with it. -/
def deleteNs (k : Nat) (s : State) : State :=
  let u := invalidate (fun l => firstLine (s.store.nss.get k) ≤ l && l ≤ lastLine (s.store.nss.get k)) s
  { u with store := { u.store with nss := u.store.nss.del k } }

theorem deleteNs_nss (k : Nat) (s : State) : (deleteNs k s).store.nss = s.store.nss.del k := rfl

theorem outside_of_mem_lines_deleteNs {k : Nat} {s : State} {l : Nat × List Byte} (kept : l ∈ (deleteNs k s).store.lines) :
    l.1 < firstLine (s.store.nss.get k) ∨ lastLine (s.store.nss.get k) < l.1 := by
  have kept := (List.mem_filter.1 kept).2
  simp only [Bool.not_eq_true', Bool.and_eq_false_iff, decide_eq_false_iff_not, not_le] at kept
  exact kept

theorem core_deleteNs (k : Nat) (s : State) : core { deleteNs k s with store := s.store } = core s := rfl

theorem exec_nsDelete {c : CmdPkt} {s : State} (runs : Runs 0x0805 .A false always c s) (zero : c.p 5 43 = 0) (small : c.p 0 4 ≤ 1024)
    (here : s.store.nss.has (nsKey (c.p 4 1) (c.p 0 4)) = true) (idle : ∀ d ∈ s.store.cmds, d.2.ns ≠ nsKey (c.p 4 1) (c.p 0 4)) :
    exec (.nsDelete c) s = repliesOk c s (deleteNs (nsKey (c.p 4 1) (c.p 0 4)) (taken c s)) 0 := by
  have store : (taken c s).store = s.store := rfl
  have idle : (s.store.cmds.any fun d => d.2.ns == nsKey (c.p 4 1) (c.p 0 4)) = false := by simpa using idle
  refine congrArg Host.Outcome.next (runCmd_done runs ?_ rfl)
  simp [firstOf, zero, small, here, idle, store]

/-- The clause on NS_DELETE, for namespaces that list no key twice. -/
theorem nsDelete_of_rising {c : CmdPkt} {s : State} {k : Nat} {n : Ns} (rising : s.store.nss.Rising)
    (runs : Runs 0x0805 .A false always c s) (zero : c.p 5 43 = 0) (small : c.p 0 4 ≤ 1024) (key : k = nsKey (c.p 4 1) (c.p 0 4))
    (here : s.store.nss.has k = true) (named : n = s.store.nss.get k) (idle : ∀ d ∈ s.store.cmds, d.2.ns ≠ k) :
    ∃ t, exec (.nsDelete c) s = repliesOk c s t 0 ∧ t.store.nss.has k = false ∧
      (∀ m, m ≠ k → t.store.nss.get m = s.store.nss.get m) ∧
      (∀ l ∈ t.store.lines, l.1 < firstLine n ∨ lastLine n < l.1) ∧ core { t with store := s.store } = core s := by
  subst key named
  refine ⟨_, exec_nsDelete runs zero small here idle, ?_, fun m other => ?_, fun _ => outside_of_mem_lines_deleteNs,
    core_deleteNs _ (taken c s)⟩
  · rw [deleteNs_nss]
    exact rising.has_del_same _
  · rw [deleteNs_nss]
    exact SMap.get_del_ne _ other.symm

/-- Namespace 1 of subsystem 0 is listed twice. -/
def namespaceListedTwice : State := { ringWaiting with store := { nss := [(1, {}), (1, {})] } }

theorem namespaceListedTwice_runs : Runs 0x0805 .A false always (commandOf 0x0805 1) namespaceListedTwice := by
  refine ⟨⟨⟨?_, ?_, ?_, ?_, ?_⟩, ?_, ?_, ?_, ?_, ?_, ?_, ?_⟩, ?_⟩ <;> decide +kernel

/-- Refutes O53: it speaks of every value of State, also of one whose namespaces list a key twice. NS_DELETE of namespace 1 strikes the
first of the two, and namespace 1 is there still. -/
theorem not_namespacesAndSlotsFollowTheirCommands : ¬ Obligations.NamespacesAndSlotsFollowTheirCommands := by
  unfold Obligations.NamespacesAndSlotsFollowTheirCommands
  rintro ⟨-, -, -, -, delete, -⟩
  have zero : (commandOf 0x0805 1).p 5 43 = 0 := by decide +kernel
  have small : (commandOf 0x0805 1).p 0 4 ≤ 1024 := by decide +kernel
  have key : nsKey ((commandOf 0x0805 1).p 4 1) ((commandOf 0x0805 1).p 0 4) = 1 := by decide +kernel
  have here : namespaceListedTwice.store.nss.has (nsKey ((commandOf 0x0805 1).p 4 1) ((commandOf 0x0805 1).p 0 4)) = true := by
    rw [key]
    rfl
  obtain ⟨t, deleted, gone, -⟩ := (delete _ _ _ _ namespaceListedTwice_runs zero small rfl here rfl).2 (List.forall_mem_nil _)
  have same := core_of_repliesOk (deleted.symm.trans
    (exec_nsDelete namespaceListedTwice_runs zero small here (List.forall_mem_nil _)))
  rw [store_of_core same, deleteNs_nss, key] at gone
  exact absurd gone (by decide +kernel)

end Sys2Proof.Machine

/-! Drive commands (R447, R502). A clause of O54 by which a command ends fails in a state that lists the command twice. Those on timeouts
and on completions other than of a read that succeeds are proved here of commands in rising order, as `SMap.put` keeps them. -/
namespace Sys2Proof.Machine

/-! What an answer to an initiator leaves. -/

/-- The storage-target service, and what has left the block. -/
def storeOut (s : State) : Store × List Output := (s.store, s.out)

@[simp] theorem storeOut_setObj (n : Nat) (f : Obj → Obj) (s : State) : storeOut (setObj n f s) = storeOut s := by
  unfold setObj
  split <;> rfl

theorem storeOut_reportWork (n : Nat) (ws : List Work2) (s : State) : storeOut (reportWork n ws s) = storeOut s := by
  induction ws generalizing s with
  | nil => exact storeOut_setObj ..
  | cons w ws ih =>
    unfold reportWork
    split
    · refine (ih _).trans ?_
      split <;> rfl
    · exact storeOut_setObj ..

@[simp] theorem storeOut_finishWork (n i b : Nat) (s : State) : storeOut (finishWork n i b s) = storeOut s :=
  (storeOut_reportWork ..).trans (storeOut_setObj ..)

@[simp] theorem storeOut_respond (n cid dw0 st bytes : Nat) (s : State) : storeOut (respond n cid dw0 st bytes s) = storeOut s := by
  unfold respond
  dsimp only
  split
  · rfl
  split
  · exact storeOut_setObj ..
  split
  · exact storeOut_setObj ..
  split
  · exact storeOut_finishWork ..
  · rfl

/-- A command that ends is struck, and nothing leaves the block at once: its answer is posted or joins a stream (R456). -/
theorem storeOut_finishCmd {id : Nat} {s : State} (here : s.store.cmds.has id = true) (st bytes : Nat) :
    storeOut (finishCmd id st bytes s) = ({ s.store with cmds := s.store.cmds.del id }, s.out) := by
  unfold finishCmd
  dsimp only
  rw [here, if_neg (by decide), storeOut_respond]
  split <;> rfl

/-! DRIVE_COMPLETION and DRIVE_COMMAND_TIMEOUT. -/

/-- A completion of a command at its drive ends it, but for a read that has succeeded. -/
theorem exec_driveCompletion_ends {s : State} {sp : Fin 16} {id st : Nat} (data : List Byte) (here : s.store.cmds.has id = true)
    (atDrive : (driveCmd s id).phase = 2) (port : (driveCmd s id).sp = sp.val) (ends : st ≠ 0 ∨ (driveCmd s id).op ≠ 2) :
    ∃ status bytes, exec (.driveCompletion sp id st data) s = .next (finishCmd id status bytes s) := by
  have atPort : (!s.store.cmds.has id || (driveCmd s id).phase != 2 || (driveCmd s id).sp != sp.val) = false := by
    simp [here, atDrive, port]
  show ∃ status bytes, execDriveCompletion sp id st data s = _
  simp only [execDriveCompletion, atPort, Bool.false_eq_true, if_false]
  by_cases failed : st = 0
  · have other : ((driveCmd s id).op == 2) = false := by simpa [failed] using ends
    exact ⟨_, _, by simp only [failed, other]; rfl⟩
  · exact ⟨_, _, if_pos (bne_iff_ne.2 failed)⟩

theorem exec_driveCommandTimeout {s : State} {id : Nat} (here : s.store.cmds.has id = true) (atDrive : (driveCmd s id).phase = 2)
    (due : (driveCmd s id).deadline ≤ s.tick) : exec (.driveCommandTimeout id) s =
      .next (finishCmd id nvAbort 0 (countBlock 0xFB05 (driveCmd s id).sp 0 (emit (.driveAbort (driveCmd s id).sp id) s))) := by
  show execDriveCommandTimeout id s = _
  simp [execDriveCommandTimeout, here, atDrive, Nat.not_lt.2 due]

/-- After its deadline a command is told to its drive as aborted, and struck. -/
theorem driveCommandTimeout_strikes {s : State} {id : Nat} (here : s.store.cmds.has id = true) (atDrive : (driveCmd s id).phase = 2)
    (due : (driveCmd s id).deadline ≤ s.tick) : ∃ t, exec (.driveCommandTimeout id) s = .next t ∧
      t.store.cmds = s.store.cmds.del id ∧ .driveAbort (driveCmd s id).sp id ∈ t.out := by
  obtain ⟨store, out⟩ := Prod.mk.inj (storeOut_finishCmd (s := countBlock 0xFB05 (driveCmd s id).sp 0
    (emit (.driveAbort (driveCmd s id).sp id) s)) here nvAbort 0)
  exact ⟨_, exec_driveCommandTimeout here atDrive due, congrArg Store.cmds store,
    out ▸ List.mem_append_right _ (List.mem_singleton_self _)⟩

/-! Clauses that O54 fails on, for commands that list no number twice. -/

theorem driveCompletion_of_rising {s : State} {sp : Fin 16} {id st : Nat} (data : List Byte) (rising : s.store.cmds.Rising)
    (here : s.store.cmds.has id = true) (atDrive : (driveCmd s id).phase = 2) (port : (driveCmd s id).sp = sp.val)
    (ends : st ≠ 0 ∨ (driveCmd s id).op ≠ 2) : ∃ t, exec (.driveCompletion sp id st data) s = .next t ∧ t.store.cmds.has id = false ∧
      ∀ k, k ≠ id → driveCmd t k = driveCmd s k := by
  obtain ⟨status, bytes, completed⟩ := exec_driveCompletion_ends data here atDrive port ends
  have cmds : (finishCmd id status bytes s).store.cmds = s.store.cmds.del id :=
    congrArg (fun e : Store × List Output => e.1.cmds) (storeOut_finishCmd here status bytes)
  refine ⟨_, completed, by rw [cmds, rising.has_del_same], fun k other => ?_⟩
  rw [driveCmd, cmds]
  exact SMap.get_del_ne _ other.symm

theorem driveCommandTimeout_of_rising {s : State} {id : Nat} (rising : s.store.cmds.Rising) (here : s.store.cmds.has id = true)
    (atDrive : (driveCmd s id).phase = 2) (due : (driveCmd s id).deadline ≤ s.tick) :
    ∃ t, exec (.driveCommandTimeout id) s = .next t ∧ t.store.cmds.has id = false ∧ .driveAbort (driveCmd s id).sp id ∈ t.out := by
  obtain ⟨t, aborted, struck, told⟩ := driveCommandTimeout_strikes here atDrive due
  exact ⟨t, aborted, by rw [struck, rising.has_del_same], told⟩

/-- Command 5, at its drive since its deadline has passed, is listed twice. -/
def commandListedTwice : State := { State.reset with store := { cmds := [(5, { phase := 2 }), (5, { phase := 2 })] } }

/-- Refutes O54: it speaks of every value of State, also of one that lists a command twice. At the deadline of command 5 the first of
the two is struck, and command 5 is outstanding still. -/
theorem not_storageCommandsAreServed : ¬ Obligations.StorageCommandsAreServed := by
  unfold Obligations.StorageCommandsAreServed
  rintro ⟨-, -, -, -, -, -, timeout, -⟩
  obtain ⟨t, aborted, gone, -⟩ := (timeout commandListedTwice 5 rfl rfl).2 (Nat.zero_le _)
  obtain ⟨u, aborted', struck, -⟩ := driveCommandTimeout_strikes (s := commandListedTwice) (id := 5) rfl rfl (Nat.zero_le _)
  cases aborted.symm.trans aborted'
  rw [struck] at gone
  exact absurd gone (by decide +kernel)

end Sys2Proof.Machine

/-! The queue, HBM, the life-cycle state and the least SVN: what a step can do to each is what `Moves` says of its front command
(R46, R492, R610, R612, R614, R617, R665). -/
namespace Sys2Proof.Machine

theorem step_of_nil {s : State} (idle : s.pending = []) : step s = .next s := by
  unfold step
  rw [idle]

theorem step_of_cons {s : State} {c : Instr} {rest : List Instr} (front : s.pending = c :: rest) :
    step s = exec c { s with pending := rest } := by
  unfold step
  rw [front]

/-- A step that goes on idles on an empty queue, or has done what its front command can do to the pieces of `frame`. -/
theorem step_moves {s t : State} (h : step s = .next t) :
    (s.pending = [] ∧ t = s) ∨ ∃ c rest, s.pending = c :: rest ∧ Moves c { s with pending := rest } t := by
  cases front : s.pending with
  | nil =>
    rw [step_of_nil front] at h
    exact .inl ⟨rfl, (Host.Outcome.next.inj h).symm⟩
  | cons c rest =>
    rw [step_of_cons front] at h
    exact .inr ⟨c, rest, rfl, exec_moves _ _ _ h⟩

theorem pending_of_frame {t : State} {p h now l m e} (f : frame t = (p, h, now, l, m, e)) : t.pending = p :=
  congrArg (fun x => x.1) f

theorem hbm_of_frame {t : State} {p h now l m e} (f : frame t = (p, h, now, l, m, e)) : t.hbm = h :=
  congrArg (fun x => x.2.1) f

theorem lc_of_frame {t : State} {p h now l m e} (f : frame t = (p, h, now, l, m, e)) : t.sec.lc = l :=
  congrArg (fun x => x.2.2.2.1) f

theorem minSvn_of_frame {t : State} {p h now l m e} (f : frame t = (p, h, now, l, m, e)) : t.sec.minSvn = m :=
  congrArg (fun x => x.2.2.2.2.1) f

/-- Settles O1. -/
theorem stepRunsTheFrontCommand : Obligations.StepRunsTheFrontCommand := fun _ _ _ => step_of_cons

/-- Settles O2. -/
theorem emptyQueueIdles : Obligations.EmptyQueueIdles := fun _ => step_of_nil

/-! The queue (log 1). -/

/-- No command writes the queue. -/
theorem Moves.pending {i : Instr} {s t : State} (h : Moves i s t) : t.pending = s.pending := by
  unfold Moves at h
  split at h
  case h_1 | h_10 => exact pending_of_frame h
  case h_2 | h_3 | h_6 | h_7 | h_9 => exact h.elim pending_of_frame pending_of_frame
  case h_4 | h_5 => exact h.elim pending_of_frame fun ⟨_, _, f⟩ => pending_of_frame f
  case h_8 => exact h.elim pending_of_frame fun ⟨_, _, f⟩ => pending_of_frame f

/-- Settles O3: a command leaves the queue it is given, which is the queue without its front. -/
theorem everyStepTakesExactlyTheFrontCommand : Obligations.EveryStepTakesExactlyTheFrontCommand := by
  intro s t h
  obtain ⟨idle, rfl⟩ | ⟨c, rest, front, moves⟩ := step_moves h
  · rw [idle, List.tail_nil]
  · rw [front, List.tail_cons]
    exact moves.pending

/-! HBM in canonical form (R665). -/

theorem wf_stacksOverwritten {retired : List Nat} {m : Hbm} (h : Memory.wf m = true) :
    Memory.wf (stacksOverwritten retired m) = true :=
  List.foldlRecOn _ _ (motive := fun m => Memory.wf m = true) h fun _ wf _ _ => by
    split
    · exact wf
    · exact Memory.wf_overwrite wf

/-- Every write of HBM keeps the canonical form: a reset and a zeroisation empty it, a start-up test and a write through BAR2 keep it. -/
theorem Moves.wf_hbm {i : Instr} {s t : State} (h : Moves i s t) (wf : Memory.wf s.hbm = true) : Memory.wf t.hbm = true := by
  have kept : ∀ {m : Hbm}, t.hbm = m → Memory.wf m = true → Memory.wf t.hbm = true := fun e w => e ▸ w
  have same : frame t = frame s → Memory.wf t.hbm = true := fun f => kept (hbm_of_frame f) wf
  unfold Moves at h
  split at h
  case h_1 => exact kept (hbm_of_frame h) Memory.wf_empty
  case h_2 | h_7 => exact h.elim same fun f => kept (hbm_of_frame f) Memory.wf_empty
  case h_3 | h_9 => exact h.elim same fun f => kept (hbm_of_frame f) wf
  case h_4 | h_5 => exact h.elim same fun ⟨_, _, f⟩ => kept (hbm_of_frame f) wf
  case h_6 => exact h.elim same fun f => kept (hbm_of_frame f) (wf_stacksOverwritten wf)
  case h_8 => exact h.elim same fun ⟨_, _, f⟩ => kept (hbm_of_frame f) (Memory.wf_writeAll wf)
  case h_10 => exact same h

/-- Settles O4: what a command leaves in HBM is in canonical form if what it found there was. -/
theorem hbmKeepsItsCanonicalForm : Obligations.HbmKeepsItsCanonicalForm := by
  intro s t wf h
  obtain ⟨-, rfl⟩ | ⟨c, rest, -, moves⟩ := step_moves h
  · exact wf
  · exact moves.wf_hbm wf

/-- Settles O5. -/
theorem hbmCanonicalAtReset : Obligations.HbmCanonicalAtReset := by
  refine ⟨rfl, Memory.wf_empty, fun a => ?_⟩
  change Hbm.rest {} a = 0
  simp [Hbm.rest]

/-- Settles O6: an address inside the write is some `k + i`, and one outside it is before or behind. -/
theorem hbmReadsWhatWasWritten : Obligations.HbmReadsWhatWasWritten := by
  intro m k a bs wf
  refine ⟨Memory.wf_writeAll wf, ?_⟩
  split
  case isTrue inside =>
    obtain ⟨i, rfl⟩ := Nat.exists_eq_add_of_le inside.1
    rw [Nat.add_sub_cancel_left]
    exact Memory.read_writeAll_inside wf (by omega)
  case isFalse outside => exact Memory.read_writeAll_outside wf (by omega)

/-! The life-cycle state (R612, R614) and the least SVN (R610). -/

/-- Of the commands, LC_ADVANCE alone moves the life-cycle state, to a target that R614 lists. -/
theorem Moves.lc {i : Instr} {s t : State} (h : Moves i s t) :
    t.sec.lc = s.sec.lc ∨ ((∃ p, i = .lcAdvance p) ∧ lcTarget s.sec.lc t.sec.lc = true) := by
  unfold Moves at h
  split at h
  case h_1 | h_10 => exact .inl (lc_of_frame h)
  case h_2 | h_3 | h_6 | h_7 | h_9 => exact .inl (h.elim lc_of_frame lc_of_frame)
  case h_4 => exact .inl (h.elim lc_of_frame fun ⟨_, _, f⟩ => lc_of_frame f)
  case h_5 p => exact h.imp lc_of_frame fun ⟨l, target, f⟩ => ⟨⟨p, rfl⟩, lc_of_frame f ▸ target⟩
  case h_8 => exact .inl (h.elim lc_of_frame fun ⟨_, _, f⟩ => lc_of_frame f)

theorem arc_of_lcTarget {now target : Nat} (h : lcTarget now target = true) :
    (now, target) = (1, 2) ∨ (now, target) = (2, 3) ∨ (1 ≤ now ∧ now ≤ 3 ∧ target = 4) := by
  simp only [lcTarget, Bool.or_eq_true, Bool.and_eq_true, beq_iff_eq] at h
  simp only [Prod.mk.injEq]
  omega

/-- Settles O7: LC_ADVANCE moves the life-cycle state along an arc that R614 lists, and no other command moves it. -/
theorem lifeCycleMovesForwardOnly : Obligations.LifeCycleMovesForwardOnly := by
  intro s t h
  obtain ⟨-, rfl⟩ | ⟨c, rest, front, moves⟩ := step_moves h
  · exact .inl rfl
  · obtain kept | ⟨⟨p, rfl⟩, target⟩ := moves.lc
    · exact .inl kept
    · exact .inr ⟨⟨p, rest, front⟩, arc_of_lcTarget target⟩

/-- Of the commands, FW_READY alone moves the least SVN, up to that of the image that runs (R133). -/
theorem Moves.minSvn {i : Instr} {s t : State} (h : Moves i s t) :
    t.sec.minSvn = s.sec.minSvn ∨ (i = .fwReady ∧ t.sec.minSvn = max s.sec.minSvn s.fw.svn) := by
  unfold Moves at h
  split at h
  case h_1 | h_10 => exact .inl (minSvn_of_frame h)
  case h_2 | h_6 | h_7 | h_9 => exact .inl (h.elim minSvn_of_frame minSvn_of_frame)
  case h_3 => exact h.imp minSvn_of_frame fun f => ⟨rfl, minSvn_of_frame f⟩
  case h_4 | h_5 => exact .inl (h.elim minSvn_of_frame fun ⟨_, _, f⟩ => minSvn_of_frame f)
  case h_8 => exact .inl (h.elim minSvn_of_frame fun ⟨_, _, f⟩ => minSvn_of_frame f)

/-- Settles O8: the least SVN stays, or FW_READY makes it the greater of two, one of which it was. -/
theorem minimumSvnNeverDecreases : Obligations.MinimumSvnNeverDecreases := by
  intro s t h
  obtain ⟨-, rfl⟩ | ⟨c, rest, front, moves⟩ := step_moves h
  · exact ⟨le_rfl, .inl rfl⟩
  · obtain kept | ⟨rfl, raised⟩ := moves.minSvn
    · exact ⟨kept.ge, .inl kept⟩
    · exact ⟨raised ▸ le_max_left .., .inr ⟨congrArg List.head? front, raised⟩⟩

end Sys2Proof.Machine

/-! What leaves the block is appended (log 2): no record, reply, interrupt or message takes back what has left before it. -/
namespace Sys2Proof.Machine

/-- What had left the block in `s` has left it first in `t`. -/
def Grows (s t : State) : Prop := s.out <+: t.out

@[simp] theorem Grows.refl (s : State) : Grows s s := List.prefix_rfl

theorem Grows.of_eq {s t : State} (h : t.out = s.out) : Grows s t := ⟨[], by rw [List.append_nil, h]⟩

theorem Grows.trans {s t u : State} (h : Grows s t) (g : Grows t u) : Grows s u := List.IsPrefix.trans h g

theorem Grows.mem {s t : State} (h : Grows s t) {o : Output} (left : o ∈ s.out) : o ∈ t.out := List.IsPrefix.subset h left

/-- An item that left in `s` is followed in `t` by what left after it. -/
theorem Grows.after_emit {o : Output} {s t : State} (h : Grows (emit o s) t) : ∃ tail, t.out = s.out ++ o :: tail := by
  obtain ⟨tail, e⟩ := h
  exact ⟨tail, by rw [← e, emit, List.append_assoc, List.singleton_append]⟩

theorem grows_foldl {α : Type} {f : State → α → State} (h : ∀ s a, Grows s (f s a)) (l : List α) (s : State) :
    Grows s (l.foldl f s) := by
  induction l generalizing s with
  | nil => exact .refl s
  | cons a l ih => exact (h s a).trans (ih _)

section
variable {s t : State} (h : Grows s t)
include h

theorem Grows.of_out {u : State} (e : u.out = t.out) : Grows s u := h.trans (.of_eq e)

@[simp] theorem Grows.emit (o : Output) : Grows s (emit o t) := h.trans (List.prefix_append ..)

@[simp] theorem Grows.setFn (i : Nat) (f : Fn → Fn) : Grows s (setFn i f t) := h.of_out rfl

@[simp] theorem Grows.setSlot (i k : Nat) (f : QSlot → QSlot) : Grows s (setSlot i k f t) := h.of_out rfl

@[simp] theorem Grows.setPort (i : Nat) (f : PcPort → PcPort) : Grows s (setPort i f t) := h.of_out rfl

@[simp] theorem Grows.setRing (i : Nat) (sec : Bool) (f : Ring → Ring) : Grows s (setRing i sec f t) := h.of_out rfl

@[simp] theorem Grows.hostWrite (iid addr len data : Nat) (ro : Bool) : Grows s (hostWrite iid addr len data ro t) := by
  unfold Machine.hostWrite
  split
  · exact (h.emit _).of_out (markDirty_out ..)
  · exact h.setPort ..

@[simp] theorem Grows.setFnIntx (iid : Nat) (g : Fn → Fn) : Grows s (setFnIntx iid g t) := by
  unfold Machine.setFnIntx
  dsimp only
  split
  · exact h.setFn ..
  · exact (h.setFn ..).emit _

@[simp] theorem Grows.raiseVector (iid v : Nat) : Grows s (raiseVector iid v t) := by
  unfold Machine.raiseVector
  dsimp only
  repeat' split
  all_goals simp [h]

@[simp] theorem Grows.writeEvent (pf rec : Nat) : Grows s (writeEvent pf rec t) :=
  (((h.hostWrite ..).hostWrite ..).setFn ..).raiseVector ..

@[simp] theorem Grows.deliverEvent (pf rec : Nat) : Grows s (deliverEvent pf rec t) := by
  unfold Machine.deliverEvent
  dsimp only
  repeat' split
  all_goals simp [h]

@[simp] theorem Grows.postInst (code iid region data : Nat) : Grows s (postInst code iid region data t) := h.deliverEvent ..

@[simp] theorem Grows.stopRing (iid : Nat) (sec : Bool) (code : Nat) : Grows s (stopRing iid sec code t) :=
  (h.setRing ..).postInst ..

@[simp] theorem Grows.writeReply (e : Exec) (st r : Nat) : Grows s (writeReply e st r t) := by
  unfold Machine.writeReply
  dsimp only
  have written : ∀ a n v a' n' v' f, Grows s (Machine.setRing e.pkt.fn e.pkt.sec f (Machine.hostWrite e.pkt.fn a n v false
      (Machine.hostWrite e.pkt.fn a' n' v' false (Machine.setRing e.pkt.fn e.pkt.sec (fun r => { r with exec := none }) t)))) :=
    fun _ _ _ _ _ _ _ => (((h.setRing ..).hostWrite ..).hostWrite ..).setRing ..
  repeat' split
  · exact h.setRing ..
  · exact (written ..).raiseVector ..
  · exact written ..
  · exact (h.setRing ..).setRing ..

@[simp] theorem Grows.finishExec (iid : Nat) (sec : Bool) (st r : Nat) : Grows s (finishExec iid sec st r t) := by
  unfold Machine.finishExec
  repeat' split
  all_goals simp [h]

@[simp] theorem Grows.sendRead (k tag : Nat) (w : ReqWait) : Grows s (sendRead k tag w t) := (h.setPort ..).emit _

@[simp] theorem Grows.issueRead (iid : Nat) (kind : ReqKind) (addr len : Nat) : Grows s (issueRead iid kind addr len t) := by
  unfold Machine.issueRead
  dsimp only
  split
  all_goals simp [h]

@[simp] theorem Grows.issueWaiting (k : Nat) : Grows s (issueWaiting k t) := by
  unfold Machine.issueWaiting
  dsimp only
  split
  all_goals simp [h]

end

@[simp] theorem Grows.deliverTo {s t : State} (h : Grows s t) (rec : Nat) (l : List Nat) : Grows s (deliverTo rec l t) := by
  induction l generalizing t with
  | nil => exact h
  | cons pf l ih => exact ih (h.deliverEvent ..)

@[simp] theorem Grows.postAll {s t : State} (h : Grows s t) (code region data : Nat) : Grows s (postAll code region data t) :=
  h.deliverTo ..

@[simp] theorem Grows.postTo {s t : State} (h : Grows s t) (code iid data : Nat) (pfs : List Nat) :
    Grows s (postTo code iid data pfs t) := h.deliverTo ..

@[simp] theorem Grows.flushHeld {s t : State} (h : Grows s t) (pf n : Nat) : Grows s (flushHeld pf n t) := by
  induction n generalizing t with
  | zero => exact h
  | succ n ih =>
    unfold Machine.flushHeld
    repeat' split
    · exact h
    · exact ih ((h.setFn ..).writeEvent ..)
    · exact h

@[simp] theorem Grows.flushEvents {s t : State} (h : Grows s t) (pf : Nat) : Grows s (flushEvents pf t) := by
  unfold Machine.flushEvents
  dsimp only
  split
  · exact ((h.flushHeld ..).setFn ..).writeEvent ..
  · exact h.flushHeld ..

end Sys2Proof.Machine

/-! Lane fault injection (R602 to R605, R613). -/
namespace Sys2Proof.Machine

/-- The opcode's life-cycle rule holds of a packet that R117 lets run otherwise: it runs. -/
theorem Runs.permitted {op w secure permit c s} (h : Runs op w secure always c s) (p : permit c (taken c s) = true) :
    Runs op w secure permit c s := by
  obtain ⟨⟨head, opcode, listed, channel, -, iid, domain, buffer⟩, full⟩ := h
  exact ⟨⟨head, opcode, listed, channel, p, iid, domain, buffer⟩, full⟩

/-- A packet that R117 lets run but for its opcode's life-cycle rule is denied (R613). -/
theorem runCmd_denied {op w secure permit c s check onRefuse effect} (h : Runs op w secure always c s)
    (p : permit c (taken c s) = false) :
    runCmd op w secure permit check onRefuse effect c s = writeReply (execOf c s) stDenied 0 (taken c s) := by
  obtain ⟨⟨⟨live, r1, r2, len, seq⟩, rfl, listed, channel, -, -, -, -⟩, -⟩ := h
  have denied : acceptHead w secure c.opcode permit c (taken c s) = some (stDenied, 0) := by
    rw [acceptHead, listed, channel, p]
    rfl
  have seqOk : ((ringOf s c.fn c.sec).seqValid && !after 16 c.seq (ringOf s c.fn c.sec).lastSeq.toNat) = false := by
    cases hv : (ringOf s c.fn c.sec).seqValid
    · rfl
    · simp [seq hv]
  simp only [taken, execOf] at denied ⊢
  simp only [runCmd, live, r1, r2, seqOk, resumed_of_live live, Nat.not_lt.2 len, denied, bne_self_eq_false, Bool.and_false,
    Bool.not_true, Bool.or_self, Bool.false_eq_true, if_false, decide_false]

/-! The state of a lane's injection. -/

theorem SMap.put_put {α : Type} (m : SMap α) (k : Nat) (a b : α) : (m.put k a).put k b = m.put k b := by
  induction m with
  | nil => simp [SMap.put]
  | cons c m ih =>
    obtain ⟨j, x⟩ := c
    unfold SMap.put
    by_cases lt : k < j
    · simp [lt, SMap.put]
    · by_cases eq : k = j
      · simp [eq, SMap.put]
      · simp [lt, eq, SMap.put, ih]

/-- A hold slot that is empty releases nothing. -/
theorem fiRelease_of_empty {s : State} {n : Nat} (empty : (fiOf s n).held = none) : fiRelease n s = s := by
  rw [fiRelease, empty]

/-- A held transmit frame is sent, and its slot is empty (R603, R604). -/
theorem fiRelease_tx {s : State} {n : Nat} {bs : List Byte} {bad : Bool} {st : DevTime} {d : Nat}
    (held : (fiOf s n).held = some (bs, bad, st, d)) (tx : (fiOf s n).rx = false) :
    fiRelease n s = emit (.laneFrame n bs) (setFi n (fun f => { f with held := none }) s) := by
  rw [fiRelease, held]
  simp only [tx, Bool.false_eq_true, if_false]

theorem fiRelease_rx {s : State} {n : Nat} {bs : List Byte} {bad : Bool} {st : DevTime} {d : Nat}
    (held : (fiOf s n).held = some (bs, bad, st, d)) (rx : (fiOf s n).rx = true) :
    fiRelease n s = takeWhole n st bs bad (setFi n (fun f => { f with held := none }) s) := by
  rw [fiRelease, held]
  simp only [rx, if_true]

/-! FI_SET (R602, R613). -/

/-- A lane's injection after FI_SET: the packet's parameters, armed, its window closed. -/
def Fi.armedBy (c : CmdPkt) (f : Fi) : Fi :=
  { f with
    armed := true, open_ := false, rx := c.p 2 1 == 1, drop := c.p 4 2, corrupt := c.p 6 2, reorder := c.p 8 2, delay := c.p 10 2,
    start := DevTime.ofFull (c.p 12 16), duration := c.p 28 4 }

/-- FI_SET's parameters are in range. -/
def fiRange (c : CmdPkt) : Prop :=
  c.p 0 2 < 1024 ∧ c.p 2 1 ≤ 1 ∧ c.p 3 1 = 0 ∧ 100 ≤ c.p 10 2 ∧ bits 79 62 (c.p 12 16) = 0 ∧ bits 61 32 (c.p 12 16) < 1000000000 ∧
    0 < c.p 28 4 ∧ c.p 28 4 ≤ 3600000000 ∧ c.p 32 16 = 0

/-- The reorder rate is 0, or FI_REORDER owns the lane's timer in the active set. -/
def fiOwned (c : CmdPkt) (s : State) : Prop := c.p 8 2 = 0 ∨ (setActive s = true ∧ ownerFeature (activeSet s) 2 (c.p 0 2) = 4)

/-- FI_SET's event to the host. -/
def fiArmedEvent (c : CmdPkt) (s : State) : State :=
  postAll 0x0A01 (c.p 0 2 / 64)
    (fld 255 246 (c.p 0 2) + fld 245 245 (c.p 2 1) + fld 191 128 (DevTime.ofFull (c.p 12 16)).stamp) s

theorem fiSet_inRange {c : CmdPkt} (range : fiRange c) : (decide (c.p 0 2 ≥ 1024) || decide (c.p 2 1 > 1) || c.p 3 1 != 0 ||
    decide (c.p 10 2 < 100) || bits 79 62 (c.p 12 16) != 0 || decide (bits 61 32 (c.p 12 16) ≥ 1000000000) || c.p 28 4 == 0 ||
    decide (c.p 28 4 > 3600000000) || c.p 32 16 != 0) = false := by
  simp only [Bool.or_eq_false_iff, decide_eq_false_iff_not, bne_eq_false_iff_eq, beq_eq_false_iff_ne]
  unfold fiRange at range
  omega

section
variable {c : CmdPkt} {s : State} (runs : Runs 0x0A01 .A false always c s)
include runs

theorem exec_fiSet_denied (denied : ¬ (s.sec.lc = 1 ∨ s.sec.lc = 3 ∨ (s.sec.lc = 2 ∧ s.sec.fiField = true))) :
    exec (.fiSet c) s = refusesWith c s stDenied :=
  congrArg Host.Outcome.next (runCmd_denied runs (show fiPermit c s = false by simpa [fiPermit, and_assoc] using denied))

variable (permit : s.sec.lc = 1 ∨ s.sec.lc = 3 ∨ (s.sec.lc = 2 ∧ s.sec.fiField = true))
include permit

theorem fiSet_runs : Runs 0x0A01 .A false fiPermit c s :=
  runs.permitted (show fiPermit c s = true by simpa [fiPermit, or_assoc] using permit)

theorem exec_fiSet_badParam (bad : ¬ fiRange c) : exec (.fiSet c) s = refusesWith c s stBadParam := by
  refine congrArg Host.Outcome.next (runCmd_refuses (fiSet_runs runs permit) (if_pos ?_))
  simp only [Bool.or_eq_true, decide_eq_true_eq, bne_iff_ne, beq_iff_eq]
  unfold fiRange at bad
  omega

theorem exec_fiSet_conflict (range : fiRange c) (foreign : ¬ fiOwned c s) : exec (.fiSet c) s = refusesWith c s stConflict := by
  refine congrArg Host.Outcome.next (runCmd_refuses (fiSet_runs runs permit) ?_)
  have conflict : (c.p 8 2 != 0 && (!setActive s || ownerFeature (activeSet s) 2 (c.p 0 2) != 4)) = true := by
    simpa [fiOwned, imp_iff_not_or] using foreign
  exact (if_neg (Bool.eq_false_iff.1 (fiSet_inRange range))).trans (if_pos conflict)

/-- The parameters replace those of the lane once a held frame has been released, and the host is told. -/
theorem exec_fiSet_armed (range : fiRange c) (owned : fiOwned c s) : exec (.fiSet c) s =
    repliesOk c s (fiArmedEvent c (setFi (c.p 0 2) (Fi.armedBy c) (fiRelease (c.p 0 2) (taken c s)))) 0 := by
  refine congrArg Host.Outcome.next (runCmd_done (fiSet_runs runs permit) ?_ rfl)
  have free : (c.p 8 2 != 0 && (!setActive s || ownerFeature (activeSet s) 2 (c.p 0 2) != 4)) = false := by
    simpa [fiOwned, imp_iff_not_or] using owned
  exact (if_neg (Bool.eq_false_iff.1 (fiSet_inRange range))).trans (if_neg (Bool.eq_false_iff.1 free))

end

/-! What FI_SET leaves of the lane's injection. -/

@[simp] theorem core_fiArmedEvent (c : CmdPkt) (s : State) : core (fiArmedEvent c s) = core s := core_postAll ..

theorem fiArmedEvent_fi (c : CmdPkt) (s : State) : (fiArmedEvent c s).fi = s.fi := fi_of_core (core_fiArmedEvent c s)

theorem grows_fiArmedEvent (c : CmdPkt) (s : State) : Grows s (fiArmedEvent c s) := (Grows.refl s).postAll ..

/-- A held transmit frame leaves before the host is told, and its slot is empty (R604). -/
theorem fiSet_sendsHeld {c : CmdPkt} {s : State} {bs : List Byte} {bad : Bool} {st : DevTime} {d : Nat}
    (held : (fiOf s (c.p 0 2)).held = some (bs, bad, st, d)) (tx : (fiOf s (c.p 0 2)).rx = false) (t : State)
    (arms : t = fiArmedEvent c (setFi (c.p 0 2) (Fi.armedBy c) (fiRelease (c.p 0 2) (taken c s)))) :
    ∃ tail, t.out = s.out ++ .laneFrame (c.p 0 2) bs :: tail ∧ (t.fi.get (c.p 0 2)).held = none ∧ (t.fi.get (c.p 0 2)).armed = true := by
  rw [fiRelease_tx (s := taken c s) held tx] at arms
  obtain ⟨tail, out⟩ := Grows.after_emit (o := .laneFrame (c.p 0 2) bs)
    (s := setFi (c.p 0 2) (fun f => { f with held := none }) (taken c s)) (arms ▸ grows_fiArmedEvent c _)
  refine ⟨tail, out, ?_⟩
  have released : (t.fi.get (c.p 0 2)) = Fi.armedBy c { s.fi.get (c.p 0 2) with held := none } := by
    rw [arms, fiArmedEvent_fi, setFi, SMap.get_upd_same]
    exact congrArg (Fi.armedBy c) (SMap.get_upd_same s.fi (c.p 0 2) (fun f => { f with held := none }))
  rw [released]
  exact ⟨rfl, rfl⟩

/-! FI_CLEAR and the rows of a lane's window and hold slot (R603, R604). -/

theorem exec_fiClear {c : CmdPkt} {s : State} (runs : Runs 0x0A02 .A false always c s) (range : c.p 0 2 < 1024) :
    exec (.fiClear c) s = repliesOk c s (fiEnd (c.p 0 2) (taken c s)) 0 :=
  congrArg Host.Outcome.next (runCmd_done runs (if_neg (by simpa using range)) rfl)

theorem exec_fiClear_badParam {c : CmdPkt} {s : State} (runs : Runs 0x0A02 .A false always c s) (range : 1024 ≤ c.p 0 2) :
    exec (.fiClear c) s = refusesWith c s stBadParam :=
  congrArg Host.Outcome.next (runCmd_refuses runs (if_pos (by simpa using range)))

theorem fiEnd_of_empty {s : State} {n : Nat} (empty : (s.fi.get n).held = none) :
    fiEnd n s = { s with fi := s.fi.put n { s.fi.get n with armed := false, open_ := false } } := by
  rw [fiEnd, fiRelease_of_empty empty]
  rfl

theorem fiEnd_tx {s : State} {n : Nat} {bs : List Byte} {bad : Bool} {st : DevTime} {d : Nat}
    (held : (fiOf s n).held = some (bs, bad, st, d)) (tx : (fiOf s n).rx = false) : fiEnd n s =
      { s with
        fi := s.fi.put n { s.fi.get n with held := none, armed := false, open_ := false }
        out := s.out ++ [.laneFrame n bs] } := by
  rw [fiEnd, fiRelease_tx held tx]
  have put : (s.fi.upd n fun f => { f with held := none }).upd n (fun f => { f with armed := false, open_ := false }) =
      s.fi.put n { s.fi.get n with held := none, armed := false, open_ := false } := by
    rw [SMap.upd, SMap.get_upd_same]
    exact SMap.put_put ..
  exact congrArg (fun m => { s with fi := m, out := s.out ++ [Output.laneFrame n bs] }) put

theorem fiOver_iff {s : State} {n : Nat} :
    fiOver s n = true ↔ 1000 * (s.fi.get n).duration * 2 ^ 32 ≤ DevTime.diff s.time.now (s.fi.get n).start := by
  simp [fiOver, nsU, fiOf]

theorem exec_fiWindowOpen (s : State) (n : Fin 1024) : exec (.fiWindowOpen n) s =
    .next (if (s.fi.get n).armed = true ∧ (s.fi.get n).open_ = false ∧ 0 ≤ DevTime.diff s.time.now (s.fi.get n).start ∧
        DevTime.diff s.time.now (s.fi.get n).start < 1000 * (s.fi.get n).duration * 2 ^ 32
      then { s with fi := s.fi.put n { s.fi.get n with open_ := true } } else s) := by
  have passed := fiOver_iff (s := s) (n := n)
  change execFiWindowOpen n s = _
  unfold execFiWindowOpen
  rw [apply_ite Host.Outcome.next]
  refine if_congr ?_ rfl rfl
  rw [Bool.and_eq_true, Bool.not_eq_true', Bool.eq_false_iff, Ne, passed, not_le]
  simp only [Bool.and_eq_true, Bool.not_eq_true', and_assoc]
  exact and_congr_right fun _ => and_congr_right fun _ => and_congr_left fun _ => decide_eq_true_iff

theorem exec_fiWindowEnd (s : State) (n : Fin 1024) : exec (.fiWindowEnd n) s =
    .next (if (s.fi.get n).armed = true ∧ 1000 * (s.fi.get n).duration * 2 ^ 32 ≤ DevTime.diff s.time.now (s.fi.get n).start
      then fiEnd n s else s) := by
  change execFiWindowEnd n s = _
  unfold execFiWindowEnd
  rw [apply_ite Host.Outcome.next]
  exact if_congr (by rw [Bool.and_eq_true, fiOver_iff]; rfl) rfl rfl

theorem exec_fiHoldRelease_of_empty {s : State} {n : Fin 1024} (empty : (s.fi.get n).held = none) :
    exec (.fiHoldRelease n) s = .next s := by
  change execFiHoldRelease n s = _
  rw [execFiHoldRelease, fiOf, empty]

theorem exec_fiHoldRelease {s : State} {n : Fin 1024} {bs : List Byte} {bad : Bool} {st : DevTime} {d : Nat}
    (held : (s.fi.get n).held = some (bs, bad, st, d)) :
    exec (.fiHoldRelease n) s = .next (if d ≤ s.tick then fiRelease n s else s) := by
  change execFiHoldRelease n s = _
  rw [execFiHoldRelease, fiOf, held, apply_ite Host.Outcome.next]

/-- Settles O60: FI_SET by its checks in order and the equation of what it arms; the lane's rows each by one equation. -/
theorem injectionIsArmedOpenedAndEnded : Obligations.InjectionIsArmedOpenedAndEnded := by
  unfold Obligations.InjectionIsArmedOpenedAndEnded
  refine ⟨fun c s runs => ⟨exec_fiSet_denied runs, fun permit => ⟨fun bad => exec_fiSet_badParam runs permit ?_, ?_⟩⟩, ?_, ?_⟩
  · unfold fiRange
    omega
  · rintro n f rfl rfl lane direction reserved delay layout ns short long rest
    have range : fiRange c := ⟨lane, direction, reserved, delay, layout, ns, short, long, rest⟩
    refine ⟨fun reorders foreign => exec_fiSet_conflict runs permit range ?_, fun owned empty => ?_, fun owned => ?_, ?_⟩
    · rintro (zero | ⟨active, owner⟩)
      · exact reorders zero
      · exact foreign.elim (fun off => absurd active (by simp [off])) (fun other => other owner)
    · refine ⟨_, exec_fiSet_armed runs permit range owned, ?_, ?_⟩
      · rw [fiRelease_of_empty (s := taken c s) empty]
        exact congrArg (fun t : State => { t with fi := s.fi }) (core_fiArmedEvent c _)
      · rw [fiArmedEvent_fi, fiRelease_of_empty (s := taken c s) empty]
        rfl
    · exact ⟨_, exec_fiSet_armed runs permit range owned⟩
    · intro bs bad st d owned held tx
      obtain ⟨tail, out, empty, armed⟩ := fiSet_sendsHeld held tx _ rfl
      exact ⟨_, tail, exec_fiSet_armed runs permit range owned, out, empty, armed⟩
  · rintro c s f runs rfl
    refine ⟨exec_fiClear_badParam runs, fun range empty => ?_, fun range => ⟨_, exec_fiClear runs range⟩, ?_⟩
    · rw [exec_fiClear runs range, fiEnd_of_empty (s := taken c s) empty]
      rfl
    · intro bs bad st d range held tx
      rw [exec_fiClear runs range, fiEnd_tx (s := taken c s) held tx]
      rfl
  · rintro s n f rfl
    refine ⟨fun armed closed begun before => ?_, fun outside => ?_, fun armed empty => ?_, fun unarmed => ?_,
      ⟨_, exec_fiWindowEnd s n⟩, fun bs bad st d held due rx => ?_, exec_fiHoldRelease_of_empty, fun bs bad st d held => ⟨fun early => ?_, fun due tx => ?_⟩⟩
    · rw [exec_fiWindowOpen, if_pos ⟨armed, closed, begun, before⟩]
    · rw [exec_fiWindowOpen, if_neg]
      rintro ⟨armed, closed, begun, before⟩
      exact outside.elim (by simp [armed]) (·.elim (by simp [closed]) (·.elim begun.not_gt before.not_ge))
    · rw [exec_fiWindowEnd, fiEnd_of_empty empty]
      exact congrArg Host.Outcome.next (if_congr (and_iff_right armed) rfl rfl)
    · rw [exec_fiWindowEnd, if_neg (by simp [unarmed])]
    · rw [exec_fiHoldRelease held, if_pos due, fiRelease_rx held rx]
      rfl
    · rw [exec_fiHoldRelease held, if_neg early.not_ge]
    · rw [exec_fiHoldRelease held, if_pos due, fiRelease_tx held tx]
      rfl

end Sys2Proof.Machine

/-! Rails, lasers, lane references and the power commands (R635, R636, R650 to R653, R661 to R663). -/
namespace Sys2Proof.Machine

/-! A lane that goes down leaves the power registers, the firmware and the keys (R36, R175, R200). -/

@[simp] theorem steady_emit (o : Output) (s : State) : steady (emit o s) = steady s := rfl

@[simp] theorem steady_count (c : Cnt) (i : Nat) (s : State) : steady (count c i s) = steady s := rfl

@[simp] theorem steady_setPkt (p : Nat) (f : Pkt → Pkt) (s : State) : steady (setPkt p f s) = steady s := by
  obtain ⟨m, e⟩ := setPkt_eq p f s
  rw [e]
  rfl

@[simp] theorem steady_fragFate (x : Pkt) (fate reason : Nat) (s : State) : steady (fragFate x fate reason s) = steady s := by
  unfold fragFate
  repeat' split
  all_goals rfl

@[simp] theorem steady_dropPkt (p : Nat) (s : State) : steady (dropPkt p s) = steady s := by simp [dropPkt]

@[simp] theorem steady_losePkt (p : Nat) (s : State) : steady (losePkt p s) = steady s := by
  unfold losePkt
  dsimp only
  split <;> simp

@[simp] theorem steady_flushFrame (n p : Nat) (s : State) : steady (flushFrame n p s) = steady s := by simp [flushFrame]

@[simp] theorem steady_applyEffect (e : Effect) (s : State) : steady (applyEffect e s) = steady s := by
  have set (epoch : Nat) (f : SetSlot → SetSlot) : steady (updSet epoch f s) = steady s := by
    obtain ⟨a, b, h⟩ := updSet_eq epoch f s
    rw [h]
    rfl
  cases e with
  | count => exact set ..
  | hit => exact set ..
  | learn => rfl
  | pipeCount => rfl

@[simp] theorem steady_commitEffects (p : Nat) (s : State) : steady (commitEffects p s) = steady s :=
  (steady_foldl (fun _ _ => steady_applyEffect ..) _ _).trans (steady_setPkt ..)

@[simp] theorem steady_undoFrame (p : Nat) (s : State) : steady (undoFrame p s) = steady s := by
  obtain ⟨t, m, e⟩ := undoFrame_eq p s
  rw [e]
  rfl

@[simp] theorem steady_killRx (n : Nat) (s : State) : steady (killRx n s) = steady s := by
  unfold killRx
  dsimp only
  repeat' split
  all_goals simp

@[simp] theorem steady_truncate (n : Nat) (s : State) : steady (truncate n s) = steady s := by
  unfold truncate
  split <;> simp

@[simp] theorem steady_judgeHead (n c k : Nat) (s : State) : steady (judgeHead n c k s) = steady s := by
  induction k generalizing s with
  | zero => rfl
  | succ k ih =>
    unfold judgeHead
    repeat' split
    · rfl
    · rfl
    · rfl
    · simp
    · simp [ih]
    · simp
    · exact steady_setPkt ..

@[simp] theorem steady_enqueue (p n c : Nat) (s : State) : steady (enqueue p n c s) = steady s := by
  have marked : steady (ecnMark p n c s) = steady s := by
    unfold ecnMark
    dsimp only
    split <;> simp
  exact (steady_judgeHead n c 1 _).trans ((steady_setPkt ..).trans marked)

theorem steady_moveQueue (n : Nat) (sub : Option Nat) (c : Nat) (ps : List Nat) (s : State) :
    steady (moveQueue n sub c ps s) = steady s := by
  induction ps generalizing s with
  | nil => rfl
  | cons p ps ih =>
    unfold moveQueue
    split <;> simp [ih]

theorem steady_moveCommitted (n : Nat) (sub : Option Nat) (ps : List Nat) (s : State) :
    steady (moveCommitted n sub ps s) = steady s := by
  induction ps generalizing s with
  | nil => rfl
  | cons p ps ih =>
    unfold moveCommitted
    split <;> simp [ih]

@[simp] theorem steady_substitute (n : Nat) (s : State) : steady (substitute n s) = steady s :=
  (steady_moveCommitted ..).trans (steady_foldl (fun _ _ => steady_moveQueue ..) _ _)

@[simp] theorem steady_postAll (code region data : Nat) (s : State) : steady (postAll code region data s) = steady s :=
  steady_of_core (core_postAll ..)

@[simp] theorem steady_laneDown (n reason : Nat) (s : State) : steady (laneDown n reason s) = steady s := by
  unfold laneDown postLaneDown
  dsimp only
  repeat' split
  all_goals simp

/-! AVSBus (R635, R636). -/

/-- The place of a rail among both buses' rails. -/
def railKey (bus : Bool) (rail : Nat) : Nat := 16 * bit bus + rail

theorem avsFault_spec (bus : Bool) (rail cause : Nat) (s : State) : railKey bus rail ∈ (avsFault bus rail cause s).pwr.avsFaulted ∧
    core { avsFault bus rail cause s with pwr := s.pwr } = core s := by
  refine ⟨?_, congrArg (fun t : State => { t with pwr := s.pwr }) (core_postAll ..)⟩
  rw [avsFault, postAll_pwr]
  show railKey bus rail ∈ (if s.pwr.avsFaulted.contains (railKey bus rail) = true then _ else _)
  split
  · next listed => exact List.contains_iff_mem.1 listed
  · exact List.mem_cons_self

section
variable {bus : Bool} {rail : Fin 16} {s : State}

theorem exec_avsResponse_absent (a : AvsResult) (absent : 6 ≤ rail.val) : exec (.avsResponse true rail a) s = .next s :=
  if_pos (by simpa using absent)

variable (there : bus = true → rail.val < 6)
include there

/-- Which response a rail that there is gets decides. -/
theorem exec_avsResponse (a : AvsResult) : exec (.avsResponse bus rail a) s =
    match a with
    | .noResponse => if s.pwr.avsTries.get (railKey bus rail) ≥ 2
        then .next (avsFault bus rail 0 { s with pwr := { s.pwr with avsTries := s.pwr.avsTries.put (railKey bus rail) 0 } })
        else .next { s with pwr := { s.pwr with avsTries := s.pwr.avsTries.put (railKey bus rail) (s.pwr.avsTries.get (railKey bus rail) + 1) } }
    | .statusFault => .next (avsFault bus rail 1 s)
    | .readback v => if (regionOf s (railKey bus rail)).setMv * 16 != 0 &&
          (v > (regionOf s (railKey bus rail)).setMv * 16 + 160 || v + 160 < (regionOf s (railKey bus rail)).setMv * 16)
        then .next (avsFault bus rail 2 { s with pwr := { s.pwr with
          avsTries := s.pwr.avsTries.put (railKey bus rail) 0, avsRead := s.pwr.avsRead.put (railKey bus rail) (v % 65536) } })
        else .next { s with pwr := { s.pwr with
          avsTries := s.pwr.avsTries.put (railKey bus rail) 0, avsRead := s.pwr.avsRead.put (railKey bus rail) (v % 65536) } } := by
  have known : (bus && decide (6 ≤ rail.val)) = false := by
    cases bus
    · rfl
    · simpa using there rfl
  refine (if_neg (Bool.eq_false_iff.1 known)).trans ?_
  cases a <;> rfl

theorem avsResponse_faults (a : AvsResult)
    (fails : a = .statusFault ∨ (a = .noResponse ∧ 2 ≤ s.pwr.avsTries.get (railKey bus rail)) ∨
      ∃ v, a = .readback v ∧ (regionOf s (railKey bus rail)).setMv ≠ 0 ∧
        ((regionOf s (railKey bus rail)).setMv * 16 + 160 < v ∨ v + 160 < (regionOf s (railKey bus rail)).setMv * 16)) :
    ∃ t, exec (.avsResponse bus rail a) s = .next t ∧ railKey bus rail ∈ t.pwr.avsFaulted ∧ core { t with pwr := s.pwr } = core s := by
  rw [exec_avsResponse there]
  obtain rfl | ⟨rfl, tries⟩ | ⟨v, rfl, set, apart⟩ := fails
  · exact ⟨_, rfl, avsFault_spec ..⟩
  · obtain ⟨listed, kept⟩ := avsFault_spec bus rail 0
      { s with pwr := { s.pwr with avsTries := s.pwr.avsTries.put (railKey bus rail) 0 } }
    exact ⟨_, if_pos tries, listed, congrArg (fun t : State => { t with pwr := s.pwr }) kept⟩
  · obtain ⟨listed, kept⟩ := avsFault_spec bus rail 2 { s with pwr := { s.pwr with
      avsTries := s.pwr.avsTries.put (railKey bus rail) 0, avsRead := s.pwr.avsRead.put (railKey bus rail) (v % 65536) } }
    refine ⟨_, if_pos ?_, listed, congrArg (fun t : State => { t with pwr := s.pwr }) kept⟩
    simp only [Bool.and_eq_true, bne_iff_ne, Bool.or_eq_true, decide_eq_true_eq]
    omega

theorem exec_avsResponse_within {v : Nat} (low : (regionOf s (railKey bus rail)).setMv * 16 ≤ v + 160)
    (high : v ≤ (regionOf s (railKey bus rail)).setMv * 16 + 160) : exec (.avsResponse bus rail (.readback v)) s =
      .next { s with pwr := { s.pwr with
        avsTries := s.pwr.avsTries.put (railKey bus rail) 0, avsRead := s.pwr.avsRead.put (railKey bus rail) (v % 65536) } } := by
  rw [exec_avsResponse there]
  refine if_neg ?_
  simp only [Bool.and_eq_true, bne_iff_ne, Bool.or_eq_true, decide_eq_true_eq]
  omega

end

/-- Nothing is written to a faulted rail (R636). -/
theorem writeRail_of_faulted {s : State} {k : Nat} (v : Nat) (faulted : railKey (railOf k).1 (railOf k).2 ∈ s.pwr.avsFaulted) :
    writeRail k v s = s := by
  unfold writeRail
  exact if_pos (by simpa using .inr faulted)

/-! Lasers and lane references (R650 to R653). -/

theorem exec_laserFaultClear (s : State) (k : Fin 16) : ∃ l, exec (.laserFaultClear k) s =
      .next { s with pwr := { s.pwr with lasers := l } } ∧ (l.get k).fault = false ∧
    ((l.get k).en = true ↔ s.pwr.released = true ∧ (s.pwr.lasers.get k).mated = true ∧ (s.pwr.lasers.get k).matedAt + 80000000 ≤ s.tick) := by
  refine ⟨_, rfl, ?_, ?_⟩
  · simp
  · simp [msT, and_assoc]

theorem laneRefLost_lasers (s : State) (k : Fin 16) : ∃ t, exec (.laneRefLost k) s = .next t ∧ (t.pwr.lasers.get k).lref = false := by
  refine ⟨(List.range 64).foldl (fun s i => laneRefFail (64 * k.val + i) s) { s with
    pwr := { s.pwr with lasers := s.pwr.lasers.put k { s.pwr.lasers.get k with lref := false } } }, rfl, ?_⟩
  have kept (l : List Nat) (u : State) : (l.foldl (fun s i => laneRefFail (64 * k.val + i) s) u).pwr = u.pwr :=
    (steady_eq_iff.1 (steady_foldl (fun _ _ => steady_laneDown ..) l u)).1
  rw [kept, SMap.get_put_same]

/-! The commands (R661 to R663). -/

theorem exec_pwrCap {c : CmdPkt} {s : State} (runs : Runs 0x0B02 .A false always c s) : exec (.pwrCap c) s =
    if 300 ≤ c.p 0 2 ∧ c.p 0 2 ≤ 720 then repliesOk c s { taken c s with pwr := { s.pwr with cap := c.p 0 2 } } 0
    else refusesWith c s stBadParam :=
  runCmd_ranged runs rfl (by simp only [Bool.or_eq_true, decide_eq_true_eq]; omega) fun passes =>
    congrArg Host.Outcome.next (runCmd_done runs passes rfl)

theorem exec_telemCfg {c : CmdPkt} {s : State} (runs : Runs 0x0B03 .A false always c s) (target : c.p 2 1 ≤ 1) :
    exec (.telemCfg c) s = if c.p 0 2 = 0 ∨ (100 ≤ c.p 0 2 ∧ c.p 0 2 ≤ 60000) then
        repliesOk c s { taken c s with
          pwr := { s.pwr with telemPeriod := c.p 0 2, telemPeal := c.p 2 1 == 1, telemNext := s.tick + 800000 * c.p 0 2 } } 0
      else refusesWith c s stBadParam := by
  refine runCmd_ranged (bad := c.p 0 2 != 0 && (c.p 0 2 < 100 || c.p 0 2 > 60000)) runs ?_ ?_ fun passes => ?_
  · dsimp only [firstOf]
    rw [if_neg (by simpa using target : ¬ decide (c.p 2 1 > 1) = true)]
  · simp only [Bool.and_eq_true, bne_iff_ne, Bool.or_eq_true, decide_eq_true_eq]
    omega
  · refine congrArg Host.Outcome.next ((runCmd_done runs passes rfl).trans ?_)
    rw [msT, Nat.mul_comm (c.p 0 2)]
    rfl

/-- Settles O29: an AVSBus response by what it is, each laser row and command by its equation, and a lost lane reference by what a
lane that goes down leaves alone. -/
theorem railsLasersAndPowerCommands : Obligations.RailsLasersAndPowerCommands := by
  unfold Obligations.RailsLasersAndPowerCommands
  refine ⟨fun s r a absent => exec_avsResponse_absent a absent, fun s bus r there => ⟨fun few => ?_, fun a => avsResponse_faults there a, ?_⟩,
    fun s k v _ => writeRail_of_faulted v, fun s k off => ?_, fun s k => ?_, fun s k => ?_, fun s k => ?_, laneRefLost_lasers,
    fun s k => rfl, fun c s runs => ?_, fun c s => exec_pwrCap, fun c s => exec_telemCfg⟩
  · exact (exec_avsResponse there _).trans (if_neg few.not_ge)
  · intro v low high
    exact ⟨_, exec_avsResponse_within there low high, rfl, SMap.get_put_same .., SMap.get_put_same ..⟩
  · refine ⟨_, if_neg (by simp [off]), ?_, ?_, ?_⟩ <;> simp
  · refine ⟨_, rfl, ?_, ?_, rfl⟩ <;> simp
  · refine ⟨_, rfl, ?_, ?_, rfl⟩ <;> simp
  · obtain ⟨l, cleared, fault, en⟩ := exec_laserFaultClear s k
    exact ⟨_, cleared, fault, en, rfl⟩
  · exact congrArg Host.Outcome.next (runCmd_done runs rfl rfl)

end Sys2Proof.Machine

/-! Ageing: samples of the monitors, re-planning and its forecast, MARGIN_READ (R597 to R601). -/
namespace Sys2Proof.Machine

/-! ## Samples (R97, R597) -/

theorem lowestOf_eq_none {l : List (Int × Nat × Nat)} (h : lowestOf l = none) : l = [] := by
  cases l with
  | nil => rfl
  | cons m ms =>
    unfold lowestOf at h
    split at h
    · cases h
    · split at h <;> cases h

/-- The least of a list is one of it, and no margin of the list is less. -/
theorem lowestOf_least {l : List (Int × Nat × Nat)} {x : Int × Nat × Nat} (h : lowestOf l = some x) : x ∈ l ∧ ∀ y ∈ l, x.1 ≤ y.1 := by
  induction l generalizing x with
  | nil => cases h
  | cons m ms ih =>
    unfold lowestOf at h
    split at h
    · next none =>
      cases h
      rw [lowestOf_eq_none none]
      simp
    · next b some =>
      obtain ⟨mem, least⟩ := ih some
      split at h
      · next lt =>
        cases h
        exact ⟨List.mem_cons_of_mem _ mem, List.forall_mem_cons.2 ⟨lt.le, least⟩⟩
      · next le =>
        cases h
        exact ⟨List.mem_cons_self, List.forall_mem_cons.2 ⟨le_rfl, fun y hy => (not_lt.1 le).trans (least y hy)⟩⟩

/-- Every region has monitors, so a sample brings margins. -/
theorem lowestOf_margins {k : Nat} {rings taps steps : List Nat} (counts : (rings.length, taps.length, steps.length) = monitorCounts k)
    (tj : Int) : ∃ x, lowestOf (margins k tj rings taps steps) = some x := by
  refine Option.ne_none_iff_exists'.1 fun none => ?_
  have empty := congrArg List.length (lowestOf_eq_none none)
  simp only [margins, List.length_append, List.length_map, List.length_zipIdx, List.length_nil] at empty
  have some : 2 ≤ (monitorCounts k).1 := by unfold monitorCounts; split <;> [skip; split] <;> decide
  rw [← counts] at some
  dsimp only at some
  omega

@[simp] theorem ageOf_setAge_same (k : Nat) (f : Age → Age) (s : State) : ageOf (setAge k f s) k = f (ageOf s k) := SMap.get_upd_same ..

theorem ageOf_setAge_ne {k j : Nat} (f : Age → Age) (s : State) (h : k ≠ j) : ageOf (setAge k f s) j = ageOf s j :=
  SMap.get_upd_ne _ _ h

theorem setAge_setAge (k : Nat) (f g : Age → Age) (s : State) : setAge k g (setAge k f s) = setAge k (fun a => g (f a)) s := by
  simp only [setAge, SMap.upd, SMap.get_put_same, SMap.put_put]

/-- A region's age after a sample whose least margin is `x`. -/
def Age.sampled (tick : Nat) (x : Int × Nat × Nat) (a : Age) : Age :=
  { a with
    margin := x.1, kind := x.2.1, index := x.2.2, sampleAt := tick + 48000000000
    least := some (match a.least with | some l => min l x.1 | none => x.1) }

section
variable {s : State} {k : Fin 24} {rings taps steps : List Nat}

theorem exec_crazingSample_idle (idle : s.fw.ready = false ∨ (rings.length, taps.length, steps.length) ≠ monitorCounts k ∨
    s.tick < (s.age.get k).sampleAt) : exec (.crazingSample k rings taps steps) s = .next s := by
  refine if_pos ?_
  rcases idle with h | h | h
  · simp [h]
  · simp [h]
  · simp [ageOf, h]

theorem exec_crazingSample (ready : s.fw.ready = true) (due : (s.age.get k).sampleAt ≤ s.tick)
    (counts : (rings.length, taps.length, steps.length) = monitorCounts k) {x : Int × Nat × Nat}
    (least : lowestOf (margins k (regionOf s k).tj rings taps steps) = some x) :
    ∃ t low, exec (.crazingSample k rings taps steps) s = .next t ∧
      t.age = s.age.put k { (s.age.get k).sampled s.tick x with lowNext := low } ∧ core { t with age := s.age } = core s ∧
      ((fuseWarn k : Int) ≤ x.1 → t.out = s.out ∧ t.fns = s.fns) := by
  have taken : (!s.fw.ready || (rings.length, taps.length, steps.length) != monitorCounts k || decide (s.tick < (ageOf s k).sampleAt)) = false := by
    rw [ageOf, decide_eq_false due.not_gt]
    simp [ready, counts]
  change ∃ t low, execCrazingSample k rings taps steps s = .next t ∧ _
  rw [execCrazingSample, if_neg (Bool.eq_false_iff.1 taken), least]
  dsimp only
  split
  · next warns =>
    simp only [Bool.and_eq_true, decide_eq_true_eq] at warns
    refine ⟨_, s.tick + secT 86400, rfl, ?_, congrArg (fun t : State => { t with age := s.age }) (core_postAll ..), fun high => ?_⟩
    · rw [postAll_age, setAge_setAge]
      rfl
    · exact absurd warns.1 high.not_gt
  · exact ⟨_, (s.age.get k).lowNext, rfl, rfl, rfl, fun _ => ⟨rfl, rfl⟩⟩

end

/-! ## Raising and lowering a supply (R599, R634) -/

theorem writeRail_age (k v : Nat) (s : State) : (writeRail k v s).age = s.age := by
  unfold writeRail
  dsimp only
  split <;> rfl

/-- Of the ages, `t` may have another GUARD in each, and nothing else. -/
def SamePlan (s t : State) : Prop := ∀ j, ageOf t j = { ageOf s j with guard := (ageOf t j).guard }

theorem SamePlan.refl (s : State) : SamePlan s s := fun _ => rfl

theorem SamePlan.trans {s t u : State} (h : SamePlan s t) (g : SamePlan t u) : SamePlan s u := fun j => by rw [g j, h j]

theorem samePlan_of_age {s t : State} (h : t.age = s.age) : SamePlan s t := fun j => by rw [ageOf, h, ageOf]

theorem samePlan_setGuard (k : Nat) (f : Nat → Nat) (s : State) : SamePlan s (setAge k (fun a => { a with guard := f a.guard }) s) := by
  intro j
  by_cases e : k = j
  · subst e
    rw [ageOf_setAge_same]
  · rw [ageOf_setAge_ne _ _ e]

theorem samePlan_stepUp (k : Nat) (s : State) : SamePlan s (stepUp k s) :=
  (samePlan_of_age (writeRail_age ..)).trans (samePlan_setGuard k (· + 80) _)

theorem samePlan_raiseNeighbours (n k : Nat) (x : State × SMap Nat × Bool) : SamePlan x.1 (raiseNeighbours n k x).1 := by
  induction n generalizing k x with
  | zero => exact .refl _
  | succ n ih =>
    unfold raiseNeighbours
    induction neighbours k generalizing x with
    | nil => exact .refl _
    | cons b bs follow =>
      refine SamePlan.trans ?_ (follow _)
      dsimp only
      repeat' split
      · exact (samePlan_stepUp _ _).trans (ih _ _)
      all_goals exact .refl _

theorem samePlan_raiseSteps (k n : Nat) (s : State) (ups : SMap Nat) : SamePlan s (raiseSteps k n s ups) := by
  induction n generalizing s ups with
  | zero => exact .refl _
  | succ n ih =>
    unfold raiseSteps
    dsimp only
    split
    · exact ((samePlan_stepUp k s).trans (samePlan_raiseNeighbours _ _ _)).trans (ih _ _)
    · exact .refl _

@[simp] theorem core_postEndOfLife (k : Nat) (forecast : Bool) (s : State) : core (postEndOfLife k forecast s) = core s := core_postAll ..

theorem samePlan_replan (k : Nat) (m : Int) (s : State) : SamePlan s (replan k m s) := by
  have posted (b : Bool) : SamePlan s (postEndOfLife k b s) := samePlan_of_age (age_of_core (core_postEndOfLife ..))
  unfold replan
  dsimp only
  repeat' split
  · exact (posted _).trans (samePlan_raiseSteps _ _ _ _)
  · exact posted _
  · exact samePlan_raiseSteps _ _ _ _
  · exact .refl _
  · exact (samePlan_of_age (writeRail_age ..)).trans (samePlan_setGuard k (· - 80) _)
  · exact .refl _

/-! ## The steps of a raise (R599) -/

/-- A region's neighbours are not so far below it after `n` more steps that one must follow. -/
def Calm (s : State) (k n : Nat) : Prop := ∀ b ∈ neighbours k, (regionOf s b).vdd = 0 ∨ (regionOf s k).vdd + 5 * n ≤ (regionOf s b).vdd + 40

theorem writeRail_vdd (k v : Nat) (s : State) (j : Nat) : (regionOf (writeRail k v s) j).vdd = (regionOf s j).vdd := by
  unfold writeRail
  dsimp only
  split
  · rfl
  · show (regionOf (setRegion k _ s) j).vdd = _
    by_cases e : k = j
    · subst e
      rw [regionOf_setRegion_same]
    · rw [regionOf_setRegion_ne _ _ e]

theorem stepUp_vdd (k : Nat) (s : State) (j : Nat) : (regionOf (stepUp k s) j).vdd = (regionOf s j).vdd := writeRail_vdd ..

theorem writeRail_setMv {k v : Nat} {s : State} (raises : raisable s k = true) (lo : 740 ≤ v) (hi : v ≤ 860) :
    (regionOf (writeRail k v s) k).setMv = v := by
  simp only [raisable, Bool.and_eq_true, decide_eq_true_eq, Bool.not_eq_true', List.contains_eq_mem, decide_eq_false_iff_not] at raises
  rw [writeRail_eq raises.1 lo hi raises.2]
  exact congrArg Region.setMv (regionOf_setRegion_same k (fun g => { g with setMv := v }) s)

theorem raisable_writeRail (k v : Nat) (s : State) (j : Nat) : raisable (writeRail k v s) j = raisable s j := by
  unfold writeRail
  dsimp only
  split <;> rfl

theorem stepUp_guard (k : Nat) (s : State) : (ageOf (stepUp k s) k).guard = (ageOf s k).guard + 80 := by
  rw [stepUp, ageOf_setAge_same, ageOf, writeRail_age, ageOf]

/-- No neighbour follows a region's steps while all are near enough. -/
theorem raiseNeighbours_calm {s : State} {k n : Nat} {ups : SMap Nat} (calm : Calm s k n) (steps : ups.get k ≤ n) (d : Nat) :
    raiseNeighbours d k (s, ups, true) = (s, ups, true) := by
  cases d with
  | zero => rfl
  | succ d =>
    unfold raiseNeighbours
    unfold Calm at calm
    generalize neighbours k = l at calm ⊢
    induction l with
    | nil => rfl
    | cons b bs ih =>
      obtain ⟨near, calm⟩ := List.forall_mem_cons.1 calm
      rw [List.foldl_cons]
      have still : (decide (supplyNow s ups b + 40 < supplyNow s ups k) && (regionOf s b).vdd != 0) = false := by
        obtain off | near := near
        · simp [off]
        · rw [decide_eq_false, Bool.false_and]
          unfold supplyNow
          omega
      dsimp only
      rw [if_neg (Bool.eq_false_iff.1 still)]
      exact ih calm

/-- While no neighbour must follow, every step is taken. -/
theorem raiseSteps_calm {s : State} {k m : Nat} (n : Nat) {ups : SMap Nat} (calm : Calm s k m) (steps : ups.get k + n ≤ m) :
    raiseSteps k n s ups = (stepUp k)^[n] s := by
  induction n generalizing s ups with
  | zero => rfl
  | succ n ih =>
    have calm' : Calm (stepUp k s) k m := fun b hb => by
      rw [stepUp_vdd, stepUp_vdd]
      exact calm b hb
    have count : (ups.put k (ups.get k + 1)).get k = ups.get k + 1 := SMap.get_put_same ..
    unfold raiseSteps
    rw [raiseNeighbours_calm calm' (by omega)]
    exact ih calm' (by omega)

theorem iterate_stepUp_guard (k n : Nat) (s : State) : (ageOf ((stepUp k)^[n] s) k).guard = (ageOf s k).guard + 80 * n := by
  induction n generalizing s with
  | zero => rfl
  | succ n ih => rw [Function.iterate_succ_apply, ih, stepUp_guard]; omega

theorem iterate_stepUp_setMv {k : Nat} (n : Nat) {s : State} (raises : raisable s k = true) (lo : 740 ≤ (regionOf s k).setMv)
    (hi : (regionOf s k).setMv + 5 * n ≤ 860) : (regionOf ((stepUp k)^[n] s) k).setMv = (regionOf s k).setMv + 5 * n := by
  induction n generalizing s with
  | zero => rfl
  | succ n ih =>
    have set : (regionOf (stepUp k s) k).setMv = (regionOf s k).setMv + 5 := writeRail_setMv raises (by omega) (by omega)
    have raises' : raisable (stepUp k s) k = true := (raisable_writeRail ..).trans raises
    rw [Function.iterate_succ_apply, ih raises' (by omega) (by omega), set]
    omega

/-! ## The re-planning of a region (R599, R600) -/

/-- The steps that a need of `need` takes from a GUARD, as far as GUARD_MAX admits. -/
def planSteps (k guard need : Nat) : Nat :=
  if fuseGuardMax k < guard + 80 * ((need + 79) / 80) then (fuseGuardMax k - guard) / 80 else (need + 79) / 80

/-- A need is met by steps of 5 mV, where the supply can be raised; END_OF_LIFE is posted where not all of them fit below GUARD_MAX. -/
theorem replan_needs {k : Nat} {m : Int} (s : State) (needs : m < fuseTarget k) : ∃ u, core u = core s ∧
    replan k m s = if raisable s k = true then raiseSteps k (planSteps k (ageOf s k).guard ((fuseTarget k : Int) - m).toNat) u [] else u := by
  unfold replan planSteps
  dsimp only
  rw [if_pos needs]
  split
  · exact ⟨postEndOfLife k false s, core_postEndOfLife .., by
      rw [raisable, raisable, pwr_of_core (core_postEndOfLife k false s)]⟩
  · exact ⟨s, rfl, rfl⟩

theorem replan_surplus {k : Nat} {m : Int} {s : State} (enough : (fuseTarget k : Int) + 240 ≤ m) (raises : raisable s k = true) :
    replan k m s = if 80 ≤ (ageOf s k).guard
      then setAge k (fun a => { a with guard := a.guard - 80 }) (writeRail k ((regionOf s k).setMv - 5) s) else s := by
  unfold replan
  rw [if_neg (by omega)]
  refine if_congr ?_ rfl rfl
  simp [raises, enough]

theorem replan_level {k : Nat} {m : Int} {s : State} (least : (fuseTarget k : Int) ≤ m)
    (level : m < (fuseTarget k : Int) + 240 ∨ raisable s k = false) : replan k m s = s := by
  unfold replan
  rw [if_neg (by omega)]
  refine if_neg ?_
  simp only [Bool.and_eq_true, decide_eq_true_eq]
  rintro ⟨⟨enough, -⟩, raises⟩
  rcases level with h | h
  · omega
  · exact absurd raises (by simp [h])

/-- The supply and GUARD that the end of an interval leaves. -/
def planned (k : Nat) (s : State) : State := match (ageOf s k).least with | some m => replan k m s | none => s

theorem samePlan_planned (k : Nat) (s : State) : SamePlan s (planned k s) := by
  unfold planned
  split
  · exact samePlan_replan _ _ _
  · exact .refl _

/-- A region's age once its interval has ended with GUARD at `g`, and had `old` as its GUARD of 90 days ago. -/
def Age.ended (k g : Nat) (old : Option Nat) (a : Age) : Age :=
  { a with
    forecast := forecastOf (fuseGuardMax k) g old, history := (g :: a.history).take 90, least := none
    planAt := a.planAt + secT 86400 }

/-- The state in which an interval has ended. -/
def intervalEnded (k : Nat) (s : State) : State :=
  setAge k (Age.ended k (ageOf (planned k s) k).guard ((ageOf s k).history[89]?)) (planned k s)

/-- An interval that ends is re-planned, and its GUARD enters the history; END_OF_LIFE may follow. -/
theorem exec_guardbandReplan {s : State} {k : Fin 24} (ready : s.fw.ready = true) (due : (s.age.get k).planAt ≤ s.tick) :
    ∃ t e, exec (.guardbandReplan k) s = .next t ∧ t.pwr = (planned k s).pwr ∧
      t.age.get k = { Age.ended k (ageOf (planned k s) k).guard ((ageOf s k).history[89]?) (ageOf (planned k s) k) with eolNext := e } := by
  have ends : (!s.fw.ready || decide (s.tick < (ageOf s k).planAt)) = false := by
    rw [ageOf, decide_eq_false due.not_gt, ready]
    rfl
  have outcome : exec (.guardbandReplan k) s =
      if forecastOf (fuseGuardMax k) (ageOf (planned k s) k).guard ((ageOf s k).history[89]?) < 180 && (ageOf s k).eolNext ≤ (intervalEnded k s).tick
      then .next (postEndOfLife k true (setAge k (fun b => { b with eolNext := (intervalEnded k s).tick + secT 2592000 }) (intervalEnded k s)))
      else .next (intervalEnded k s) := by
    change execGuardbandReplan k s = _
    rw [execGuardbandReplan, if_neg (Bool.eq_false_iff.1 ends)]
    rfl
  rw [outcome]
  split
  · refine ⟨_, (intervalEnded k s).tick + secT 2592000, rfl, (pwr_of_core (core_postEndOfLife _ _ _)).trans rfl, ?_⟩
    rw [age_of_core (core_postEndOfLife _ _ _), intervalEnded, setAge_setAge]
    exact ageOf_setAge_same _ _ _
  · exact ⟨_, (ageOf (planned k s) k).eolNext, rfl, rfl, ageOf_setAge_same _ _ _⟩

theorem exec_guardbandReplan_idle {s : State} {k : Fin 24} (idle : s.fw.ready = false ∨ s.tick < (s.age.get k).planAt) :
    exec (.guardbandReplan k) s = .next s := by
  refine if_pos ?_
  rcases idle with h | h
  · simp [h]
  · simp [ageOf, h]

theorem planned_of_least {k : Nat} {s : State} {m : Int} (least : (ageOf s k).least = some m) : planned k s = replan k m s := by
  rw [planned, least]

theorem planned_of_none {k : Nat} {s : State} (none : (ageOf s k).least = none) : planned k s = s := by rw [planned, none]

/-- A need raises GUARD by its steps, and the set point with it, while no neighbour must follow. -/
theorem planned_needs {k n : Nat} {s : State} {m : Int} (least : (ageOf s k).least = some m) (needs : m < fuseTarget k)
    (raises : raisable s k = true) (steps : n = planSteps k (ageOf s k).guard ((fuseTarget k : Int) - m).toNat) (calm : Calm s k n) :
    (ageOf (planned k s) k).guard = (ageOf s k).guard + 80 * n ∧
      (740 ≤ (regionOf s k).setMv → (regionOf s k).setMv + 5 * n ≤ 860 → (regionOf (planned k s) k).setMv = (regionOf s k).setMv + 5 * n) := by
  obtain ⟨u, same, raised⟩ := replan_needs s needs
  have region (j : Nat) : regionOf u j = regionOf s j := regionOf_congr (pwr_of_core same) j
  have age : ageOf u k = ageOf s k := by rw [ageOf, age_of_core same, ageOf]
  have raises' : raisable u k = true := by rw [raisable, pwr_of_core same]; exact raises
  have calm' : Calm u k n := fun b hb => by rw [region, region]; exact calm b hb
  rw [planned_of_least least, raised, if_pos raises, ← steps, raiseSteps_calm n calm' (by simp)]
  refine ⟨by rw [iterate_stepUp_guard, age], fun lo hi => ?_⟩
  rw [iterate_stepUp_setMv n raises' (by rw [region]; exact lo) (by rw [region]; exact hi), region]

/-- Where the supply cannot be raised, GUARD and the power registers stay. -/
theorem planned_unraisable {k : Nat} {s : State} (fixed : raisable s k = false) :
    (ageOf (planned k s) k).guard = (ageOf s k).guard ∧ (planned k s).pwr = s.pwr := by
  cases least : (ageOf s k).least with
  | none => rw [planned_of_none least]; exact ⟨rfl, rfl⟩
  | some m =>
    rw [planned_of_least least]
    by_cases needs : m < fuseTarget k
    · obtain ⟨u, same, raised⟩ := replan_needs s needs
      rw [raised, if_neg (by simp [fixed])]
      exact ⟨by rw [ageOf, age_of_core same, ageOf], pwr_of_core same⟩
    · rw [replan_level (not_lt.1 needs) (.inr fixed)]
      exact ⟨rfl, rfl⟩

theorem planned_surplus {k : Nat} {s : State} {m : Int} (least : (ageOf s k).least = some m) (enough : (fuseTarget k : Int) + 240 ≤ m)
    (raises : raisable s k = true) :
    (ageOf (planned k s) k).guard = if 80 ≤ (ageOf s k).guard then (ageOf s k).guard - 80 else (ageOf s k).guard := by
  rw [planned_of_least least, replan_surplus enough raises]
  split
  · rw [ageOf_setAge_same, ageOf, writeRail_age, ageOf]
  · rfl

/-- The forecast of R600 from a GUARD of 90 days ago. -/
theorem forecastOf_rising {gmax g o : Nat} (rises : o < g) : forecastOf gmax g (some o) = min 0xFFFF ((gmax - g) * 90 / (g - o)) :=
  if_neg rises.not_ge

theorem forecastOf_level {gmax g : Nat} {old : Option Nat} (level : old = none ∨ ∃ o, old = some o ∧ g ≤ o) :
    forecastOf gmax g old = 0xFFFF := by
  obtain rfl | ⟨o, rfl, le⟩ := level
  · rfl
  · exact if_pos le

/-! ## MARGIN_READ (R601) -/

theorem exec_marginRead_badParam {c : CmdPkt} {s : State} (runs : Runs 0x0905 .A false always c s) (range : 23 < c.p 0 1) :
    exec (.marginRead c) s = refusesWith c s stBadParam :=
  congrArg Host.Outcome.next (runCmd_refuses runs (if_pos (by simpa using range)))

theorem exec_marginRead {c : CmdPkt} {s : State} (runs : Runs 0x0905 .A false always c s) (range : c.p 0 1 ≤ 23) :
    exec (.marginRead c) s = repliesOk c s (taken c s) (fld 15 0 (ofSigned 16 (ageOf s (c.p 0 1)).margin)
      + fld 31 16 (ofSigned 16 ((ageOf s (c.p 0 1)).least.getD (ageOf s (c.p 0 1)).margin)) + fld 47 32 (ageOf s (c.p 0 1)).guard
      + fld 63 48 (fuseGuardMax (c.p 0 1)) + fld 79 64 (ageOf s (c.p 0 1)).forecast + fld 87 86 (ageOf s (c.p 0 1)).kind
      + fld 85 80 (ageOf s (c.p 0 1)).index) :=
  congrArg Host.Outcome.next (runCmd_done runs (if_neg (by simpa using range)) rfl)

theorem ofSigned_lt (w : Nat) (i : Int) : ofSigned w i < 2 ^ w := by
  have := Int.emod_lt_of_pos i (b := (2 ^ w : Nat)) (by positivity)
  have := Int.emod_nonneg i (b := (2 ^ w : Nat)) (by positivity)
  unfold ofSigned
  omega

theorem fuseGuardMax_lt (k : Nat) : fuseGuardMax k < 65536 := by
  unfold fuseGuardMax
  split <;> omega

/-- The fields of R601 do not overlap. -/
theorem marginFields (m l g x f k i : Nat) (r : Nat)
    (sum : r = fld 15 0 m + fld 31 16 l + fld 47 32 g + fld 63 48 x + fld 79 64 f + fld 87 86 k + fld 85 80 i) :
    bits 15 0 r = m % 65536 ∧ bits 31 16 r = l % 65536 ∧ bits 47 32 r = g % 65536 ∧ bits 63 48 r = x % 65536 ∧ bits 79 64 r = f % 65536 ∧
      bits 87 86 r = k % 4 ∧ bits 85 80 r = i % 64 := by
  simp only [fld, Nat.shiftLeft_eq] at sum
  simp only [bits, Nat.shiftRight_eq_div_pow]
  omega

/-- Settles O59: a sample by the least of its margins, the end of an interval by what its re-planning leaves of GUARD and the supply,
MARGIN_READ by its fields. -/
theorem marginsAreSampledAndReplanned : Obligations.MarginsAreSampledAndReplanned := by
  unfold Obligations.MarginsAreSampledAndReplanned
  refine ⟨fun s k rings taps steps idle => exec_crazingSample_idle (idle.imp_right .inr),
    fun s k rings taps steps other => exec_crazingSample_idle (.inr (.inl other)), ?_, fun s k => exec_guardbandReplan_idle, ?_, ?_⟩
  · rintro s k rings taps steps ms ready due counts rfl
    obtain ⟨x, found⟩ := lowestOf_margins counts (regionOf s k).tj
    obtain ⟨mem, least⟩ := lowestOf_least found
    obtain ⟨t, low, sampled, ages, kept, quiet⟩ := exec_crazingSample ready due counts found
    refine ⟨t, { (s.age.get k).sampled s.tick x with lowNext := low }, sampled, by rw [ages, SMap.get_put_same], mem, least, rfl, rfl, rfl, fun j other => ?_, kept, quiet⟩
    rw [ages, SMap.get_put_ne _ _ other.symm]
  · rintro s k a ready rfl due
    obtain ⟨t, e, ends, pwr, age⟩ := exec_guardbandReplan ready due
    have plan := samePlan_planned k s k
    have history := congrArg Age.history plan
    have planAt := congrArg Age.planAt plan
    have margin := congrArg Age.margin plan
    refine ⟨t, (ageOf (planned k s) k).guard, _, ends, by rw [age]; rfl, by rw [age], ?_, by rw [age]; rfl, ?_, ?_, ?_, ?_, ?_, ?_, ?_, ?_, ?_⟩
    · rw [age]
      exact congrArg (fun h => List.take 90 (_ :: h)) history
    · rw [age]
      exact congrArg (· + secT 86400) planAt
    · rw [age]
      exact margin
    · rintro o old rises
      exact (congrArg (forecastOf _ _) old).trans (forecastOf_rising rises)
    · exact forecastOf_level
    · intro none
      rw [pwr, planned_of_none none]
      exact ⟨rfl, rfl⟩
    · intro m least enough level
      rw [pwr, planned_of_least least, replan_level enough (.inl level)]
      exact ⟨rfl, rfl⟩
    · intro m least enough raises
      exact planned_surplus least enough raises
    · intro fixed
      rw [pwr]
      exact planned_unraisable fixed
    · intro m n least needs raises steps calm
      obtain ⟨guard, set⟩ := planned_needs least needs raises steps calm
      exact ⟨guard, fun lo hi => (congrArg Region.setMv (regionOf_congr pwr k)).trans (set lo hi)⟩
  · intro c s runs
    refine ⟨exec_marginRead_badParam runs, ?_⟩
    rintro a range rfl
    obtain ⟨margin, least, guard, most, forecast, kind, index⟩ := marginFields _ _ _ _ _ _ _ _ rfl
    exact ⟨_, exec_marginRead runs range, margin.trans (Nat.mod_eq_of_lt (ofSigned_lt 16 _)), least.trans (Nat.mod_eq_of_lt (ofSigned_lt 16 _)),
      guard, most.trans (Nat.mod_eq_of_lt (fuseGuardMax_lt _)), forecast, kind, index⟩

end Sys2Proof.Machine

/-! SPDM requests of a DOE mailbox (R613, R617, R628 to R631): where attestation is served, each request is its checks in order and then
one reply. -/
namespace Sys2Proof.Machine

theorem secPort_setSecPort_same (h : Nat) (f : SecPort → SecPort) (s : State) : secPort (setSecPort h f s) h = f (secPort s h) :=
  SMap.get_upd_same ..

theorem secPort_setSecPort_ne {h j : Nat} (f : SecPort → SecPort) (s : State) (other : h ≠ j) : secPort (setSecPort h f s) j = secPort s j :=
  SMap.get_upd_ne _ _ other

/-- The measurement blocks that a request of an index is answered with (R628). -/
def measurementBlocks (s : State) (i : Nat) : List Byte :=
  if i == 0 then bytesOf 1 6
  else if i == 0xFF then ([1, 2, 3, 4, 5, 6].map (measurementBytes s)).flatten
  else measurementBytes s i

theorem measurement_valid {i : Nat} (valid : i ≤ 6 ∨ i = 0xFF) : ¬ (decide (i > 6) && i != 0xFF) = true := by
  simp only [Bool.and_eq_true, decide_eq_true_eq, bne_iff_ne]
  omega

section
variable {s : State} {port : Fin 8} (served : spdmServed s port = true)
include served

theorem spdm_serves : ¬ (!spdmServed s port) = true := by simp [served]

theorem exec_getVersion : exec (.getVersion port) s = .next (spdmReply port 0x10 0x04 [0, 2, 0x00, 0x12, 0x00, 0x13]
    (setSecPort port (fun p => { p with spdm := 1, spdmVersion := 0 }) s)) := if_neg (spdm_serves served)

theorem exec_getCapabilities_first (none : (secPort s port).spdm = 0) (m : Nat) :
    exec (.getCapabilities port m) s = .next (spdmError port 0x10 0x04 s) :=
  (if_neg (spdm_serves served)).trans (if_pos (by simpa using none))

theorem exec_getCapabilities_version (begun : (secPort s port).spdm ≠ 0) {m : Nat} (other : m ≠ 2 ∧ m ≠ 3) :
    exec (.getCapabilities port m) s = .next (spdmError port 0x10 0x41 s) :=
  (if_neg (spdm_serves served)).trans ((if_neg (by simpa using begun)).trans (if_pos (by simpa using other)))

theorem exec_getCapabilities (begun : (secPort s port).spdm ≠ 0) {m : Nat} (version : m = 2 ∨ m = 3) :
    exec (.getCapabilities port m) s = .next (spdmReply port (0x10 + m) 0x61 ([0, 16, 0, 0] ++ bytesOf 4 0x36)
      (setSecPort port (fun p => { p with spdm := 2, spdmVersion := 0x10 + m }) s)) := by
  refine (if_neg (spdm_serves served)).trans ((if_neg (by simpa using begun)).trans (if_neg ?_))
  obtain rfl | rfl := version <;> decide

theorem exec_negotiateAlgorithms_early (early : (secPort s port).spdm < 2) (a b : Bool) :
    exec (.negotiateAlgorithms port a b) s = .next (spdmError port 0x10 0x04 s) :=
  (if_neg (spdm_serves served)).trans (if_pos early)

theorem exec_negotiateAlgorithms_unsupported (turn : 2 ≤ (secPort s port).spdm) {a b : Bool} (other : a = false ∨ b = false) :
    exec (.negotiateAlgorithms port a b) s = .next (spdmError port (secPort s port).spdmVersion 0x07 s) :=
  (if_neg (spdm_serves served)).trans ((if_neg turn.not_gt).trans (if_pos (by simpa using other)))

theorem exec_negotiateAlgorithms (turn : 2 ≤ (secPort s port).spdm) : exec (.negotiateAlgorithms port true true) s =
    .next (spdmReply port (secPort s port).spdmVersion 0x63 (bytesOf 4 8) (setSecPort port (fun p => { p with spdm := 3 }) s)) :=
  (if_neg (spdm_serves served)).trans (if_neg turn.not_gt)

/-! Before negotiation is complete. -/

section
variable (early : (secPort s port).spdm < 3)
include early

theorem exec_getDigests_early : exec (.getDigests port) s = .next (spdmError port 0x10 0x04 s) :=
  (if_neg (spdm_serves served)).trans (if_pos early)

theorem exec_getCertificate_early (slot off n : Nat) : exec (.getCertificate port slot off n) s = .next (spdmError port 0x10 0x04 s) :=
  (if_neg (spdm_serves served)).trans (if_pos early)

theorem exec_challenge_early (slot : Nat) (n : List Byte) : exec (.challenge port slot n) s = .next (spdmError port 0x10 0x04 s) :=
  (if_neg (spdm_serves served)).trans (if_pos early)

theorem exec_getMeasurements_early (i : Nat) (sg : Bool) (n : List Byte) :
    exec (.getMeasurements port i sg n) s = .next (spdmError port 0x10 0x04 s) :=
  (if_neg (spdm_serves served)).trans (if_pos early)

end

/-! After it. -/

section
variable (late : 3 ≤ (secPort s port).spdm)
include late

theorem exec_getDigests : exec (.getDigests port) s =
    .next (spdmReply port (secPort s port).spdmVersion 0x01 (bytesOf 32 (sha3 Config.certChain).toNat) s) :=
  (if_neg (spdm_serves served)).trans (if_neg late.not_gt)

theorem exec_getCertificate_invalid {slot off : Nat} (invalid : slot ≠ 0 ∨ Config.certChain.length < off) (n : Nat) :
    exec (.getCertificate port slot off n) s = .next (spdmError port (secPort s port).spdmVersion 0x01 s) :=
  (if_neg (spdm_serves served)).trans ((if_neg late.not_gt).trans (if_pos (by simpa using invalid)))

theorem exec_getCertificate {off : Nat} (within : off ≤ Config.certChain.length) (n : Nat) : exec (.getCertificate port 0 off n) s =
    .next (spdmReply port (secPort s port).spdmVersion 0x02 (bytesOf 2 ((Config.certChain.drop off).take n).length
      ++ bytesOf 2 (Config.certChain.length - off - ((Config.certChain.drop off).take n).length) ++ (Config.certChain.drop off).take n) s) :=
  (if_neg (spdm_serves served)).trans ((if_neg late.not_gt).trans (if_neg (by simpa using within)))

theorem exec_challenge_invalid {slot : Nat} (invalid : slot ≠ 0) (n : List Byte) :
    exec (.challenge port slot n) s = .next (spdmError port (secPort s port).spdmVersion 0x01 s) :=
  (if_neg (spdm_serves served)).trans ((if_neg late.not_gt).trans (if_pos (by simpa using invalid)))

theorem exec_challenge (n : List Byte) : exec (.challenge port 0 n) s = .next (spdmReply port (secPort s port).spdmVersion 0x03
    (spdmSigned (bytesOf 32 (sha3 Config.certChain).toNat ++ n ++ drawnBytes 32 s) (useDraw s)) (useDraw (useDraw s))) :=
  (if_neg (spdm_serves served)).trans (if_neg late.not_gt)

theorem exec_getMeasurements_invalid {i : Nat} (invalid : 6 < i ∧ i ≠ 0xFF) (sg : Bool) (n : List Byte) :
    exec (.getMeasurements port i sg n) s = .next (spdmError port (secPort s port).spdmVersion 0x01 s) :=
  (if_neg (spdm_serves served)).trans ((if_neg late.not_gt).trans (if_pos (by simpa using invalid)))

variable {i : Nat} (valid : i ≤ 6 ∨ i = 0xFF)
include valid

theorem exec_getMeasurements_plain (n : List Byte) : exec (.getMeasurements port i false n) s =
    .next (spdmReply port (secPort s port).spdmVersion 0x60 (measurementBlocks s i ++ n) s) :=
  (if_neg (spdm_serves served)).trans ((if_neg late.not_gt).trans (if_neg (measurement_valid valid)))

theorem exec_getMeasurements_signed (n : List Byte) : exec (.getMeasurements port i true n) s =
    .next (spdmReply port (secPort s port).spdmVersion 0x60
      (spdmSigned (measurementBlocks s i ++ n ++ drawnBytes 32 s) (useDraw s)) (useDraw (useDraw s))) :=
  (if_neg (spdm_serves served)).trans ((if_neg late.not_gt).trans (if_neg (measurement_valid valid)))

end
end

theorem measurementBlocks_one {i : Nat} (lo : 1 ≤ i) (hi : i ≤ 6) (s : State) : measurementBlocks s i = measurementBytes s i := by
  unfold measurementBlocks
  rw [if_neg (by simp; omega), if_neg (by simp; omega)]

theorem measurementBlocks_all (s : State) : measurementBlocks s 0xFF = measurementBytes s 1 ++ measurementBytes s 2 ++
    measurementBytes s 3 ++ measurementBytes s 4 ++ measurementBytes s 5 ++ measurementBytes s 6 := by
  simp [measurementBlocks]

/-- Settles O50: each request by the check that turns it away, or by its reply. -/
theorem attestationFollowsItsOrder : Obligations.AttestationFollowsItsOrder := by
  unfold Obligations.AttestationFollowsItsOrder
  refine ⟨fun s port off => ?_, fun s port served => ⟨?_, ?_, ?_, ?_, ?_, fun turn => ⟨?_, ?_⟩, fun early => ?_, fun late => ?_⟩⟩
  · have idle : (!spdmServed s port) = true := by simp [off]
    exact ⟨if_pos idle, fun _ => if_pos idle, fun _ _ => if_pos idle, if_pos idle, fun _ _ _ => if_pos idle, fun _ _ => if_pos idle,
      fun _ _ _ => if_pos idle⟩
  · refine ⟨_, exec_getVersion served, ?_, rfl, rfl, fun h other => secPort_setSecPort_ne _ _ other.symm⟩
    exact congrArg SecPort.spdm (secPort_setSecPort_same ..)
  · exact fun none m => ⟨_, exec_getCapabilities_first served none m, rfl⟩
  · exact fun begun m two three => exec_getCapabilities_version served begun ⟨two, three⟩
  · refine fun begun m version => ⟨_, _, exec_getCapabilities served begun version, ?_, ?_, rfl, rfl, rfl⟩
    · exact congrArg SecPort.spdm (secPort_setSecPort_same ..)
    · exact congrArg SecPort.spdmVersion (secPort_setSecPort_same ..)
  · exact fun early a b => ⟨_, exec_negotiateAlgorithms_early served early a b, rfl⟩
  · refine ⟨_, _, exec_negotiateAlgorithms served turn, ?_, rfl, rfl, rfl⟩
    exact congrArg SecPort.spdm (secPort_setSecPort_same ..)
  · exact fun a b other => ⟨_, exec_negotiateAlgorithms_unsupported served turn other, rfl⟩
  · exact ⟨⟨_, exec_getDigests_early served early, rfl⟩, fun a b c => ⟨_, exec_getCertificate_early served early a b c, rfl⟩,
      fun a n => ⟨_, exec_challenge_early served early a n, rfl⟩, fun a b n => ⟨_, exec_getMeasurements_early served early a b n, rfl⟩⟩
  · refine ⟨⟨_, exec_getDigests served late, rfl⟩, fun slot off n invalid => ⟨_, exec_getCertificate_invalid served late invalid n, rfl⟩,
      fun off n within => ⟨_, exec_getCertificate served late within n, rfl, ?_⟩,
      fun n => ⟨_, _, exec_challenge served late n, rfl, rfl, ⟨_, rfl, ?_⟩, rfl⟩,
      fun slot n invalid => ⟨_, exec_challenge_invalid served late invalid n, rfl⟩,
      fun i sg n large other => ⟨_, exec_getMeasurements_invalid served late ⟨large, other⟩ sg n, rfl⟩,
      fun i n lo hi => ⟨_, exec_getMeasurements_plain served late (.inl hi) n, ?_⟩,
      fun n => ⟨_, exec_getMeasurements_plain served late (.inl (Nat.zero_le 6)) n, ?_⟩,
      fun n => ⟨_, exec_getMeasurements_plain served late (.inr rfl) n, ?_⟩,
      fun i n valid => ⟨_, _, exec_getMeasurements_signed served late valid n, rfl, rfl, fun lo hi => ⟨_, rfl, ?_⟩, rfl⟩⟩
    · rw [← List.append_assoc]
      exact List.drop_left' rfl
    · rfl
    · rw [measurementBlocks_one lo hi]
      rfl
    · rfl
    · rw [measurementBlocks_all]
      rfl
    · rw [measurementBlocks_one lo hi]
      rfl

end Sys2Proof.Machine

/-! Completion entries (R453, R473). The clause of O44 that the cells held by an issued entry are freed fails in a state that lists their
packet twice; it is proved here of packets in rising order, as `SMap.put` keeps them. -/
namespace Sys2Proof.Machine

theorem evalOf_pkts (x : Pkt) (s : State) : (evalOf x s).pkts = s.pkts := by
  obtain ⟨_, _, e⟩ := evalOf_eq x s
  rw [e]

theorem freeHeld_pkts {e : CplEntry} {p : Nat} (held : e.held = some p) (s : State) : (freeHeld e s).pkts = s.pkts.del p := by
  rw [freeHeld, held]
  exact evalOf_pkts ..

theorem writeEntry_pkts {e : CplEntry} {p : Nat} (held : e.held = some p) (fn slot : Nat) (s : State) :
    (writeEntry fn slot e s).pkts = s.pkts.del p := by
  unfold writeEntry
  dsimp only
  cases e.rx <;> cases e.lane <;> simp [freeHeld_pkts held, freeStampEntry]

section
variable {s : State} {fn slot p : Nat} {e : CplEntry} {rest : List CplEntry}
  (oldest : ((fnOf s fn).slots.get slot).waiting = e :: rest) (enabled : ((fnOf s fn).slots.get slot).cqEn = true)
  (room : cqRoom ((fnOf s fn).slots.get slot) = true) (master : (fnOf s fn).bme = true) (held : e.held = some p)
include oldest enabled room master held

/-- The entry issued strikes the packet whose cells it held. -/
theorem completionEntryIssue_strikes : ∃ t, exec (.completionEntryIssue fn slot) s = .next t ∧ t.pkts = s.pkts.del p := by
  have issues : (!((fnOf s fn).slots.get slot).cqEn || !cqRoom ((fnOf s fn).slots.get slot) || !(fnOf s fn).bme) = false := by
    simp [enabled, room, master]
  change ∃ t, execCompletionEntryIssue fn slot s = _ ∧ _
  simp only [execCompletionEntryIssue, oldest, issues, Bool.false_eq_true, if_false]
  split
  · exact ⟨_, rfl, by simp [writeEntry_pkts held]⟩
  · exact ⟨_, rfl, by simp [writeEntry_pkts held]⟩

/-- Where no packet is listed twice, the cells are freed. -/
theorem completionEntryIssue_of_rising (rising : s.pkts.Rising) :
    ∃ t, exec (.completionEntryIssue fn slot) s = .next t ∧ t.pkts.has p = false := by
  obtain ⟨t, issued, struck⟩ := completionEntryIssue_strikes oldest enabled room master held
  exact ⟨t, issued, by rw [struck, rising.has_del_same]⟩

end

/-- An entry that holds the cells of packet 1 waits in slot 0 of function 0, and packet 1 is listed twice. -/
def heldPacketListedTwice : State := { State.reset with
  pkts := [(1, {}), (1, {})], fns := [(0, { bme := true, slots := [(0, { cqEn := true, waiting := [{ held := some 1 }] })] })] }

/-- Refutes O44: it speaks of every value of State, also of one that lists a packet twice. The entry that is issued strikes the first of
the two, and packet 1 keeps its cells still. -/
theorem not_descriptorsBuffersAndEntriesMove : ¬ Obligations.DescriptorsBuffersAndEntriesMove := by
  unfold Obligations.DescriptorsBuffersAndEntriesMove
  rintro ⟨-, -, -, issue, -⟩
  obtain ⟨t, -, -, issued, -, -, freed, -⟩ := issue heldPacketListedTwice 0 0 _ _ _ rfl rfl rfl (by decide +kernel) rfl
  obtain ⟨u, issued', struck⟩ := completionEntryIssue_strikes (s := heldPacketListedTwice) (fn := 0) (slot := 0) (p := 1) rfl rfl
    (by decide +kernel) rfl rfl
  cases issued.symm.trans issued'
  have gone := freed 1 rfl
  rw [struck] at gone
  exact absurd gone (by decide +kernel)

end Sys2Proof.Machine

/-! The end of a quiesce (R524). A clause of O47 fails in a state where a ring executes the packet of another ring: the reply, and the end
of the execution, are those of the packet's own ring. -/
namespace Sys2Proof.Machine

/-- A quiesce that is drained with the firmware running is entered. -/
theorem exec_quiesceDrained {s : State} {iid : Nat} (quiescing : (fnOf s iid).inst.state = 2) (ready : s.fw.ready = true)
    (empty : drained s iid = true) : exec (.quiesceDrained iid) s = .next (enterQuiesced iid false 0 s) :=
  if_pos (by simp [quiescing, ready, empty])

/-- Function 0 is QUIESCING for an INST_QUIESCE of its own ring, and that ring executes a packet of function 1's ring. -/
def foreignPacketExecutes : State := { State.reset with
  fw := { ready := true }
  fns := [(0, { inst := { state := 2, quiesceRings := [(0, false)] }, cmd := { exec := some { pkt := { (default : CmdPkt) with fn := 1 } } } })] }

/-- Refutes O47: it speaks of every value of State, also of one where ring 0 executes a packet of ring 1. The drain ends the execution of
ring 1, and ring 0 executes still. -/
theorem not_completionsTagsAndQuiescing : ¬ Obligations.CompletionsTagsAndQuiescing := by
  unfold Obligations.CompletionsTagsAndQuiescing
  rintro ⟨-, -, -, -, -, -, quiesce⟩
  have empty : drained foreignPacketExecutes 0 = true := by decide +kernel
  obtain ⟨t, ended, -, -, -, idle, -⟩ := (quiesce foreignPacketExecutes 0 0 false rfl rfl (List.mem_singleton_self _)).1 empty
  cases ended.symm.trans (exec_quiesceDrained rfl rfl empty)
  have busy : (ringOf (enterQuiesced 0 false 0 foreignPacketExecutes) 0 false).exec.isSome = true := by decide +kernel
  rw [idle] at busy
  cases busy

end Sys2Proof.Machine

/-! The queue, mailbox, window and interrupt commands (R475, R476, R488, R493, R494, R522): each by what its checks pass and the equation
of its effect. -/
namespace Sys2Proof.Machine

/-! ## QUEUE_RESTART (R475) -/

/-- The STOPPED mark of a queue slot, and the ARM it kept, are cleared. -/
def queueUnstopped (c : CmdPkt) (s : State) : State :=
  setSlot c.iid (c.p 0 2) (fun q => { q with stopped := false, armHeld := false }) s

/-- Where doorbells act, the counts of a restarted queue are acted on, and then the ARM it kept. -/
def queueRestarted (c : CmdPkt) (s : State) : State :=
  if doorbellActs (queueUnstopped c s) c.iid (c.p 0 2) = false then queueUnstopped c s
  else if ((fnOf s c.iid).slots.get (c.p 0 2)).armHeld = true ∧
      doorbellActs (actQueue c.iid (c.p 0 2) (queueUnstopped c s)) c.iid (c.p 0 2) = true then
    armQueue c.iid (c.p 0 2) (actQueue c.iid (c.p 0 2) (queueUnstopped c s))
  else actQueue c.iid (c.p 0 2) (queueUnstopped c s)

/-- What becomes of a slot `u` that a restart has just cleared, as the command's branches say it. -/
theorem restarted_eq (i k : Nat) (held : Bool) (u : State) :
    (if doorbellActs u i k then
      done (if held && doorbellActs (actQueue i k u) i k then armQueue i k (actQueue i k u) else actQueue i k u) 0
    else done u 0) =
    done (if doorbellActs u i k = false then u
      else if held = true ∧ doorbellActs (actQueue i k u) i k = true then armQueue i k (actQueue i k u) else actQueue i k u) 0 := by
  cases doorbellActs u i k <;> simp

theorem exec_queueRestart {c : CmdPkt} {s : State} (runs : Runs 0x0205 .V false always c s)
    (slot : slotExists (taken c s) c.iid (c.p 0 2) = true)
    (stopped : ((fnOf (taken c s) c.iid).slots.get (c.p 0 2)).stopped = true) :
    exec (.queueRestart c) s = repliesOk c s (queueRestarted c (taken c s)) 0 :=
  congrArg Host.Outcome.next (runCmd_done runs (by simp [firstOf, slot, stopped])
    (restarted_eq c.iid (c.p 0 2) _ (queueUnstopped c (taken c s))))

/-! ## MBOX_STATUS (R522) -/

section
variable {c : CmdPkt} {s : State} (runs : Runs 0x0209 .V false always c s)
include runs

theorem exec_mboxStatus_chan (lo : c.p 0 2 ≤ 512) (chan : chanExists c.iid (c.p 0 2) = true) :
    exec (.mboxStatus c) s = repliesOk c s (taken c s) (fld 63 32 ((fnOf (taken c s) c.iid).chans.get (c.p 0 2)).info) :=
  congrArg Host.Outcome.next (runCmd_done runs (by simp [firstOf, lo, chan])
    (by simp [show c.p 0 2 ≠ 0x8000 by omega, show c.p 0 2 ≠ 0x8001 by omega, show c.p 0 2 ≠ 0x4000 by omega]))

theorem exec_mboxStatus_tx (sel : c.p 0 2 = 0x8000) : exec (.mboxStatus c) s = repliesOk c s (taken c s)
    (fld 63 32 (fnOf (taken c s) c.iid).tx.sts + fld 64 64 (bit (fnOf (taken c s) c.iid).tx.go)) :=
  congrArg Host.Outcome.next (runCmd_done runs (by simp [firstOf, sel]) (by simp [sel]))

theorem exec_mboxStatus_secTx (sel : c.p 0 2 = 0x8001) (pf : isPf c.iid = true) : exec (.mboxStatus c) s = repliesOk c s (taken c s)
    (fld 63 32 (fnOf (taken c s) c.iid).secTx.sts + fld 64 64 (bit (fnOf (taken c s) c.iid).secTx.go)) :=
  congrArg Host.Outcome.next (runCmd_done runs (by simp [firstOf, sel, pf]) (by simp [sel]))

theorem exec_mboxStatus_secChan (sel : c.p 0 2 = 0x4000) (pf : isPf c.iid = true) :
    exec (.mboxStatus c) s = repliesOk c s (taken c s) (fld 63 32 (fnOf (taken c s) c.iid).secChan.info) :=
  congrArg Host.Outcome.next (runCmd_done runs (by simp [firstOf, sel, pf]) (by simp [sel]))

end

/-! ## Windows (R493, R494) -/

/-- A window is closed, or of 2^12 to 2^28 bytes, aligned, in HBM and clear of the reservations (R493). -/
def windowRange (c : CmdPkt) : Prop :=
  c.p 8 1 = 0 ∨ (12 ≤ c.p 8 1 ∧ c.p 8 1 ≤ 28 ∧ c.p 2 6 % 2 ^ c.p 8 1 = 0 ∧ c.p 2 6 + 2 ^ c.p 8 1 ≤ 0x003000000000 ∧
    (0x000C00000000 ≤ c.p 2 6 ∨ c.p 2 6 + 2 ^ c.p 8 1 ≤ 0x000BF0000000))

theorem exec_windowWrite {c : CmdPkt} {s : State} (runs : Runs 0x0D01 .P false always c s) (pf : isPf c.iid = true)
    (index : c.p 1 1 = 0) (rights : c.p 9 1 ≤ 3) (reserved : c.p 10 38 = 0) (range : windowRange c) :
    exec (.windowWrite c) s = repliesOk c s (setFn (pfOf c.iid) (fun f => { f with
        winPending := f.winPending.put (c.p 0 1)
          { base := BitVec.ofNat 48 (c.p 2 6), log2 := c.p 8 1, rd := c.p 9 1 % 2 == 1, wr := c.p 9 1 / 2 % 2 == 1 } }) (taken c s)) 0 := by
  refine congrArg Host.Outcome.next (runCmd_done runs ?_ rfl)
  have fields : (!isPf c.iid || c.p 1 1 != 0 || decide (c.p 9 1 > 3) || c.p 10 38 != 0) = false := by
    simp [pf, index, reserved, Nat.not_lt.2 rights]
  dsimp only [firstOf]
  rw [fields]
  rcases range with closed | ⟨lo, hi, aligned, inside, clear⟩
  · simp [closed]
  · have overlap : (decide (c.p 2 6 < 0x000C00000000) && decide (0x000BF0000000 < c.p 2 6 + 2 ^ c.p 8 1)) = false := by
      simp only [Bool.and_eq_false_iff, decide_eq_false_iff_not, Nat.not_lt]
      exact clear
    rw [Bool.and_assoc (c.p 8 1 != 0) (decide (c.p 2 6 < _)), overlap]
    simp [Nat.not_lt.2 lo, Nat.not_lt.2 hi, aligned, Nat.not_lt.2 inside]

theorem exec_windowCommit {c : CmdPkt} {s : State} (runs : Runs 0x0D02 .P false always c s) (pf : isPf c.iid = true) :
    exec (.windowCommit c) s = repliesOk c s (setFn (pfOf c.iid) (fun f => { f with winActive := f.winPending }) (taken c s)) 0 :=
  congrArg Host.Outcome.next (runCmd_done runs (by simp [firstOf, pf]) rfl)

/-! ## MSIX_MAP and QUEUE_RO_CFG (R476, R488) -/

theorem exec_msixMap {c : CmdPkt} {s : State} (runs : Runs 0x0D03 .V false always c s) :
    if slotExists (taken c s) c.iid (c.p 0 2) = true ∧ c.p 2 2 < vectorCount c.iid then
      exec (.msixMap c) s = repliesOk c s
        (setSlot c.iid (c.p 0 2) (fun q => { q with vector := BitVec.ofNat 10 (c.p 2 2) }) (taken c s)) 0
    else exec (.msixMap c) s = refusesWith c s stBadParam := by
  split
  · next fits => exact congrArg Host.Outcome.next (runCmd_done runs (by simp [firstOf, fits.1, fits.2]) rfl)
  · next bad =>
    refine congrArg Host.Outcome.next (runCmd_refuses runs (if_pos ?_))
    rw [Bool.or_eq_true, Bool.not_eq_true', decide_eq_true_eq, ge_iff_le, ← Nat.not_lt, ← Bool.not_eq_true]
    exact not_and_or.1 bad

theorem exec_queueRoCfg {c : CmdPkt} {s : State} (runs : Runs 0x0D04 .V false always c s) :
    if slotExists (taken c s) c.iid (c.p 0 2) = true then
      exec (.queueRoCfg c) s = repliesOk c s
        (setSlot c.iid (c.p 0 2) (fun q => { q with roData := c.p 2 1 % 2 == 1 }) (taken c s)) 0
    else exec (.queueRoCfg c) s = refusesWith c s stBadParam := by
  split
  · next fits => exact congrArg Host.Outcome.next (runCmd_done runs (by simp [firstOf, fits]) rfl)
  · next bad => exact congrArg Host.Outcome.next (runCmd_refuses runs (if_pos (by simp [bad])))

/-- Settles O17: each command by the equation of its effect. -/
theorem queueAndWindowCommandsWriteTheirRegisters : Obligations.QueueAndWindowCommandsWriteTheirRegisters := by
  unfold Obligations.QueueAndWindowCommandsWriteTheirRegisters
  refine ⟨?restart, fun c s runs => ⟨exec_mboxStatus_chan runs, exec_mboxStatus_tx runs, exec_mboxStatus_secTx runs,
    exec_mboxStatus_secChan runs⟩, fun _ _ => exec_windowWrite, fun _ _ => exec_windowCommit, fun _ _ => exec_msixMap,
    fun _ _ => exec_queueRoCfg⟩
  rintro c s runs slot stopped u v rfl rfl
  exact exec_queueRestart runs slot stopped

end Sys2Proof.Machine

/-! What events, interrupts, host writes and leaving packets leave of a function: said once for every view of a function that does not
look at what they change. -/
namespace Sys2Proof.Machine

/-! ## Host writes, interrupts and event records (R68, R122, R486, R489) -/

/-- A view of a function that does not look at its interrupts. -/
def VectorBlind {α : Type} (g : Fn → α) : Prop := ∀ (f : Fn) b x v, g { f with badVector := b, intx := x, msixPending := v } = g f

/-- A view of a function that looks neither at what its log holds, its interrupts, nor at what an event record moves in its event
ring. -/
def PostBlind {α : Type} (g : Fn → α) : Prop := ∀ (f : Fn) l b x v p h e d, l.isSome = f.inst.log.isSome →
  g { f with inst := { f.inst with log := l }, badVector := b, intx := x, msixPending := v,
             evt := { f.evt with pi := p, held := h, early := e, dropped := d } } = g f

theorem PostBlind.vector {α : Type} {g : Fn → α} (blind : PostBlind g) : VectorBlind g :=
  fun f b x v => blind f f.inst.log b x v f.evt.pi f.evt.held f.evt.early f.evt.dropped rfl

theorem fnOf_setFnIntx {α : Type} {g : Fn → α} {f : Fn → Fn} (h : ∀ x, g (f x) = g x) (j i : Nat) (s : State) : g (fnOf (setFnIntx i f s) j) = g (fnOf s j) := by
  unfold setFnIntx
  dsimp only
  split <;> exact fnOf_setFn_keeps h ..

theorem fnOf_raiseVector {α : Type} {g : Fn → α} (blind : VectorBlind g) (j i v : Nat) (s : State) : g (fnOf (raiseVector i v s) j) = g (fnOf s j) := by
  unfold raiseVector
  dsimp only
  split
  · exact fnOf_setFn_keeps (fun f => blind f _ f.intx f.msixPending) ..
  split
  · split
    · exact fnOf_setFnIntx (fun f => blind f f.badVector _ f.msixPending) ..
    · rfl
  split
  · rfl
  split
  · rfl
  · exact fnOf_setFn_keeps (fun f => blind f f.badVector f.intx _) ..

section
variable {α : Type} {g : Fn → α} (blind : PostBlind g) (j : Nat)
include blind

theorem fnOf_markDirty (i addr len : Nat) (s : State) : g (fnOf (markDirty i addr len s) j) = g (fnOf s j) := by
  unfold markDirty
  split
  · rfl
  · next d logs =>
    dsimp only
    by_cases e : i = j
    · rw [← e, fnOf_setFn_same]
      exact blind (fnOf s i) _ (fnOf s i).badVector (fnOf s i).intx (fnOf s i).msixPending (fnOf s i).evt.pi (fnOf s i).evt.held
        (fnOf s i).evt.early (fnOf s i).evt.dropped (by rw [logs]; rfl)
    · rw [fnOf_setFn_ne _ s e]

theorem fnOf_hostWrite (i addr len data : Nat) (ro : Bool) (s : State) : g (fnOf (hostWrite i addr len data ro s) j) = g (fnOf s j) := by
  unfold hostWrite
  split
  · exact fnOf_markDirty blind j ..
  · rfl

/-- An event ring is changed in what its records move. -/
theorem fnOf_setEvt {r : RecRing → RecRing} (moves : ∀ q, ∃ p h e d, r q = { q with pi := p, held := h, early := e, dropped := d })
    (i : Nat) (s : State) : g (fnOf (setFn i (fun f => { f with evt := r f.evt }) s) j) = g (fnOf s j) := by
  refine fnOf_setFn_keeps (fun f => ?_) ..
  obtain ⟨p, h, e, d, eq⟩ := moves f.evt
  rw [eq]
  exact blind f f.inst.log f.badVector f.intx f.msixPending p h e d rfl

theorem fnOf_writeEvent (pf rec : Nat) (s : State) : g (fnOf (writeEvent pf rec s) j) = g (fnOf s j) :=
  (fnOf_raiseVector blind.vector j ..).trans ((fnOf_setEvt blind j (fun q => ⟨_, q.held, q.early, q.dropped, rfl⟩) ..).trans
    ((fnOf_hostWrite blind j ..).trans (fnOf_hostWrite blind j ..)))

theorem fnOf_deliverEvent (pf rec : Nat) (s : State) : g (fnOf (deliverEvent pf rec s) j) = g (fnOf s j) := by
  unfold deliverEvent
  dsimp only
  split
  · exact fnOf_writeEvent blind j ..
  split
  · exact fnOf_setEvt blind j (fun q => ⟨q.pi, q.held, q.early, _, rfl⟩) ..
  split
  · exact fnOf_setEvt blind j (fun q => ⟨q.pi, _, q.early, q.dropped, rfl⟩) ..
  · exact fnOf_setEvt blind j (fun q => ⟨q.pi, q.held, _, q.dropped, rfl⟩) ..

theorem fnOf_postInst (code i region data : Nat) (s : State) : g (fnOf (postInst code i region data s) j) = g (fnOf s j) :=
  fnOf_deliverEvent blind j ..

theorem fnOf_deliverTo (rec : Nat) (l : List Nat) (s : State) : g (fnOf (deliverTo rec l s) j) = g (fnOf s j) := by
  induction l generalizing s with
  | nil => rfl
  | cons pf l ih => exact (ih _).trans (fnOf_deliverEvent blind j ..)

theorem fnOf_postAll (code region data : Nat) (s : State) : g (fnOf (postAll code region data s) j) = g (fnOf s j) :=
  fnOf_deliverTo blind j ..

theorem fnOf_flushHeld (pf n : Nat) (s : State) : g (fnOf (flushHeld pf n s) j) = g (fnOf s j) := by
  induction n generalizing s with
  | zero => rfl
  | succ n ih =>
    unfold flushHeld
    split
    · rfl
    split
    · exact (ih _).trans ((fnOf_writeEvent blind j ..).trans (fnOf_setEvt blind j (fun q => ⟨q.pi, _, q.early, q.dropped, rfl⟩) ..))
    · rfl

theorem fnOf_flushEvents (pf : Nat) (s : State) : g (fnOf (flushEvents pf s) j) = g (fnOf s j) := by
  unfold flushEvents
  dsimp only
  split
  · exact (fnOf_writeEvent blind j ..).trans ((fnOf_setEvt blind j (fun q => ⟨q.pi, q.held, q.early, _, rfl⟩) ..).trans
      (fnOf_flushHeld blind j ..))
  · exact fnOf_flushHeld blind j ..

/-- A reply, for a view that does not look at the rings either. -/
theorem fnOf_writeReply (rings : ∀ (f : Fn) (r : Ring), g { f with cmd := r } = g f ∧ g { f with sec := r } = g f)
    (e : Exec) (st r : Nat) (s : State) : g (fnOf (writeReply e st r s) j) = g (fnOf s j) := by
  unfold writeReply
  dsimp only
  have written : ∀ a n v a' n' v' f, g (fnOf (setRing e.pkt.fn e.pkt.sec f (hostWrite e.pkt.fn a n v false
      (hostWrite e.pkt.fn a' n' v' false (setRing e.pkt.fn e.pkt.sec (fun r => { r with exec := none }) s)))) j) = g (fnOf s j) :=
    fun _ _ _ _ _ _ _ => (fnOf_setRing_keeps rings ..).trans ((fnOf_hostWrite blind j ..).trans ((fnOf_hostWrite blind j ..).trans
      (fnOf_setRing_keeps rings ..)))
  split
  · exact fnOf_setRing_keeps rings ..
  split
  · split
    · exact (fnOf_raiseVector blind.vector j ..).trans (written ..)
    · exact written ..
  · exact (fnOf_setRing_keeps rings ..).trans (fnOf_setRing_keeps rings ..)

end

/-! ## Packets that leave (R169, R472, R475) -/

/-- A queue slot without its entries that wait. -/
def QSlot.bare (q : QSlot) : QSlot := { q with waiting := [], txOrder := [] }

/-- A function without the entries that wait in its queues. -/
def Fn.bare (f : Fn) : Fn × (Nat → QSlot) := ({ f with slots := [] }, fun k => (f.slots.get k).bare)

/-- The functions without the entries that wait in their queues. -/
def bareFns (s : State) : Nat → Fn × (Nat → QSlot) := fun i => (fnOf s i).bare

theorem bareFns_setSlot {h : QSlot → QSlot} (bare : ∀ q, (h q).bare = q.bare) (i k : Nat) (s : State) :
    bareFns (setSlot i k h s) = bareFns s := by
  refine funext fun j => fnOf_setFn_keeps (g := Fn.bare) (f := fun f => { f with slots := f.slots.upd k h })
    (fun f => Prod.ext rfl (funext fun n => ?_)) i j s
  by_cases e : k = n
  · rw [← e]
    exact (congrArg QSlot.bare (SMap.get_upd_same ..)).trans (bare _)
  · exact congrArg QSlot.bare (SMap.get_upd_ne _ _ e)

@[simp] theorem bareFns_endTx (i k : Nat) (idx : BitVec 16) (e : CplEntry) (s : State) : bareFns (endTx i k idx e s) = bareFns s :=
  bareFns_setSlot (h := fun q => { q with
    txOrder := (orderTx (q.txOrder.map fun d => if d.1 == idx then (d.1, some e) else d)).2
    waiting := q.waiting ++ (orderTx (q.txOrder.map fun d => if d.1 == idx then (d.1, some e) else d)).1 }) (fun _ => rfl) i k s

@[simp] theorem bareFns_txDone (x : Pkt) (s : State) : bareFns (txDone x s) = bareFns s := by
  unfold txDone
  dsimp only
  split
  · rfl
  split
  · exact bareFns_endTx ..
  · repeat' split
    all_goals rfl

@[simp] theorem bareFns_removePkt (p : Nat) (s : State) : bareFns (removePkt p s) = bareFns s := by
  obtain ⟨_, _, e⟩ := evalOf_eq (pkt s p) (txDone (pkt s p) { s with pkts := s.pkts.del p })
  rw [removePkt, e]
  exact bareFns_txDone ..

theorem bareFns_foldl {α : Type} {f : State → α → State} (h : ∀ s a, bareFns (f s a) = bareFns s) (l : List α) (s : State) :
    bareFns (l.foldl f s) = bareFns s := by
  induction l generalizing s with
  | nil => rfl
  | cons a l ih => rw [List.foldl_cons, ih, h]

theorem placePath_eq (n : Nat) (s : State) : ∃ v, placePath n s = { s with tm := { s.tm with nodes := v } } := by
  unfold placePath
  split
  · exact placeNodes_eq ..
  · exact ⟨_, rfl⟩

@[simp] theorem bareFns_dropLeafIf (n : Nat) (f : Pkt → Bool) (s : State) : bareFns (dropLeafIf n f s) = bareFns s := by
  unfold dropLeafIf
  dsimp only
  obtain ⟨_, e⟩ := placePath_eq n (((leafQueue s n).filter fun p => f (pkt s p)).foldl (fun s p => removePkt p s)
    { s with tm := { s.tm with leafQ := s.tm.leafQ.upd n fun q => q.filter fun p =>
      !((leafQueue s n).filter fun p => f (pkt s p)).contains p } })
  rw [e]
  exact bareFns_foldl (fun s p => bareFns_removePkt p s) ..

@[simp] theorem bareFns_dropLeaf (q : Nat) (s : State) : bareFns (dropLeaf q s) = bareFns s := bareFns_dropLeafIf ..

@[simp] theorem bareFns_dropLeaves (i : Nat) (s : State) : bareFns (dropLeaves i s) = bareFns s :=
  bareFns_foldl (fun _ _ => bareFns_dropLeaf ..) ..

@[simp] theorem bareFns_dropReqs (i : Nat) (sel : ReqKind → Bool) (s : State) : bareFns (dropReqs i sel s) = bareFns s := rfl

theorem slot_of_bareFns {s t : State} (h : bareFns t = bareFns s) (i k : Nat) :
    ((fnOf t i).slots.get k).bare = ((fnOf s i).slots.get k).bare := congrFun (congrArg Prod.snd (congrFun h i)) k

/-- What a function has beside its queue slots is kept with its bare form. -/
theorem fn_of_bareFns {s t : State} (h : bareFns t = bareFns s) (i : Nat) :
    { fnOf t i with slots := [] } = { fnOf s i with slots := [] } := congrArg Prod.fst (congrFun h i)

/-! What leaving packets change beside the functions: packets, lanes and the traffic manager. -/

/-- The core of a state without its packets, lanes and traffic manager. -/
def coreOffPkts (s : State) : State := core { s with tm := {}, pkts := [], lanes := [] }

@[simp] theorem coreOffPkts_removePkt (p : Nat) (s : State) : coreOffPkts (removePkt p s) = coreOffPkts s := by
  obtain ⟨_, _, _, _, e⟩ := removePkt_eq p s
  rw [e]
  rfl

theorem coreOffPkts_foldl {α : Type} {f : State → α → State} (h : ∀ s a, coreOffPkts (f s a) = coreOffPkts s) (l : List α) (s : State) :
    coreOffPkts (l.foldl f s) = coreOffPkts s := by
  induction l generalizing s with
  | nil => rfl
  | cons a l ih => rw [List.foldl_cons, ih, h]

@[simp] theorem coreOffPkts_dropLeafIf (n : Nat) (f : Pkt → Bool) (s : State) : coreOffPkts (dropLeafIf n f s) = coreOffPkts s := by
  unfold dropLeafIf
  dsimp only
  obtain ⟨_, e⟩ := placePath_eq n (((leafQueue s n).filter fun p => f (pkt s p)).foldl (fun s p => removePkt p s)
    { s with tm := { s.tm with leafQ := s.tm.leafQ.upd n fun q => q.filter fun p =>
      !((leafQueue s n).filter fun p => f (pkt s p)).contains p } })
  rw [e]
  exact coreOffPkts_foldl (fun s p => coreOffPkts_removePkt p s) ..

@[simp] theorem coreOffPkts_dropLeaf (q : Nat) (s : State) : coreOffPkts (dropLeaf q s) = coreOffPkts s := coreOffPkts_dropLeafIf ..

end Sys2Proof.Machine

/-! Queue slots of a function: doorbells, ring enables, acknowledgements and interrupt registers (R466 to R468, R474, R475, R486 to R489). -/
namespace Sys2Proof.Machine

/-! ## Slots -/

theorem SMap.upd_upd {α : Type} [Inhabited α] (m : SMap α) (k : Nat) (f g : α → α) :
    (m.upd k f).upd k g = m.upd k (fun a => g (f a)) := by
  rw [SMap.upd, SMap.get_upd_same, SMap.upd, SMap.put_put, SMap.upd]

theorem setFn_setFn (i : Nat) (f g : Fn → Fn) (s : State) : setFn i g (setFn i f s) = setFn i (fun x => g (f x)) s :=
  congrArg (fun m => { s with fns := m }) (SMap.upd_upd ..)

theorem setSlot_setSlot (i k : Nat) (f g : QSlot → QSlot) (s : State) :
    setSlot i k g (setSlot i k f s) = setSlot i k (fun q => g (f q)) s :=
  (setFn_setFn ..).trans (congrArg (setFn i · s) (funext fun x => congrArg (fun m => { x with slots := m }) (SMap.upd_upd ..)))

/-- What a slot is changed to may be said of the slot that is there. -/
theorem setSlot_const (i k : Nat) (f : QSlot → QSlot) (s : State) :
    setSlot i k f s = setSlot i k (fun _ => f ((fnOf s i).slots.get k)) s := rfl

@[simp] theorem slot_setSlot_same (i k : Nat) (f : QSlot → QSlot) (s : State) :
    (fnOf (setSlot i k f s) i).slots.get k = f ((fnOf s i).slots.get k) := by
  rw [setSlot, fnOf_setFn_same]
  exact SMap.get_upd_same ..

theorem fnOf_setSlot_keeps {α : Type} {g : Fn → α} (blind : ∀ (f : Fn) m, g { f with slots := m } = g f) (i k : Nat) (f : QSlot → QSlot)
    (s : State) (j : Nat) : g (fnOf (setSlot i k f s) j) = g (fnOf s j) := fnOf_setFn_keeps (fun x => blind x _) ..

theorem inst_setSlot (i k : Nat) (f : QSlot → QSlot) (s : State) (j : Nat) : (fnOf (setSlot i k f s) j).inst = (fnOf s j).inst :=
  fnOf_setSlot_keeps (g := Fn.inst) (fun _ _ => rfl) ..

theorem domainDown_setSlot (i k : Nat) (f : QSlot → QSlot) (s : State) (j : Nat) : domainDown (setSlot i k f s) j = domainDown s j := by
  unfold domainDown
  rw [fnOf_setSlot_keeps (g := Fn.d3hot) (fun _ _ => rfl), fnOf_setSlot_keeps (g := Fn.flr) (fun _ _ => rfl), setSlot_ports]

theorem doorbellActs_setSlot {i k : Nat} {f : QSlot → QSlot} {s : State}
    (mark : (f ((fnOf s i).slots.get k)).stopped = ((fnOf s i).slots.get k).stopped) :
    doorbellActs (setSlot i k f s) i k = doorbellActs s i k := by
  unfold doorbellActs
  rw [inst_setSlot, domainDown_setSlot, slot_setSlot_same, mark]

/-! ## Fetches -/

@[simp] theorem issueRead_fns (i : Nat) (kind : ReqKind) (addr len : Nat) (s : State) : (issueRead i kind addr len s).fns = s.fns := by
  unfold issueRead
  dsimp only
  split <;> rfl

@[simp] theorem kickTx_fns (i k : Nat) (s : State) : (kickTx i k s).fns = s.fns := by
  unfold kickTx
  dsimp only
  split
  · exact issueRead_fns ..
  · rfl

@[simp] theorem kickRx_fns (i k : Nat) (s : State) : (kickRx i k s).fns = s.fns := by
  unfold kickRx
  dsimp only
  split
  · exact issueRead_fns ..
  · rfl

@[simp] theorem core_kickTx (i k : Nat) (s : State) : core (kickTx i k s) = core s := by
  unfold kickTx
  dsimp only
  split
  · exact core_issueRead ..
  · rfl

@[simp] theorem core_kickRx (i k : Nat) (s : State) : core (kickRx i k s) = core s := by
  unfold kickRx
  dsimp only
  split
  · exact core_issueRead ..
  · rfl

/-! ## A queue that stops, and one that is acted on (R474, R475) -/

/-- A queue that stops says why, and its fetches start again behind what was consumed; the entries that wait aside, nothing else of the
slot changes. -/
theorem slot_stopQueue (i k cause : Nat) (s : State) : ((fnOf (stopQueue i k cause s) i).slots.get k).bare =
    { ((fnOf s i).slots.get k).bare with
      stopped := true, cause := BitVec.ofNat 4 cause, txFetched := ((fnOf s i).slots.get k).txCi, txReady := false, rxReady := false } := by
  have kept := slot_of_bareFns ((bareFns_dropLeaf (queueOf s i k)
    (dropReqs i (fun e => e == .txFetch k || e == .rxFetch k) s)).trans (bareFns_dropReqs ..)) i k
  refine (congrArg QSlot.bare (slot_setSlot_same ..)).trans ?_
  exact congrArg (fun q : QSlot => { q with
    stopped := true, cause := BitVec.ofNat 4 cause, txFetched := q.txCi, txReady := false, rxReady := false }) kept

/-- A ring of the slot holds more than its size. -/
def overruns (q : QSlot) : Prop :=
  (q.txEn = true ∧ 2 ^ q.log2Tx.toNat < (q.txPi - q.txCi).toNat) ∨ (q.rxEn = true ∧ 2 ^ q.log2Rx.toNat < (q.rxPi - q.rxCi).toNat) ∨
    (q.cqEn = true ∧ 2 ^ q.log2Cq.toNat < (q.cqPi - q.cqCi).toNat)

theorem overrun_iff (pi ci : BitVec 16) (n : BitVec 4) : overrun pi ci n = true ↔ 2 ^ n.toNat < (pi - ci).toNat := decide_eq_true_iff

theorem actQueue_eq {i k : Nat} {q : QSlot} {s : State} (slot : (fnOf s i).slots.get k = q) [Decidable (overruns q)] :
    actQueue i k s = if overruns q then stopQueue i k 4 s else kickRx i k (kickTx i k s) := by
  subst slot
  refine if_congr ?_ rfl rfl
  simp only [Bool.or_eq_true, Bool.and_eq_true, overrun_iff, or_assoc]
  exact Iff.rfl

/-- A slot whose registers are written as `q`, the STOPPED mark as it was, is acted on where doorbells act. -/
theorem rung_actQueue {fn slot : Nat} {q : QSlot} {s : State} (mark : q.stopped = ((fnOf s fn).slots.get slot).stopped) :
    rung fn slot q s (if doorbellActs (setSlot fn slot (fun _ => q) s) fn slot then actQueue fn slot (setSlot fn slot (fun _ => q) s)
      else setSlot fn slot (fun _ => q) s) := by
  have written : (fnOf (setSlot fn slot (fun _ => q) s) fn).slots.get slot = q := slot_setSlot_same ..
  rw [rung, doorbellActs_setSlot mark]
  split
  · next still => rw [still, if_neg Bool.false_ne_true]
  · next acts =>
    classical
    rw [Bool.not_eq_false _ |>.mp acts, if_pos rfl, actQueue_eq written]
    by_cases exceeds : overruns q
    · rw [if_pos exceeds]
      refine (if_pos exceeds).mpr ?_
      have stopped := slot_stopQueue fn slot 4 (setSlot fn slot (fun _ => q) s)
      rw [written] at stopped
      exact ⟨(congrArg QSlot.stopped stopped :), (congrArg QSlot.cause stopped :), (congrArg QSlot.txPi stopped :), (congrArg QSlot.rxPi stopped :),
        (congrArg QSlot.txCi stopped :), (congrArg QSlot.rxCi stopped :)⟩
    · rw [if_neg exceeds]
      refine (if_neg exceeds).mpr ⟨?_, by simp⟩
      rw [fnOf, kickRx_fns, kickTx_fns]
      exact written

end Sys2Proof.Machine

/-! The rows of a queue slot, by their equations (R466 to R468, R474, R475, R486 to R489). -/
namespace Sys2Proof.Machine

/-! ## Doorbells -/

theorem exec_hostDbTx {s : State} {fn slot : Nat} (v : Word) (writable : slotWritable s fn slot = true) :
    ∃ t, exec (.hostDbTx fn slot v) s = .next t ∧ rung fn slot { (fnOf s fn).slots.get slot with txPi := v.extractLsb' 0 16 } s t :=
  ⟨_, if_neg (by simp [writable]), rung_actQueue rfl⟩

theorem exec_hostDbRx {s : State} {fn slot : Nat} (v : Word) (writable : slotWritable s fn slot = true) :
    ∃ t, exec (.hostDbRx fn slot v) s = .next t ∧ rung fn slot { (fnOf s fn).slots.get slot with rxPi := v.extractLsb' 0 16 } s t :=
  ⟨_, if_neg (by simp [writable]), rung_actQueue rfl⟩

/-- A completion doorbell has set its count. -/
def cqCounted (fn slot : Nat) (v : Word) (s : State) : State := setSlot fn slot (fun q => { q with cqCi := v.extractLsb' 0 16 }) s

section
variable {s : State} {fn slot : Nat} (v : Word)

theorem slot_cqCounted : (fnOf (cqCounted fn slot v s) fn).slots.get slot =
    { (fnOf s fn).slots.get slot with cqCi := v.extractLsb' 0 16 } := slot_setSlot_same ..

/-- R475, R487: the branches of a completion doorbell, by the slot as it was. -/
theorem exec_hostDbCq (writable : slotWritable s fn slot = true) : exec (.hostDbCq fn slot v) s =
    .next (if (fnOf s fn).inst.state ≠ 1 ∨ domainDown s fn = true then cqCounted fn slot v s
      else if ((fnOf s fn).slots.get slot).stopped = true then
        setSlot fn slot (fun q => { q with armHeld := q.armHeld || v.getLsbD 31 }) (cqCounted fn slot v s)
      else if ((fnOf s fn).slots.get slot).cqEn = true ∧ 2 ^ ((fnOf s fn).slots.get slot).log2Cq.toNat <
          (((fnOf s fn).slots.get slot).cqPi - v.extractLsb' 0 16).toNat then stopQueue fn slot 4 (cqCounted fn slot v s)
      else if v.getLsbD 31 = true then armQueue fn slot (cqCounted fn slot v s) else cqCounted fn slot v s) := by
  have inst : (fnOf (cqCounted fn slot v s) fn).inst = (fnOf s fn).inst := inst_setSlot ..
  have down : domainDown (cqCounted fn slot v s) fn = domainDown s fn := domainDown_setSlot ..
  refine (if_neg (by simp [writable])).trans ?_
  change (if (fnOf (cqCounted fn slot v s) fn).inst.state != 1 || domainDown (cqCounted fn slot v s) fn then _
    else if ((fnOf (cqCounted fn slot v s) fn).slots.get slot).stopped then _
    else if ((fnOf (cqCounted fn slot v s) fn).slots.get slot).cqEn && overrun ((fnOf (cqCounted fn slot v s) fn).slots.get slot).cqPi
      ((fnOf (cqCounted fn slot v s) fn).slots.get slot).cqCi ((fnOf (cqCounted fn slot v s) fn).slots.get slot).log2Cq then _ else _) = _
  rw [inst, down, slot_cqCounted]
  simp only [apply_ite Host.Outcome.next, Bool.or_eq_true, bne_iff_ne, Bool.and_eq_true, overrun_iff]
  rfl

theorem armQueue_cqCounted : armQueue fn slot (cqCounted fn slot v s) =
    if ((fnOf s fn).slots.get slot).cqPi = v.extractLsb' 0 16 then
      setSlot fn slot (fun q => { q with cqCi := v.extractLsb' 0 16, arm := true }) s
    else raiseVector fn ((fnOf s fn).slots.get slot).vector.toNat
      (setSlot fn slot (fun q => { q with cqCi := v.extractLsb' 0 16, arm := false }) s) := by
  unfold armQueue
  dsimp only
  rw [slot_cqCounted, cqCounted, setSlot_setSlot, setSlot_setSlot]
  by_cases e : ((fnOf s fn).slots.get slot).cqPi = v.extractLsb' 0 16 <;> simp [e]

end

/-! ## Ring enables (R466, R468) -/

/-- The sizes of the rings that are not enabled are written. -/
def qSizes (v : Word) (q : QSlot) : QSlot :=
  let q := if q.txEn then q else { q with log2Tx := v.extractLsb' 12 4 }
  let q := if q.rxEn then q else { q with log2Rx := v.extractLsb' 8 4 }
  if q.cqEn then q else { q with log2Cq := v.extractLsb' 4 4 }

theorem qSizes_eq (v : Word) (q : QSlot) : qSizes v q = { q with
    log2Tx := if q.txEn then q.log2Tx else v.extractLsb' 12 4, log2Rx := if q.rxEn then q.log2Rx else v.extractLsb' 8 4
    log2Cq := if q.cqEn then q.log2Cq else v.extractLsb' 4 4 } := by
  obtain ⟨_, _, _, tx, rx, cq⟩ := q
  cases tx <;> cases rx <;> cases cq <;> rfl

/-- The registers of a slot after a write of HOST_Q_CTL. -/
def qCtl (v : Word) (q : QSlot) : QSlot :=
  let q := qSizes v q
  let riseTx := v.getLsbD 31 && !q.txEn
  let riseRx := v.getLsbD 30 && !q.rxEn
  let riseCq := v.getLsbD 29 && !q.cqEn
  let q := if riseTx then { q with txPi := 0, txCi := 0, txFetched := 0, txReady := false, txOrder := [] } else q
  let q := if riseRx then { q with rxPi := 0, rxCi := 0, rxTaken := 0, rxReady := false } else q
  let q := if riseCq then { q with cqPi := 0, cqCi := 0, arm := false, armHeld := false } else q
  { q with txEn := v.getLsbD 31, rxEn := v.getLsbD 30, cqEn := v.getLsbD 29 }

/-- What was fetched of rings that are enabled anew is discarded. -/
def fetchesDropped (fn slot : Nat) (tx rx : Bool) (s : State) : State :=
  let s := if tx then dropLeaf (queueOf s fn slot) (dropReqs fn (fun k => k == .txFetch slot) s) else s
  if rx then dropReqs fn (fun k => k == .rxFetch slot) s else s

theorem bareFns_fetchesDropped (fn slot : Nat) (tx rx : Bool) (s : State) : bareFns (fetchesDropped fn slot tx rx s) = bareFns s := by
  cases tx <;> cases rx <;> simp [fetchesDropped]

theorem coreOffPkts_fetchesDropped (fn slot : Nat) (tx rx : Bool) (s : State) :
    coreOffPkts (fetchesDropped fn slot tx rx s) = coreOffPkts s := by
  cases tx <;> cases rx
  · rfl
  · rfl
  · exact coreOffPkts_dropLeaf ..
  · exact coreOffPkts_dropLeaf ..

theorem core_fetchesDropped (fn slot : Nat) (rx : Bool) (s : State) : core (fetchesDropped fn slot false rx s) = core s := by
  cases rx
  · rfl
  · exact core_dropReqs fn (fun k => k == .rxFetch slot) s

/-- A ring is enabled anew, with a size outside 4 to 12. -/
def badRise (v : Word) (q : QSlot) : Bool :=
  (v.getLsbD 31 && !(qSizes v q).txEn && badLog2 (qCtl v q).log2Tx) ||
    (v.getLsbD 30 && !(qSizes v q).rxEn && badLog2 (qCtl v q).log2Rx) ||
    (v.getLsbD 29 && !(qSizes v q).cqEn && badLog2 (qCtl v q).log2Cq)

/-- The slot's registers are written, and what was fetched of a ring enabled anew is discarded. -/
def qWritten (fn slot : Nat) (v : Word) (s : State) : State :=
  fetchesDropped fn slot (v.getLsbD 31 && !(qSizes v ((fnOf s fn).slots.get slot)).txEn)
    (v.getLsbD 30 && !(qSizes v ((fnOf s fn).slots.get slot)).rxEn) (setSlot fn slot (qCtl v) s)

theorem writeQCtl_eq {fn slot : Nat} {s : State} (v : Word) (writable : slotWritable s fn slot = true) :
    writeQCtl fn slot v s = if badRise v ((fnOf s fn).slots.get slot) then stopQueue fn slot 4 (qWritten fn slot v s)
      else qWritten fn slot v s := if_neg (by simp [writable])

theorem slot_qWritten (fn slot : Nat) (v : Word) (s : State) :
    ((fnOf (qWritten fn slot v s) fn).slots.get slot).bare = (qCtl v ((fnOf s fn).slots.get slot)).bare :=
  (slot_of_bareFns (bareFns_fetchesDropped ..) fn slot).trans (congrArg QSlot.bare (slot_setSlot_same ..))

end Sys2Proof.Machine

/-! The ring enables of a slot, and the acknowledgements and interrupt registers (R466, R468, R486, R489, R123). -/
namespace Sys2Proof.Machine

/-! ## Ring enables (R466, R468) -/

section
variable {q : QSlot} (v : Word) (tx : q.txEn = false) (rx : q.rxEn = false) (cq : q.cqEn = false)
include tx rx cq

/-- The registers of a slot whose rings were all disabled. -/
theorem qCtl_of_disabled : qCtl v q = { q with
    txEn := v.getLsbD 31, rxEn := v.getLsbD 30, cqEn := v.getLsbD 29
    log2Tx := v.extractLsb' 12 4, log2Rx := v.extractLsb' 8 4, log2Cq := v.extractLsb' 4 4
    txPi := if v.getLsbD 31 then 0 else q.txPi, txCi := if v.getLsbD 31 then 0 else q.txCi
    txFetched := if v.getLsbD 31 then 0 else q.txFetched, txReady := if v.getLsbD 31 then false else q.txReady
    txOrder := if v.getLsbD 31 then [] else q.txOrder
    rxPi := if v.getLsbD 30 then 0 else q.rxPi, rxCi := if v.getLsbD 30 then 0 else q.rxCi
    rxTaken := if v.getLsbD 30 then 0 else q.rxTaken, rxReady := if v.getLsbD 30 then false else q.rxReady
    cqPi := if v.getLsbD 29 then 0 else q.cqPi, cqCi := if v.getLsbD 29 then 0 else q.cqCi
    arm := if v.getLsbD 29 then false else q.arm, armHeld := if v.getLsbD 29 then false else q.armHeld } := by
  obtain ⟨_, _, _, _, _, _⟩ := q
  dsimp only at tx rx cq
  subst tx rx cq
  unfold qCtl
  rw [qSizes_eq]
  cases v.getLsbD 31 <;> cases v.getLsbD 30 <;> cases v.getLsbD 29 <;> rfl

theorem badRise_of_disabled : badRise v q = true ↔
    (v.getLsbD 31 = true ∧ ¬ (4 ≤ (v.extractLsb' 12 4).toNat ∧ (v.extractLsb' 12 4).toNat ≤ 12)) ∨
    (v.getLsbD 30 = true ∧ ¬ (4 ≤ (v.extractLsb' 8 4).toNat ∧ (v.extractLsb' 8 4).toNat ≤ 12)) ∨
    (v.getLsbD 29 = true ∧ ¬ (4 ≤ (v.extractLsb' 4 4).toNat ∧ (v.extractLsb' 4 4).toNat ≤ 12)) := by
  have bad (n : BitVec 4) : badLog2 n = true ↔ ¬ (4 ≤ n.toNat ∧ n.toNat ≤ 12) := by
    rw [badLog2_iff]
    omega
  simp only [badRise, qSizes_eq, qCtl_of_disabled v tx rx cq, tx, rx, cq, Bool.not_false, Bool.and_true, Bool.or_eq_true,
    Bool.and_eq_true, bad, or_assoc]

end

/-- Registers of a slot `u` whose rings were enabled from `q`, all disabled, by a write `v` of HOST_Q_CTL. -/
def enabledFrom (v : Word) (q u : QSlot) : Prop :=
  u.txEn = v.getLsbD 31 ∧ u.rxEn = v.getLsbD 30 ∧ u.cqEn = v.getLsbD 29 ∧ u.log2Tx = v.extractLsb' 12 4 ∧
    u.log2Rx = v.extractLsb' 8 4 ∧ u.log2Cq = v.extractLsb' 4 4 ∧ (v.getLsbD 31 = true → u.txPi = 0 ∧ u.txCi = 0) ∧
    (v.getLsbD 30 = true → u.rxPi = 0 ∧ u.rxCi = 0) ∧ (v.getLsbD 29 = true → u.cqPi = 0 ∧ u.cqCi = 0 ∧ u.arm = false) ∧
    u.vector = q.vector ∧ u.roData = q.roData

theorem enabledFrom_qCtl {q : QSlot} (v : Word) (tx : q.txEn = false) (rx : q.rxEn = false) (cq : q.cqEn = false) :
    enabledFrom v q (qCtl v q) := by
  rw [qCtl_of_disabled v tx rx cq]
  refine ⟨rfl, rfl, rfl, rfl, rfl, rfl, fun h => ?_, fun h => ?_, fun h => ?_, rfl, rfl⟩ <;> simp [h]

/-- A queue slot without what a stop and its waiting entries change. -/
def QSlot.fixed (q : QSlot) : QSlot := { q.bare with stopped := false, cause := 0, txFetched := 0, txReady := false, rxReady := false }

theorem QSlot.fixed_of_bare {u w : QSlot} (h : u.bare = w.bare) : u.fixed = w.fixed :=
  congrArg (fun q : QSlot => { q with stopped := false, cause := 0, txFetched := 0, txReady := false, rxReady := false }) h

theorem enabledFrom.of_fixed {v : Word} {q u w : QSlot} (h : enabledFrom v q w) (e : u.fixed = w.fixed) : enabledFrom v q u := by
  change enabledFrom v q u.fixed
  rw [e]
  exact h

theorem slot_stopQueue_fixed (i k cause : Nat) (s : State) :
    ((fnOf (stopQueue i k cause s) i).slots.get k).fixed = ((fnOf s i).slots.get k).fixed :=
  congrArg (fun q : QSlot => { q with stopped := false, cause := 0, txFetched := 0, txReady := false, rxReady := false })
    (slot_stopQueue i k cause s)

/-- R466, R468: the rings enabled of a slot whose rings were all disabled. -/
theorem exec_hostQRingEnable {s : State} {fn slot : Nat} {v : Word} {q : QSlot} (writable : slotWritable s fn slot = true)
    (some : v.extractLsb' 29 3 ≠ 0) (is : q = (fnOf s fn).slots.get slot) (tx : q.txEn = false) (rx : q.rxEn = false)
    (cq : q.cqEn = false) : ∃ t, exec (.hostQRingEnable fn slot v) s = .next t ∧ enabledFrom v q ((fnOf t fn).slots.get slot) ∧
      if badRise v q = true then ((fnOf t fn).slots.get slot).stopped = true ∧ ((fnOf t fn).slots.get slot).cause = 4
      else ((fnOf t fn).slots.get slot).stopped = q.stopped ∧ (v.getLsbD 31 = false → core t = core s) ∧ coreOffPkts t = coreOffPkts s := by
  subst is
  have written := slot_qWritten fn slot v s
  have fresh := enabledFrom_qCtl v tx rx cq
  refine ⟨_, (if_neg some).trans (congrArg Host.Outcome.next (writeQCtl_eq v writable)), ?_⟩
  split
  · have stopped := slot_stopQueue fn slot 4 (qWritten fn slot v s)
    exact ⟨fresh.of_fixed ((slot_stopQueue_fixed ..).trans (QSlot.fixed_of_bare written)), (congrArg QSlot.stopped stopped :),
      (congrArg QSlot.cause stopped :)⟩
  · refine ⟨fresh.of_fixed (QSlot.fixed_of_bare written), (congrArg QSlot.stopped written :).trans ?_, fun off => ?_,
      coreOffPkts_fetchesDropped ..⟩
    · rw [qCtl_of_disabled v tx rx cq]
      rfl
    · rw [qWritten, off]
      exact core_fetchesDropped ..

theorem exec_hostQRingDisable {s : State} {fn slot : Nat} {v : Word} {q : QSlot} (writable : slotWritable s fn slot = true)
    (some : v.extractLsb' 29 3 ≠ 7) (is : q = (fnOf s fn).slots.get slot) (tx : v.getLsbD 31 = true → q.txEn = true)
    (rx : v.getLsbD 30 = true → q.rxEn = true) (cq : v.getLsbD 29 = true → q.cqEn = true) :
    exec (.hostQRingDisable fn slot v) s = .next (setSlot fn slot (fun q => { q with
      txEn := v.getLsbD 31, rxEn := v.getLsbD 30, cqEn := v.getLsbD 29, log2Tx := if q.txEn then q.log2Tx else v.extractLsb' 12 4
      log2Rx := if q.rxEn then q.log2Rx else v.extractLsb' 8 4, log2Cq := if q.cqEn then q.log2Cq else v.extractLsb' 4 4 }) s) := by
  subst is
  have noTx : (v.getLsbD 31 && !((fnOf s fn).slots.get slot).txEn) = false := by simpa using tx
  have noRx : (v.getLsbD 30 && !((fnOf s fn).slots.get slot).rxEn) = false := by simpa using rx
  have noCq : (v.getLsbD 29 && !((fnOf s fn).slots.get slot).cqEn) = false := by simpa using cq
  have good : badRise v ((fnOf s fn).slots.get slot) = false := by
    simp only [badRise, qSizes_eq, noTx, noRx, noCq, Bool.false_and, Bool.or_false]
  refine (if_neg some).trans (congrArg Host.Outcome.next ?_)
  rw [writeQCtl_eq v writable, good, if_neg Bool.false_ne_true, qWritten, setSlot_const, setSlot_const fn slot (fun q => _)]
  simp only [qSizes_eq, noTx, noRx]
  simp only [qCtl, qSizes_eq, noTx, noRx, noCq, Bool.false_eq_true, if_false]
  rfl

end Sys2Proof.Machine

/-! Acknowledgements and interrupt registers (R123, R124, R486, R489), and O43. -/
namespace Sys2Proof.Machine

/-! ## EVT_ACK and PUNT_ACK (R123, R124) -/

@[simp] theorem core_flushPuntsN (n : Nat) (s : State) : core (flushPuntsN n s) = core s := by
  induction n generalizing s with
  | zero => rfl
  | succ n ih =>
    unfold flushPuntsN
    repeat' split
    all_goals simp [ih]

@[simp] theorem core_flushPunts (s : State) : core (flushPunts s) = core s := by
  unfold flushPunts
  dsimp only
  split <;> simp

theorem puntAck_writePunt (rec : Nat) (s : State) (j : Nat) : (fnOf (writePunt rec s) j).punt.ack = (fnOf s j).punt.ack :=
  (fnOf_raiseVector (g := fun f => f.punt.ack) (fun _ _ _ _ => rfl) j ..).trans
    ((fnOf_setFn_keeps (g := fun f => f.punt.ack) (fun _ => by rfl) ..).trans
      (fnOf_hostWrite (g := fun f => f.punt.ack) (fun _ _ _ _ _ _ _ _ _ _ => rfl) j ..))

theorem puntAck_flushPuntsN (n : Nat) (s : State) (j : Nat) : (fnOf (flushPuntsN n s) j).punt.ack = (fnOf s j).punt.ack := by
  induction n generalizing s with
  | zero => rfl
  | succ n ih =>
    unfold flushPuntsN
    split
    · rfl
    split
    · exact (ih _).trans ((puntAck_writePunt ..).trans (fnOf_setFn_keeps (g := fun f => f.punt.ack) (fun _ => by rfl) ..))
    · rfl

theorem puntAck_flushPunts (s : State) (j : Nat) : (fnOf (flushPunts s) j).punt.ack = (fnOf s j).punt.ack := by
  unfold flushPunts
  dsimp only
  split
  · exact (fnOf_deliverEvent (g := fun f => f.punt.ack) (fun _ _ _ _ _ _ _ _ _ _ => rfl) j ..).trans
      ((fnOf_setFn_keeps (g := fun f => f.punt.ack) (fun _ => by rfl) ..).trans (puntAck_flushPuntsN ..))
  · exact puntAck_flushPuntsN ..

theorem exec_hostEvtAck {s : State} {fn : Nat} (v : Word) (pf : isPf fn = true) (reached : bar0Open s fn = true) :
    ∃ t, exec (.hostEvtAck fn v) s = .next t ∧ (fnOf t fn).evt.ack = v.extractLsb' 0 16 ∧ core t = core s := by
  refine ⟨_, if_neg (by simp [pf, reached]), ?_, by simp⟩
  rw [fnOf_flushEvents (g := fun f => f.evt.ack) (fun _ _ _ _ _ _ _ _ _ _ => rfl), fnOf_setFn_same]

theorem exec_hostPuntAck {s : State} (v : Word) (reached : bar0Open s 0 = true) :
    ∃ t, exec (.hostPuntAck 0 v) s = .next t ∧ (fnOf t 0).punt.ack = v.extractLsb' 0 16 ∧ core t = core s := by
  refine ⟨_, if_neg (by simp [reached]), ?_, by simp⟩
  rw [puntAck_flushPunts, fnOf_setFn_same]

/-! ## HOST_INTX_STS (R489) -/

/-- Bits of HOST_INTX_STS are cleared. -/
def Fn.intxClear (v : Word) (f : Fn) : Fn := { f with intx := f.intx &&& ~~~v }

/-- Bits cleared of HOST_INTX_STS send Deassert_INTA when they take the level down, and no other message. -/
theorem setFnIntx_clear (fn : Nat) (v : Word) (s : State) : setFnIntx fn (Fn.intxClear v) s =
    { setFn fn (Fn.intxClear v) s with
      out := s.out ++ (if intxLevel (fnOf s fn) = true ∧ (fnOf s fn).intx &&& ~~~v = 0 then [.intx fn false] else []) } := by
  unfold setFnIntx
  dsimp only
  rw [fnOf_setFn_same]
  by_cases clear : (fnOf s fn).intx &&& ~~~v = 0
  · have low : intxLevel ((fnOf s fn).intxClear v) = false := by
      rw [intxLevel, show (((fnOf s fn).intxClear v).intx != 0) = false from bne_eq_false_iff_eq.2 clear]
      rfl
    rw [low]
    cases intxLevel (fnOf s fn)
    · simp [setFn]
    · simp [emit, clear]
  · have set : (fnOf s fn).intx ≠ 0 := fun zero => clear (by rw [zero]; exact BitVec.zero_and)
    have same : intxLevel ((fnOf s fn).intxClear v) = intxLevel (fnOf s fn) := by
      unfold intxLevel
      rw [bne_iff_ne.2 set, show (((fnOf s fn).intxClear v).intx != 0) = true from bne_iff_ne.2 clear]
      rfl
    rw [same, beq_self_eq_true, if_pos rfl, if_neg (fun h => clear h.2), List.append_nil]
    rfl

theorem exec_hostIntxStsClear {s : State} {fn : Nat} (v : Word) (pf : isPf fn = true) (reached : bar0Open s fn = true) :
    ∃ t, exec (.hostIntxStsClear fn v) s = .next t ∧ (fnOf t fn).intx = (fnOf s fn).intx &&& ~~~v ∧
      t.out = s.out ++ (if intxLevel (fnOf s fn) = true ∧ (fnOf s fn).intx &&& ~~~v = 0 then [.intx fn false] else []) ∧
      t = { s with fns := t.fns, out := t.out } := by
  refine ⟨_, (if_neg (by simp [pf, reached])).trans (congrArg Host.Outcome.next (setFnIntx_clear ..)), ?_, rfl, rfl⟩
  exact congrArg Fn.intx (fnOf_setFn_same fn (Fn.intxClear v) s)

/-! ## The vector mask (R486) -/

theorem foldl_emit {α : Type} (f : α → Output) (l : List α) (s : State) :
    l.foldl (fun s a => emit (f a) s) s = { s with out := s.out ++ l.map f } := by
  induction l generalizing s with
  | nil => simp
  | cons a l ih =>
    rw [List.foldl_cons, ih, List.map_cons, emit, List.append_assoc, List.singleton_append]

/-- The pending vectors that are not masked are pending no more. -/
def Fn.sent (f : Fn) : Fn := { f with msixPending := f.msixPending.filter fun v => !f.unmasked.contains v }

/-- The vectors that are pending and unmasked are sent, where MSI-X may be; none of them is pending then. -/
theorem sendPending_eq (fn : Nat) (s : State) : sendPending fn s =
    if (fnOf s fn).bme = true ∧ (fnOf s fn).msixEn = true ∧ (fnOf s fn).msixMaskAll = false then
      { setFn fn Fn.sent s with
        out := s.out ++ ((fnOf s fn).msixPending.filter fun v => (fnOf s fn).unmasked.contains v).map (.msix fn) }
    else s := by
  unfold sendPending
  dsimp only
  refine if_congr (by simp [and_assoc]) (foldl_emit ..) rfl

/-- A vector's mask bit is cleared. -/
def Fn.unmask (n : Nat) (f : Fn) : Fn := { f with unmasked := if f.unmasked.contains n then f.unmasked else n :: f.unmasked }

theorem Fn.mem_unmask (n : Nat) (f : Fn) : n ∈ (f.unmask n).unmasked := by
  unfold Fn.unmask
  dsimp only
  split
  · next h => exact List.contains_iff_mem.1 h
  · exact List.mem_cons_self ..

theorem exec_msixUnmask {s : State} {fn n : Nat} (reached : bar0Open s fn = true) (vector : n < vectorCount fn) :
    ∃ t, exec (.msixUnmask fn n) s = .next t ∧ n ∈ (fnOf t fn).unmasked ∧ t = { s with fns := t.fns, out := t.out } ∧
      ((fnOf s fn).bme = true → (fnOf s fn).msixEn = true → (fnOf s fn).msixMaskAll = false → n ∉ (fnOf t fn).msixPending ∧
        (n ∈ (fnOf s fn).msixPending → .msix fn n ∈ t.out)) := by
  have free := Fn.mem_unmask n (fnOf s fn)
  have unmasked : fnOf (setFn fn (Fn.unmask n) s) fn = (fnOf s fn).unmask n := fnOf_setFn_same ..
  refine ⟨_, (if_neg (by simp [reached, vector])).trans (congrArg Host.Outcome.next (sendPending_eq fn (setFn fn (Fn.unmask n) s))), ?_⟩
  rw [unmasked]
  split
  · next sends =>
    refine ⟨?_, rfl, fun _ _ _ => ⟨?_, fun pending => List.mem_append_right _ (List.mem_map.2 ⟨n, ?_, rfl⟩)⟩⟩
    · change n ∈ (fnOf (setFn fn Fn.sent (setFn fn (Fn.unmask n) s)) fn).unmasked
      rw [fnOf_setFn_same, unmasked]
      exact free
    · change n ∉ (fnOf (setFn fn Fn.sent (setFn fn (Fn.unmask n) s)) fn).msixPending
      rw [fnOf_setFn_same, unmasked]
      simp [Fn.sent, free]
    · exact List.mem_filter.2 ⟨pending, List.contains_iff_mem.2 free⟩
  · next closed => exact ⟨by rw [unmasked]; exact free, rfl, fun master msix open_ => absurd ⟨master, msix, open_⟩ closed⟩

/-- Settles O43: each row of a queue slot by its equation, and the registers a stop or an enable leaves. -/
theorem doorbellsAndEnablesDriveTheQueue : Obligations.DoorbellsAndEnablesDriveTheQueue := by
  unfold Obligations.DoorbellsAndEnablesDriveTheQueue
  refine ⟨fun s fn slot v writable => ⟨exec_hostDbTx v writable, exec_hostDbRx v writable⟩, ?cq, ?enable,
    fun s fn slot v q writable some is tx rx cq => exec_hostQRingDisable writable some is tx rx cq, ?closed,
    fun s fn v pf reached => ⟨exec_hostEvtAck v pf reached, exec_hostIntxStsClear v pf reached⟩, fun s v => exec_hostPuntAck v,
    fun s fn n => exec_msixUnmask⟩
  case cq =>
    rintro s fn slot v q writable rfl
    rw [exec_hostDbCq v writable]
    refine ⟨fun down => by rw [if_pos down]; rfl, fun active up stopped => ?_, fun acts en exceeds => ?_, fun acts fits => ?_⟩
    · rw [if_neg (by simp [active, up]), if_pos stopped, cqCounted, setSlot_setSlot]
    all_goals
      obtain ⟨⟨active, up⟩, runs⟩ : ((fnOf s fn).inst.state = 1 ∧ domainDown s fn = false) ∧
        ((fnOf s fn).slots.get slot).stopped = false := by simpa [doorbellActs] using acts
      rw [if_neg (by simp [active, up]), if_neg (by simp [runs])]
    · rw [if_pos ⟨en, exceeds⟩]
      have stopped := slot_stopQueue fn slot 4 (cqCounted fn slot v s)
      exact ⟨_, rfl, (congrArg QSlot.stopped stopped :), (congrArg QSlot.cause stopped :)⟩
    · rw [if_neg (by rintro ⟨en, exceeds⟩; exact exceeds.not_ge (fits en)), armQueue_cqCounted]
      exact ⟨fun off => by rw [off, if_neg Bool.false_ne_true]; rfl, fun on same => by rw [if_pos on, if_pos same],
        fun on unread => by rw [if_pos on, if_neg unread]⟩
  case enable =>
    intro s fn slot v q writable some is tx rx cq
    obtain ⟨t, ran, enabled, last⟩ := exec_hostQRingEnable writable some is tx rx cq
    obtain ⟨e1, e2, e3, l1, l2, l3, c1, c2, c3, vec, ro⟩ := enabled
    refine ⟨t, ran, _, rfl, e1, e2, e3, l1, l2, l3, c1, c2, c3, vec, ro, ?_⟩
    rw [l1, l2, l3]
    have rises := badRise_of_disabled v tx rx cq
    by_cases bad : badRise v q = true
    · rw [if_pos bad] at last
      rwa [if_pos (rises.1 bad)]
    · rw [if_neg (rises.not.1 bad)]
      rw [if_neg bad] at last
      obtain ⟨mark, off, kept⟩ := last
      exact ⟨mark, off, congrArg (fun u : State => { u with tm := s.tm, pkts := s.pkts, lanes := s.lanes }) kept⟩
  case closed =>
    intro s fn slot v closed
    have same : writeQCtl fn slot v s = s := if_pos (by simp [closed])
    refine ⟨if_pos (by simp [closed]), if_pos (by simp [closed]), if_pos (by simp [closed]), ?_, ?_⟩
    · exact ite_eq_left_iff.2 fun _ => congrArg Host.Outcome.next same
    · exact ite_eq_left_iff.2 fun _ => congrArg Host.Outcome.next same

end Sys2Proof.Machine

/-! What the work of instances, mailboxes and resets leaves of every function: its registers of configuration space, its range and its
state (R482, R484, R528, R529). -/
namespace Sys2Proof.Machine

/-- The mailbox registers of a function at reset (R517). -/
def Fn.mailboxReset (f : Fn) : Fn :=
  { f with tx := {}, secTx := {}, chans := [], secChan := {}, rxSel := 0, rxIe := false, txIe := false, mboxVec := 0, notices := [] }

/-- A function without its rings, queues, mailboxes, interrupts and records, and without its log. -/
def Fn.standing (f : Fn) : Fn :=
  { resetBar0 f.mailboxReset with intx := 0, badVector := false, evt := {}, inst := { f.inst with log := none } }

/-- What stands of every function. -/
def standings (s : State) : Nat → Fn := fun j => (fnOf s j).standing

theorem standing_blind : PostBlind Fn.standing := fun _ _ _ _ _ _ _ _ _ _ => rfl

theorem standings_setFn {f : Fn → Fn} (h : ∀ x, (f x).standing = x.standing) (i : Nat) (s : State) :
    standings (setFn i f s) = standings s := funext fun j => fnOf_setFn_keeps h i j s

theorem standings_of_bareFns {s t : State} (h : bareFns t = bareFns s) : standings t = standings s :=
  funext fun j => (congrArg Fn.standing (fn_of_bareFns h j) :)

theorem standings_foldl {α : Type} {f : State → α → State} (h : ∀ s a, standings (f s a) = standings s) (l : List α) (s : State) :
    standings (l.foldl f s) = standings s := by
  induction l generalizing s with
  | nil => rfl
  | cons a l ih => rw [List.foldl_cons, ih, h]

/-! ## Posts, rings and slots -/

@[simp] theorem standings_hostWrite (i addr len data : Nat) (ro : Bool) (s : State) :
    standings (hostWrite i addr len data ro s) = standings s := funext fun j => fnOf_hostWrite standing_blind j ..
@[simp] theorem standings_raiseVector (i v : Nat) (s : State) : standings (raiseVector i v s) = standings s :=
  funext fun j => fnOf_raiseVector standing_blind.vector j ..
@[simp] theorem standings_deliverEvent (pf rec : Nat) (s : State) : standings (deliverEvent pf rec s) = standings s :=
  funext fun j => fnOf_deliverEvent standing_blind j ..
@[simp] theorem standings_postInst (c i r d : Nat) (s : State) : standings (postInst c i r d s) = standings s :=
  standings_deliverEvent ..
@[simp] theorem standings_postTo (c i d : Nat) (l : List Nat) (s : State) : standings (postTo c i d l s) = standings s :=
  funext fun j => fnOf_deliverTo standing_blind j ..
@[simp] theorem standings_flushEvents (pf : Nat) (s : State) : standings (flushEvents pf s) = standings s :=
  funext fun j => fnOf_flushEvents standing_blind j ..
@[simp] theorem standings_setPort (p : Nat) (f : PcPort → PcPort) (s : State) : standings (setPort p f s) = standings s := rfl
@[simp] theorem standings_emit (o : Output) (s : State) : standings (emit o s) = standings s := rfl
@[simp] theorem standings_dropReqs (i : Nat) (sel : ReqKind → Bool) (s : State) : standings (dropReqs i sel s) = standings s := rfl

@[simp] theorem standings_setRing (i : Nat) (sec : Bool) (r : Ring → Ring) (s : State) : standings (setRing i sec r s) = standings s :=
  funext fun j => fnOf_setRing_keeps (g := Fn.standing) (fun _ _ => ⟨rfl, rfl⟩) i sec r s j

@[simp] theorem standings_setSlot (i k : Nat) (f : QSlot → QSlot) (s : State) : standings (setSlot i k f s) = standings s :=
  standings_setFn (fun _ => by rfl) i s

@[simp] theorem standings_writeReply (e : Exec) (st r : Nat) (s : State) : standings (writeReply e st r s) = standings s :=
  funext fun j => fnOf_writeReply standing_blind j (fun _ _ => ⟨rfl, rfl⟩) e st r s

@[simp] theorem standings_finishExec (i : Nat) (sec : Bool) (st r : Nat) (s : State) : standings (finishExec i sec st r s) = standings s := by
  unfold finishExec
  split
  · rfl
  split
  · exact standings_writeReply ..
  · exact standings_setRing ..

@[simp] theorem standings_finishRings (l : List (Nat × Bool)) (st r : Nat) (s : State) : standings (finishRings l st r s) = standings s :=
  standings_foldl (fun _ _ => standings_finishExec ..) l s

/-! ## Packets and objects -/

@[simp] theorem standings_freeHeld (e : CplEntry) (s : State) : standings (freeHeld e s) = standings s := by
  unfold freeHeld
  split
  · next p _ =>
    obtain ⟨_, _, eq⟩ := evalOf_eq (pkt s p) { s with pkts := s.pkts.del p }
    rw [eq]
    rfl
  · rfl

@[simp] theorem standings_freeStamps (l : List CplEntry) (s : State) : standings (freeStamps l s) = standings s :=
  standings_foldl (fun _ _ => by rw [standings_freeHeld]; split <;> rfl) l s

@[simp] theorem standings_dropLeaf (q : Nat) (s : State) : standings (dropLeaf q s) = standings s :=
  standings_of_bareFns (bareFns_dropLeaf ..)
@[simp] theorem standings_dropLeaves (i : Nat) (s : State) : standings (dropLeaves i s) = standings s :=
  standings_of_bareFns (bareFns_dropLeaves ..)
@[simp] theorem standings_dropFormed (n : Nat) (s : State) : standings (dropFormed n s) = standings s :=
  standings_of_bareFns (bareFns_dropLeafIf ..)

@[simp] theorem standings_discardDelivery (i : Nat) (s : State) : standings (discardDelivery i s) = standings s :=
  standings_foldl (fun _ p => standings_of_bareFns (bareFns_removePkt p _)) _ _

@[simp] theorem setObj_fns (n : Nat) (f : Obj → Obj) (s : State) : (setObj n f s).fns = s.fns := by
  unfold setObj
  split <;> rfl

@[simp] theorem abandonRecord_fns (silent : Bool) (n : Nat) (s : State) : (abandonRecord silent n s).fns = s.fns := by
  unfold abandonRecord
  dsimp only
  repeat' split
  all_goals rfl

theorem bareFns_of_fns {s t : State} (h : t.fns = s.fns) : bareFns t = bareFns s := by
  unfold bareFns fnOf
  rw [h]

@[simp] theorem bareFns_dropFormed (n : Nat) (s : State) : bareFns (dropFormed n s) = bareFns s := bareFns_dropLeafIf ..

@[simp] theorem bareFns_errObjectsOf (i : Nat) (s : State) : bareFns (errObjectsOf i s) = bareFns s :=
  bareFns_foldl (fun s n => (bareFns_of_fns ((setObj_fns ..).trans (abandonRecord_fns true n (dropFormed n s)))).trans
    (bareFns_dropFormed n s)) _ s

@[simp] theorem bareFns_destroyObject (n : Nat) (s : State) : bareFns (destroyObject n s) = bareFns s :=
  (bareFns_of_fns (t := destroyObject n s) (abandonRecord_fns false n (dropFormed n s))).trans (bareFns_dropFormed n s)

@[simp] theorem bareFns_destroyObjectsOf (i : Nat) (s : State) : bareFns (destroyObjectsOf i s) = bareFns s :=
  bareFns_foldl (fun s n => bareFns_destroyObject n s) _ s

@[simp] theorem standings_errObjectsOf (i : Nat) (s : State) : standings (errObjectsOf i s) = standings s :=
  standings_of_bareFns (bareFns_errObjectsOf ..)
@[simp] theorem standings_destroyObjectsOf (i : Nat) (s : State) : standings (destroyObjectsOf i s) = standings s :=
  standings_of_bareFns (bareFns_destroyObjectsOf ..)

/-! ## Mailboxes -/

/-- A view of a function that does not look at its mailbox registers. -/
def MailBlind {α : Type} (g : Fn → α) : Prop := ∀ x y : Fn, x.mailboxReset = y.mailboxReset → g x = g y

section
variable {α : Type} {g : Fn → α} (vec : VectorBlind g) (mail : MailBlind g) (j : Nat)

include mail in
theorem fnOf_setTx (i : Nat) (sec : Bool) (h : MboxTx → MboxTx) (s : State) : g (fnOf (setTx i sec h s) j) = g (fnOf s j) := by
  refine fnOf_setFn_keeps (fun x => ?_) i j s
  cases sec <;> exact mail _ _ rfl

include mail in
theorem fnOf_setMail {f : Fn → Fn} (h : ∀ x, (f x).mailboxReset = x.mailboxReset) (i : Nat) (s : State) :
    g (fnOf (setFn i f s) j) = g (fnOf s j) := fnOf_setFn_keeps (fun x => mail _ _ (h x)) i j s

include vec mail

theorem fnOf_endMessage (i : Nat) (sec : Bool) (r : Nat) (s : State) : g (fnOf (endMessage i sec r s) j) = g (fnOf s j) := by
  unfold endMessage
  dsimp only
  split
  · exact (fnOf_raiseVector vec j ..).trans (fnOf_setTx mail j ..)
  · exact fnOf_setTx mail j ..

theorem fnOf_fillChannel (i k : Nat) (c : MboxChan) (s : State) : g (fnOf (fillChannel i k c s) j) = g (fnOf s j) := by
  unfold fillChannel
  dsimp only
  split
  · exact (fnOf_raiseVector vec j ..).trans (fnOf_setMail mail j (fun _ => by rfl) ..)
  · exact fnOf_setMail mail j (fun _ => by rfl) ..

theorem fnOf_sendNotice (i type w : Nat) (s : State) : g (fnOf (sendNotice i type w s) j) = g (fnOf s j) := by
  unfold sendNotice
  dsimp only
  split
  · exact fnOf_fillChannel vec mail j ..
  split
  · exact fnOf_setMail mail j (fun _ => by rfl) ..
  · rfl

end

section
variable {α : Type} {g : Fn → α} (blind : PostBlind g) (mail : MailBlind g) (j : Nat)
include blind mail

theorem fnOf_discardUnread (i cause : Nat) (l : List (Nat × MboxChan)) (s : State) :
    g (fnOf (discardUnread i cause l s) j) = g (fnOf s j) := by
  induction l generalizing s with
  | nil => rfl
  | cons c l ih =>
    unfold discardUnread
    dsimp only
    split
    · rw [ih, fnOf_deliverEvent blind]
      split
      · rfl
      · exact fnOf_endMessage blind.vector mail j ..
    · exact ih s

omit blind in
/-- A message of `i` that is unread in the channel of `r` is withdrawn (R517). -/
theorem fnOf_withdrawn (i : Nat) (f : Fn) (s : State) : g (fnOf (if f.tx.go then match f.tx.to_ with
      | some r => setFn r (fun g => { g with chans := g.chans.upd (mboxChannel i) fun c =>
          if c.full then { c with full := false, valid := false } else c }) s
      | none => s
    else s) j) = g (fnOf s j) := by
  split
  · split
    · exact fnOf_setMail mail j (fun _ => by rfl) ..
    · rfl
  · rfl

theorem fnOf_resetMailbox (i cause : Nat) (s : State) : g (fnOf (resetMailbox i cause s) j) = g (fnOf s j) := by
  have kept := (fnOf_withdrawn mail j i (fnOf s i) _).trans (fnOf_discardUnread blind mail j i cause
    ((fnOf s i).chans ++ [(0x4000, (fnOf s i).secChan)]) s)
  unfold resetMailbox
  dsimp only
  split <;> exact (fnOf_setMail (f := Fn.mailboxReset) mail j (fun _ => rfl) ..).trans kept

end

theorem standing_mail : MailBlind Fn.standing := fun _ _ h =>
  congrArg (fun f : Fn => { resetBar0 f with intx := 0, badVector := false, evt := {}, inst := { f.inst with log := none } }) h

@[simp] theorem standings_sendNotice (i type w : Nat) (s : State) : standings (sendNotice i type w s) = standings s :=
  funext fun j => fnOf_sendNotice standing_blind.vector standing_mail j ..
@[simp] theorem standings_resetMailbox (i cause : Nat) (s : State) : standings (resetMailbox i cause s) = standings s :=
  funext fun j => fnOf_resetMailbox standing_blind standing_mail j ..

@[simp] theorem standings_stopLogging (i : Nat) (s : State) : standings (stopLogging i s) = standings s := by
  unfold stopLogging
  split
  · exact (standings_sendNotice ..).trans (standings_setFn (fun _ => by rfl) i s)
  · rfl

end Sys2Proof.Machine

/-! Resets of instances (R528): what they set of one, and what they leave of every function. -/
namespace Sys2Proof.Machine

/-! ## What lasts of a function through a reset -/

/-- The quiesce replies owed to a function's rings are forgotten. -/
def Fn.forget (i : Nat) (f : Fn) : Fn :=
  { f with inst := { f.inst with quiesceRings := f.inst.quiesceRings.filter fun r => r.1 != i } }

theorem fnOf_forgetRings (i : Nat) (s : State) (j : Nat) : fnOf (forgetRings i s) j = (fnOf s j).forget i :=
  SMap.get_mapAll (f := fun _ => Fn.forget i) (fun _ => rfl) s.fns j

/-- What stands of a function, the replies it owes to a quiesce aside. -/
def Fn.lasting (f : Fn) : Fn := { f.standing with inst := { f.standing.inst with quiesceRings := [] } }

def lastings (s : State) : Nat → Fn := fun j => (fnOf s j).lasting

theorem lastings_of_standings {s t : State} (h : standings t = standings s) : lastings t = lastings s :=
  funext fun j => congrArg (fun f : Fn => { f with inst := { f.inst with quiesceRings := [] } }) (congrFun h j)

@[simp] theorem lastings_forgetRings (i : Nat) (s : State) : lastings (forgetRings i s) = lastings s :=
  funext fun j => (congrArg Fn.lasting (fnOf_forgetRings i s j) :)

theorem lastings_setFn_congr {f : Fn → Fn} (h : ∀ x y, x.lasting = y.lasting → (f x).lasting = (f y).lasting) {s t : State}
    (e : lastings t = lastings s) (i : Nat) : lastings (setFn i f t) = lastings (setFn i f s) := by
  funext j
  unfold lastings
  by_cases same : i = j
  · rw [← same, fnOf_setFn_same, fnOf_setFn_same]
    exact h _ _ (congrFun e i)
  · rw [fnOf_setFn_ne _ _ same, fnOf_setFn_ne _ _ same]
    exact congrFun e j

/-! ## Functions without queues -/

/-- A function has no queue slot. -/
def noSlots (j : Nat) (s : State) : Prop := (fnOf s j).slots = []

theorem noSlots.of_fns {j : Nat} {s t : State} (h : noSlots j s) (e : t.fns = s.fns) : noSlots j t := by
  unfold noSlots fnOf
  rw [e]
  exact h

/-- The work of a descriptor ends in a slot that has consumed it, and brings none about. -/
theorem noSlots.txDone {j : Nat} {s : State} (h : noSlots j s) (x : Pkt) : noSlots j (txDone x s) := by
  unfold Machine.txDone
  dsimp only
  split
  · exact h
  next t _ =>
  split
  · next consumed =>
    have other : t.fn ≠ j := by
      rintro rfl
      rw [h] at consumed
      cases consumed
    exact (congrArg Fn.slots (fnOf_setFn_ne _ s other)).trans h
  · repeat' split
    all_goals exact h

theorem noSlots.removePkt {j : Nat} {s : State} (h : noSlots j s) (p : Nat) : noSlots j (removePkt p s) := by
  obtain ⟨_, _, e⟩ := evalOf_eq (pkt s p) (Machine.txDone (pkt s p) { s with pkts := s.pkts.del p })
  rw [Machine.removePkt, e]
  exact noSlots.txDone (s := { s with pkts := s.pkts.del p }) h _

theorem noSlots.foldl {α : Type} {j : Nat} {f : State → α → State} (step : ∀ s a, noSlots j s → noSlots j (f s a)) (l : List α)
    {s : State} (h : noSlots j s) : noSlots j (l.foldl f s) := by
  induction l generalizing s with
  | nil => exact h
  | cons a l ih => exact ih (step s a h)

theorem noSlots.dropFormed {j : Nat} {s : State} (h : noSlots j s) (n : Nat) : noSlots j (dropFormed n s) := by
  unfold Machine.dropFormed dropLeafIf
  dsimp only
  obtain ⟨_, e⟩ := placePath_eq (kLeaf (objOf s n).sq) (((leafQueue s (kLeaf (objOf s n).sq)).filter fun p =>
    (pkt s p).origin == some n).foldl (fun s p => Machine.removePkt p s)
    { s with tm := { s.tm with leafQ := s.tm.leafQ.upd (kLeaf (objOf s n).sq) fun q => q.filter fun p =>
      !((leafQueue s (kLeaf (objOf s n).sq)).filter fun p => (pkt s p).origin == some n).contains p } })
  rw [e]
  exact noSlots.foldl (fun _ p held => noSlots.removePkt held p) _ h

theorem noSlots.destroyObject {j : Nat} {s : State} (h : noSlots j s) (n : Nat) : noSlots j (destroyObject n s) :=
  (h.dropFormed n).of_fns (t := Machine.destroyObject n s) (abandonRecord_fns false n (Machine.dropFormed n s))

theorem noSlots.destroyObjectsOf {j : Nat} {s : State} (h : noSlots j s) (i : Nat) : noSlots j (destroyObjectsOf i s) :=
  noSlots.foldl (fun _ n held => noSlots.destroyObject held n) _ h

theorem slots_blind : PostBlind Fn.slots := fun _ _ _ _ _ _ _ _ _ _ => rfl
theorem slots_mail : MailBlind Fn.slots := fun _ _ h => (congrArg Fn.slots h :)

/-! ## Logs -/

/-- One of the instances logs its writes. -/
def Fn.logs (f : Fn) : Bool := f.inst.log.isSome

theorem logs_blind : PostBlind Fn.logs := fun _ _ _ _ _ _ _ _ _ h => h
theorem logs_mail : MailBlind Fn.logs := fun _ _ h => (congrArg Fn.logs h :)

/-- Logging is off once it has been stopped (R536). -/
theorem logs_stopLogging (i : Nat) (s : State) : (fnOf (stopLogging i s) i).logs = false := by
  unfold stopLogging
  split
  · rw [fnOf_sendNotice logs_blind.vector logs_mail, fnOf_setFn_same]
    rfl
  · next off => exact Bool.not_eq_true _ |>.mp off

theorem slots_stopLogging (i : Nat) (s : State) (j : Nat) : (fnOf (stopLogging i s) j).slots = (fnOf s j).slots := by
  unfold stopLogging
  split
  · exact (fnOf_sendNotice slots_blind.vector slots_mail j ..).trans (fnOf_setFn_keeps (g := Fn.slots) (fun _ => by rfl) ..)
  · rfl

/-! ## INST_RESET's work (R528) -/

/-- One of the instances is RESETTING, and owes no quiesce a reply. -/
def Fn.resetting (f : Fn) : Fn := { f with inst := { f.inst with state := 4, quiesceAt := none, quiesceRings := [] } }

theorem Fn.resetting_congr (x y : Fn) (h : x.lasting = y.lasting) : x.resetting.lasting = y.resetting.lasting :=
  (congrArg Fn.resetting h :)

/-- A reset makes one of the instances RESETTING; what lasts of every function it leaves otherwise. -/
theorem lastings_resetInstance (i cause : Nat) (s : State) : lastings (resetInstance i cause s) = lastings (setFn i Fn.resetting s) := by
  refine Eq.trans ?_ (lastings_setFn_congr Fn.resetting_congr ((lastings_of_standings (standings_finishRings
    (fnOf (forgetRings i s) i).inst.quiesceRings stBadState 0 _)).trans (lastings_forgetRings i s)) i)
  have cleared (t : State) : standings (setFn i resetBar0 t) = standings t := standings_setFn (f := resetBar0) (fun _ => rfl) i t
  refine lastings_of_standings ?_
  simp only [resetInstance, standings_resetMailbox, standings_stopLogging, standings_destroyObjectsOf, cleared, standings_discardDelivery,
    standings_dropReqs, standings_dropLeaves, standings_freeStamps]
  rfl

theorem slots_resetInstance (i cause : Nat) (s : State) : (fnOf (resetInstance i cause s) i).slots = [] := by
  unfold resetInstance
  dsimp only
  have none (t : State) : noSlots i (setFn i resetBar0 t) := by
    rw [noSlots, fnOf_setFn_same]
    rfl
  rw [fnOf_resetMailbox slots_blind slots_mail, slots_stopLogging]
  exact (none _).destroyObjectsOf i

theorem logs_resetInstance (i cause : Nat) (s : State) : (fnOf (resetInstance i cause s) i).logs = false := by
  unfold resetInstance
  dsimp only
  rw [fnOf_resetMailbox logs_blind logs_mail, logs_stopLogging]

end Sys2Proof.Machine

/-! INST_CONFIG and INST_QUIESCE (R510, R523). -/
namespace Sys2Proof.Machine

theorem inst_taken (c : CmdPkt) (s : State) (j : Nat) : (fnOf (taken c s) j).inst = (fnOf s j).inst :=
  fnOf_taken (g := Fn.inst) (fun _ _ => ⟨rfl, rfl⟩) c s j

theorem slots_taken (c : CmdPkt) (s : State) (j : Nat) : (fnOf (taken c s) j).slots = (fnOf s j).slots :=
  fnOf_taken (g := Fn.slots) (fun _ _ => ⟨rfl, rfl⟩) c s j

theorem inst_vector : VectorBlind Fn.inst := fun _ _ _ _ => rfl
theorem inst_mail : MailBlind Fn.inst := fun _ _ h => (congrArg Fn.inst h :)

/-- What stands of instances gives all of them but their logs. -/
theorem inst_of_standings {s t : State} (h : standings t = standings s) (j : Nat) :
    ∃ d, (fnOf t j).inst = { (fnOf s j).inst with log := d } :=
  ⟨(fnOf t j).inst.log, congrArg (fun f : Fn => { f.inst with log := (fnOf t j).inst.log }) (congrFun h j)⟩

/-! ## Queues that are acted on -/

@[simp] theorem standings_stopQueue (i k c : Nat) (s : State) : standings (stopQueue i k c s) = standings s :=
  (standings_setSlot ..).trans ((standings_dropLeaf ..).trans (standings_dropReqs ..))

theorem standings_of_fns {s t : State} (h : t.fns = s.fns) : standings t = standings s := by
  unfold standings fnOf
  rw [h]

@[simp] theorem standings_actQueue (i k : Nat) (s : State) : standings (actQueue i k s) = standings s := by
  unfold actQueue
  dsimp only
  split
  · exact standings_stopQueue ..
  · exact standings_of_fns (by simp)

theorem inst_dropLeaf (q : Nat) (s : State) (j : Nat) : (fnOf (dropLeaf q s) j).inst = (fnOf s j).inst :=
  (congrArg Fn.inst (fn_of_bareFns (bareFns_dropLeaf q s) j) :)

theorem inst_stopQueue (i k c : Nat) (s : State) (j : Nat) : (fnOf (stopQueue i k c s) j).inst = (fnOf s j).inst :=
  (inst_setSlot ..).trans (inst_dropLeaf ..)

theorem inst_actQueue (i k : Nat) (s : State) (j : Nat) : (fnOf (actQueue i k s) j).inst = (fnOf s j).inst := by
  unfold actQueue
  dsimp only
  split
  · exact inst_stopQueue ..
  · rw [fnOf, kickRx_fns, kickTx_fns]
    rfl

/-- Where instances are resumed, their queues are acted on, but those STOPPED. -/
def queuesResumed (i n : Nat) (s : State) : State :=
  (List.range n).foldl (fun s k => if ((fnOf s i).slots.get k).stopped then s else actQueue i k s) s

@[simp] theorem standings_queuesResumed (i n : Nat) (s : State) : standings (queuesResumed i n s) = standings s :=
  standings_foldl (fun s k => by
    split
    · rfl
    · exact standings_actQueue ..) _ s

theorem inst_queuesResumed (i n : Nat) (s : State) (j : Nat) : (fnOf (queuesResumed i n s) j).inst = (fnOf s j).inst := by
  unfold queuesResumed
  generalize List.range n = l
  induction l generalizing s with
  | nil => rfl
  | cons k l ih =>
    rw [List.foldl_cons, ih]
    split
    · rfl
    · exact inst_actQueue ..

/-! ## INST_CONFIG (R510) -/

/-- The range and the class of a command are bound. -/
def instBound (c : CmdPkt) (s : State) : State :=
  setFn c.iid (fun f => { f with inst := { f.inst with
    state := 1, qbase := c.p 0 2, qcount := c.p 2 2, cls := c.p 4 1, quiesceAt := none, quiesceRings := [] } }) s

/-- What instances bound anew do: one that was quiescing or QUIESCED is resumed (R510). -/
def instConfigured (c : CmdPkt) (s : State) : State :=
  if (fnOf s c.iid).inst.state == 2 || (fnOf s c.iid).inst.state == 3 then
    queuesResumed c.iid (c.p 2 2) (sendNotice c.iid 0xF1 0 (finishRings (fnOf s c.iid).inst.quiesceRings stBadState 0 (instBound c s)))
  else instBound c s

theorem exec_instConfig {c : CmdPkt} {s : State} (runs : Runs 0x0201 .P false always c s) (count : c.p 2 2 ≤ 256)
    (last : c.p 0 2 + c.p 2 2 ≤ 65536) (cls : c.p 4 1 ≤ 7) (reserved : c.p 5 43 = 0) (exists_ : fnExists (taken c s) c.iid = true)
    (free : c.p 2 2 = 0 ∨ rangeTaken (taken c s) c.iid (c.p 0 2) (c.p 2 2) = false)
    (leaves : ∀ k, k < c.p 2 2 → leafClassOther (taken c s) (c.p 0 2 + k) (c.p 4 1) = false)
    (steady : (fnOf s c.iid).inst.state ≠ 4)
    (quiet : ((fnOf s c.iid).inst.qbase = c.p 0 2 ∧ (fnOf s c.iid).inst.qcount = c.p 2 2) ∨ (∀ q ∈ (fnOf s c.iid).slots, q.2.state = 0)) :
    exec (.instConfig c) s = repliesOk c s (instConfigured c (taken c s)) 0 := by
  refine congrArg Host.Outcome.next (runCmd_done runs ?accepted ?effect)
  case accepted =>
    have fields : (decide (c.p 2 2 > 256) || decide (c.p 0 2 + c.p 2 2 > 65536) || decide (c.p 4 1 > 7) || c.p 5 43 != 0) = false := by
      simp [Nat.not_lt.2 count, Nat.not_lt.2 last, Nat.not_lt.2 cls, reserved]
    have clear : (c.p 2 2 != 0 && rangeTaken (taken c s) c.iid (c.p 0 2) (c.p 2 2)) = false := by
      rcases free with zero | untaken
      · simp [zero]
      · simp [untaken]
    have same : ((List.range (c.p 2 2)).any fun k => leafClassOther (taken c s) (c.p 0 2 + k) (c.p 4 1)) = false := by
      simpa using leaves
    have idle : (((fnOf s c.iid).inst.qbase != c.p 0 2 || (fnOf s c.iid).inst.qcount != c.p 2 2) &&
        (fnOf s c.iid).slots.any fun q => q.2.state != 0) = false := by
      rcases quiet with ⟨base, n⟩ | off
      · simp [base, n]
      · simp only [Bool.and_eq_false_iff, List.any_eq_false, bne_iff_ne, not_not]
        exact Or.inr off
    dsimp only [firstOf]
    rw [fields, exists_, clear, same, inst_taken, slots_taken, idle, beq_false_of_ne steady]
    rfl
  case effect =>
    unfold instConfigured
    dsimp only
    split <;> rfl

theorem inst_instConfigured (c : CmdPkt) (s : State) : ∃ d, (fnOf (instConfigured c s) c.iid).inst = { (fnOf s c.iid).inst with
      state := 1, qbase := c.p 0 2, qcount := c.p 2 2, cls := c.p 4 1, quiesceAt := none, quiesceRings := [], log := d } ∧
    ((fnOf s c.iid).inst.quiesceRings = [] → d = (fnOf s c.iid).inst.log) := by
  have bound : (fnOf (instBound c s) c.iid).inst = { (fnOf s c.iid).inst with
      state := 1, qbase := c.p 0 2, qcount := c.p 2 2, cls := c.p 4 1, quiesceAt := none, quiesceRings := [] } :=
    congrArg Fn.inst (fnOf_setFn_same ..)
  unfold instConfigured
  split
  · have kept : standings (queuesResumed c.iid (c.p 2 2) (sendNotice c.iid 0xF1 0 (finishRings (fnOf s c.iid).inst.quiesceRings stBadState 0
        (instBound c s)))) = standings (instBound c s) := by simp
    obtain ⟨d, inst⟩ := inst_of_standings kept c.iid
    rw [bound] at inst
    refine ⟨d, inst, fun none => ?_⟩
    rw [none, inst_queuesResumed, fnOf_sendNotice inst_vector inst_mail] at inst
    exact ((congrArg Inst.log inst).symm.trans (congrArg Inst.log bound) :)
  · exact ⟨(fnOf s c.iid).inst.log, bound, fun _ => rfl⟩

end Sys2Proof.Machine

/-! INST_QUIESCE, INST_RESET and INST_REMOVE (R523, R524, R527, R528, R530), and O15. -/
namespace Sys2Proof.Machine

/-! ## INST_QUIESCE (R523) -/

/-- The function of a quiesce command is QUIESCING, and owes its ring a reply. -/
def Fn.quiescing (c : CmdPkt) (s : State) (f : Fn) : Fn :=
  { f with
    inst := { f.inst with state := 2, quiesceAt := some (s.tick + usT (c.p 0 4)), force := c.p 4 1 % 2 == 1
                          quiesceRings := f.inst.quiesceRings ++ [(c.fn, c.sec)] }
    slots := f.slots.mapAll fun _ q => { q with txFetched := q.txCi, txReady := false } }

/-- A quiesce begins: what was prefetched is discarded, and no transmit descriptor is awaited. -/
def quiesceBegun (c : CmdPkt) (s : State) : State :=
  sendNotice c.iid 0xF0 (c.p 0 4) (dropReqs c.iid (fun k => match k with | .txFetch _ => true | _ => false)
    (setFn c.iid (Fn.quiescing c s) (dropLeaves c.iid s)))

section
variable {c : CmdPkt} {s : State} (runs : Runs 0x0202 .P false always c s) (lo : 1 ≤ c.p 0 4) (hi : c.p 0 4 ≤ 100000)
include runs lo hi

theorem exec_instQuiesce_of_quiesced (quiesced : (fnOf s c.iid).inst.state = 3) :
    exec (.instQuiesce c) s = repliesOk c s (taken c s) 0 := by
  have range : (decide (c.p 0 4 < 1) || decide (c.p 0 4 > 100000)) = false := by simp [Nat.not_lt.2 hi]; omega
  refine congrArg Host.Outcome.next (runCmd_done runs ?_ (if_pos ?_))
  · dsimp only [firstOf]
    rw [range, inst_taken, quiesced]
    rfl
  · rw [inst_taken, quiesced]
    rfl

theorem exec_instQuiesce (active : (fnOf s c.iid).inst.state = 1 ∨ (fnOf s c.iid).inst.state = 2) :
    exec (.instQuiesce c) s = .next (quiesceBegun c (taken c s)) := by
  have range : (decide (c.p 0 4 < 1) || decide (c.p 0 4 > 100000)) = false := by simp [Nat.not_lt.2 hi]; omega
  refine congrArg Host.Outcome.next (runCmd_unanswered runs ?_ (if_neg ?_))
  · dsimp only [firstOf]
    rw [range, inst_taken]
    rcases active with one | two
    · rw [one]; rfl
    · rw [two]; rfl
  · rw [inst_taken, beq_iff_eq]
    omega

end

theorem fn_dropLeaves (i : Nat) (s : State) (j : Nat) : { fnOf (dropLeaves i s) j with slots := [] } = { fnOf s j with slots := [] } :=
  fn_of_bareFns (bareFns_dropLeaves i s) j

theorem inst_quiesceBegun (c : CmdPkt) (s : State) : (fnOf (quiesceBegun c s) c.iid).inst = { (fnOf s c.iid).inst with
    state := 2, quiesceAt := some (s.tick + usT (c.p 0 4)), force := c.p 4 1 % 2 == 1
    quiesceRings := (fnOf s c.iid).inst.quiesceRings ++ [(c.fn, c.sec)] } := by
  have begun : (fnOf (setFn c.iid (Fn.quiescing c s) (dropLeaves c.iid s)) c.iid).inst =
      (Fn.quiescing c s (fnOf (dropLeaves c.iid s) c.iid)).inst := congrArg Fn.inst (fnOf_setFn_same ..)
  exact (fnOf_sendNotice inst_vector inst_mail c.iid ..).trans (begun.trans
    (congrArg (fun f => (Fn.quiescing c s f).inst) (fn_dropLeaves c.iid s c.iid) :))

theorem ring_mail (sec : Bool) : MailBlind (Fn.ring sec) := fun _ _ h => (congrArg (Fn.ring sec) h :)

theorem ringOf_quiesceBegun (c : CmdPkt) (s : State) (j : Nat) (sec : Bool) : ringOf (quiesceBegun c s) j sec = ringOf s j sec :=
  calc ringOf (quiesceBegun c s) j sec
    _ = ringOf (setFn c.iid (Fn.quiescing c s) (dropLeaves c.iid s)) j sec :=
      fnOf_sendNotice (g := Fn.ring sec) (fun _ _ _ _ => rfl) (ring_mail sec) j ..
    _ = ringOf (dropLeaves c.iid s) j sec := ringOf_setFn (f := Fn.quiescing c s) (fun _ _ => rfl) ..
    _ = ringOf s j sec := (congrArg (Fn.ring sec) (fn_dropLeaves c.iid s j) :)

/-! ## INST_RESET and INST_REMOVE (R527, R528, R530) -/

/-- The range and the class that a function is bound to. -/
def Fn.span (f : Fn) : Nat × Nat × Nat := (f.inst.qbase, f.inst.qcount, f.inst.cls)

theorem Fn.span_lasting (f : Fn) : f.lasting.span = f.span := rfl

theorem span_of_lastings {s t : State} (h : lastings t = lastings s) (j : Nat) : (fnOf t j).span = (fnOf s j).span := by
  rw [← Fn.span_lasting, ← Fn.span_lasting (fnOf s j)]
  exact congrArg Fn.span (congrFun h j)

theorem span_endQuiesce (i : Nat) (s : State) (j : Nat) : (fnOf (endQuiesce i s) j).span = (fnOf s j).span := by
  unfold endQuiesce
  split
  · refine (span_of_lastings (lastings_of_standings ((standings_finishRings ..).trans (standings_postInst ..))) j).trans ?_
    exact fnOf_setFn_keeps (g := Fn.span) (fun _ => by rfl) ..
  · rfl

theorem span_resetInstance (i cause : Nat) (s : State) (j : Nat) : (fnOf (resetInstance i cause s) j).span = (fnOf s j).span :=
  (span_of_lastings (lastings_resetInstance ..) j).trans (fnOf_setFn_keeps (g := Fn.span) (f := Fn.resetting) (fun _ => rfl) ..)

theorem destroyDomainKeys_fns (h : Nat) (s : State) : (destroyDomainKeys h s).fns = s.fns := by
  unfold destroyDomainKeys
  generalize keysWhere s _ = l
  induction l generalizing s with
  | nil => rfl
  | cons k l ih => exact ih _

/-- One of the instances is ABSENT, with no queues. -/
def Fn.removed (f : Fn) : Fn := { f with inst := { f.inst with state := 0, qcount := 0 } }

/-- INST_REMOVE has reset one of the instances; with a physical function its domain's keys are gone. -/
def instRemoved (c : CmdPkt) (s : State) : State :=
  setFn c.iid Fn.removed (if isPf c.iid then destroyDomainKeys (portOf c.iid) (resetInstance c.iid 2 (endQuiesce c.iid s))
    else resetInstance c.iid 2 (endQuiesce c.iid s))

theorem exec_instReset {c : CmdPkt} {s : State} (runs : Runs 0x0203 .P false always c s) (idle : resettable c (taken c s) = true) :
    exec (.instReset c) s = repliesOk c s (endReset c.iid 1 (resetInstance c.iid 1 (endQuiesce c.iid (taken c s)))) 0 :=
  congrArg Host.Outcome.next (runCmd_done runs (if_pos idle) rfl)

theorem exec_instRemove {c : CmdPkt} {s : State}
    (runs : Runs 0x0204 .P false (fun c _ => !(isPf c.iid && iidOk c.iid) || (c.fn == 0 && c.iid != 0)) c s)
    (absent : isPf c.iid = true → ∀ v ∈ vfsOf (taken c s) (portOf c.iid), (fnOf s v).inst.state = 0)
    (idle : resettable c (taken c s) = true) : exec (.instRemove c) s = repliesOk c s (instRemoved c (taken c s)) 0 := by
  refine congrArg Host.Outcome.next (runCmd_done runs ((if_neg ?_).trans (if_pos idle)) rfl)
  rw [Bool.and_eq_true, List.any_eq_true]
  rintro ⟨pf, v, mem, present⟩
  rw [inst_taken, absent pf v mem] at present
  cases present

/-- What binds instances: the state, the range and class, whether writes are logged, and the queues. -/
def Fn.binding (f : Fn) : (Nat × Nat × Nat × Nat) × Bool × SMap QSlot := ((f.inst.state, f.span), f.logs, f.slots)

theorem binding_blind : PostBlind Fn.binding := fun f _ _ _ _ _ _ _ _ h =>
  congrArg (fun b => ((f.inst.state, f.span), b, f.slots)) h
theorem binding_mail : MailBlind Fn.binding := fun _ _ h => (congrArg Fn.binding h :)

theorem binding_writeReply (e : Exec) (st r : Nat) (s : State) (j : Nat) :
    (fnOf (writeReply e st r s) j).binding = (fnOf s j).binding := fnOf_writeReply binding_blind j (fun _ _ => ⟨rfl, rfl⟩) ..

/-- One of the instances has been reset: RESETTING, its range kept, without log and queues. -/
theorem binding_reset (i cause : Nat) (s : State) : (fnOf (resetInstance i cause (endQuiesce i s)) i).binding.1.2 = (fnOf s i).span ∧
    (fnOf (resetInstance i cause (endQuiesce i s)) i).binding.2 = (false, []) :=
  ⟨(span_resetInstance ..).trans (span_endQuiesce ..), Prod.ext (logs_resetInstance ..) (slots_resetInstance ..)⟩

/-- At the end of their reset instances are ACTIVE. -/
theorem binding_endReset (i cause : Nat) (s : State) :
    (fnOf (endReset i cause s) i).binding = ((1, (fnOf s i).binding.1.2), (fnOf s i).binding.2) := by
  unfold endReset
  rw [fnOf_sendNotice binding_blind.vector binding_mail, fnOf_setFn_same]
  rfl

theorem binding_instRemoved (c : CmdPkt) (s : State) : (fnOf (instRemoved c s) c.iid).binding =
    ((0, (fnOf s c.iid).inst.qbase, 0, (fnOf s c.iid).inst.cls), false, []) := by
  obtain ⟨span, rest⟩ := binding_reset c.iid 2 s
  have keyless (u : State) : (fnOf (if isPf c.iid then destroyDomainKeys (portOf c.iid) u else u) c.iid) = fnOf u c.iid := by
    split
    · rw [fnOf, destroyDomainKeys_fns]
      rfl
    · rfl
  unfold instRemoved
  rw [fnOf_setFn_same, keyless]
  exact Prod.ext (congrArg (fun p : Nat × Nat × Nat => (0, p.1, 0, p.2.2)) span) rest

/-- Settles O15: each command by its equation, and what the work of a reset leaves of the function. -/
theorem instanceCommandsMoveTheInstance : Obligations.InstanceCommandsMoveTheInstance := by
  unfold Obligations.InstanceCommandsMoveTheInstance
  refine ⟨?config, fun c s runs lo hi => ⟨exec_instQuiesce_of_quiesced runs lo hi, ?quiesce⟩, fun c s runs idle => ?reset,
    fun c s runs absent idle => ?remove⟩
  case config =>
    intro c s runs count last cls reserved exists_ free leaves steady quiet
    obtain ⟨d, inst, log⟩ := inst_instConfigured c (taken c s)
    rw [inst_taken] at inst log
    refine ⟨_, d, exec_instConfig runs count last cls reserved exists_ free leaves steady quiet, inst, log, fun le => if_neg ?_⟩
    rw [inst_taken, Bool.or_eq_true, beq_iff_eq, beq_iff_eq]
    omega
  case quiesce =>
    intro active
    have inst := inst_quiesceBegun c (taken c s)
    rw [inst_taken] at inst
    refine ⟨_, exec_instQuiesce runs lo hi active, ?_⟩
    rw [inst, ringOf_quiesceBegun, ringOf_taken]
    exact ⟨rfl, congrArg some (congrArg (s.tick + ·) (Nat.mul_comm ..)), beq_iff_eq, rfl, rfl, rfl, rfl⟩
  case reset =>
    obtain ⟨span, rest⟩ := binding_reset c.iid 1 (taken c s)
    have bound := (binding_writeReply (execOf c s) stOk 0 _ c.iid).trans (binding_endReset c.iid 1
      (resetInstance c.iid 1 (endQuiesce c.iid (taken c s))))
    rw [span, rest, Fn.span, inst_taken] at bound
    simp only [Fn.binding, Fn.span, Fn.logs, Prod.mk.injEq] at bound
    obtain ⟨⟨state, base, count, cls⟩, log, slots⟩ := bound
    exact ⟨_, exec_instReset runs idle, state, base, count, cls, Option.isSome_eq_false_iff.1 log |> Option.isNone_iff_eq_none.1, slots⟩
  case remove =>
    have bound := (binding_writeReply (execOf c s) stOk 0 _ c.iid).trans (binding_instRemoved c (taken c s))
    simp only [Fn.binding, Fn.span, Prod.mk.injEq] at bound
    obtain ⟨⟨state, -, count, -⟩, -, slots⟩ := bound
    exact ⟨_, exec_instRemove runs absent idle, state, count, slots⟩

end Sys2Proof.Machine

/-! Mailbox messages (R512 to R516, R520): what ends one, what fills a channel, and what that leaves. -/
namespace Sys2Proof.Machine

@[simp] theorem core_setTx (i : Nat) (sec : Bool) (g : MboxTx → MboxTx) (s : State) : core (setTx i sec g s) = core s := rfl

@[simp] theorem core_endMessage (i : Nat) (sec : Bool) (r : Nat) (s : State) : core (endMessage i sec r s) = core s := by
  unfold endMessage
  dsimp only
  split <;> simp

@[simp] theorem core_fillChannel (i k : Nat) (c : MboxChan) (s : State) : core (fillChannel i k c s) = core s := by
  unfold fillChannel
  dsimp only
  split <;> simp

/-- The transmit side of a function, and that of its secure channel. -/
def Fn.side (sec : Bool) (f : Fn) : MboxTx := if sec then f.secTx else f.tx

theorem side_vector (sec : Bool) : VectorBlind (Fn.side sec) := fun _ _ _ _ => by cases sec <;> rfl

@[simp] theorem side_setTx_same (i : Nat) (sec : Bool) (g : MboxTx → MboxTx) (s : State) :
    (fnOf (setTx i sec g s) i).side sec = g ((fnOf s i).side sec) := by
  rw [setTx, fnOf_setFn_same]
  cases sec <;> rfl

/-- A view of a function that its transmit side does not change. -/
theorem fnOf_setTx_keeps {α : Type} {g : Fn → α} {sec : Bool}
    (blind : ∀ (f : Fn) t, g (if sec then { f with secTx := t } else { f with tx := t }) = g f) (i : Nat) (h : MboxTx → MboxTx) (s : State)
    (j : Nat) : g (fnOf (setTx i sec h s) j) = g (fnOf s j) := by
  refine fnOf_setFn_keeps (fun x => Eq.trans ?_ (blind x (h (x.side sec)))) i j s
  cases sec <;> rfl

theorem chans_setTx (i : Nat) (sec : Bool) (h : MboxTx → MboxTx) (s : State) (j : Nat) :
    (fnOf (setTx i sec h s) j).chans = (fnOf s j).chans :=
  fnOf_setTx_keeps (g := Fn.chans) (fun _ _ => by cases sec <;> rfl) ..

/-- What a message that ends leaves of the transmit side that sent it (R513, R515). -/
theorem side_endMessage (i : Nat) (sec : Bool) (r : Nat) (s : State) : (fnOf (endMessage i sec r s) i).side sec =
    { (fnOf s i).side sec with go := false, result := BitVec.ofNat 4 r, done := true, expire := none, to_ := none } := by
  unfold endMessage
  dsimp only
  split
  · exact (fnOf_raiseVector (side_vector sec) i ..).trans (side_setTx_same ..)
  · exact side_setTx_same ..

theorem chans_endMessage (i : Nat) (sec : Bool) (r : Nat) (s : State) (j : Nat) :
    (fnOf (endMessage i sec r s) j).chans = (fnOf s j).chans := by
  unfold endMessage
  dsimp only
  split
  · exact (fnOf_raiseVector (g := Fn.chans) (fun _ _ _ _ => rfl) j ..).trans (chans_setTx ..)
  · exact chans_setTx ..

/-- What a filled channel leaves of a function that neither channels nor vectors show. -/
theorem fnOf_fillChannel_keeps {α : Type} {g : Fn → α} (vec : VectorBlind g) (blind : ∀ (f : Fn) m, g { f with chans := m } = g f)
    (i k : Nat) (c : MboxChan) (s : State) (j : Nat) : g (fnOf (fillChannel i k c s) j) = g (fnOf s j) := by
  have filled : g (fnOf (setFn i (fun f => { f with chans := f.chans.put k c }) s) j) = g (fnOf s j) :=
    fnOf_setFn_keeps (fun x => blind x _) ..
  unfold fillChannel
  dsimp only
  split
  · exact (fnOf_raiseVector vec j ..).trans filled
  · exact filled

theorem chans_fillChannel (i k : Nat) (c : MboxChan) (s : State) : (fnOf (fillChannel i k c s) i).chans = (fnOf s i).chans.put k c := by
  have filled : (fnOf (setFn i (fun f => { f with chans := f.chans.put k c }) s) i).chans = (fnOf s i).chans.put k c :=
    congrArg Fn.chans (fnOf_setFn_same ..)
  unfold fillChannel
  dsimp only
  split
  · exact (fnOf_raiseVector (g := Fn.chans) (fun _ _ _ _ => rfl) i ..).trans filled
  · exact filled

/-! ## A post (R513 to R515, R520) -/

theorem standing_of_standings {s t : State} (h : standings t = standings s) (j : Nat) :
    (fnOf t j).inst.state = (fnOf s j).inst.state ∧ (fnOf t j).vfEnable = (fnOf s j).vfEnable ∧ (fnOf t j).numVfs = (fnOf s j).numVfs ∧
      (fnOf t j).d3hot = (fnOf s j).d3hot ∧ (fnOf t j).flr = (fnOf s j).flr ∧ (fnOf t j).bme = (fnOf s j).bme := by
  have same : (fnOf t j).standing = (fnOf s j).standing := congrFun h j
  refine ⟨?_, ?_, ?_, ?_, ?_, ?_⟩
  · exact (congrArg (fun f : Fn => f.inst.state) same :)
  · exact (congrArg Fn.vfEnable same :)
  · exact (congrArg Fn.numVfs same :)
  · exact (congrArg Fn.d3hot same :)
  · exact (congrArg Fn.flr same :)
  · exact (congrArg Fn.bme same :)

theorem fnExists_of_standings {s t : State} (h : standings t = standings s) (j : Nat) : fnExists t j = fnExists s j := by
  obtain ⟨-, enabled, count, -⟩ := standing_of_standings h (pfOf j)
  rw [fnExists, enabled, count]
  rfl

theorem domainDown_of_standings {s t : State} (h : standings t = standings s) (ports : t.ports = s.ports) (j : Nat) :
    domainDown t j = domainDown s j := by
  obtain ⟨-, -, -, d3, flr, -⟩ := standing_of_standings h j
  rw [domainDown, d3, flr, ports]
  rfl

/-- A post has written DEST, LEN and TIMEOUT. -/
def txWritten (fn : Nat) (v : Word) (s : State) : State :=
  setTx fn false (fun t => { t with dest := v.extractLsb' 16 10, len := v.extractLsb' 8 5, timeout := v.extractLsb' 0 8 }) s

/-- The message that a post sends. -/
def postedChan (fn : Nat) (v : Word) (s : State) : MboxChan :=
  { full := true, valid := true, len := (v.extractLsb' 8 5).toNat, src := fn,
    words := stampWord0 fn ((fnOf s fn).tx.data.take (v.extractLsb' 8 5).toNat) }

/-- When a post's message times out. -/
def postExpiry (v : Word) (s : State) : Option Nat :=
  if (v.extractLsb' 0 8).toNat == 0 then none else some (s.tick + msT (v.extractLsb' 0 8).toNat)

/-- What becomes of a message for a function. -/
def postTo_ (fn r : Nat) (v : Word) (s : State) : State :=
  if (v.extractLsb' 8 5).toNat < 8 ∨ 16 < (v.extractLsb' 8 5).toNat ∨ fnExists s r = false ∨ (fnOf s r).inst.state = 0 then
    endMessage fn false 5 (txWritten fn v s)
  else if (fnOf s r).inst.state = 4 ∧ domainDown s r = false then endMessage fn false 2 (txWritten fn v s)
  else if domainDown s r = true then postInst 0x0203 fn 20 (fld 255 240 r + fld 239 224 fn) (endMessage fn false 4 (txWritten fn v s))
  else fillChannel r (mboxChannel fn) (postedChan fn v s)
    (setTx fn false (fun t => { t with go := true, expire := postExpiry v s, to_ := some r }) (txWritten fn v s))

section
variable {s : State} {fn : Nat} {v : Word} (reached : bar0Open s fn = true) (go : v.getLsbD 31 = true)
include reached go

/-- R513, R515, R520: the branches of a post that is sent. -/
theorem exec_messagePost (free : (fnOf s fn).tx.go = false) (present : (fnOf s fn).inst.state ≠ 0) (steady : (fnOf s fn).inst.state ≠ 4) :
    exec (.messagePost fn false v) s = .next (match mboxReceiver fn (v.extractLsb' 16 10).toNat with
      | none => endMessage fn false 5 (txWritten fn v s)
      | some r => postTo_ fn r v s) := by
  have written : standings (txWritten fn v s) = standings s :=
    funext fun j => fnOf_setTx standing_mail j ..
  refine (if_neg (by simp [reached, go])).trans ((if_neg (by simp [free, present, steady])).trans ((if_neg Bool.false_ne_true).trans ?_))
  change (match mboxReceiver fn (v.extractLsb' 16 10).toNat with | none => _ | some r => _) = _
  cases mboxReceiver fn (v.extractLsb' 16 10).toNat with
  | none => rfl
  | some r =>
    have exists_ : fnExists (txWritten fn v s) r = fnExists s r := fnExists_of_standings written r
    have state : (fnOf (txWritten fn v s) r).inst.state = (fnOf s r).inst.state := (standing_of_standings written r).1
    have down : domainDown (txWritten fn v s) r = domainDown s r := domainDown_of_standings written rfl r
    change (if (_ || _ || !fnExists (txWritten fn v s) r || (fnOf (txWritten fn v s) r).inst.state == 0) = true then _
      else if ((fnOf (txWritten fn v s) r).inst.state == 4 && !domainDown (txWritten fn v s) r) = true then _
      else if domainDown (txWritten fn v s) r = true then _ else _) = _
    rw [exists_, state, down]
    dsimp only [postTo_]
    rw [apply_ite Host.Outcome.next, apply_ite Host.Outcome.next, apply_ite Host.Outcome.next]
    refine if_congr ?_ rfl (if_congr ?_ rfl rfl)
    · simp only [Bool.or_eq_true, decide_eq_true_eq, Bool.not_eq_true', beq_iff_eq, gt_iff_lt, or_assoc]
    · simp only [Bool.and_eq_true, Bool.not_eq_true', beq_iff_eq]

theorem exec_messagePost_busy (held : (fnOf s fn).tx.go = true ∨ (fnOf s fn).inst.state = 0 ∨ (fnOf s fn).inst.state = 4) :
    exec (.messagePost fn false v) s = .next (txWritten fn v s) := by
  refine (if_neg (by simp [reached, go])).trans (if_pos ?_)
  rcases held with out | absent | resetting
  · simp [out]
  · simp [absent]
  · simp [resetting]

end

end Sys2Proof.Machine

/-! The reads, timeouts and notices of the mailboxes (R514 to R516, R521, R507), and O45. -/
namespace Sys2Proof.Machine

/-! ## Words of a message (R514) -/

theorem length_stampWord0 (src : Nat) (ws : List Word) : (stampWord0 src ws).length = ws.length := by cases ws <;> rfl

theorem tail_stampWord0 (src : Nat) (ws : List Word) : (stampWord0 src ws).tail = ws.tail := by cases ws <;> rfl

/-- Word 0 names the sender in its low half, and keeps the rest of what was written. -/
theorem head_stampWord0 {src : Nat} {ws : List Word} {w x : Word} (stamped : (stampWord0 src ws).head? = some w) (word : ws.head? = some x) :
    w.toNat % 65536 = src % 65536 ∧ w.toNat / 65536 = x.toNat / 65536 := by
  cases ws with
  | nil => cases word
  | cons y ws =>
    cases word
    cases stamped
    rw [BitVec.toNat_ofNat]
    have := x.isLt
    omega

theorem postExpiry_eq (v : Word) (s : State) : postExpiry v s =
    if (v.extractLsb' 0 8).toNat = 0 then none else some (s.tick + 800000 * (v.extractLsb' 0 8).toNat) := by
  rw [postExpiry, msT, Nat.mul_comm]
  exact if_congr beq_iff_eq rfl rfl

/-! ## What a post leaves -/

theorem mboxReceiver_ne {fn dest r : Nat} (h : mboxReceiver fn dest = some r) : r ≠ fn := by
  unfold mboxReceiver at h
  split at h
  · split at h
    · next range =>
      cases h
      simp only [Bool.and_eq_true, decide_eq_true_eq] at range
      omega
    · cases h
  · next vf =>
    split at h
    · cases h
      rintro e
      exact vf (by rw [← e, isPf, fnNum, pfOf, Nat.mul_mod_left]; rfl)
    · cases h

theorem tx_txWritten (fn : Nat) (v : Word) (s : State) : (fnOf (txWritten fn v s) fn).tx =
    { (fnOf s fn).tx with dest := v.extractLsb' 16 10, len := v.extractLsb' 8 5, timeout := v.extractLsb' 0 8 } :=
  side_setTx_same fn false _ s

/-- A message that has ended with a result. -/
theorem message_ended (fn r : Nat) (s : State) : (fnOf (endMessage fn false r s) fn).tx.go = false ∧
    (fnOf (endMessage fn false r s) fn).tx.done = true ∧ (fnOf (endMessage fn false r s) fn).tx.result = BitVec.ofNat 4 r := by
  have side : (fnOf (endMessage fn false r s) fn).tx = _ := side_endMessage fn false r s
  rw [side]
  exact ⟨rfl, rfl, rfl⟩

theorem core_txWritten (fn : Nat) (v : Word) (s : State) : core (txWritten fn v s) = core s := rfl

/-- The state of a message that is out in the receiver's channel. -/
def messageOut (fn r : Nat) (v : Word) (s : State) : State :=
  fillChannel r (mboxChannel fn) (postedChan fn v s)
    (setTx fn false (fun t => { t with go := true, expire := postExpiry v s, to_ := some r }) (txWritten fn v s))

theorem tx_messageOut (fn r : Nat) (v : Word) (s : State) : (fnOf (messageOut fn r v s) fn).tx =
    { (fnOf s fn).tx with
      dest := v.extractLsb' 16 10, len := v.extractLsb' 8 5, timeout := v.extractLsb' 0 8
      go := true, expire := postExpiry v s, to_ := some r } := by
  have posted : (fnOf (setTx fn false (fun t => { t with go := true, expire := postExpiry v s, to_ := some r }) (txWritten fn v s)) fn).tx =
    { (fnOf (txWritten fn v s) fn).tx with go := true, expire := postExpiry v s, to_ := some r } := side_setTx_same fn false _ _
  rw [tx_txWritten] at posted
  exact (fnOf_fillChannel_keeps (g := Fn.tx) (fun _ _ _ _ => rfl) (fun _ _ => rfl) ..).trans posted

theorem chans_messageOut (fn r : Nat) (v : Word) (s : State) :
    (fnOf (messageOut fn r v s) r).chans = (fnOf s r).chans.put (mboxChannel fn) (postedChan fn v s) := by
  rw [messageOut, chans_fillChannel, chans_setTx, txWritten, chans_setTx]

theorem core_messageOut (fn r : Nat) (v : Word) (s : State) : core (messageOut fn r v s) = core s := core_fillChannel ..

/-! ## Reads (R515) -/

section
variable {s : State} {fn : Nat} (reached : bar0Open s fn = true)
include reached

theorem exec_mboxAck_secure (full : (fnOf s fn).secChan.full = true) : exec (.mboxAck fn true) s = .next (nextAnswer fn s) :=
  (if_neg (by simp [reached])).trans ((if_pos rfl).trans (congrArg Host.Outcome.next (if_pos full)))

theorem exec_mboxAck (full : ((fnOf s fn).chans.get (fnOf s fn).rxSel.toNat).full = true) : exec (.mboxAck fn false) s =
    .next (deliverAck ((fnOf s fn).chans.get (fnOf s fn).rxSel.toNat).src (setFn fn (fun f => { f with
      chans := f.chans.put (fnOf s fn).rxSel.toNat { (fnOf s fn).chans.get (fnOf s fn).rxSel.toNat with full := false } }) s)) :=
  (if_neg (by simp [reached])).trans ((if_neg Bool.false_ne_true).trans (if_neg (by simp [full])))

end

/-- The secure channel has been read. -/
def secRead (fn : Nat) (s : State) : State := setFn fn (fun f => { f with secChan := { f.secChan with full := false } }) s

theorem nextAnswer_nil {s : State} {fn : Nat} (none : (s.sec.ports.get (portOf fn)).answers = []) : nextAnswer fn s = secRead fn s := by
  change (match (s.sec.ports.get (portOf fn)).answers with | [] => secRead fn s | ws :: rest => _) = _
  rw [none]

theorem nextAnswer_cons {s : State} {fn : Nat} {ws : List Word} {rest : List (List Word)}
    (waits : (s.sec.ports.get (portOf fn)).answers = ws :: rest) :
    nextAnswer fn s = postSecure fn ws (setAnswers fn (fun _ => rest) (secRead fn s)) := by
  change (match (s.sec.ports.get (portOf fn)).answers with | [] => _ | ws :: rest => postSecure fn ws (setAnswers fn (fun _ => rest) (secRead fn s))) = _
  rw [waits]

@[simp] theorem core_postSecure (fn : Nat) (ws : List Word) (s : State) : core (postSecure fn ws s) = core s := by
  unfold postSecure
  dsimp only
  split <;> simp

theorem secChan_postSecure (fn : Nat) (ws : List Word) (s : State) : (fnOf (postSecure fn ws s) fn).secChan =
    { full := true, valid := true, len := ws.length, src := 0xFFFF, words := ws } := by
  have posted (c : MboxChan) : (fnOf (setFn fn (fun f => { f with secChan := c }) s) fn).secChan = c :=
    congrArg Fn.secChan (fnOf_setFn_same ..)
  unfold postSecure
  dsimp only
  split
  · exact (fnOf_raiseVector (g := Fn.secChan) (fun _ _ _ _ => rfl) fn ..).trans (posted _)
  · exact posted _

theorem chans_deliverAck (src : Nat) (s : State) (j : Nat) : (fnOf (deliverAck src s) j).chans = (fnOf s j).chans := by
  unfold deliverAck
  split
  · rfl
  · exact chans_endMessage ..

theorem core_deliverAck (src : Nat) (s : State) : core (deliverAck src s) = core s := by
  unfold deliverAck
  split <;> simp

/-! ## Timeouts (R516) -/

theorem exec_mailboxTimeout_early {s : State} {fn d : Nat} (runs : (fnOf s fn).tx.expire = some d)
    (early : s.tick < d ∨ (fnOf s fn).tx.go = false) : exec (.mailboxTimeout fn false) s = .next s := by
  change (match (fnOf s fn).tx.expire with | none => Host.Outcome.next s | some d => _) = _
  rw [runs]
  exact if_pos (by simpa using early.symm)

/-- The message of a sender is withdrawn from the channel it is in. -/
def chanWithdrawn (fn r : Nat) (s : State) : State :=
  setFn r (fun g => { g with chans := g.chans.upd (mboxChannel fn) fun c => { c with full := false, valid := false } }) s

theorem exec_mailboxTimeout {s : State} {fn d r : Nat} (runs : (fnOf s fn).tx.expire = some d) (out : (fnOf s fn).tx.go = true)
    (due : d ≤ s.tick) (receiver : (fnOf s fn).tx.to_ = some r) :
    exec (.mailboxTimeout fn false) s = .next (endMessage fn false 3 (chanWithdrawn fn r s)) := by
  change (match (fnOf s fn).tx.expire with | none => Host.Outcome.next s | some d => _) = _
  rw [runs]
  refine (if_neg (by simp [out, due])).trans ((if_neg Bool.false_ne_true).trans ?_)
  change Host.Outcome.next (endMessage fn false 3 (match (fnOf s fn).tx.to_ with | some r => chanWithdrawn fn r s | none => s)) = _
  rw [receiver]

theorem exec_mailboxTimeout_secure {s : State} {fn d : Nat} (runs : (fnOf s fn).secTx.expire = some d) (out : (fnOf s fn).secTx.go = true)
    (due : d ≤ s.tick) : exec (.mailboxTimeout fn true) s =
      .next (endMessage fn true 3 (setSecPort (portOf fn) (fun p => { p with request := none }) s)) := by
  change (match (fnOf s fn).secTx.expire with | none => Host.Outcome.next s | some d => _) = _
  rw [runs]
  exact (if_neg (by simp [out, due])).trans (if_pos rfl)

/-! ## Notices (R521) and domains that are down (R507) -/

theorem exec_mboxNoticePost {s : State} {fn : Nat} {ws : List Word} {rest : List (List Word)} (held : (fnOf s fn).notices = ws :: rest)
    (free : ((fnOf s fn).chans.get 0).full = false) (ready : s.fw.ready = true) : exec (.mboxNoticePost fn) s =
      .next (fillChannel fn 0 { full := true, valid := true, len := 8, src := 0xFFFF, words := ws }
        (setFn fn (fun f => { f with notices := rest }) s)) := by
  change (match (fnOf s fn).notices with | [] => Host.Outcome.next s | ws :: rest => _) = _
  rw [held]
  exact if_neg (by simp [free, ready])

theorem exec_mboxNoticePost_idle {s : State} {fn : Nat}
    (idle : (fnOf s fn).notices = [] ∨ ((fnOf s fn).chans.get 0).full = true ∨ s.fw.ready = false) :
    exec (.mboxNoticePost fn) s = .next s := by
  change (match (fnOf s fn).notices with | [] => Host.Outcome.next s | ws :: rest => _) = _
  cases held : (fnOf s fn).notices with
  | nil => rfl
  | cons ws rest => exact if_pos (by simpa [held] using idle)

/-- An access to a mailbox that is down is aborted, or discarded. -/
def accessAborted (fn : Nat) (w : Bool) (s : State) : State :=
  if w then s else emit (.cplAbort fn) (setFn fn (fun f => { f with aer := f.aer ++ [.completerAbort] }) s)

/-- It ends with DOMAIN_DOWN, unless a message is out. -/
def accessEnded (fn : Nat) (w : Bool) (s : State) : State :=
  if (fnOf (accessAborted fn w s) fn).tx.go then accessAborted fn w s else endMessage fn false 4 (accessAborted fn w s)

theorem exec_mboxDomainDownAccess {s : State} {fn : Nat} (w : Bool) (exists_ : fnExists s fn = true) (down : domainDown s fn = true) :
    exec (.mboxDomainDownAccess fn w) s =
      .next (postInst 0x0203 fn 20 (fld 255 240 fn + fld 239 224 fn + fld 223 223 1) (accessEnded fn w s)) :=
  if_neg (by simp [exists_, down])

theorem fnOf_accessAborted {α : Type} {g : Fn → α} (blind : ∀ (f : Fn) a, g { f with aer := a } = g f) (fn : Nat) (w : Bool) (s : State)
    (j : Nat) : g (fnOf (accessAborted fn w s) j) = g (fnOf s j) := by
  cases w
  · exact fnOf_setFn_keeps (fun f => blind f _) ..
  · rfl

theorem Grows.endMessage {s t : State} (h : Grows s t) (i : Nat) (sec : Bool) (r : Nat) : Grows s (endMessage i sec r t) := by
  unfold Machine.endMessage
  dsimp only
  split
  · exact Grows.raiseVector (h.of_out (u := setTx i sec _ t) rfl) ..
  · exact h.of_out rfl

/-- Settles O45: each row by its equation, and what a message that ends or is out leaves of transmit sides and channels. -/
theorem messagesArePostedReadAndWithdrawn : Obligations.MessagesArePostedReadAndWithdrawn := by
  unfold Obligations.MessagesArePostedReadAndWithdrawn
  refine ⟨?post, fun s fn v reached go held => exec_messagePost_busy reached go held, ?closed, ?unread, ?secure, ?read, ?timeout,
    fun s fn d runs early => exec_mailboxTimeout_early runs early, ?secureTimeout, ?notice, ?up, fun s fn => exec_mboxNoticePost_idle, ?down⟩
  case post =>
    intro s fn v reached go free present steady
    rw [exec_messagePost reached go free present steady]
    cases receiver : mboxReceiver fn (v.extractLsb' 16 10).toNat with
    | none =>
      obtain ⟨ended, done, result⟩ := message_ended fn 5 (txWritten fn v s)
      exact ⟨_, rfl, ended, done, result, core_endMessage ..⟩
    | some r =>
      refine ⟨fun bad => ?_, fun lo hi exists_ there down => ?_, fun lo hi exists_ there resetting up => ?_,
        fun lo hi exists_ there ready up data => ?_⟩
      · obtain ⟨ended, done, result⟩ := message_ended fn 5 (txWritten fn v s)
        exact ⟨_, congrArg Host.Outcome.next (if_pos bad), ended, done, result, core_endMessage ..⟩
      all_goals
        have valid : ¬ ((v.extractLsb' 8 5).toNat < 8 ∨ 16 < (v.extractLsb' 8 5).toNat ∨ fnExists s r = false ∨
            (fnOf s r).inst.state = 0) := by
          rintro (short | long | absent | gone)
          · exact lo.not_gt short
          · exact hi.not_gt long
          · simp [absent] at exists_
          · exact there gone
      · obtain ⟨ended, done, result⟩ := message_ended fn 4 (txWritten fn v s)
        refine ⟨_, congrArg Host.Outcome.next ((if_neg valid).trans ((if_neg (by simp [down])).trans (if_pos down))), ?_⟩
        rw [fnOf_postInst (g := Fn.tx) (fun _ _ _ _ _ _ _ _ _ _ => rfl)]
        exact ⟨ended, done, result, by simp [core_txWritten]⟩
      · obtain ⟨ended, done, result⟩ := message_ended fn 2 (txWritten fn v s)
        exact ⟨_, congrArg Host.Outcome.next ((if_neg valid).trans (if_pos ⟨resetting, up⟩)), ended, done, result, core_endMessage ..⟩
      · have tx := tx_messageOut fn r v s
        refine ⟨messageOut fn r v s, postedChan fn v s, congrArg Host.Outcome.next ((if_neg valid).trans ((if_neg (by simp [ready])).trans
          (if_neg (by simp [up])))), ?_, rfl, rfl, rfl, rfl, ?_, tail_stampWord0 .., fun w x stamped word => ?_, ?_, ?_, ?_,
          fun k other => ?_, core_messageOut ..⟩
        · rw [chans_messageOut]
          exact SMap.get_put_same ..
        · rw [postedChan, length_stampWord0, List.length_take, data]
          exact min_eq_left hi
        · refine head_stampWord0 stamped ?_
          rw [List.head?_take, if_neg (by omega)]
          exact word
        · rw [tx]
        · rw [tx]
        · rw [tx]
          exact postExpiry_eq v s
        · rw [chans_messageOut]
          exact SMap.get_put_ne _ _ other.symm
  case closed =>
    rintro s fn sec v closed
    refine if_pos ?_
    rcases closed with shut | ⟨sec, vf⟩ | off
    · simp [shut]
    · simp [sec, vf]
    · rw [off]
      simp
  case unread =>
    rintro s fn (shut | empty)
    · exact if_pos (by simp [shut])
    · exact ite_eq_left_iff.2 fun _ => (if_neg Bool.false_ne_true).trans (if_pos (by simp [empty]))
  case secure =>
    intro s fn reached full
    refine ⟨_, exec_mboxAck_secure reached full, ?_⟩
    split
    · next none =>
      rw [nextAnswer_nil none]
      exact ⟨congrArg Fn.secChan (fnOf_setFn_same ..), rfl⟩
    · next ws rest waits =>
      have kept := core_postSecure fn ws (setAnswers fn (fun _ => rest) (secRead fn s))
      rw [nextAnswer_cons waits]
      refine ⟨secChan_postSecure .., ?_, congrArg (fun u : State => { u with sec := s.sec }) kept⟩
      rw [sec_of_core kept]
      exact congrArg SecPort.answers (SMap.get_upd_same s.sec.ports (portOf fn) fun p => { p with answers := rest })
  case read =>
    rintro s fn c reached rfl full
    refine ⟨_, exec_mboxAck reached full, ?_, fun sender => ?_, fun k other => ?_, core_deliverAck ..⟩
    · rw [chans_deliverAck, fnOf_setFn_same]
      exact SMap.get_put_same ..
    · rw [deliverAck, if_neg (by simpa using sender)]
      generalize ((fnOf s fn).chans.get (fnOf s fn).rxSel.toNat).src = src
      generalize setFn fn _ s = u
      have side : (fnOf (endMessage src false 1 u) src).tx = _ := side_endMessage src false 1 u
      rw [side]
      exact ⟨rfl, rfl, rfl, rfl⟩
    · rw [chans_deliverAck, fnOf_setFn_same]
      exact SMap.get_put_ne _ _ other.symm
  case timeout =>
    intro s fn d r runs out due receiver
    obtain ⟨ended, done, result⟩ := message_ended fn 3 (chanWithdrawn fn r s)
    have chan : ((fnOf (endMessage fn false 3 (chanWithdrawn fn r s)) r).chans.get (mboxChannel fn)) =
        { (fnOf s r).chans.get (mboxChannel fn) with full := false, valid := false } := by
      rw [chans_endMessage, chanWithdrawn, fnOf_setFn_same]
      exact SMap.get_upd_same (fnOf s r).chans (mboxChannel fn) fun c => { c with full := false, valid := false }
    refine ⟨_, exec_mailboxTimeout runs out due receiver, ended, done, result, ?_, ?_, core_endMessage ..⟩
    · rw [chan]
    · rw [chan]
  case secureTimeout =>
    intro s fn d runs out due
    have side : (fnOf (endMessage fn true 3 (setSecPort (portOf fn) (fun p => { p with request := none }) s)) fn).secTx = _ :=
      side_endMessage fn true 3 _
    refine ⟨_, exec_mailboxTimeout_secure runs out due, by rw [side], by rw [side]; rfl, ?_⟩
    rw [sec_of_core (core_endMessage ..)]
    exact congrArg SecPort.request (secPort_setSecPort_same (portOf fn) (fun p => { p with request := none }) s)
  case notice =>
    intro s fn ws rest held free ready
    refine ⟨_, exec_mboxNoticePost held free ready, ?_, ?_, core_fillChannel ..⟩
    · exact (fnOf_fillChannel_keeps (g := Fn.notices) (fun _ _ _ _ => rfl) (fun _ _ => rfl) ..).trans
        (congrArg Fn.notices (fnOf_setFn_same ..))
    · rw [chans_fillChannel]
      exact SMap.get_put_same ..
  case up =>
    rintro s fn w closed
    exact if_pos (by simpa using closed)
  case down =>
    intro s fn w exists_ down
    have aborted : (fnOf (accessAborted fn w s) fn).tx = (fnOf s fn).tx := fnOf_accessAborted (g := Fn.tx) (fun _ _ => rfl) ..
    have tx (u : State) : (fnOf (postInst 0x0203 fn 20 (fld 255 240 fn + fld 239 224 fn + fld 223 223 1) u) fn).tx = (fnOf u fn).tx :=
      fnOf_postInst (g := Fn.tx) (fun _ _ _ _ _ _ _ _ _ _ => rfl) ..
    have chans (u : State) : (fnOf (postInst 0x0203 fn 20 (fld 255 240 fn + fld 239 224 fn + fld 223 223 1) u) fn).chans =
      (fnOf u fn).chans := fnOf_postInst (g := Fn.chans) (fun _ _ _ _ _ _ _ _ _ _ => rfl) ..
    have chansAborted : (fnOf (accessAborted fn w s) fn).chans = (fnOf s fn).chans :=
      fnOf_accessAborted (g := Fn.chans) (fun _ _ => rfl) ..
    have coreAborted : core (accessAborted fn w s) = core s := by cases w <;> rfl
    refine ⟨_, exec_mboxDomainDownAccess w exists_ down, ?_⟩
    rw [tx, chans, core_postInst, accessEnded, aborted]
    split
    · next out =>
      rw [aborted]
      refine ⟨coreAborted, rfl, fun idle => absurd (out.symm.trans idle) (by decide), fun _ => rfl, chansAborted, ?_⟩
      rintro rfl
      exact ((Grows.refl _).postInst ..).mem (List.mem_append_right _ (List.mem_singleton_self _))
    · next idle =>
      obtain ⟨ended, done, result⟩ := message_ended fn 4 (accessAborted fn w s)
      rw [Bool.not_eq_true] at idle
      refine ⟨(core_endMessage ..).trans coreAborted, ended.trans idle.symm, fun _ => ⟨result, done⟩, fun out => ?_,
        (chans_endMessage ..).trans chansAborted, ?_⟩
      · exact absurd (idle.symm.trans out) (by decide)
      · rintro rfl
        exact (((Grows.refl _).endMessage ..).postInst ..).mem (List.mem_append_right _ (List.mem_singleton_self _))

end Sys2Proof.Machine

/-! Requests of a host: BAR2, bad accesses to BAR0, configuration space (R132, R457 to R459, R463, R492, R493). -/
namespace Sys2Proof.Machine

/-! ## BAR2 (R492, R493) -/

/-- An access of `n` bytes at `w` lies in an open window, and the window permits it. -/
def windowPermits (e : WinEntry) (w n : Nat) (right : Bool) : Prop := e.log2 ≠ 0 ∧ w + n ≤ 2 ^ e.log2 ∧ right = true

theorem windowPermits_iff (e : WinEntry) (w n : Nat) (right : Bool) :
    (e.log2 == 0 || decide (w + n > 2 ^ e.log2) || !right) = true ↔ ¬ windowPermits e w n right := by
  simp only [windowPermits, Bool.or_eq_true, beq_iff_eq, decide_eq_true_eq, Bool.not_eq_true', gt_iff_lt, not_and_or, not_not, not_le,
    Bool.not_eq_true, or_assoc]

/-- The window that an offset into BAR2 names. -/
def windowOf (s : State) (port : Fin 8) (off : Nat) : WinEntry := (fnOf s (port * 4096)).winActive.get (off / 2 ^ 28)

/-- A read is aborted. -/
def readAborted (pf : Nat) (s : State) : State :=
  emit (.cplAbort pf) (setFn pf (fun f => { f with aer := f.aer ++ [.completerAbort] }) s)

section
variable {s : State} {port : Fin 8} (off : Nat) (reached : bar0Open s (port * 4096) = true)
include reached

theorem exec_bar2Read_permitted {n : Nat} (permits : windowPermits (windowOf s port off) (off % 2 ^ 28) n (windowOf s port off).rd) :
    exec (.bar2Request port off (.read n)) s = .next (emit (.cpl (port * 4096) n
      (ofBytes (Memory.readAll s.hbm ((windowOf s port off).base.toNat + off % 2 ^ 28) n))) s) :=
  (if_neg (by simp [reached])).trans (if_neg fun bad => (windowPermits_iff ..).1 bad permits)

theorem exec_bar2Read_aborted {n : Nat} (refused : ¬ windowPermits (windowOf s port off) (off % 2 ^ 28) n (windowOf s port off).rd) :
    exec (.bar2Request port off (.read n)) s = .next (readAborted (port * 4096) s) :=
  (if_neg (by simp [reached])).trans (if_pos ((windowPermits_iff ..).2 refused))

theorem exec_bar2Write_permitted {bs : List Byte}
    (permits : windowPermits (windowOf s port off) (off % 2 ^ 28) bs.length (windowOf s port off).wr) :
    exec (.bar2Request port off (.write bs)) s =
      .next { s with hbm := Memory.writeAll s.hbm ((windowOf s port off).base.toNat + off % 2 ^ 28) bs } :=
  (if_neg (by simp [reached])).trans (if_neg fun bad => (windowPermits_iff ..).1 bad permits)

theorem exec_bar2Write_dropped {bs : List Byte}
    (refused : ¬ windowPermits (windowOf s port off) (off % 2 ^ 28) bs.length (windowOf s port off).wr) :
    exec (.bar2Request port off (.write bs)) s = .next (setPort port (fun p => { p with winDrop := p.winDrop.count bs.length }) s) :=
  (if_neg (by simp [reached])).trans (if_pos ((windowPermits_iff ..).2 refused))

end

/-! ## BAR0 (R463) -/

/-- A bad access to BAR0 is logged, and a read is answered with ones. -/
theorem exec_bar0BadAccess {s : State} {fn : Nat} (w : Bool) (reached : bar0Open s fn = true) :
    ∃ t, exec (.bar0BadAccess fn w) s = .next t ∧ t.out = s.out ++ (if w = true then [] else [.cplOnes fn]) ∧
      (fnOf t fn).aer = (fnOf s fn).aer ++ [.unsupportedRequest] ∧ t = { s with fns := t.fns, out := t.out } := by
  have logged : (fnOf (setFn fn (fun f => { f with aer := f.aer ++ [.unsupportedRequest] }) s) fn).aer =
      (fnOf s fn).aer ++ [.unsupportedRequest] := congrArg Fn.aer (fnOf_setFn_same ..)
  refine ⟨_, if_neg (by simp [reached]), ?_⟩
  cases w
  · exact ⟨rfl, logged, rfl⟩
  · exact ⟨(List.append_nil _).symm, logged, rfl⟩

/-! ## Configuration space (R132, R459) -/

theorem core_sendPending (fn : Nat) (s : State) : core (sendPending fn s) = core s := by
  rw [sendPending_eq]
  split <;> rfl

/-- What sending the pending vectors leaves of a view that does not look at them. -/
theorem fnOf_sendPending {α : Type} {g : Fn → α} (blind : ∀ (f : Fn) p, g { f with msixPending := p } = g f) (fn : Nat) (s : State) (j : Nat) :
    g (fnOf (sendPending fn s) j) = g (fnOf s j) := by
  rw [sendPending_eq]
  split
  · exact fnOf_setFn_keeps (f := Fn.sent) (fun f => blind f _) fn j s
  · rfl

theorem core_cfgWrite (fn off : Nat) (v : Word) (s : State) : core (cfgWrite fn off v s) = core s := by
  unfold cfgWrite
  dsimp only
  repeat' split
  all_goals simp

/-- A configuration write leaves bus mastering, what binds the function and the queues. -/
theorem fnOf_cfgWrite {α : Type} {g : Fn → α} (blind : ∀ x y : Fn, x.bme = y.bme → x.inst = y.inst → x.slots = y.slots → g x = g y)
    (fn off : Nat) (v : Word) (s : State) (j : Nat) : g (fnOf (cfgWrite fn off v s) j) = g (fnOf s j) := by
  unfold cfgWrite
  dsimp only
  split
  · exact fnOf_setFnIntx (fun _ => by exact blind _ _ rfl rfl rfl) ..
  split
  · exact fnOf_setFn_keeps (fun _ => by exact blind _ _ rfl rfl rfl) ..
  split
  · exact fnOf_setFn_keeps (fun _ => by exact blind _ _ rfl rfl rfl) ..
  split
  · exact fnOf_setFnIntx (fun _ => by exact blind _ _ rfl rfl rfl) ..
  split
  · exact fnOf_setFn_keeps (fun _ => by exact blind _ _ rfl rfl rfl) ..
  split
  · exact fnOf_setFn_keeps (fun _ => by exact blind _ _ rfl rfl rfl) ..
  · rfl

theorem fnOf_setFnIntx_same (fn : Nat) (f : Fn → Fn) (s : State) : fnOf (setFnIntx fn f s) fn = f (fnOf s fn) := by
  unfold setFnIntx
  dsimp only
  split <;> exact fnOf_setFn_same ..

section
variable {s : State} {fn : Nat} (up : (s.ports.get (portOf fn)).linkUp = true)
include up

theorem exec_configRequest_absent (absent : fnExists s fn = false) (r : CfgReq) : exec (.configRequest fn r) s = .next (emit (.cplOnes fn) s) :=
  (if_neg (by simp [up])).trans (if_pos (by simp [absent]))

theorem exec_configRequest_retry (exists_ : fnExists s fn = true)
    (not_ : (s.fw.ready = false ∧ s.fw.recovery = false ∧ ¬ (s.kiln.holding = true ∧ fn = 0) ∧ s.sec.lc ≠ 4 ∧ s.pwr.stage ≠ 11) ∨
      (fnOf s fn).flr ≠ none) (r : CfgReq) : exec (.configRequest fn r) s = .next (emit (.cplRetry fn) s) := by
  refine (if_neg (by simp [up])).trans ((if_neg (by simp [exists_])).trans (if_pos ?_))
  rcases not_ with ⟨halted, off, free, lc, stage⟩ | resets
  · simp only [Bool.or_eq_true, Bool.and_eq_true, Bool.not_eq_true', bne_iff_ne, Bool.and_eq_false_iff, beq_eq_false_iff_ne]
    rw [not_and_or, Bool.not_eq_true] at free
    exact .inl ⟨⟨⟨⟨halted, off⟩, free⟩, lc⟩, stage⟩
  · rw [Option.isSome_iff_ne_none.2 resets, Bool.or_true]

theorem exec_configRequest (exists_ : fnExists s fn = true) (idle : (fnOf s fn).flr = none) (ready : s.fw.ready = true) (r : CfgReq) :
    exec (.configRequest fn r) s = match r with
      | .read off => .next (emit (.cpl fn 4 (cfgRead s fn off)) s)
      | .write off v => .next (sendPending fn (cfgWrite fn off v s)) :=
  (if_neg (by simp [up])).trans ((if_neg (by simp [exists_])).trans (if_neg (by simp [idle, ready])))

end

/-- What a configuration write sets, and what it leaves. -/
theorem cfgWritten (fn off : Nat) (v : Word) (s : State) :
    core (sendPending fn (cfgWrite fn off v s)) = core s ∧
    (off = 4 → (fnOf (sendPending fn (cfgWrite fn off v s)) fn).memEn = v.getLsbD 1 ∧
      (fnOf (sendPending fn (cfgWrite fn off v s)) fn).intxDisable = v.getLsbD 10) ∧
    (off = 0x50 → (fnOf (sendPending fn (cfgWrite fn off v s)) fn).msixEn = v.getLsbD 31 ∧
      (fnOf (sendPending fn (cfgWrite fn off v s)) fn).msixMaskAll = v.getLsbD 30) ∧
    (fnOf (sendPending fn (cfgWrite fn off v s)) fn).bme = (fnOf s fn).bme ∧
    (fnOf (sendPending fn (cfgWrite fn off v s)) fn).inst = (fnOf s fn).inst ∧
    (fnOf (sendPending fn (cfgWrite fn off v s)) fn).slots = (fnOf s fn).slots := by
  refine ⟨(core_sendPending ..).trans (core_cfgWrite ..), ?_, ?_, ?_, ?_, ?_⟩
  · rintro rfl
    rw [fnOf_sendPending (g := Fn.memEn) (fun _ _ => rfl), fnOf_sendPending (g := Fn.intxDisable) (fun _ _ => rfl)]
    change (fnOf (setFnIntx fn _ s) fn).memEn = _ ∧ (fnOf (setFnIntx fn _ s) fn).intxDisable = _
    rw [fnOf_setFnIntx_same]
    exact ⟨rfl, rfl⟩
  · rintro rfl
    have written : cfgWrite fn 0x50 v s = setFnIntx fn (fun f => { f with msixMaskAll := v.getLsbD 30, msixEn := v.getLsbD 31 }) s := by
      simp [cfgWrite]
    rw [fnOf_sendPending (g := Fn.msixEn) (fun _ _ => rfl), fnOf_sendPending (g := Fn.msixMaskAll) (fun _ _ => rfl), written,
      fnOf_setFnIntx_same]
    exact ⟨rfl, rfl⟩
  · exact (fnOf_sendPending (g := Fn.bme) (fun _ _ => rfl) ..).trans (fnOf_cfgWrite (g := Fn.bme) (fun _ _ h _ _ => h) ..)
  · exact (fnOf_sendPending (g := Fn.inst) (fun _ _ => rfl) ..).trans (fnOf_cfgWrite (g := Fn.inst) (fun _ _ _ h _ => h) ..)
  · exact (fnOf_sendPending (g := Fn.slots) (fun _ _ => rfl) ..).trans (fnOf_cfgWrite (g := Fn.slots) (fun _ _ _ _ h => h) ..)

end Sys2Proof.Machine

/-! Bus mastering (R482, R483): the reads, queues and rings that its loss ends, and the vectors that its return sends. -/
namespace Sys2Proof.Machine

/-! ## What leaves the host ports but for counts of discarded writes -/

/-- A host port without its count of writes discarded without bus mastering. -/
def PcPort.link (p : PcPort) : PcPort := { p with bmeDrop := {} }

def links (s : State) : Nat → PcPort := fun k => (s.ports.get k).link

theorem links_setPort {f : PcPort → PcPort} (h : ∀ p, (f p).link = p.link) (i : Nat) (s : State) : links (setPort i f s) = links s := by
  funext k
  by_cases e : i = k
  · rw [← e]
    exact (congrArg PcPort.link (SMap.get_upd_same ..)).trans (h _)
  · exact congrArg PcPort.link (SMap.get_upd_ne _ _ e)

theorem links_of_ports {s t : State} (h : t.ports = s.ports) : links t = links s := by
  unfold links
  rw [h]

theorem links_foldl {α : Type} {f : State → α → State} (h : ∀ s a, links (f s a) = links s) (l : List α) (s : State) :
    links (l.foldl f s) = links s := by
  induction l generalizing s with
  | nil => rfl
  | cons a l ih => rw [List.foldl_cons, ih, h]

@[simp] theorem links_setFn (i : Nat) (f : Fn → Fn) (s : State) : links (setFn i f s) = links s := rfl
@[simp] theorem links_emit (o : Output) (s : State) : links (emit o s) = links s := rfl

@[simp] theorem links_hostWrite (i a n d : Nat) (ro : Bool) (s : State) : links (hostWrite i a n d ro s) = links s := by
  unfold hostWrite
  split
  · unfold markDirty
    split <;> rfl
  · exact links_setPort (f := fun p => { p with bmeDrop := p.bmeDrop.count n }) (fun _ => rfl) ..

theorem setFnIntx_ports (i : Nat) (f : Fn → Fn) (s : State) : (setFnIntx i f s).ports = s.ports := by
  unfold setFnIntx
  dsimp only
  split <;> rfl

theorem raiseVector_ports (i v : Nat) (s : State) : (raiseVector i v s).ports = s.ports := by
  unfold raiseVector
  dsimp only
  split
  · rfl
  split
  · split
    · exact setFnIntx_ports ..
    · rfl
  split
  · rfl
  split <;> rfl

@[simp] theorem links_raiseVector (i v : Nat) (s : State) : links (raiseVector i v s) = links s := links_of_ports (raiseVector_ports ..)

@[simp] theorem links_writeEvent (pf rec : Nat) (s : State) : links (writeEvent pf rec s) = links s := by simp [writeEvent]

@[simp] theorem links_deliverEvent (pf rec : Nat) (s : State) : links (deliverEvent pf rec s) = links s := by
  unfold deliverEvent
  dsimp only
  repeat' split
  all_goals simp

@[simp] theorem links_postTo (c i d : Nat) (l : List Nat) (s : State) : links (postTo c i d l s) = links s := by
  unfold postTo
  generalize eventRecord s c (some i) 20 d = rec
  induction l generalizing s with
  | nil => rfl
  | cons pf l ih => exact (ih _).trans (links_deliverEvent ..)

@[simp] theorem links_txDone (x : Pkt) (s : State) : links (txDone x s) = links s := by
  unfold txDone
  dsimp only
  split
  · rfl
  next t _ =>
  have counted : links (if t.lost then setPort (portOf t.fn) (fun p => { p with bmeDrop := p.bmeDrop.count 32 }) s else s) = links s := by
    split
    · exact links_setPort (f := fun p => { p with bmeDrop := p.bmeDrop.count 32 }) (fun _ => rfl) ..
    · rfl
  split
  · rfl
  split <;> exact counted

@[simp] theorem links_removePkt (p : Nat) (s : State) : links (removePkt p s) = links s := by
  obtain ⟨_, _, e⟩ := evalOf_eq (pkt s p) (txDone (pkt s p) { s with pkts := s.pkts.del p })
  rw [removePkt, e]
  exact links_txDone ..

@[simp] theorem links_dropLeafIf (n : Nat) (f : Pkt → Bool) (s : State) : links (dropLeafIf n f s) = links s := by
  unfold dropLeafIf
  dsimp only
  obtain ⟨_, e⟩ := placePath_eq n (((leafQueue s n).filter fun p => f (pkt s p)).foldl (fun s p => removePkt p s)
    { s with tm := { s.tm with leafQ := s.tm.leafQ.upd n fun q => q.filter fun p =>
      !((leafQueue s n).filter fun p => f (pkt s p)).contains p } })
  rw [e]
  exact links_foldl (fun s p => links_removePkt p s) ..

@[simp] theorem links_dropLeaves (i : Nat) (s : State) : links (dropLeaves i s) = links s :=
  links_foldl (fun s k => links_dropLeafIf (kLeaf (queueOf s i k)) (fun x => x.tx.isSome) s) _ s

theorem abandonRecord_ports (silent : Bool) (n : Nat) (s : State) : (abandonRecord silent n s).ports = s.ports := by
  unfold abandonRecord
  dsimp only
  repeat' split
  all_goals rfl

theorem setObj_ports (n : Nat) (f : Obj → Obj) (s : State) : (setObj n f s).ports = s.ports := by
  unfold setObj
  split <;> rfl

@[simp] theorem links_errObjectsOf (i : Nat) (s : State) : links (errObjectsOf i s) = links s :=
  links_foldl (fun s n => (links_of_ports ((setObj_ports ..).trans (abandonRecord_ports true n (dropFormed n s)))).trans
    (links_dropLeafIf (kLeaf (objOf s n).sq) (fun x => x.origin == some n) s)) _ s

end Sys2Proof.Machine

/-! The loss of bus mastering and its return (R482, R483). -/
namespace Sys2Proof.Machine

/-! ## Which queues are in use -/

/-- Whether, and how, the queues of every function are in use. -/
def queueStates (s : State) : Nat → Nat → Nat := fun j k => ((fnOf s j).slots.get k).state

theorem queueStates_of_bareFns {s t : State} (h : bareFns t = bareFns s) : queueStates t = queueStates s :=
  funext fun j => funext fun k => (congrArg QSlot.state (slot_of_bareFns h j k) :)

theorem queueStates_of_fns {s t : State} (h : t.fns = s.fns) : queueStates t = queueStates s := queueStates_of_bareFns (bareFns_of_fns h)

theorem queueStates_setFn {f : Fn → Fn} (h : ∀ x k, ((f x).slots.get k).state = (x.slots.get k).state) (i : Nat) (s : State) :
    queueStates (setFn i f s) = queueStates s :=
  funext fun j => funext fun k => fnOf_setFn_keeps (g := fun x => (x.slots.get k).state) (fun x => h x k) i j s

theorem freeHeld_fns (e : CplEntry) (s : State) : (freeHeld e s).fns = s.fns := by
  unfold freeHeld
  split
  · next p _ =>
    obtain ⟨_, _, eq⟩ := evalOf_eq (pkt s p) { s with pkts := s.pkts.del p }
    rw [eq]
  · rfl

theorem freeStamps_fns (l : List CplEntry) (s : State) : (freeStamps l s).fns = s.fns := by
  unfold freeStamps
  induction l generalizing s with
  | nil => rfl
  | cons e l ih =>
    rw [List.foldl_cons, ih, freeHeld_fns]
    split <;> rfl

/-- A queue whose work is discarded. -/
def QSlot.emptied (q : QSlot) : QSlot :=
  { q with waiting := [], txOrder := [], txFetched := q.txCi, rxTaken := q.rxCi, txReady := false, rxReady := false }

theorem SMap.state_mapAll_emptied (m : SMap QSlot) (k : Nat) : ((m.mapAll fun _ => QSlot.emptied).get k).state = (m.get k).state :=
  (congrArg QSlot.state (SMap.get_mapAll (f := fun _ => QSlot.emptied) (fun _ => rfl) m k) :)

@[simp] theorem queueStates_discardWork (i : Nat) (s : State) : queueStates (discardWork i s) = queueStates s := by
  unfold discardWork
  dsimp only
  rw [queueStates_of_bareFns (bareFns_errObjectsOf ..), queueStates_setFn (fun x => SMap.state_mapAll_emptied x.slots)]
  exact (queueStates_of_bareFns (bareFns_dropLeaves ..)).trans (queueStates_of_fns (freeStamps_fns (waitingOf s i) s))

@[simp] theorem standings_discardWork (i : Nat) (s : State) : standings (discardWork i s) = standings s := by
  unfold discardWork
  dsimp only
  rw [standings_errObjectsOf]
  refine (standings_setFn (fun _ => by rfl) i _).trans ?_
  exact (standings_dropLeaves ..).trans (standings_freeStamps (waitingOf s i) s)

/-! ## Reads for commands -/

/-- What an answer of the trust region leaves of a view of functions. -/
theorem fnOf_answer {α : Type} {g : Fn → α} (vec : VectorBlind g) (mail : MailBlind g) (h : Nat) (ws : List Word) (st : Nat) (s : State)
    (j : Nat) : g (fnOf (answer h ws st s) j) = g (fnOf s j) := by
  unfold answer secResult fillSecure
  split
  · rfl
  · unfold postSecure
    dsimp only
    split
    · exact (fnOf_raiseVector vec j ..).trans (fnOf_setMail mail j (fun _ => by rfl) ..)
    · exact fnOf_setMail mail j (fun _ => by rfl) ..

theorem fnOf_commandReadsLost {α : Type} {g : Fn → α} (vec : VectorBlind g) (mail : MailBlind g)
    (rings : ∀ (f : Fn) r, g { f with cmd := r } = g f ∧ g { f with sec := r } = g f) (fn : Nat) (s : State) (j : Nat) :
    g (fnOf (commandReadsLost fn s) j) = g (fnOf s j) := by
  have ring (sec : Bool) (u : State) : g (fnOf (if awaiting u fn (.command sec) then
      setRing fn sec (fun r => { r with exec := none, err := true, errCode := 4 }) u else u) j) = g (fnOf u j) := by
    split
    · cases sec
      · exact fnOf_setFn_keeps (fun f => (rings f _).1) ..
      · exact fnOf_setFn_keeps (fun f => (rings f _).2) ..
    · rfl
  unfold commandReadsLost
  refine (ring true _).trans ((ring false _).trans ?_)
  split
  · unfold secureReadFailed
    split
    · exact fnOf_answer vec mail ..
    · rfl
  · rfl

/-! ## Bus mastering cleared -/

/-- A function without bus mastering: its rings stop, and `lost` says whether it had work. -/
def Fn.unmastered (lost : Bool) (f : Fn) : Fn :=
  { f with
    bme := false, masterLost := f.masterLost || lost
    cmd := { f.cmd with stopped := true }, sec := { f.sec with stopped := true } }

theorem Fn.slots_unmastered (lost : Bool) (f : Fn) : (f.unmastered lost).slots = f.slots := rfl

/-- What the loss of bus mastering ends. -/
def masterGone (fn : Nat) (s : State) : State := stopAllQueues fn 1 (discardWork fn (commandReadsLost fn s))

theorem stopAllQueues_ports (i cause : Nat) (s : State) : (stopAllQueues i cause s).ports = s.ports := rfl

theorem masterGone_ports (fn : Nat) (s : State) : (masterGone fn s).ports = (discardWork fn (commandReadsLost fn s)).ports :=
  stopAllQueues_ports ..

theorem exec_busMasterDisable {s : State} {fn : Nat} (exists_ : fnExists s fn = true) (on : (fnOf s fn).bme = true) :
    ∃ lost d l, exec (.busMasterDisable fn) s = .next (postTo 0x0D02 fn d l (setFn fn (Fn.unmastered lost) (masterGone fn s))) :=
  ⟨_, _, _, (if_neg (by simp [exists_, on])).trans (by simp only [Bool.or_assoc]; rfl)⟩

/-- A queue in use is stopped; one that is not stays as it is. -/
def QSlot.halted (cause : Nat) (q : QSlot) : QSlot :=
  if q.state == 0 then q else { q with stopped := true, cause := BitVec.ofNat 4 cause }

theorem slot_stopAllQueues (i cause : Nat) (s : State) (k : Nat) :
    (fnOf (stopAllQueues i cause s) i).slots.get k = ((fnOf s i).slots.get k).halted cause := by
  rw [stopAllQueues, fnOf_setFn_same]
  exact SMap.get_mapAll (f := fun _ => QSlot.halted cause) (fun _ => rfl) ..

/-- Without bus mastering every queue in use stands stopped with MASTER_DISABLED (R482). -/
theorem slot_masterGone (fn : Nat) (s : State) (k : Nat) (used : ((fnOf s fn).slots.get k).state ≠ 0) :
    ((fnOf (masterGone fn s) fn).slots.get k).stopped = true ∧ ((fnOf (masterGone fn s) fn).slots.get k).cause = 1 := by
  have kept : queueStates (discardWork fn (commandReadsLost fn s)) fn k = ((fnOf s fn).slots.get k).state := by
    rw [queueStates_discardWork]
    exact fnOf_commandReadsLost (g := fun f => (f.slots.get k).state) (fun _ _ _ _ => rfl)
      (fun _ _ h => (congrArg (fun f : Fn => (f.slots.get k).state) h :)) (fun _ _ => ⟨rfl, rfl⟩) ..
  rw [masterGone, slot_stopAllQueues, QSlot.halted, if_neg]
  · exact ⟨rfl, rfl⟩
  · exact fun unused => used (kept.symm.trans (eq_of_beq unused))

theorem links_reqs {s t : State} (h : links t = links s) (k : Nat) : (t.ports.get k).reqs = (s.ports.get k).reqs :=
  (congrArg PcPort.reqs (congrFun h k) :)

/-- The work that is discarded takes every outstanding read of its function with it. -/
theorem reqs_discardWork (i : Nat) (s : State) : ∀ r ∈ ((discardWork i s).ports.get (portOf i)).reqs, r.fn = i → r.drop = true := by
  intro r mem own
  unfold discardWork at mem
  rw [links_reqs (links_errObjectsOf ..)] at mem
  change r ∈ ((dropLeaves i _).ports.get _).reqs at mem
  rw [links_reqs (links_dropLeaves ..)] at mem
  rw [dropReqs, setPort, SMap.get_upd_same] at mem
  obtain ⟨q, _, rfl⟩ := List.mem_map.1 mem
  by_cases mine : q.fn = i
  · rw [if_pos (by simp [mine])]
  · rw [if_neg (by simp [mine])] at own
    exact absurd own mine

theorem masterDisabled {s : State} {fn : Nat} (exists_ : fnExists s fn = true) (on : (fnOf s fn).bme = true) :
    ∃ t, exec (.busMasterDisable fn) s = .next t ∧ (fnOf t fn).bme = false ∧ (fnOf t fn).cmd.stopped = true ∧ (fnOf t fn).sec.stopped = true ∧
      (∀ r ∈ (t.ports.get (portOf fn)).reqs, r.fn = fn → r.drop = true) ∧
      (∀ k, ((fnOf s fn).slots.get k).state ≠ 0 → ((fnOf t fn).slots.get k).stopped = true ∧ ((fnOf t fn).slots.get k).cause = 1) := by
  obtain ⟨lost, d, l, runs⟩ := exec_busMasterDisable exists_ on
  have after {α : Type} (g : Fn → α) (blind : PostBlind g) :
      g (fnOf (postTo 0x0D02 fn d l (setFn fn (Fn.unmastered lost) (masterGone fn s))) fn) = g (Fn.unmastered lost (fnOf (masterGone fn s) fn)) :=
    (fnOf_deliverTo blind ..).trans (congrArg g (fnOf_setFn_same ..))
  have bme := after Fn.bme fun _ _ _ _ _ _ _ _ _ _ => rfl
  have cmd := after Fn.cmd fun _ _ _ _ _ _ _ _ _ _ => rfl
  have sec := after Fn.sec fun _ _ _ _ _ _ _ _ _ _ => rfl
  refine ⟨_, runs, bme, congrArg Ring.stopped cmd, congrArg Ring.stopped sec, fun r mem own => ?_, fun k used => ?_⟩
  · have before : (setFn fn (Fn.unmastered lost) (masterGone fn s)).ports = (discardWork fn (commandReadsLost fn s)).ports :=
      (setFn_ports ..).trans (masterGone_ports ..)
    rw [links_reqs (links_postTo ..), before] at mem
    exact reqs_discardWork fn _ r mem own
  · have slots : (fnOf (postTo 0x0D02 fn d l (setFn fn (Fn.unmastered lost) (masterGone fn s))) fn).slots = (fnOf (masterGone fn s) fn).slots :=
      (after Fn.slots slots_blind).trans (Fn.slots_unmastered ..)
    rw [slots]
    exact slot_masterGone fn s k used

/-! ## Bus mastering set -/

theorem kickFn_fns (i : Nat) (s : State) : (kickFn i s).fns = s.fns := by
  unfold kickFn
  generalize (fnOf s i).slots.map (·.1) = l
  induction l generalizing s with
  | nil => rfl
  | cons k l ih => rw [List.foldl_cons, ih, kickRx_fns, kickTx_fns]

theorem core_kickFn (i : Nat) (s : State) : core (kickFn i s) = core s := by
  unfold kickFn
  generalize (fnOf s i).slots.map (·.1) = l
  induction l generalizing s with
  | nil => rfl
  | cons k l ih => rw [List.foldl_cons, ih, core_kickRx, core_kickTx]

theorem Grows.kickFn {s t : State} (h : Grows s t) (i : Nat) : Grows s (kickFn i t) := by
  unfold Machine.kickFn
  generalize (fnOf t i).slots.map (·.1) = l
  induction l generalizing t with
  | nil => exact h
  | cons k l ih =>
    refine ih ?_
    unfold kickRx kickTx
    dsimp only
    split <;> split <;> simp [h]

/-- Bus mastering is set, and the vectors that were held for it go. -/
def remastered (fn : Nat) (s : State) : State := sendPending fn (setFn fn (fun f => { f with bme := true }) s)

theorem exec_busMasterEnable {s : State} {fn : Nat} (exists_ : fnExists s fn = true) (off : (fnOf s fn).bme = false) :
    exec (.busMasterEnable fn) s =
      .next (kickFn fn (if isPf fn then flushEvents fn (remastered fn s) else remastered fn s)) :=
  if_neg (by simp [exists_, off])

theorem masterEnabled {s : State} {fn : Nat} (exists_ : fnExists s fn = true) (off : (fnOf s fn).bme = false) :
    ∃ t, exec (.busMasterEnable fn) s = .next t ∧ (fnOf t fn).bme = true ∧ (fnOf t fn).cmd = (fnOf s fn).cmd ∧ (fnOf t fn).sec = (fnOf s fn).sec ∧
      (fnOf t fn).slots = (fnOf s fn).slots ∧ core t = core s ∧
      ((fnOf s fn).msixEn = true → (fnOf s fn).msixMaskAll = false → ∀ v ∈ (fnOf s fn).unmasked, v ∈ (fnOf s fn).msixPending →
        .msix fn v ∈ t.out) := by
  have after {α : Type} (g : Fn → α) (blind : PostBlind g) :
      g (fnOf (kickFn fn (if isPf fn then flushEvents fn (remastered fn s) else remastered fn s)) fn) =
        g { fnOf s fn with bme := true } := by
    have sent : g (fnOf (remastered fn s) fn) = g { fnOf s fn with bme := true } :=
      (fnOf_sendPending (fun f p => blind.vector f f.badVector f.intx p) ..).trans (congrArg g (fnOf_setFn_same ..))
    rw [fnOf, kickFn_fns]
    split
    · exact (fnOf_flushEvents blind fn ..).trans sent
    · exact sent
  have sends : core (remastered fn s) = core s := (core_sendPending ..).trans rfl
  refine ⟨_, exec_busMasterEnable exists_ off, after Fn.bme fun _ _ _ _ _ _ _ _ _ _ => rfl, after Fn.cmd fun _ _ _ _ _ _ _ _ _ _ => rfl,
    after Fn.sec fun _ _ _ _ _ _ _ _ _ _ => rfl, after Fn.slots slots_blind, ?_, fun en mask v un pend => ?_⟩
  · rw [core_kickFn]
    split
    · rw [core_flushEvents, sends]
    · exact sends
  · have here : .msix fn v ∈ (remastered fn s).out := by
      have off' : (fnOf (setFn fn (fun f => { f with bme := true }) s) fn) = { fnOf s fn with bme := true } := fnOf_setFn_same ..
      rw [remastered, sendPending_eq, off', if_pos ⟨rfl, en, mask⟩]
      exact List.mem_append_right _ (List.mem_map.2 ⟨v, List.mem_filter.2 ⟨pend, List.contains_iff_mem.2 un⟩, rfl⟩)
    have grown : Grows (remastered fn s) (if isPf fn then flushEvents fn (remastered fn s) else remastered fn s) := by
      split
      · exact (Grows.refl _).flushEvents fn
      · exact Grows.refl _
    exact (grown.kickFn fn).mem here

end Sys2Proof.Machine

/-! Functions that are reset, begin and end, and host links that are lost (R482 to R484, R508, R529). -/
namespace Sys2Proof.Machine

/-! ## What the reset of a whole function leaves of every function -/

theorem lastings_setFn_ne {i j : Nat} (f : Fn → Fn) (s : State) (h : i ≠ j) : lastings (setFn i f s) j = lastings s j :=
  congrArg Fn.lasting (fnOf_setFn_ne f s h)

theorem session_endPortSecurity (h : Nat) (s : State) : ((endPortSecurity h s).sec.ports.get h).session = 0 := by
  have own := SMap.get_upd_same s.sec.ports h fun p => { p with session := 0, verifying := none, reading := none, spdm := 0, nonce := none }
  exact (congrArg SecPort.session own :)

theorem endPortSecurity_fns (h : Nat) (s : State) : (endPortSecurity h s).fns = s.fns := rfl

theorem resetWhole_fns (i cause : Nat) (s : State) :
    (resetWhole i cause s).fns = (setFn i resetFunction (resetInstance i cause (discardWork i s))).fns := by
  unfold resetWhole
  dsimp only
  split
  · exact endPortSecurity_fns ..
  · rfl

/-- What lasts of the state of a function that is reset with its work discarded. -/
theorem lastings_workReset (i cause : Nat) (s : State) :
    lastings (resetInstance i cause (discardWork i s)) = lastings (setFn i Fn.resetting s) :=
  (lastings_resetInstance ..).trans (lastings_setFn_congr Fn.resetting_congr (lastings_of_standings (standings_discardWork i s)) i)

theorem lastings_resetWhole_ne {i j : Nat} (cause : Nat) (s : State) (h : i ≠ j) : lastings (resetWhole i cause s) j = lastings s j := by
  rw [lastings_of_standings (standings_of_fns (resetWhole_fns i cause s)), lastings_setFn_ne _ _ h, lastings_workReset]
  exact lastings_setFn_ne _ _ h

theorem Fn.lasting_state (f : Fn) : f.lasting.inst.state = f.inst.state := rfl
theorem Fn.lasting_flr (f : Fn) : f.lasting.flr = f.flr := rfl

theorem Fn.resetting_lasting (f : Fn) : f.resetting.lasting.inst.state = 4 ∧ f.resetting.lasting.flr = f.flr :=
  ⟨(Fn.lasting_state _).trans rfl, (Fn.lasting_flr _).trans rfl⟩

/-- The registers of a function after its reset; the function is RESETTING, and a function-level reset goes on (R484). -/
theorem fnOf_resetWhole (i cause : Nat) (s : State) :
    ∃ f : Fn, fnOf (resetWhole i cause s) i = resetFunction f ∧ f.inst.state = 4 ∧ f.flr = (fnOf s i).flr := by
  have at_ : lastings (resetInstance i cause (discardWork i s)) i = (fnOf s i).resetting.lasting :=
    (congrFun (lastings_workReset ..) i).trans (congrArg Fn.lasting (fnOf_setFn_same ..))
  refine ⟨fnOf (resetInstance i cause (discardWork i s)) i, ?_, ?_, ?_⟩
  · rw [fnOf, resetWhole_fns]
    exact fnOf_setFn_same ..
  · rw [← Fn.lasting_state, ← (Fn.resetting_lasting (fnOf s i)).1, ← at_, lastings]
  · rw [← Fn.lasting_flr, ← (Fn.resetting_lasting (fnOf s i)).2, ← at_, lastings]

/-! ## Virtual functions that end (R508, R529) -/

theorem lastings_endReset_ne {i j : Nat} (cause : Nat) (s : State) (h : i ≠ j) : lastings (endReset i cause s) j = lastings s j :=
  (congrFun (lastings_of_standings (standings_sendNotice i 0xF2 cause _)) j).trans (lastings_setFn_ne _ s h)

theorem lastings_endVf_ne {i j : Nat} (cause : Nat) (s : State) (h : i ≠ j) : lastings (endVf i cause s) j = lastings s j := by
  unfold endVf
  exact (lastings_setFn_ne _ _ h).trans ((lastings_endReset_ne _ _ h).trans
    (lastings_resetWhole_ne _ _ h))

theorem lastings_endVfs_out {j : Nat} (cause : Nat) {l : List Nat} (out : j ∉ l) (s : State) :
    lastings (endVfs cause l s) j = lastings s j := by
  induction l generalizing s with
  | nil => rfl
  | cons v l ih =>
    obtain ⟨ne, rest⟩ := not_or.1 (mt List.mem_cons.2 out)
    exact (ih rest _).trans (lastings_endVf_ne _ _ (Ne.symm ne))

/-- The state of a function, as what lasts of it tells. -/
theorem state_of_lastings {s t : State} {j : Nat} (h : lastings t j = lastings s j) : (fnOf t j).inst.state = (fnOf s j).inst.state :=
  (congrArg (fun f : Fn => f.inst.state) h :)

theorem state_endVf (i cause : Nat) (s : State) : (fnOf (endVf i cause s) i).inst.state = 0 := by
  rw [endVf, fnOf_setFn_same]

/-- Functions that have ended are ABSENT. -/
theorem state_endVfs {j : Nat} (cause : Nat) {l : List Nat} (mem : j ∈ l) (s : State) : (fnOf (endVfs cause l s) j).inst.state = 0 := by
  induction l generalizing s with
  | nil => cases mem
  | cons v l ih =>
    by_cases more : j ∈ l
    · exact ih more _
    · obtain rfl := (List.mem_cons.1 mem).resolve_right more
      exact (state_of_lastings (lastings_endVfs_out cause more (endVf j cause s))).trans (state_endVf ..)

theorem SMap.get_of_not_mem_keys {α : Type} [Inhabited α] {m : SMap α} {k : Nat} (h : k ∉ m.map (·.1)) : m.get k = default := by
  induction m with
  | nil => rfl
  | cons e m ih =>
    obtain ⟨ne, rest⟩ := not_or.1 (mt List.mem_cons.2 h)
    exact (if_neg (Ne.symm ne)).trans (ih rest)

/-- A function without state is ABSENT. -/
theorem state_of_not_listed {s : State} {j : Nat} (h : j ∉ fnList s) : (fnOf s j).inst.state = 0 :=
  congrArg (fun f : Fn => f.inst.state) (SMap.get_of_not_mem_keys h)

theorem portOf_vf {p v : Nat} (port : p < 8) (vf : v ≤ 512) : portOf (p * 4096 + v) = p := by
  unfold portOf
  omega

theorem fnNum_vf {p v : Nat} (vf : v ≤ 512) : fnNum (p * 4096 + v) = v := by
  unfold fnNum
  omega

theorem isPf_vf {p v : Nat} (lo : 1 ≤ v) (vf : v ≤ 512) : isPf (p * 4096 + v) = false := by
  rw [isPf, fnNum_vf vf]
  exact beq_eq_false_iff_ne.2 (by omega)

/-- A function that has ended where it had state is ABSENT. -/
theorem state_ended {s u : State} {j cause : Nat} {l : List Nat} (same : lastings u j = lastings s j) (all : j ∈ fnList s → j ∈ l) :
    (fnOf (endVfs cause l u) j).inst.state = 0 := by
  by_cases mem : j ∈ l
  · exact state_endVfs cause mem u
  · exact (state_of_lastings ((lastings_endVfs_out cause mem u).trans same)).trans (state_of_not_listed fun listed => mem (all listed))

theorem mem_vfsOf {s : State} {p v : Nat} (port : p < 8) (lo : 1 ≤ v) (vf : v ≤ 512) (listed : p * 4096 + v ∈ fnList s) :
    p * 4096 + v ∈ vfsOf s p :=
  List.mem_filter.2 ⟨listed, by simp [portOf_vf port vf, isPf_vf lo vf]⟩

theorem not_mem_vfsOf {s : State} {fn p : Nat} (pf : isPf fn = true) : fn ∉ vfsOf s p :=
  fun mem => by
    have vf := (List.mem_filter.1 mem).2
    simp [pf] at vf

/-! ## Function-level resets (R484) -/

theorem core_sendNotice (i type w : Nat) (s : State) : core (sendNotice i type w s) = core s := by
  unfold sendNotice
  dsimp only
  split
  · exact core_fillChannel ..
  split <;> rfl

/-- A function whose function-level reset has begun. -/
def flrBegun (fn : Nat) (s : State) : State := setFn fn (fun f => { f with flr := some (s.tick + msT 10) }) s

/-- With a physical function its virtual functions end. -/
def flrSpread (fn : Nat) (s : State) : State :=
  if isPf fn then endVfs 3 (vfsOf (flrBegun fn s) (portOf fn)) (forgetRings fn (flrBegun fn s)) else flrBegun fn s

theorem exec_functionLevelReset {s : State} {fn : Nat} (exists_ : fnExists s fn = true) (idle : (fnOf s fn).flr = none) :
    exec (.functionLevelReset fn) s = .next (resetWhole fn 3 (flrSpread fn s)) :=
  if_neg (by simp [exists_, idle])

theorem lastings_flrSpread (fn : Nat) (s : State) : lastings (flrSpread fn s) fn = lastings (flrBegun fn s) fn := by
  unfold flrSpread
  split
  · next pf =>
    exact (lastings_endVfs_out 3 (not_mem_vfsOf pf) _).trans (congrFun (lastings_forgetRings ..) fn)
  · rfl

theorem functionReset {s : State} {fn : Nat} (exists_ : fnExists s fn = true) (idle : (fnOf s fn).flr = none) :
    ∃ t, exec (.functionLevelReset fn) s = .next t ∧ (fnOf t fn).flr = some (s.tick + 8000000) ∧ domainDown t fn = true ∧
      (fnOf t fn).cmd = {} ∧ (fnOf t fn).sec = {} ∧ (fnOf t fn).slots = [] ∧ (fnOf t fn).bme = false ∧ (fnOf t fn).msixEn = false ∧
      (fnOf t fn).winActive = [] ∧ (fnOf t fn).winPending = [] ∧ (fnOf t fn).inst.state = 4 := by
  obtain ⟨f, reset, state, flr⟩ := fnOf_resetWhole fn 3 (flrSpread fn s)
  have begun : (fnOf (flrSpread fn s) fn).flr = some (s.tick + 8000000) := by
    rw [← Fn.lasting_flr, ← lastings, lastings_flrSpread, lastings, Fn.lasting_flr, flrBegun, fnOf_setFn_same]
    rfl
  rw [begun] at flr
  refine ⟨_, exec_functionLevelReset exists_ idle, ?_⟩
  simp only [domainDown, reset, resetFunction, flr, state, Option.isSome_some, Bool.or_true, Bool.true_or, true_and, and_true]
  exact ⟨rfl, rfl, rfl, rfl, rfl, rfl, rfl⟩

theorem exec_functionLevelResetDone {s : State} {fn : Nat} (runs : (fnOf s fn).flr ≠ none) :
    exec (.functionLevelResetDone fn) s =
      .next (if (fnOf (setFn fn (fun f => { f with flr := none }) s) fn).inst.state == 4 then
        endReset fn 2 (setFn fn (fun f => { f with flr := none }) s) else setFn fn (fun f => { f with flr := none }) s) :=
  if_neg (by simpa using runs)

theorem inst_endReset (i cause : Nat) (s : State) : (fnOf (endReset i cause s) i).inst = { (fnOf s i).inst with state := 1 } :=
  (fnOf_sendNotice inst_vector inst_mail ..).trans (congrArg Fn.inst (fnOf_setFn_same ..))

theorem functionResetDone {s : State} {fn : Nat} (runs : (fnOf s fn).flr ≠ none) (resetting : (fnOf s fn).inst.state = 4) :
    ∃ t, exec (.functionLevelResetDone fn) s = .next t ∧ (fnOf t fn).flr = none ∧
      (fnOf t fn).inst = { (fnOf s fn).inst with state := 1 } ∧ core t = core s := by
  have over_ : fnOf (setFn fn (fun f => { f with flr := none }) s) fn = { fnOf s fn with flr := none } := fnOf_setFn_same ..
  have resets : (fnOf (setFn fn (fun f => { f with flr := none }) s) fn).inst.state = 4 := by rw [over_, ← resetting]
  have flr : (fnOf (endReset fn 2 (setFn fn (fun f => { f with flr := none }) s)) fn).flr = none := by
    refine (fnOf_sendNotice (g := Fn.flr) (fun _ _ _ _ => rfl) (fun _ _ h => (congrArg Fn.flr h :)) ..).trans ?_
    rw [fnOf_setFn_same, over_]
  refine ⟨_, exec_functionLevelResetDone runs, ?_⟩
  rw [if_pos (beq_iff_eq.2 resets)]
  exact ⟨flr, by rw [inst_endReset, over_], (core_sendNotice ..).trans rfl⟩

/-! ## Virtual functions that begin (R508) -/

theorem fnOf_beginVfs_out {pf lo n j : Nat} (out : ∀ m, 1 ≤ m → m ≤ n → pf + lo + m ≠ j) (s : State) :
    fnOf (beginVfs pf lo n s) j = fnOf s j := by
  induction n generalizing s with
  | zero => rfl
  | succ n ih =>
    rw [beginVfs, ih fun m a b => out m a (Nat.le_succ_of_le b)]
    exact fnOf_setFn_ne _ s (out (n + 1) (Nat.le_add_left ..) (Nat.le_refl _))

theorem fnOf_beginVfs {n m : Nat} (lo : 1 ≤ m) (hi : m ≤ n) (pf base : Nat) (s : State) :
    (fnOf (beginVfs pf base n s) (pf + base + m)).inst.state = 1 ∧ (fnOf (beginVfs pf base n s) (pf + base + m)).inst.qcount = 0 := by
  induction n generalizing s with
  | zero => omega
  | succ n ih =>
    by_cases last : m = n + 1
    · rw [beginVfs, fnOf_beginVfs_out (fun _ _ _ => by omega), last, ← Nat.add_assoc (pf + base) n 1, fnOf_setFn_same]
      exact ⟨rfl, rfl⟩
    · exact ih (by omega) _

/-- How many virtual functions a physical function has. -/
def Fn.vfCount (f : Fn) : Nat := if f.vfEnable then f.numVfs else 0

/-- How many it has once the enable and the number are written. -/
def vfsWanted (en : Bool) (n : Nat) : Nat := if en then min n 512 else 0

/-- The virtual functions past those that remain end, and the enable and the number are written. -/
def vfsCut (port : Fin 8) (en : Bool) (n : Nat) (s : State) : State :=
  setFn (port * 4096) (fun f => { f with vfEnable := en, numVfs := min n 512 })
    (endVfs 5 ((vfsOf s port).filter fun v => fnNum v > vfsWanted en n) s)

theorem exec_vfEnableChange {s : State} {port : Fin 8} (reached : bar0Open s (port * 4096) = true) (en : Bool) (n : Nat) :
    exec (.vfEnableChange port en n) s = .next (beginVfs (port * 4096) (fnOf s (port * 4096)).vfCount
      (vfsWanted en n - (fnOf s (port * 4096)).vfCount) (vfsCut port en n s)) :=
  if_neg (by simp [reached])

theorem vfsChanged {s : State} {port : Fin 8} (reached : bar0Open s (port * 4096) = true) (en : Bool) (n : Nat) :
    ∃ t, exec (.vfEnableChange port en n) s = .next t ∧ (fnOf t (port * 4096)).vfEnable = en ∧ (fnOf t (port * 4096)).numVfs = min n 512 ∧
      ∀ v, 1 ≤ v → v ≤ 512 →
        (((if (fnOf s (port * 4096)).vfEnable = true then (fnOf s (port * 4096)).numVfs else 0) < v → en = true → v ≤ min n 512 →
            (fnOf t (port * 4096 + v)).inst.state = 1 ∧ (fnOf t (port * 4096 + v)).inst.qcount = 0) ∧
          ((en = false ∨ min n 512 < v) → (fnOf t (port * 4096 + v)).inst.state = 0)) := by
  have own := fnOf_setFn_same (port * 4096) (fun f => { f with vfEnable := en, numVfs := min n 512 })
    (endVfs 5 ((vfsOf s port).filter fun v => fnNum v > vfsWanted en n) s)
  have cut : fnOf (beginVfs (port * 4096) (fnOf s (port * 4096)).vfCount (vfsWanted en n - (fnOf s (port * 4096)).vfCount)
      (vfsCut port en n s)) (port * 4096) = fnOf (vfsCut port en n s) (port * 4096) := fnOf_beginVfs_out (fun _ _ _ => by omega) _
  refine ⟨_, exec_vfEnableChange reached en n, ?_, ?_, fun v lo hi => ⟨fun new on wanted => ?_, fun ends => ?_⟩⟩
  · rw [cut, vfsCut, own]
  · rw [cut, vfsCut, own]
  · have begins := fnOf_beginVfs (n := vfsWanted en n - (fnOf s (port * 4096)).vfCount) (m := v - (fnOf s (port * 4096)).vfCount)
      (Nat.sub_pos_of_lt new) (Nat.sub_le_sub_right (by rw [vfsWanted, if_pos on]; exact wanted) _) (port * 4096)
      (fnOf s (port * 4096)).vfCount (vfsCut port en n s)
    rwa [Nat.add_assoc, Nat.add_sub_cancel' (show (fnOf s (port * 4096)).vfCount ≤ v from Nat.le_of_lt new)] at begins
  · have past : vfsWanted en n < v := by
      rw [vfsWanted]
      rcases ends with off | more
      · rw [if_neg (by simp [off])]
        exact lo
      · split
        · exact more
        · exact lo
    rw [fnOf_beginVfs_out (fun _ _ _ => by omega), vfsCut, fnOf_setFn_ne _ _ (by omega)]
    exact state_ended rfl fun listed => List.mem_filter.2 ⟨mem_vfsOf port.isLt lo hi listed, by rw [fnNum_vf hi]; exact decide_eq_true past⟩

/-! ## Host links (R483, R484) -/

@[simp] theorem links_sendNotice (i type w : Nat) (s : State) : links (sendNotice i type w s) = links s := by
  unfold sendNotice fillChannel
  dsimp only
  repeat' split
  all_goals simp

/-- The functions of a port whose link is lost are reset, the virtual ones end. -/
def linkReset (h : Nat) (s : State) : State := resetWhole (h * 4096) 4 (endVfs 4 (vfsOf s h) (forgetRings (h * 4096) s))

/-- The port of a link that is lost. -/
def linkCut (h : Nat) (perst : Bool) (s : State) : State :=
  setPort h (fun p => { p with linkUp := false, perst := perst || p.perst, reqs := [], quar := [], waits := [] })
    (setFn (h * 4096) (fun f => { f with flr := none, aer := if perst then [] else f.aer }) (linkReset h s))

/-- The physical function of a port whose link is lost, its reset over. -/
def linkEnded (h : Nat) (perst : Bool) (s : State) : State :=
  if (fnOf s (h * 4096)).inst.state != 0 then endReset (h * 4096) 3 (linkCut h perst s)
  else setFn (h * 4096) (fun f => { f with inst := { f.inst with state := 0 } }) (linkCut h perst s)

theorem linkLoss_eq (h : Nat) (perst : Bool) (s : State) : ∃ rec, linkLoss h perst s = deliverEvent 0 rec (linkEnded h perst s) := ⟨_, rfl⟩

theorem links_linkEnded (h : Nat) (perst : Bool) (s : State) : links (linkEnded h perst s) = links (linkCut h perst s) := by
  unfold linkEnded
  split
  · exact (links_sendNotice ..).trans (links_setFn ..)
  · exact links_setFn ..

theorem core_linkCut (h : Nat) (perst : Bool) (s : State) : core (linkCut h perst s) = core (linkReset h s) := by
  rw [linkCut, core_setPort, core_setFn]

theorem core_linkEnded (h : Nat) (perst : Bool) (s : State) : core (linkEnded h perst s) = core (linkReset h s) := by
  unfold linkEnded
  rw [← core_linkCut h perst s]
  split
  · exact (core_sendNotice ..).trans (core_setFn ..)
  · exact core_setFn ..

theorem state_linkEnded {s : State} {h v : Nat} (perst : Bool) (port : h < 8) (lo : 1 ≤ v) (hi : v ≤ 512) :
    (fnOf (linkEnded h perst s) (h * 4096 + v)).inst.state = 0 := by
  have ne : h * 4096 ≠ h * 4096 + v := by omega
  have cut : lastings (linkCut h perst s) (h * 4096 + v) = lastings (endVfs 4 (vfsOf s h) (forgetRings (h * 4096) s)) (h * 4096 + v) := by
    rw [linkCut, lastings_of_standings (standings_setPort ..), lastings_setFn_ne _ _ ne, linkReset, lastings_resetWhole_ne _ _ ne]
  have ended : lastings (linkEnded h perst s) (h * 4096 + v) = lastings (linkCut h perst s) (h * 4096 + v) := by
    unfold linkEnded
    split
    · exact lastings_endReset_ne _ _ ne
    · exact lastings_setFn_ne _ _ ne
  have before : lastings (forgetRings (h * 4096) s) (h * 4096 + v) = lastings s (h * 4096 + v) := congrFun (lastings_forgetRings ..) _
  rw [state_of_lastings (ended.trans cut)]
  exact state_ended before (mem_vfsOf port lo hi)

/-- A physical function that is reset whole ends the session of its port. -/
theorem session_resetWhole {h : Nat} (port : h < 8) (cause : Nat) (s : State) :
    ((resetWhole (h * 4096) cause s).sec.ports.get h).session = 0 := by
  have own : portOf (h * 4096) = h := by
    unfold portOf
    omega
  have pf : isPf (h * 4096) = true := beq_iff_eq.2 (by
    unfold fnNum
    omega)
  rw [resetWhole, if_pos pf, own]
  exact session_endPortSecurity ..

theorem core_sec {s t : State} (h : core t = core s) : t.sec = s.sec := (congrArg State.sec h :)

end Sys2Proof.Machine

/-! What the resets of functions leave of the wires of a host port, and O46 (R482 to R484). -/
namespace Sys2Proof.Machine

/-! ## The wires of the host ports -/

/-- PERST# of every host port. -/
def wires (s : State) : Nat → Bool := fun k => (s.ports.get k).perst

theorem wires_of_links {s t : State} (h : links t = links s) : wires t = wires s :=
  funext fun k => (congrArg PcPort.perst (congrFun h k) :)

theorem wires_of_ports {s t : State} (h : t.ports = s.ports) : wires t = wires s := wires_of_links (links_of_ports h)

theorem wires_setPort {f : PcPort → PcPort} (h : ∀ p, (f p).perst = p.perst) (i : Nat) (s : State) : wires (setPort i f s) = wires s := by
  funext k
  by_cases e : i = k
  · rw [← e]
    exact (congrArg PcPort.perst (SMap.get_upd_same ..)).trans (h _)
  · exact congrArg PcPort.perst (SMap.get_upd_ne _ _ e)

theorem wires_foldl {α : Type} {f : State → α → State} (h : ∀ s a, wires (f s a) = wires s) (l : List α) (s : State) :
    wires (l.foldl f s) = wires s := by
  induction l generalizing s with
  | nil => rfl
  | cons a l ih => rw [List.foldl_cons, ih, h]

theorem freeHeld_ports (e : CplEntry) (s : State) : (freeHeld e s).ports = s.ports := by
  unfold freeHeld
  split
  · next p _ =>
    obtain ⟨_, _, eq⟩ := evalOf_eq (pkt s p) { s with pkts := s.pkts.del p }
    rw [eq]
  · rfl

theorem freeStamps_ports (l : List CplEntry) (s : State) : (freeStamps l s).ports = s.ports := by
  unfold freeStamps
  induction l generalizing s with
  | nil => rfl
  | cons e l ih =>
    rw [List.foldl_cons, ih, freeHeld_ports]
    split <;> rfl

theorem wires_dropReqs (i : Nat) (sel : ReqKind → Bool) (s : State) : wires (dropReqs i sel s) = wires s :=
  wires_setPort (f := fun p => { p with
    reqs := p.reqs.map fun r => if r.fn == i && sel r.kind then { r with drop := true } else r
    waits := p.waits.filter fun w => !(w.fn == i && sel w.kind) }) (fun _ => rfl) (portOf i) s

theorem wires_discardWork (i : Nat) (s : State) : wires (discardWork i s) = wires s := by
  unfold discardWork
  dsimp only
  rw [wires_of_links (links_errObjectsOf ..)]
  refine (wires_of_links (links_dropLeaves ..)).trans ((wires_dropReqs ..).trans ((wires_setPort (fun _ => by rfl) ..).trans ?_))
  exact wires_of_ports (freeStamps_ports (waitingOf s i) s)

theorem links_writeReply (e : Exec) (st r : Nat) (s : State) : links (writeReply e st r s) = links s := by
  unfold writeReply
  dsimp only
  have ring (j : Nat) (b : Bool) (f : Ring → Ring) (u : State) : links (setRing j b f u) = links u := links_setFn ..
  split
  · exact ring ..
  split
  · split <;> simp [ring]
  · simp [ring]

theorem links_finishExec (i : Nat) (sec : Bool) (st r : Nat) (s : State) : links (finishExec i sec st r s) = links s := by
  unfold finishExec
  split
  · rfl
  split
  · exact links_writeReply ..
  · exact links_setFn ..

theorem links_destroyObject (n : Nat) (s : State) : links (destroyObject n s) = links s :=
  (links_of_ports (abandonRecord_ports false n (dropFormed n s))).trans (links_dropLeafIf ..)

theorem links_discardDelivery (i : Nat) (s : State) : links (discardDelivery i s) = links s :=
  links_foldl (fun s p => links_removePkt p s) _ { s with deliveries := s.deliveries.filter fun d => !queueIn s i d.1 }

theorem links_endMessage (i : Nat) (sec : Bool) (r : Nat) (s : State) : links (endMessage i sec r s) = links s := by
  unfold endMessage
  dsimp only
  split
  · exact (links_raiseVector ..).trans (links_setFn ..)
  · exact links_setFn ..

theorem links_discardUnread (i cause : Nat) (l : List (Nat × MboxChan)) (s : State) : links (discardUnread i cause l s) = links s := by
  induction l generalizing s with
  | nil => rfl
  | cons c l ih =>
    unfold discardUnread
    dsimp only
    split
    · rw [ih, links_deliverEvent]
      split
      · rfl
      · exact links_endMessage ..
    · exact ih s

theorem links_resetMailbox (i cause : Nat) (s : State) : links (resetMailbox i cause s) = links s := by
  rw [← links_discardUnread i cause ((fnOf s i).chans ++ [(0x4000, (fnOf s i).secChan)]) s]
  unfold resetMailbox
  dsimp only
  refine (links_setFn ..).trans ?_
  split <;> split
  · split <;> rfl
  · rfl
  · split <;> rfl
  · rfl

theorem links_stopLogging (i : Nat) (s : State) : links (stopLogging i s) = links s := by
  unfold stopLogging
  split
  · exact (links_sendNotice ..).trans (links_setFn ..)
  · rfl

theorem wires_resetInstance (i cause : Nat) (s : State) : wires (resetInstance i cause s) = wires s := by
  have rings (l : List (Nat × Bool)) (u : State) : links (finishRings l stBadState 0 u) = links u :=
    links_foldl (f := fun u (r : Nat × Bool) => finishExec r.1 r.2 stBadState 0 u) (fun _ _ => links_finishExec ..) l u
  have objects (u : State) : links (destroyObjectsOf i u) = links u := links_foldl (fun u n => links_destroyObject n u) _ u
  have before (l : List CplEntry) (u : State) : wires (dropLeaves i (freeStamps l u)) = wires u :=
    (wires_of_links (links_dropLeaves ..)).trans (wires_of_ports (freeStamps_ports ..))
  unfold resetInstance
  dsimp only
  rw [wires_of_links (links_resetMailbox ..), wires_of_links (links_stopLogging ..), wires_of_links (objects _),
    wires_of_links (links_setFn ..), wires_of_links (links_discardDelivery ..), wires_dropReqs, before, wires_of_links (links_setFn ..),
    wires_of_links (rings ..)]
  rfl

theorem wires_resetWhole (i cause : Nat) (s : State) : wires (resetWhole i cause s) = wires s := by
  have reset : wires (setFn i resetFunction (resetInstance i cause (discardWork i s))) = wires s := by
    rw [wires_of_links (links_setFn ..), wires_resetInstance, wires_discardWork]
  unfold resetWhole
  dsimp only
  split
  · exact reset
  · exact reset

theorem wires_endReset (i cause : Nat) (s : State) : wires (endReset i cause s) = wires s :=
  (wires_of_links (links_sendNotice ..)).trans (wires_of_links (links_setFn ..))

theorem wires_endVfs (cause : Nat) (l : List Nat) (s : State) : wires (endVfs cause l s) = wires s := by
  induction l generalizing s with
  | nil => rfl
  | cons v l ih =>
    rw [endVfs, ih, endVf, wires_of_links (links_setFn ..), wires_endReset, wires_resetWhole]

theorem wires_linkReset (h : Nat) (s : State) : wires (linkReset h s) = wires s := by
  rw [linkReset, wires_resetWhole, wires_endVfs]
  rfl

/-! ## Host links -/

theorem linkLost {s : State} {port : Fin 8} {p : Bool}
    (lost : (s.ports.get port).linkUp = true ∨ (p = true ∧ (s.ports.get port).perst = false)) :
    ∃ t, exec (.hostLinkLoss port p) s = .next t ∧ (t.ports.get port).linkUp = false ∧ ((t.ports.get port).perst = true ↔ p = true ∨ (s.ports.get port).perst = true) ∧
      (t.ports.get port).reqs = [] ∧ (t.ports.get port).quar = [] ∧ (t.sec.ports.get port).session = 0 ∧
      ∀ v, 1 ≤ v → v ≤ 512 → (fnOf t (port * 4096 + v)).inst.state = 0 := by
  obtain ⟨rec, eq⟩ := linkLoss_eq port p s
  have runs : exec (.hostLinkLoss port p) s = .next (deliverEvent 0 rec (linkEnded port p s)) := by
    rw [← eq]
    exact if_pos (by simpa using lost)
  have link : ((deliverEvent 0 rec (linkEnded port p s)).ports.get port).link = ((linkCut port p s).ports.get port).link :=
    congrFun ((links_deliverEvent ..).trans (links_linkEnded port p s)) port
  have cut : (linkCut port p s).ports.get port =
      { (linkReset port s).ports.get port with
        linkUp := false, perst := p || ((linkReset port s).ports.get port).perst, reqs := [], quar := [], waits := [] } := by
    rw [linkCut, setPort, SMap.get_upd_same]
    rfl
  have wire : ((linkReset port s).ports.get port).perst = (s.ports.get port).perst := congrFun (wires_linkReset port s) port
  have sec : (deliverEvent 0 rec (linkEnded port p s)).sec = (linkReset port s).sec :=
    core_sec ((core_deliverEvent ..).trans (core_linkEnded ..))
  rw [cut, wire] at link
  have perst : ((deliverEvent 0 rec (linkEnded port p s)).ports.get port).perst = (p || (s.ports.get port).perst) :=
    (congrArg PcPort.perst link :)
  refine ⟨_, runs, (congrArg PcPort.linkUp link :), by rw [perst, Bool.or_eq_true], (congrArg PcPort.reqs link :),
    (congrArg PcPort.quar link :), ?_, fun v lo hi => ?_⟩
  · rw [sec]
    exact session_resetWhole port.isLt ..
  · rw [state_of_lastings (congrFun (lastings_of_standings (standings_deliverEvent 0 rec (linkEnded port p s))) (port * 4096 + v))]
    exact state_linkEnded p port.isLt lo hi

/-- Settles O46: each row of a host's requests, its functions and its links by its equation. -/
theorem hostRequestsFunctionsAndLinks : Obligations.HostRequestsFunctionsAndLinks := by
  unfold Obligations.HostRequestsFunctionsAndLinks
  refine ⟨?bar2, fun s port off r closed => if_pos (by simp [closed]), fun s fn w closed => if_pos (by simp [closed]),
    fun s fn w reached => exec_bar0BadAccess w reached, fun s fn r down => if_pos (by simp [down]), ?config,
    fun s fn none_ => if_pos (by simpa using none_), fun s fn none_ => if_pos (by simpa using none_),
    fun s fn none_ => if_pos (by simpa [Option.isSome_iff_ne_none] using none_), fun s fn idle => if_pos (by simp [idle]), ?restarted,
    fun s fn d absent => if_pos (by simp [absent]), fun s port en n closed => if_pos (by simp [closed]), ?stays,
    fun s fn exists_ on => masterDisabled exists_ on, fun s fn exists_ off => masterEnabled exists_ off,
    fun s fn exists_ idle => functionReset exists_ idle, fun s fn runs resetting => functionResetDone runs resetting,
    fun s port en n reached => vfsChanged reached en n, fun s fn d exists_ => ?power, fun s port p lost => linkLost lost, ?up⟩
  case bar2 =>
    rintro s port off e w reached rfl rfl
    refine ⟨fun n => ⟨fun permits => exec_bar2Read_permitted off reached permits, fun refused => ?_⟩, fun bs => ⟨fun canonical permits => ?_,
      fun refused => ?_⟩⟩
    · exact ⟨_, exec_bar2Read_aborted off reached refused, rfl, rfl⟩
    · refine ⟨_, exec_bar2Write_permitted off reached permits, fun k b at_ => ?_, fun a outside => ?_, rfl⟩
      · obtain ⟨inside, rfl⟩ := List.getElem?_eq_some_iff.1 at_
        exact (Memory.read_writeAll_inside canonical inside).trans (List.getD_eq_getElem _ _ inside)
      · exact Memory.read_writeAll_outside canonical outside
    · refine ⟨_, exec_bar2Write_dropped off reached refused, ?_, rfl⟩
      rw [setPort, SMap.get_upd_same]
      rfl
  case config =>
    intro s fn up
    refine ⟨fun exists_ halted off free lc stage r => exec_configRequest_retry up exists_ (.inl ⟨halted, off, free, lc, stage⟩) r,
      fun absent r => exec_configRequest_absent up absent r, fun exists_ resets r => exec_configRequest_retry up exists_ (.inr resets) r,
      fun exists_ idle ready => ⟨fun off => exec_configRequest up exists_ idle ready (.read off), fun off v =>
        ⟨_, exec_configRequest up exists_ idle ready (.write off v), cfgWritten fn off v s⟩⟩⟩
  case restarted =>
    intro s fn runs other
    refine (exec_functionLevelResetDone runs).trans (congrArg Host.Outcome.next (if_neg ?_))
    rw [fnOf_setFn_same]
    simpa using other
  case stays =>
    rintro s port p down quiet
    refine if_neg ?_
    rcases quiet with rfl | held
    · simp [down]
    · simp [down, held]
  case power =>
    exact (if_neg (by simp [exists_])).trans rfl
  case up =>
    intro s port
    exact if_congr (by simp [and_assoc]) rfl rfl

end Sys2Proof.Machine

/-! KILN_STATUS, KILN_SCHEDULE, KILN_RUN and FAIL_POLICY, and what a patrol scrub counts (R570, R590 to R594, R606). -/
namespace Sys2Proof.Machine

/-! ## KILN_STATUS (R594) -/

/-- The unit under test, the stage of its test and whether it is targeted, as KILN_STATUS places them. -/
def currentField (cur : Option (Nat × Nat × Bool)) : Nat :=
  match cur with
  | some (sl, st, t) => fld 127 112 sl + fld 111 110 st + fld 109 109 (bit t)
  | none => fld 127 112 0xFFFF

/-- What KILN_STATUS replies. -/
def kilnStatusWord (s : State) : Nat :=
  currentField (kilnCurrent s) + fld 103 96 s.kiln.queue.length + fld 95 64 s.kiln.passes + fld 63 32 s.kiln.fails +
    fld 31 16 s.kiln.lastSlice + fld 15 14 s.kiln.lastResult

theorem exec_kilnStatus {c : CmdPkt} {s : State} (runs : Runs 0x0901 .V false always c s) :
    exec (.kilnStatus c) s = repliesOk c s (taken c s) (kilnStatusWord s) :=
  congrArg Host.Outcome.next (runCmd_done runs rfl rfl)

theorem bit_le (b : Bool) : bit b ≤ 1 := by cases b <;> decide

/-- The unit under test stands above bit 103. -/
theorem currentField_eq (cur : Option (Nat × Nat × Bool)) : ∃ hi < 2 ^ 19, currentField cur = hi * 2 ^ 109 ∧
    (cur = none → hi / 8 = 0xFFFF) ∧
    ∀ sl st t, cur = some (sl, st, t) → hi / 8 = sl % 2 ^ 16 ∧ hi / 2 % 4 = st % 4 ∧ hi % 2 = bit t := by
  cases cur with
  | none => exact ⟨0xFFFF * 8, by decide, by decide +kernel, fun _ => rfl, fun _ _ _ h => nomatch h⟩
  | some cur =>
    obtain ⟨sl, st, t⟩ := cur
    refine ⟨sl % 2 ^ 16 * 8 + st % 4 * 2 + bit t, ?_, ?_, (nomatch ·), fun a b d h => ?_⟩
    · have := bit_le t
      omega
    · simp only [currentField, fld, Nat.shiftLeft_eq]
      have := bit_le t
      omega
    · cases h
      have := bit_le t
      omega

theorem bits_kilnStatusWord (s : State) :
    bits 103 96 (kilnStatusWord s) = s.kiln.queue.length % 256 ∧ bits 95 64 (kilnStatusWord s) = s.kiln.passes % 2 ^ 32 ∧
    bits 63 32 (kilnStatusWord s) = s.kiln.fails % 2 ^ 32 ∧ bits 31 16 (kilnStatusWord s) = s.kiln.lastSlice % 2 ^ 16 ∧
    bits 15 14 (kilnStatusWord s) = s.kiln.lastResult % 4 ∧ bits 13 0 (kilnStatusWord s) = 0 ∧
    (kilnCurrent s = none → bits 127 112 (kilnStatusWord s) = 0xFFFF) ∧
    ∀ sl st tg, kilnCurrent s = some (sl, st, tg) → bits 127 112 (kilnStatusWord s) = sl % 2 ^ 16 ∧
      bits 111 110 (kilnStatusWord s) = st % 4 ∧ bits 109 109 (kilnStatusWord s) = bit tg := by
  obtain ⟨hi, small, eq, idle, busy⟩ := currentField_eq (kilnCurrent s)
  simp only [kilnStatusWord, eq, bits, fld, Nat.shiftLeft_eq, Nat.shiftRight_eq_div_pow]
  refine ⟨by omega, by omega, by omega, by omega, by omega, by omega, fun none_ => ?_, fun sl st tg some_ => ?_⟩
  · have := idle none_
    omega
  · obtain ⟨unit, stage, targeted⟩ := busy sl st tg some_
    omega

/-! ## KILN_SCHEDULE (R591) -/

/-- The instants of a class count anew, as its step period has changed. -/
def recounted (cls : Nat) (s : State) : State :=
  match cls with
  | 0 => { s with kiln := { s.kiln with
      banks := (List.range 16).foldl (fun m i => m.upd i fun r => { r with last := kilnInstants s 0 i }) s.kiln.banks } }
  | 1 => { s with kiln := { s.kiln with buf := { s.kiln.buf with last := kilnInstants s 1 0 } } }
  | 2 => { s with kiln := { s.kiln with coreLast := kilnInstants s 2 0 } }
  | _ => { s with kiln := { s.kiln with
      wayLast := (List.range 16).foldl (fun m i => m.put i (kilnInstants s 3 i)) s.kiln.wayLast } }

/-- A step period is set. -/
def periodSet (cls p : Nat) (s : State) : State := { s with kiln := { s.kiln with periods := s.kiln.periods.put cls p } }

/-- A step period in range: 0, or from the least of its class to a day. -/
def periodRange (cls p : Nat) : Prop := p = 0 ∨ ([1000, 10000, 100, 1000].getD cls 0 ≤ p ∧ p ≤ 86400000)

theorem periodRange_iff (cls p : Nat) :
    (p != 0 && (decide (p < leastPeriod cls) || decide (p > 86400000))) = false ↔ periodRange cls p := by
  rw [periodRange, leastPeriod, Bool.and_eq_false_iff, bne_eq_false_iff_eq, Bool.or_eq_false_iff, decide_eq_false_iff_not,
    decide_eq_false_iff_not, not_lt, not_lt]

section
variable {c : CmdPkt} {s : State} (runs : Runs 0x0902 .A false always c s)
include runs

theorem exec_kilnSchedule (cls : c.p 0 1 ≤ 3) (range : periodRange (c.p 0 1) (c.p 4 4)) :
    exec (.kilnSchedule c) s = repliesOk c s (recounted (c.p 0 1) (periodSet (c.p 0 1) (c.p 4 4) (taken c s))) 0 := by
  refine congrArg Host.Outcome.next (runCmd_done runs ?_ ?_)
  · dsimp only [firstOf]
    rw [if_neg (by simpa using cls), (periodRange_iff ..).2 range, if_neg Bool.false_ne_true]
  · generalize c.p 0 1 = cls
    rcases cls with _ | _ | _ | cls <;> rfl

theorem exec_kilnSchedule_refused (bad : 3 < c.p 0 1 ∨ ¬ periodRange (c.p 0 1) (c.p 4 4)) :
    exec (.kilnSchedule c) s = refusesWith c s stBadParam := by
  refine congrArg Host.Outcome.next (runCmd_refuses runs ?_)
  dsimp only [firstOf]
  by_cases cls : 3 < c.p 0 1
  · exact if_pos (by simpa using cls)
  · refine (if_neg (by simpa using cls)).trans (if_pos ?_)
    rw [← periodRange_iff, Bool.not_eq_false] at bad
    exact bad.resolve_left cls

end

theorem SMap.has_put_same {α : Type} (m : SMap α) (k : Nat) (a : α) : (m.put k a).has k = true := by
  induction m with
  | nil => simp [SMap.put, SMap.has]
  | cons e m ih =>
    obtain ⟨j, b⟩ := e
    unfold SMap.put
    split
    · simp [SMap.has]
    split
    · simp [SMap.has]
    · rw [SMap.has, ih, Bool.or_true]

theorem SMap.has_put_ne {α : Type} (m : SMap α) {k j : Nat} (a : α) (h : k ≠ j) : (m.put k a).has j = m.has j := by
  induction m with
  | nil => simp [SMap.put, SMap.has, h]
  | cons e m ih =>
    obtain ⟨i, b⟩ := e
    unfold SMap.put
    split
    · simp [SMap.has, h]
    split
    · next eq => simp [SMap.has, ← eq]
    · rw [SMap.has, ih, SMap.has]

theorem kilnPeriod_periodSet (cls p d : Nat) (s : State) : kilnPeriod (periodSet cls p s) d = if d = cls then p else kilnPeriod s d := by
  unfold kilnPeriod periodSet
  dsimp only
  by_cases e : d = cls
  · rw [e, SMap.has_put_same, if_pos rfl, if_pos rfl, SMap.get_put_same]
  · rw [if_neg e, SMap.has_put_ne _ _ (Ne.symm e), SMap.get_put_ne _ _ (Ne.symm e)]

/-- Counting instants anew leaves of every rotation all but its count. -/
theorem SMap.get_foldl_last (f : Nat → Nat) (l : List Nat) (m : SMap Rot) (k : Nat) :
    ∃ n, (l.foldl (fun m i => m.upd i fun r => { r with last := f i }) m).get k = { m.get k with last := n } := by
  induction l generalizing m with
  | nil => exact ⟨_, rfl⟩
  | cons i l ih =>
    obtain ⟨n, eq⟩ := ih (m.upd i fun r => { r with last := f i })
    refine ⟨n, eq.trans ?_⟩
    by_cases e : i = k
    · rw [e, SMap.get_upd_same]
    · rw [SMap.get_upd_ne _ _ e]

/-- Kiln with the instants of its classes counted as given. -/
def Kiln.counted (k : Kiln) (banks : SMap Rot) (buf core : Nat) (ways : SMap Nat) : Kiln :=
  { k with banks := banks, buf := { k.buf with last := buf }, coreLast := core, wayLast := ways }

theorem recounted_eq (cls : Nat) (s : State) : ∃ m b n w, recounted cls s = { s with kiln := s.kiln.counted m b n w } ∧
    ∀ k, ∃ l, m.get k = { s.kiln.banks.get k with last := l } := by
  unfold recounted
  split
  · exact ⟨_, _, _, _, rfl, SMap.get_foldl_last _ _ s.kiln.banks⟩
  all_goals exact ⟨s.kiln.banks, _, _, _, rfl, fun k => ⟨(s.kiln.banks.get k).last, rfl⟩⟩

theorem kilnPeriod_counted (s : State) (m : SMap Rot) (b n : Nat) (w : SMap Nat) (d : Nat) :
    kilnPeriod { s with kiln := s.kiln.counted m b n w } d = kilnPeriod s d := rfl

/-! ## KILN_RUN (R592) -/

/-- KILN_RUN asks for the test of a slice. -/
def kilnAsked (c : CmdPkt) (s : State) : State :=
  { taken c s with kiln := { s.kiln with asked := s.kiln.asked ++ [(c.p 0 2, c.fn, c.sec)] } }

/-- What KILN_RUN refuses. -/
theorem kilnRun_checks (c : CmdPkt) (s : State) :
    firstOf [(!sliceExists (c.p 0 2), stBadParam), (decide (c.p 0 2 / 4096 ≥ 4) && setActive s, stBadState),
      (!runnable s (c.p 0 2), stBadState)] =
    if sliceExists (c.p 0 2) = false then some (stBadParam, 0)
    else if (4 ≤ c.p 0 2 / 4096 ∧ setActive s = true) ∨ runnable s (c.p 0 2) = false then some (stBadState, 0) else none := by
  cases sliceExists (c.p 0 2) <;> cases setActive s <;> cases runnable s (c.p 0 2) <;> by_cases h : 4 ≤ c.p 0 2 / 4096 <;>
    simp [firstOf, h]

section
variable {c : CmdPkt} {s : State} (runs : Runs 0x0903 .A true always c s)
include runs

theorem exec_kilnRun_denied (prov : s.sec.lc ≠ 1) (ret : s.sec.lc ≠ 3) : exec (.kilnRun c) s = refusesWith c s stDenied :=
  congrArg Host.Outcome.next (runCmd_denied runs (show (s.sec.lc == 1 || s.sec.lc == 3) = false by simp [prov, ret]))

variable (permit : s.sec.lc = 1 ∨ s.sec.lc = 3)
include permit

theorem kilnRun_runs : Runs 0x0903 .A true (fun _ s => s.sec.lc == 1 || s.sec.lc == 3) c s :=
  runs.permitted (show (s.sec.lc == 1 || s.sec.lc == 3) = true by simpa using permit)

theorem exec_kilnRun_badParam (absent : sliceExists (c.p 0 2) = false) : exec (.kilnRun c) s = refusesWith c s stBadParam :=
  congrArg Host.Outcome.next (runCmd_refuses (kilnRun_runs runs permit) ((kilnRun_checks c (taken c s)).trans (if_pos absent)))

variable (there : sliceExists (c.p 0 2) = true)
include there

theorem exec_kilnRun_badState (bad : (4 ≤ c.p 0 2 / 4096 ∧ setActive s = true) ∨ runnable s (c.p 0 2) = false) :
    exec (.kilnRun c) s = refusesWith c s stBadState :=
  congrArg Host.Outcome.next (runCmd_refuses (kilnRun_runs runs permit)
    ((kilnRun_checks c (taken c s)).trans ((if_neg (by simp [there])).trans (if_pos bad))))

theorem exec_kilnRun_unit (low : c.p 0 2 / 4096 < 4) (able : runnable s (c.p 0 2) = true) :
    exec (.kilnRun c) s = .next (if resourceBusy s (c.p 0 2) = true ∨ queuedFor s (c.p 0 2) = true then kilnAsked c s
      else beginTest (c.p 0 2) false (kilnAsked c s)) := by
  have passes := (kilnRun_checks c (taken c s)).trans ((if_neg (by simp [there])).trans (if_neg (by
    rintro (⟨high, -⟩ | not_)
    · omega
    · exact Bool.false_ne_true (not_.symm.trans able))))
  refine congrArg Host.Outcome.next (runCmd_unanswered (kilnRun_runs runs permit) passes ((if_neg (by omega)).trans ?_))
  have waits : (resourceBusy s (c.p 0 2) || queuedFor s (c.p 0 2)) = true ↔
      resourceBusy s (c.p 0 2) = true ∨ queuedFor s (c.p 0 2) = true :=
    Bool.or_eq_true_iff
  by_cases held : resourceBusy s (c.p 0 2) = true ∨ queuedFor s (c.p 0 2) = true
  · rw [if_pos held]
    exact if_pos (waits.2 held)
  · rw [if_neg held]
    exact if_neg (mt waits.1 held)

theorem exec_kilnRun_block (high : 4 ≤ c.p 0 2 / 4096) (kept : c.p 0 2 ∉ s.kiln.blocks) :
    exec (.kilnRun c) s = if setActive s = true then refusesWith c s stBadState
      else repliesOk c s { taken c s with kiln := { s.kiln with runs := c.p 0 2 :: s.kiln.runs } } 0 := by
  have able : runnable s (c.p 0 2) = true := by
    unfold runnable
    rw [if_neg (by simpa using kept), if_neg (by omega)]
  split
  · next active => exact exec_kilnRun_badState runs permit there (.inl ⟨high, active⟩)
  · next idle =>
    refine congrArg Host.Outcome.next (runCmd_done (kilnRun_runs runs permit) ((kilnRun_checks c (taken c s)).trans
      ((if_neg (by simp [there])).trans (if_neg ?_))) (if_pos high))
    rintro (⟨-, active⟩ | not_)
    · exact idle active
    · exact Bool.false_ne_true (not_.symm.trans able)

end

theorem runnable_of_block {s : State} {sl : Nat} (retired : sl ∈ s.kiln.blocks) : runnable s sl = false := if_pos (by simpa using retired)

end Sys2Proof.Machine

/-! FAIL_POLICY, and O57 (R587, R590, R593). -/
namespace Sys2Proof.Machine

/-! ## FAIL_POLICY (R590, R593) -/

/-- The failure policy of a class is set. -/
def policySet (c : CmdPkt) (s : State) : State :=
  { s with kiln := { s.kiln with policy := s.kiln.policy.put (c.p 0 1) (c.p 1 1 == 1) } }

theorem retires_policySet (c : CmdPkt) (s : State) (sl : Nat) : retires (policySet c s) sl =
    (!(sl == sliceId 7 0) && !(sl == sliceId 9 0) && if sl / 4096 = c.p 0 1 then c.p 1 1 == 1 else
      if s.kiln.policy.has (sl / 4096) then s.kiln.policy.get (sl / 4096) else sl / 4096 != 7) := by
  unfold retires policySet
  dsimp only
  by_cases e : sl / 4096 = c.p 0 1
  · rw [e, SMap.has_put_same, SMap.get_put_same, if_pos rfl, if_pos rfl]
  · rw [if_neg e, SMap.has_put_ne _ _ (Ne.symm e), SMap.get_put_ne _ _ (Ne.symm e)]

/-- Blocks that their policy does not retire go on holding the adapter. -/
theorem endHold_of_held {s : State} (held : ∀ h ∈ s.kiln.holds, retires s h = false) : endHold s = s := by
  have none_ : s.kiln.holds.filter (fun h => retires s h) = [] := List.filter_eq_nil_iff.2 fun h mem => by simp [held h mem]
  unfold endHold
  dsimp only
  rw [none_]
  rfl

section
variable {c : CmdPkt} {s : State} (runs : Runs 0x0904 .A true always c s)
include runs

theorem exec_failPolicy (cls : c.p 0 1 ≤ 10) (way : c.p 1 1 ≤ 1) :
    exec (.failPolicy c) s = repliesOk c s (endHold (policySet c (taken c s))) 0 :=
  congrArg Host.Outcome.next (runCmd_done runs (by simp [firstOf, Nat.not_lt.2 cls, Nat.not_lt.2 way]) rfl)

theorem exec_failPolicy_refused (bad : 10 < c.p 0 1 ∨ 1 < c.p 1 1) : exec (.failPolicy c) s = refusesWith c s stBadParam := by
  refine congrArg Host.Outcome.next (runCmd_refuses runs ?_)
  rcases bad with cls | way
  · simp [firstOf, cls]
  · simp [firstOf, way]

theorem exec_failPolicy_holds (cls : c.p 0 1 ≤ 10) (way : c.p 1 1 ≤ 1)
    (held : ∀ h ∈ s.kiln.holds, retires (policySet c s) h = false) : exec (.failPolicy c) s =
      repliesOk c s { taken c s with kiln := { s.kiln with policy := s.kiln.policy.put (c.p 0 1) (c.p 1 1 == 1) } } 0 := by
  rw [exec_failPolicy runs cls way, endHold_of_held (s := policySet c (taken c s)) held]
  rfl

end

/-- A block that keeps holding the adapter under the policy written (R593). -/
theorem retires_held {c : CmdPkt} {s : State} {sl : Nat}
    (keeps : c.p 0 1 ≠ sl / 4096 ∧ retires s sl = false ∨ c.p 0 1 = sl / 4096 ∧ c.p 1 1 = 0 ∨ sl = 7 * 4096 ∨ sl = 9 * 4096) :
    retires (policySet c s) sl = false := by
  rw [retires_policySet]
  rcases keeps with ⟨other, kept⟩ | ⟨same, hold⟩ | rfl | rfl
  · rw [if_neg (Ne.symm other)]
    exact kept
  · rw [if_pos same.symm, hold]
    exact Bool.and_false _
  · rfl
  · rfl

/-- The one block that held the adapter since start-up is retired, and the hold ends (R590). -/
def holdEnded (sl : Nat) (s : State) : State :=
  { postBlockRetired sl { s with kiln := { s.kiln with holds := [], blocks := sl :: s.kiln.blocks } } with
    fw := { s.fw with cause := 3 }, pwr := { s.pwr with stage := 10, released := true } }

theorem kiln_postBlockRetired (sl : Nat) (s : State) :
    (postBlockRetired sl s).kiln = s.kiln ∧ (postBlockRetired sl s).fw = s.fw ∧ (postBlockRetired sl s).pwr = s.pwr := by
  have kept : core (postBlockRetired sl s) = core s := core_postAll ..
  exact ⟨(congrArg State.kiln kept :), (congrArg State.fw kept :), (congrArg State.pwr kept :)⟩

/-- Retiring a core, a way or another block without an effect of its own. -/
theorem retireBlock_plain {sl : Nat} (plain : sl / 4096 = 2 ∨ sl / 4096 = 3 ∨ sl / 4096 = 5) (s : State) :
    retireBlock sl s = postBlockRetired sl { s with kiln := { s.kiln with blocks := sl :: s.kiln.blocks } } := by
  unfold retireBlock retireEffect
  rcases plain with e | e | e
  all_goals
    rw [e]
    rfl

/-- Where no block holds the adapter any more, the hold ends (R590). -/
def holdLifted (s : State) : State :=
  if s.kiln.holding then s
  else if s.kiln.holdService then
    regionsReleased (cacheInvalidate (setsEmptied { s with fw := { s.fw with cause := 3 }, kiln := { s.kiln with holdService := false } }))
  else { s with fw := { s.fw with cause := 3 }, pwr := { s.pwr with stage := 10, released := true } }

theorem holdLifted_startup {s : State} (free : s.kiln.holds = []) (startup : s.kiln.holdService = false) :
    holdLifted s = { s with fw := { s.fw with cause := 3 }, pwr := { s.pwr with stage := 10, released := true } } :=
  (if_neg (by simp [Kiln.holding, free])).trans (if_neg (by simp [startup]))

theorem endHold_one {s : State} {sl : Nat} (high : 2 ≤ sl / 4096) (holds : s.kiln.holds = [sl]) (ret : retires s sl = true) :
    endHold s = holdLifted (retireBlock sl { s with kiln := { s.kiln with holds := [] } }) := by
  have free : s.kiln.holds.filter (fun h => retires s h) = [sl] := by simp [holds, ret]
  have left : s.kiln.holds.filter (fun h => !([sl].contains h)) = [] := by simp [holds]
  have block (u : State) : (if sl / 4096 < 2 then retireLogical sl (unitOf sl) u else retireBlock sl u) = retireBlock sl u :=
    if_neg (Nat.not_lt.2 high)
  unfold endHold
  dsimp only
  rw [free, left, ← block]
  rfl

theorem endHold_retired {s : State} {sl : Nat} (plain : sl / 4096 = 2 ∨ sl / 4096 = 3 ∨ sl / 4096 = 5) (holds : s.kiln.holds = [sl])
    (startup : s.kiln.holdService = false) (ret : retires s sl = true) : endHold s = holdEnded sl s := by
  obtain ⟨kiln, fw, pwr⟩ := kiln_postBlockRetired sl { s with kiln := { s.kiln with holds := [], blocks := sl :: s.kiln.blocks } }
  have free : (postBlockRetired sl { s with kiln := { s.kiln with holds := [], blocks := sl :: s.kiln.blocks } }).kiln.holds = [] := by
    rw [kiln]
  have service : (postBlockRetired sl { s with kiln := { s.kiln with holds := [], blocks := sl :: s.kiln.blocks } }).kiln.holdService =
      false := by
    rw [kiln]
    exact startup
  rw [endHold_one (by omega) holds ret, retireBlock_plain plain]
  refine (holdLifted_startup free service).trans ?_
  rw [fw, pwr]
  rfl

theorem core_holdEnded (sl : Nat) (s : State) : core { holdEnded sl s with kiln := s.kiln, pwr := s.pwr, fw := s.fw } = core s := by
  have kept : core (postBlockRetired sl { s with kiln := { s.kiln with holds := [], blocks := sl :: s.kiln.blocks } }) =
      core { s with kiln := { s.kiln with holds := [], blocks := sl :: s.kiln.blocks } } := core_postAll ..
  exact (congrArg (fun u : State => core { u with kiln := s.kiln, pwr := s.pwr, fw := s.fw }) kept :)

theorem exec_failPolicy_ends {c : CmdPkt} {s : State} {sl : Nat} (runs : Runs 0x0904 .A true always c s) (holds : s.kiln.holds = [sl])
    (startup : s.kiln.holdService = false) (retire : c.p 1 1 = 1) (plain : sl / 4096 = 2 ∨ sl / 4096 = 3 ∨ sl / 4096 = 5)
    (cls : c.p 0 1 = sl / 4096) : exec (.failPolicy c) s = repliesOk c s (holdEnded sl (policySet c (taken c s))) 0 := by
  have ret : retires (policySet c (taken c s)) sl = true := by
    have hbm : (sl == sliceId 7 0) = false := beq_eq_false_iff_ne.2 (by rintro rfl; revert plain; decide)
    have hp : (sl == sliceId 9 0) = false := beq_eq_false_iff_ne.2 (by rintro rfl; revert plain; decide)
    rw [retires_policySet, if_pos cls.symm, retire, hbm, hp]
    rfl
  rw [exec_failPolicy runs (by omega) (by omega)]
  exact congrArg (fun t => repliesOk c s t 0) (endHold_retired plain holds startup ret)

/-! ## Patrol scrub (R570, R606) -/

theorem exec_patrolScrub (s : State) (a b : Nat) : exec (.patrolScrub a b) s = .next { s with kiln := { s.kiln with
    err := (s.kiln.err.put 3 ((s.kiln.err.get 3 + a) % 2 ^ 64)).put 4 ((s.kiln.err.get 4 + b) % 2 ^ 64) } } := by
  have other : (s.kiln.err.put 3 (wrapAdd 64 (s.kiln.err.get 3) a)).get 4 = s.kiln.err.get 4 := SMap.get_put_ne _ _ (by decide)
  change Host.Outcome.next (kilnErr 4 b (kilnErr 3 a s)) = _
  unfold kilnErr
  dsimp only
  rw [other]
  rfl

/-- Settles O57: each command of Kiln by its checks and its effect. -/
theorem kilnCommandsFollowTheLifeCycle : Obligations.KilnCommandsFollowTheLifeCycle := by
  unfold Obligations.KilnCommandsFollowTheLifeCycle
  refine ⟨fun c s runs => ⟨_, exec_kilnStatus runs, bits_kilnStatusWord s⟩, fun c s runs => ⟨fun cls range => ?schedule, fun bad => ?unscheduled⟩,
    fun c s runs => ⟨fun prov ret => exec_kilnRun_denied runs prov ret, fun permit => ⟨fun absent => exec_kilnRun_badParam runs permit absent,
      fun there unable => exec_kilnRun_badState runs permit there (.inr unable), fun retired => runnable_of_block retired,
      fun there low able => exec_kilnRun_unit runs permit there low able,
      fun there kept high => exec_kilnRun_block runs permit there high kept, ?core⟩⟩,
    fun c s runs => ⟨fun cls way none_ => exec_failPolicy_holds runs cls way (by simp [none_]), fun bad => exec_failPolicy_refused runs bad⟩,
    fun c s runs => ⟨_, rfl⟩, fun c s sl runs holds cls way keeps => exec_failPolicy_holds runs cls way ?held,
    fun c s sl runs holds startup retire plain cls => ⟨_, exec_failPolicy_ends runs holds startup retire plain cls, ?ends⟩,
    exec_patrolScrub⟩
  case schedule =>
    obtain ⟨m, b, n, w, eq, banks⟩ := recounted_eq (c.p 0 1) (periodSet (c.p 0 1) (c.p 4 4) (taken c s))
    have period (d : Nat) := (kilnPeriod_counted (periodSet (c.p 0 1) (c.p 4 4) (taken c s)) m b n w d).trans
      (kilnPeriod_periodSet (c.p 0 1) (c.p 4 4) d (taken c s))
    refine ⟨_, exec_kilnSchedule runs cls range, ?_⟩
    rw [eq]
    refine ⟨(period _).trans (if_pos rfl), fun d other => (period d).trans (if_neg other), rfl, rfl, rfl, rfl, fun k => ?_⟩
    obtain ⟨l, at_⟩ := banks k
    exact ⟨(congrArg Rot.stage at_ :), (congrArg Rot.spare at_ :), (congrArg Rot.move at_ :)⟩
  case unscheduled =>
    refine exec_kilnSchedule_refused runs (bad.imp_right fun ⟨some_, out⟩ range => ?_)
    rcases range with zero | ⟨lo, hi⟩
    · exact some_ zero
    · omega
  case core =>
    intro i lt unit kept idle none_
    have cls : c.p 0 2 / 4096 = 2 := by omega
    have index : c.p 0 2 % 4096 = i := by omega
    have able : runnable s (c.p 0 2) = true := by
      unfold runnable
      rw [if_neg (by simpa using kept), if_neg (by omega)]
    have there : sliceExists (c.p 0 2) = true := by
      rw [sliceExists, cls, index]
      exact decide_eq_true lt
    have free : ¬ (resourceBusy s (c.p 0 2) = true ∨ queuedFor s (c.p 0 2) = true) := by
      simp [resourceBusy, cls, idle, queuedFor, none_]
    rw [exec_kilnRun_unit runs permit there (by omega) able, if_neg free, beginTest, cls, index]
    change Host.Outcome.next { kilnAsked c s with kiln := { (kilnAsked c s).kiln with
      core := some (i, false, false, s.tick), runs := match s.kiln.core with
        | some (c, _, _, _) => s.kiln.runs.filter (· != sliceId 2 c)
        | none => s.kiln.runs } } = _
    rw [idle]
    rfl
  case held =>
    intro h mem
    rw [holds, List.mem_singleton] at mem
    exact mem ▸ retires_held keeps
  case ends => 
    obtain ⟨kiln, -, -⟩ := kiln_postBlockRetired sl
      { policySet c (taken c s) with kiln := { (policySet c (taken c s)).kiln with holds := [], blocks := sl :: s.kiln.blocks } }
    refine ⟨(congrArg Kiln.holds kiln :), (congrArg Kiln.blocks kiln :), ?_, ?_, ?_⟩
    · rfl
    · rfl
    · exact (congrArg (fun u : State => core { u with kiln := s.kiln }) (core_holdEnded sl (policySet c (taken c s))) :)

end Sys2Proof.Machine

/-! Kiln's rotations of banks and buffer slices: steps, tests and copies (R575 to R578, R583, R585). -/
namespace Sys2Proof.Machine

/-! ## The rotation of a slice -/

theorem setRot_setRot (i : Nat) (f g : Rot → Rot) (s : State) : setRot i g (setRot i f s) = setRot i (fun r => g (f r)) s := by
  unfold setRot
  split
  · dsimp only
    rw [SMap.upd_upd]
  · rfl

theorem rotOf_setRot (i : Nat) (f : Rot → Rot) (s : State) : rotOf (setRot i f s) i = f (rotOf s i) := by
  unfold setRot rotOf
  split
  · exact SMap.get_upd_same ..
  · rfl

/-- A change of a rotation depends on what it makes of that rotation alone. -/
theorem setRot_congr {i : Nat} {f g : Rot → Rot} {s : State} (h : f (rotOf s i) = g (rotOf s i)) : setRot i f s = setRot i g s := by
  unfold rotOf at h
  unfold setRot SMap.upd
  split at h
  · next bank => rw [if_pos bank, if_pos bank, h]
  · next buf => rw [if_neg buf, if_neg buf, h]

/-- What a change of a rotation leaves of Kiln. -/
theorem kiln_setRot (i : Nat) (f : Rot → Rot) (s : State) :
    (setRot i f s).kiln.queue = s.kiln.queue ∧ (setRot i f s).kiln.asked = s.kiln.asked ∧ (setRot i f s).kiln.runs = s.kiln.runs ∧
    (setRot i f s).kiln.gone = s.kiln.gone ∧ (setRot i f s).kiln.passes = s.kiln.passes ∧ (setRot i f s).kiln.fails = s.kiln.fails ∧
    (setRot i f s).kiln.lastSlice = s.kiln.lastSlice ∧ (setRot i f s).kiln.lastResult = s.kiln.lastResult ∧
    ∀ k, { setRot i f s with kiln := k } = { s with kiln := k } := by
  unfold setRot
  split <;> exact ⟨rfl, rfl, rfl, rfl, rfl, rfl, rfl, rfl, fun _ => rfl⟩

@[simp] theorem queuedFor_setRot (i j : Nat) (f : Rot → Rot) (s : State) : queuedFor (setRot i f s) j = queuedFor s j := by
  rw [queuedFor, (kiln_setRot i f s).1, queuedFor]

theorem testStarts_of_unasked {s : State} (none_ : s.kiln.asked = []) (slice : Nat) : testStarts slice s = s := by
  unfold testStarts
  rw [none_]
  rfl

theorem runResult_of_notRun {s : State} (none_ : s.kiln.runs = []) (slice : Nat) (fail : Option (Nat × Nat)) :
    runResult slice fail s = s := by
  unfold runResult
  rw [none_]
  rfl

/-! ## Steps (R575, R577) -/

section
variable {s : State} {slice cls k : Nat}

theorem rotStep_early (early : kilnDue s cls k (rotOf s slice).last = false) : rotStep slice cls k s = s := if_pos (by simp [early])

variable (due : kilnDue s cls k (rotOf s slice).last = true)
include due

/-- An instant that comes while the resource is busy, or without a spare, is missed. -/
theorem rotStep_missed (busy : (rotOf s slice).stage ≠ 0 ∨ (rotOf s slice).spare = none ∨ queuedFor s slice = true) :
    rotStep slice cls k s = setRot slice (fun r => { r with last := kilnInstants s cls k }) s := by
  unfold rotStep
  dsimp only
  rw [due, if_neg (by decide), queuedFor_setRot]
  by_cases b : (rotOf s slice).stage ≠ 0 ∨ queuedFor s slice = true
  · exact if_pos (by simpa using b)
  · rw [if_neg (by simpa using b)]
    have none_ : (rotOf s slice).spare = none := by tauto
    rw [none_]

theorem rotStep_tests (idle : (rotOf s slice).stage = 0) (spare : (rotOf s slice).spare.isSome = true)
    (free : queuedFor s slice = false) (none_ : s.kiln.asked = []) : rotStep slice cls k s =
      setRot slice (fun r => { r with last := kilnInstants s cls k, stage := 1, move := none }) s := by
  obtain ⟨sp, spare⟩ := Option.isSome_iff_exists.1 spare
  unfold rotStep
  dsimp only
  rw [due, if_neg (by decide), queuedFor_setRot, if_neg (by simp [idle, free]), spare]
  dsimp only [testSpare]
  rw [setRot_setRot, testStarts_of_unasked ((kiln_setRot ..).2.1.trans none_)]

end

/-! ## Banks and the buffer -/

/-- The rotation of a pipeline's banks is replaced. -/
def withBank (k : Nat) (r : Rot) (s : State) : State := { s with kiln := { s.kiln with banks := s.kiln.banks.put k r } }

/-- The rotation of the buffer slices is replaced. -/
def withBuf (r : Rot) (s : State) : State := { s with kiln := { s.kiln with buf := r } }

section
variable {k u : Nat} (bank : k < 16) (unit : u < 17)
include bank unit

theorem bank_class : (17 * k + u) / 4096 = 0 := by omega
omit bank in
theorem bank_index : (17 * k + u) / 17 = k := by omega
theorem bank_unit : unitOf (17 * k + u) = u := by
  rw [unitOf, bank_class bank unit]
  exact (if_pos rfl).trans (by omega)

theorem rotOf_bank (s : State) : rotOf s (17 * k + u) = s.kiln.banks.get k := by
  rw [rotOf, bank_class bank unit, bank_index unit]
  rfl

theorem setRot_bank (f : Rot → Rot) (s : State) : setRot (17 * k + u) f s = withBank k (f (s.kiln.banks.get k)) s := by
  rw [setRot, bank_class bank unit, bank_index unit]
  rfl

theorem bank_exists : sliceExists (17 * k + u) = true := by
  rw [sliceExists, bank_class bank unit]
  exact decide_eq_true ((Nat.mod_le _ _).trans_lt (show 17 * k + u < 272 by omega))

theorem bank_sibling (v : Nat) : siblingOf (17 * k + u) v = 17 * k + v := by
  rw [siblingOf, bank_class bank unit, bank_index unit]
  exact (if_pos rfl).trans (by omega)

theorem bank_logicalCount : logicalCount (17 * k + u) = 16 := by
  rw [logicalCount, bank_class bank unit]
  rfl

end

theorem withBank_withBank (k : Nat) (a b : Rot) (s : State) : withBank k b (withBank k a s) = withBank k b s := by
  simp only [withBank, SMap.put_put]

theorem get_withBank (k : Nat) (r : Rot) (s : State) : (withBank k r s).kiln.banks.get k = r := SMap.get_put_same ..

theorem setRot_buf (f : Rot → Rot) (s : State) : setRot 4096 f s = withBuf (f s.kiln.buf) s := rfl

/-! ## The mapping switches (R575, R583) -/

/-- A logical unit served by the spare; the unit it left is the spare. -/
def Rot.switched (r : Rot) (m : Move) (sp n : Nat) : Rot :=
  { r with map := r.map.put m.logical sp, next := (m.logical + 1) % n, spare := some m.phys, stage := 0, move := none }

/-- A logical unit served by the spare; the unit it left is tested. -/
def Rot.vacated (r : Rot) (m : Move) (sp : Nat) : Rot :=
  { r with map := r.map.put m.logical sp, spare := none, stage := 3, move := some m }

theorem switchRot_untargeted {slice : Nat} {s : State} {m : Move} {sp : Nat} (moves : (rotOf s slice).move = some m)
    (spare : (rotOf s slice).spare = some sp) (none_ : s.kiln.asked = []) (plain : m.targeted = false) :
    switchRot slice s = setRot slice (fun r => r.switched m sp (logicalCount slice)) s := by
  unfold switchRot
  dsimp only
  rw [moves, spare]
  dsimp only
  simp only [none_, plain, List.any_nil, Bool.or_self, Bool.false_and, Bool.false_eq_true, if_false]
  rfl

theorem switchRot_targeted_buf {s : State} {m : Move} {sp : Nat} (moves : s.kiln.buf.move = some m)
    (spare : s.kiln.buf.spare = some sp) (none_ : s.kiln.asked = []) (targeted : m.targeted = true) :
    switchRot 4096 s = withBuf (s.kiln.buf.vacated m sp) s := by
  have at_ : rotOf s 4096 = s.kiln.buf := rfl
  unfold switchRot
  dsimp only
  rw [at_, moves, spare]
  dsimp only
  simp only [targeted, Bool.true_or, if_true]
  rw [if_neg (by decide)]
  exact (testStarts_of_unasked ((kiln_setRot ..).2.1.trans none_) _).trans (setRot_buf ..)

/-- A copy's end switches the mapping (R575). -/
theorem exec_kilnCopyDone {s : State} {slice : Nat} {m : Move} (low : slice / 4096 < 2) (there : sliceExists slice = true)
    (stage : (rotOf s slice).stage = 2) (ready : s.fw.ready = true) (moves : (rotOf s slice).move = some m) (over_ : m.copyAt = none) :
    exec (.kilnCopyDone slice) s = .next (switchRot slice s) := by
  change execKilnCopyDone slice s = _
  unfold execKilnCopyDone
  dsimp only
  rw [moves]
  exact if_pos (by simp [low, there, stage, ready, over_])

theorem exec_kilnCopyDone_next (s : State) (slice : Nat) : ∃ t, exec (.kilnCopyDone slice) s = .next t := by
  change ∃ t, execKilnCopyDone slice s = _
  unfold execKilnCopyDone
  dsimp only
  split
  · split <;> exact ⟨_, rfl⟩
  · exact ⟨_, rfl⟩

theorem exec_kilnCopyDone_idle {s : State} {slice : Nat} (idle : s.fw.ready = false ∨ sliceExists slice = false ∨ 2 ≤ slice / 4096 ∨
    (rotOf s slice).stage ≠ 2 ∨ (rotOf s slice).move = none) : exec (.kilnCopyDone slice) s = .next s := by
  change execKilnCopyDone slice s = _
  unfold execKilnCopyDone
  dsimp only
  split
  · next m moves =>
    refine if_neg fun all => ?_
    simp only [Bool.and_eq_true, decide_eq_true_eq, beq_iff_eq] at all
    obtain ⟨⟨⟨⟨low, there⟩, stage⟩, -⟩, ready⟩ := all
    rcases idle with off | absent | high | other | none_
    · simp [ready] at off
    · simp [there] at absent
    · omega
    · exact other stage
    · simp [moves] at none_
  · rfl

theorem exec_kilnBufferCopy_idle {s : State} (idle : s.kiln.buf.move = none ∨ s.kiln.buf.stage ≠ 2 ∨
    ∃ m, s.kiln.buf.move = some m ∧ m.copyAt = none) : exec .kilnBufferCopy s = .next s := by
  change execKilnBufferCopy s = _
  unfold execKilnBufferCopy
  split
  · next m moves =>
    split
    · next d at_ =>
      refine if_neg fun both => ?_
      rcases idle with none_ | other | ⟨n, moves', over_⟩
      · simp [moves] at none_
      · simp [other] at both
      · simp_all
    · rfl
  · rfl

theorem exec_kilnBufferCopy {s : State} {m : Move} {d : Nat} (stage : s.kiln.buf.stage = 2) (moves : s.kiln.buf.move = some m)
    (at_ : m.copyAt = some d) : exec .kilnBufferCopy s = .next (if d ≤ s.tick then
      { s with kiln := { s.kiln with buf := { s.kiln.buf with move := some { m with copyAt := none } } } } else s) := by
  change execKilnBufferCopy s = _
  unfold execKilnBufferCopy
  rw [moves]
  dsimp only
  rw [at_]
  dsimp only
  by_cases late : d ≤ s.tick
  · rw [if_pos late]
    exact if_pos (by simp [late, stage])
  · rw [if_neg late]
    exact if_neg (by simp [late])

/-! ## Tests of banks (R575, R583, R585) -/

/-- A test is counted, and its slice and result are the last (R594). -/
def Kiln.resulted (k : Kiln) (slice : Nat) (pass : Bool) : Kiln :=
  { k with
    passes := if pass then satAdd 32 k.passes 1 else k.passes, fails := if pass then k.fails else satAdd 32 k.fails 1
    lastSlice := slice, lastResult := if pass then 1 else 2 }

section
variable {s : State} {k u : Nat} {r : Rot} (bank : k < 16) (unit : u < 17) (ready : s.fw.ready = true) (at_ : s.kiln.banks.get k = r)
include bank unit ready at_

/-- The end of a test of a bank: of the spare, or of one that has moved out. -/
theorem exec_kilnTestDone_bank (fail : Option (Nat × Nat)) : exec (.kilnTestDone (17 * k + u) fail) s =
    if (r.stage == 1 && r.spare == some u) = true then .next (spareDone (17 * k + u) fail s)
    else match r.move with
      | some m => if (r.stage == 3 && m.phys == u) = true then .next (movedDone (17 * k + u) m fail s) else .next s
      | none => .next s := by
  change execKilnTestDone (17 * k + u) fail s = _
  unfold execKilnTestDone
  dsimp only
  rw [ready, bank_exists bank unit, if_neg (by decide), bank_class bank unit, bank_unit bank unit, ← at_, ← rotOf_bank bank unit]
  rfl

theorem exec_kilnTestDone_spare (stage : r.stage = 1) (spare : r.spare = some u) (fail : Option (Nat × Nat)) :
    exec (.kilnTestDone (17 * k + u) fail) s = .next (spareDone (17 * k + u) fail s) :=
  (exec_kilnTestDone_bank bank unit ready at_ fail).trans (if_pos (by simp [stage, spare]))

theorem exec_kilnTestDone_moved {m : Move} (phys : m.phys = u) (stage : r.stage = 3) (moves : r.move = some m) (fail : Option (Nat × Nat)) :
    exec (.kilnTestDone (17 * k + u) fail) s = .next (movedDone (17 * k + u) m fail s) := by
  rw [exec_kilnTestDone_bank bank unit ready at_ fail, if_neg (by simp [stage]), moves]
  exact if_pos (by simp [stage, phys])

end

theorem exec_kilnTestDone_none {s : State} {slice : Nat} (none_ : s.fw.ready = false ∨ sliceExists slice = false)
    (fail : Option (Nat × Nat)) : exec (.kilnTestDone slice fail) s = .next s := if_pos (by simpa using none_)

end Sys2Proof.Machine

/-! What the tests of banks leave (R575, R583, R585, R594). -/
namespace Sys2Proof.Machine

theorem kilnResult_eq (slice : Nat) (pass : Bool) (s : State) :
    kilnResult slice pass s = { s with kiln := s.kiln.resulted slice pass } := rfl

theorem core_runResult (slice : Nat) (fail : Option (Nat × Nat)) (s : State) :
    core { runResult slice fail s with kiln := s.kiln } = core s := by
  unfold runResult
  split
  · have kept (k : Kiln) : core (postKiln slice false false false fail { s with kiln := k }) = core { s with kiln := k } := by
      unfold postKiln
      split <;> exact core_postAll ..
    exact (congrArg (fun u : State => core { u with kiln := s.kiln }) (kept _) :)
  · rfl

@[simp] theorem core_postKiln (slice : Nat) (t u h : Bool) (fail : Option (Nat × Nat)) (s : State) :
    core (postKiln slice t u h fail s) = core s := by
  unfold postKiln
  split <;> exact core_postAll ..

@[simp] theorem core_postBankRetired (slice l : Nat) (s : State) : core (postBankRetired slice l s) = core s := core_postAll ..
@[simp] theorem core_postSpareRetired (slice : Nat) (s : State) : core (postSpareRetired slice s) = core s := core_postAll ..

theorem offKiln_of_core {s t : State} (h : core t = core s) (k : Kiln) : core { t with kiln := k } = core { s with kiln := k } :=
  (congrArg (fun u : State => core { u with kiln := k }) h :)

/-- A unit of a pipeline's banks is retired, its rotation having become `r` (R585). -/
def bankGone (k u : Nat) (r : Rot) (s : State) : State :=
  { s with kiln := { s.kiln with
    banks := s.kiln.banks.put k { r with retired := u :: r.retired }, gone := s.kiln.gone ++ [17 * k + u] } }

section
variable {s : State} {k u : Nat} {r : Rot} (bank : k < 16) (unit : u < 17)
include bank unit

theorem retirePhys_bank (f : Rot → Rot) (at_ : s.kiln.banks.get k = r) :
    retirePhys (17 * k + u) (setRot (17 * k + u) f s) = bankGone k u (f r) s := by
  unfold retirePhys bankGone
  dsimp only
  rw [setRot_setRot, setRot_bank bank unit, bank_unit bank unit, at_]
  rfl

/-- The next logical bank moves into the spare, or switches at once where no set places it (R575). -/
theorem beginMove_bank {b p : Nat} {targeted : Bool} (at_ : s.kiln.banks.get k = r) :
    beginMove (17 * k + u) b p targeted s =
      if bankPlaced s k b = true then withBank k { r with stage := 2, move := some { logical := b, phys := p, targeted := targeted } } s
      else switchRot (17 * k + u) (withBank k { r with stage := 2, move := some { logical := b, phys := p, targeted := targeted } } s) := by
  unfold beginMove
  dsimp only
  rw [setRot_bank bank unit, bank_class bank unit, bank_index unit, at_]
  have placed (w : Rot) : bankPlaced (withBank k w s) k b = bankPlaced s k b := rfl
  rw [placed]
  cases bankPlaced s k b <;> rfl

theorem switchRot_bank {m : Move} {sp : Nat} (at_ : s.kiln.banks.get k = r) (moves : r.move = some m) (spare : r.spare = some sp)
    (none_ : s.kiln.asked = []) (plain : m.targeted = false) : switchRot (17 * k + u) s = withBank k (r.switched m sp 16) s := by
  have rot := rotOf_bank bank unit s
  rw [switchRot_untargeted (by rw [rot, at_, moves]) (by rw [rot, at_, spare]) none_ plain, setRot_bank bank unit, at_,
    bank_logicalCount bank unit]

end

section
variable {s : State} {k u : Nat} {r : Rot} (bank : k < 16) (unit : u < 17) (at_ : s.kiln.banks.get k = r) (spare : r.spare = some u)
  (runs : s.kiln.runs = [])
include runs

/-- The state in which the test of a bank that has moved out is told to the host. -/
theorem movedDone_told (m : Move) (fail : Option (Nat × Nat)) : ∃ v, core v = core { s with kiln := s.kiln.resulted (17 * k + u) fail.isNone } ∧
    movedDone (17 * k + u) m fail s = match fail with
      | none => setRot (17 * k + u) (fun r => { r with stage := 0, move := none, spare := some m.phys }) v
      | some _ =>
        if m.logical < 16 then postBankRetired (17 * k + u) m.logical
          (retirePhys (17 * k + u) (setRot (17 * k + u) (fun r => { r with stage := 0, move := none, spare := none }) v))
        else postSpareRetired (17 * k + u)
          (retirePhys (17 * k + u) (setRot (17 * k + u) (fun r => { r with stage := 0, move := none, spare := none }) v)) := by
  refine ⟨if m.targeted then postKiln (17 * k + u) true false false fail (kilnResult (17 * k + u) fail.isNone s)
    else runResult (17 * k + u) fail (kilnResult (17 * k + u) fail.isNone s), ?_, ?_⟩
  · split
    · exact core_postKiln ..
    · rw [runResult_of_notRun (s := kilnResult (17 * k + u) fail.isNone s) runs]
      rfl
  · cases fail <;> rfl

include bank unit at_

include spare in
theorem spareDone_passed (none_ : s.kiln.asked = []) : spareDone (17 * k + u) none s =
    withBank k (if bankPlaced s k r.next = true then { r with stage := 2, move := some { logical := r.next, phys := r.physOf r.next } }
      else { r with map := r.map.put r.next u, next := (r.next + 1) % 16, spare := some (r.physOf r.next), stage := 0, move := none })
      { s with kiln := s.kiln.resulted (17 * k + u) true } := by
  have res : runResult (17 * k + u) none (kilnResult (17 * k + u) true s) = kilnResult (17 * k + u) true s :=
    runResult_of_notRun (s := kilnResult (17 * k + u) true s) runs ..
  change sparePassed (17 * k + u) (runResult (17 * k + u) none (kilnResult (17 * k + u) true s)) = _
  have here : (kilnResult (17 * k + u) true s).kiln.banks.get k = r := at_
  have placed : bankPlaced (kilnResult (17 * k + u) true s) k r.next = bankPlaced s k r.next := rfl
  rw [res, sparePassed, rotOf_bank bank unit, here, beginMove_bank bank unit here, placed, ← kilnResult_eq]
  split
  · rfl
  · refine (switchRot_bank (s := withBank k _ (kilnResult (17 * k + u) true s)) (r := { r with stage := 2, move := some { logical := r.next, phys := r.physOf r.next } }) bank unit
      (get_withBank ..) rfl spare none_ rfl).trans ?_
    rw [withBank_withBank]
    rfl

theorem spareDone_failed (f : Nat × Nat) : spareDone (17 * k + u) (some f) s = postSpareRetired (17 * k + u)
    (bankGone k u { r with stage := 0, spare := none } { s with kiln := s.kiln.resulted (17 * k + u) false }) := by
  have res : runResult (17 * k + u) (some f) (kilnResult (17 * k + u) false s) = kilnResult (17 * k + u) false s :=
    runResult_of_notRun (s := kilnResult (17 * k + u) false s) runs ..
  change postSpareRetired (17 * k + u) (retirePhys (17 * k + u) (setRot (17 * k + u) (fun r => { r with stage := 0, spare := none })
    (runResult (17 * k + u) (some f) (kilnResult (17 * k + u) false s)))) = _
  rw [res, retirePhys_bank (s := kilnResult (17 * k + u) false s) bank unit _ at_, kilnResult_eq]

theorem movedDone_passed {m : Move} : ∃ t, movedDone (17 * k + u) m none s = t ∧
    t.kiln.banks.get k = { r with stage := 0, move := none, spare := some m.phys } ∧ core { t with kiln := s.kiln } = core s := by
  obtain ⟨v, kept, eq⟩ := movedDone_told runs m none
  have here : v.kiln.banks.get k = r := (congrArg (fun k' : Kiln => k'.banks.get k) (kiln_of_core kept)).trans at_
  refine ⟨_, eq, ?_⟩
  dsimp only
  rw [setRot_bank bank unit, get_withBank, here]
  exact ⟨rfl, offKiln_of_core kept s.kiln⟩

theorem movedDone_failed {m : Move} (f : Nat × Nat) : ∃ t, movedDone (17 * k + u) m (some f) s = t ∧ core { t with kiln := s.kiln } = core s ∧
    t.kiln.banks.get k = { r with stage := 0, move := none, spare := none, retired := u :: r.retired } ∧
    t.kiln.gone = s.kiln.gone ++ [17 * k + u] := by
  obtain ⟨v, kept, eq⟩ := movedDone_told runs m (some f)
  have here : v.kiln.banks.get k = r := (congrArg (fun k' : Kiln => k'.banks.get k) (kiln_of_core kept)).trans at_
  have gone : v.kiln.gone = s.kiln.gone := (congrArg Kiln.gone (kiln_of_core kept) :)
  refine ⟨_, eq, ?_⟩
  dsimp only
  rw [retirePhys_bank bank unit _ here]
  have told : ∀ t, core t = core (bankGone k u { r with stage := 0, move := none, spare := none } v) →
      core { t with kiln := s.kiln } = core s ∧
      t.kiln.banks.get k = { r with stage := 0, move := none, spare := none, retired := u :: r.retired } ∧
      t.kiln.gone = s.kiln.gone ++ [17 * k + u] := fun t same =>
    ⟨(offKiln_of_core same s.kiln).trans (offKiln_of_core kept s.kiln), by rw [kiln_of_core same]; exact SMap.get_put_same ..,
      by rw [kiln_of_core same, bankGone, gone]⟩
  split
  · exact told _ (core_postBankRetired ..)
  · exact told _ (core_postSpareRetired ..)

end

end Sys2Proof.Machine

/-! Cipher cores and fragment ways under test (R580 to R583, R587). -/
namespace Sys2Proof.Machine

/-! ## Cores (R580) -/

/-- The instants of the cores' schedule that have passed are counted as `n`. -/
def coreAt (n : Nat) (s : State) : State := { s with kiln := { s.kiln with coreLast := n } }

/-- What that count leaves of the cores. -/
theorem coreAt_keeps (n : Nat) (s : State) : (coreAt n s).kiln.core = s.kiln.core ∧ nextCore (coreAt n s) = nextCore s ∧
    queuedFor (coreAt n s) 8192 = queuedFor s 8192 := ⟨rfl, rfl, rfl⟩

theorem coreStops_coreAt (c n : Nat) (s : State) : coreStops c (coreAt n s) = { s with kiln := { s.kiln with
    coreLast := n, core := some (c, false, false, s.tick), coreNext := (c + 1) % 80 } } := rfl

theorem coreInstant_keeps (s : State) : (coreInstant s).kiln.core = s.kiln.core ∧ nextCore (coreInstant s) = nextCore s ∧
    queuedFor (coreInstant s) 8192 = queuedFor s 8192 := coreAt_keeps (kilnInstants s 2 0) s

section
variable {s : State}

theorem exec_kilnCipherStep_early (early : kilnDue s 2 0 s.kiln.coreLast = false) : exec .kilnCipherStep s = .next s := if_pos (by simp [early])

theorem nextCore_none (none_ : ∀ c, c < 80 → coreUsable s c = false) : nextCore s = none := by
  refine List.find?_eq_none.2 fun c mem => ?_
  obtain ⟨i, -, rfl⟩ := List.mem_map.1 mem
  simp [none_ _ (Nat.mod_lt (s.kiln.coreNext + i) (by decide : 0 < 80))]

theorem nextCore_first (lt : s.kiln.coreNext < 80) (usable : coreUsable s s.kiln.coreNext = true) : nextCore s = some s.kiln.coreNext := by
  have first : (s.kiln.coreNext + 0) % 80 = s.kiln.coreNext := Nat.mod_eq_of_lt lt
  rw [nextCore, show List.range 80 = 0 :: (List.range 79).map (· + 1) from List.range_succ_eq_map .., List.map_cons, List.find?_cons, first,
    usable]

variable (due : kilnDue s 2 0 s.kiln.coreLast = true)
include due

theorem exec_kilnCipherStep_missed
    (busy : s.kiln.core.isSome = true ∨ queuedFor s 8192 = true ∨ ∀ c, c < 80 → coreUsable s c = false) :
    exec .kilnCipherStep s = .next (coreInstant s) := by
  change execKilnCipherStep s = _
  unfold execKilnCipherStep
  dsimp only
  obtain ⟨core, next_, queued⟩ := coreInstant_keeps s
  rw [due, if_neg (by decide), show sliceId 2 0 = 8192 by decide, queued, core, next_]
  by_cases b : s.kiln.core.isSome = true ∨ queuedFor s 8192 = true
  · exact if_pos ((Bool.or_eq_true _ _).mpr b)
  · have none_ : nextCore s = none := nextCore_none (by tauto)
    refine (if_neg (mt (Bool.or_eq_true _ _).mp b)).trans ?_
    rw [none_]

theorem exec_kilnCipherStep_stops (idle : s.kiln.core = none) (free : queuedFor s 8192 = false) (lt : s.kiln.coreNext < 80)
    (usable : coreUsable s s.kiln.coreNext = true) : exec .kilnCipherStep s = .next { s with kiln := { s.kiln with
      coreLast := kilnInstants s 2 0, core := some (s.kiln.coreNext, false, false, s.tick)
      coreNext := (s.kiln.coreNext + 1) % 80 } } := by
  change execKilnCipherStep s = _
  unfold execKilnCipherStep
  dsimp only
  obtain ⟨core, next_, queued⟩ := coreInstant_keeps s
  rw [due, if_neg (by decide), show sliceId 2 0 = 8192 by decide, queued, core, next_, idle, free, nextCore_first lt usable]
  exact (if_neg (by decide)).trans (congrArg Host.Outcome.next (coreStops_coreAt s.kiln.coreNext (kilnInstants s 2 0) s))

end

theorem exec_kilnCore_idle {s : State} (idle : s.kiln.core = none ∨ ∃ c tg d, s.kiln.core = some (c, true, tg, d)) :
    exec .kilnCoreDrained s = .next s ∧ exec .kilnCipherDrainTimeout s = .next s := by
  change execKilnCoreDrained s = _ ∧ execKilnCipherDrainTimeout s = _
  unfold execKilnCoreDrained execKilnCipherDrainTimeout
  rcases idle with none_ | ⟨c, tg, d, tested⟩
  · rw [none_]
    exact ⟨rfl, rfl⟩
  · rw [tested]
    exact ⟨rfl, rfl⟩

theorem exec_kilnCipherDrainTimeout_targeted {s : State} {c d : Nat} (stops : s.kiln.core = some (c, false, true, d)) :
    exec .kilnCipherDrainTimeout s = .next s := by
  change execKilnCipherDrainTimeout s = _
  unfold execKilnCipherDrainTimeout
  rw [stops]

theorem exec_kilnCore_next (s : State) : (∃ t, exec .kilnCoreDrained s = .next t) ∧ ∃ t, exec .kilnCipherDrainTimeout s = .next t := by
  change (∃ t, execKilnCoreDrained s = .next t) ∧ ∃ t, execKilnCipherDrainTimeout s = .next t
  unfold execKilnCoreDrained execKilnCipherDrainTimeout
  constructor
  · split
    · split <;> exact ⟨_, rfl⟩
    · exact ⟨_, rfl⟩
  · split
    · split <;> exact ⟨_, rfl⟩
    · exact ⟨_, rfl⟩

theorem exec_kilnCoreDrained {s : State} {c d : Nat} {tg : Bool} (stops : s.kiln.core = some (c, false, tg, d)) (none_ : s.kiln.asked = []) :
    exec .kilnCoreDrained s =
      .next (if coreOps s c = [] then { s with kiln := { s.kiln with core := some (c, true, tg, d) } } else s) := by
  change execKilnCoreDrained s = _
  unfold execKilnCoreDrained
  rw [stops]
  dsimp only
  by_cases drained : coreOps s c = []
  · rw [if_pos drained]
    exact (if_pos (by simp [drained])).trans (congrArg Host.Outcome.next
      (testStarts_of_unasked (s := { s with kiln := { s.kiln with core := some (c, true, tg, d) } }) none_ _))
  · rw [if_neg drained]
    exact if_neg (by simpa using drained)

theorem runSkipped_of_unasked {s : State} (none_ : s.kiln.asked = []) (slice : Nat) : runSkipped slice s = s := by
  unfold runSkipped
  rw [none_]
  rfl

theorem exec_kilnCipherDrainTimeout {s : State} {c d : Nat} (stops : s.kiln.core = some (c, false, false, d)) (none_ : s.kiln.asked = []) :
    exec .kilnCipherDrainTimeout s = .next (if d + 1600000 ≤ s.tick ∧ coreOps s c ≠ [] then
      { s with kiln := { s.kiln with core := none, err := s.kiln.err.put 10 ((s.kiln.err.get 10 + 1) % 2 ^ 64) } } else s) := by
  change execKilnCipherDrainTimeout s = _
  unfold execKilnCipherDrainTimeout
  rw [stops]
  dsimp only
  have late : (decide (d + msT 2 ≤ s.tick) && !(coreOps s c).isEmpty) = true ↔ d + 1600000 ≤ s.tick ∧ coreOps s c ≠ [] := by
    simp [show msT 2 = 1600000 from rfl]
  by_cases held : d + 1600000 ≤ s.tick ∧ coreOps s c ≠ []
  · rw [if_pos held]
    exact (if_pos (late.2 held)).trans (congrArg Host.Outcome.next
      (runSkipped_of_unasked (s := kilnErr 10 1 { s with kiln := { s.kiln with core := none } }) none_ _))
  · rw [if_neg held]
    exact if_neg (mt late.1 held)

/-! The test of a core ends (R583, R587). -/

section
variable {s : State} {c : Nat}

theorem core_class (lt : c < 80) : (8192 + c) / 4096 = 2 ∧ (8192 + c) % 4096 = c := by omega

theorem core_exists (lt : c < 80) : sliceExists (8192 + c) = true := by
  obtain ⟨cls, index⟩ := core_class lt
  rw [sliceExists, cls, index]
  exact decide_eq_true lt

variable {d : Nat} {tg : Bool}

theorem exec_kilnTestDone_core (ready : s.fw.ready = true) (lt : c < 80) (tests : s.kiln.core = some (c, true, tg, d))
    (fail : Option (Nat × Nat)) : exec (.kilnTestDone (8192 + c) fail) s =
      .next (blockTested (8192 + c) tg fail { s with kiln := { s.kiln with core := none } }) := by
  obtain ⟨cls, index⟩ := core_class lt
  change execKilnTestDone (8192 + c) fail s = _
  unfold execKilnTestDone
  dsimp only
  rw [ready, core_exists lt, if_neg (by decide), cls, index]
  change (match s.kiln.core with
    | some (c', true, t, _) =>
      if (c' == c) = true then Host.Outcome.next (blockTested (8192 + c) t fail { s with kiln := { s.kiln with core := none } })
      else Host.Outcome.next s
    | _ => Host.Outcome.next s) = _
  rw [tests]
  exact if_pos (by simp)

end

/-- The state in which the result of the test of a core or way stands. -/
def blockCounted (slice : Nat) (pass : Bool) (s : State) : State :=
  { s with kiln := { s.kiln.resulted slice pass with runs := s.kiln.runs.filter (· != slice) } }

theorem core_blockTested_passed (slice : Nat) (targeted : Bool) (s : State) :
    core (blockTested slice targeted none s) = core (blockCounted slice true s) := by
  change core (if (targeted || s.kiln.runs.contains slice) = true then postKiln slice targeted false false none (blockCounted slice true s)
    else blockCounted slice true s) = _
  split
  · exact core_postKiln ..
  · rfl

/-- A test that fails goes to the policy of its block (R583, R587). -/
theorem blockTested_failed {slice : Nat} (plain : slice / 4096 = 2 ∨ slice / 4096 = 3) (targeted : Bool) (f : Nat × Nat) (s : State) :
    ∃ u, core u = core (blockCounted slice false s) ∧ blockTested slice targeted (some f) s =
      if retires s slice = true then postBlockRetired slice { u with kiln := { u.kiln with blocks := slice :: u.kiln.blocks } }
      else holdBy slice true u := by
  refine ⟨postKiln slice targeted false (!retires (blockCounted slice false s) slice) (some f) (blockCounted slice false s),
    core_postKiln .., ?_⟩
  change blockFails slice (postKiln slice targeted false (!retires (blockCounted slice false s) slice) (some f) (blockCounted slice false s)) = _
  have kept := kiln_of_core (core_postKiln slice targeted false (!retires (blockCounted slice false s) slice) (some f) (blockCounted slice false s))
  generalize postKiln slice targeted false (!retires (blockCounted slice false s) slice) (some f) (blockCounted slice false s) = u at kept ⊢
  have policy : retires u slice = retires s slice := by
    unfold retires
    rw [kept]
    rfl
  unfold blockFails lastingBlock
  dsimp only
  rw [if_neg (show ¬ (slice / 4096 == 10 && _) = true by rcases plain with e | e <;> simp [e]), policy, retireBlock_plain (by tauto)]

theorem exec_kilnTestDone_core_passed {s : State} {c d : Nat} {tg : Bool} (ready : s.fw.ready = true) (lt : c < 80)
    (tests : s.kiln.core = some (c, true, tg, d)) :
    ∃ t, exec (.kilnTestDone (8192 + c) none) s = .next t ∧ t.kiln.core = none ∧ t.kiln.passes = min (2 ^ 32 - 1) (s.kiln.passes + 1) ∧
      t.kiln.blocks = s.kiln.blocks ∧ core { t with kiln := s.kiln } = core s := by
  have kept := core_blockTested_passed (8192 + c) tg { s with kiln := { s.kiln with core := none } }
  refine ⟨_, exec_kilnTestDone_core ready lt tests none, ?_⟩
  rw [kiln_of_core kept, offKiln_of_core kept]
  exact ⟨rfl, rfl, rfl, rfl⟩

theorem exec_kilnTestDone_core_retired {s : State} {c d : Nat} {tg : Bool} (ready : s.fw.ready = true) (lt : c < 80)
    (tests : s.kiln.core = some (c, true, tg, d)) (f : Nat × Nat) (ret : retires s (8192 + c) = true) :
    ∃ t, exec (.kilnTestDone (8192 + c) (some f)) s = .next t ∧ t.kiln.core = none ∧
      t.kiln.blocks = (8192 + c) :: s.kiln.blocks ∧ core { t with kiln := s.kiln } = core s := by
  obtain ⟨u, same, eq⟩ := blockTested_failed (.inl (core_class lt).1) tg f { s with kiln := { s.kiln with core := none } }
  have kiln := kiln_of_core same
  have kept : core (postBlockRetired (8192 + c) { u with kiln := { u.kiln with blocks := (8192 + c) :: u.kiln.blocks } }) =
      core { u with kiln := { u.kiln with blocks := (8192 + c) :: u.kiln.blocks } } := core_postAll ..
  refine ⟨_, exec_kilnTestDone_core ready lt tests (some f), ?_⟩
  rw [eq, if_pos (show retires { s with kiln := { s.kiln with core := none } } (8192 + c) = true from ret), kiln_of_core kept,
    offKiln_of_core kept]
  dsimp only
  rw [kiln]
  exact ⟨rfl, rfl, offKiln_of_core same s.kiln⟩

theorem exec_kilnTestDone_core_held {s : State} {c d : Nat} {tg : Bool} (ready : s.fw.ready = true) (lt : c < 80)
    (tests : s.kiln.core = some (c, true, tg, d)) (f : Nat × Nat) (held : retires s (8192 + c) = false) :
    ∃ t, exec (.kilnTestDone (8192 + c) (some f)) s = .next t ∧ 8192 + c ∈ t.kiln.holds ∧
      t.pwr.safe = true ∧ t.pwr.released = false ∧ t.pwr.hxReleased = true := by
  obtain ⟨u, same, eq⟩ := blockTested_failed (.inl (core_class lt).1) tg f { s with kiln := { s.kiln with core := none } }
  refine ⟨_, exec_kilnTestDone_core ready lt tests (some f), ?_⟩
  rw [eq, if_neg (show ¬ retires { s with kiln := { s.kiln with core := none } } (8192 + c) = true by
    rw [show retires { s with kiln := { s.kiln with core := none } } (8192 + c) = false from held]; exact Bool.false_ne_true)]
  have pwr := enterSafe_pwr u
  refine ⟨List.mem_append_right _ (List.mem_singleton.2 rfl), (congrArg Pwr.safe pwr :), (congrArg Pwr.released pwr :), rfl⟩

/-! ## Fragment ways (R581, R583) -/

section
variable {s : State} {k : Fin 16}

theorem exec_kilnFragWayStep_early (early : kilnDue s 3 k (s.kiln.wayLast.get k) = false) : exec (.kilnFragWayStep k) s = .next s :=
  if_pos (by simp [early])

/-- The instants of a pipeline's ways up to now are passed. -/
def wayInstant (k : Nat) (s : State) : State := { s with kiln := { s.kiln with wayLast := s.kiln.wayLast.put k (kilnInstants s 3 k) } }

theorem exec_kilnFragWayStep_next (s : State) (k : Fin 16) : ∃ t, exec (.kilnFragWayStep k) s = .next t := by
  change ∃ t, execKilnFragWayStep k s = .next t
  unfold execKilnFragWayStep
  dsimp only
  split
  · exact ⟨_, rfl⟩
  split
  · exact ⟨_, rfl⟩
  split <;> exact ⟨_, rfl⟩

theorem nextWay_first {k w : Nat} (first : s.kiln.wayNext.get k = w) (lt : w < 4) (usable : wayUsable s (k * 4096 + w) = true) :
    nextWay s k = some w := by
  have at_ : (w + 0) % 4 = w := Nat.mod_eq_of_lt lt
  rw [nextWay, first, show List.range 4 = 0 :: [1, 2, 3] from rfl, List.map_cons, List.find?_cons, at_, usable]

theorem wayEmptied_of_unasked (none_ : s.kiln.asked = []) (k : Nat) : wayEmptied k s = s := by
  unfold wayEmptied
  dsimp only
  split
  · exact testStarts_of_unasked none_ _
  · rfl

variable (due : kilnDue s 3 k (s.kiln.wayLast.get k) = true)
include due

theorem exec_kilnFragWayStep_missed (busy : s.kiln.ways.has k = true ∨ queuedFor s (3 * 4096 + 4 * k) = true) :
    exec (.kilnFragWayStep k) s = .next (wayInstant k s) :=
  (if_neg (by simp [due])).trans (if_pos ((Bool.or_eq_true _ _).mpr busy))

theorem exec_kilnFragWayStep_stops {w : Nat} (idle : s.kiln.ways.has k = false) (free : queuedFor s (3 * 4096 + 4 * k) = false)
    (none_ : s.kiln.asked = []) (first : s.kiln.wayNext.get k = w) (lt : w < 4) (usable : wayUsable s (k * 4096 + w) = true) :
    exec (.kilnFragWayStep k) s = .next { s with kiln := { s.kiln with
      wayLast := s.kiln.wayLast.put k (kilnInstants s 3 k), ways := s.kiln.ways.put k (w, false, s.tick)
      wayNext := s.kiln.wayNext.put k ((w + 1) % 4) } } := by
  have busy : ((wayInstant k s).kiln.ways.has k || queuedFor (wayInstant k s) (sliceId 3 (4 * k))) = false := by
    rw [Bool.or_eq_false_iff]
    exact ⟨idle, free⟩
  have next_ : nextWay (wayInstant k s) k = some w := nextWay_first (s := wayInstant k s) first lt usable
  refine (if_neg (by simp [due])).trans ((if_neg (Bool.eq_false_iff.1 busy)).trans ?_)
  change (match nextWay (wayInstant k s) k with
    | some w => Host.Outcome.next (stopWay k w false { wayInstant k s with kiln := { (wayInstant k s).kiln with
        wayNext := (wayInstant k s).kiln.wayNext.put k ((w + 1) % 4) } })
    | none => .next (wayInstant k s)) = _
  rw [next_]
  exact congrArg Host.Outcome.next (wayEmptied_of_unasked (s := { s with kiln := { s.kiln with
    wayLast := s.kiln.wayLast.put k (kilnInstants s 3 k), ways := s.kiln.ways.put k (w, false, s.tick)
    wayNext := s.kiln.wayNext.put k ((w + 1) % 4) } }) none_ k)

end

section
variable {s : State} {k : Fin 16}

theorem exec_kilnWayDrainTimeout_none (none_ : s.kiln.ways.has k = false) : exec (.kilnWayDrainTimeout k) s = .next s :=
  if_pos (by simp [none_])

theorem exec_kilnWayDrainTimeout_next (s : State) (k : Fin 16) : ∃ t, exec (.kilnWayDrainTimeout k) s = .next t := by
  change ∃ t, execKilnWayDrainTimeout k s = .next t
  unfold execKilnWayDrainTimeout
  dsimp only
  split
  · exact ⟨_, rfl⟩
  split <;> exact ⟨_, rfl⟩

variable {w d : Nat} {tg : Bool} (here : s.kiln.ways.has k = true) (at_ : s.kiln.ways.get k = (w, tg, d))
include here at_

theorem exec_kilnWayDrainTimeout (o : Host.Outcome State Fault Refusal)
    (is : (if ((wayLive s k w).isEmpty || decide (s.tick < d + 8000000)) = true then .next s
      else if tg = true then .next ((wayLive s k w).foldl (fun s e => freeFrag e s) s)
      else .next (runSkipped (sliceId 3 (4 * k + w)) (kilnErr 10 1 { s with kiln := { s.kiln with ways := s.kiln.ways.del k } }))) = o) :
    exec (.kilnWayDrainTimeout k) s = o := by
  subst is
  change execKilnWayDrainTimeout k s = _
  unfold execKilnWayDrainTimeout
  rw [at_]
  dsimp only
  rw [here, Bool.not_true, Bool.false_or]
  rfl

theorem exec_kilnWayDrainTimeout_early (early : wayLive s k w = [] ∨ s.tick < d + 8000000) : exec (.kilnWayDrainTimeout k) s = .next s :=
  exec_kilnWayDrainTimeout here at_ _ (if_pos (by simpa using early))

variable (live : wayLive s k w ≠ []) (late : d + 8000000 ≤ s.tick)
include live late

theorem exec_kilnWayDrainTimeout_late (o : Host.Outcome State Fault Refusal)
    (is : (if tg = true then .next ((wayLive s k w).foldl (fun s e => freeFrag e s) s)
      else .next (runSkipped (sliceId 3 (4 * k + w)) (kilnErr 10 1 { s with kiln := { s.kiln with ways := s.kiln.ways.del k } }))) = o) :
    exec (.kilnWayDrainTimeout k) s = o :=
  exec_kilnWayDrainTimeout here at_ o ((if_neg (by simpa using ⟨live, late⟩)).trans is)

theorem exec_kilnWayDrainTimeout_skipped (plain : tg = false) (none_ : s.kiln.asked = []) : exec (.kilnWayDrainTimeout k) s =
    .next { s with kiln := { s.kiln with
      ways := s.kiln.ways.del k, err := s.kiln.err.put 10 ((s.kiln.err.get 10 + 1) % 2 ^ 64) } } :=
  exec_kilnWayDrainTimeout_late here at_ live late _ ((if_neg (by simp [plain])).trans (congrArg Host.Outcome.next
    (runSkipped_of_unasked (s := kilnErr 10 1 { s with kiln := { s.kiln with ways := s.kiln.ways.del k } }) none_ _)))

end

theorem frags_freeFrag (e : Nat) (s : State) : (freeFrag e s).frags = s.frags.del e := by
  have kept (u : State) (k : Nat) : (wayEmptied k u).frags = u.frags := by
    unfold wayEmptied testStarts
    dsimp only
    split
    · split
      · rfl
      · exact (frags_of_core (core_finishExec ..)).trans rfl
    · rfl
  exact kept { s with frags := s.frags.del e } (e / 4096)

theorem frags_foldl_freeFrag (l : List Nat) (s : State) : (l.foldl (fun s e => freeFrag e s) s).frags = l.foldl SMap.del s.frags := by
  induction l generalizing s with
  | nil => rfl
  | cons e l ih => rw [List.foldl_cons, ih, frags_freeFrag, List.foldl_cons]

end Sys2Proof.Machine

/-! Targeted tests (R582, R583), and O58. -/
namespace Sys2Proof.Machine

section
variable {s : State} {sl : Nat}

theorem exec_targetedTestStart_busy (busy : s.fw.ready = false ∨ targetedBusy s sl = true) : exec (.targetedTestStart sl) s = .next s :=
  if_pos (by simpa using busy)

variable (ready : s.fw.ready = true) (free : targetedBusy s sl = false)

theorem exec_targetedTestStart_none (queue : s.kiln.queue.find? (sameResource sl) ≠ some sl) (asked : ∀ a ∈ s.kiln.asked, a.1 ≠ sl) :
    exec (.targetedTestStart sl) s = .next s := by
  have unasked : s.kiln.asked.any (fun a => a.1 == sl) = false := List.any_eq_false.2 fun a mem => by simpa using asked a mem
  change execTargetedTestStart sl s = _
  unfold execTargetedTestStart
  split
  · rfl
  · rw [if_neg (by simpa using queue), unasked]
    rfl

include ready free

theorem exec_targetedTestStart_queued (queue : s.kiln.queue.find? (sameResource sl) = some sl) : exec (.targetedTestStart sl) s =
    .next (beginTest sl true { s with kiln := { s.kiln with queue := s.kiln.queue.filter (· != sl) } }) :=
  (if_neg (by simp [ready, free])).trans (if_pos (by simp [queue]))

theorem exec_targetedTestStart_asked (queue : queuedFor s sl = false) (asked : ∃ a ∈ s.kiln.asked, a.1 = sl)
    (idle : resourceBusy s sl = false) : exec (.targetedTestStart sl) s = .next (beginTest sl false s) := by
  obtain ⟨a, mem, same⟩ := asked
  have none_ : s.kiln.queue.find? (sameResource sl) = none := List.find?_eq_none.2 (List.any_eq_false.1 queue)
  have some_ : s.kiln.asked.any (fun a => a.1 == sl) = true := List.any_eq_true.2 ⟨a, mem, beq_iff_eq.2 same⟩
  refine (if_neg (by simp [ready, free])).trans ((if_neg (by simp [none_])).trans (if_pos ?_))
  rw [some_, queue, idle]
  rfl

end

theorem sameResource_self (a : Nat) : sameResource a a = true := by
  unfold sameResource
  split <;> simp

theorem filter_head (a : Nat) (q : List Nat) : (a :: q).filter (· != a) = q.filter (· != a) := by simp

theorem exec_targetedTestStart_core {s : State} {i : Nat} {q : List Nat} (ready : s.fw.ready = true) (lt : i < 80)
    (queue : s.kiln.queue = (8192 + i) :: q) (free : targetedBusy s (8192 + i) = false) :
    ∃ t, exec (.targetedTestStart (8192 + i)) s = .next t ∧ t.kiln.core = some (i, true, true, s.tick) ∧
      t.kiln.queue = q.filter (· != 8192 + i) ∧ core { t with kiln := s.kiln } = core s := by
  obtain ⟨cls, index⟩ := core_class lt
  refine ⟨_, exec_targetedTestStart_queued ready free (by rw [queue, List.find?_cons, sameResource_self]), ?_⟩
  unfold beginTest
  dsimp only
  rw [cls, index, queue, filter_head]
  exact ⟨rfl, rfl, rfl⟩

/-- A rotation that is idle has no step to give way. -/
theorem abandonRot_idle {slice : Nat} {s : State} (idle : (rotOf s slice).stage = 0) (still : (rotOf s slice).move = none) :
    abandonRot slice s = setRot slice (fun r => r) s := by
  unfold abandonRot
  dsimp only
  rw [idle, still]
  change setRot slice (fun r => { r with stage := 0, move := none, spare := if r.stage == 3 then none else r.spare }) s = _
  refine setRot_congr ?_
  generalize rotOf s slice = r at idle still ⊢
  cases r
  subst idle still
  rfl

theorem exec_targetedTestStart_bank {s : State} {k u b sp : Nat} {r : Rot} {q : List Nat} (ready : s.fw.ready = true) (bank : k < 16)
    (unit : u < 17) (queue : s.kiln.queue = (17 * k + u) :: q) (at_ : s.kiln.banks.get k = r) (idle : r.stage = 0) (still : r.move = none)
    (spare : r.spare = some sp) (other : sp ≠ u) (serves : r.logicalOf 16 u = some b) (placed : bankPlaced s k b = true) :
    ∃ t, exec (.targetedTestStart (17 * k + u)) s = .next t ∧ t.kiln.queue = q.filter (· != 17 * k + u) ∧
      t.kiln.banks.get k = { r with stage := 2, move := some { logical := b, phys := u, targeted := true } } ∧
      core { t with kiln := s.kiln } = core s := by
  have cls := bank_class bank unit
  have free : targetedBusy s (17 * k + u) = false := by
    unfold targetedBusy
    rw [cls, rotOf_bank bank unit, at_, still]
    rfl
  refine ⟨_, exec_targetedTestStart_queued ready free (by rw [queue, List.find?_cons, sameResource_self]), ?_⟩
  rw [queue, filter_head]
  generalize eq : ({ s with kiln := { s.kiln with queue := q.filter (· != 17 * k + u) } } : State) = v
  have here : v.kiln.banks.get k = r := by rw [← eq]; exact at_
  have rot : rotOf v (17 * k + u) = r := (rotOf_bank bank unit v).trans here
  have begins : beginTest (17 * k + u) true v = rotTest (17 * k + u) true (abandonRot (17 * k + u) v) := by
    unfold beginTest
    rw [cls]
    rfl
  have after_ : rotTest (17 * k + u) true (withBank k r v) =
      withBank k { r with stage := 2, move := some { logical := b, phys := u, targeted := true } } v := by
    have again : (withBank k r v).kiln.banks.get k = r := get_withBank ..
    have stays : bankPlaced (withBank k r v) k b = true := by rw [← eq]; exact placed
    unfold rotTest
    dsimp only
    rw [rotOf_bank bank unit, again, bank_unit bank unit, bank_logicalCount bank unit, serves,
      if_neg (by simpa [spare] using other)]
    refine (if_pos (by simp [spare])).trans ?_
    rw [beginMove_bank bank unit again, if_pos stays, withBank_withBank]
  rw [begins, abandonRot_idle (by rw [rot, idle]) (by rw [rot, still]), setRot_bank bank unit, here, after_, get_withBank, ← eq]
  exact ⟨rfl, rfl, rfl⟩

/-- Settles O58: each step, test and copy by its equation, over the rotation, core or way that it moves. -/
theorem kilnStepsTestAndMoveUnits : Obligations.KilnStepsTestAndMoveUnits := by
  unfold Obligations.KilnStepsTestAndMoveUnits
  refine ⟨?bankEarly, ?bank, ?buffer, ?spare, fun s sl f none_ => exec_kilnTestDone_none none_ f, fun s sl => exec_kilnCopyDone_next s sl,
    fun s sl idle => exec_kilnCopyDone_idle idle, fun s idle => exec_kilnBufferCopy_idle idle, ?bankCopy, ?bufferCopy, ?moved,
    fun s => ⟨exec_kilnCipherStep_early, exec_kilnCipherStep_missed, fun due idle free lt usable =>
      ⟨_, rfl, exec_kilnCipherStep_stops due idle free lt usable⟩⟩,
    fun s idle => exec_kilnCore_idle idle, fun s c d stops => exec_kilnCipherDrainTimeout_targeted stops, exec_kilnCore_next,
    fun s c tg d stops none_ => ⟨exec_kilnCoreDrained stops none_, ?drain⟩,
    fun s c tg d ready lt tests => ⟨exec_kilnTestDone_core_passed ready lt tests, exec_kilnTestDone_core_retired ready lt tests,
      exec_kilnTestDone_core_held ready lt tests⟩,
    fun s k => ⟨exec_kilnFragWayStep_early, exec_kilnFragWayStep_missed, fun w due idle free none_ first lt usable =>
      ⟨_, rfl, exec_kilnFragWayStep_stops due idle free none_ first lt usable⟩⟩,
    fun s k => ⟨exec_kilnWayDrainTimeout_none, exec_kilnFragWayStep_next s k, exec_kilnWayDrainTimeout_next s k⟩,
    fun s k w tg d here at_ => ⟨exec_kilnWayDrainTimeout_early here at_, fun live late =>
      ⟨exec_kilnWayDrainTimeout_skipped here at_ live late, fun targeted => ⟨_,
        exec_kilnWayDrainTimeout_late here at_ live late _ (if_pos targeted), frags_foldl_freeFrag ..⟩⟩⟩,
    fun s sl busy => exec_targetedTestStart_busy busy, fun s sl queue asked => exec_targetedTestStart_none queue asked,
    fun s sl ready free queue => exec_targetedTestStart_queued ready free queue,
    fun s sl ready free queue asked idle => exec_targetedTestStart_asked ready free queue asked idle,
    fun s i q ready lt queue free => exec_targetedTestStart_core ready lt queue free,
    fun s k u b sp r q ready bank unit queue at_ idle still spare other serves placed =>
      exec_targetedTestStart_bank ready bank unit queue at_ idle still spare other serves placed⟩
  case bankEarly =>
    intro s k early
    have rot : rotOf s (17 * k) = s.kiln.banks.get k := rotOf_bank k.isLt (by decide : 0 < 17) s
    exact congrArg Host.Outcome.next (rotStep_early (slice := 17 * k) (by rw [rot]; exact early))
  case bank =>
    rintro s k r rfl due
    have rot : rotOf s (17 * k) = s.kiln.banks.get k := rotOf_bank k.isLt (by decide : 0 < 17) s
    have missed (busy : (s.kiln.banks.get k).stage ≠ 0 ∨ (s.kiln.banks.get k).spare = none ∨ queuedFor s (17 * k) = true) :=
      (rotStep_missed (slice := 17 * k) (cls := 0) (k := k) (by rw [rot]; exact due) (by rw [rot]; exact busy)).trans
        (setRot_bank k.isLt (by decide : 0 < 17) _ s)
    refine ⟨fun busy => congrArg Host.Outcome.next (missed (.inl busy)), fun _ busy => congrArg Host.Outcome.next (missed (.inr busy)), ⟨_, rfl⟩,
      fun idle spare free none_ => congrArg Host.Outcome.next ?_⟩
    exact (rotStep_tests (slice := 17 * k) (cls := 0) (k := k) (by rw [rot]; exact due) (by rw [rot]; exact idle) (by rw [rot]; exact spare)
      free none_).trans (setRot_bank k.isLt (by decide : 0 < 17) _ s)
  case buffer =>
    intro s
    have rot : rotOf s 4096 = s.kiln.buf := rfl
    refine ⟨fun early => congrArg Host.Outcome.next (rotStep_early (slice := 4096) early), fun due busy => congrArg Host.Outcome.next
      (rotStep_missed (slice := 4096) due busy), ⟨_, rfl⟩, fun due idle spare free none_ => congrArg Host.Outcome.next
      (rotStep_tests (slice := 4096) due idle spare free none_)⟩
  case spare =>
    intro s k sp r bank unit ready at_ stage spare runs none_
    refine ⟨⟨_, exec_kilnTestDone_spare bank unit ready at_ stage spare none, ?_⟩,
      fun f => ⟨_, exec_kilnTestDone_spare bank unit ready at_ stage spare (some f), ?_⟩⟩
    · rw [spareDone_passed bank unit at_ spare runs none_]
      exact ⟨rfl, rfl, rfl, get_withBank .., rfl⟩
    · rw [spareDone_failed bank unit at_ runs]
      have kept := core_postSpareRetired (17 * k + sp)
        (bankGone k sp { r with stage := 0, spare := none } { s with kiln := s.kiln.resulted (17 * k + sp) false })
      rw [kiln_of_core kept, offKiln_of_core kept]
      exact ⟨rfl, rfl, SMap.get_put_same .., rfl, rfl⟩
  case bankCopy =>
    rintro s k m sp r u bank ready at_ stage moves over_ plain spare none_ rfl
    have rot : rotOf s (17 * k) = r := (rotOf_bank bank (by decide : 0 < 17) s).trans at_
    refine (exec_kilnCopyDone (slice := 17 * k) (by omega) (bank_exists bank (by decide : 0 < 17)) (by rw [rot, stage]) ready (by rw [rot, moves]) over_).trans ?_
    exact congrArg Host.Outcome.next (switchRot_bank bank (by decide : 0 < 17) at_ moves spare none_ plain)
  case bufferCopy =>
    intro s m sp ready stage moves spare none_
    refine ⟨fun d at_ => exec_kilnBufferCopy stage moves at_, fun over_ =>
      (exec_kilnCopyDone (slice := 4096) (by decide) (by decide) stage ready moves over_).trans (congrArg Host.Outcome.next ?_)⟩
    cases targeted : m.targeted with
    | true => exact switchRot_targeted_buf moves spare none_ targeted
    | false => exact switchRot_untargeted moves spare none_ targeted
  case moved =>
    intro s k m r bank unit ready at_ stage moves runs
    refine ⟨?_, fun f => ?_⟩
    · obtain ⟨t, eq, left⟩ := movedDone_passed bank unit at_ runs (m := m)
      exact ⟨t, (exec_kilnTestDone_moved bank unit ready at_ rfl stage moves none).trans (congrArg Host.Outcome.next eq), left⟩
    · obtain ⟨t, eq, left⟩ := movedDone_failed bank unit at_ runs (m := m) f
      exact ⟨t, (exec_kilnTestDone_moved bank unit ready at_ rfl stage moves (some f)).trans (congrArg Host.Outcome.next eq), left⟩
  case drain =>
    rintro rfl
    exact exec_kilnCipherDrainTimeout stops none_

end Sys2Proof.Machine

/-! The trust region's requests and answers (R512, R515, R618, R622): what taking one and answering one change. -/
namespace Sys2Proof.Machine

/-! ## The inbox of a port -/

/-- The secure receive channel of a port, and the answers that wait for it. -/
def inbox (h : Nat) (s : State) : MboxChan × List (List Word) := ((fnOf s (h * 4096)).secChan, (secPort s h).answers)

theorem told_congr {h : Nat} {ws : List Word} {s s' t t' : State} (from_ : inbox h s' = inbox h s) (to_ : inbox h t' = inbox h t)
    (is : told h ws s t) : told h ws s' t' := by
  obtain ⟨chan, waits⟩ := Prod.mk.injEq .. ▸ from_
  obtain ⟨chan', waits'⟩ := Prod.mk.injEq .. ▸ to_
  unfold told at is ⊢
  rw [chan, waits, chan', waits']
  exact is

/-- A port's secure state without the answers that wait. -/
def SecPort.quiet (p : SecPort) : SecPort := { p with answers := [] }

/-- A state without its functions, host ports, outputs, draws and the trust region's ports. -/
def aside (s : State) : State := core { s with sec := { s.sec with ports := [] } }

theorem aside_of_core {s t : State} (h : core t = core s) : aside t = aside s :=
  (congrArg (fun u : State => core { u with sec := { u.sec with ports := [] } }) h :)

theorem portOf_pf {h : Nat} (port : h < 8) : portOf (h * 4096) = h := by
  unfold portOf
  omega

/-! ## Answers (R512, R622) -/

section
variable {h : Nat} (port : h < 8) (ws : List Word) (s : State)

theorem secPort_postSecure (i j : Nat) : secPort (postSecure i ws s) j = secPort s j := by
  have kept : (postSecure i ws s).sec = s.sec := core_sec (core_postSecure ..)
  rw [secPort, kept, secPort]

theorem secChan_postSecure_eq (i : Nat) :
    (fnOf (postSecure i ws s) i).secChan = { full := true, valid := true, len := ws.length, src := 0xFFFF, words := ws } := by
  unfold postSecure
  dsimp only
  have chan := congrArg Fn.secChan (fnOf_setFn_same i (fun f => { f with secChan :=
    { full := true, valid := true, len := ws.length, src := 0xFFFF, words := ws } }) s)
  split
  · exact (fnOf_raiseVector (g := Fn.secChan) (fun _ _ _ _ => rfl) ..).trans chan
  · exact chan

theorem setAnswers_eq (i : Nat) (g : List (List Word) → List (List Word)) :
    setAnswers i g s = setSecPort (portOf i) (fun p => { p with answers := g p.answers }) s := rfl

include port

theorem secPort_setAnswers (g : List (List Word) → List (List Word)) :
    secPort (setAnswers (h * 4096) g s) h = { secPort s h with answers := g (secPort s h).answers } := by
  rw [setAnswers_eq, portOf_pf port, secPort_setSecPort_same]

/-- An answer reaches its port: at once, or after those that wait (R512). -/
theorem told_fillSecure : told h ws s (fillSecure (h * 4096) ws s) := by
  unfold told fillSecure
  split
  · rw [secPort_setAnswers port]
    exact ⟨rfl, rfl⟩
  · rw [secPort_postSecure, secChan_postSecure_eq]
    exact ⟨rfl, rfl, rfl⟩

omit port in
theorem quiet_fillSecure (i j : Nat) : (secPort (fillSecure i ws s) j).quiet = (secPort s j).quiet := by
  unfold fillSecure
  split
  · rw [setAnswers_eq]
    by_cases e : portOf i = j
    · rw [← e, secPort_setSecPort_same]
      rfl
    · rw [secPort_setSecPort_ne _ _ e]
  · rw [secPort_postSecure]

omit port in
theorem aside_fillSecure (i : Nat) : aside (fillSecure i ws s) = aside s := by
  unfold fillSecure
  split
  · rfl
  · exact aside_of_core (core_postSecure ..)

end

/-- What an answer leaves of a port's secure state. -/
theorem quiet_answer (h : Nat) (ws : List Word) (st : Nat) (s : State) (j : Nat) : (secPort (answer h ws st s) j).quiet = (secPort s j).quiet :=
  quiet_fillSecure ..

theorem aside_answer (h : Nat) (ws : List Word) (st : Nat) (s : State) : aside (answer h ws st s) = aside s := aside_fillSecure ..

theorem resulted_secResult {h : Nat} (port : h < 8) (type tag st : Nat) (s : State) : resulted h type tag st s (secResult h type tag st s) :=
  told_fillSecure port ..

theorem resulted_answer {h : Nat} (port : h < 8) (ws : List Word) (st : Nat) (s : State) :
    resulted h (reqType ws) (reqTag ws) st s (answer h ws st s) := resulted_secResult port ..

/-! The parts of a port's secure state that an answer leaves. -/

theorem session_of_quiet {p q : SecPort} (h : p.quiet = q.quiet) : p.session = q.session := (congrArg SecPort.session h :)
theorem nonce_of_quiet {p q : SecPort} (h : p.quiet = q.quiet) : p.nonce = q.nonce := (congrArg SecPort.nonce h :)
theorem verifying_of_quiet {p q : SecPort} (h : p.quiet = q.quiet) : p.verifying = q.verifying := (congrArg SecPort.verifying h :)
theorem spent_of_quiet {p q : SecPort} (h : p.quiet = q.quiet) : p.spent = q.spent := (congrArg SecPort.spent h :)

theorem sec_of_aside {s t : State} (h : aside t = aside s) : { t.sec with ports := [] } = { s.sec with ports := [] } := (congrArg State.sec h :)

/-! ## Requests (R515, R622) -/

/-- The trust region has taken a request of type `k` from port `h`. -/
structure RequestTaken (h k : Nat) (s : State) (ws : List Word) (u : State) : Prop where
  posted : (secPort s h).request = some ws
  type : reqType ws = k
  idle : (secPort s h).verifying = none
  unread : (secPort s h).reading = none
  port : secPort u h = { secPort s h with request := none }
  aside : aside u = aside s
  inbox : inbox h u = inbox h s
  tick : u.tick = s.tick
  bme : ∀ j, (fnOf u j).bme = (fnOf s j).bme

theorem fnOf_endMessage_sec {α : Type} {g : Fn → α} (vec : VectorBlind g) (tx : ∀ (f : Fn) t, g { f with secTx := t } = g f) (i r : Nat)
    (s : State) (j : Nat) : g (fnOf (endMessage i true r s) j) = g (fnOf s j) := by
  unfold endMessage
  dsimp only
  split
  · exact (fnOf_raiseVector vec ..).trans (fnOf_setFn_keeps (fun f => tx f _) ..)
  · exact fnOf_setFn_keeps (fun f => tx f _) ..

theorem requestTaken {h k : Nat} {s : State} {ws : List Word} {u : State} (takes : takeRequest h k s = some (ws, u)) :
    RequestTaken h k s ws u := by
  unfold takeRequest at takes
  split at takes
  · cases takes
  next ws' posted =>
  split at takes
  · cases takes
  next free =>
  obtain ⟨rfl, rfl⟩ := Prod.mk.inj (Option.some.inj takes)
  simp only [Bool.or_eq_true, bne_iff_ne, decide_eq_true_eq, not_or, not_not, Bool.not_eq_true, Option.isSome_eq_false_iff,
    Option.isNone_iff_eq_none] at free
  obtain ⟨⟨⟨type, idle⟩, unread⟩, -⟩ := free
  have kept : core (endMessage (h * 4096) true 1 (setSecPort h (fun p => { p with request := none }) s)) =
      core (setSecPort h (fun p => { p with request := none }) s) := core_endMessage ..
  have own : secPort (endMessage (h * 4096) true 1 (setSecPort h (fun p => { p with request := none }) s)) h =
      { secPort s h with request := none } := by
    rw [secPort, core_sec kept]
    exact secPort_setSecPort_same ..
  refine ⟨posted, type, idle, unread, own, (aside_of_core kept).trans rfl, ?_, (tick_of_core kept).trans rfl, fun j => ?_⟩
  · refine Prod.ext ?_ ?_
    · exact fnOf_endMessage_sec (g := Fn.secChan) (fun _ _ _ _ => rfl) (fun _ _ => rfl) ..
    · exact (congrArg SecPort.answers own :)
  · exact fnOf_endMessage_sec (g := Fn.bme) (fun _ _ _ _ => rfl) (fun _ _ => rfl) ..

/-- A port whose buffer is not being read has none that has been read. -/
theorem bufferRead_none {s : State} {h k : Nat} (unread : (secPort s h).reading = none) : bufferRead s h k = none := by
  unfold bufferRead
  rw [unread]

section
variable {h k : Nat} {s : State} {ws : List Word} {u : State} (taken_ : RequestTaken h k s ws u)
include taken_

theorem RequestTaken.quiet : (secPort u h).quiet = { secPort s h with request := none, answers := [] } := by
  rw [taken_.port]
  rfl

/-- What the trust region answers to a request that it has taken. -/
theorem RequestTaken.resulted (port : h < 8) (st : Nat) {v : State} (same : Machine.inbox h v = Machine.inbox h u) :
    Machine.resulted h k (reqTag ws) st s (answer h ws st v) := by
  have told_ := resulted_answer port ws st v
  rw [taken_.type] at told_
  exact told_congr (taken_.inbox.symm.trans same.symm) rfl told_

end

theorem inbox_setSecPort {h : Nat} {f : SecPort → SecPort} (keeps : ∀ p, (f p).answers = p.answers) (s : State) :
    inbox h (setSecPort h f s) = inbox h s := by
  refine Prod.ext rfl ?_
  change (secPort (setSecPort h f s) h).answers = (secPort s h).answers
  rw [secPort_setSecPort_same, keeps]

end Sys2Proof.Machine

/-! NONCE_REQ, AUTH and CLOSE (R618, R621, R626, R627). -/
namespace Sys2Proof.Machine

/-! ## Rows whose request cannot be taken -/

section
variable {s : State} {port : Fin 8}

theorem exec_nonceReq_idle (idle : takeRequest port 1 s = none) : exec (.nonceReq port) s = .next s := by
  change execNonceReq port s = _
  rw [execNonceReq, idle]

theorem exec_auth_idle (buf : Option (List Byte)) (idle : takeRequest port 2 s = none) (unread : bufferRead s port 2 = none) :
    exec (.auth port buf) s = .next s := by
  change execAuth port buf s = _
  unfold execAuth
  dsimp only
  rw [unread, idle]

theorem exec_close_idle (idle : takeRequest port 3 s = none) : exec (.close port) s = .next s := by
  change execClose port s = _
  rw [execClose, idle]

theorem exec_lcAdvance_idle (idle : takeRequest port 4 s = none) : exec (.lcAdvance port) s = .next s := by
  change execLcAdvance port s = _
  rw [execLcAdvance, idle]

theorem exec_rootImport_idle (buf : Option (List Byte)) (idle : takeRequest port 5 s = none) (unread : bufferRead s port 5 = none) :
    exec (.rootImport port buf) s = .next s := by
  change execRootImport port buf s = _
  rw [execRootImport, unread, idle]

theorem exec_kemKeyGet_idle (ok : Bool) (idle : takeRequest port 6 s = none) : exec (.kemKeyGet port ok) s = .next s := by
  change execKemKeyGet port ok s = _
  rw [execKemKeyGet, idle]

theorem exec_fuseProgram_idle (idle : takeRequest port 7 s = none) : exec (.fuseProgram port) s = .next s := by
  change execFuseProgram port s = _
  rw [execFuseProgram, idle]

theorem exec_authVerified_idle (idle : (secPort s port).verifying = none) : exec (.authVerified port) s = .next s := by
  change execAuthVerified port s = _
  unfold execAuthVerified
  dsimp only
  rw [idle]

end

/-! ## NONCE_REQ (R618, R627) -/

theorem exec_nonceReq {s u : State} {port : Fin 8} {ws : List Word} (takes : takeRequest port 1 s = some (ws, u)) :
    exec (.nonceReq port) s =
    .next (if ws.length ≠ 8 ∨ restZero ws 1 = false then answer port ws stBadParam u else if s.sec.lc = 4 then answer port ws stDenied u
      else if s.sec.entropyFail = true then answer port ws stHwFault u
      else fillSecure (port * 4096) (BitVec.ofNat 32 (0x81 * 2 ^ 24 + reqTag ws * 65536 + 0xFFFF) ::
          (List.range 8).map (fun i => BitVec.ofNat 32 (ofBytes (((drawnBytes 32 u).drop (4 * i)).take 4))))
        (useDraw (setSecPort port (fun p => { p with nonce := some (drawnBytes 32 u, s.tick + 8000000000) }) u))) := by
  have taken_ := requestTaken takes
  have sec := sec_of_aside taken_.aside
  have lc : u.sec.lc = s.sec.lc := (congrArg Sec.lc sec :)
  have entropy : u.sec.entropyFail = s.sec.entropyFail := (congrArg Sec.entropyFail sec :)
  change execNonceReq port s = _
  unfold execNonceReq
  rw [takes]
  dsimp only
  rw [lc, entropy, taken_.tick]
  by_cases form : ws.length ≠ 8 ∨ restZero ws 1 = false
  · rw [if_pos form]
    exact if_pos (by simpa using form)
  rw [if_neg form, if_neg (by simpa using form)]
  by_cases scrap : s.sec.lc = 4
  · rw [if_pos scrap]
    exact if_pos (by simpa using scrap)
  rw [if_neg scrap, if_neg (by simpa using scrap)]
  split <;> rfl

/-! ## AUTH (R618) -/

/-- The trust region has taken an AUTH, whose nonce is spent. -/
def nonceSpent (port : Nat) (u : State) : State := setSecPort port (fun p => { p with nonce := none }) u

theorem inbox_nonceSpent (h : Nat) (u : State) : inbox h (nonceSpent h u) = inbox h u := inbox_setSecPort (fun _ => by rfl) u

theorem authForm_iff (ws : List Word) : (ws.length != 8 || !restZero ws 4 || reqWord ws 3 / 256 != 0 || decide (reqWord ws 3 < 1) ||
    decide (reqWord ws 3 > 2)) = true ↔ ws.length ≠ 8 ∨ restZero ws 4 = false ∨ (reqWord ws 3 ≠ 1 ∧ reqWord ws 3 ≠ 2) := by
  simp only [Bool.or_eq_true, bne_iff_ne, Bool.not_eq_true', decide_eq_true_eq, or_assoc]
  have purpose : (reqWord ws 3 / 256 ≠ 0 ∨ reqWord ws 3 < 1 ∨ reqWord ws 3 > 2) ↔ (reqWord ws 3 ≠ 1 ∧ reqWord ws 3 ≠ 2) := by omega
  rw [purpose]

theorem exec_auth {s u : State} {port : Fin 8} {ws : List Word} (buf : Option (List Byte)) (takes : takeRequest port 2 s = some (ws, u)) :
    exec (.auth port buf) s =
      if ws.length ≠ 8 ∨ restZero ws 4 = false ∨ (reqWord ws 3 ≠ 1 ∧ reqWord ws 3 ≠ 2) then .next (answer port ws stBadParam (nonceSpent port u))
      else if s.sec.lc = 4 then .next (answer port ws stDenied (nonceSpent port u))
      else match (secPort s port).nonce with
        | none => .next (answer port ws stBadState (nonceSpent port u))
        | some (n, till) =>
          if till < s.tick then .next (answer port ws stBadState (nonceSpent port u))
          else match buf with
            | none => .next (readBuffer port ws n 5261 (nonceSpent port u))
            | some b => .next (beginVerify port ws n b (nonceSpent port u)) := by
  have taken_ := requestTaken takes
  have lc : u.sec.lc = s.sec.lc := (congrArg Sec.lc (sec_of_aside taken_.aside) :)
  change execAuth port buf s = _
  unfold execAuth
  dsimp only
  rw [bufferRead_none taken_.unread, takes]
  change (if (ws.length != 8 || !restZero ws 4 || reqWord ws 3 / 256 != 0 || decide (reqWord ws 3 < 1) || decide (reqWord ws 3 > 2)) = true then _
    else if (u.sec.lc == 4) = true then _
    else match (secPort s port).nonce with
      | none => _
      | some (n, till) => if till < u.tick then _ else _) = _
  rw [lc, taken_.tick]
  by_cases form : ws.length ≠ 8 ∨ restZero ws 4 = false ∨ (reqWord ws 3 ≠ 1 ∧ reqWord ws 3 ≠ 2)
  · rw [if_pos form]
    exact if_pos ((authForm_iff ws).2 form)
  rw [if_neg form, if_neg (mt (authForm_iff ws).1 form)]
  by_cases scrap : s.sec.lc = 4
  · rw [if_pos scrap]
    exact if_pos (by simpa using scrap)
  rw [if_neg scrap, if_neg (by simpa using scrap)]
  rfl

/-! The buffer of a request is read (R618, R624). -/

theorem readBuffer_unmastered {s : State} {h : Nat} (ws : List Word) (n : List Byte) (len : Nat) (off : (fnOf s (h * 4096)).bme = false) :
    readBuffer h ws n len s = answer h ws stTimeout s := if_neg (by simp [off])

theorem core_readBuffer {s : State} {h : Nat} (ws : List Word) (n : List Byte) (len : Nat) (on : (fnOf s (h * 4096)).bme = true) :
    core (readBuffer h ws n len s) = core (setSecPort h (fun p => { p with reading := some { msg := ws, nonce := n } }) s) := by
  unfold readBuffer
  rw [if_pos on, core_issueRead]

theorem readBuffer_reads {s : State} {h : Nat} (ws : List Word) (n : List Byte) (len : Nat) (on : (fnOf s (h * 4096)).bme = true) :
    (secPort (readBuffer h ws n len s) h).reading = some { msg := ws, nonce := n } ∧ core { readBuffer h ws n len s with sec := s.sec } = core s := by
  have kept := core_readBuffer ws n len on
  refine ⟨?_, (congrArg (fun u : State => core { u with sec := s.sec }) kept :)⟩
  rw [secPort, core_sec kept]
  exact congrArg SecPort.reading (secPort_setSecPort_same ..)

/-- What reading a buffer leaves of a port's secure state. -/
theorem secPort_readBuffer (h : Nat) (ws : List Word) (n : List Byte) (len : Nat) (s : State) :
    (secPort (readBuffer h ws n len s) h).nonce = (secPort s h).nonce ∧
    (secPort (readBuffer h ws n len s) h).session = (secPort s h).session ∧
    (secPort (readBuffer h ws n len s) h).verifying = (secPort s h).verifying := by
  by_cases on : (fnOf s (h * 4096)).bme = true
  · have read : secPort (readBuffer h ws n len s) h = { secPort s h with reading := some { msg := ws, nonce := n } } := by
      rw [secPort, core_sec (core_readBuffer ws n len on)]
      exact secPort_setSecPort_same ..
    rw [read]
    exact ⟨rfl, rfl, rfl⟩
  · rw [readBuffer_unmastered ws n len (by simpa using on)]
    have kept := quiet_answer h ws stTimeout s h
    exact ⟨nonce_of_quiet kept, session_of_quiet kept, verifying_of_quiet kept⟩

/-- What a spent nonce leaves of the port of an AUTH. -/
theorem secPort_nonceSpent {h : Nat} {s u : State} {ws : List Word} (taken_ : RequestTaken h 2 s ws u) :
    (secPort (nonceSpent h u) h).nonce = none ∧ (secPort (nonceSpent h u) h).session = (secPort s h).session ∧
    (secPort (nonceSpent h u) h).verifying = none := by
  rw [nonceSpent, secPort_setSecPort_same, taken_.port]
  exact ⟨rfl, rfl, taken_.idle⟩

/-- An AUTH that is answered. -/
theorem auth_answered {h : Nat} (port : h < 8) {s u : State} {ws : List Word} (taken_ : RequestTaken h 2 s ws u) (st : Nat) :
    (secPort (answer h ws st (nonceSpent h u)) h).nonce = none ∧
    (secPort (answer h ws st (nonceSpent h u)) h).session = (secPort s h).session ∧
    (secPort (answer h ws st (nonceSpent h u)) h).verifying = none ∧ resulted h 2 (reqTag ws) st s (answer h ws st (nonceSpent h u)) := by
  have kept := quiet_answer h ws st (nonceSpent h u) h
  obtain ⟨nonce, session, idle⟩ := secPort_nonceSpent taken_
  exact ⟨(nonce_of_quiet kept).trans nonce, (session_of_quiet kept).trans session, (verifying_of_quiet kept).trans idle,
    taken_.resulted port st (inbox_nonceSpent h u)⟩

theorem authenticates {s u : State} {port : Fin 8} {ws : List Word} (buf : Option (List Byte)) (takes : takeRequest port 2 s = some (ws, u)) :
    ∃ t, exec (.auth port buf) s = .next t ∧ (secPort t port).nonce = none ∧ (secPort t port).session = (secPort s port).session ∧
      if ws.length ≠ 8 ∨ restZero ws 4 = false ∨ (reqWord ws 3 ≠ 1 ∧ reqWord ws 3 ≠ 2) then
        (secPort t port).verifying = none ∧ resulted port 2 (reqTag ws) stBadParam s t
      else if s.sec.lc = 4 then (secPort t port).verifying = none ∧ resulted port 2 (reqTag ws) stDenied s t
      else match (secPort s port).nonce, buf with
      | some (n, till), some b => if s.tick ≤ till then (secPort t port).verifying = some (reqWord ws 3, reqTag ws, b) ∧ (secPort t port).spent = some n
          else (secPort t port).verifying = none ∧ resulted port 2 (reqTag ws) stBadState s t
      | some (n, till), none => (secPort t port).verifying = none ∧
          if s.tick ≤ till then t = readBuffer port ws n 5261 (setSecPort port (fun p => { p with nonce := none }) u)
          else resulted port 2 (reqTag ws) stBadState s t
      | none, _ => (secPort t port).verifying = none ∧ resulted port 2 (reqTag ws) stBadState s t := by
  have taken_ := requestTaken takes
  rw [exec_auth buf takes]
  split
  · next form =>
    obtain ⟨nonce, session, told_⟩ := auth_answered port.isLt taken_ stBadParam
    exact ⟨_, rfl, nonce, session, told_⟩
  split
  · next scrap =>
    obtain ⟨nonce, session, told_⟩ := auth_answered port.isLt taken_ stDenied
    exact ⟨_, rfl, nonce, session, told_⟩
  obtain ⟨nonce, session, told_⟩ := auth_answered port.isLt taken_ stBadState
  cases held : (secPort s port).nonce with
  | none => exact ⟨_, rfl, nonce, session, told_⟩
  | some p =>
    obtain ⟨n, till⟩ := p
    dsimp only
    by_cases late : till < s.tick
    · rw [if_pos late]
      refine ⟨_, rfl, nonce, session, ?_⟩
      obtain ⟨idle, told_⟩ := told_
      cases buf with
      | none => exact ⟨idle, by rw [if_neg (Nat.not_le.2 late)]; exact told_⟩
      | some b =>
        dsimp only
        rw [if_neg (Nat.not_le.2 late)]
        exact ⟨idle, told_⟩
    · rw [if_neg late]
      obtain ⟨nonce, session, idle⟩ := secPort_nonceSpent taken_
      cases buf with
      | none =>
        obtain ⟨nonce', session', idle'⟩ := secPort_readBuffer port ws n 5261 (nonceSpent port u)
        refine ⟨_, rfl, nonce'.trans nonce, session'.trans session, idle'.trans idle, ?_⟩
        rw [if_pos (Nat.not_lt.1 late)]
        rfl
      | some b =>
        have begun : secPort (beginVerify port ws n b (nonceSpent port u)) port = { secPort (nonceSpent port u) port with
          reading := none, verifying := some (reqWord ws 3, reqTag ws, b), spent := some n } := secPort_setSecPort_same ..
        refine ⟨_, rfl, ?_, ?_, ?_⟩
        · rw [begun, ← nonce]
        · rw [begun, ← session]
        · dsimp only
          rw [if_pos (Nat.not_lt.1 late), begun]
          exact ⟨rfl, rfl⟩

theorem exec_auth_read {s : State} {port : Fin 8} {r : SecRead} {b : List Byte} (buf : Option (List Byte))
    (read : bufferRead s port 2 = some (r, b)) : exec (.auth port buf) s = .next (setSecPort port (fun p => { p with
    reading := none, verifying := some (reqWord r.msg 3, reqTag r.msg, b), spent := some r.nonce }) s) := by
  change execAuth port buf s = _
  unfold execAuth
  dsimp only
  rw [read]
  rfl

/-! ## The verification ends (R618, R621) -/

theorem exec_authVerified_ended {s : State} {port : Fin 8} {v : Nat × Nat × List Byte} (under : (secPort s port).verifying = some v)
    (ended : s.sec.endedAt = some s.tick) :
    exec (.authVerified port) s = .next (setSecPort port (fun p => { p with verifying := none, spent := none }) s) := by
  obtain ⟨purpose, tag, b⟩ := v
  change execAuthVerified port s = _
  unfold execAuthVerified
  dsimp only
  rw [under]
  exact if_pos (by simp [ended])

/-- A verification has ended, and opened the session where `ok`. -/
def verified (port purpose : Nat) (ok : Bool) (s : State) : State :=
  setSecPort port (fun p => { p with verifying := none, spent := none, session := if ok then purpose else p.session }) s

theorem inbox_verified (port purpose : Nat) (ok : Bool) (s : State) : inbox port (verified port purpose ok s) = inbox port s :=
  inbox_setSecPort (fun _ => by rfl) s

theorem exec_authVerified {s : State} {port : Fin 8} {purpose tag : Nat} {b : List Byte} {ok : Bool}
    (under : (secPort s port).verifying = some (purpose, tag, b)) (open_ : s.sec.endedAt ≠ some s.tick)
    (signs : ok = true ↔ b.length = 5261 ∧ keyTrusted s 32 (b.take 1952) = true ∧
      mlDsaVerify (b.take 1952) (authMessage port purpose ((secPort s port).spent.getD [])) (b.drop 1952) = true) :
    exec (.authVerified port) s = .next (secResult port 2 tag (if ok = true then stOk else stSigFail) (verified port purpose ok s)) := by
  have value : ok = (b.length == 5261 && keyTrusted s 32 (b.take 1952) &&
      mlDsaVerify (b.take 1952) (authMessage port purpose ((secPort s port).spent.getD [])) (b.drop 1952)) := by
    rw [Bool.eq_iff_iff, signs]
    simp [and_assoc]
  subst value
  change execAuthVerified port s = _
  unfold execAuthVerified
  dsimp only
  rw [under]
  exact if_neg (by simpa using open_)

theorem authVerified {s : State} {port : Fin 8} {purpose tag : Nat} {b : List Byte} {ok : Bool}
    (under : (secPort s port).verifying = some (purpose, tag, b)) (open_ : s.sec.endedAt ≠ some s.tick)
    (signs : ok = true ↔ b.length = 5261 ∧ keyTrusted s 32 (b.take 1952) = true ∧
      mlDsaVerify (b.take 1952) (authMessage port purpose ((secPort s port).spent.getD [])) (b.drop 1952) = true) :
    ∃ t, exec (.authVerified port) s = .next t ∧ (secPort t port).verifying = none ∧ (secPort t port).spent = none ∧
      (secPort t port).session = (if ok = true then purpose else (secPort s port).session) ∧
      resulted port 2 tag (if ok = true then stOk else stSigFail) s t := by
  have ended : secPort (verified port purpose ok s) port = { secPort s port with
    verifying := none, spent := none, session := if ok then purpose else (secPort s port).session } := secPort_setSecPort_same ..
  have kept := quiet_fillSecure [BitVec.ofNat 32 (0x82 * 2 ^ 24 + tag * 65536 + 0xFFFF),
    BitVec.ofNat 32 (2 * 2 ^ 24 + tag * 65536 + if ok = true then stOk else stSigFail), 0, 0, 0, 0, 0, 0] (verified port purpose ok s)
    (port * 4096) port
  rw [ended] at kept
  exact ⟨_, exec_authVerified under open_ signs, verifying_of_quiet kept, spent_of_quiet kept, session_of_quiet kept,
    told_congr (inbox_verified port purpose ok s).symm rfl (resulted_secResult port.isLt ..)⟩

/-! ## CLOSE (R621) -/

theorem closes {s u : State} {port : Fin 8} {ws : List Word} (takes : takeRequest port 3 s = some (ws, u)) :
    ∃ t, exec (.close port) s = .next t ∧ (secPort t port).session = (if ws.length = 8 ∧ restZero ws 1 = true then 0 else (secPort s port).session) ∧
      resulted port 3 (reqTag ws) (if ws.length ≠ 8 ∨ restZero ws 1 = false then stBadParam
        else if (secPort s port).session = 0 then stDenied else stOk) s t := by
  have taken_ := requestTaken takes
  have session : (secPort u port).session = (secPort s port).session := by rw [taken_.port]
  have runs : exec (.close port) s = if (ws.length != 8 || !restZero ws 1) = true then .next (answer port ws stBadParam u)
      else if ((secPort u port).session == 0) = true then .next (answer port ws stDenied u)
      else .next (answer port ws stOk (setSecPort port (fun p => { p with session := 0 }) u)) := by
    change execClose port s = _
    unfold execClose
    rw [takes]
  rw [runs, session]
  by_cases form : ws.length ≠ 8 ∨ restZero ws 1 = false
  · rw [if_pos (show (ws.length != 8 || !restZero ws 1) = true by simpa using form), if_pos form,
      if_neg (show ¬ (ws.length = 8 ∧ restZero ws 1 = true) by rintro ⟨len, rest⟩; simp [len, rest] at form)]
    exact ⟨_, rfl, (session_of_quiet (quiet_answer ..)).trans session, taken_.resulted port.isLt stBadParam rfl⟩
  · rw [if_neg (show ¬ (ws.length != 8 || !restZero ws 1) = true by simpa using form), if_neg form,
      if_pos (show ws.length = 8 ∧ restZero ws 1 = true by simpa using form)]
    by_cases none_ : (secPort s port).session = 0
    · rw [if_pos (beq_iff_eq.2 none_), if_pos none_]
      exact ⟨_, rfl, (session_of_quiet (quiet_answer ..)).trans (session.trans none_), taken_.resulted port.isLt stDenied rfl⟩
    · rw [if_neg (show ¬ ((secPort s port).session == 0) = true from mt beq_iff_eq.1 none_), if_neg none_]
      refine ⟨_, rfl, (session_of_quiet (quiet_answer ..)).trans ?_, taken_.resulted port.isLt stOk (inbox_setSecPort (fun _ => by rfl) u)⟩
      rw [secPort_setSecPort_same]

end Sys2Proof.Machine

/-! LC_ADVANCE (R613 to R617): the trust region's state over the resets that a safe state brings. -/
namespace Sys2Proof.Machine

/-! ## What leaves the trust region alone -/

theorem sec_of_offPkts {s t : State} (h : coreOffPkts t = coreOffPkts s) : t.sec = s.sec := (congrArg State.sec h :)

theorem sec_foldl {α : Type} {f : State → α → State} (h : ∀ s a, (f s a).sec = s.sec) (l : List α) (s : State) : (l.foldl f s).sec = s.sec := by
  induction l generalizing s with
  | nil => rfl
  | cons a l ih => rw [List.foldl_cons, ih, h]

theorem sec_removePkt (p : Nat) (s : State) : (removePkt p s).sec = s.sec := sec_of_offPkts (coreOffPkts_removePkt ..)
theorem sec_dropLeafIf (n : Nat) (f : Pkt → Bool) (s : State) : (dropLeafIf n f s).sec = s.sec := sec_of_offPkts (coreOffPkts_dropLeafIf ..)
theorem sec_dropLeaves (i : Nat) (s : State) : (dropLeaves i s).sec = s.sec :=
  sec_foldl (fun s k => sec_of_offPkts (coreOffPkts_dropLeaf (queueOf s i k) s)) _ s

theorem sec_freeHeld (e : CplEntry) (s : State) : (freeHeld e s).sec = s.sec := by
  unfold freeHeld
  split
  · next p _ =>
    obtain ⟨_, _, eq⟩ := evalOf_eq (pkt s p) { s with pkts := s.pkts.del p }
    rw [eq]
  · rfl

theorem sec_freeStamps (l : List CplEntry) (s : State) : (freeStamps l s).sec = s.sec :=
  sec_foldl (f := fun s (e : CplEntry) => freeHeld e (match e.lane with | some n => freeStampEntry n s | none => s))
    (fun s e => (sec_freeHeld ..).trans (by split <;> rfl)) l s

theorem sec_abandonRecord (silent : Bool) (n : Nat) (s : State) : (abandonRecord silent n s).sec = s.sec := by
  unfold abandonRecord
  dsimp only
  repeat' split
  all_goals rfl

theorem sec_setObj (n : Nat) (f : Obj → Obj) (s : State) : (setObj n f s).sec = s.sec := by
  unfold setObj
  split <;> rfl

theorem sec_errObjectsOf (i : Nat) (s : State) : (errObjectsOf i s).sec = s.sec :=
  sec_foldl (fun s n => (sec_setObj ..).trans ((sec_abandonRecord true n (dropFormed n s)).trans (sec_dropLeafIf ..))) _ s

theorem sec_destroyObjectsOf (i : Nat) (s : State) : (destroyObjectsOf i s).sec = s.sec :=
  sec_foldl (f := fun s n => destroyObject n s) (fun s n => (sec_abandonRecord false n (dropFormed n s)).trans (sec_dropLeafIf ..)) _ s

theorem sec_discardDelivery (i : Nat) (s : State) : (discardDelivery i s).sec = s.sec :=
  sec_foldl (f := fun s p => removePkt p s) (fun s p => sec_removePkt p s) _ { s with deliveries := s.deliveries.filter fun d => !queueIn s i d.1 }

theorem sec_discardWork (i : Nat) (s : State) : (discardWork i s).sec = s.sec := by
  unfold discardWork
  dsimp only
  rw [sec_errObjectsOf]
  exact (sec_dropLeaves ..).trans (sec_freeStamps (waitingOf s i) s)

theorem sec_finishRings (l : List (Nat × Bool)) (st r : Nat) (s : State) : (finishRings l st r s).sec = s.sec :=
  sec_foldl (f := fun s (r' : Nat × Bool) => finishExec r'.1 r'.2 st r s) (fun _ _ => core_sec (core_finishExec ..)) l s

theorem sec_stopLogging (i : Nat) (s : State) : (stopLogging i s).sec = s.sec := by
  unfold stopLogging
  split
  · exact core_sec (core_sendNotice ..)
  · rfl

/-! ## Sessions (R621) -/

/-- The trust region without its ports, and the session of each. -/
def sessions (s : State) : Sec × (Nat → Nat) := ({ s.sec with ports := [] }, fun j => (secPort s j).session)

theorem sessions_of_sec {s t : State} (h : t.sec = s.sec) : sessions t = sessions s := by
  unfold sessions secPort
  rw [h]

theorem sessions_setSecPort {f : SecPort → SecPort} (keeps : ∀ p, (f p).session = p.session) (h : Nat) (s : State) :
    sessions (setSecPort h f s) = sessions s := by
  refine Prod.ext rfl (funext fun j => ?_)
  change (secPort (setSecPort h f s) j).session = (secPort s j).session
  by_cases e : h = j
  · rw [← e, secPort_setSecPort_same, keeps]
  · rw [secPort_setSecPort_ne _ _ e]

theorem sessions_discardUnread (i cause : Nat) (l : List (Nat × MboxChan)) (s : State) : (discardUnread i cause l s).sec = s.sec := by
  induction l generalizing s with
  | nil => rfl
  | cons c l ih =>
    unfold discardUnread
    dsimp only
    split
    · rw [ih, core_sec (core_deliverEvent ..)]
      split
      · rfl
      · exact core_sec (core_endMessage ..)
    · exact ih s

theorem sessions_resetMailbox (i cause : Nat) (s : State) : sessions (resetMailbox i cause s) = sessions s := by
  refine Eq.trans ?_ (sessions_of_sec (sessions_discardUnread i cause ((fnOf s i).chans ++ [(0x4000, (fnOf s i).secChan)]) s))
  have requests (u : State) : sessions { u with sec := { u.sec with ports := u.sec.ports.upd (portOf i) fun p =>
      { p with request := none, answers := [] } } } = sessions u :=
    sessions_setSecPort (f := fun p => { p with request := none, answers := [] }) (fun _ => rfl) (portOf i) u
  unfold resetMailbox
  dsimp only
  rw [sessions_of_sec (setFn_sec ..)]
  split
  · rw [requests]
    split
    · split <;> rfl
    · rfl
  · split
    · split <;> rfl
    · rfl

theorem sessions_resetInstance (i cause : Nat) (s : State) : sessions (resetInstance i cause s) = sessions s := by
  unfold resetInstance
  dsimp only
  rw [sessions_resetMailbox]
  refine sessions_of_sec ?_
  rw [sec_stopLogging, sec_destroyObjectsOf, setFn_sec, sec_discardDelivery, core_sec (core_dropReqs ..), sec_dropLeaves, sec_freeStamps, setFn_sec,
    sec_finishRings]
  rfl

/-- The trust region beyond its ports is as `r`, and no session is open. -/
def Closed (r : Sec) (s : State) : Prop := sessions s = (r, fun _ => 0)

theorem Closed.congr {r : Sec} {s t : State} (c : Closed r s) (h : sessions t = sessions s) : Closed r t := h.trans c

theorem Closed.of_sec {r : Sec} {s t : State} (c : Closed r s) (h : t.sec = s.sec) : Closed r t := c.congr (sessions_of_sec h)

theorem Closed.foldl {α : Type} {r : Sec} {f : State → α → State} (h : ∀ s a, Closed r s → Closed r (f s a)) (l : List α) {s : State}
    (c : Closed r s) : Closed r (l.foldl f s) := by
  induction l generalizing s with
  | nil => exact c
  | cons a l ih => exact ih (h s a c)

section
variable {r : Sec} {s : State}

theorem Closed.endPortSecurity (c : Closed r s) (h : Nat) : Closed r (endPortSecurity h s) := by
  obtain ⟨rest, none_⟩ := Prod.mk.inj c
  refine Prod.ext rest (funext fun j => ?_)
  change (secPort (Machine.endPortSecurity h s) j).session = 0
  have eq : Machine.endPortSecurity h s = setSecPort h (fun p => { p with
    session := 0, verifying := none, reading := none, spdm := 0, nonce := none }) s := rfl
  rw [eq]
  by_cases e : h = j
  · rw [← e, secPort_setSecPort_same]
  · rw [secPort_setSecPort_ne _ _ e]
    exact congrFun none_ j

theorem Closed.resetWhole (c : Closed r s) (i cause : Nat) : Closed r (resetWhole i cause s) := by
  have reset : Closed r (setFn i resetFunction (resetInstance i cause (discardWork i s))) :=
    (c.of_sec (sec_discardWork i s)).congr ((sessions_of_sec (setFn_sec ..)).trans (sessions_resetInstance ..))
  unfold Machine.resetWhole
  dsimp only
  split
  · exact reset.endPortSecurity _
  · exact reset

theorem Closed.endReset (c : Closed r s) (i cause : Nat) : Closed r (endReset i cause s) :=
  c.of_sec ((core_sec (core_sendNotice ..)).trans (setFn_sec ..))

theorem Closed.endVfs (c : Closed r s) (cause : Nat) (l : List Nat) : Closed r (endVfs cause l s) := by
  induction l generalizing s with
  | nil => exact c
  | cons v l ih => exact ih (((c.resetWhole v cause).endReset v (cause - 1)).of_sec (setFn_sec ..))

theorem Closed.linkLoss (c : Closed r s) (h : Nat) (perst : Bool) : Closed r (linkLoss h perst s) := by
  obtain ⟨rec, eq⟩ := linkLoss_eq h perst s
  have reset : Closed r (linkReset h s) := (Closed.endVfs (c.of_sec (t := forgetRings (h * 4096) s) rfl) 4 _).resetWhole _ 4
  rw [eq]
  exact reset.of_sec (core_sec ((core_deliverEvent ..).trans (core_linkEnded ..)))

theorem Closed.hostPortsReset (c : Closed r s) : Closed r (hostPortsReset s) :=
  Closed.foldl (fun s h c => by
    split
    · exact c.linkLoss h false
    · exact c) _ c

theorem sec_setRot (i : Nat) (f : Rot → Rot) (s : State) : (setRot i f s).sec = s.sec := by
  unfold setRot
  split <;> rfl

theorem sec_haltRot (i : Nat) (s : State) : (haltRot i s).sec = s.sec := by
  unfold haltRot
  dsimp only
  split
  · exact sec_setRot ..
  · split <;> exact sec_setRot ..

theorem sec_kilnHalt (s : State) : (kilnHalt s).sec = s.sec :=
  (sec_haltRot ..).trans (sec_foldl (fun s k => sec_haltRot (17 * k) s) _ s)

theorem sec_undoAll (s : State) : (undoAll s).sec = s.sec :=
  sec_foldl (fun s f => sec_foldl (fun s c => by
    split
    · split
      · rfl
      · unfold undoExec
        dsimp only
        split <;> rfl
    · rfl) _ s) _ s

theorem sec_enterSafe (s : State) :
    (enterSafe s).sec = (hostPortsReset (lanesSquelch (kilnHalt (undoAll { s with fw := { s.fw with ready := false } })))).sec := by
  unfold enterSafe
  dsimp only
  generalize hostPortsReset _ = u
  rfl

theorem Closed.enterSafe (c : Closed r s) : Closed r (enterSafe s) := by
  have halted : (lanesSquelch (kilnHalt (undoAll { s with fw := { s.fw with ready := false } }))).sec = s.sec := by
    change (kilnHalt (undoAll { s with fw := { s.fw with ready := false } })).sec = s.sec
    rw [sec_kilnHalt, sec_undoAll]
  exact (c.of_sec halted).hostPortsReset.of_sec (sec_enterSafe s)

theorem Closed.sec (c : Closed r s) : { s.sec with ports := [] } = r := (Prod.mk.inj c).1

theorem Closed.session (c : Closed r s) (h : Nat) : (secPort s h).session = 0 := congrFun (Prod.mk.inj c).2 h

end

/-! ## LC_ADVANCE -/

theorem sec_fiRelease (n : Nat) (s : State) : (fiRelease n s).sec = s.sec := by
  unfold fiRelease
  split
  · rfl
  dsimp only
  split
  · unfold takeWhole
    split
    · rfl
    split
    · rfl
    split <;> rfl
  · rfl

theorem sec_endAllInjection (s : State) : (endAllInjection s).sec = s.sec := sec_foldl (f := fun s n => fiEnd n s) (fun s n => sec_fiRelease n s) _ s

theorem sec_enterField (s : State) : (enterField s).sec = s.sec := by
  have ended : (if s.sec.fiField then s else endAllInjection s).sec = s.sec := by
    split
    · rfl
    · exact sec_endAllInjection s
  unfold enterField
  dsimp only
  generalize (if s.sec.fiField then s else endAllInjection s) = v at ended ⊢
  split
  · exact ended
  · exact ended

/-- The dummy rate of a part in FIELD, unless LOWRATE_FIELD is set (R615). -/
theorem rate_enterField {s : State} (high : s.sec.lowrate = false) : 0x0100 ≤ (enterField s).ciph.rate := by
  have ended : (if s.sec.fiField then s else endAllInjection s).sec.lowrate = false := by
    split
    · exact high
    · rw [sec_endAllInjection]
      exact high
  unfold enterField
  dsimp only
  generalize (if s.sec.fiField then s else endAllInjection s) = v at ended ⊢
  split
  · next enough => simpa [ended] using enough
  · exact Nat.le_refl _

theorem sec_zeroiseKeys (s : State) : (zeroiseKeys s).sec = s.sec := sec_foldl (f := fun s i => destroyKey i s) (fun _ _ => rfl) _ s

theorem SMap.get_upd {α : Type} [Inhabited α] (m : SMap α) (k j : Nat) (f : α → α) : (m.upd k f).get j = if k = j then f (m.get k) else m.get j := by
  by_cases e : k = j
  · rw [if_pos e, ← e, SMap.get_upd_same]
  · rw [if_neg e, SMap.get_upd_ne _ _ e]

theorem keySlot_destroyKey (i j : Nat) (s : State) : (keySlot (destroyKey i s) j).key = if i = j then none else (keySlot s j).key := by
  unfold keySlot destroyKey setKeySlot
  dsimp only
  rw [SMap.get_upd]
  split
  · rfl
  · rfl

theorem key_foldl_destroyKey (l : List Nat) (s : State) (j : Nat) (gone : (keySlot s j).key = none ∨ j ∈ l) :
    (keySlot (l.foldl (fun s i => destroyKey i s) s) j).key = none := by
  induction l generalizing s with
  | nil => exact gone.resolve_right List.not_mem_nil
  | cons i l ih =>
    refine ih _ ?_
    rw [keySlot_destroyKey]
    by_cases e : i = j
    · exact .inl (if_pos e)
    · rw [if_neg e]
      exact gone.imp_right fun mem => (List.mem_cons.1 mem).resolve_left (Ne.symm e)

theorem SMap.mem_of_get {α : Type} [Inhabited α] (m : SMap α) (k : Nat) : m.get k = default ∨ (k, m.get k) ∈ m := by
  induction m with
  | nil => exact .inl rfl
  | cons e m ih =>
    obtain ⟨j, a⟩ := e
    by_cases h : j = k
    · refine .inr ?_
      rw [show SMap.get ((j, a) :: m) k = a from if_pos h, ← h]
      exact List.mem_cons_self ..
    · rw [show SMap.get ((j, a) :: m) k = SMap.get m k from if_neg h]
      exact ih.imp_right (List.mem_cons_of_mem _)

/-- No key outlives the zeroisation (R616, R617). -/
theorem key_zeroiseKeys (s : State) (j : Nat) : (keySlot (zeroiseKeys s) j).key = none := by
  refine key_foldl_destroyKey _ s j ?_
  cases key : (keySlot s j).key with
  | none => exact .inl rfl
  | some k =>
    refine .inr (List.mem_map.2 ⟨(j, keySlot s j), List.mem_filter.2 ⟨?_, ?_⟩, rfl⟩)
    · refine (SMap.mem_of_get s.keys.slots j).resolve_left fun none_ => ?_
      rw [keySlot, none_] at key
      cases key
    · dsimp only
      rw [key]
      rfl

end Sys2Proof.Machine

/-! LC_ADVANCE (R613 to R617). -/
namespace Sys2Proof.Machine

section
variable {r : Sec} {s : State}

theorem closed_endSessions (s : State) : Closed { s.sec with endedAt := some s.tick, ports := [] } (endSessions s) := by
  refine Prod.ext rfl (funext fun h => ?_)
  change ((s.sec.ports.mapAll fun _ p => { p with session := 0 }).get h).session = 0
  rw [SMap.get_mapAll fun _ => rfl]

theorem Closed.lc (c : Closed r s) : s.sec.lc = r.lc := (congrArg Sec.lc c.sec :)

theorem Closed.zeroising_eq (c : Closed r s) : s.sec.zeroising = r.zeroising := (congrArg Sec.zeroising c.sec :)

theorem Closed.answer (c : Closed r s) (h : Nat) (ws : List Word) (st : Nat) : Closed r (answer h ws st s) :=
  Prod.ext ((sec_of_aside (aside_answer h ws st s)).trans c.sec) (funext fun j => (session_of_quiet (quiet_answer h ws st s j)).trans (c.session j))

theorem Closed.remeasure (c : Closed r s) : Closed { r with meas := (remeasure s).sec.meas } (remeasure s) :=
  Prod.ext (congrArg (fun q : Sec => { q with meas := (Machine.remeasure s).sec.meas }) c.sec :) (funext c.session)

theorem Closed.enterReturn (c : Closed r s) : Closed { r with roots := [] } (enterReturn s) :=
  Closed.of_sec (s := { s with sec := { s.sec with roots := [] } })
    (Prod.ext (congrArg (fun q : Sec => { q with roots := [] }) c.sec :) (funext c.session)) (sec_zeroiseKeys ..)

theorem Closed.zeroising (c : Closed r s) : Closed { r with zeroising := true } { s with sec := { s.sec with zeroising := true } } :=
  Prod.ext (congrArg (fun q : Sec => { q with zeroising := true }) c.sec :) (funext c.session)

end

/-- The life-cycle bits are blown, every session has ended, and the request is answered (R614). -/
def lcBlown (port : Nat) (ws : List Word) (u : State) : State :=
  answer port ws stOk (endSessions { u with sec := { u.sec with lc := reqWord ws 1 } })

theorem closed_lcBlown (port : Nat) (ws : List Word) (u : State) :
    Closed { u.sec with lc := reqWord ws 1, endedAt := some u.tick, ports := [] } (lcBlown port ws u) := (closed_endSessions _).answer ..

theorem lcTarget_target {now target : Nat} (arc : lcTarget now target = true) : target = 2 ∨ target = 3 ∨ target = 4 := by
  unfold lcTarget at arc
  simp only [Bool.or_eq_true, Bool.and_eq_true, beq_iff_eq] at arc
  omega

section
variable {s u : State} {port : Fin 8} {ws : List Word}

/-- Entry to SCRAP (R617). -/
def enterScrap (s : State) : State := enterSafe { s with sec := { s.sec with zeroising := true } }

theorem closed_enterScrap {r : Sec} {v : State} (c : Closed r v) : Closed { r with zeroising := true } (enterScrap v) := c.zeroising.enterSafe

theorem pwr_fw_enterScrap (v : State) : (enterScrap v).pwr.safe = true ∧ (enterScrap v).fw.ready = false := by
  unfold enterScrap
  rw [enterSafe_pwr, enterSafe_fw]
  exact ⟨rfl, rfl⟩

/-- The entry into a life-cycle state but for the safe state of SCRAP (R615, R616). -/
def lcEntered (target : Nat) (s : State) : State :=
  remeasure (if target == 2 then enterField s else if target == 3 then enterReturn s else s)

theorem exec_lcAdvance (takes : takeRequest port 4 s = some (ws, u)) : exec (.lcAdvance port) s =
    if (ws.length != 8 || !restZero ws 2 || decide (reqWord ws 1 > 7)) = true then .next (answer port ws stBadParam u)
    else if ((secPort s port).session != 2 || !lcTarget s.sec.lc (reqWord ws 1)) = true then .next (answer port ws stDenied u)
    else .next (if (reqWord ws 1 == 4) = true then enterScrap (lcEntered (reqWord ws 1) (lcBlown port ws u))
      else lcEntered (reqWord ws 1) (lcBlown port ws u)) := by
  have taken_ := requestTaken takes
  have lc : u.sec.lc = s.sec.lc := (congrArg Sec.lc (sec_of_aside taken_.aside) :)
  have session : (secPort u port).session = (secPort s port).session := by rw [taken_.port]
  rw [← lc, ← session]
  change execLcAdvance port s = _
  unfold execLcAdvance
  rw [takes]
  rfl

theorem exec_lcAdvance_malformed (takes : takeRequest port 4 s = some (ws, u))
    (form : ws.length ≠ 8 ∨ restZero ws 2 = false ∨ 7 < reqWord ws 1) : exec (.lcAdvance port) s = .next (answer port ws stBadParam u) :=
  (exec_lcAdvance takes).trans (if_pos (by simpa [or_assoc] using form))

theorem exec_lcAdvance_denied (takes : takeRequest port 4 s = some (ws, u)) (len : ws.length = 8) (rest : restZero ws 2 = true)
    (small : reqWord ws 1 ≤ 7) (closed : (secPort s port).session ≠ 2 ∨ lcTarget s.sec.lc (reqWord ws 1) = false) :
    exec (.lcAdvance port) s = .next (answer port ws stDenied u) :=
  (exec_lcAdvance takes).trans ((if_neg (by simp [len, rest, small])).trans (if_pos (by simpa using closed)))

theorem lcAdvances (takes : takeRequest port 4 s = some (ws, u)) (len : ws.length = 8) (rest : restZero ws 2 = true)
    (small : reqWord ws 1 ≤ 7) (open_ : (secPort s port).session = 2) (arc : lcTarget s.sec.lc (reqWord ws 1) = true) :
    ∃ t, exec (.lcAdvance port) s = .next t ∧ t.sec.lc = reqWord ws 1 ∧ (∀ h, (secPort t h).session = 0) ∧
        (reqWord ws 1 = 2 → t.sec.lowrate = false → 0x0100 ≤ t.ciph.rate) ∧ (reqWord ws 1 = 3 → ∀ i, t.sec.roots.has i = false ∧ (keySlot t i).key = none) ∧
        (reqWord ws 1 = 4 → t.sec.zeroising = true ∧ t.pwr.safe = true ∧ t.fw.ready = false) := by
  have blown := closed_lcBlown port ws u
  rw [exec_lcAdvance takes, if_neg (by simp [len, rest, small]), if_neg (by simp [open_, arc])]
  rcases lcTarget_target arc with e | e | e
  · rw [e] at blown ⊢
    have field := blown.of_sec (sec_enterField (lcBlown port ws u))
    refine ⟨_, rfl, ?_, field.remeasure.session, fun _ high => ?_, fun e => absurd e (by decide), fun e => absurd e (by decide)⟩
    · exact field.remeasure.lc
    · refine rate_enterField (s := lcBlown port ws u) ?_
      rw [← sec_enterField]
      exact high
  · rw [e] at blown ⊢
    have returned := blown.enterReturn
    refine ⟨_, rfl, ?_, returned.remeasure.session, fun e => absurd e (by decide), fun _ i => ⟨?_, key_zeroiseKeys _ i⟩, fun e => absurd e (by decide)⟩
    · exact returned.remeasure.lc
    · exact congrArg (fun q : Sec => q.roots.has i) returned.remeasure.sec
  · rw [e] at blown ⊢
    have scrapped := closed_enterScrap (v := lcEntered 4 (lcBlown port ws u)) blown.remeasure
    refine ⟨enterScrap (lcEntered 4 (lcBlown port ws u)), congrArg Host.Outcome.next (if_pos rfl), ?_, scrapped.session, fun e => absurd e (by decide),
      fun e => absurd e (by decide), fun _ => ⟨?_, pwr_fw_enterScrap _⟩⟩
    · exact scrapped.lc
    · exact scrapped.zeroising_eq

end

end Sys2Proof.Machine

/-! ROOT_IMPORT and KEM_KEY_GET (R623 to R625). -/
namespace Sys2Proof.Machine

/-! ## ROOT_IMPORT (R624, R625) -/

/-- What an answer leaves of the trust region beyond its ports. -/
theorem sec_answer (h : Nat) (ws : List Word) (st : Nat) (s : State) : { (answer h ws st s).sec with ports := [] } = { s.sec with ports := [] } :=
  sec_of_aside (aside_answer ..)

section
variable {s u : State} {port : Fin 8} {ws : List Word}

theorem exec_rootImport (buf : Option (List Byte)) (takes : takeRequest port 5 s = some (ws, u)) : exec (.rootImport port buf) s =
    if (ws.length != 8 || !restZero ws 4 || decide (reqWord ws 3 < 1) || decide (reqWord ws 3 > 3)) = true then
      .next (answer port ws stBadParam u)
    else if ((secPort s port).session != 2 || (s.sec.lc != 1 && s.sec.lc != 2)) = true then .next (answer port ws stDenied u)
    else match buf with
      | none => .next (readBuffer port ws [] 1152 u)
      | some b => .next (importRoot port ws b u) := by
  have taken_ := requestTaken takes
  have lc : u.sec.lc = s.sec.lc := (congrArg Sec.lc (sec_of_aside taken_.aside) :)
  have session : (secPort u port).session = (secPort s port).session := by rw [taken_.port]
  rw [← lc, ← session]
  change execRootImport port buf s = _
  unfold execRootImport
  rw [bufferRead_none taken_.unread, takes] <;> rfl

theorem exec_rootImport_malformed (buf : Option (List Byte)) (takes : takeRequest port 5 s = some (ws, u))
    (form : ws.length ≠ 8 ∨ restZero ws 4 = false ∨ reqWord ws 3 < 1 ∨ 3 < reqWord ws 3) :
    exec (.rootImport port buf) s = .next (answer port ws stBadParam u) :=
  (exec_rootImport buf takes).trans (if_pos (by simpa [or_assoc] using form))

/-- What remains of ROOT_IMPORT when its request is well formed. -/
theorem exec_rootImport_formed (buf : Option (List Byte)) (takes : takeRequest port 5 s = some (ws, u)) (len : ws.length = 8)
    (rest : restZero ws 4 = true) (low : 1 ≤ reqWord ws 3) (high : reqWord ws 3 ≤ 3) : exec (.rootImport port buf) s =
    if ((secPort s port).session != 2 || (s.sec.lc != 1 && s.sec.lc != 2)) = true then .next (answer port ws stDenied u)
    else match buf with
      | none => .next (readBuffer port ws [] 1152 u)
      | some b => .next (importRoot port ws b u) := by
  have some_ : reqWord ws 3 ≠ 0 := by omega
  exact (exec_rootImport buf takes).trans (if_neg (by simp [len, rest, some_, high]))

theorem exec_rootImport_denied (buf : Option (List Byte)) (takes : takeRequest port 5 s = some (ws, u)) (len : ws.length = 8)
    (rest : restZero ws 4 = true) (low : 1 ≤ reqWord ws 3) (high : reqWord ws 3 ≤ 3)
    (closed : (secPort s port).session ≠ 2 ∨ (s.sec.lc ≠ 1 ∧ s.sec.lc ≠ 2)) :
    exec (.rootImport port buf) s = .next (answer port ws stDenied u) :=
  (exec_rootImport_formed buf takes len rest low high).trans (if_pos (by simpa using closed))

theorem exec_rootImport_open (buf : Option (List Byte)) (takes : takeRequest port 5 s = some (ws, u)) (len : ws.length = 8)
    (rest : restZero ws 4 = true) (low : 1 ≤ reqWord ws 3) (high : reqWord ws 3 ≤ 3) (open_ : (secPort s port).session = 2)
    (part : s.sec.lc = 1 ∨ s.sec.lc = 2) : exec (.rootImport port buf) s = match buf with
      | none => .next (readBuffer port ws [] 1152 u)
      | some b => .next (importRoot port ws b u) := by
  refine (exec_rootImport_formed buf takes len rest low high).trans (if_neg ?_)
  rw [open_]
  simpa using fun h => part.resolve_left h

theorem importRoot_roots (taken_ : RequestTaken port 5 s ws u) (b : List Byte) :
    match unwrapRoot u (reqWord ws 3) b with
      | none => (importRoot port ws b u).sec.roots = s.sec.roots ∧ resulted port 5 (reqTag ws) stSigFail s (importRoot port ws b u)
      | some root => if liveKeyOfRoot u (reqWord ws 3) = true then
            (importRoot port ws b u).sec.roots = s.sec.roots ∧ resulted port 5 (reqTag ws) stBusy s (importRoot port ws b u)
          else if 64 ≤ s.sec.rootWrites.get (reqWord ws 3) then
            (importRoot port ws b u).sec.roots = s.sec.roots ∧ resulted port 5 (reqTag ws) stNoResource s (importRoot port ws b u)
          else (importRoot port ws b u).sec.roots.get (reqWord ws 3) = root ∧
            (∀ i, i ≠ reqWord ws 3 → (importRoot port ws b u).sec.roots.get i = s.sec.roots.get i) ∧
            (importRoot port ws b u).sec.rootWrites.get (reqWord ws 3) = s.sec.rootWrites.get (reqWord ws 3) + 1 ∧
            resulted port 5 (reqTag ws) stOk s (importRoot port ws b u) := by
  have sec := sec_of_aside taken_.aside
  have roots : u.sec.roots = s.sec.roots := (congrArg Sec.roots sec :)
  have writes : u.sec.rootWrites = s.sec.rootWrites := (congrArg Sec.rootWrites sec :)
  have refused (st : Nat) : (answer port ws st u).sec.roots = s.sec.roots ∧ resulted port 5 (reqTag ws) st s (answer port ws st u) :=
    ⟨(congrArg Sec.roots (sec_answer port ws st u) :).trans roots, taken_.resulted port.isLt st rfl⟩
  unfold importRoot
  dsimp only
  rw [← writes]
  cases unwrapRoot u (reqWord ws 3) b with
  | none => exact refused _
  | some root =>
    dsimp only
    split
    · exact refused _
    split
    · exact refused _
    have kept := sec_answer port ws stOk { u with sec := { u.sec with
      roots := u.sec.roots.put (reqWord ws 3) root, rootWrites := u.sec.rootWrites.put (reqWord ws 3) (u.sec.rootWrites.get (reqWord ws 3) + 1) } }
    have roots' : (answer port ws stOk { u with sec := { u.sec with
      roots := u.sec.roots.put (reqWord ws 3) root, rootWrites := u.sec.rootWrites.put (reqWord ws 3) (u.sec.rootWrites.get (reqWord ws 3) + 1) } }).sec.roots =
      u.sec.roots.put (reqWord ws 3) root := (congrArg Sec.roots kept :)
    have writes' : (answer port ws stOk { u with sec := { u.sec with
      roots := u.sec.roots.put (reqWord ws 3) root, rootWrites := u.sec.rootWrites.put (reqWord ws 3) (u.sec.rootWrites.get (reqWord ws 3) + 1) } }).sec.rootWrites =
      u.sec.rootWrites.put (reqWord ws 3) (u.sec.rootWrites.get (reqWord ws 3) + 1) := (congrArg Sec.rootWrites kept :)
    refine ⟨?_, fun i ne => ?_, ?_, taken_.resulted port.isLt stOk rfl⟩
    · rw [roots', SMap.get_put_same]
    · rw [roots', SMap.get_put_ne _ _ ne.symm, roots]
    · rw [writes', SMap.get_put_same]

end

/-! ## KEM_KEY_GET (R623) -/

theorem hostWrite_out {s : State} {i : Nat} (on : (fnOf s i).bme = true) (addr len data : Nat) (ro : Bool) :
    (hostWrite i addr len data ro s).out = s.out ++ [.dma i addr len data ro] := by
  unfold hostWrite
  rw [if_pos on, markDirty_out]
  rfl

theorem inbox_hostWrite (h i addr len data : Nat) (ro : Bool) (s : State) : inbox h (hostWrite i addr len data ro s) = inbox h s := by
  refine Prod.ext (fnOf_hostWrite (g := Fn.secChan) (fun _ _ _ _ _ _ _ _ _ _ => rfl) ..) ?_
  unfold inbox secPort
  rw [core_sec (core_hostWrite ..)]

theorem Grows.postSecure {s t : State} (h : Grows s t) (i : Nat) (ws : List Word) : Grows s (postSecure i ws t) := by
  unfold Machine.postSecure
  dsimp only
  split
  · exact (h.setFn ..).raiseVector ..
  · exact h.setFn ..

theorem Grows.answer {s t : State} (h : Grows s t) (p : Nat) (ws : List Word) (st : Nat) : Grows s (answer p ws st t) := by
  unfold Machine.answer secResult fillSecure
  split
  · exact h.of_out rfl
  · exact h.postSecure ..

section
variable {s u : State} {port : Fin 8} {ws : List Word}

theorem exec_kemKeyGet (ok : Bool) (takes : takeRequest port 6 s = some (ws, u)) : exec (.kemKeyGet port ok) s =
    if (ws.length != 8 || !restZero ws 3) = true then .next (answer port ws stBadParam u)
    else if ((secPort s port).session == 0 || !s.sec.roots.has 0) = true then .next (answer port ws stDenied u)
    else .next (answer port ws stOk (hostWrite (port * 4096) (reqWord ws 1 + reqWord ws 2 * 2 ^ 32) 1184 (ofBytes (kemPublic s)) false u)) := by
  have taken_ := requestTaken takes
  have roots : u.sec.roots = s.sec.roots := (congrArg Sec.roots (sec_of_aside taken_.aside) :)
  have session : (secPort u port).session = (secPort s port).session := by rw [taken_.port]
  have key : kemPublic s = kemPublic u := by rw [kemPublic, kemPublic, roots]
  rw [key, ← roots, ← session]
  change execKemKeyGet port ok s = _
  unfold execKemKeyGet
  rw [takes]

theorem exec_kemKeyGet_malformed (ok : Bool) (takes : takeRequest port 6 s = some (ws, u)) (form : ws.length ≠ 8 ∨ restZero ws 3 = false) :
    exec (.kemKeyGet port ok) s = .next (answer port ws stBadParam u) :=
  (exec_kemKeyGet ok takes).trans (if_pos (by simpa using form))

theorem exec_kemKeyGet_denied (ok : Bool) (takes : takeRequest port 6 s = some (ws, u)) (len : ws.length = 8) (rest : restZero ws 3 = true)
    (closed : (secPort s port).session = 0 ∨ s.sec.roots.has 0 = false) : exec (.kemKeyGet port ok) s = .next (answer port ws stDenied u) :=
  (exec_kemKeyGet ok takes).trans ((if_neg (by simp [len, rest])).trans (if_pos (by simpa using closed)))

theorem exec_kemKeyGet_open (ok : Bool) (takes : takeRequest port 6 s = some (ws, u)) (len : ws.length = 8) (rest : restZero ws 3 = true)
    (open_ : (secPort s port).session ≠ 0) (has : s.sec.roots.has 0 = true) : exec (.kemKeyGet port ok) s = .next (answer port ws stOk
      (hostWrite (port * 4096) (reqWord ws 1 + reqWord ws 2 * 2 ^ 32) 1184 (ofBytes (kemPublic s)) false u)) :=
  (exec_kemKeyGet ok takes).trans ((if_neg (by simp [len, rest])).trans (if_neg (by simp [open_, has])))

theorem keyWritten (taken_ : RequestTaken port 6 s ws u) (addr len data : Nat) :
    resulted port 6 (reqTag ws) stOk s (answer port ws stOk (hostWrite (port * 4096) addr len data false u)) :=
  taken_.resulted port.isLt stOk (inbox_hostWrite ..)

theorem out_keyWritten (taken_ : RequestTaken port 6 s ws u) (on : (fnOf s (port * 4096)).bme = true) (addr len data : Nat) :
    ∃ tail, (answer port ws stOk (hostWrite (port * 4096) addr len data false u)).out = u.out ++ .dma (port * 4096) addr len data false :: tail := by
  have wrote := hostWrite_out (s := u) ((taken_.bme _).trans on) addr len data false
  obtain ⟨tail, e⟩ := (Grows.refl (hostWrite (port * 4096) addr len data false u)).answer port ws stOk
  exact ⟨tail, by rw [← e, wrote, List.append_assoc, List.singleton_append]⟩

end

end Sys2Proof.Machine

/-! FUSE_PROGRAM (R610, R611, R613, R620). -/
namespace Sys2Proof.Machine

/-- The value that a FUSE_PROGRAM brings in words 2 to 9. -/
def fuseHash (ws : List Word) : Nat := ofBytes ((ws.drop 2).flatMap fun w => bytesOf 4 w.toNat)

theorem fuseHash_zero {ws : List Word} (zero : ∀ w ∈ ws.drop 2, w = 0) : fuseHash ws = 0 := by
  unfold fuseHash
  generalize ws.drop 2 = l at zero
  induction l with
  | nil => rfl
  | cons w l ih =>
    obtain rfl := zero w (List.mem_cons_self ..)
    have rest := ih fun w mem => zero w (List.mem_cons_of_mem _ mem)
    rw [List.flatMap_cons]
    change 0 + 256 * (0 + 256 * (0 + 256 * (0 + 256 * ofBytes (l.flatMap fun w => bytesOf 4 w.toNat)))) = 0
    rw [rest]

/-- The first OP_KEY may be written without a session (R620). -/
def fuseOpen (s : State) (port : Fin 8) (ws : List Word) : Bool :=
  s.sec.lc == 1 && !(s.sec.hashes.get 32).written && reqWord ws 1 % 256 == 0x20 && !(reqWord ws 1 / 256 == 1) && port.val == 0

/-- The field code of a policy bit. -/
def policyField (f : Nat) : Bool := f == 0x30 || f == 0x31

/-- The trust region with a fuse blown. -/
def fused (q : Sec) (u : State) : State := remeasure { u with sec := q }

def policyBlown (f : Nat) (q : Sec) : Sec := if f == 0x30 then { q with fiField := true } else { q with lowrate := true }
def slotRevoked (f : Nat) (q : Sec) : Sec := { q with hashes := q.hashes.upd f fun h => { h with revoked := true } }
def slotWritten (f hash : Nat) (q : Sec) : Sec :=
  { q with hashes := q.hashes.upd f fun h => { h with hash := BitVec.ofNat 256 hash, written := true } }

/-! What blowing a fuse leaves. -/

section
variable {h k : Nat} {s u : State} {ws : List Word} (taken_ : RequestTaken h k s ws u)

theorem sec_fused (h : Nat) (ws : List Word) (st : Nat) (q : Sec) (u : State) :
    { (answer h ws st (fused q u)).sec with ports := [] } = { q with meas := (fused q u).sec.meas, ports := [] } := sec_answer ..

theorem hashes_fused (h : Nat) (ws : List Word) (st : Nat) (q : Sec) (u : State) : (answer h ws st (fused q u)).sec.hashes = q.hashes :=
  (congrArg Sec.hashes (sec_fused h ws st q u) :)

theorem lc_fused (h : Nat) (ws : List Word) (st : Nat) (q : Sec) (u : State) : (answer h ws st (fused q u)).sec.lc = q.lc :=
  (congrArg Sec.lc (sec_fused h ws st q u) :)

theorem policies_fused (h : Nat) (ws : List Word) (st : Nat) (q : Sec) (u : State) :
    (answer h ws st (fused q u)).sec.fiField = q.fiField ∧ (answer h ws st (fused q u)).sec.lowrate = q.lowrate :=
  ⟨(congrArg Sec.fiField (sec_fused h ws st q u) :), (congrArg Sec.lowrate (sec_fused h ws st q u) :)⟩

include taken_

theorem RequestTaken.fused (port : h < 8) {q : Sec} (ports : q.ports = u.sec.ports) :
    Machine.resulted h k (reqTag ws) stOk s (answer h ws stOk (fused q u)) := by
  refine taken_.resulted port stOk (Prod.ext rfl ?_)
  change (q.ports.get h).answers = (u.sec.ports.get h).answers
  rw [ports]

end

section
variable {s u : State} {port : Fin 8} {ws : List Word}

theorem exec_fuseProgram (takes : takeRequest port 7 s = some (ws, u)) : exec (.fuseProgram port) s =
    if (ws.length != 10 || decide (reqWord ws 1 > 511) || !(hashField (reqWord ws 1 % 256) || policyField (reqWord ws 1 % 256)) ||
        ((policyField (reqWord ws 1 % 256) || reqWord ws 1 / 256 == 1) && fuseHash ws != 0) ||
        (policyField (reqWord ws 1 % 256) && reqWord ws 1 / 256 == 1)) = true then .next (answer port ws stBadParam u)
    else if (((secPort s port).session != 2 && !fuseOpen s port ws) || (policyField (reqWord ws 1 % 256) && s.sec.lc != 1) ||
        (s.sec.lc != 1 && s.sec.lc != 2)) = true then .next (answer port ws stDenied u)
    else if policyField (reqWord ws 1 % 256) = true then .next (answer port ws stOk (fused (policyBlown (reqWord ws 1 % 256) u.sec) u))
    else if (reqWord ws 1 / 256 == 1) = true then
      if ((decide (reqWord ws 1 % 256 < 32) && (s.sec.hashes.get (reqWord ws 1 % 256)).usable &&
          decide (usableCount s (reqWord ws 1 % 256) ≤ 1)) || signedRunning s (reqWord ws 1 % 256)) = true then .next (answer port ws stBadState u)
      else .next (answer port ws stOk (fused (slotRevoked (reqWord ws 1 % 256) u.sec) u))
    else if (s.sec.hashes.get (reqWord ws 1 % 256)).written = true then .next (answer port ws stBadState u)
    else .next (answer port ws stOk (fused (slotWritten (reqWord ws 1 % 256) (fuseHash ws) u.sec) u)) := by
  have taken_ := requestTaken takes
  have sec := sec_of_aside taken_.aside
  have lc : u.sec.lc = s.sec.lc := (congrArg Sec.lc sec :)
  have hashes : u.sec.hashes = s.sec.hashes := (congrArg Sec.hashes sec :)
  have fw : u.fw = s.fw := (congrArg State.fw taken_.aside :)
  have session : (secPort u port).session = (secPort s port).session := by rw [taken_.port]
  have open_ : fuseOpen s port ws = fuseOpen u port ws := by rw [fuseOpen, fuseOpen, lc, hashes]
  have count (f : Nat) : usableCount s f = usableCount u f := by rw [usableCount, usableCount, hashes]
  have signed (f : Nat) : signedRunning s f = signedRunning u f := by
    unfold signedRunning slotImage
    rw [hashes, fw]
  rw [open_, count, signed, ← session, ← hashes, ← lc]
  change execFuseProgram port s = _
  unfold execFuseProgram
  rw [takes]
  rfl

/-- A field code of a hash slot, alone and with the revocation bit. -/
theorem hashField_codes {f : Nat} (slot : hashField f = true) : f % 256 = f ∧ (f / 256 == 1) = false ∧ policyField f = false ∧ f ≤ 511 ∧
    (256 + f) % 256 = f ∧ ((256 + f) / 256 == 1) = true ∧ 256 + f ≤ 511 := by
  unfold hashField at slot
  simp only [Bool.and_eq_true, decide_eq_true_eq] at slot
  unfold policyField
  simp only [beq_eq_false_iff_ne, beq_iff_eq, Bool.or_eq_false_iff]
  omega

/-! ## A hash slot is written -/

theorem exec_fuseProgram_hash {f : Nat} (takes : takeRequest port 7 s = some (ws, u)) (len : ws.length = 10) (code : reqWord ws 1 = f)
    (slot : hashField f = true) (permitted : (secPort s port).session = 2 ∧ (s.sec.lc = 1 ∨ s.sec.lc = 2) ∨
      s.sec.lc = 1 ∧ f = 0x20 ∧ port = 0 ∧ (s.sec.hashes.get 32).written = false) : exec (.fuseProgram port) s =
    if (s.sec.hashes.get f).written = true then .next (answer port ws stBadState u)
    else .next (answer port ws stOk (fused (slotWritten f (fuseHash ws) u.sec) u)) := by
  obtain ⟨low, plain, noPolicy, small, -⟩ := hashField_codes slot
  rw [exec_fuseProgram takes, code, low, plain, noPolicy, slot, len, fuseOpen, code, low, plain]
  rw [if_neg (by simp [small]), if_neg, if_neg (by decide), if_neg (by decide)]
  rcases permitted with ⟨session, lc | lc⟩ | ⟨lc, rfl, rfl, unwritten⟩
  · simp [session, lc]
  · simp [session, lc]
  · simp [lc, unwritten]

theorem hashWritten {f : Nat} (takes : takeRequest port 7 s = some (ws, u)) :
    let t := answer port ws stOk (fused (slotWritten f (fuseHash ws) u.sec) u)
    resulted port 7 (reqTag ws) stOk s t ∧ t.sec.hashes.get f = { s.sec.hashes.get f with hash := BitVec.ofNat 256 (fuseHash ws), written := true } ∧
      (∀ g, g ≠ f → t.sec.hashes.get g = s.sec.hashes.get g) ∧ t.sec.lc = s.sec.lc := by
  have taken_ := requestTaken takes
  have sec := sec_of_aside taken_.aside
  have hashes : u.sec.hashes = s.sec.hashes := (congrArg Sec.hashes sec :)
  refine ⟨taken_.fused port.isLt rfl, ?_, fun g ne => ?_, ?_⟩
  · rw [hashes_fused, slotWritten, hashes, SMap.get_upd_same]
  · rw [hashes_fused, slotWritten, hashes, SMap.get_upd_ne _ _ ne.symm]
  · rw [lc_fused]
    exact (congrArg Sec.lc sec :)

/-! ## A policy bit, or a revocation -/

theorem exec_fuseProgram_policy (takes : takeRequest port 7 s = some (ws, u)) (len : ws.length = 10) (zero : ∀ w ∈ ws.drop 2, w = 0)
    (session : (secPort s port).session = 2) (lc : s.sec.lc = 1) (code : reqWord ws 1 = 0x30 ∨ reqWord ws 1 = 0x31) :
    exec (.fuseProgram port) s = .next (answer port ws stOk (fused (policyBlown (reqWord ws 1) u.sec) u)) := by
  rw [exec_fuseProgram takes, len, fuseHash_zero zero, session, lc]
  rcases code with code | code
  · rw [code, if_neg (by decide), if_neg (by simp), if_pos (by decide)]
  · rw [code, if_neg (by decide), if_neg (by simp), if_pos (by decide)]

theorem policyWritten (takes : takeRequest port 7 s = some (ws, u)) (code : reqWord ws 1 = 0x30 ∨ reqWord ws 1 = 0x31) :
    let t := answer port ws stOk (fused (policyBlown (reqWord ws 1) u.sec) u)
    resulted port 7 (reqTag ws) stOk s t ∧ t.sec.fiField = (reqWord ws 1 == 0x30 || s.sec.fiField) ∧
        t.sec.lowrate = (reqWord ws 1 == 0x31 || s.sec.lowrate) ∧ t.sec.hashes = s.sec.hashes := by
  have taken_ := requestTaken takes
  have sec := sec_of_aside taken_.aside
  have hashes : u.sec.hashes = s.sec.hashes := (congrArg Sec.hashes sec :)
  have fi : u.sec.fiField = s.sec.fiField := (congrArg Sec.fiField sec :)
  have low : u.sec.lowrate = s.sec.lowrate := (congrArg Sec.lowrate sec :)
  dsimp only
  rw [hashes_fused, (policies_fused ..).1, (policies_fused ..).2, ← hashes, ← fi, ← low]
  rcases code with code | code
  · rw [code]
    exact ⟨taken_.fused port.isLt rfl, rfl, rfl, rfl⟩
  · rw [code]
    exact ⟨taken_.fused port.isLt rfl, rfl, rfl, rfl⟩

theorem exec_fuseProgram_revoke {f : Nat} (takes : takeRequest port 7 s = some (ws, u)) (len : ws.length = 10) (zero : ∀ w ∈ ws.drop 2, w = 0)
    (session : (secPort s port).session = 2) (lc : s.sec.lc = 1 ∨ s.sec.lc = 2) (code : reqWord ws 1 = 256 + f) (slot : hashField f = true) :
    exec (.fuseProgram port) s =
    if ((decide (f < 32) && (s.sec.hashes.get f).usable && decide (usableCount s f ≤ 1)) || signedRunning s f) = true then
      .next (answer port ws stBadState u)
    else .next (answer port ws stOk (fused (slotRevoked f u.sec) u)) := by
  obtain ⟨-, -, noPolicy, -, low, revokes, small⟩ := hashField_codes slot
  rw [exec_fuseProgram takes, len, fuseHash_zero zero, session, code, low, revokes, noPolicy, slot]
  rw [if_neg (by simp [small]), if_neg (by simpa using fun h => lc.resolve_left h), if_neg (by decide), if_pos rfl]

theorem slotRevoked_fused {f : Nat} (takes : takeRequest port 7 s = some (ws, u)) :
    let t := answer port ws stOk (fused (slotRevoked f u.sec) u)
    resulted port 7 (reqTag ws) stOk s t ∧ t.sec.hashes.get f = { s.sec.hashes.get f with revoked := true } ∧
      (∀ g, g ≠ f → t.sec.hashes.get g = s.sec.hashes.get g) := by
  have taken_ := requestTaken takes
  have hashes : u.sec.hashes = s.sec.hashes := (congrArg Sec.hashes (sec_of_aside taken_.aside) :)
  refine ⟨taken_.fused port.isLt rfl, ?_, fun g ne => ?_⟩
  · rw [hashes_fused, slotRevoked, hashes, SMap.get_upd_same]
  · rw [hashes_fused, slotRevoked, hashes, SMap.get_upd_ne _ _ ne.symm]

/-! ## Refusals -/

theorem exec_fuseProgram_malformed (takes : takeRequest port 7 s = some (ws, u))
    (form : ws.length ≠ 10 ∨ 511 < reqWord ws 1 ∨ (hashField (reqWord ws 1 % 256) = false ∧ reqWord ws 1 ≠ 0x30 ∧ reqWord ws 1 ≠ 0x31)) :
    exec (.fuseProgram port) s = .next (answer port ws stBadParam u) := by
  refine (exec_fuseProgram takes).trans (if_pos ?_)
  rcases form with len | big | ⟨slot, noFi, noLow⟩
  · simp [len]
  · simp [big]
  · by_cases big : 511 < reqWord ws 1
    · simp [big]
    by_cases policy : policyField (reqWord ws 1 % 256) = true
    · have revokes : reqWord ws 1 / 256 = 1 := by
        simp only [policyField, Bool.or_eq_true, beq_iff_eq] at policy
        omega
      simp [policy, revokes]
    · simp [slot, policy]

theorem exec_fuseProgram_denied (takes : takeRequest port 7 s = some (ws, u)) (len : ws.length = 10)
    (slot : hashField (reqWord ws 1) = true) (session : (secPort s port).session ≠ 2)
    (closed : s.sec.lc ≠ 1 ∨ reqWord ws 1 ≠ 0x20 ∨ port ≠ 0 ∨ (s.sec.hashes.get 32).written = true) :
    exec (.fuseProgram port) s = .next (answer port ws stDenied u) := by
  obtain ⟨low, plain, noPolicy, bound, -⟩ := hashField_codes slot
  have shut : fuseOpen s port ws = false := by
    rw [fuseOpen, low, plain]
    rcases closed with lc | code | other | written
    · simp [lc]
    · simp [code]
    · simp [other]
    · simp [written]
  rw [exec_fuseProgram takes, shut, low, plain, noPolicy, slot, len, if_neg (by simp [bound]), if_pos (by simp [session])]

end

end Sys2Proof.Machine

/-! Zeroisation and entropy (R617, R626, R627), and the trust region's requests together. -/
namespace Sys2Proof.Machine

/-! ## What the zeroisation of SCRAP leaves of the sequencer (R617) -/

theorem pwr_foldl {α : Type} {f : State → α → State} (h : ∀ s a, (f s a).pwr = s.pwr) (l : List α) (s : State) : (l.foldl f s).pwr = s.pwr := by
  induction l generalizing s with
  | nil => rfl
  | cons a l ih => rw [List.foldl_cons, ih, h]

theorem pwr_setObj (n : Nat) (f : Obj → Obj) (s : State) : (setObj n f s).pwr = s.pwr := by
  unfold setObj
  split <;> rfl

theorem pwr_reportWork (n : Nat) (ws : List Work2) (s : State) : (reportWork n ws s).pwr = s.pwr := by
  induction ws generalizing s with
  | nil => exact pwr_setObj ..
  | cons w ws ih =>
    unfold reportWork
    split
    · refine (ih _).trans ?_
      split <;> rfl
    · exact pwr_setObj ..

theorem pwr_respond (n cid dw0 st bytes : Nat) (s : State) : (respond n cid dw0 st bytes s).pwr = s.pwr := by
  unfold respond
  dsimp only
  split
  · rfl
  split
  · exact pwr_setObj ..
  split
  · exact pwr_setObj ..
  split
  · exact (pwr_reportWork ..).trans (pwr_setObj ..)
  · rfl

theorem pwr_finishCmd (id st bytes : Nat) (s : State) : (finishCmd id st bytes s).pwr = s.pwr := by
  unfold finishCmd
  dsimp only
  split
  · rfl
  · rw [pwr_respond]
    split <;> rfl

theorem pwr_failPort (p : Nat) (s : State) : (failPort p s).pwr = s.pwr :=
  pwr_foldl (f := fun s i => finishCmd i nvPathError 0 s) (fun s i => pwr_finishCmd i nvPathError 0 s) _ s

theorem pwr_slotsOff (s : State) : (slotsOff s).pwr = s.pwr :=
  pwr_foldl (fun s p => by
    split
    · exact pwr_failPort p s
    · rfl) _ s

theorem pwr_zeroiseKeys (s : State) : (zeroiseKeys s).pwr = s.pwr := pwr_foldl (f := fun s i => destroyKey i s) (fun _ _ => rfl) _ s

theorem zeroiseMemories_pwr (v : State) : (zeroiseMemories v).pwr = v.pwr := rfl
theorem zeroiseMemories_lc (v : State) : (zeroiseMemories v).sec.lc = v.sec.lc := rfl
theorem keySlot_zeroiseMemories (v : State) (i : Nat) : keySlot (zeroiseMemories v) i = keySlot v i := rfl

/-- The memories of a part in SCRAP after their zeroisation. -/
def zeroised (s : State) : State := zeroiseMemories (zeroiseKeys (slotsOff (enterSafe s)))

theorem zeroised_safe (s : State) : (zeroised s).pwr.safe = true := by
  rw [zeroised, zeroiseMemories_pwr, pwr_zeroiseKeys, pwr_slotsOff, enterSafe_pwr]

theorem zeroised_lc (s : State) : (zeroised s).sec.lc = s.sec.lc := by
  have kept : frame (zeroiseKeys (slotsOff (enterSafe s))) = frame s := by simp
  rw [zeroised, zeroiseMemories_lc]
  exact lc_of_frame kept

theorem zeroised_key (s : State) (i : Nat) : (keySlot (zeroised s) i).key = none := by
  rw [zeroised, keySlot_zeroiseMemories]
  exact key_zeroiseKeys _ i

/-- A part in SCRAP once its secrets are gone. -/
def scrapped (z : State) : State :=
  { z with
      sec := { z.sec with devsec := List.replicate 32 0, roots := [], zeroising := false, zeroised := true }
      hbm := {}
      fw := { z.fw with accepted := false, ready := false }
      pwr := { z.pwr with hxReleased := true, hxReady := true } }

theorem exec_scrapZeroise {s : State} (lc : s.sec.lc = 4) (once : s.sec.zeroised = false) (low : 6 ≤ s.pwr.stage) (high : s.pwr.stage ≤ 11) :
    exec .scrapZeroise s = .next (scrapped (zeroised s)) := by
  change execScrapZeroise s = _
  unfold execScrapZeroise
  exact if_neg (by simp [lc, once, low, high])

theorem exec_scrapZeroise_idle {s : State} (idle : s.sec.lc ≠ 4 ∨ s.sec.zeroised = true ∨ s.pwr.stage < 6 ∨ 11 < s.pwr.stage) :
    exec .scrapZeroise s = .next s := by
  change execScrapZeroise s = _
  unfold execScrapZeroise
  exact if_pos (by simpa [or_assoc] using idle)

theorem scrapped_eq (z : State) : (scrapped z).sec.devsec = List.replicate 32 0 ∧ (∀ i, (scrapped z).sec.roots.has i = false ∧
    keySlot (scrapped z) i = keySlot z i) ∧ (scrapped z).hbm = {} ∧ (scrapped z).sec.zeroising = false ∧ (scrapped z).sec.zeroised = true ∧
    (scrapped z).pwr.safe = z.pwr.safe ∧ (scrapped z).sec.lc = z.sec.lc ∧ (scrapped z).fw.ready = false :=
  ⟨rfl, fun _ => ⟨rfl, rfl⟩, rfl, rfl, rfl, rfl, rfl, rfl⟩

theorem scrapZeroises {s : State} (lc : s.sec.lc = 4) (once : s.sec.zeroised = false) (low : 6 ≤ s.pwr.stage) (high : s.pwr.stage ≤ 11) :
    ∃ t, exec .scrapZeroise s = .next t ∧ t.sec.devsec = List.replicate 32 0 ∧ (∀ i, t.sec.roots.has i = false ∧ (keySlot t i).key = none) ∧
      (∀ a, Memory.read t.hbm a = 0) ∧ t.sec.zeroising = false ∧ t.sec.zeroised = true ∧ t.pwr.safe = true ∧ t.sec.lc = 4 ∧ t.fw.ready = false := by
  obtain ⟨devsec, secrets, hbm, ended, done_, safe, scrap, ready⟩ := scrapped_eq (zeroised s)
  refine ⟨_, exec_scrapZeroise lc once low high, devsec, fun i => ⟨(secrets i).1, ?_⟩, fun a => ?_, ended, done_, safe.trans (zeroised_safe s),
    scrap.trans ((zeroised_lc s).trans lc), ready⟩
  · rw [(secrets i).2]
    exact zeroised_key s i
  · rw [hbm]
    exact hbmCanonicalAtReset.2.2 a

/-! ## Entropy (R626, R627) -/

theorem exec_entropyReseed_idle {s : State} (fails : s.sec.entropyFail = true) : exec .entropyReseed s = .next s := by
  change execEntropyReseed s = _
  unfold execEntropyReseed
  exact if_pos fails

theorem exec_entropyReseed {s : State} (works : s.sec.entropyFail = false) :
    exec .entropyReseed s = .next (useDraw { s with sec := { s.sec with reseedAt := s.tick, drbg := Config.draw s.draws } }) := by
  change execEntropyReseed s = _
  unfold execEntropyReseed
  exact if_neg (by simp [works])

/-! ## The trust region -/

theorem requestTaken_kept {s u : State} {h k : Nat} {ws : List Word} (takes : takeRequest h k s = some (ws, u)) :
    (secPort s h).request = some ws ∧ reqType ws = k ∧ (secPort u h).request = none ∧
    (secPort u h).session = (secPort s h).session ∧ u.sec.lc = s.sec.lc ∧ u.keys = s.keys ∧ u.hbm = s.hbm := by
  have taken_ := requestTaken takes
  refine ⟨taken_.posted, taken_.type, ?_, ?_, ?_, ?_, ?_⟩
  · rw [taken_.port]
  · rw [taken_.port]
  · exact (congrArg Sec.lc (sec_of_aside taken_.aside) :)
  · exact (congrArg State.keys taken_.aside :)
  · exact (congrArg State.hbm taken_.aside :)

/-- Settles O49: what taking a request and answering it change is said once, and each type of request is then read off its own lemma. -/
theorem theTrustRegionAnswersItsRequests : Obligations.TheTrustRegionAnswersItsRequests := by
  unfold Obligations.TheTrustRegionAnswersItsRequests
  refine ⟨fun _ _ _ _ _ => requestTaken_kept, ?_, fun s port ws st => resulted_answer port.isLt ws st s, fun _ _ _ _ => exec_nonceReq,
    fun s port w ws => told_fillSecure port.isLt (w :: ws) s, fun _ _ buf _ _ => authenticates buf, fun _ _ buf _ _ => exec_auth_read buf,
    fun _ _ ws n len on => readBuffer_reads ws n len on, fun _ _ ws n len off => readBuffer_unmastered ws n len off,
    fun _ _ _ => exec_authVerified_ended, fun _ _ _ _ _ _ => authVerified, fun _ _ _ _ => closes, ?_, ?_, ?_, ?_, ?_, ?_, ?_,
    fun _ => exec_scrapZeroise_idle, ?_⟩
  · exact fun s port buf ok => ⟨exec_nonceReq_idle, exec_auth_idle buf, exec_close_idle, exec_lcAdvance_idle, exec_rootImport_idle buf,
      exec_kemKeyGet_idle ok, exec_fuseProgram_idle, exec_authVerified_idle⟩
  · intro s port ws u takes
    exact ⟨exec_lcAdvance_malformed takes, fun len rest small => ⟨lcAdvances takes len rest small, exec_lcAdvance_denied takes len rest small⟩⟩
  · intro s port buf ws u takes
    refine ⟨exec_rootImport_malformed buf takes, fun len rest low high => ⟨exec_rootImport_denied buf takes len rest low high,
      fun open_ part => ⟨?_, ?_⟩⟩⟩
    · rintro rfl
      exact exec_rootImport_open none takes len rest low high open_ part
    · rintro b rfl
      exact ⟨_, exec_rootImport_open (some b) takes len rest low high open_ part, importRoot_roots (requestTaken takes) b⟩
  · intro s port ok ws u takes
    have taken_ := requestTaken takes
    refine ⟨exec_kemKeyGet_malformed ok takes, fun len rest => ⟨exec_kemKeyGet_denied ok takes len rest, fun open_ has on => ?_,
      fun open_ has _ => ⟨_, exec_kemKeyGet_open ok takes len rest open_ has, keyWritten taken_ ..⟩⟩⟩
    obtain ⟨tail, out⟩ := out_keyWritten taken_ on (reqWord ws 1 + reqWord ws 2 * 2 ^ 32) 1184 (ofBytes (kemPublic s))
    exact ⟨_, tail, exec_kemKeyGet_open ok takes len rest open_ has, out, keyWritten taken_ ..⟩
  · intro s port ws u f takes len code slot permitted
    have runs := exec_fuseProgram_hash takes len code slot permitted
    refine ⟨fun unwritten => ?_, fun written => runs.trans (if_pos written)⟩
    exact ⟨_, runs.trans (if_neg (by simp [unwritten])), hashWritten takes⟩
  · intro s port ws u takes len zero session
    refine ⟨fun lc code => ⟨_, exec_fuseProgram_policy takes len zero session lc code, policyWritten takes code⟩, fun lc f code slot => ?_⟩
    have runs := exec_fuseProgram_revoke takes len zero session lc code slot
    refine ⟨fun needed => runs.trans (if_pos (by simpa [and_assoc] using needed)), fun spare unsigned => ?_⟩
    refine ⟨_, runs.trans (if_neg ?_), slotRevoked_fused takes⟩
    simpa [unsigned, and_assoc] using spare
  · intro s port ws u takes
    exact ⟨exec_fuseProgram_malformed takes, fun len _ slot session => exec_fuseProgram_denied takes len slot session⟩
  · exact fun s => scrapZeroises
  · exact fun s => ⟨rfl, rfl, exec_entropyReseed_idle, fun works => ⟨_, exec_entropyReseed works, rfl, rfl, rfl⟩⟩

end Sys2Proof.Machine

/-! The power-on order as far as the start-up test (R44, R130 to R132, R587, R638, R641). -/
namespace Sys2Proof.Machine

/-! ## Power-on of AO, ADP_PWROK and the power groups (R638, R641) -/

theorem exec_adpPwrokRise {s : State} {cool : Bool} (low : s.pwr.pwrok = false)
    (cooled : s.pwr.tripped = true → s.pwr.stage = 12 → cool = true ∧ s.pwr.fellAt + 800000 ≤ s.tick) :
    exec (.adpPwrokRise cool) s = .next { fundamentalReset s with
      pwr := { (fundamentalReset s).pwr with pwrok := true, stage := 1, en := 1, tripOut := false } } := by
  refine if_neg ?_
  simp only [low, Bool.false_or, Bool.and_eq_true, Bool.or_eq_true, Bool.not_eq_true', beq_iff_eq, decide_eq_true_eq]
  rintro ⟨⟨tripped, stage⟩, early⟩
  obtain ⟨rfl, passed⟩ := cooled tripped stage
  simp [msT] at early
  omega

theorem exec_adpPwrokRise_hot {s : State} (tripped : s.pwr.tripped = true) (stage : s.pwr.stage = 12) :
    exec (.adpPwrokRise false) s = .next s := if_pos (by simp [tripped, stage])

theorem exec_pwrPgRise {s : State} {n : Fin 3} (stage : s.pwr.stage = n.val + 1) (enabled : s.pwr.en.getLsbD n.val = true) :
    exec (.pwrPgRise n) s = .next { s with pwr := { s.pwr with
      stage := n.val + 2, pg := s.pwr.pg ||| (1#3 <<< n.val), en := if n.val < 2 then s.pwr.en ||| (1#3 <<< (n.val + 1)) else s.pwr.en } } :=
  if_pos (by simp [stage, enabled])

/-- The bit that is set in a group register reads as set. -/
theorem getLsbD_or_shiftLeft_one (x : BitVec 3) {n : Nat} (lt : n < 3) : (x ||| (1#3 <<< n)).getLsbD n = true := by simp [lt]

/-- The sequencer has failed in a step (R641, R644). -/
def seqFailed (s : State) : State :=
  { railsOff (enterSafe s) with pwr := { (railsOff (enterSafe s)).pwr with failCause := (railsOff (enterSafe s)).pwr.stage, stage := 13 } }

theorem exec_pwrSeqFail {s : State} (lo : 1 ≤ s.pwr.stage) (hi : s.pwr.stage ≤ 3) : exec .pwrSeqFail s = .next (seqFailed s) :=
  if_pos (by simp [lo, hi])

theorem seqFailed_pwr (s : State) : (seqFailed s).pwr = { (enterSafe s).pwr with en := 0, failCause := (enterSafe s).pwr.stage, stage := 13 } := by
  unfold seqFailed
  rw [railsOff_pwr]

/-! ## The root PLL (R44, R352) -/

theorem exec_rootPllLock {s : State} (stage : s.pwr.stage = 4) (first : s.pwr.relock = false) :
    exec .rootPllLock s = .next { lockHeld s with pwr := { (lockHeld s).pwr with stage := 6 } } :=
  if_pos (by simp [stage, first])

theorem rootPllLocked (s : State) :
    let t : State := { lockHeld s with pwr := { (lockHeld s).pwr with stage := 6 } }
    t.pwr = { s.pwr with ckLocked := true, refValid := true, unlocked := false, lockTick := s.tick, stage := 6 } ∧
    t.time.untrusted = (s.time.untrusted || s.pwr.unlocked) ∧ core { t with pwr := s.pwr, time := s.time } = core s := by
  have held := lockHeld_core s
  have pwr := pwr_of_core held
  have time := time_of_core held
  refine ⟨congrArg (fun p : Pwr => { p with stage := 6 }) pwr, congrArg Time.untrusted time, ?_⟩
  exact (congrArg (fun u : State => { u with pwr := s.pwr, time := s.time }) held :)

/-! ## The firmware's images (R130 to R132, R638 steps 6 to 8) -/

/-- The boot results are recorded. -/
def bootChecked (i0 i1 : Option FwImage) (s : State) : State :=
  { s with fw := { s.fw with
    slot0 := i0, slot1 := i1, boot0 := bootCheck s i0, boot1 := if bootCheck s i0 == 1 then 0 else bootCheck s i1 } }

theorem bootCheck_none (s : State) : bootCheck s none = 2 := rfl

theorem minSvn_le_of_bootCheck {s : State} {i : FwImage} (passes : bootCheck s (some i) = 1) : s.sec.minSvn ≤ i.svn := by
  unfold bootCheck at passes
  dsimp only at passes
  split at passes
  · cases passes
  split at passes
  · cases passes
  split at passes
  · cases passes
  split at passes
  · cases passes
  next new => exact Nat.not_lt.1 new

theorem fw_avsInit (s : State) : (avsInit s).fw = s.fw ∧ (avsInit s).pwr.stage = s.pwr.stage := by
  unfold avsInit
  generalize List.range 22 = l
  induction l generalizing s with
  | nil => exact ⟨rfl, rfl⟩
  | cons k l ih =>
    obtain ⟨fw, stage⟩ := ih (writeRail k (plannedMv s k) s)
    rw [List.foldl_cons, fw, stage]
    unfold writeRail
    dsimp only
    split
    · exact ⟨rfl, rfl⟩
    · exact ⟨rfl, rfl⟩

theorem releaseRegions_kept (u : State) : (releaseRegions u).fw = u.fw ∧ (releaseRegions u).pwr.stage = 9 ∧
    (releaseRegions u).pwr.hxReady = true ∧ (releaseRegions u).pwr.released = true := by
  rw [← (fw_avsInit u).1, releaseRegions]
  generalize avsInit u = v
  obtain ⟨m, r, eq⟩ := regionsReleased_eq v
  exact ⟨(congrArg State.fw eq :), (congrArg (fun t : State => t.pwr.stage) eq :), (congrArg (fun t : State => t.pwr.hxReady) eq :),
    (congrArg (fun t : State => t.pwr.released) eq :)⟩

section
variable {s : State} {i0 i1 : Option FwImage} (stage : s.pwr.stage = 6) (auto : s.fw.recovery = false) (blank : s.sec.lc ≠ 0) (scrap : s.sec.lc ≠ 4)
include stage auto blank scrap

theorem exec_fwBootCheck : exec (.fwBootCheck i0 i1) s = match i0, i1 with
    | some i, _ =>
      if (bootCheck s i0 == 1) = true then .next (releaseRegions (takeImage 0 0 i (bootChecked i0 i1 s)))
      else match i1 with
        | some j => if ((if (bootCheck s i0 == 1) = true then 0 else bootCheck s i1) == 1) = true then
            .next (releaseRegions (takeImage 1 0 j (bootChecked i0 i1 s))) else .next (bootChecked i0 i1 s)
        | none => .next (bootChecked i0 i1 s)
    | none, some j => if ((if (bootCheck s i0 == 1) = true then 0 else bootCheck s i1) == 1) = true then
        .next (releaseRegions (takeImage 1 0 j (bootChecked i0 i1 s))) else .next (bootChecked i0 i1 s)
    | none, none => .next (bootChecked i0 i1 s) := by
  change execFwBootCheck i0 i1 s = _
  unfold execFwBootCheck
  refine (if_neg (by simp [stage, auto, blank, scrap])).trans ?_
  cases i0 <;> cases i1 <;> rfl

theorem exec_fwBootCheck_first {i : FwImage} (passes : bootCheck s (some i) = 1) :
    exec (.fwBootCheck (some i) i1) s = .next (releaseRegions (takeImage 0 0 i (bootChecked (some i) i1 s))) :=
  (exec_fwBootCheck stage auto blank scrap).trans (if_pos (beq_iff_eq.2 passes))

theorem exec_fwBootCheck_second {j : FwImage} (fails : bootCheck s i0 ≠ 1) (passes : bootCheck s (some j) = 1) :
    exec (.fwBootCheck i0 (some j)) s = .next (releaseRegions (takeImage 1 0 j (bootChecked i0 (some j) s))) := by
  have second : ((if (bootCheck s i0 == 1) = true then 0 else bootCheck s (some j)) == 1) = true := by simp [fails, passes]
  refine (exec_fwBootCheck stage auto blank scrap).trans ?_
  cases i0 with
  | none => exact if_pos second
  | some i => exact (if_neg (mt beq_iff_eq.1 fails)).trans (if_pos second)

theorem exec_fwBootCheck_none (fails0 : bootCheck s i0 ≠ 1) (fails1 : bootCheck s i1 ≠ 1) :
    exec (.fwBootCheck i0 i1) s = .next (bootChecked i0 i1 s) := by
  have second : ¬ ((if (bootCheck s i0 == 1) = true then 0 else bootCheck s i1) == 1) = true := by simp [fails0, fails1]
  refine (exec_fwBootCheck stage auto blank scrap).trans ?_
  cases i0 with
  | none =>
    cases i1 with
    | none => rfl
    | some j => exact if_neg second
  | some i =>
    refine (if_neg (mt beq_iff_eq.1 fails0)).trans ?_
    cases i1 with
    | none => rfl
    | some j => exact if_neg second

theorem bootChecks (i0 i1 : Option FwImage) :
    ∃ t, exec (.fwBootCheck i0 i1) s = .next t ∧ t.fw.slot0 = i0 ∧ t.fw.slot1 = i1 ∧ t.fw.boot0 = bootCheck s i0 ∧
      (if bootCheck s i0 = 1 ∨ bootCheck s i1 = 1 then
        t.pwr.stage = 9 ∧ t.fw.accepted = true ∧ t.pwr.hxReady = true ∧ t.pwr.released = true ∧
          t.fw.slot = (if bootCheck s i0 = 1 then 0 else 1)
      else t.pwr = s.pwr ∧ t.fw.accepted = s.fw.accepted) := by
  by_cases first : bootCheck s i0 = 1
  · cases i0 with
    | none => cases first
    | some i =>
      obtain ⟨fw, nine, ready, released⟩ := releaseRegions_kept (takeImage 0 0 i (bootChecked (some i) i1 s))
      refine ⟨_, exec_fwBootCheck_first stage auto blank scrap first, ?_⟩
      rw [fw, if_pos (.inl first), if_pos first]
      exact ⟨rfl, rfl, rfl, nine, rfl, ready, released, rfl⟩
  by_cases second : bootCheck s i1 = 1
  · cases i1 with
    | none => cases second
    | some j =>
      obtain ⟨fw, nine, ready, released⟩ := releaseRegions_kept (takeImage 1 0 j (bootChecked i0 (some j) s))
      refine ⟨_, exec_fwBootCheck_second stage auto blank scrap first second, ?_⟩
      rw [fw, if_pos (.inr second), if_neg first]
      exact ⟨rfl, rfl, rfl, nine, rfl, ready, released, rfl⟩
  · refine ⟨_, exec_fwBootCheck_none stage auto blank scrap first second, rfl, rfl, rfl, ?_⟩
    rw [if_neg (not_or.2 ⟨first, second⟩)]
    exact ⟨rfl, rfl⟩

end

theorem exec_fwRecoveryTimeout {s : State} (stage : s.pwr.stage = 6) (none_ : s.fw.accepted = false) (blank : s.sec.lc ≠ 0)
    (scrap : s.sec.lc ≠ 4) (late : s.pwr.lockTick + 800000000 ≤ s.tick) : exec .fwRecoveryTimeout s = .next { s with
      fw := { s.fw with recovery := true }, pwr := { s.pwr with hxReleased := true, hxReady := true } } := by
  have due : s.pwr.lockTick + secT 1 ≤ s.tick := late
  exact if_pos (by simp [stage, none_, blank, scrap, due])

end Sys2Proof.Machine

/-! The start-up test, FW_READY and a missed heartbeat (R131, R133, R135, R587), and the power-on order together. -/
namespace Sys2Proof.Machine

/-! ## The start-up test (R587) -/

/-- A state without its rotations. -/
def offRots (s : State) : State := { s with kiln := { s.kiln with banks := [], buf := {} } }

theorem offRots_setRot (i : Nat) (f : Rot → Rot) (s : State) : offRots (setRot i f s) = offRots s := by
  unfold setRot
  split <;> rfl

theorem offRots_foldl {α : Type} {f : State → α → State} (h : ∀ s a, offRots (f s a) = offRots s) (l : List α) (s : State) :
    offRots (l.foldl f s) = offRots s := by
  induction l generalizing s with
  | nil => rfl
  | cons a l ih => rw [List.foldl_cons, ih, h]

theorem offRots_rotationsReset (s : State) : offRots (rotationsReset s) = offRots { s with kiln := { s.kiln with
    queue := [], core := none, ways := [], asked := [], runs := [] } } :=
  (offRots_foldl (fun s b => by
    split
    · exact offRots_setRot ..
    · rfl) _ _).trans
    (offRots_foldl (f := fun s g => outAgain g s) (fun s g => offRots_setRot ..) _ _)

/-- The start-up test has begun: the stacks are overwritten and the rotations as at the release of region resets. -/
def startUpBegun (s : State) : State := rotationsReset { s with hbm := stacksOverwritten s.kiln.blocks s.hbm }

theorem startUpBegun_kept (s : State) : (startUpBegun s).pwr = s.pwr ∧ (startUpBegun s).kiln.fails = s.kiln.fails ∧
    (startUpBegun s).kiln.holds = s.kiln.holds ∧ (startUpBegun s).hbm = stacksOverwritten s.kiln.blocks s.hbm := by
  have kept := offRots_rotationsReset { s with hbm := stacksOverwritten s.kiln.blocks s.hbm }
  exact ⟨(congrArg State.pwr kept :), (congrArg (fun t : State => t.kiln.fails) kept :), (congrArg (fun t : State => t.kiln.holds) kept :),
    (congrArg State.hbm kept :)⟩

theorem startUpTests {s : State} (stage : s.pwr.stage = 9) (accepted : s.fw.accepted = true) (free : s.kiln.holds = []) :
    ∃ t, exec (.startUpTest []) s = .next t ∧ t.pwr = { s.pwr with stage := 10 } ∧ t.kiln.fails = s.kiln.fails ∧
      t.hbm = stacksOverwritten s.kiln.blocks s.hbm := by
  obtain ⟨pwr, fails, holds, hbm⟩ := startUpBegun_kept s
  have idle : s.kiln.holding = false := by simp [Kiln.holding, free]
  have begun : (startUpBegun s).kiln.holding = false := by simp [Kiln.holding, holds, free]
  refine ⟨{ startUpPasses (497 - (startUpBegun s).kiln.blocks.length - (startUpBegun s).kiln.gone.length) (startUpBegun s) with pwr := { (startUpBegun s).pwr with stage := 10 } },
    ?_, ?_, fails, hbm⟩
  · refine (if_neg (by simp [stage, accepted, idle])).trans (if_neg ?_)
    exact Bool.eq_false_iff.1 begun
  · dsimp only
    rw [pwr]

/-! ## FW_READY (R124, R131, R133) -/

theorem steady_journalReply (i : Nat) (sec : Bool) (s : State) : steady (journalReply i sec s) = steady s := by
  unfold journalReply
  split
  · rfl
  split
  · exact steady_of_core (core_writeReply ..)
  · exact (steady_of_core (core_writeReply ..)).trans (steady_undoExec ..)

theorem steady_pfActive (s : State) : steady (pfActive s) = steady s := steady_foldl (fun _ _ => steady_setFn ..) _ s

/-- What the start of the firmware leaves of the sequencer and the firmware. -/
theorem steady_fwRuns (boot : Bool) (s : State) : steady (fwRuns boot s) =
    ({ s.pwr with stage := 11, safe := false, relock := false }, { s.fw with ready := true }, s.keys) := by
  unfold fwRuns
  dsimp only
  rw [steady_foldl fun s f => (steady_journalReply ..).trans (steady_journalReply ..)]
  split
  · exact steady_pfActive _
  · rfl

theorem steady_readyEvent (s : State) : steady (readyEvent s) = steady s := steady_foldl (fun _ _ => steady_setFn ..) _ s

theorem steady_flushAll (s : State) : steady (flushAll s) = steady s := steady_foldl (fun _ _ => steady_of_core (core_flushEvents ..)) _ s

theorem steady_tripReport (boot : Bool) (s : State) : steady (tripReport boot s) = steady s := by
  unfold tripReport
  split
  · exact steady_of_core (core_postAll ..)
  · rfl

/-- The firmware is ready, and its records have left. -/
def readied (boot : Bool) (s : State) : State := tripReport boot (flushPunts (flushAll (readyEvent (fwRuns boot (svnCommit s)))))

theorem steady_readied (boot : Bool) (s : State) : steady (readied boot s) = steady (fwRuns boot (svnCommit s)) :=
  (steady_tripReport ..).trans ((steady_of_core (core_flushPunts _)).trans ((steady_flushAll _).trans (steady_readyEvent _)))

theorem minSvn_readied (boot : Bool) (s : State) : (readied boot s).sec.minSvn = if s.fw.commit then max s.sec.minSvn s.fw.svn else s.sec.minSvn := by
  refine minSvn_of_frame (p := s.pending) (h := s.hbm) (now := s.time.now) (l := s.sec.lc) (e := s.sets.epoch) ?_
  simp only [readied, tripReport_frame, flushPunts_frame, flushAll_frame, readyEvent_frame, fwRuns_frame, svnCommit_frame]

theorem svnCommit_fw (s : State) : (svnCommit s).fw = { s.fw with commit := false } := by
  unfold svnCommit
  split
  · rfl
  · next kept => rw [← Bool.eq_false_iff.2 kept]

theorem exec_fwReady {s : State} (stage : s.pwr.stage = 10) (accepted : s.fw.accepted = true) (halted : s.fw.ready = false)
    (free : s.kiln.holds = []) : exec .fwReady s = .next (readied true s) := by
  have idle : s.kiln.holding = false := by simp [Kiln.holding, free]
  have boot : (s.pwr.stage == 10) = true := beq_iff_eq.2 stage
  refine (if_neg (by simp [stage, accepted, halted, idle])).trans ?_
  rw [boot]
  rfl

theorem firmwareReadies {s : State} (stage : s.pwr.stage = 10) (accepted : s.fw.accepted = true) (halted : s.fw.ready = false)
    (free : s.kiln.holds = []) :
    ∃ t, exec .fwReady s = .next t ∧ t.fw.ready = true ∧ t.fw.commit = false ∧ t.pwr.stage = 11 ∧ t.pwr.safe = false ∧
      t.sec.minSvn = (if s.fw.commit then max s.sec.minSvn s.fw.svn else s.sec.minSvn) := by
  obtain ⟨pwr, rest⟩ := Prod.mk.inj ((steady_readied true s).trans (steady_fwRuns true (svnCommit s)))
  obtain ⟨fw, -⟩ := Prod.mk.inj rest
  refine ⟨_, exec_fwReady stage accepted halted free, ?_, ?_, ?_, ?_, minSvn_readied true s⟩
  · rw [fw]
  · rw [fw, svnCommit_fw]
  · rw [pwr]
  · rw [pwr]

/-! ## The heartbeat (R135) -/

/-- The firmware has halted. -/
def fwHalted (s : State) : State := { s with fw := { s.fw with ready := false, cause := 2, faults := satAdd 16 s.fw.faults 1 } }

theorem exec_heartbeatTimeout {s : State} (c : Fin 64) (ready : s.fw.ready = true) : exec (.heartbeatTimeout c) s =
    .next (postAll 0x0102 (16 + c.val / 16) (fld 255 250 c.val + fld 249 234 (kilnHalt (fwHalted s)).fw.faults) (kilnHalt (fwHalted s))) :=
  if_pos ready

theorem heartbeatMissed {s : State} (c : Fin 64) (ready : s.fw.ready = true) :
    ∃ t, exec (.heartbeatTimeout c) s = .next t ∧ t.fw = { s.fw with ready := false, cause := 2, faults := min (2 ^ 16 - 1) (s.fw.faults + 1) } ∧
      core { t with fw := s.fw, kiln := s.kiln } = core s := by
  refine ⟨_, exec_heartbeatTimeout c ready, ?_, ?_⟩
  · rw [postAll_fw, kilnHalt_eq]
    rfl
  · have posted := core_postAll 0x0102 (16 + c.val / 16) (fld 255 250 c.val + fld 249 234 (kilnHalt (fwHalted s)).fw.faults) (kilnHalt (fwHalted s))
    refine (congrArg (fun u : State => core { u with fw := s.fw, kiln := s.kiln }) posted :).trans ?_
    rw [kilnHalt_eq]
    rfl

/-! ## The order -/

/-- Settles O26: each row of the order by its own equation. -/
theorem thePowerOnOrderRuns : Obligations.ThePowerOnOrderRuns := by
  unfold Obligations.ThePowerOnOrderRuns
  refine ⟨fun s => ⟨_, rfl, rfl, rfl, rfl, rfl, rfl, rfl, rfl, rfl, rfl, rfl⟩,
    fun s cool low cooled => ⟨_, exec_adpPwrokRise low cooled, rfl, rfl, rfl, rfl, rfl, rfl, rfl⟩, fun _ => exec_adpPwrokRise_hot,
    fun s n stage enabled => ⟨_, exec_pwrPgRise stage enabled, rfl, getLsbD_or_shiftLeft_one _ n.isLt, fun lt => ?_, rfl⟩,
    fun s lo hi => ⟨_, exec_pwrSeqFail lo hi, ?_⟩, fun s stage first => ⟨_, exec_rootPllLock stage first, rootPllLocked s⟩,
    fun s i0 i1 stage auto blank scrap => bootChecks stage auto blank scrap i0 i1, fun _ _ => minSvn_le_of_bootCheck,
    fun _ => exec_fwRecoveryTimeout, fun _ => startUpTests, fun _ => firmwareReadies, fun _ => heartbeatMissed⟩
  · dsimp only
    rw [if_pos lt]
    exact getLsbD_or_shiftLeft_one _ (by omega)
  · rw [seqFailed_pwr, enterSafe_pwr]
    exact ⟨rfl, rfl, rfl, rfl⟩

end Sys2Proof.Machine

/-! The peal bus: what leaves with a frame, and what a visit leaves of the controller (R540, R547 to R549). -/
namespace Sys2Proof.Machine

/-! ## Frames that are sent (R540) -/

/-- What a frame is sent with: what has left the block, the node and the sequence number. -/
def pealPen (s : State) : List Output × Nat × Nat := (s.out, s.peal.node, s.peal.seq)

theorem Grows.setPeal {s t : State} (h : Grows s t) (f : Peal → Peal) : Grows s (setPeal f t) := h.of_out rfl

theorem Grows.sendPeal {s t : State} (h : Grows s t) (type dst : Nat) (pl : List Byte) : Grows s (sendPeal type dst pl t) :=
  (h.emit (.peal (pealFrame t.peal.node t.peal.seq type dst pl))).of_out rfl

theorem sentFirst_of_grows {type dst : Nat} {pl : List Byte} {s u t : State} (pen : pealPen u = pealPen s) (h : Grows (sendPeal type dst pl u) t) :
    sentFirst type dst pl s t := by
  obtain ⟨out, rest⟩ := Prod.mk.inj pen
  obtain ⟨node, seq⟩ := Prod.mk.inj rest
  rw [sentFirst, ← out, ← node, ← seq]
  exact Grows.after_emit (o := .peal (pealFrame u.peal.node u.peal.seq type dst pl)) (Grows.trans (.of_eq rfl) h)

/-! ## The token (R547, R549) -/

/-- The payload of TOKEN. -/
def tokenPayload : Option Nat → List Byte
  | some d => bytesOf 2 (2 ^ 15 + d)
  | none => [0, 0]

/-- TOKEN leaves, and the next start bit is awaited where it goes to another node. -/
theorem sendToken_eq (dst tries after_ : Nat) (drop : Option Nat) (s : State) : ∃ w own,
    sendToken dst tries after_ drop s = setPeal (fun p => { p with watch := w, selfToken := own }) (sendPeal 1 dst (tokenPayload drop) s) ∧
    (dst ≠ s.peal.node → w = some (dst, tries, s.tick + btT (after_ + 140 + 80))) := by
  have body : sendToken dst tries after_ drop s = if (dst == s.peal.node) = true then
      setPeal (fun p => { p with watch := none, selfToken := true }) (sendPeal 1 dst (tokenPayload drop) s)
    else setPeal (fun p => { p with watch := some (dst, tries, s.tick + btT (after_ + 140 + 80)) }) (sendPeal 1 dst (tokenPayload drop) s) := by
    cases drop <;> rfl
  rw [body]
  by_cases own : dst = s.peal.node
  · exact ⟨none, true, if_pos (beq_iff_eq.2 own), fun ne => absurd own ne⟩
  · exact ⟨_, s.peal.selfToken, if_neg (mt beq_iff_eq.1 own), fun _ => rfl⟩

theorem Grows.sendToken {s t : State} (h : Grows s t) (dst tries after_ : Nat) (drop : Option Nat) : Grows s (sendToken dst tries after_ drop t) := by
  obtain ⟨w, own, eq, -⟩ := sendToken_eq dst tries after_ drop t
  rw [eq]
  exact (h.sendPeal ..).setPeal _

theorem Grows.passToken {s t : State} (h : Grows s t) (after_ : Nat) : Grows s (passToken after_ t) := h.sendToken ..

theorem Grows.visitFrame {s t : State} (h : Grows s t) (type dst : Nat) (pl : List Byte) : Grows s (visitFrame type dst pl t) :=
  (h.sendPeal ..).passToken _

theorem sentFirst_sendToken {u s : State} (pen : pealPen u = pealPen s) (dst tries after_ : Nat) (drop : Option Nat) :
    sentFirst 1 dst (tokenPayload drop) s (sendToken dst tries after_ drop u) := by
  obtain ⟨w, own, eq, -⟩ := sendToken_eq dst tries after_ drop u
  rw [eq]
  exact sentFirst_of_grows pen ((Grows.refl _).setPeal _)

/-! ## What frames leave of the controller -/

/-- A controller without what sending frames moves, and without what waits to be sent. -/
def Peal.standing (p : Peal) : Peal :=
  { p with seq := 0, busy := 0, watch := none, selfToken := false, announce := none, cancel := none, armed := none, telem := none, sends := [],
           solicited := none, window := none }

/-- A state's standing controller, and its epoch. -/
def pealHeld (s : State) : Peal × Nat := (s.peal.standing, s.sets.epoch)

theorem pealHeld_sendToken (dst tries after_ : Nat) (drop : Option Nat) (s : State) : pealHeld (sendToken dst tries after_ drop s) = pealHeld s := by
  obtain ⟨w, own, eq, -⟩ := sendToken_eq dst tries after_ drop s
  rw [eq]
  rfl

theorem pealHeld_passToken (after_ : Nat) (s : State) : pealHeld (passToken after_ s) = pealHeld s := pealHeld_sendToken ..

theorem pealHeld_visitFrame (type dst : Nat) (pl : List Byte) (s : State) : pealHeld (visitFrame type dst pl s) = pealHeld s :=
  (pealHeld_passToken ..).trans rfl

section
variable {s t : State} (h : pealHeld t = pealHeld s)
include h

theorem member_of_held : t.peal.member = s.peal.member := (congrArg (fun p => p.1.member) h :)
theorem joining_of_held : t.peal.joining = s.peal.joining := (congrArg (fun p => p.1.joining) h :)
theorem contend_of_held : t.peal.contend = s.peal.contend := (congrArg (fun p => p.1.contend) h :)
theorem map_of_held : t.peal.map = s.peal.map := (congrArg (fun p => p.1.map) h :)
theorem tokenBy_of_held : t.peal.tokenBy = s.peal.tokenBy := (congrArg (fun p => p.1.tokenBy) h :)
theorem tokenAt_of_held : t.peal.tokenAt = s.peal.tokenAt := (congrArg (fun p => p.1.tokenAt) h :)
theorem epoch_of_held : t.sets.epoch = s.sets.epoch := (congrArg Prod.snd h :)

end

/-! TOKEN changes nothing but who is awaited. -/

theorem window_passToken (after_ : Nat) (s : State) : (passToken after_ s).peal.window = s.peal.window := by
  obtain ⟨w, own, eq, -⟩ := sendToken_eq (successor s.peal.map s.peal.node) 1 after_ none s
  rw [passToken, eq]
  rfl

/-! ## A visit (R548) -/

/-- A visit from `s` on has come to `u`, with nothing sent yet, and the controller standing as it did. -/
def comesTo (s u : State) : Prop := pealPen u = pealPen s ∧ pealHeld u = pealHeld s

theorem comesTo_setPeal {s u : State} (h : comesTo s u) {f : Peal → Peal}
    (keeps : ∀ p, (f p).node = p.node ∧ (f p).seq = p.seq ∧ (f p).standing = p.standing) : comesTo s (setPeal f u) := by
  obtain ⟨pen, held⟩ := h
  obtain ⟨node, seq, standing⟩ := keeps u.peal
  refine ⟨Eq.trans ?_ pen, Eq.trans ?_ held⟩
  · change (u.out, (f u.peal).node, (f u.peal).seq) = _
    rw [node, seq, pealPen]
  · change ((f u.peal).standing, u.sets.epoch) = _
    rw [standing, pealHeld]

/-- A visit has ended: a frame has been sent first, and the controller stands as it did. -/
def visits (s t : State) : Prop := (∃ type dst pl, sentFirst type dst pl s t) ∧ pealHeld t = pealHeld s

section
variable {s u : State} (h : comesTo s u)
include h

theorem visits_visitFrame (type dst : Nat) (pl : List Byte) : visits s (visitFrame type dst pl u) :=
  ⟨⟨type, dst, pl, sentFirst_of_grows h.1 ((Grows.refl _).passToken _)⟩, (pealHeld_visitFrame ..).trans h.2⟩

theorem visits_visitTail : visits s (visitTail u) := by
  unfold visitTail
  split
  · exact visits_visitFrame h ..
  split
  · exact visits_visitFrame (comesTo_setPeal h fun _ => ⟨by rfl, by rfl, by rfl⟩) ..
  · exact visits_visitFrame (comesTo_setPeal h fun _ => ⟨by rfl, by rfl, by rfl⟩) ..
  · exact ⟨⟨1, _, _, sentFirst_sendToken h.1 ..⟩, (pealHeld_passToken ..).trans h.2⟩

theorem visits_visitSolicit : visits s (visitSolicit u) := by
  unfold visitSolicit
  split
  · exact ⟨⟨2, bcast, [], sentFirst_of_grows h.1 ((Grows.refl _).setPeal _)⟩, h.2⟩
  · exact visits_visitTail h

end

theorem comesTo_refl (s : State) : comesTo s s := ⟨rfl, rfl⟩

/-- The announcement of a firing is marked as sent. -/
theorem comesTo_setArm (g : Option Arm → Option Arm) (s : State) : comesTo s { s with sets := { s.sets with arm := g s.sets.arm } } := ⟨rfl, rfl⟩

theorem visits_visit {s : State} (stays : s.peal.leave = false) : visits s (visit s) := by
  have here := comesTo_refl s
  unfold visit
  dsimp only
  rw [if_neg (by simp [stays])]
  split
  · exact visits_visitFrame (comesTo_setPeal (comesTo_setArm (Option.map fun a => { a with announced := a.announced || a.initiator }) s) fun _ => ⟨by rfl, by rfl, by rfl⟩) ..
  · exact visits_visitFrame (comesTo_setPeal here fun _ => ⟨by rfl, by rfl, by rfl⟩) ..
  · split
    · exact visits_visitSolicit (comesTo_setPeal here fun _ => ⟨by rfl, by rfl, by rfl⟩)
    · exact visits_visitFrame (comesTo_setPeal here fun _ => ⟨by rfl, by rfl, by rfl⟩) ..
  · exact visits_visitSolicit here

/-- The token is in hand, and its timeout runs (R551, R567). -/
def tokenHeld (rot : Nat) (s : State) : State :=
  setPeal (fun p => { p with tokenBy := some (s.tick + msT p.tokenTo), tokenAt := some s.tick, rotation := rot, selfToken := false }) s

theorem holdToken_eq (s : State) : ∃ rot, holdToken s = visit (tokenHeld rot s) := ⟨_, rfl⟩

theorem tokenHeld_peal (rot : Nat) (s : State) : (tokenHeld rot s).peal.tokenBy = some (s.tick + 800000 * s.peal.tokenTo) ∧
    (tokenHeld rot s).peal.tokenAt = some s.tick ∧ (tokenHeld rot s).peal.member = s.peal.member ∧
    (tokenHeld rot s).peal.leave = s.peal.leave ∧ pealPen (tokenHeld rot s) = pealPen s ∧ (tokenHeld rot s).sets = s.sets :=
  ⟨congrArg (fun n => some (s.tick + n)) (Nat.mul_comm ..), rfl, rfl, rfl, rfl, rfl⟩

theorem sentFirst_congr {type dst : Nat} {pl : List Byte} {s u t : State} (pen : pealPen u = pealPen s) (h : sentFirst type dst pl u t) :
    sentFirst type dst pl s t := by
  obtain ⟨out, rest⟩ := Prod.mk.inj pen
  obtain ⟨node, seq⟩ := Prod.mk.inj rest
  rw [sentFirst, ← out, ← node, ← seq]
  exact h

/-- The token is received by a member that stays (R548, R551). -/
theorem holdToken_stays {s : State} (stays : s.peal.leave = false) : ∃ type dst pl, sentFirst type dst pl s (holdToken s) ∧
    (holdToken s).peal.tokenBy = some (s.tick + 800000 * s.peal.tokenTo) ∧ (holdToken s).peal.tokenAt = some s.tick ∧
    (holdToken s).peal.member = s.peal.member ∧ (holdToken s).sets.epoch = s.sets.epoch := by
  obtain ⟨rot, eq⟩ := holdToken_eq s
  obtain ⟨by_, at_, member, leave, pen, sets⟩ := tokenHeld_peal rot s
  obtain ⟨⟨type, dst, pl, sent⟩, held⟩ := visits_visit (leave.trans stays)
  rw [eq, ← by_, ← at_, ← member, ← sets]
  exact ⟨type, dst, pl, sentFirst_congr pen sent, tokenBy_of_held held, tokenAt_of_held held, member_of_held held, epoch_of_held held⟩

/-- The token is received by a member that leaves (R548, R556). -/
theorem holdToken_leaves {s : State} (leaves : s.peal.leave = true) : sentFirst 6 0x8000 [] s (holdToken s) ∧
    (holdToken s).peal.member = false ∧ (holdToken s).peal.enabled = false ∧ (holdToken s).peal.leave = false := by
  obtain ⟨rot, eq⟩ := holdToken_eq s
  obtain ⟨-, -, -, leave, pen, -⟩ := tokenHeld_peal rot s
  have gone : visit (tokenHeld rot s) = pealStop (passToken (frameBt 0) (sendPeal 6 bcast [] (tokenHeld rot s))) := if_pos (leave.trans leaves)
  rw [eq, gone]
  exact ⟨sentFirst_of_grows pen (((Grows.refl _).passToken _).setPeal _), rfl, rfl, rfl⟩

end Sys2Proof.Machine

/-! The peal bus: frames that arrive (R540 to R543, R546 to R549, R552 to R554, R558). -/
namespace Sys2Proof.Machine

/-! ## What a frame does to the map (R547) -/

theorem mem_mapSet {n k : Nat} {m : List Nat} : n ∈ mapSet k m ↔ n = k ∨ n ∈ m := by
  unfold mapSet
  split
  · next has => exact ⟨.inr, fun h => h.elim (fun e => e ▸ List.contains_iff_mem.1 has) id⟩
  · exact List.mem_cons

theorem mem_mapClear {n k : Nat} {m : List Nat} : n ∈ mapClear k m ↔ n ≠ k ∧ n ∈ m := by simp [mapClear, and_comm]

/-! ## A frame is discarded, stops the node, or is observed (R540 to R543) -/

theorem restartContend_eq (s : State) : ∃ c d, restartContend s = { s with peal := { s.peal with contend := c }, draws := d } := by
  unfold restartContend
  split
  · exact ⟨s.peal.contend, s.draws, rfl⟩
  · exact ⟨_, _, rfl⟩

/-- The controller once it has observed a valid frame of another node. -/
def observedPeal (type : Nat) (b : List Byte) (c : Option Contend) (s : State) : Peal :=
  { s.peal with
    busy := s.tick, watch := none, lastRx := s.tick, map := mapFrame type b s.peal.map
    recovering := s.peal.recovering && !(type == 1 || type == 5), lastHolder := if type == 1 then fSrc b else s.peal.lastHolder, contend := c }

/-- A valid frame of another node has been observed; `c`, `d` and `m` are the contender that waits again, the free values used, and the counts. -/
def observed (type : Nat) (b : List Byte) (c : Option Contend) (d : Nat) (m : Tm) (s : State) : State :=
  { s with peal := observedPeal type b c s, draws := d, tm := m }

/-- A valid frame has been observed, but a contender does not yet wait again. -/
def observing (type : Nat) (b : List Byte) (s : State) : State :=
  let c := if (type == 1 || type == 5) && (s.peal.contend.map (·.type)) == some 5 then none else s.peal.contend
  pealCnt 1 { s with peal := observedPeal type b c s }

theorem restartContend_observing (type : Nat) (b : List Byte) (s : State) : ∃ c d m,
    restartContend (observing type b s) = observed type b c d m s := by
  obtain ⟨c, d, eq⟩ := restartContend_eq (observing type b s)
  exact ⟨c, d, (pealCnt 1 s).tm, eq⟩

/-- A frame is for this node, or for every node. -/
def addressed (b : List Byte) (s : State) : Bool := fDst b / 2 ^ 15 == 1 || fDst b == s.peal.node

theorem addressed_iff {b : List Byte} {s : State} : addressed b s = true ↔ forUs b s := by simp [addressed, forUs]

section
variable {type : Nat} {b : List Byte} {s : State} (act : State → State)

theorem pealRx_disabled (bad : Bool) (off : s.peal.enabled = false) : pealRx type b bad act s = s := if_pos (by simp [off])

theorem pealRx_discarded {bad : Bool} (on : s.peal.enabled = true) (discarded : bad = true ∨ frameValid type b = false) :
    pealRx type b bad act s = pealCnt 2 (restartContend (setPeal (fun p => { p with busy := s.tick, watch := none }) s)) := by
  refine (if_neg (by simp [on])).trans (if_pos ?_)
  rcases discarded with bad | invalid
  · simp [bad]
  · simp [invalid]

theorem pealRx_duplicate (on : s.peal.enabled = true) (valid : frameValid type b = true) (own : fSrc b = s.peal.node)
    (foreign : ¬ (type = 1 ∧ s.peal.selfToken = true ∧ fDst b = s.peal.node)) :
    pealRx type b false act s = duplicateId (setPeal (fun p => { p with busy := s.tick, watch := none }) s) := by
  refine (if_neg (by simp [on])).trans ((if_neg (by simp [valid])).trans (if_pos ?_))
  simpa [setPeal, own, imp_iff_not_or, or_assoc] using foreign

theorem pealRx_observed (h : hears type b s) : ∃ c d m, pealRx type b false act s =
    if addressed b s = true then act (observed type b c d m s) else observed type b c d m s := by
  obtain ⟨on, valid, other⟩ := h
  have stop : ((type == 1 || type == 5) && fSrc b != (setPeal (fun p => { p with busy := s.tick, watch := none }) s).peal.node) =
      (type == 1 || type == 5) := by simp [setPeal, other]
  unfold pealRx
  rw [if_neg (by simp [on])]
  dsimp only
  rw [if_neg (by simp [valid]), if_neg (by simp [setPeal, other]), stop]
  change ∃ c d m, (if (fDst b / 2 ^ 15 == 1 || fDst b == (restartContend (observing type b s)).peal.node) = true then
    act (restartContend (observing type b s)) else restartContend (observing type b s)) = _
  obtain ⟨c, d, m, eq⟩ := restartContend_observing type b s
  refine ⟨c, d, m, ?_⟩
  rw [eq]
  rfl

/-- A frame for this node or for every node is observed, and acted on. -/
theorem pealRx_acts (h : hears type b s) (us : forUs b s) : ∃ c d m, pealRx type b false act s = act (observed type b c d m s) := by
  obtain ⟨c, d, m, eq⟩ := pealRx_observed act h
  exact ⟨c, d, m, eq.trans (if_pos (addressed_iff.2 us))⟩

/-- A frame that asks nothing of a node that observes it. -/
theorem pealRx_observes (h : hears type b s) (quiet : ∀ c d m, forUs b s → act (observed type b c d m s) = observed type b c d m s) :
    ∃ c d m, pealRx type b false act s = observed type b c d m s := by
  obtain ⟨c, d, m, eq⟩ := pealRx_observed act h
  refine ⟨c, d, m, eq.trans ?_⟩
  split
  · next us => exact quiet c d m (addressed_iff.1 us)
  · rfl

end

theorem discarded_kept (s : State) :
    let t := pealCnt 2 (restartContend (setPeal (fun p => { p with busy := s.tick, watch := none }) s))
    t.peal.map = s.peal.map ∧ t.peal.member = s.peal.member ∧ t.peal.joining = s.peal.joining ∧ t.sets = s.sets ∧
      t.time = s.time ∧ t.out = s.out ∧ t.peal.log = s.peal.log ∧
      (t.tm.blocks.get (0xFA00 * 2 ^ 20 + 2)).pk = ((s.tm.blocks.get (0xFA00 * 2 ^ 20 + 2)).pk + 1) % 2 ^ 64 := by
  obtain ⟨c, d, eq⟩ := restartContend_eq (setPeal (fun p => { p with busy := s.tick, watch := none }) s)
  dsimp only
  rw [eq]
  refine ⟨rfl, rfl, rfl, rfl, rfl, rfl, rfl, ?_⟩
  change ((s.tm.blocks.upd (0xFA00 * 2 ^ 20 + 2) fun c => c.count 0).get (0xFA00 * 2 ^ 20 + 2)).pk = _
  rw [SMap.get_upd_same]
  rfl

/-! ## The rows of frames -/

/-- An operator type or ALERT is logged and reported (R558, R569). -/
def alertAct (type : Nat) (b : List Byte) (s : State) : State :=
  postAll 0x0C03 23 (fld 255 247 (fSrc b) + fld 246 239 type + fld 238 233 (fLen b) + fld 232 227 s.peal.logNext
    + fld 223 128 (ofBytesBE ((fPay b ++ List.replicate 12 0).take 12))) (logFrame type b s)

/-- The types that have rows of their own. -/
def rowTypes : List Nat := [1, 2, 3, 4, 5, 6, 0x10, 0x11, 0x12, 0x20, 0x22]

theorem toNat_type {type : Nat} (lt : type < 256) : (BitVec.ofNat 8 type).toNat = type := by
  rw [BitVec.toNat_ofNat]
  exact Nat.mod_eq_of_lt lt

theorem exec_alert_eq {type : Nat} (lt : type < 256) (b : List Byte) (bad : Bool) (s : State) :
    exec (.alert (BitVec.ofNat 8 type :: b) bad) s = if rowTypes.contains type = true then .next s
      else .next (pealRx type b (bad || (decide (type < 0x80) && type != 0x21)) (alertAct type b) s) := by
  have head : ((BitVec.ofNat 8 type :: b).headD 0).toNat = type := toNat_type lt
  change execAlert (BitVec.ofNat 8 type :: b) bad s = _
  unfold execAlert
  dsimp only
  rw [head]
  rfl

theorem exec_alert_row {type : Nat} (row : rowTypes.contains type = true) (b : List Byte) (bad : Bool) (s : State) :
    exec (.alert (BitVec.ofNat 8 type :: b) bad) s = .next s := by
  have lt : type < 256 := by
    have small : ∀ t ∈ rowTypes, t < 256 := by decide
    exact small type (List.contains_iff_mem.1 row)
  exact (exec_alert_eq lt b bad s).trans (if_pos row)

theorem exec_alert {type : Nat} (lt : type < 256) (other : rowTypes.contains type = false) (b : List Byte) (bad : Bool) (s : State) :
    exec (.alert (BitVec.ofNat 8 type :: b) bad) s =
      .next (pealRx type b (bad || (decide (type < 0x80) && type != 0x21)) (alertAct type b) s) :=
  (exec_alert_eq lt b bad s).trans (if_neg (by rw [other]; decide))

/-- A type that no row and no operator has (R541). -/
def reservedType (type : Nat) : Bool := decide (type < 0x80) && type != 0x21 && !rowTypes.contains type

/-- Every row of a frame hands it to the controller. -/
theorem exec_of_frameRow {ty : Nat} {b : List Byte} {bad : Bool} {i : Instr} (row : frameRow ty b bad i) (s : State) :
    ∃ act, exec i s = .next (pealRx ty b (bad || reservedType ty) act s) := by
  have plain {n : Nat} (row : reservedType n = false) : (bad || reservedType n) = bad := by rw [row, Bool.or_false]
  rcases row with ⟨rfl, rfl⟩ | ⟨rfl, rfl⟩ | ⟨rfl, rfl⟩ | ⟨rfl, rfl⟩ | ⟨rfl, rfl⟩ | ⟨rfl, rfl⟩ | ⟨rfl, rfl⟩ | ⟨rfl, rfl⟩ | ⟨rfl, rfl⟩ |
    ⟨rfl, rfl⟩ | ⟨rfl, rfl⟩ | ⟨other, lt, rfl⟩
  case inr.inr.inr.inr.inr.inr.inr.inr.inr.inr.inr =>
    refine ⟨alertAct ty b, (exec_alert lt other b bad s).trans ?_⟩
    rw [reservedType, show rowTypes.contains ty = false from other, Bool.not_false, Bool.and_true]
  all_goals
    rw [plain (by decide)]
    exact ⟨_, rfl⟩

/-- The rows by the types that they receive. -/
theorem reservedType_eq_true {ty : Nat} (low : ty < 0x80) (len : lenOf ty = (0, 0)) (two : ty ≠ 2) (three : ty ≠ 3) (five : ty ≠ 5) (six : ty ≠ 6) :
    reservedType ty = true := by
  have alert : ty ≠ 0x21 := by
    rintro rfl
    cases len
  have row : ty ∉ rowTypes := by
    intro mem
    have long : ∀ t ∈ rowTypes, t = 2 ∨ t = 3 ∨ t = 5 ∨ t = 6 ∨ lenOf t ≠ (0, 0) := by decide
    rcases long ty mem with e | e | e | e | ne
    · exact two e
    · exact three e
    · exact five e
    · exact six e
    · exact ne len
  simp [reservedType, low, alert, row]

theorem reservedType_eq_false {ty : Nat} (named : ty < 7 ∨ 0x10 ≤ ty ∧ ty ≤ 0x12 ∨ 0x20 ≤ ty ∧ ty ≤ 0x22 ∨ 0x80 ≤ ty) (some_ : ty ≠ 0) :
    reservedType ty = false := by
  by_cases high : 0x80 ≤ ty
  · simp [reservedType, Nat.not_lt.2 high]
  · have known : ty = 0x21 ∨ ty ∈ rowTypes := by
      simp only [rowTypes, List.mem_cons, List.not_mem_nil, or_false]
      omega
    rcases known with e | mem
    · simp [reservedType, e]
    · simp [reservedType, mem]

end Sys2Proof.Machine

/-! The peal bus: what the frames of each type do (R546 to R549, R552 to R554, R558, R383). -/
namespace Sys2Proof.Machine

theorem bit15_of_small {n : Nat} (small : n < 2 ^ 15) : bits 15 15 n = 0 := by
  unfold bits
  rw [Nat.shiftRight_eq_div_pow]
  omega

/-! ## Frames that any node hears -/

theorem frameDiscarded {s : State} {b : List Byte} {bad : Bool} {i : Instr} {ty : Nat} (on : s.peal.enabled = true) (row : frameRow ty b bad i)
    (discarded : bad = true ∨ frameValid ty b = false ∨ (ty < 0x80 ∧ lenOf ty = (0, 0) ∧ ty ≠ 2 ∧ ty ≠ 3 ∧ ty ≠ 5 ∧ ty ≠ 6)) :
    ∃ t, exec i s = .next t ∧ t.peal.map = s.peal.map ∧ t.peal.member = s.peal.member ∧ t.peal.joining = s.peal.joining ∧ t.sets = s.sets ∧
      t.time = s.time ∧ t.out = s.out ∧ t.peal.log = s.peal.log ∧
      (t.tm.blocks.get (0xFA00 * 2 ^ 20 + 2)).pk = ((s.tm.blocks.get (0xFA00 * 2 ^ 20 + 2)).pk + 1) % 2 ^ 64 := by
  obtain ⟨act, runs⟩ := exec_of_frameRow row s
  have thrown : (bad || reservedType ty) = true ∨ frameValid ty b = false := by
    rcases discarded with bad | invalid | ⟨low, len, two, three, five, six⟩
    · exact .inl (by rw [bad, Bool.true_or])
    · exact .inr invalid
    · exact .inl (by rw [reservedType_eq_true low len two three five six, Bool.or_true])
  exact ⟨_, runs.trans (congrArg Host.Outcome.next (pealRx_discarded act on thrown)), discarded_kept s⟩

section
variable {s : State} {b : List Byte} {i : Instr} {ty : Nat} (on : s.peal.enabled = true) (row : frameRow ty b false i)
  (valid : frameValid ty b = true) (named : ty < 7 ∨ 0x10 ≤ ty ∧ ty ≤ 0x12 ∨ 0x20 ≤ ty ∧ ty ≤ 0x22 ∨ 0x80 ≤ ty) (some_ : ty ≠ 0)
include on row valid named some_

theorem frameOwn (own : fSrc b = s.peal.node) (foreign : ¬ (ty = 1 ∧ s.peal.selfToken = true ∧ fDst b = s.peal.node)) :
    ∃ t, exec i s = .next t ∧ t.peal.dupId = true ∧ t.peal.enabled = false ∧ t.peal.member = false ∧ t.peal.joining = false ∧ t.sets = s.sets ∧
      t.time = s.time ∧ t.out = s.out := by
  obtain ⟨act, runs⟩ := exec_of_frameRow row s
  rw [reservedType_eq_false named some_, Bool.or_false, pealRx_duplicate act on valid own foreign] at runs
  exact ⟨_, runs, rfl, rfl, rfl, rfl, rfl, rfl, rfl⟩

theorem frameAside (other : fSrc b ≠ s.peal.node) (aside : ¬ forUs b s) :
    ∃ t, exec i s = .next t ∧ t.peal.member = s.peal.member ∧ t.peal.joining = s.peal.joining ∧
      t.peal.log = s.peal.log ∧ t.sets = s.sets ∧ t.time = s.time ∧ t.out = s.out := by
  obtain ⟨act, runs⟩ := exec_of_frameRow row s
  obtain ⟨c, d, m, heard⟩ := pealRx_observed act ⟨on, valid, other⟩
  rw [reservedType_eq_false named some_, Bool.or_false, heard, if_neg (mt addressed_iff.1 aside)] at runs
  exact ⟨_, runs, rfl, rfl, rfl, rfl, rfl, rfl⟩

end

section
variable {s : State} {b : List Byte}

/-! ## TOKEN (R547, R548) -/

/-- What TOKEN asks of a node. -/
def tokenAct (b : List Byte) (s : State) : State := if s.peal.member && fDst b == s.peal.node then holdToken s else s

theorem exec_token (bad : Bool) : exec (.token b bad) s = .next (pealRx 1 b bad (tokenAct b) s) := rfl

theorem tokenAct_holds {u : State} (member : u.peal.member = true) (dst : fDst b = u.peal.node) : tokenAct b u = holdToken u :=
  if_pos (by simp [member, dst])

theorem pealPen_observed (type : Nat) (c : Option Contend) (d : Nat) (m : Tm) : pealPen (observed type b c d m s) = pealPen s := rfl

theorem tokenReceived (h : hears 1 b s) (dst : fDst b = s.peal.node) (member : s.peal.member = true) : ∃ c d m,
    exec (.token b false) s = .next (holdToken (observed 1 b c d m s)) := by
  obtain ⟨c, d, m, heard⟩ := pealRx_acts (tokenAct b) h (.inr dst)
  exact ⟨c, d, m, congrArg Host.Outcome.next (heard.trans (tokenAct_holds member dst))⟩

theorem tokenStays (h : hears 1 b s) (dst : fDst b = s.peal.node) (member : s.peal.member = true) (stays : s.peal.leave = false) :
    ∃ t ty dst pl, exec (.token b false) s = .next t ∧ sentFirst ty dst pl s t ∧ t.peal.tokenBy = some (s.tick + 800000 * s.peal.tokenTo) ∧
        t.peal.tokenAt = some s.tick ∧ t.peal.member = true ∧ t.sets.epoch = s.sets.epoch := by
  obtain ⟨c, d, m, runs⟩ := tokenReceived h dst member
  obtain ⟨ty, to_, pl, sent, by_, at_, stays', epoch⟩ := holdToken_stays (s := observed 1 b c d m s) stays
  exact ⟨_, ty, to_, pl, runs, sentFirst_congr (pealPen_observed 1 c d m) sent, by_, at_, stays'.trans member, epoch⟩

theorem tokenLeaves (h : hears 1 b s) (dst : fDst b = s.peal.node) (member : s.peal.member = true) (leaves : s.peal.leave = true) :
    ∃ t, exec (.token b false) s = .next t ∧ sentFirst 6 0x8000 [] s t ∧ t.peal.member = false ∧ t.peal.enabled = false ∧ t.peal.leave = false := by
  obtain ⟨c, d, m, runs⟩ := tokenReceived h dst member
  obtain ⟨sent, gone, off, done_⟩ := holdToken_leaves (s := observed 1 b c d m s) leaves
  exact ⟨_, runs, sentFirst_congr (pealPen_observed 1 c d m) sent, gone, off, done_⟩

theorem mem_mapFrame_token {m : List Nat} {n : Nat} :
    (rd b 6 2 < 2 ^ 15 → (n ∈ mapFrame 1 b m ↔ n = fSrc b ∨ n ∈ m)) ∧
    (bits 15 15 (rd b 6 2) = 1 → (n ∈ mapFrame 1 b m ↔ n ≠ bits 8 0 (rd b 6 2) ∧ (n = fSrc b ∨ n ∈ m))) := by
  have body : mapFrame 1 b m = if (bits 15 15 (rd b 6 2) == 1) = true then mapClear (bits 8 0 (rd b 6 2)) (mapSet (fSrc b) m)
    else mapSet (fSrc b) m := rfl
  refine ⟨fun small => ?_, fun drop => ?_⟩
  · rw [body, bit15_of_small small, if_neg (by decide), mem_mapSet]
  · rw [body, drop, if_pos (by decide), mem_mapClear, mem_mapSet]

theorem tokenPasses (h : hears 1 b s) (aside : fDst b ≠ s.peal.node ∨ s.peal.member = false) :
    ∃ t, exec (.token b false) s = .next t ∧ t.peal.lastHolder = fSrc b ∧ t.peal.member = s.peal.member ∧
      t.out = s.out ∧ t.peal.tokenBy = s.peal.tokenBy ∧
      (rd b 6 2 < 2 ^ 15 → ∀ n, n ∈ t.peal.map ↔ n = fSrc b ∨ n ∈ s.peal.map) ∧
      (bits 15 15 (rd b 6 2) = 1 → ∀ n, n ∈ t.peal.map ↔ n ≠ bits 8 0 (rd b 6 2) ∧ (n = fSrc b ∨ n ∈ s.peal.map)) := by
  obtain ⟨c, d, m, heard⟩ := pealRx_observes (tokenAct b) h fun c d m _ => if_neg (by
    change ¬ (s.peal.member && fDst b == s.peal.node) = true
    rcases aside with ne | off
    · simp [ne]
    · simp [off])
  exact ⟨_, (exec_token false).trans (congrArg Host.Outcome.next heard), rfl, rfl, rfl, rfl, fun small _ => mem_mapFrame_token.1 small,
    fun drop _ => mem_mapFrame_token.2 drop⟩

/-! ## SOLICIT and JOIN_REQ (R552, R553) -/

theorem contendAt_ge (attempt : Nat) (s : State) : s.tick + 32000 ≤ contendAt attempt s := by
  unfold contendAt btT
  generalize drawn 10 s % 2 ^ min attempt 10 = k
  omega

def solicitAct (b : List Byte) (s : State) : State := if s.peal.joining then startContend 3 (fSrc b) (some (s.tick + msT 1)) s else s

theorem solicited (h : hears 2 b s) (us : forUs b s) (joins : s.peal.joining = true) :
    ∃ t c, exec (.solicit b false) s = .next t ∧ t.peal.contend = some c ∧ c.type = 3 ∧ c.dst = fSrc b ∧
    c.attempt = 1 ∧ s.tick + 32000 ≤ c.from_ ∧ c.until_ = some (s.tick + 800000) ∧ t.out = s.out := by
  obtain ⟨c, d, m, heard⟩ := pealRx_acts (solicitAct b) h us
  have begins : solicitAct b (observed 2 b c d m s) = startContend 3 (fSrc b) (some (s.tick + msT 1)) (observed 2 b c d m s) := if_pos joins
  exact ⟨_, _, congrArg Host.Outcome.next (heard.trans begins), rfl, rfl, rfl, rfl, contendAt_ge 1 (observed 2 b c d m s), rfl, rfl⟩

theorem solicitIdle (h : hears 2 b s) (idle : s.peal.joining = false) :
    ∃ t, exec (.solicit b false) s = .next t ∧ t.peal.map = s.peal.map ∧ t.peal.joining = false ∧ t.out = s.out := by
  obtain ⟨c, d, m, heard⟩ := pealRx_observes (solicitAct b) h fun _ _ _ _ => if_neg (Bool.eq_false_iff.1 idle)
  exact ⟨_, congrArg Host.Outcome.next heard, rfl, idle, rfl⟩

/-- The node that solicited admits a node: the window is over, and the node is in the map. -/
def admits (n : Nat) (s : State) : State := setPeal (fun p => { p with window := none, map := mapSet n p.map }) s

def joinReqAct (b : List Byte) (s : State) : State :=
  match s.peal.window with
  | none => s
  | some d => if d < s.tick then s else passToken (frameBt 2) (sendPeal 4 bcast (bytesOf 2 (fSrc b)) (admits (fSrc b) s))

theorem exec_joinReq (bad : Bool) : exec (.joinReq b bad) s = .next (pealRx 3 b bad (joinReqAct b) s) := by rfl

theorem joinReqIdle (h : hears 3 b s) (over_ : ∀ d, s.peal.window = some d → d < s.tick) :
    ∃ t, exec (.joinReq b false) s = .next t ∧ t.peal.map = s.peal.map ∧ t.peal.window = s.peal.window ∧ t.out = s.out := by
  obtain ⟨c, d, m, heard⟩ := pealRx_observes (joinReqAct b) h fun c d m _ => by
    unfold joinReqAct
    split
    · rfl
    · next by_ open_ => exact if_pos (over_ by_ open_)
  exact ⟨_, (exec_joinReq false).trans (congrArg Host.Outcome.next heard), rfl, rfl, rfl⟩

theorem joinReqAct_open {u : State} {d : Nat} (open_ : u.peal.window = some d) (early : u.tick ≤ d) :
    joinReqAct b u = passToken (frameBt 2) (sendPeal 4 bcast (bytesOf 2 (fSrc b)) (admits (fSrc b) u)) := by
  unfold joinReqAct
  rw [open_]
  exact if_neg (Nat.not_lt.2 early)

theorem joinReqAdmits {d : Nat} (h : hears 3 b s) (us : forUs b s) (open_ : s.peal.window = some d) (early : s.tick ≤ d) :
    ∃ t, exec (.joinReq b false) s = .next t ∧ sentFirst 4 bcast (bytesOf 2 (fSrc b)) s t ∧ t.peal.window = none ∧ fSrc b ∈ t.peal.map := by
  obtain ⟨c, e, m, heard⟩ := pealRx_acts (joinReqAct b) h us
  have answers := joinReqAct_open (b := b) (u := observed 3 b c e m s) open_ early
  refine ⟨_, (exec_joinReq false).trans (congrArg Host.Outcome.next (heard.trans answers)), ?_, ?_, ?_⟩
  · exact sentFirst_of_grows (u := admits (fSrc b) (observed 3 b c e m s)) rfl ((Grows.refl _).passToken _)
  · exact (window_passToken ..).trans rfl
  · rw [map_of_held (pealHeld_passToken ..)]
    exact mem_mapSet.2 (.inl rfl)

/-! ## JOIN_ACK, CLAIM and LEAVE (R547, R553, R554) -/

/-- A contender with JOIN_REQ gives up when another node is admitted. -/
def gaveUp (s : State) : State :=
  setPeal (fun p => { p with contend := if (p.contend.map (·.type)) == some 3 then none else p.contend }) s

def joinAckAct (b : List Byte) (s : State) : State :=
  if !s.peal.joining then s else if bits 8 0 (rd b 6 2) == s.peal.node then becomeMember false s else gaveUp s

theorem exec_joinAck (bad : Bool) : exec (.joinAck b bad) s = .next (pealRx 4 b bad (joinAckAct b) s) := rfl

/-- What becoming a member leaves. -/
theorem becomeMember_peal (claim : Bool) (s : State) : (becomeMember claim s).peal = { s.peal with
    member := true, joining := false, recovering := false, contend := none, map := mapSet s.peal.node s.peal.map
    tokenBy := some (s.tick + msT s.peal.tokenTo) } := by
  have posted (u : State) : (postJoined claim u).peal = u.peal := postAll_peal ..
  exact posted _

theorem joinAckIdle (h : hears 4 b s) (idle : s.peal.joining = false) :
    ∃ t, exec (.joinAck b false) s = .next t ∧ t.peal.member = s.peal.member ∧ t.peal.joining = false ∧
    bits 8 0 (rd b 6 2) ∈ t.peal.map ∧ t.out = s.out := by
  obtain ⟨c, d, m, heard⟩ := pealRx_observes (joinAckAct b) h fun _ _ _ _ => if_pos (by change (!s.peal.joining) = true; rw [idle]; rfl)
  exact ⟨_, (exec_joinAck false).trans (congrArg Host.Outcome.next heard), rfl, idle, mem_mapSet.2 (.inl rfl), rfl⟩

theorem joinAckJoins (h : hears 4 b s) (joins : s.peal.joining = true) (ours : bits 8 0 (rd b 6 2) = s.peal.node) (us : forUs b s) :
    ∃ t, exec (.joinAck b false) s = .next t ∧ t.peal.member = true ∧ t.peal.joining = false ∧ s.peal.node ∈ t.peal.map ∧ t.peal.contend = none := by
  obtain ⟨c, d, m, heard⟩ := pealRx_acts (joinAckAct b) h us
  have member : joinAckAct b (observed 4 b c d m s) = becomeMember false (observed 4 b c d m s) := by
    refine (if_neg ?_).trans (if_pos (beq_iff_eq.2 ours))
    change ¬ (!s.peal.joining) = true
    rw [joins]
    decide
  refine ⟨_, (exec_joinAck false).trans (congrArg Host.Outcome.next (heard.trans member)), ?_⟩
  rw [becomeMember_peal]
  exact ⟨rfl, rfl, mem_mapSet.2 (.inl rfl), rfl⟩

theorem joinAckOther (h : hears 4 b s) (joins : s.peal.joining = true) (other : bits 8 0 (rd b 6 2) ≠ s.peal.node) :
    ∃ t, exec (.joinAck b false) s = .next t ∧ t.peal.member = s.peal.member ∧ t.peal.joining = true ∧ bits 8 0 (rd b 6 2) ∈ t.peal.map := by
  obtain ⟨c, d, m, heard⟩ := pealRx_observed (joinAckAct b) h
  have gives : joinAckAct b (observed 4 b c d m s) = gaveUp (observed 4 b c d m s) := by
    refine (if_neg ?_).trans (if_neg (mt beq_iff_eq.1 other))
    change ¬ (!s.peal.joining) = true
    rw [joins]
    decide
  have runs := (exec_joinAck (b := b) (s := s) false).trans (congrArg Host.Outcome.next heard)
  rw [gives] at runs
  by_cases us : addressed b s = true
  · rw [if_pos us] at runs
    exact ⟨_, runs, rfl, joins, mem_mapSet.2 (.inl rfl)⟩
  · rw [if_neg us] at runs
    exact ⟨_, runs, rfl, joins, mem_mapSet.2 (.inl rfl)⟩

theorem claimed (h : hears 5 b s) : ∃ t, exec (.claim b false) s = .next t ∧ fSrc b ∈ t.peal.map ∧ t.peal.recovering = false ∧
    t.peal.member = s.peal.member ∧ t.out = s.out := by
  obtain ⟨c, d, m, heard⟩ := pealRx_observes (fun s => s) h fun _ _ _ _ => rfl
  exact ⟨_, congrArg Host.Outcome.next heard, mem_mapSet.2 (.inl rfl), Bool.and_false _, rfl, rfl⟩

theorem left (h : hears 6 b s) : ∃ t, exec (.leave b false) s = .next t ∧ fSrc b ∉ t.peal.map ∧ t.peal.member = s.peal.member ∧ t.out = s.out := by
  obtain ⟨c, d, m, heard⟩ := pealRx_observes (fun s => s) h fun _ _ _ _ => rfl
  exact ⟨_, congrArg Host.Outcome.next heard, fun mem => (mem_mapClear.1 mem).1 rfl, rfl, rfl⟩

/-! ## TIME (R383, R559) -/

/-- The offset from the time source (R383). -/
def pealOffset (b : List Byte) (s : State) : Int :=
  DevTime.diff s.time.now ((DevTime.ofFull (rd b 6 16)).add ((s.time.pealDelay.toNat * 2 ^ 24 : Nat) : Int))

/-- The register that holds it. -/
def pealOfs (b : List Byte) (s : State) : BitVec 64 := BitVec.ofNat 64 (ofSigned 64 (satSigned 64 (pealOffset b s)))

/-- An offset from the time source is recorded. -/
def timeTaken (ofs : BitVec 64) (b : List Byte) (s : State) : State :=
  { s with time := { s.time with pealOfs := ofs, pealValid := true, pealSrc := BitVec.ofNat 9 (fSrc b), pealAt := s.tick } }

theorem timeTaken_time (ofs : BitVec 64) (b : List Byte) (s : State) : (timeTaken ofs b s).time.pealValid = true ∧
    (timeTaken ofs b s).time.pealSrc = BitVec.ofNat 9 (fSrc b) ∧ (timeTaken ofs b s).time.pealAt = s.tick ∧
    (timeTaken ofs b s).time.now = s.time.now ∧ (timeTaken ofs b s).time.pealOfs = ofs := ⟨rfl, rfl, rfl, rfl, rfl⟩

theorem pealOfs_observed (type : Nat) (c : Option Contend) (d : Nat) (m : Tm) : pealOfs b (observed type b c d m s) = pealOfs b s := by
  have offset : pealOffset b (observed type b c d m s) = pealOffset b s := rfl
  rw [pealOfs, offset, pealOfs]

def timeAct (b : List Byte) (s : State) : State := if s.peal.timeSrcEn && fSrc b == s.peal.timeSrc then timeTaken (pealOfs b s) b s else s

theorem exec_time (bad : Bool) : exec (.time b bad) s = .next (pealRx 0x20 b bad (timeAct b) s) := rfl

theorem timeIdle (h : hears 0x20 b s) (idle : s.peal.timeSrcEn = false ∨ fSrc b ≠ s.peal.timeSrc) :
    ∃ t, exec (.time b false) s = .next t ∧ t.time = s.time ∧ t.peal.map = s.peal.map ∧ t.out = s.out := by
  obtain ⟨c, d, m, heard⟩ := pealRx_observes (timeAct b) h fun _ _ _ _ => if_neg (by
    change ¬ (s.peal.timeSrcEn && fSrc b == s.peal.timeSrc) = true
    rcases idle with off | ne
    · simp [off]
    · simp [ne])
  exact ⟨_, (exec_time false).trans (congrArg Host.Outcome.next heard), rfl, rfl, rfl⟩

theorem frameValid_facts {type : Nat} (valid : frameValid type b = true) : b.length = 10 + fLen b ∧ fSrc b < 512 := by
  unfold frameValid at valid
  simp only [Bool.and_eq_true, beq_iff_eq, decide_eq_true_eq] at valid
  obtain ⟨⟨⟨⟨⟨⟨⟨⟨length, -⟩, src⟩, -⟩, -⟩, -⟩, -⟩, -⟩, -⟩ := valid
  exact ⟨length, src⟩

theorem timeRecorded (h : hears 0x20 b s) (us : forUs b s) (on : s.peal.timeSrcEn = true) (source : fSrc b = s.peal.timeSrc) :
    ∃ t, exec (.time b false) s = .next t ∧ t.time.pealValid = true ∧ t.time.pealSrc.toNat = fSrc b ∧ t.time.pealAt = s.tick ∧ t.time.now = s.time.now ∧
      t.time.pealOfs = BitVec.ofNat 64 (ofSigned 64 (satSigned 64 (DevTime.diff s.time.now
        ((DevTime.ofFull (rd b 6 16)).add ((s.time.pealDelay.toNat * 2 ^ 24 : Nat) : Int))))) := by
  obtain ⟨c, d, m, heard⟩ := pealRx_acts (timeAct b) h us
  have taken_ : timeAct b (observed 0x20 b c d m s) = timeTaken (pealOfs b (observed 0x20 b c d m s)) b (observed 0x20 b c d m s) := if_pos (by
    change (s.peal.timeSrcEn && fSrc b == s.peal.timeSrc) = true
    simp [on, source])
  obtain ⟨valid, source', at_, now, ofs⟩ := timeTaken_time (pealOfs b (observed 0x20 b c d m s)) b (observed 0x20 b c d m s)
  rw [pealOfs_observed] at ofs
  refine ⟨_, (exec_time false).trans (congrArg Host.Outcome.next (heard.trans taken_)), valid, ?_, at_, now, ofs⟩
  rw [source', BitVec.toNat_ofNat]
  exact Nat.mod_eq_of_lt (frameValid_facts h.2.1).2

/-! ## The log of frames (R558, R663) -/

theorem logFrame_log {type : Nat} (valid : frameValid type b = true) (u : State) :
    ((logFrame type b u).peal.log.get u.peal.logNext).take (7 + fLen b) = BitVec.ofNat 8 type :: b.take (6 + fLen b) := by
  have entry : (logFrame type b u).peal.log.get u.peal.logNext =
      (BitVec.ofNat 8 type :: b.take (6 + fLen b)) ++ List.replicate (44 - 7 - fLen b) 0 := SMap.get_put_same ..
  rw [entry]
  refine List.take_left' ?_
  rw [List.length_cons, List.length_take, (frameValid_facts valid).1]
  omega

theorem alerted {ty : Nat} (named : ty = 0x21 ∨ 0x80 ≤ ty) (lt : ty < 256) (h : hears ty b s) (us : forUs b s) :
    ∃ t, exec (.alert (BitVec.ofNat 8 ty :: b) false) s = .next t ∧
      (t.peal.log.get s.peal.logNext).take (7 + fLen b) = BitVec.ofNat 8 ty :: b.take (6 + fLen b) ∧ t.peal.logNext = (s.peal.logNext + 1) % 64 ∧
      t.peal.map = s.peal.map := by
  have other : rowTypes.contains ty = false := by
    have mem : ty ∉ rowTypes := by
      simp only [rowTypes, List.mem_cons, List.not_mem_nil, or_false]
      omega
    simpa using mem
  have good : (false || (decide (ty < 0x80) && ty != 0x21)) = false := by
    rcases named with e | high
    · simp [e]
    · simp [Nat.not_lt.2 high]
  have same (m : List Nat) : mapFrame ty b m = m := by
    unfold mapFrame
    split
    · omega
    · omega
    · omega
    · omega
    · rfl
  obtain ⟨c, d, m, heard⟩ := pealRx_acts (alertAct ty b) h us
  have peal : (alertAct ty b (observed ty b c d m s)).peal = (logFrame ty b (observed ty b c d m s)).peal := postAll_peal ..
  refine ⟨_, (exec_alert lt other b false s).trans (by rw [good, heard]), ?_, ?_, ?_⟩
  · rw [peal]
    exact logFrame_log h.2.1 (observed ty b c d m s)
  · rw [peal]
    rfl
  · rw [peal]
    exact same s.peal.map

theorem telemetryLogged (h : hears 0x22 b s) (us : forUs b s) : ∃ t, exec (.telemetry b false) s = .next t ∧
    (t.peal.log.get s.peal.logNext).take (7 + fLen b) = 0x22 :: b.take (6 + fLen b) ∧ t.peal.logNext = (s.peal.logNext + 1) % 64 ∧ t.out = s.out := by
  obtain ⟨c, d, m, heard⟩ := pealRx_acts (logFrame 0x22 b) h us
  exact ⟨_, congrArg Host.Outcome.next heard, logFrame_log h.2.1 (observed 0x22 b c d m s), rfl, rfl⟩

end

end Sys2Proof.Machine

/-! The peal bus: contention and the bus's timers (R546, R549, R551, R552, R554), and the bus together. -/
namespace Sys2Proof.Machine

section
variable {s : State}

/-! ## Contention (R546, R554) -/

/-- A contender's time is over. -/
def contendOver (c : Contend) (s : State) : Bool := match c.until_ with | some d => decide (d < s.tick) | none => false

/-- A contender gives up, or stands as sent. -/
def contendNone (s : State) : State := setPeal (fun p => { p with contend := none }) s

/-- A contender's frame has clashed, and it waits again. -/
def contendAgain (c : Contend) (s : State) : State :=
  let u := pealCnt 3 (setPeal (fun p => { p with busy := s.tick }) s)
  useDraw (setPeal (fun p => { p with contend := some { c with attempt := c.attempt + 1, from_ := contendAt (c.attempt + 1) u } }) u)

/-- A contender's frame has clashed for the last time. -/
def clashedOut (s : State) : State := pealCnt 4 (contendNone (pealCnt 3 (setPeal (fun p => { p with busy := s.tick }) s)))

/-- A CLAIM has been sent: the node is a member, and its token follows. -/
def claims (u : State) : State :=
  passToken (frameBt 0) (if u.peal.member then
    setPeal (fun p => { p with recovering := false, map := mapSet p.node p.map, tokenBy := some (u.tick + msT p.tokenTo) }) u else becomeMember true u)

theorem exec_pealContendSend_idle (b : Bool) (idle : s.peal.contend = none ∨ s.peal.enabled = false) : exec (.pealContendSend b) s = .next s := by
  change execPealContendSend b s = _
  unfold execPealContendSend
  split
  · rfl
  · next c here =>
    rcases idle with none_ | off
    · rw [here] at none_
      cases none_
    · exact if_pos (by simp [off])

theorem exec_pealContendSend_early {c : Contend} (b : Bool) (here : s.peal.contend = some c) (early : s.tick < c.from_) :
    exec (.pealContendSend b) s = .next s := by
  change execPealContendSend b s = _
  unfold execPealContendSend
  rw [here]
  exact if_pos (by simp [early])

section
variable {c : Contend} (here : s.peal.contend = some c) (on : s.peal.enabled = true) (due : c.from_ ≤ s.tick)
include here on due

theorem exec_pealContendSend (clash : Bool) : exec (.pealContendSend clash) s =
    if contendOver c s = true then .next (contendNone s)
    else if clash = true then
      if c.attempt ≥ 16 then .next (clashedOut s)
      else .next (contendAgain c s)
    else if (c.type == 5) = true then .next (claims (sendPeal c.type c.dst [] (contendNone s)))
    else .next (sendPeal c.type c.dst [] (contendNone s)) := by
  have waits : ¬ (!s.peal.enabled || decide (s.tick < c.from_)) = true := by simp [on, due]
  change execPealContendSend clash s = _
  unfold execPealContendSend
  rw [here]
  refine (if_neg waits).trans ?_
  rfl

theorem exec_pealContendSend_over {d : Nat} (b : Bool) (until_ : c.until_ = some d) (late : d < s.tick) :
    exec (.pealContendSend b) s = .next { s with peal := { s.peal with contend := none } } := by
  refine (exec_pealContendSend here on due b).trans (if_pos ?_)
  rw [contendOver, until_]
  exact decide_eq_true late

end

theorem contendOver_of_until {c : Contend} (open_ : ∀ d, c.until_ = some d → s.tick ≤ d) : ¬ contendOver c s = true := by
  unfold contendOver
  split
  · next d e => simpa using open_ d e
  · decide

theorem claims_peal {u : State} (outside : u.peal.member = false) : (claims u).peal.member = true ∧ (claims u).peal.joining = false ∧
    u.peal.node ∈ (claims u).peal.map := by
  have body : claims u = passToken (frameBt 0) (becomeMember true u) := congrArg (passToken (frameBt 0)) (if_neg (by simp [outside]))
  have held := pealHeld_passToken (frameBt 0) (becomeMember true u)
  rw [body, member_of_held held, joining_of_held held, map_of_held held, becomeMember_peal]
  exact ⟨rfl, rfl, mem_mapSet.2 (.inl rfl)⟩

theorem contend_claims {u : State} (none_ : u.peal.contend = none) : (claims u).peal.contend = none := by
  unfold claims
  rw [contend_of_held (pealHeld_passToken ..)]
  split
  · exact none_
  · rw [becomeMember_peal]

theorem Grows.claims {t u : State} (h : Grows t u) : Grows t (claims u) := by
  unfold Machine.claims
  refine Grows.passToken ?_ _
  split
  · exact h.setPeal _
  · exact (h.setPeal _).postAll ..

/-- A frame that is sent ends the contention, and a CLAIM makes a member of its sender (R546, R554). -/
theorem contendSent (c : Contend) (s : State) : (sendPeal c.type c.dst [] (contendNone s)).peal.contend = none ∧
    (sendPeal c.type c.dst [] (contendNone s)).peal.member = s.peal.member ∧ (sendPeal c.type c.dst [] (contendNone s)).peal.node = s.peal.node ∧
    pealPen (contendNone s) = pealPen s := ⟨rfl, rfl, rfl, rfl⟩

theorem pealCnt_peal (i : Nat) (s : State) : (pealCnt i s).peal = s.peal := rfl
theorem pealCnt_out (i : Nat) (s : State) : (pealCnt i s).out = s.out := rfl

theorem clashedOut_kept (s : State) : (clashedOut s).peal.contend = none ∧ (clashedOut s).out = s.out := by
  unfold clashedOut
  rw [pealCnt_peal, pealCnt_out]
  exact ⟨rfl, rfl⟩

theorem contendAgain_kept (c : Contend) (s : State) : ∃ c', (contendAgain c s).peal.contend = some c' ∧ c'.attempt = c.attempt + 1 ∧
    s.tick + 32000 ≤ c'.from_ ∧ (contendAgain c s).out = s.out := by
  have wait := contendAt_ge (c.attempt + 1) (pealCnt 3 (setPeal (fun p => { p with busy := s.tick }) s))
  exact ⟨_, rfl, rfl, wait, rfl⟩

section
variable {c : Contend} (here : s.peal.contend = some c) (on : s.peal.enabled = true) (due : c.from_ ≤ s.tick)
  (open_ : ∀ d, c.until_ = some d → s.tick ≤ d)
include here on due open_

theorem exec_pealContendSend_clash : exec (.pealContendSend true) s =
    if c.attempt ≥ 16 then .next (clashedOut s) else .next (contendAgain c s) := by
  rw [exec_pealContendSend here on due, if_neg (contendOver_of_until open_), if_pos rfl]

theorem exec_pealContendSend_sent : exec (.pealContendSend false) s =
    if (c.type == 5) = true then .next (claims (sendPeal c.type c.dst [] (contendNone s))) else .next (sendPeal c.type c.dst [] (contendNone s)) := by
  rw [exec_pealContendSend here on due, if_neg (contendOver_of_until open_), if_neg Bool.false_ne_true]

theorem contendSends : ∃ t, exec (.pealContendSend false) s = .next t ∧ t.peal.contend = none ∧ sentFirst c.type c.dst [] s t ∧
      (c.type = 5 → s.peal.member = false → t.peal.member = true ∧ t.peal.joining = false ∧ s.peal.node ∈ t.peal.map) := by
  have runs := exec_pealContendSend_sent here on due open_
  obtain ⟨none_, member, node, pen⟩ := contendSent c s
  have sent := Grows.refl (sendPeal c.type c.dst [] (contendNone s))
  by_cases claim : c.type = 5
  · rw [if_pos (beq_iff_eq.2 claim)] at runs
    refine ⟨_, runs, contend_claims none_, sentFirst_of_grows pen sent.claims, fun _ outside => ?_⟩
    rw [← node]
    exact claims_peal (member.trans outside)
  · rw [if_neg (mt beq_iff_eq.1 claim)] at runs
    exact ⟨_, runs, none_, sentFirst_of_grows pen sent, fun e => absurd e claim⟩

theorem contends :
    (c.attempt < 16 → ∃ t c', exec (.pealContendSend true) s = .next t ∧ t.peal.contend = some c' ∧ c'.attempt = c.attempt + 1 ∧
      s.tick + 32000 ≤ c'.from_ ∧ t.out = s.out) ∧
    (16 ≤ c.attempt → ∃ t, exec (.pealContendSend true) s = .next t ∧ t.peal.contend = none ∧ t.out = s.out) ∧
    (∃ t, exec (.pealContendSend false) s = .next t ∧ t.peal.contend = none ∧ sentFirst c.type c.dst [] s t ∧
      (c.type = 5 → s.peal.member = false → t.peal.member = true ∧ t.peal.joining = false ∧ s.peal.node ∈ t.peal.map)) := by
  have clashes := exec_pealContendSend_clash here on due open_
  refine ⟨fun few => ?_, fun many => ⟨clashedOut s, clashes.trans (if_pos many), clashedOut_kept s⟩, contendSends here on due open_⟩
  obtain ⟨c', again⟩ := contendAgain_kept c s
  exact ⟨contendAgain c s, c', clashes.trans (if_neg (Nat.not_le.2 few)), again⟩

end

/-! ## The silence of the bus (R554) -/

theorem exec_pealSilence_idle (idle : s.peal.enabled = false ∨ (s.peal.joining = false ∧ s.peal.recovering = false) ∨
    (∃ c, s.peal.contend = some c ∧ c.type = 5)) : exec .pealSilence s = .next s := by
  change execPealSilence s = _
  unfold execPealSilence
  refine if_pos ?_
  rcases idle with off | ⟨joins, recovers⟩ | ⟨c, here, claim⟩
  · simp [off]
  · simp [joins, recovers]
  · simp [here, claim]

theorem exec_pealSilence_early (early : s.tick < s.peal.busy + 1600000) : exec .pealSilence s = .next s := by
  have early' : s.tick < s.peal.busy + msT 2 := early
  change execPealSilence s = _
  unfold execPealSilence
  exact if_pos (by simp [early'])

theorem silenceClaims (on : s.peal.enabled = true) (seeks : s.peal.joining = true ∨ s.peal.recovering = true)
    (silent : s.peal.busy + 1600000 ≤ s.tick) (other : ∀ c, s.peal.contend = some c → c.type ≠ 5) :
    ∃ t c, exec .pealSilence s = .next t ∧ t.peal.contend = some c ∧ c.type = 5 ∧ c.dst = 0x8000 ∧ c.until_ = none ∧ t.out = s.out := by
  have late : ¬ s.tick < s.peal.busy + msT 2 := Nat.not_lt.2 silent
  have free : (match s.peal.contend with | some c => c.type == 5 | none => false) = false := by
    split
    · next c here => simpa using other c here
    · rfl
  have runs : exec .pealSilence s = .next (startContend 5 bcast none (if s.peal.recovering then s else pealCnt 6 s)) := by
    change execPealSilence s = _
    unfold execPealSilence
    refine if_neg ?_
    rw [Bool.or_eq_true, not_or]
    refine ⟨?_, Bool.eq_false_iff.1 free⟩
    rcases seeks with joins | recovers
    · simp [on, joins, late]
    · simp [on, recovers, late]
  refine ⟨_, _, runs, rfl, rfl, rfl, rfl, ?_⟩
  change (if s.peal.recovering = true then s else pealCnt 6 s).out = s.out
  split <;> rfl

/-! ## The successor (R549) -/

/-- A node is dropped from the map, and counted. -/
def droppedNode (n : Nat) (s : State) : State := pealCnt 5 (setPeal (fun p => { p with map := mapClear n p.map }) s)

/-- The node that follows one that is dropped. -/
def nextAfter (n : Nat) (s : State) : Nat := if successor (mapClear n s.peal.map) n == n then s.peal.node else successor (mapClear n s.peal.map) n

theorem nextAfter_ne {n : Nat} (other : n ≠ s.peal.node) : nextAfter n s ≠ n := by
  unfold nextAfter
  split
  · exact other.symm
  · next ne => exact mt beq_iff_eq.2 ne

theorem exec_pealSuccessorWatch_idle (idle : s.peal.watch = none) : exec .pealSuccessorWatch s = .next s := by
  change execPealSuccessorWatch s = _
  rw [execPealSuccessorWatch, idle]

theorem exec_pealSuccessorWatch {n k d : Nat} (here : s.peal.watch = some (n, k, d)) : exec .pealSuccessorWatch s =
    if s.tick < d then .next s else if (k == 1) = true then .next (sendToken n 2 0 none s)
    else .next (sendToken (nextAfter n s) 1 0 (some n) (droppedNode n s)) := by
  change execPealSuccessorWatch s = _
  unfold execPealSuccessorWatch
  rw [here]
  rfl

theorem successorTried {n k d : Nat} (here : s.peal.watch = some (n, k, d)) (due : d ≤ s.tick) (first : k = 1) (other : n ≠ s.peal.node) :
    ∃ t u, exec .pealSuccessorWatch s = .next t ∧ sentFirst 1 n [0, 0] s t ∧ t.peal.watch = some (n, 2, u) ∧ t.peal.map = s.peal.map := by
  obtain ⟨w, own, eq, watched⟩ := sendToken_eq n 2 0 none s
  refine ⟨_, s.tick + btT (0 + 140 + 80), (exec_pealSuccessorWatch here).trans ((if_neg (Nat.not_lt.2 due)).trans (if_pos (beq_iff_eq.2 first))),
    sentFirst_sendToken rfl n 2 0 none, ?_, map_of_held (pealHeld_sendToken ..)⟩
  rw [eq]
  exact watched other

theorem successorDropped {n k d : Nat} (here : s.peal.watch = some (n, k, d)) (due : d ≤ s.tick) (second : k ≠ 1) :
    ∃ t next, exec .pealSuccessorWatch s = .next t ∧ n ∉ t.peal.map ∧ sentFirst 1 next (bytesOf 2 (2 ^ 15 + n)) s t ∧
      (n ≠ s.peal.node → next ≠ n) := by
  refine ⟨_, nextAfter n s, (exec_pealSuccessorWatch here).trans ((if_neg (Nat.not_lt.2 due)).trans (if_neg (mt beq_iff_eq.1 second))), ?_,
    sentFirst_sendToken (u := droppedNode n s) rfl (nextAfter n s) 1 0 (some n), nextAfter_ne⟩
  rw [map_of_held (pealHeld_sendToken ..)]
  exact fun mem => (mem_mapClear.1 mem).1 rfl

/-! ## The token's timeout (R551) -/

theorem exec_pealTokenTimeout_idle (idle : s.peal.tokenBy = none ∨ s.peal.member = false) : exec .pealTokenTimeout s = .next s := by
  change execPealTokenTimeout s = _
  unfold execPealTokenTimeout
  split
  · rfl
  · next d here =>
    rcases idle with none_ | outside
    · rw [here] at none_
      cases none_
    · exact if_pos (by simp [outside])

/-- The token is lost, but the bus lives: the node joins again. -/
def tokenDropped (s : State) : State :=
  setPeal (fun p => { p with tokenBy := none, member := false, joining := true, map := mapClear p.node p.map }) s

/-- The token is lost with the bus: the node recovers it. -/
def tokenRecovers (s : State) : State := pealCnt 6 (setPeal (fun p => { p with tokenBy := none, recovering := true }) s)

theorem exec_pealTokenTimeout {d : Nat} (here : s.peal.tokenBy = some d) : exec .pealTokenTimeout s =
    if (decide (s.tick < d) || !s.peal.member) = true then .next s
    else if s.tick < s.peal.lastRx + 1600000 then .next (postTokenLost true (tokenDropped s))
    else .next (postTokenLost false (tokenRecovers s)) := by
  change execPealTokenTimeout s = _
  unfold execPealTokenTimeout
  rw [here]
  rfl

theorem postTokenLost_peal (dropped : Bool) (s : State) : (postTokenLost dropped s).peal = s.peal := postAll_peal ..

theorem tokenTimesOut {d : Nat} (here : s.peal.tokenBy = some d) (member : s.peal.member = true) :
    (s.tick < d → exec .pealTokenTimeout s = .next s) ∧
    (d ≤ s.tick → s.tick < s.peal.lastRx + 1600000 → ∃ t, exec .pealTokenTimeout s = .next t ∧ t.peal.member = false ∧ t.peal.joining = true ∧
      s.peal.node ∉ t.peal.map) ∧
    (d ≤ s.tick → s.peal.lastRx + 1600000 ≤ s.tick → ∃ t, exec .pealTokenTimeout s = .next t ∧ t.peal.member = true ∧ t.peal.recovering = true ∧
      t.peal.tokenBy = none) := by
  have runs := exec_pealTokenTimeout here
  have due (late : d ≤ s.tick) : ¬ (decide (s.tick < d) || !s.peal.member) = true := by simp [member, late]
  refine ⟨fun early => runs.trans (if_pos (by simp [early])), fun late alive => ?_, fun late silent => ?_⟩
  · refine ⟨_, runs.trans ((if_neg (due late)).trans (if_pos alive)), ?_⟩
    rw [postTokenLost_peal]
    exact ⟨rfl, rfl, fun mem => (mem_mapClear.1 mem).1 rfl⟩
  · refine ⟨_, runs.trans ((if_neg (due late)).trans (if_neg (Nat.not_lt.2 silent))), ?_⟩
    rw [postTokenLost_peal]
    exact ⟨member, rfl, rfl⟩

/-! ## The join window (R552) -/

theorem exec_pealJoinWindowEnd_idle (idle : s.peal.window = none) : exec .pealJoinWindowEnd s = .next s := by
  change execPealJoinWindowEnd s = _
  rw [execPealJoinWindowEnd, idle]

/-- The join window is over. -/
def windowOver (s : State) : State := setPeal (fun p => { p with window := none }) s

theorem joinWindowEnds {d : Nat} (here : s.peal.window = some d) : (s.tick < d → exec .pealJoinWindowEnd s = .next s) ∧
    (d ≤ s.tick → ∃ t, exec .pealJoinWindowEnd s = .next t ∧ t.peal.window = none ∧ sentFirst 1 (successor s.peal.map s.peal.node) [0, 0] s t) := by
  have runs : exec .pealJoinWindowEnd s = if s.tick < d then .next s else .next (passToken 0 (windowOver s)) := by
    change execPealJoinWindowEnd s = _
    unfold execPealJoinWindowEnd
    rw [here]
    rfl
  refine ⟨fun early => runs.trans (if_pos early), fun due => ⟨_, runs.trans (if_neg (Nat.not_lt.2 due)), window_passToken .., ?_⟩⟩
  exact sentFirst_sendToken (u := windowOver s) rfl (successor s.peal.map s.peal.node) 1 0 none

end

/-! ## The bus -/

theorem exec_alert_disabled {s : State} (b : List Byte) (bad : Bool) (off : s.peal.enabled = false) : exec (.alert b bad) s = .next s := by
  change execAlert b bad s = _
  unfold execAlert
  dsimp only
  split
  · rfl
  · rw [pealRx_disabled _ _ off]

/-- Settles O55: frames are discarded, observed or acted on, and each type and each timer is read off its own lemma. -/
theorem thePealBusPassesItsToken : Obligations.ThePealBusPassesItsToken := by
  unfold Obligations.ThePealBusPassesItsToken
  refine ⟨?_, fun s b bad i ty on row => ⟨frameDiscarded on row, ?_⟩, fun s ty b bad row => exec_alert_row row b bad s,
    fun s b h => ⟨fun dst member stays _ => tokenStays h dst member stays, tokenLeaves h, tokenPasses h⟩, fun _ _ => solicited, fun _ _ => solicitIdle,
    fun _ _ => joinReqIdle, fun _ _ _ => joinReqAdmits, fun _ _ => joinAckIdle,
    fun s b h joins => ⟨joinAckJoins h joins, joinAckOther h joins⟩, fun _ _ => claimed, fun _ _ => left, fun _ _ => timeIdle, fun _ _ => timeRecorded,
    fun _ _ _ => alerted, fun _ _ => telemetryLogged, fun _ _ => contends, fun s c d b here on due => exec_pealContendSend_over here on due b,
    fun _ b => exec_pealContendSend_idle b,
    fun _ => ⟨exec_pealSuccessorWatch_idle, exec_pealTokenTimeout_idle, exec_pealJoinWindowEnd_idle, exec_pealSilence_idle⟩,
    fun _ _ b => exec_pealContendSend_early b, fun s n k d here => ⟨fun early => (exec_pealSuccessorWatch here).trans (if_pos early),
      successorTried here, successorDropped here⟩, fun _ _ => tokenTimesOut, fun _ _ => joinWindowEnds,
    fun s on seeks => ⟨exec_pealSilence_early, silenceClaims on seeks⟩⟩
  · intro s b bad off
    have still (ty : Nat) (act : State → State) (bad' : Bool) : (Host.Outcome.next (pealRx ty b bad' act s) : Host.Outcome State Fault Refusal) = .next s :=
      congrArg Host.Outcome.next (pealRx_disabled act bad' off)
    exact ⟨still .., still .., still .., still .., still .., still .., still .., still .., still .., still .., exec_alert_disabled b bad off, still ..⟩
  · rintro rfl valid named some_
    exact ⟨frameOwn on row valid named some_, frameAside on row valid named some_⟩

end Sys2Proof.Machine
